-- ==== Sys2Proof/Word.lean ====
section
/-! DEFINITION. The word types of the model: fixed-width bit vectors for what software sees as words (spec 00, Notation). -/

namespace Sys2Proof

/-- One byte. -/
abbrev Byte := BitVec 8
/-- A 32-bit word: an FP32 code, a status register, a unit ID (R6). -/
abbrev W32 := BitVec 32
/-- A 64-bit word. -/
abbrev W64 := BitVec 64
/-- A counter of 48 bits that wraps at its width. -/
abbrev C48 := BitVec 48
/-- One instruction of a tile stream (R124). -/
abbrev IWord := BitVec 128
/-- One scratchpad or store word of 32 bytes without its check code (R152). -/
abbrev Line := BitVec 256
/-- The data of one mesh flit (R168). -/
abbrev Flit := BitVec 512

end Sys2Proof
end

