-- ==== Sys2Proof/Config.lean ====
section
/-! DEFINITION. The free values: constants without a body, so that nothing can be proved about which value they give. A statement that
mentions one holds whatever it is. Each is named in the assumption log entry its docstring gives. -/

namespace Sys2Proof

/-- The function unit's result for operation OP and operand a where the spec gives a bound and no value (R107), entry 6. -/
opaque Config.funcUnit : Nat → W32 → W32
/-- f'(a) as the derivative stage forms it (R108), entry 6. -/
opaque Config.derivUnit : Nat → W32 → W32
/-- A fresh number the module draws and no rule fixes (nonces, IVs, keys, MAC-derived identities), by the draw counter, entry 1. -/
opaque Config.freeNat : Nat → Nat
/-- A free byte string of n bytes, by the draw counter, entry 1. -/
opaque Config.freeBytes : Nat → Nat → List Byte
/-- Where in its triangle the spread stands at Keeper time 0, in 1/21 of a third of a nanosecond (R23), entry 4. -/
opaque Config.spreadPhase : Nat
/-- OFFSET of a stream whose next flit has none, by beat, stream and position (R223, entry 59). -/
opaque Config.openOffset : Nat → Nat → Nat → Nat
/-- A CXL.cache read of a far page fails: by beat, extent and byte offset (R206, entry 58). -/
opaque Config.farFails : Nat → Nat → Nat → Bool
/-- The marks of a plan set image put a backward product before the last forward one (R225, entry 64). -/
opaque Config.backwardFirst : List Byte → Bool
/-- The buddy's report that an extent number of its own names a kind-5 extent of a context: by beat, context and number (R241, entry 65). -/
opaque Config.buddyHolds : Nat → Nat → Nat → Bool
/-- The factory voltage table: the setpoint in mV at clock setting m in region r (R392), entry 9. -/
opaque Config.voltTable : Nat → Nat → Nat
/-- The table's floor at clock setting m in region r (R392), entry 9. -/
opaque Config.voltFloor : Nat → Nat → Nat
/-- The energy in nJ that a rim unit's sensor gives for a beat: stack controllers 0 to 23, rim sides 24 to 27 (R385, R387), entry 23. -/
opaque Config.rimEnergy : Nat → Nat → Nat
/-- The part of a region's energy in an aggregation window, in µJ, that is its transit domain's (R386), entry 23. -/
opaque Config.transitShare : Nat → Nat → Nat
/-- The worst eye margin of a rim side's links in an aggregation window (R386), entry 23. -/
opaque Config.eyeMargin : Nat → Nat → Nat
/-- The temperature, in 0.25 °C, of a rim side (0 to 3) or the Keeper (4) in a beat (R407), entry 23. -/
opaque Config.sideTemp : Nat → Nat → Int
/-- AES-256-GCM: ciphertext and tag of a plaintext under key, IV and associated data (R273), entry 10. -/
opaque Config.aesGcmSeal : Nat → Nat → List Byte → List Byte → List Byte
/-- The plaintext of a sealed capsule payload where its tag holds (R274), entry 10. -/
opaque Config.aesGcmOpen : Nat → Nat → List Byte → List Byte → Option (List Byte)
/-- A content key wrapped under a key-encryption key (AES key wrap, R273), entry 10. -/
opaque Config.keyWrap : Nat → Nat → List Byte
/-- The content key that a wrapped key carries under a key-encryption key (AES key wrap, R273), entry 10. -/
opaque Config.keyUnwrap : Nat → List Byte → Option Nat
/-- The ECDSA signature (r, s) the module's identity key gives over a digest (R453), entry 11. -/
opaque Config.moduleSign : Nat → Nat → Nat × Nat

end Sys2Proof
end

