-- ==== Sys2Proof/Machine/Tab.lean ====
section
/-! DEFINITION. Sparse tables in one canonical form: the machine's many like parts (regions, tiles, pages, contexts) are held as
(number, content) pairs in rising order, with no pair whose content is the part's reset content, so that equal machines are equal data. -/

namespace Sys2Proof.Machine

/-- A sparse table: pairs in strictly rising order of their numbers, none equal to the default. -/
abbrev Tab (α : Type) := List (Nat × α)

/-- The content at number `k`; `d` where none is listed. -/
def Tab.get {α : Type} (d : α) : Tab α → Nat → α
  | [], _ => d
  | (j, v) :: t, k => if k = j then v else if k < j then d else Tab.get d t k

/-- Remove number `k`. -/
def Tab.del {α : Type} : Tab α → Nat → Tab α
  | [], _ => []
  | (j, v) :: t, k => if k = j then t else if k < j then (j, v) :: t else (j, v) :: Tab.del t k

/-- List `v` at number `k`, whatever it is. -/
def Tab.put {α : Type} : Tab α → Nat → α → Tab α
  | [], k, v => [(k, v)]
  | (j, w) :: t, k, v =>
    if k = j then (k, v) :: t else if k < j then (k, v) :: (j, w) :: t else (j, w) :: Tab.put t k v

/-- Write `v` at number `k`, keeping the canonical form: writing the default removes the pair. -/
def Tab.set {α : Type} [DecidableEq α] (d : α) (t : Tab α) (k : Nat) (v : α) : Tab α :=
  if v = d then Tab.del t k else Tab.put t k v

/-- Change the content at number `k`. -/
def Tab.upd {α : Type} [DecidableEq α] (d : α) (t : Tab α) (k : Nat) (f : α → α) : Tab α :=
  Tab.set d t k (f (Tab.get d t k))

/-- The numbers above `k` in rising order and no content equal to the default. -/
def Tab.wfFrom {α : Type} [DecidableEq α] (d : α) : Nat → Tab α → Bool
  | _, [] => true
  | k, (j, v) :: t => decide (k ≤ j) && decide (v ≠ d) && Tab.wfFrom d (j + 1) t

/-- The canonical form. -/
def Tab.wf {α : Type} [DecidableEq α] (d : α) (t : Tab α) : Bool := Tab.wfFrom d 0 t

/-- Change every listed content by `f`, which must leave the default alone; pairs that become the default are dropped. -/
def Tab.mapV {α : Type} [DecidableEq α] (d : α) (f : Nat → α → α) (t : Tab α) : Tab α :=
  (t.map (fun p => (p.1, f p.1 p.2))).filter (fun p => decide (p.2 ≠ d))

/-- Change the contents of the numbers in `ks`. -/
def Tab.updAll {α : Type} [DecidableEq α] (d : α) (f : Nat → α → α) (t : Tab α) (ks : List Nat) : Tab α :=
  ks.foldl (fun t k => Tab.upd d t k (f k)) t

/-- The numbers listed. -/
def Tab.keys {α : Type} (t : Tab α) : List Nat := t.map Prod.fst

/-! Memories: tables of bytes (Host.Cell) whose unlisted bytes read zero. -/

/-- A byte memory in canonical form. What an unlisted address reads as is `Mem.fill`. -/
abbrev Mem := List Host.Cell

/-- What an unlisted byte reads as: zero. Tile scratchpads are zero-filled at boot (R377) and store pages on first touch (R200);
stack and host bytes that nothing has written are DESIGN CHOICE, entry 3. -/
def Mem.fill : Byte := 0

/-- One byte. -/
def Mem.rd (m : Mem) (a : Nat) : Byte := Tab.get Mem.fill m a
/-- Write one byte, keeping the canonical form. -/
def Mem.wr (m : Mem) (a : Nat) (b : Byte) : Mem := Tab.set Mem.fill m a b
/-- The canonical form of a memory. -/
def Memory.wf (m : Mem) : Bool := Tab.wf Mem.fill m

/-- `n` bytes from address `a` on. -/
def Mem.rdBytes (m : Mem) (a : Nat) : Nat → List Byte
  | 0 => []
  | n + 1 => m.rd a :: Mem.rdBytes m (a + 1) n
/-- Write bytes from address `a` on. -/
def Mem.wrBytes (m : Mem) (a : Nat) : List Byte → Mem
  | [] => m
  | b :: bs => Mem.wrBytes (m.wr a b) (a + 1) bs
/-- A little-endian number of `n` bytes (R78). -/
def Mem.rdLE (m : Mem) (a : Nat) : Nat → Nat
  | 0 => 0
  | n + 1 => (m.rd a).toNat + 256 * Mem.rdLE m (a + 1) n
/-- The `n` little-endian bytes of `v`. -/
def leBytes : Nat → Nat → List Byte
  | 0, _ => []
  | n + 1, v => BitVec.ofNat 8 v :: leBytes n (v / 256)
/-- The number little-endian bytes spell. -/
def ofLE : List Byte → Nat
  | [] => 0
  | b :: bs => b.toNat + 256 * ofLE bs
/-- Write `v` as `n` little-endian bytes. -/
def Mem.wrLE (m : Mem) (a n v : Nat) : Mem := m.wrBytes a (leBytes n v)
/-- Zero `n` bytes from `a` on. -/
def Mem.zero (m : Mem) (a n : Nat) : Mem := m.filter (fun c => decide (c.1 < a ∨ a + n ≤ c.1))

/-! Bit fields of registers and descriptors held as numbers. -/

/-- Bits `hi` to `lo` of a number (MSB first, as the manual writes ranges). -/
def bits (v hi lo : Nat) : Nat := (v >>> lo) % 2 ^ (hi + 1 - lo)
/-- Bit `i` of a number. -/
def bit (v i : Nat) : Bool := v.testBit i
/-- A field of `w` bits placed at `lo`. -/
def fld (v w lo : Nat) : Nat := (v % 2 ^ w) <<< lo
/-- One as a Bool, zero otherwise. -/
def b2n (b : Bool) : Nat := if b then 1 else 0
/-- A field of `w` bits read as two's complement. -/
def sgn (v w : Nat) : Int := if v % 2 ^ w < 2 ^ (w - 1) then (v % 2 ^ w : Nat) else ((v % 2 ^ w : Nat) : Int) - (2 ^ w : Nat)
/-- The least of a non-empty list, `d` for the empty one. -/
def minOf (d : Nat) : List Nat → Nat
  | [] => d
  | x :: xs => xs.foldl min x

end Sys2Proof.Machine
end

