-- ==== Sys2Proof/Machine/Num.lean ====
section
/-! DEFINITION. Exact numbers and the number formats of spec 03: decoding, rounding (R85), overflow (R86, R87), MX blocks (R88),
the draw function (R90), and FP32 / FP64 arithmetic rounded once. -/

namespace Sys2Proof.Machine

/-- A value of a floating format, exact: a NaN, an infinity with its sign, or (-1)^neg * mag * 2^e. -/
inductive Val where
  | nan
  | inf (neg : Bool)
  | fin (neg : Bool) (mag : Nat) (e : Int)
  deriving DecidableEq, Repr

/-- The sticky flags of R91. -/
structure Flags where
  of : Bool := false
  uf : Bool := false
  ix : Bool := false
  iv : Bool := false
  deriving DecidableEq, Repr

/-- Flags are ORed together (R61). -/
def Flags.or (a b : Flags) : Flags := ⟨a.of || b.of, a.uf || b.uf, a.ix || b.ix, a.iv || b.iv⟩
/-- No flag. -/
def Flags.none : Flags := {}
/-- The flags as bits 3:0 of a status register: OF UF IX IV. -/
def Flags.toBits (f : Flags) : Nat := 8 * b2n f.of + 4 * b2n f.uf + 2 * b2n f.ix + b2n f.iv

/-- Zero of either sign. -/
def Val.zero (neg : Bool) : Val := .fin neg 0 0
/-- Is it a NaN? -/
def Val.isNan : Val → Bool
  | .nan => true
  | _ => false
/-- Is it an infinity? -/
def Val.isInf : Val → Bool
  | .inf _ => true
  | _ => false
/-- Is it a zero? -/
def Val.isZero : Val → Bool
  | .fin _ 0 _ => true
  | _ => false
/-- Its sign. -/
def Val.neg? : Val → Bool
  | .nan => false
  | .inf n => n
  | .fin n _ _ => n
/-- The value with its sign changed. -/
def Val.negate : Val → Val
  | .nan => .nan
  | .inf n => .inf (!n)
  | .fin n m e => .fin (!n) m e
/-- The magnitude. -/
def Val.abs : Val → Val
  | .nan => .nan
  | .inf _ => .inf false
  | .fin _ m e => .fin false m e

/-- A finite value's signed numerator over 2^e. -/
def sInt (neg : Bool) (m : Nat) : Int := if neg then -(m : Int) else (m : Int)
/-- From a signed numerator; a zero takes the sign given. -/
def ofSInt (z : Bool) (i : Int) (e : Int) : Val := .fin (if i = 0 then z else decide (i < 0)) i.natAbs e

/-- Exact sum. An exact zero from unlike signs is +0 (PRESUMED, entry 5: the IEEE 754 rule for round to nearest). -/
def Val.add : Val → Val → Val
  | .nan, _ => .nan
  | _, .nan => .nan
  | .inf a, .inf b => if a = b then .inf a else .nan
  | .inf a, _ => .inf a
  | _, .inf b => .inf b
  | .fin n1 m1 e1, .fin n2 m2 e2 =>
    let e := min e1 e2
    ofSInt (n1 && n2) (sInt n1 (m1 <<< (e1 - e).toNat) + sInt n2 (m2 <<< (e2 - e).toNat)) e

/-- Exact product; infinity times zero is a NaN. -/
def Val.mul : Val → Val → Val
  | .nan, _ => .nan
  | _, .nan => .nan
  | .inf a, .inf b => .inf (a != b)
  | .inf a, .fin n m _ => if m = 0 then .nan else .inf (a != n)
  | .fin n m _, .inf a => if m = 0 then .nan else .inf (a != n)
  | .fin n1 m1 e1, .fin n2 m2 e2 => .fin (n1 != n2) (m1 * m2) (e1 + e2)

/-- Times a power of two. -/
def Val.scale (v : Val) (k : Int) : Val :=
  match v with
  | .fin n m e => .fin n m (e + k)
  | v => v

/-- Did an operation on these operands make a NaN out of operands that are not NaN? (R91) -/
def newNan (r : Val) (ops : List Val) : Bool := r.isNan && !(ops.any Val.isNan)

/-- Numeric order of two values that are not NaN: -1, 0 or 1; zeros compare equal. -/
def Val.cmp : Val → Val → Int
  | .inf a, .inf b => if a = b then 0 else if a then -1 else 1
  | .inf a, _ => if a then -1 else 1
  | _, .inf b => if b then 1 else -1
  | .fin n1 m1 e1, .fin n2 m2 e2 =>
    let e := min e1 e2
    let x := sInt n1 (m1 <<< (e1 - e).toNat)
    let y := sInt n2 (m2 <<< (e2 - e).toNat)
    if x < y then -1 else if x = y then 0 else 1
  | _, _ => 0
/-- a < b; false with a NaN (R105). -/
def Val.lt (a b : Val) : Bool := !a.isNan && !b.isNan && decide (Val.cmp a b < 0)
/-- a = b as numbers. -/
def Val.eq (a b : Val) : Bool := !a.isNan && !b.isNan && decide (Val.cmp a b = 0)
/-- a ≤ b. -/
def Val.le (a b : Val) : Bool := !a.isNan && !b.isNan && decide (Val.cmp a b ≤ 0)

/-- floor(log2 |v|) of a finite value that is not zero. -/
def Val.log2 : Val → Int
  | .fin _ m e => (Nat.log2 m : Int) + e
  | _ => 0

/-- A floating format of *Element encodings* (R77): mantissa bits, exponent of the smallest subnormal, sign bit position, code of the
largest finite value, code of infinity if it has one, code of the canonical NaN if it has one. -/
structure Fmt where
  mb : Nat
  q0 : Int
  sb : Nat
  maxc : Nat
  infc : Option Nat
  nanc : Option Nat
  deriving DecidableEq, Repr

def fp64 : Fmt := ⟨52, -1074, 63, 0x7FEFFFFFFFFFFFFF, some 0x7FF0000000000000, some 0x7FF8000000000000⟩
def fp32 : Fmt := ⟨23, -149, 31, 0x7F7FFFFF, some 0x7F800000, some 0x7FC00000⟩
def bf16 : Fmt := ⟨7, -133, 15, 0x7F7F, some 0x7F80, some 0x7FC0⟩
def fp16 : Fmt := ⟨10, -24, 15, 0x7BFF, some 0x7C00, some 0x7E00⟩
def e5m2 : Fmt := ⟨2, -16, 7, 0x7B, some 0x7C, some 0x7E⟩
def e4m3 : Fmt := ⟨3, -9, 7, 0x7E, none, some 0x7F⟩
def e2m1 : Fmt := ⟨1, -1, 3, 0x7, none, none⟩

/-- Decode a code of a format (R77). Codes above the largest finite value are infinity where the format has it, else NaN. -/
def Fmt.dec (f : Fmt) (c : Nat) : Val :=
  let neg := c.testBit f.sb
  let mag := c % 2 ^ f.sb
  if mag > f.maxc then (if f.infc = some mag then .inf neg else .nan)
  else
    let ex := mag >>> f.mb
    let man := mag % 2 ^ f.mb
    if ex = 0 then .fin neg man f.q0 else .fin neg (2 ^ f.mb + man) (f.q0 + (ex - 1 : Nat))

/-- How a value is rounded: to nearest with ties to even, or stochastically with a 16-bit draw (R85). -/
inductive Rnd where
  | nearest
  | stoch (u : Nat)
  deriving DecidableEq, Repr

/-- The magnitude code a finite magnitude rounds to on the grid of `f` taken as unbounded above (R85), and whether it was exact. A code
above `f.maxc` has overflowed. -/
def Fmt.roundMag (f : Fmt) (r : Rnd) (m : Nat) (e : Int) : Nat × Bool :=
  if m = 0 then (0, true)
  else
    let q := max ((Nat.log2 m : Int) + e - f.mb) f.q0
    if q ≤ e then (((q - f.q0).toNat <<< f.mb) + (m <<< (e - q).toNat), true)
    else
      let sh := (q - e).toNat
      let lo := m >>> sh
      let rem := m - (lo <<< sh)
      let base := ((q - f.q0).toNat <<< f.mb) + lo
      if rem = 0 then (base, true)
      else
        let up := match r with
          | .nearest => decide (2 * rem > 2 ^ sh) || (decide (2 * rem = 2 ^ sh) && decide (lo % 2 = 1))
          | .stoch u => decide ((rem * 65536) / 2 ^ sh + u ≥ 65536)
        (if up then base + 1 else base, false)

/-- Would the rounding of this value draw? A value on the grid draws nothing (R85). -/
def Fmt.onGrid (f : Fmt) (v : Val) : Bool :=
  match v with
  | .fin _ m e => (f.roundMag .nearest m e).2
  | _ => true

/-- Below the smallest normal of the format and not zero (R91, UF). -/
def Fmt.tiny (f : Fmt) (v : Val) : Bool :=
  match v with
  | .fin n m e => decide (m ≠ 0) && Val.lt (.fin false m e) (.fin false 1 (f.q0 + f.mb)) && (n || !n)
  | _ => false

/-- The outcome of one conversion: the code, the flags, and whether it counts as saturated (CV_SATN). -/
structure Conv where
  code : Nat
  fl : Flags
  sat : Bool
  deriving DecidableEq, Repr

/-- Sign bit of a code. -/
def Fmt.sbit (f : Fmt) (neg : Bool) : Nat := if neg then 2 ^ f.sb else 0

/-- convert (R85, R86) to a floating format. `ovf` false saturates, true gives infinity or the NaN that stands for it. -/
def Fmt.conv (f : Fmt) (r : Rnd) (ovf : Bool) (v : Val) : Conv :=
  match v with
  | .nan => ⟨f.nanc.getD 0, Flags.none, false⟩
  | .inf n =>
    if ovf then ⟨match f.infc with | some c => f.sbit n + c | none => f.nanc.getD f.maxc, Flags.none, false⟩
    else ⟨f.sbit n + f.maxc, { of := true, ix := true }, true⟩
  | .fin n m e =>
    let (c, exact) := f.roundMag r m e
    if c > f.maxc then
      ⟨if ovf then (match f.infc with | some i => f.sbit n + i | none => f.nanc.getD f.maxc) else f.sbit n + f.maxc,
        { of := true, ix := true }, true⟩
    else ⟨f.sbit n + c, { ix := !exact, uf := !exact && f.tiny v }, false⟩

/-- One rounding to nearest with ties to even, overflow to infinity: the rounding of R59, R105, R177, R258. IV is the caller's. -/
def Fmt.round (f : Fmt) (v : Val) : Nat × Flags := let c := f.conv .nearest true v; (c.code, c.fl)
/-- The FP32 code of a value rounded once, without flags. -/
def rn32 (v : Val) : W32 := BitVec.ofNat 32 (fp32.round v).1
/-- The exact value of an FP32 code. -/
def v32 (w : W32) : Val := fp32.dec w.toNat

/-- An exact integer. -/
def Val.ofInt (i : Int) : Val := ofSInt false i 0

/-- convert to INT8 (R87), or any two's complement width `w`. An infinity sets IV alone and is not counted: R87 names IV for it and no more
(DESIGN CHOICE, entry 53). -/
def convInt (w : Nat) (r : Rnd) (v : Val) : Conv :=
  let hi : Int := 2 ^ (w - 1) - 1
  let enc (i : Int) : Nat := (i % (2 ^ w : Nat)).toNat
  match v with
  | .nan => ⟨0, { iv := true }, false⟩
  | .inf n => ⟨enc (if n then -hi - 1 else hi), { iv := true }, false⟩
  | .fin n m e =>
    let (k, exact) :=
      if e ≥ 0 then (m <<< e.toNat, true)
      else
        let sh := (-e).toNat
        let lo := m >>> sh
        let rem := m - (lo <<< sh)
        if rem = 0 then (lo, true)
        else
          let up := match r with
            | .nearest => decide (2 * rem > 2 ^ sh) || (decide (2 * rem = 2 ^ sh) && decide (lo % 2 = 1))
            | .stoch u => decide ((rem * 65536) / 2 ^ sh + u ≥ 65536)
          (if up then lo + 1 else lo, false)
    let i := sInt n k
    if i > hi then ⟨enc hi, { of := true, ix := true }, true⟩
    else if i < -hi - 1 then ⟨enc (-hi - 1), { of := true, ix := true }, true⟩
    else ⟨enc i, { ix := !exact }, false⟩

/-- An integer value's grid membership. -/
def intOnGrid (v : Val) : Bool := (convInt 64 .nearest v).fl.ix == false

/-- mix64 (R90). -/
def mix64 (z : W64) : W64 :=
  let z := (z ^^^ (z >>> 30)) * 0xBF58476D1CE4E5B9#64
  let z := (z ^^^ (z >>> 27)) * 0x94D049BB133111EB#64
  z ^^^ (z >>> 31)
/-- draw16 of the converter (R90). -/
def draw16 (seed : W64) (cnt : C48) (lane : Nat) : Nat :=
  (mix64 (seed ^^^ (BitVec.ofNat 64 (cnt.toNat <<< 6)) ^^^ BitVec.ofNat 64 lane)).toNat % 65536
/-- draw16v of the vector chain's pack stage `k` (R114). -/
def draw16v (seed : W64) (cnt : C48) (k lane : Nat) : Nat :=
  (mix64 (mix64 seed ^^^ (BitVec.ofNat 64 (cnt.toNat <<< 7)) ^^^ BitVec.ofNat 64 (64 * k + lane))).toNat % 65536

/-- E2M1 code to E4M3 code (R81). -/
def e2m1ToE4m3 (c : Nat) : Nat := (if c.testBit 3 then 0x80 else 0) + ([0x00, 0x30, 0x38, 0x3C, 0x40, 0x44, 0x48, 0x4C].getD (c % 8) 0)
/-- INT4 code sign-extended to INT8 (R81). -/
def int4ToInt8 (c : Nat) : Nat := if c % 16 < 8 then c % 16 else c % 16 + 240

/-- The exact value of an element code under a *Matrix operand formats* code (R47), block scale apart. -/
def elemVal (fmt c : Nat) : Val :=
  match fmt with
  | 0 => e4m3.dec c
  | 1 => e5m2.dec c
  | 2 => .ofInt (sgn c 8)
  | 3 => bf16.dec c
  | 4 => fp16.dec c
  | 5 => fp32.dec c
  | 6 => e4m3.dec c
  | 7 => e5m2.dec c
  | 8 => e2m1.dec c
  | 9 => .ofInt (sgn c 4)
  | 10 => e2m1.dec c
  | _ => .nan

/-- Groups of *Matrix operand formats*: 0 F8, 1 I8, 2 B16, 3 H16, 4 S32; none for Empty and unused codes. -/
def fmtGroup (fmt : Nat) : Option Nat :=
  match fmt with
  | 0 | 1 | 6 | 7 | 8 | 10 => some 0
  | 2 | 9 => some 1
  | 3 => some 2
  | 4 => some 3
  | 5 => some 4
  | _ => none
/-- Bits per element of a format code. -/
def fmtBits (fmt : Nat) : Nat :=
  match fmt with
  | 3 | 4 => 16
  | 5 => 32
  | 8 | 9 | 10 => 4
  | _ => 8
/-- Has the format block scales? -/
def fmtMx (fmt : Nat) : Bool := fmt == 6 || fmt == 7 || fmt == 10
/-- May the code be streamed (R47)? -/
def fmtStreamed (fmt : Nat) : Bool := decide (fmt ≤ 7)
/-- May the code be stationary (R47)? -/
def fmtStationary (fmt : Nat) : Bool := decide (fmt ≤ 10)

/-- An E8M0 block scale as a factor: a NaN for 0xFF (R80). -/
def e8m0 (s : Nat) : Val := if s % 256 = 255 then .nan else .fin false 1 ((s % 256 : Nat) - 127 : Int)
/-- An element under its block scale. -/
def scaled (v : Val) (s : Val) : Val := Val.mul v s

/-- Floating destination of a converter format code (R82); none for INT8 and unused codes. -/
def cvFmt (d : Nat) : Option Fmt :=
  match d with
  | 0 => some e4m3
  | 1 => some e5m2
  | 3 => some bf16
  | 4 => some fp16
  | 5 => some fp32
  | 6 => some e4m3
  | 7 => some e5m2
  | 10 => some e2m1
  | _ => none
/-- A used DFMT value (R82). -/
def cvFmtUsed (d : Nat) : Bool := decide (d ≤ 7) || d == 10

/-- convert of R84 for a destination that has no block scale. -/
def convElem (dfmt : Nat) (r : Rnd) (ovf : Bool) (v : Val) : Conv :=
  match cvFmt dfmt with
  | some f => f.conv r ovf v
  | none => convInt 8 r v
/-- Does converting `v` to `dfmt` draw a random value? -/
def drawsFor (dfmt : Nat) (v : Val) : Bool :=
  match cvFmt dfmt with
  | some f => !f.onGrid v
  | none => !intOnGrid v

/-- emax of R88. -/
def mxEmax (dfmt : Nat) : Int :=
  match dfmt with
  | 7 => 15
  | 10 => 2
  | _ => 8

/-- The largest magnitude of a list of finite values. -/
def maxAbs (vs : List Val) : Val := vs.foldl (fun m v => if Val.lt m v.abs then v.abs else m) (.zero false)

/-- derive_mx (R88): one scale byte, the element codes, flags and the count of saturated elements. `rnd i` is the rounding of lane i. -/
def deriveMx (dfmt : Nat) (rnd : Nat → Rnd) (vs : List Val) : Nat × List Nat × Flags × Nat :=
  if vs.any (fun v => v.isNan || v.isInf) then (255, vs.map (fun _ => 0), { iv := true }, 0)
  else
    let mx := maxAbs vs
    match cvFmt dfmt with
    | none => (0, vs.map (fun _ => 0), Flags.none, 0)
    | some f =>
      if mx.isZero then (0, vs.map (fun v => f.sbit v.neg?), Flags.none, 0)
      else
        let e0 := mx.log2 - mxEmax dfmt + 127
        let e := max 0 (min 254 e0)
        let cs := vs.zipIdx.map (fun p => f.conv (rnd p.2) false (p.1.scale (127 - e)))
        -- an element that saturates is normal clamping: IX and no OF (R88)
        let fl := cs.foldl (fun a c => a.or { c.fl with of := false }) { of := decide (e0 > 254) }
        (e.toNat, cs.map Conv.code, fl, (cs.filter Conv.sat).length)

/-- MAX: -0 is ordered below +0, and a NaN operand gives the canonical NaN (R105). -/
def maxVal (a b : Val) : Val :=
  if a.isNan || b.isNan then .nan else if Val.lt a b || (Val.eq a b && a.neg?) then b else a
/-- MIN, alike. -/
def minVal (a b : Val) : Val :=
  if a.isNan || b.isNan then .nan else if Val.lt b a || (Val.eq a b && b.neg?) then b else a
/-- An FP32 code as an engine writes it: a NaN is the canonical one, without a payload (R79). -/
def canon32 (c : Nat) : Nat := if (fp32.dec c).isNan then 0x7FC00000 else c

/-! FP32 operations rounded once (R105, R177, R258). -/

/-- a + b. -/
def f32add (a b : W32) : W32 := rn32 (Val.add (v32 a) (v32 b))
/-- a - b. -/
def f32sub (a b : W32) : W32 := rn32 (Val.add (v32 a) (v32 b).negate)
/-- a * b. -/
def f32mul (a b : W32) : W32 := rn32 (Val.mul (v32 a) (v32 b))

/-- A quotient of finite magnitudes as a value exact enough for one rounding: `k` more bits than the format holds, with a sticky bit. -/
def quotVal (neg : Bool) (m1 : Nat) (e1 : Int) (m2 : Nat) (e2 : Int) (k : Nat) : Val :=
  let sh := k + Nat.log2 m2 + 2
  let n := m1 <<< sh
  let q := n / m2
  .fin neg (2 * q + (if n % m2 = 0 then 0 else 1)) (e1 - e2 - sh - 1)
/-- a / b, exact enough for one rounding to `k` bits; x/0 is an infinity and 0/0 a NaN. -/
def Val.div (k : Nat) : Val → Val → Val
  | .nan, _ => .nan
  | _, .nan => .nan
  | .inf _, .inf _ => .nan
  | .inf a, .fin n _ _ => .inf (a != n)
  | .fin n _ _, .inf a => .zero (n != a)
  | .fin n1 m1 e1, .fin n2 m2 e2 =>
    if m2 = 0 then (if m1 = 0 then .nan else .inf (n1 != n2))
    else if m1 = 0 then .zero (n1 != n2)
    else quotVal (n1 != n2) m1 e1 m2 e2 k

/-- Integer square root by bisection on bits, structural in the number of bits. -/
def isqrt (n : Nat) : Nat → Nat
  | 0 => 0
  | b + 1 =>
    let r := 2 * isqrt (n / 4) b
    if (r + 1) * (r + 1) ≤ n then r + 1 else r
/-- Square root, exact enough for one rounding to `k` bits; of a negative number a NaN, of -0 itself. -/
def Val.sqrt (k : Nat) : Val → Val
  | .nan => .nan
  | .inf n => if n then .nan else .inf false
  | .fin n m e =>
    if m = 0 then .fin n m e
    else if n then .nan
    else
      let sh := 2 * (k + 4) + (if e % 2 = 0 then 0 else 1)
      let x := m <<< sh
      let r := isqrt x (Nat.log2 x / 2 + 1)
      .fin false (2 * r + (if r * r = x then 0 else 1)) ((e - sh) / 2 - 1)

/-- a / b in FP32. -/
def f32div (a b : W32) : W32 := rn32 (Val.div 30 (v32 a) (v32 b))
/-- sqrt a in FP32. -/
def f32sqrt (a : W32) : W32 := rn32 (Val.sqrt 30 (v32 a))
/-- A NaN or an infinity. -/
def f32nonfinite (w : W32) : Bool := (v32 w).isNan || (v32 w).isInf

/-- Rounded to FP64 as an exact value. -/
def r64 (v : Val) : Val := fp64.dec (fp64.round v).1
/-- The FP64 code of a value. -/
def c64 (v : Val) : W64 := BitVec.ofNat 64 (fp64.round v).1
/-- The exact value of an FP64 code. -/
def v64 (w : W64) : Val := fp64.dec w.toNat

end Sys2Proof.Machine
end

