-- ==== Sys2Proof/Machine/Func.lean ====
section
/-! DEFINITION. The functions of the vector chain's function unit and their derivatives as exact numbers (spec 04: R107, R108), computed in
fixed point to far more places than any FP32 spacing holds, and the bounds of both tables. The results themselves are free within the bounds. -/

namespace Sys2Proof.Machine

/-! Fixed point: an integer x stands for x / 2^512. -/

/-- One. -/
def fxOne : Int := 2 ^ 512
/-- A finite value in fixed point. -/
def fxOf : Val → Int
  | .fin n m e => sInt n (if 0 ≤ e + 512 then m <<< (e + 512).toNat else m >>> (-(e + 512)).toNat)
  | _ => 0
/-- The value of a fixed-point number. -/
def fxVal (x : Int) : Val := ofSInt false x (-512)
/-- Product. -/
def fxMul (a b : Int) : Int := a * b / fxOne
/-- Quotient; 0 where the divisor is 0. -/
def fxDiv (a b : Int) : Int := a * fxOne / b
/-- A fraction of two integers. -/
def fxRat (p q : Int) : Int := p * fxOne / q
/-- Sum of a series: term k + 1 is `next k` of term k, `weigh k` what term k adds. -/
def fxSeries (next weigh : Nat → Int → Int) : Nat → Nat → Int → Int → Int
  | 0, _, _, acc => acc
  | n + 1, k, t, acc => fxSeries next weigh n (k + 1) (next k t) (acc + weigh k t)
/-- Square a number n times. -/
def fxSquares : Nat → Int → Int
  | 0, x => x
  | n + 1, x => fxSquares n (fxMul x x)
/-- e^x for -250 < x < 250. -/
def fxExp (x : Int) : Int :=
  let r := x / 1024
  fxSquares 10 (fxSeries (fun k t => fxMul t r / (k + 1 : Nat)) (fun _ t => t) 90 0 fxOne 0)
/-- 2 * artanh z for small z. -/
def fxArtanh2 (z : Int) : Int :=
  2 * fxSeries (fun _ t => fxMul t (fxMul z z)) (fun k t => t / (2 * k + 1 : Nat)) 180 0 z 0
/-- arctan z for small z. -/
def fxArctan (z : Int) : Int :=
  fxSeries (fun _ t => -fxMul t (fxMul z z)) (fun k t => t / (2 * k + 1 : Nat)) 130 0 z 0
/-- The circle number. -/
def fxPi : Int := 16 * fxArctan (fxRat 1 5) - 4 * fxArctan (fxRat 1 239)
/-- Square root of a fixed-point number that is not negative. -/
def fxSqrt (x : Int) : Int := (isqrt (x.toNat * 2 ^ 512) 800 : Nat)
/-- ln x of a positive fixed-point number. -/
def fxLn (x : Int) : Int :=
  let k := Nat.log2 x.toNat
  let y := if k ≤ 512 then x * 2 ^ (512 - k) else x / 2 ^ (k - 512)
  ((k : Int) - 512) * fxArtanh2 (fxRat 1 3) + fxArtanh2 (fxDiv (y - fxOne) (y + fxOne))
/-- erf x for |x| < 12, by its power series. -/
def fxErf (x : Int) : Int :=
  let q := fxMul x x
  2 * fxDiv (fxSeries (fun k t => -fxMul t q / (k + 1 : Nat)) (fun k t => t / (2 * k + 1 : Nat)) 700 0 x 0) (fxSqrt fxPi)
/-- 1 / (1 + e^(-x)); beyond 250 the number next to the limit. -/
def fxSigmoid (x : Int) : Int :=
  if 250 * fxOne ≤ x then fxOne - 1 else if x ≤ -(250 * fxOne) then 1
  else if 0 ≤ x then fxDiv fxOne (fxOne + fxExp (-x)) else let e := fxExp x; fxDiv e (fxOne + e)
/-- The normal distribution function. -/
def fxPhi (x : Int) : Int :=
  if 16 * fxOne ≤ x then fxOne - 1 else if x ≤ -(16 * fxOne) then 1
  else (fxOne + fxErf (fxDiv x (fxSqrt (2 * fxOne)))) / 2
/-- The normal density. -/
def fxDensity (x : Int) : Int :=
  if 20 * fxOne ≤ x ∨ x ≤ -(20 * fxOne) then 0 else fxDiv (fxExp (-(fxMul x x) / 2)) (fxSqrt (2 * fxPi))
/-- 2 u of the GELU_T form: u = 0.79788456 (a + 0.044715 a^3); beyond 300 cut off. -/
def fxTwoU (x : Int) : Int :=
  let y := if 300 * fxOne ≤ x then 300 * fxOne else if x ≤ -(300 * fxOne) then -(300 * fxOne) else x
  2 * fxMul (fxRat 79788456 100000000) (y + fxMul (fxRat 44715 1000000) (fxMul y (fxMul y y)))

/-- f(a) of *Function unit accuracy* for a finite a at which the function is finite: exact where arithmetic gives it, else to 2^-400 and
better. An e^a beyond 2^144 answers an infinity. -/
def funcRef (op : Nat) (a : Val) : Val :=
  let x := fxOf a
  let one : Val := .fin false 1 0
  match op with
  | 0 => if 100 * fxOne ≤ x then .inf false else if x ≤ -(250 * fxOne) then fxVal 1 else fxVal (fxExp x)
  | 1 => fxVal (fxLn x)
  | 2 => Val.div 400 one a
  | 3 => Val.div 400 one (Val.sqrt 400 a)
  | 4 => fxVal (2 * fxSigmoid (2 * x) - fxOne)
  | 5 => fxVal (fxSigmoid x)
  | 6 => if 11 * fxOne ≤ x then fxVal (fxOne - 1) else if x ≤ -(11 * fxOne) then fxVal (1 - fxOne) else fxVal (fxErf x)
  | 7 => Val.mul a (fxVal (fxPhi x))
  | 8 => Val.mul a (fxVal (fxSigmoid (fxTwoU x)))
  | 9 => Val.mul a (fxVal (fxSigmoid x))
  | _ => if 250 * fxOne ≤ x then a else if x ≤ -(250 * fxOne) then fxVal 1 else fxVal (fxLn (fxOne + fxExp x))
/-- The bound of *Function unit accuracy*, in FP32 spacings. -/
def funcBound (op : Nat) : Nat := [2, 2, 1, 2, 3, 3, 3, 4, 4, 4, 3].getD op 0

/-- f'(a) of *Derivatives by re-evaluation*, formed from f(a) as the table says. At an infinity, and at a zero of RCP, RSQRT or LOG, it is the
limit (DEDUCED, entry 6). A NaN where f itself has none to give. -/
def derivRef (op : Nat) (a : Val) : Val :=
  let x := fxOf a
  let z : Val := .zero false
  let one : Val := .fin false 1 0
  match op, a with
  | _, .nan => .nan
  | 0, .inf n => if n then z else .inf false
  | 1, .inf n => .zero n
  | 2, .inf _ => .zero true
  | 3, .inf n => if n then .nan else .zero true
  | 7, .inf n => if n then z else one
  | 8, .inf n => if n then z else one
  | 9, .inf n => if n then z else one
  | 10, .inf n => if n then z else one
  | _, .inf _ => z
  | 0, .fin _ _ _ => funcRef 0 a
  | 1, .fin n m _ => if m = 0 then .inf n else Val.div 400 one a
  | 2, .fin _ m _ => if m = 0 then .inf true else (Val.div 400 one (Val.mul a a)).negate
  | 3, .fin n m _ =>
    if m = 0 then .inf (!n)
    else if n then .nan
    else let r := Val.div 400 one (Val.sqrt 400 a); (Val.mul r (Val.mul r r)).scale (-1) |>.negate
  | 4, .fin _ _ _ => let t := 2 * fxSigmoid (2 * x) - fxOne; fxVal (fxOne - fxMul t t)
  | 5, .fin _ _ _ => let s := fxSigmoid x; fxVal (fxMul s (fxOne - s))
  | 6, .fin _ _ _ =>
    if 15 * fxOne ≤ x ∨ x ≤ -(15 * fxOne) then fxVal 1 else fxVal (fxMul (fxRat 11283792 10000000) (fxExp (-(fxMul x x))))
  | 7, .fin _ _ _ => fxVal (fxPhi x + fxMul x (fxDensity x))
  | 8, .fin _ _ _ =>
    if 300 * fxOne ≤ x then one else if x ≤ -(300 * fxOne) then fxVal (-1)
    else
      let s := fxSigmoid (fxTwoU x)
      let du := fxMul (fxRat 79788456 100000000) (fxOne + fxMul (fxRat 134145 1000000) (fxMul x x))
      fxVal (s + 2 * fxMul (fxMul x du) (fxMul s (fxOne - s)))
  | 9, .fin _ _ _ =>
    if 300 * fxOne ≤ x then one else if x ≤ -(300 * fxOne) then fxVal (-1)
    else let s := fxSigmoid x; fxVal (fxMul s (fxOne + fxMul x (fxOne - s)))
  | _, .fin _ _ _ => fxVal (fxSigmoid x)
/-- The bound of *Derivatives by re-evaluation*. -/
def derivBound (op : Nat) : Nat := [3, 2, 3, 4, 4, 4, 4, 5, 6, 5, 4].getD op 0

/-- The FP32 spacing at an exact finite value: 2^-149 in the subnormal range (R107). -/
def spacing32 (v : Val) : Val := .fin false 1 (if v.isZero then -149 else max (v.log2 - 23) (-149))
/-- A result code as a point of the number line: an infinity stands one spacing above the largest finite number. -/
def linePoint (c : Nat) : Val :=
  match fp32.dec c with
  | .inf n => .fin n 1 128
  | v => v
/-- A code lies within `n` spacings of the exact value. -/
def within32 (n : Nat) (v : Val) (c : Nat) : Bool :=
  match v with
  | .fin _ _ _ => Val.le (Val.add (linePoint c) v.negate).abs (Val.mul (.fin false n 0) (spacing32 v))
  | _ => false
/-- A free result where it keeps the bound, the correctly rounded one where the free value breaks it. -/
def bounded32 (n : Nat) (v : Val) (free : Nat) : Nat := if within32 n v free then free else (fp32.round v).1

end Sys2Proof.Machine
end

