-- ==== Sys2Proof/Machine/FaultClass.lean ====
section
/-! DEFINITION. The fault classes and their fixed reactions (R411, R412). -/

namespace Sys2Proof.Machine

/-- REFLECT_MISMATCH, reaction T (R412). -/
def fcReflectMismatch : Nat := 0x0101
/-- SP_UNCORRECTABLE, reaction T (R412). -/
def fcSpUncorrectable : Nat := 0x0102
/-- ACC_UNCORRECTABLE, reaction T (R412). -/
def fcAccUncorrectable : Nat := 0x0103
/-- QUEUE_UNCORRECTABLE, reaction T (R412). -/
def fcQueueUncorrectable : Nat := 0x0104
/-- TILE_PARITY, reaction T (R412). -/
def fcTileParity : Nat := 0x0105
/-- MU_FORMAT, reaction U (R412). -/
def fcMuFormat : Nat := 0x0110
/-- VC_CONFIG, reaction U (R412). -/
def fcVcConfig : Nat := 0x0111
/-- FLAG_OVERFLOW, reaction U (R412). -/
def fcFlagOverflow : Nat := 0x0112
/-- ADDR_FAULT, reaction U (R412). -/
def fcAddrFault : Nat := 0x0113
/-- INDEX_RANGE, reaction U (R412). -/
def fcIndexRange : Nat := 0x0114
/-- CHANNEL_OVERRUN, reaction U (R412). -/
def fcChannelOverrun : Nat := 0x0115
/-- CHANNEL_UNDERRUN, reaction U (R412). -/
def fcChannelUnderrun : Nat := 0x0116
/-- PLAN_HEADER, reaction U (R412). -/
def fcPlanHeader : Nat := 0x0117
/-- SWAP_TIMEOUT, reaction U (R412). -/
def fcSwapTimeout : Nat := 0x0118
/-- CROSS_WAIT, reaction U (R412). -/
def fcCrossWait : Nat := 0x0119
/-- STREAM_STALL, reaction U (R412). -/
def fcStreamStall : Nat := 0x011A
/-- BAD_INSTR, reaction U (R412). -/
def fcBadInstr : Nat := 0x011B
/-- DROOP_LIMIT, reaction R (R412). -/
def fcDroopLimit : Nat := 0x0120
/-- MESH_UNCORRECTABLE, reaction P (R412). -/
def fcMeshUncorrectable : Nat := 0x0201
/-- PTAG_MISMATCH, reaction P (R412). -/
def fcPtagMismatch : Nat := 0x0202
/-- BOUNDARY_SLIP, reaction P (R412). -/
def fcBoundarySlip : Nat := 0x0203
/-- BEAT_ORDER_LOST, reaction P (R412). -/
def fcBeatOrderLost : Nat := 0x0204
/-- HOLD_TIMEOUT, reaction P (R412). -/
def fcHoldTimeout : Nat := 0x0205
/-- WAGGLE_LINK, reaction R (R412). -/
def fcWaggleLink : Nat := 0x0206
/-- RC_FAULT, reaction C (R412). -/
def fcRcFault : Nat := 0x0207
/-- RC_SILENT, reaction C (R412). -/
def fcRcSilent : Nat := 0x0208
/-- TRANSIT_LOST, reaction X (R412). -/
def fcTransitLost : Nat := 0x0209
/-- THERMAL_TRIP, reaction P (R412). -/
def fcThermalTrip : Nat := 0x020A
/-- REGION_POWER_HIGH, reaction R (R412). -/
def fcRegionPowerHigh : Nat := 0x020B
/-- LEASE_EXPIRED, reaction R (R412). -/
def fcLeaseExpired : Nat := 0x020C
/-- NO_SUBSTITUTE_PLAN, reaction S (R412). -/
def fcNoSubstitutePlan : Nat := 0x020D
/-- STORE_UNCORRECTABLE, reaction S (R412). -/
def fcStoreUncorrectable : Nat := 0x0301
/-- STREAM_INDEX, reaction S (R412). -/
def fcStreamIndex : Nat := 0x0302
/-- STREAM_DEADLINE, reaction S (R412). -/
def fcStreamDeadline : Nat := 0x0303
/-- STREAM_UNDERRUN, reaction S (R412). -/
def fcStreamUnderrun : Nat := 0x0304
/-- EDGE_UNCLAIMED, reaction S (R412). -/
def fcEdgeUnclaimed : Nat := 0x0305
/-- EGRESS_OVERRUN, reaction S (R412). -/
def fcEgressOverrun : Nat := 0x0306
/-- STACK_OVERTEMP, reaction R (R412). -/
def fcStackOvertemp : Nat := 0x0307
/-- RSRAM_UNCORRECTABLE, reaction P (R412). -/
def fcRsramUncorrectable : Nat := 0x0308
/-- STATE_UNCORRECTABLE, reaction R (R412). -/
def fcStateUncorrectable : Nat := 0x0309
/-- DATA_REF_LOST, reaction S (R412). -/
def fcDataRefLost : Nat := 0x030A
/-- GRAD_NONFINITE, reaction R (R412). -/
def fcGradNonfinite : Nat := 0x0401
/-- SCALE_MISMATCH, reaction P (R412). -/
def fcScaleMismatch : Nat := 0x0402
/-- REDUCE_DEADLINE, reaction P (R412). -/
def fcReduceDeadline : Nat := 0x0403
/-- REDUCE_INDEX, reaction P (R412). -/
def fcReduceIndex : Nat := 0x0404
/-- UPDATE_NONFINITE, reaction P (R412). -/
def fcUpdateNonfinite : Nat := 0x0405
/-- MIRROR_TIMEOUT, reaction P (R412). -/
def fcMirrorTimeout : Nat := 0x0406
/-- HOST_UPDATE_TIMEOUT, reaction P (R412). -/
def fcHostUpdateTimeout : Nat := 0x0407
/-- PARCEL_DENIED, reaction P (R412). -/
def fcParcelDenied : Nat := 0x0408
/-- DRIFT_EXCESS, reaction R (R412). -/
def fcDriftExcess : Nat := 0x0409
/-- WORKING_MISMATCH, reaction R (R412). -/
def fcWorkingMismatch : Nat := 0x040A
/-- STEP_SUPERSEDED, reaction P (R412). -/
def fcStepSuperseded : Nat := 0x040B
/-- STRAGGLER, reaction R (R412). -/
def fcStraggler : Nat := 0x040C
/-- FABRIC_LINK_DOWN, reaction L (R412). -/
def fcFabricLinkDown : Nat := 0x0501
/-- PEER_MISMATCH, reaction L (R412). -/
def fcPeerMismatch : Nat := 0x0502
/-- FABRIC_CREDIT_STALL, reaction R (R412). -/
def fcFabricCreditStall : Nat := 0x0503
/-- FABRIC_CTX_DENIED, reaction R (R412). -/
def fcFabricCtxDenied : Nat := 0x0504
/-- FREEZE_MISMATCH, reaction P (R412). -/
def fcFreezeMismatch : Nat := 0x0505
/-- STEP_SYNC_TIMEOUT, reaction P (R412). -/
def fcStepSyncTimeout : Nat := 0x0506
/-- MODULE_LOST, reaction P (R412). -/
def fcModuleLost : Nat := 0x0507
/-- COOLANT_FAULT, reaction M (R412). -/
def fcCoolantFault : Nat := 0x0601
/-- INPUT_OVERPOWER, reaction M (R412). -/
def fcInputOverpower : Nat := 0x0602
/-- POWER_CAP_UNMET, reaction R (R412). -/
def fcPowerCapUnmet : Nat := 0x0603
/-- KEEPER_WATCHDOG, reaction M (R412). -/
def fcKeeperWatchdog : Nat := 0x0604
/-- VARIANT_INVALID, reaction M (R412). -/
def fcVariantInvalid : Nat := 0x0605
/-- DEFECT_MAP_CORRUPT, reaction R (R412). -/
def fcDefectMapCorrupt : Nat := 0x0606
/-- DEFECT_MAP_FULL, reaction R (R412). -/
def fcDefectMapFull : Nat := 0x0607

/-- The fixed reaction of a class as its number of *Reactions*: 1 T, 2 U, 3 P, 4 S, 5 L, 6 C, 7 X, 8 M, 9 R; 0 for a code no class has. -/
def reaction (cls : Nat) : Nat :=
  if [0x0101, 0x0102, 0x0103, 0x0104, 0x0105].contains cls then 1 else
  if [0x0110, 0x0111, 0x0112, 0x0113, 0x0114, 0x0115, 0x0116, 0x0117, 0x0118, 0x0119, 0x011A, 0x011B].contains cls then 2 else
  if [0x0201, 0x0202, 0x0203, 0x0204, 0x0205, 0x020A, 0x0308, 0x0402, 0x0403, 0x0404, 0x0405, 0x0406, 0x0407, 0x0408, 0x040B, 0x0505, 0x0506, 0x0507].contains cls then 3 else
  if [0x020D, 0x0301, 0x0302, 0x0303, 0x0304, 0x0305, 0x0306, 0x030A].contains cls then 4 else
  if [0x0501, 0x0502].contains cls then 5 else
  if [0x0207, 0x0208].contains cls then 6 else
  if [0x0209].contains cls then 7 else
  if [0x0601, 0x0602, 0x0604, 0x0605].contains cls then 8 else
  if [0x0120, 0x0206, 0x020B, 0x020C, 0x0307, 0x0309, 0x0401, 0x0409, 0x040A, 0x040C, 0x0503, 0x0504, 0x0603, 0x0606, 0x0607].contains cls then 9 else
  0

end Sys2Proof.Machine
end

