-- ==== Sys2Proof/Machine/TileTypes.lean ====
section
/-! DEFINITION. The operand records of the tile instructions (spec 02 to 05: R50, R57, R67, R127 to R139), as the streams carry them. -/

namespace Sys2Proof.Machine

/-- What every tile instruction carries besides its opcode's operands: the tile and stream that offer it, the cycle offset of the beat at
which it is offered, the header of R124 (TAG, WE with WF, SE with SFL), the cycles the stream waited behind it (counted in TP_AWAIT,
TP_EWAIT, MU_WAIT or VC_WAIT) and the cycles in which each scratchpad master 0 to 4 met a conflict on its account (R158),
and the words (address / 32) of dual-port banks whose port-B write by this instruction meets a port-A write of the same cycle (R160). -/
structure IHdr where
  tile : Nat
  exe : Bool
  cyc : Nat
  tag : Nat
  wf : Option Nat
  sfl : Option Nat
  waited : Nat
  conf : List Nat
  lostB : List Nat
  deriving DecidableEq, Repr

/-- MLD fields (R50). -/
structure MldF where
  src : Nat
  rows : Nat
  first : Nat
  sfmt : Nat
  tr : Bool
  zf : Bool
  scl : Bool
  deriving DecidableEq, Repr

/-- MST fields (R57). -/
structure MstF where
  src : Nat
  ssrc : Nat
  rows : Nat
  afmt : Nat
  mode : Nat
  accBase : Nat
  sw : Bool
  cap : Bool
  dst : Nat
  cvt : Nat
  deriving DecidableEq, Repr

/-- A malfunction of a cell or wire while one row streams: in row `row`, quadrant `q`, the partial sum of column `col` of the quadrant is
off by (-1)^neg * mag * 2^e. The reflection check (R71) is there to find it. -/
structure Upset where
  row : Nat
  q : Nat
  col : Nat
  neg : Bool
  mag : Nat
  e : Int
  deriving DecidableEq, Repr

/-- MDR fields (R67). -/
structure MdrF where
  accBase : Nat
  rows : Nat
  order : Bool
  clr : Bool
  dst : Nat
  cvt : Nat
  deriving DecidableEq, Repr

/-- AGS operands (R127's table). -/
structure AgsF where
  ag : Nat
  base : Nat
  step : Int
  period : Nat
  ring : Nat
  qm : Bool
  q : Nat
  deriving DecidableEq, Repr

/-- AGI operands: the increments of levels lv to lv + n - 1. -/
structure AgiF where
  ag : Nat
  lv : Nat
  n : Nat
  inca : Int
  incb : Int
  incc : Int
  deriving DecidableEq, Repr

/-- LOOP operands (R131). -/
structure LoopF where
  lv : Nat
  c0 : Nat
  cm : Nat
  clv : Nat
  cme : Bool
  body : Nat
  deriving DecidableEq, Repr

/-- GTH operands (R136). `chan` is the outbound channel when the rows go there, else `dag` names the destination. -/
structure GthF where
  iag : Nat
  sag : Nat
  chan : Option Nat
  dag : Nat
  count : Nat
  roww : Nat
  iw32 : Bool
  limit : Nat
  deriving DecidableEq, Repr

/-- SCT operands (R136). `chan` is the inbound channel when the rows come from there, else `sag` names the source. -/
structure SctF where
  iag : Nat
  chan : Option Nat
  sag : Nat
  dag : Nat
  count : Nat
  roww : Nat
  iw32 : Bool
  limit : Nat
  deriving DecidableEq, Repr

/-- VSL operands (R139): VC_LEN = len0, plus mult * idx[lv] when lve. -/
structure VslF where
  len0 : Nat
  mult : Nat
  lv : Nat
  lve : Bool
  deriving DecidableEq, Repr

/-- A tile instruction without its header: one constructor per opcode of *Opcodes* (R125). -/
inductive TI where
  | nop (cyc : Nat)
  | wcy (offset : Nat)
  | loop (f : LoopF)
  | call (routine : Nat)
  | ret
  | swp
  | endI
  | ags (f : AgsF)
  | agi (f : AgiF)
  | srd (reg ag : Nat)
  | swr (reg : Nat) (v : BitVec 64)
  | get (ch ag flits : Nat)
  | put (ch ag flits : Nat)
  | gth (f : GthF)
  | sct (f : SctF)
  | pgl (ch offset flits : Nat) (fin : Bool)
  | mcf (gang : Nat) (sati : Bool)
  | mld (f : MldF)
  | msw
  | mst (f : MstF) (u : Option Upset)
  | mdr (f : MdrF)
  | cvl (setting : Nat) (pb : Bool) (ag : Nat) (word : BitVec 64)
  | vcl (slot ag : Nat)
  | vrn (slot : Nat) (ovl : Bool)
  | vsl (f : VslF)
  | vsm (mask : BitVec 64)
  | vrs (bank n ag : Nat)
  | vrl (bank n ag : Nat)
  deriving DecidableEq, Repr

end Sys2Proof.Machine
end

