-- ==== Sys2Proof/Machine/TileState.lean ====
section
/-! DEFINITION. The state of one logical tile (spec 02 to 06) as plain data. Registers with the reset values the chapters give. -/

namespace Sys2Proof.Machine

/-- An address generator's template (R127 to R129); `inc` holds the increments of levels 0 to 5. After a tile reset every field is 0. -/
structure Ag where
  base : Nat := 0
  step : Int := 0
  period : Nat := 0
  ring : Nat := 0
  qm : Bool := false
  q : Nat := 0
  inc : Tab Int := []
  deriving DecidableEq, Repr

/-- The snapshot an instruction takes of a generator at issue (R128). -/
structure Snap where
  start : Int := 0
  step : Int := 0
  period : Nat := 0
  qm : Bool := false
  q : Nat := 0
  deriving DecidableEq, Repr

/-- A running hardware loop (R131): level, index, count, first and last slot of its body, and the call depth it stands at. -/
structure LoopRun where
  lv : Nat
  idx : Nat
  count : Nat
  top : Nat
  last : Nat
  depth : Nat
  deriving DecidableEq, Repr

/-- A call in progress (R133): the slot of the CALL and its TAG. -/
structure CallRun where
  slot : Nat
  tag : Nat
  deriving DecidableEq, Repr

/-- TP_STAT.ASTATE and ESTATE: 0 issuing, 1 waiting, 2 at SWP, 3 at END, 4 idle. -/
inductive SState where
  | issuing
  | waiting
  | atSwp
  | atEnd
  | idle
  deriving DecidableEq, Repr

/-- What a waiting stream waits on: nothing, a flag, a queue, or a port, limit or cycle offset. -/
inductive WaitOn where
  | none
  | flag
  | queue
  | port
  deriving DecidableEq, Repr

/-- An instruction issued and not complete: its header, operands, snapshots (by the operand they serve), the units done, the units in all,
the words it has gathered and packed streams' buffers. -/
structure Op where
  h : IHdr
  ti : TI
  otag : Nat := 0
  snaps : Tab Snap := []
  unit : Nat := 0
  total : Nat := 0
  data : List Nat := []
  buf : Tab (List Byte) := []
  len : Nat := 0
  mask : Nat := 0
  blocked : Bool := false
  deriving DecidableEq, Repr

/-- One instruction stream of a tile. -/
structure Stream where
  st : SState := .idle
  wait : WaitOn := .none
  tag : Nat := 0
  pos : Nat := 0
  loops : List LoopRun := []
  calls : List CallRun := []
  ags : Tab Ag := []
  ops : List Op := []
  /-- An instruction was issued in the current executed beat. -/
  issued : Bool := false
  /-- Consecutive executed beats without an issue (R148). -/
  idleBeats : Nat := 0
  /-- At SWP: the flag the SWP sets when the swap is made. -/
  swpSet : Option Nat := Option.none
  /-- The instruction the stream waits behind, and the flag it waits on (R124, R126). -/
  held : Option TI := Option.none
  heldWf : Option Nat := Option.none
  /-- The first stamp at which the stream may offer its next instruction (R124, *Opcodes*). -/
  nextAt : Nat := 0
  /-- The stamp of the stream's END (R146). -/
  endAt : Nat := 0
  /-- The stream has waited on a flag, a queue, SWP or END since the executed beat began, and did so through the last one (R147). -/
  stuckAll : Bool := false
  stuckLast : Bool := false
  iss : C48 := 0
  waitN : C48 := 0
  deriving DecidableEq, Repr

/-- The recorded source of a stationary set (R413): start address, row count, format. -/
structure SetSrc where
  addr : Int
  rows : Nat
  fmt : Nat
  first : Nat
  tr : Bool
  step : Int
  period : Nat
  deriving DecidableEq, Repr

/-- One stationary set (R49): values by 64*j + n, block scales by 64*h + n, format, reflection sums by 32*q + k (R70), the non-finite
indication and the recorded source. -/
structure StSet where
  val : Tab Nat := []
  sc : Tab Nat := []
  fmt : Nat := 0xF
  ref : Tab Val := []
  aref : Tab Val := []
  nonfin : Bool := false
  src : Option SetSrc := Option.none
  deriving DecidableEq, Repr

/-- A routine table entry (R132). -/
structure Routine where
  slot : Nat := 0
  len : Nat := 0
  exe : Bool := false
  base : Nat := 0
  loopd : Nat := 0
  calld : Nat := 0
  deriving DecidableEq, Repr

/-- A queue entry of 256 bits and whether it passes its check (R127). -/
structure QEnt where
  w : Nat
  ok : Bool
  deriving DecidableEq, Repr

/-- A flit on its way from the router into an inbound channel, and the stamp at which it is there (R169). -/
structure InFlit where
  at_ : Nat
  ch : Nat
  flit : Nat
  deriving DecidableEq, Repr

/-- SP_MAP0-2 and SP_SHAPE0-2 with the default map of R156. -/
structure SpMap where
  map0 : W64 := 0#64
  map1 : W64 := 0x0202020202020202#64
  map2 : W64 := 0x0403030301010101#64
  shape0 : W64 := 0xD9D9D9D9D9D9D9D9#64
  shape1 : W64 := 0xF3F3F3F3F3F3F3F3#64
  shape2 : W64 := 0x00005151A2A2A2A2#64
  deriving DecidableEq, Repr

/-- A logical tile. -/
structure Tile where
  fenced : Bool := false
  /-- Moved to another site and not refilled (R12, R416). -/
  moved : Bool := false
  -- matrix unit
  sati : Bool := true
  gang : Nat := 0
  set0 : StSet := {}
  set1 : StSet := {}
  act : Bool := false
  muFl : Flags := {}
  acc : Tab Nat := []
  /-- Accumulator rows that hold INT32 results of INT8 products. -/
  accInt : List Nat := []
  /-- Accumulator words (8*row + group) with an uncorrectable error. -/
  accBad : List Nat := []
  muRows : C48 := 0
  muSkip : W32 := 0
  muWait : C48 := 0
  -- converter
  cvSet : Tab Nat := []
  cvPar : Tab Nat := []
  cvSeed : W64 := 0
  cvCnt : C48 := 0
  cvFl : Flags := {}
  cvRows : C48 := 0
  cvSat : C48 := 0
  -- vector chain
  chain : Tab Nat := []
  vrb : Tab Nat := []
  vrbMax : Tab Nat := []
  vcLen : Nat := 0
  vcMask : W64 := 0xFFFFFFFFFFFFFFFF#64
  vcCnt : C48 := 0
  vcFl : Flags := {}
  vcGroups : C48 := 0
  vcSat : C48 := 0
  vcWait : C48 := 0
  -- flags, queues, channels, streams
  flags : Tab Nat := []
  queues : Tab (List QEnt) := []
  ic : Tab (List Nat) := []
  oc : Tab (List Nat) := []
  sa : Stream := {}
  se : Stream := {}
  -- plan banks and library
  bank : Tab Nat := []
  actb : Bool := false
  pend : Bool := false
  planId : Nat := 0
  work : Nat := 0
  page : Nat := 0
  pages : Nat := 0
  swapLimit : Nat := 0
  stallLimit : Nat := 0
  /-- A plan is loaded in the banks and valid (R132, R156). -/
  planOk : Bool := false
  /-- The tile has a plan that has not reached END. -/
  running : Bool := false
  /-- Executed beats since the first stream reached SWP. -/
  swpBeats : Option Nat := Option.none
  lib : Tab Nat := []
  routines : Tab Routine := []
  -- scratchpad
  mem : Mem := []
  /-- Words (byte address / 32) in error: 1 a single byte error, 2 uncorrectable. -/
  errs : Tab Nat := []
  /-- Corrected words waiting for their write-back (R161). -/
  wback : List Nat := []
  map : SpMap := {}
  /-- The stamp at which the zero-fill under way ends; 0 without one (R164). -/
  scrubEnd : Nat := 0
  spCorr : Bool := false
  wlost : Nat := 0
  conf : Tab Nat := []
  corrN : C48 := 0
  wlostN : C48 := 0
  patrol : Nat := 0
  /-- The next slot of the mailbox ring (R191). -/
  mbox : Nat := 0
  /-- Flits the tile port has taken that are not yet in their channel's buffer (R169). -/
  icIn : List InFlit := []
  /-- The beat from whose start a reset holds the tile's slots absorbed (R182). -/
  resetAt : Option Nat := Option.none
  /-- The stamp at which the active page's streams begin (R142). -/
  startAt : Nat := 0
  /-- The stamp of the cycle the tile is in, as commands name it, with the sticky flags set in that cycle (R91, R123) and, for each register,
  4 * stamp + writer of its last write: access stream 0, execute stream 1, region controller 2 (R140). -/
  at_ : Nat := 0
  muNew : Flags := {}
  cvNew : Flags := {}
  vcNew : Flags := {}
  wrAt : Tab Nat := []
  deriving DecidableEq, Repr

/-- The stream a header names. -/
def Tile.stream (t : Tile) (exe : Bool) : Stream := if exe then t.se else t.sa
/-- Change the stream a header names. -/
def Tile.onStream (t : Tile) (exe : Bool) (f : Stream → Stream) : Tile :=
  if exe then { t with se := f t.se } else { t with sa := f t.sa }
/-- The tile enters the cycle with this stamp. -/
def Tile.enter (stamp : Nat) (t : Tile) : Tile :=
  if t.at_ = stamp then t else { t with at_ := stamp, muNew := {}, cvNew := {}, vcNew := {} }
/-- The active stationary set. -/
def Tile.active (t : Tile) : StSet := if t.act then t.set1 else t.set0
/-- The shadow set. -/
def Tile.shadow (t : Tile) : StSet := if t.act then t.set0 else t.set1
/-- Replace the shadow set. -/
def Tile.setShadow (t : Tile) (x : StSet) : Tile := if t.act then { t with set0 := x } else { t with set1 := x }

end Sys2Proof.Machine
end

