-- ==== Sys2Proof/Machine/Operands.lean ====
section
/-! DEFINITION. Every operand form of the tile: the scratchpad map (R154), checked reads and writes (R161, R162), address generators
(R128 to R130), queue mode (R129) and packed streams. -/

namespace Sys2Proof.Machine

/-- What one unit of a tile instruction can do: complete with a value, wait for a queue or channel, or raise a fault class, with the SUB of
the engine and the detail words. -/
inductive UR (α : Type) where
  | ok (t : Tile) (a : α)
  | wait (onQueue : Bool)
  | fault (t : Tile) (cls sub : Nat) (det : List Nat)
  deriving DecidableEq, Repr

/-- Sequence two parts of a unit. -/
def UR.bind {α β : Type} (x : UR α) (f : Tile → α → UR β) : UR β :=
  match x with
  | .ok t a => f t a
  | .wait q => .wait q
  | .fault t c s d => .fault t c s d

/-- Scratchpad size in bytes (R152). -/
def spBytes : Nat := 0x600000

/-- The map byte of bank b (R155). -/
def SpMap.mapByte (m : SpMap) (b : Nat) : Nat :=
  let w := if b < 8 then m.map0 else if b < 16 then m.map1 else m.map2
  bits w.toNat (8 * (b % 8) + 7) (8 * (b % 8))
/-- The shape byte of bank b (R153). -/
def SpMap.shapeByte (m : SpMap) (b : Nat) : Nat :=
  let w := if b < 8 then m.shape0 else if b < 16 then m.shape1 else m.shape2
  bits w.toNat (8 * (b % 8) + 7) (8 * (b % 8))
/-- Dual-port bank? -/
def SpMap.dual (m : SpMap) (b : Nat) : Bool := bit (m.mapByte b) 3

/-- Bank and row of a byte address (R154). -/
def SpMap.place (m : SpMap) (a : Nat) : Nat × Nat :=
  let raw := a / 0x40000
  let sh := m.shapeByte raw
  let n := 2 ^ bits sh 7 6
  let i := 2 ^ bits sh 5 4
  let s := 2 ^ (bits sh 3 0 + 5)
  let b0 := raw - raw % n
  let o := a - b0 * 0x40000
  let t := o / s
  let wi := (o % s) / 32
  (b0 + i * (t % (n / i)) + wi % i, (t / (n / i)) * (s / (32 * i)) + wi / i)

/-- Is the word at this byte address there: below 6 MiB and not in the unavailable half of a dual-port bank (R130, R159)? -/
def SpMap.there (m : SpMap) (a : Nat) : Bool :=
  decide (a < spBytes) && !(m.dual (a / 0x40000) && decide (0x20000 ≤ a % 0x40000))

/-- The words (address / 32) that n bytes from a on touch. -/
def touched (a n : Nat) : List Nat := (List.range ((a + n + 31) / 32 - a / 32)).map (a / 32 + ·)

/-- May n bytes from a on be accessed? -/
def SpMap.rangeOk (m : SpMap) (a : Int) (n : Nat) : Bool :=
  decide (0 ≤ a) && (touched a.toNat n).all (fun w => m.there (32 * w))

/-- ADDR_FAULT with the address (R130). -/
def addrFault {α : Type} (t : Tile) (a : Int) : UR α := .fault t fcAddrFault 0 [(a % 4294967296).toNat]

/-- SP_UNCORRECTABLE with bank, row and master (R161). -/
def spFault {α : Type} (t : Tile) (master w : Nat) : UR α :=
  let p := t.map.place (32 * w)
  .fault t fcSpUncorrectable (0x041 + p.1) [p.1, p.2, master]
/-- A tile after the fault of a unit: no byte is moved for that unit (R130), but what had happened before the fault stays: a swap and a capture
made as the row entered (R56, R64), the checks counted (R72, R74), and corrections of words read (R161). -/
def Tile.atFault (t u : Tile) : Tile :=
  { t with act := u.act, set0 := u.set0, set1 := u.set1, muRows := u.muRows, muSkip := u.muSkip, spCorr := u.spCorr, corrN := u.corrN, wback := u.wback }

/-- The check of one word on a read: a single byte error is corrected, counted and queued for write-back; an uncorrectable one faults
(R161). -/
def checkWord (master : Nat) (t : Tile) (w : Nat) : UR Unit :=
  match t.errs.get 0 w with
  | 0 => .ok t ()
  | 1 => .ok { t with spCorr := true, corrN := t.corrN + 1, wback := if t.wback.contains w then t.wback else t.wback ++ [w] } ()
  | _ => spFault t master w

/-- The checks of several words: every correctable one is corrected; the first that is not faults. -/
def checkWords (master : Nat) (t : Tile) : List Nat → UR Unit
  | [] => .ok t ()
  | w :: ws =>
    match checkWord master t w with
    | .fault t c s d => (match checkWords master t ws with
      | .fault t _ _ _ => .fault t c s d
      | .ok t _ => .fault t c s d
      | .wait _ => .fault t c s d)
    | .ok t _ => checkWords master t ws
    | .wait q => .wait q

/-- Read n bytes from address a on. -/
def rdRange (master : Nat) (t : Tile) (a : Int) (n : Nat) : UR (List Byte) :=
  if t.map.rangeOk a n then
    (checkWords master t (touched a.toNat n)).bind (fun t _ => .ok t (t.mem.rdBytes a.toNat n))
  else addrFault t a

/-- Words a write covers in part: those whose old value is merged (R162). -/
def partWords (a n : Nat) : List Nat := (touched a n).filter (fun w => decide (32 * w < a ∨ a + n < 32 * w + 32))

/-- Write bytes one by one, leaving out the bytes of the words in `skip`. -/
def wrBytesSkip (skip : List Nat) (m : Mem) (a : Nat) : List Byte → Mem
  | [] => m
  | b :: bs => wrBytesSkip skip (if skip.contains (a / 32) then m else m.wr a b) (a + 1) bs

/-- Write bytes from address a on: words covered in part are merged after their check, and every word written has a valid check code
again (R161, R162). `lostB` lists words of dual-port banks that port A writes in the same cycle: those port-B writes are discarded and
counted, and the instruction continues (R160). -/
def wrRange (master : Nat) (lostB : List Nat) (t : Tile) (a : Int) (bs : List Byte) : UR Unit :=
  if bs = [] then .ok t ()
  else if t.map.rangeOk a bs.length then
    (checkWords master t (partWords a.toNat bs.length)).bind (fun t _ =>
      let ws := touched a.toNat bs.length
      let lost := ws.filter (fun w => lostB.contains w && t.map.dual (w / 8192))
      let kept := ws.filter (fun w => !lost.contains w)
      let t' := { t with mem := if lost = [] then t.mem.wrBytes a.toNat bs else wrBytesSkip lost t.mem a.toNat bs,
                         errs := kept.foldl (fun e w => e.del w) t.errs, wback := t.wback.filter (fun w => !kept.contains w) }
      .ok (if lost = [] then t' else { t' with wlost := t'.wlost ||| 2 ^ master, wlostN := t'.wlostN + BitVec.ofNat 48 lost.length }) ())
  else addrFault t a

/-! Queues (R127). -/

/-- Queue q. -/
def Tile.queue (t : Tile) (q : Nat) : List QEnt := t.queues.get [] q

/-- Pop n words, oldest first; waits where fewer are there. An entry that fails its check faults. -/
def popWords (t : Tile) (q n : Nat) : UR (List Nat) :=
  let l := t.queue q
  if l.length < n then .wait true
  else if (l.take n).any (fun e => !e.ok) then .fault t fcQueueUncorrectable 0 [q]
  else .ok { t with queues := t.queues.set [] q (l.drop n) } ((l.take n).map QEnt.w)

/-- Push words; waits where they do not fit in the 16 entries. -/
def pushWords (t : Tile) (q : Nat) (ws : List Nat) : UR Unit :=
  let l := t.queue q
  if l.length + ws.length ≤ 16 then .ok { t with queues := t.queues.set [] q (l ++ ws.map (fun w => ⟨w, true⟩)) } ()
  else .wait true

/-- The bytes of 256-bit words. -/
def wordsBytes (ws : List Nat) : List Byte := ws.flatMap (leBytes 32)
/-- Cut bytes into 256-bit words, the last one zero-filled. -/
def bytesWords (bs : List Byte) : List Nat :=
  (List.range ((bs.length + 31) / 32)).map (fun i => ofLE ((bs.drop (32 * i)).take 32))

/-! Address generators. -/

/-- The index of an active loop level; levels that are not active contribute nothing (R128). -/
def Stream.idx (s : Stream) (l : Nat) : Nat := ((s.loops.find? (fun r => r.lv = l)).map LoopRun.idx).getD 0

/-- The generator with number k of a stream. -/
def Stream.ag (s : Stream) (k : Nat) : Ag := s.ags.get {} k

/-- loop_offset of R128. -/
def loopOffset (s : Stream) (g : Ag) : Int :=
  let o := (List.range 6).foldl (fun a l => a + (s.idx l : Int) * g.inc.get 0 l) (0 : Int)
  if g.ring = 0 then o else o % (32 * g.ring : Nat)

/-- The snapshot of generator k at issue (R128). -/
def Stream.snap (s : Stream) (k : Nat) : Snap :=
  let g := s.ag k
  ⟨(g.base : Int) + loopOffset s g, g.step, g.period, g.qm, g.q⟩

/-- f(u) of R128. -/
def Snap.f (p : Snap) (u : Nat) : Nat := if p.period = 0 then u else u % p.period
/-- start + f(u) * STEP. -/
def Snap.rowAddr (p : Snap) (u : Nat) : Int := p.start + (p.f u : Int) * p.step
/-- start + f(u) * size, for packed streams and vector elements. -/
def Snap.packAddr (p : Snap) (u size : Nat) : Int := p.start + ((p.f u * size : Nat) : Int)

/-- The generator snapshot an in-flight instruction took for operand k. -/
def Op.snap (o : Op) (k : Nat) : Snap := o.snaps.get {} k

/-- Read the words of one row, flit or word: popped in queue mode, else from a 32-byte aligned address (R129, R130). -/
def rdRow (master : Nat) (t : Tile) (p : Snap) (a : Int) (n : Nat) : UR (List Byte) :=
  if p.qm then (popWords t p.q ((n + 31) / 32)).bind (fun t ws => .ok t ((wordsBytes ws).take n))
  else if a % 32 ≠ 0 then addrFault t a
  else rdRange master t a n

/-- Write the words of one row. -/
def wrRow (master : Nat) (lostB : List Nat) (t : Tile) (p : Snap) (a : Int) (bs : List Byte) : UR Unit :=
  if p.qm then pushWords t p.q (bytesWords bs)
  else if a % 32 ≠ 0 then addrFault t a
  else wrRange master lostB t a bs

/-- Read one item of a packed stream: n bytes of unit u of size n. In queue mode the words popped are used up item by item; what is left
of one waits in the instruction's buffer `buf` (DEDUCED, entry 20). -/
def rdPacked (master : Nat) (t : Tile) (p : Snap) (buf : List Byte) (u n : Nat) : UR (List Byte × List Byte) :=
  if p.qm then
    if n ≤ buf.length then .ok t (buf.take n, buf.drop n)
    else (popWords t p.q 1).bind (fun t ws => let b := buf ++ wordsBytes ws; .ok t (b.take n, b.drop n))
  else (rdRange master t (p.packAddr u n) n).bind (fun t bs => .ok t (bs, buf))

/-- Write one item of a packed stream of units of its size; in queue mode a word is pushed when 32 bytes are gathered, and the rest when
`last`. -/
def wrPacked (master : Nat) (lostB : List Nat) (t : Tile) (p : Snap) (buf : List Byte) (u : Nat) (bs : List Byte) (last : Bool) : UR (List Byte) :=
  if p.qm then
    let b := buf ++ bs
    if b.length ≥ 32 then (pushWords t p.q (bytesWords (b.take 32))).bind (fun t _ => .ok t (b.drop 32))
    else if last && b ≠ [] then (pushWords t p.q (bytesWords b)).bind (fun t _ => .ok t [])
    else .ok t b
  else (wrRange master lostB t (p.packAddr u bs.length) bs).bind (fun t _ => .ok t buf)

/-- Write several one-byte units of a packed stream, from unit u on. -/
def wrPackedBytes (master : Nat) (lostB : List Nat) (p : Snap) (last : Bool) : Tile → List Byte → Nat → List Byte → UR (List Byte)
  | t, buf, _, [] => .ok t buf
  | t, buf, u, b :: bs => (wrPacked master lostB t p buf u [b] (last && bs.isEmpty)).bind (fun t buf => wrPackedBytes master lostB p last t buf (u + 1) bs)

end Sys2Proof.Machine
end

