-- ==== Sys2Proof/Machine/Flags.lean ====
section
/-! DEFINITION. Every flag computation of the tile: the 32 counting flags (R126), the sticky flags of MU_STAT, CV_STAT, VC_STAT and
SP_STAT (R61, R91, R165), and the tile registers as SRD, SWR and the Waggle agent read and write them (R140, R165). -/

namespace Sys2Proof.Machine

/-- The count of flag f (R126). -/
def Tile.flag (t : Tile) (f : Nat) : Nat := t.flags.get 0 f
/-- Raise flag f by one; `none` where it would rise above 3 (FLAG_OVERFLOW). -/
def Tile.raiseFlag (t : Tile) (f : Nat) : Option Tile :=
  if t.flag f ≥ 3 then none else some { t with flags := t.flags.set 0 f (t.flag f + 1) }
/-- Lower flag f by one (the issue of an instruction that waited on it). -/
def Tile.lowerFlag (t : Tile) (f : Nat) : Tile := { t with flags := t.flags.set 0 f (t.flag f - 1) }

/-- Clear the sticky bits written with 1 (W1C). -/
def Flags.w1c (f : Flags) (v : Nat) : Flags := ⟨f.of && !bit v 3, f.uf && !bit v 2, f.ix && !bit v 1, f.iv && !bit v 0⟩

/-- Is an instruction in flight that uses the load port: MLD, or a capture whose rows have not all entered (R64)? -/
def Op.isLoad (o : Op) : Bool := match o.ti with
  | .mld _ => true
  | .mst f _ => f.cap && decide (o.unit < min f.rows 64)
  | _ => false
/-- On the array port with its swap still to make (R54)? -/
def Op.swapsYet (o : Op) : Bool := match o.ti with
  | .mst f _ => f.sw && decide (o.unit = 0)
  | .msw => true
  | _ => false
/-- On the array port? -/
def Op.isArray (o : Op) : Bool := match o.ti with
  | .mst _ _ => true
  | .msw => true
  | _ => false
/-- On the drain port? -/
def Op.isDrain (o : Op) : Bool := match o.ti with
  | .mst f _ => decide (f.mode ≥ 2)
  | .mdr _ => true
  | .cvl _ _ _ _ => true
  | _ => false
/-- Does it hand rows to the converter? -/
def Op.isConv (o : Op) : Bool := match o.ti with
  | .mst f _ => decide (f.mode ≥ 2)
  | .mdr _ => true
  | _ => false
/-- Any matrix or converter instruction. -/
def Op.isMatrix (o : Op) : Bool := o.isLoad || o.isArray || o.isDrain || (match o.ti with | .mcf _ _ => true | _ => false)
/-- A vector run. -/
def Op.isRun (o : Op) : Bool := match o.ti with
  | .vrn _ _ => true
  | _ => false
/-- A transfer (R137). -/
def Op.isTransfer (o : Op) : Bool := match o.ti with
  | .get _ _ _ => true
  | .put _ _ _ => true
  | .gth _ => true
  | .sct _ => true
  | .pgl _ _ _ _ => true
  | _ => false

/-- MU_CFG as a number (R45's table). -/
def Tile.muCfg (t : Tile) : Nat := 4 * b2n t.sati + t.gang
/-- MU_STAT as a number (*MU_STAT*). -/
def Tile.muStat (t : Tile) : Nat :=
  fld (b2n (t.se.ops.any Op.isDrain)) 1 18 + fld (b2n (t.se.ops.any Op.isArray)) 1 17 + fld (b2n (t.se.ops.any Op.isLoad)) 1 16
    + fld t.shadow.fmt 4 12 + fld t.active.fmt 4 8 + fld (b2n t.act) 1 7 + fld (b2n t.shadow.nonfin) 1 6 + fld (b2n t.active.nonfin) 1 5
    + t.muFl.toBits
/-- CV_STAT. -/
def Tile.cvStat (t : Tile) : Nat := fld (b2n (t.se.ops.any Op.isConv)) 1 4 + t.cvFl.toBits
/-- VC_STAT. -/
def Tile.vcStat (t : Tile) : Nat := fld ((t.se.ops.filter Op.isRun).length) 3 5 + t.vcFl.toBits
/-- Outstanding transfers. -/
def Tile.axfer (t : Tile) : Nat := (t.sa.ops.filter Op.isTransfer).length
/-- ASTATE and ESTATE codes. -/
def SState.code : SState → Nat
  | .issuing => 0
  | .waiting => 1
  | .atSwp => 2
  | .atEnd => 3
  | .idle => 4
/-- TP_STAT. -/
def Tile.tpStat (t : Tile) : Nat :=
  fld t.work 16 48 + fld t.page 16 32 + fld (b2n t.pend) 1 31 + fld (b2n t.actb) 1 30 + fld t.axfer 3 27 + fld t.sa.st.code 3 24
    + fld t.se.st.code 3 21
/-- TP_FLAGS. -/
def Tile.tpFlags (t : Tile) : Nat := (List.range 32).foldl (fun a f => a + fld (t.flag f) 2 (2 * f)) 0
/-- TP_QSTAT. -/
def Tile.tpQstat (t : Tile) : Nat := (List.range 4).foldl (fun a q => a + fld (t.queue q).length 5 (8 * q)) 0
/-- SP_STAT as the tile's own streams read it; they are held while SCRUB reads 1 (R164). -/
def Tile.spStat (t : Tile) : Nat := fld (b2n t.spCorr) 1 6 + fld t.wlost 5 0
/-- SP_CONFm. -/
def Tile.spConf (t : Tile) (m : Nat) : Nat := t.conf.get 0 m

/-- Is n the number of a tile register (R140, R165)? -/
def regKnown (n : Nat) : Bool :=
  n ≤ 4 || (8 ≤ n && n ≤ 0xC) || (0x10 ≤ n && n ≤ 0x16) || (0x20 ≤ n && n ≤ 0x26) || (0x28 ≤ n && n ≤ 0x2E) || (0x30 ≤ n && n ≤ 0x36)
/-- May SWR name it (R140, R165)? -/
def regWritable (n : Nat) : Bool := [1, 8, 9, 0xA, 0x10, 0x11, 0x12, 0x13, 0x2E].contains n

/-- The 64-bit value of tile register n (R140, R165); 0 for a number no register has. -/
def Tile.reg (t : Tile) (n : Nat) : Nat :=
  match n with
  | 0x00 => t.muCfg
  | 0x01 => t.muStat
  | 0x02 => t.muRows.toNat
  | 0x03 => t.muSkip.toNat
  | 0x04 => t.muWait.toNat
  | 0x08 => t.cvStat
  | 0x09 => t.cvSeed.toNat
  | 0x0A => t.cvCnt.toNat
  | 0x0B => t.cvRows.toNat
  | 0x0C => t.cvSat.toNat
  | 0x10 => t.vcStat
  | 0x11 => t.vcLen
  | 0x12 => t.vcMask.toNat
  | 0x13 => t.vcCnt.toNat
  | 0x14 => t.vcGroups.toNat
  | 0x15 => t.vcSat.toNat
  | 0x16 => t.vcWait.toNat
  | 0x20 => t.tpStat
  | 0x21 => t.tpFlags
  | 0x22 => t.tpQstat
  | 0x23 => t.sa.iss.toNat
  | 0x24 => t.se.iss.toNat
  | 0x25 => t.sa.waitN.toNat
  | 0x26 => t.se.waitN.toNat
  | 0x28 => t.map.map0.toNat
  | 0x29 => t.map.map1.toNat
  | 0x2A => t.map.map2.toNat
  | 0x2B => t.map.shape0.toNat
  | 0x2C => t.map.shape1.toNat
  | 0x2D => t.map.shape2.toNat
  | 0x2E => t.spStat
  | 0x30 => t.spConf 0
  | 0x31 => t.spConf 1
  | 0x32 => t.spConf 2
  | 0x33 => t.spConf 3
  | 0x34 => t.spConf 4
  | 0x35 => t.corrN.toNat
  | 0x36 => t.wlostN.toNat
  | _ => 0

/-- The value SRD reads: the sticky flags held beside those of the work in progress are among it. -/
def Tile.regNow (t : Tile) (n : Nat) : Nat :=
  ({ t with muFl := t.muFl.or t.muNew, cvFl := t.cvFl.or t.cvNew, vcFl := t.vcFl.or t.vcNew }).reg n
/-- The value a reader from outside gets at stamp `now`: SP_STAT.SCRUB reads 1 during a zero-fill (R164). -/
def Tile.regAt (t : Tile) (now n : Nat) : Nat := t.reg n + (if n = 0x2E ∧ now < t.scrubEnd then 128 else 0)
/-- Write tile register n: only RW and W1C fields change (R140, R165). A flag set in this very cycle stays set (R91, R99, R123). -/
def Tile.writeReg (t : Tile) (n v : Nat) : Tile :=
  match n with
  | 0x01 => { t with muFl := (t.muFl.w1c v).or t.muNew }
  | 0x08 => { t with cvFl := (t.cvFl.w1c v).or t.cvNew }
  | 0x09 => { t with cvSeed := BitVec.ofNat 64 v }
  | 0x0A => { t with cvCnt := BitVec.ofNat 48 v }
  | 0x10 => { t with vcFl := (t.vcFl.w1c v).or t.vcNew }
  | 0x11 => { t with vcLen := v % 2 ^ 24 }
  | 0x12 => { t with vcMask := BitVec.ofNat 64 v }
  | 0x13 => { t with vcCnt := BitVec.ofNat 48 v }
  | 0x2E => { t with spCorr := t.spCorr && !bit v 6, wlost := t.wlost &&& (31 - v % 32) }
  | _ => t

/-- A register whose writes all clear bits: two of one cycle clear what either names. -/
def regClears (n : Nat) : Bool := [1, 8, 0x10, 0x2E].contains n
/-- Writer `who` (0 access stream, 1 execute stream, 2 region controller) writes register n in the cycle the tile is in: of the writes of one
cycle the last in that order stands (R140). -/
def Tile.writeBy (t : Tile) (who n v : Nat) : Tile :=
  if regClears n || decide (t.wrAt.get 0 n ≤ 4 * t.at_ + who) then
    { t.writeReg n v with wrAt := if regClears n then t.wrAt else t.wrAt.set 0 n (4 * t.at_ + who) }
  else t

end Sys2Proof.Machine
end

