-- ==== Sys2Proof/Machine/Matrix.lean ====
section
/-! DEFINITION. The matrix unit and the output converter, unit by unit (spec 02, spec 03): one source row of MLD, one streamed row of MST,
one output row of MDR, one word of CVL. -/

namespace Sys2Proof.Machine

/-- The factor one, for formats without block scales (R59: DEDUCED, entry 21). -/
def vOne : Val := .fin false 1 0

/-- Bytes of n elements of a format. -/
def fmtBytes (fmt n : Nat) : Nat := n * fmtBits fmt / 8

/-- Element e of packed bytes under a format (R78). -/
def unpack (fmt : Nat) (bs : List Byte) (e : Nat) : Nat :=
  match fmtBits fmt with
  | 4 => let b := (bs.getD (e / 2) 0).toNat; if e % 2 = 0 then b % 16 else b / 16
  | 8 => (bs.getD e 0).toNat
  | 16 => (bs.getD (2 * e) 0).toNat + 256 * (bs.getD (2 * e + 1) 0).toNat
  | _ => ofLE ((bs.drop (4 * e)).take 4)

/-- The code a stationary cell holds for a source code: 4-bit codes are widened (R51, R81). -/
def expand (fmt c : Nat) : Nat :=
  match fmt with
  | 8 => e2m1ToE4m3 c
  | 10 => e2m1ToE4m3 c
  | 9 => int4ToInt8 c
  | _ => c
/-- The value of a stationary cell's code under the set's format, block scale apart. -/
def statVal (fmt c : Nat) : Val :=
  match fmt with
  | 8 => e4m3.dec c
  | 10 => e4m3.dec c
  | 9 => .ofInt (sgn c 8)
  | _ => elemVal fmt c

/-- Block scale of cell (j, n) as a factor (R52, R59). -/
def StSet.scale (x : StSet) (j n : Nat) : Val := if fmtMx x.fmt then e8m0 (x.sc.get 0 (64 * (j / 32) + n)) else vOne
/-- The scaled value of cell (j, n). -/
def StSet.cell (x : StSet) (j n : Nat) : Val := Val.mul (statVal x.fmt (x.val.get 0 (64 * j + n))) (x.scale j n)
/-- Does the set hold a NaN, an infinity or a 0xFF scale (MU_STAT.NFA, NFS)? -/
def StSet.hasNonfin (x : StSet) : Bool :=
  x.val.any (fun p => let v := statVal x.fmt p.2; v.isNan || v.isInf) || (fmtMx x.fmt && x.sc.any (fun p => p.2 = 255))

/-- One rounding of a magnitude upwards to FP32 (R70). -/
def up32 (v : Val) : Val :=
  match v with
  | .fin n m e =>
    let (c, exact) := fp32.roundMag (.stoch 0) m e
    match fp32.dec (if exact then c else c + 1) with
    | .fin _ m' e' => .fin n m' e'
    | w => w
  | v => v
/-- One rounding of a magnitude upwards to 8 significant bits (R71). -/
def up8 (v : Val) : Val :=
  match v with
  | .fin n m e =>
    let sh := Nat.log2 m - 7
    .fin n ((m + 2 ^ sh - 1) >>> sh) (e + sh)
  | v => v

/-- Sum of a list of values in exact arithmetic, from its first element on. -/
def sumVals : List Val → Val
  | [] => .zero false
  | v :: vs => vs.foldl Val.add v

/-- The reflection sums of row k of quadrant q (R70). -/
def StSet.refSum (x : StSet) (q k : Nat) : Val × Val :=
  let cs := (List.range 32).map (fun n => x.cell (32 * (q / 2) + k) (32 * (q % 2) + n))
  let s := sumVals cs
  let a := sumVals (cs.map Val.abs)
  if fmtGroup x.fmt = some 1 then (s, a) else (fp32.dec (fp32.round s).1, up32 a)

/-- Form the sums of every row and the non-finite indication (R54, R70). -/
def StSet.form (x : StSet) : StSet :=
  let idx := (List.range 4).flatMap (fun q => (List.range 32).map (fun k => (q, k)))
  { x with ref := idx.foldl (fun t p => t.set (.zero false) (32 * p.1 + p.2) (x.refSum p.1 p.2).1) []
           aref := idx.foldl (fun t p => t.set (.zero false) (32 * p.1 + p.2) (x.refSum p.1 p.2).2) []
           nonfin := x.hasNonfin }

/-- Element e of source row r goes to cell (j, n) (R51). -/
def mldCell (tr : Bool) (gang r e : Nat) : Nat × Nat :=
  if !tr then (r, e)
  else if gang = 0 then (e, r)
  else (32 * (r / 32) + e % 32, 32 * (e / 32) + r % 32)

/-- Write one source row into a set. -/
def StSet.putRow (x : StSet) (tr : Bool) (gang fmt r : Nat) (bs : List Byte) : StSet :=
  { x with val := (List.range 64).foldl (fun v e => let p := mldCell tr gang r e; v.set 0 (64 * p.1 + p.2) (expand fmt (unpack fmt bs e))) x.val }

/-- One unit of MLD: a source row, or a scale row after the rows (R50 to R54). -/
def unitMld (t : Tile) (o : Op) (f : MldF) : UR Op :=
  let p := o.snap 0
  let u := o.unit
  let n := if u < f.rows then fmtBytes f.sfmt 64 else 64
  (rdRow 0 t p (p.rowAddr u) n).bind (fun t bs =>
    let x0 := t.shadow
    let x1 := if u = 0 then { x0 with val := if f.zf then [] else x0.val, fmt := f.sfmt,
                                      src := some ⟨p.start, f.rows, f.sfmt, f.first, f.tr, p.step, p.period⟩ } else x0
    let x2 := if u < f.rows then x1.putRow f.tr t.gang f.sfmt (f.first + u) bs
              else { x1 with sc := (List.range 64).foldl (fun s k => s.set 0 (64 * (u - f.rows) + k) (bs.getD k 0).toNat) x1.sc }
    let x3 := if u + 1 = o.total then x2.form else x2
    .ok (t.setShadow x3) o)

/-- Exchange the roles of the sets (R49, R56). -/
def Tile.swapSets (t : Tile) : Tile := { t with act := !t.act }

/-! The output converter. -/

/-- CV_SET of a setting; the reset value has DFMT = 5 (R82). -/
def Tile.cv (t : Tile) (k : Nat) : Nat := t.cvSet.get (5 * 2 ^ 60) k
/-- A parameter of a setting: 0-63 col_scale, 64-127 col_bias, 128 tensor_scale, 129 clip_lo, 130 clip_hi (R83). -/
def Tile.cvParam (t : Tile) (k i : Nat) : Val := fp32.dec (t.cvPar.get 0 (131 * k + i))

/-- One exact step with its invalid flag (R84): NaN inputs stay NaN and set nothing. -/
def ivOf (r : Val) (ops : List Val) : Flags := { iv := newNan r ops }

/-- The value of one element before its conversion, and its flags (R84). Clipping orders -0 below +0 as MIN and MAX do (R84, R105). -/
def cvValue (t : Tile) (k set col : Nat) (x rowScale : Val) : Val × Flags :=
  let s := match bits set 59 58 with
    | 1 => t.cvParam k 128
    | 2 => t.cvParam k col
    | 3 => rowScale
    | _ => vOne
  let y := Val.mul x s
  let f1 := ivOf y [x, s]
  let b := t.cvParam k (64 + col)
  let y2 := if bit set 57 then Val.add y b else y
  let f2 := if bit set 57 then ivOf y2 [y, b] else Flags.none
  let lo := t.cvParam k 129
  let hi := t.cvParam k 130
  let y3 := if bit set 56 && !y2.isNan then
      (let a := if hi.isNan then y2 else minVal y2 hi
       if lo.isNan then a else maxVal a lo) else y2
  (y3, f1.or f2)

/-- Pack codes of a converter format into bytes (R78). -/
def packCodes (dfmt : Nat) (cs : List Nat) : List Byte :=
  match dfmt with
  | 10 => (List.range (cs.length / 2)).map (fun i => BitVec.ofNat 8 (cs.getD (2 * i) 0 + 16 * cs.getD (2 * i + 1) 0))
  | 3 => cs.flatMap (leBytes 2)
  | 4 => cs.flatMap (leBytes 2)
  | 5 => cs.flatMap (leBytes 4)
  | _ => cs.map (BitVec.ofNat 8)

/-- Read the row-block scales of one output row through SSAG (SCM = 3): one FP32 per 32 elements in output order (R84). -/
def rdRowScales (t : Tile) (o : Op) : Nat → Nat → UR (List Val × Op)
  | _, 0 => .ok t ([], o)
  | u, n + 1 => (rdPacked 1 t (o.snap 10) (o.buf.get [] 10) u 4).bind (fun t r =>
      (rdRowScales t { o with buf := o.buf.set [] 10 r.2 } (u + 1) n).bind (fun t q => .ok t (fp32.dec (ofLE r.1) :: q.1, q.2)))

/-- The values of an output row converted: their codes, the block scales of an MX format, the flags, and how many saturated (R85 to R90). -/
def cvCodes (dfmt : Nat) (ovf : Bool) (rnd : Nat → Rnd) (vs : List Val) : List Nat × List Nat × Flags × Nat :=
  if fmtMx dfmt then
    (List.range (vs.length / 32)).foldl (fun a b =>
      let m := deriveMx dfmt (fun i => rnd (32 * b + i)) ((vs.drop (32 * b)).take 32)
      (a.1 ++ m.2.1, a.2.1 ++ [m.1], a.2.2.1.or m.2.2.1, a.2.2.2 + m.2.2.2)) ([], [], Flags.none, 0)
  else
    let cs := vs.zipIdx.map (fun p => convElem dfmt (rnd p.2) ovf p.1)
    (cs.map Conv.code, [], cs.foldl (fun a c => a.or c.fl) Flags.none, (cs.filter Conv.sat).length)
/-- Convert one output row and write it through DST, with its MX scales through SDAG (R84 to R90). `r` is the number of the output row
within the instruction. -/
def cvRow (t : Tile) (o : Op) (k : Nat) (vals : List Val) (col : Nat → Nat) (r : Nat) (last : Bool) : UR Op :=
  let set := t.cv k
  let dfmt := bits set 63 60
  let nb := vals.length / 32
  (if bits set 59 58 = 3 then rdRowScales t o (r * nb) nb else .ok t ([], o)).bind (fun t sc =>
    let o := sc.2
    let vf := vals.zipIdx.map (fun p => cvValue t k set (col p.2) p.1 (sc.1.getD (p.2 / 32) vOne))
    let vs := vf.map Prod.fst
    let fl0 := vf.foldl (fun a p => a.or p.2) Flags.none
    let rnd (lane : Nat) : Rnd := if bit set 55 then .stoch (draw16 t.cvSeed t.cvCnt lane) else .nearest
    let c := cvCodes dfmt (bit set 54) rnd vs
    let p := o.snap 2
    (wrRow 1 o.h.lostB t p (p.rowAddr r) (packCodes dfmt c.1)).bind (fun t _ =>
      (if fmtMx dfmt then
          wrPackedBytes 1 o.h.lostB (o.snap 11) last t (o.buf.get [] 11) (r * nb) (c.2.1.map (BitVec.ofNat 8))
        else .ok t (o.buf.get [] 11)).bind (fun t b =>
        .ok { t with cvFl := t.cvFl.or (fl0.or c.2.2.1), cvRows := t.cvRows + 1, cvSat := t.cvSat + BitVec.ofNat 48 c.2.2.2,
                     cvCnt := if bit set 55 then t.cvCnt + 1 else t.cvCnt } { o with buf := o.buf.set [] 11 b })))

/-! Streaming rows. -/

/-- The products of one column of one quadrant: the exact partial sum and whether an invalid operation arose (R59). `xi k` is the streamed
index that drives stationary row k of the quadrant. -/
def partialSum (x : StSet) (xv : List Val) (xi : Nat → Nat) (q n : Nat) : Val × Bool :=
  let ts := (List.range 32).map (fun k =>
    let a := xv.getD (xi k) (.zero false)
    let b := x.cell (32 * (q / 2) + k) n
    (Val.mul a b, newNan (Val.mul a b) [a, b]))
  let iv := ts.any Prod.snd
  let ps := ts.map Prod.fst
  if ps.any Val.isNan then (.nan, iv)
  else if ps.any (fun v => v = .inf false) && ps.any (fun v => v = .inf true) then (.nan, true)
  else (sumVals ps, iv)

/-- The sum of two partial sums (the contraction halves of G1), exact. -/
def joinSums (a b : Val × Bool) : Val × Bool := let r := Val.add a.1 b.1; (r, a.2 || b.2 || newNan r [a.1, b.1])

/-- The streamed index that drives stationary row k (0 to 31) of quadrant q (R41). -/
def xIndex (gang q k : Nat) : Nat := if gang = 2 then 32 * q + k else 32 * (q / 2) + k

/-- |v| is above the largest finite FP32 number, or is no number. -/
def beyond32 (v : Val) : Bool := v.isNan || v.isInf || Val.lt (fp32.dec 0x7F7FFFFF) v.abs

/-- What the reflection check of one quadrant finds (R71, R72). -/
inductive Refl where
  | pass
  | skip
  | fail
  deriving DecidableEq, Repr

/-- One term of C or M: an element that is 0 contributes 0, whatever the sum it meets. -/
def reflTerm (x r : Val) : Val := if x.isZero then .zero false else Val.mul x r
/-- The check of one quadrant for one row. `ps` are the quadrant's 32 partial sums, `rowBad` says that an element of the row is a NaN or an
infinity, or a scale is 0xFF: then all four quadrants skip (DESIGN CHOICE, entry 52: R72 does not say which quadrants such an element concerns).
Where a reflection sum of magnitudes is beyond FP32, M is infinite and the row passes: a correct quadrant never fails (R71). -/
def reflect (x : StSet) (xv : List Val) (xi : Nat → Nat) (q : Nat) (ps : List Val) (rowBad : Bool) : Refl :=
  if rowBad || x.nonfin || ps.any beyond32 then .skip
  else
    let d := sumVals ps
    let c := sumVals ((List.range 32).map (fun k => reflTerm (xv.getD (xi k) (.zero false)) (x.ref.get (.zero false) (32 * q + k))))
    if fmtGroup x.fmt = some 1 then (if Val.eq d c then .pass else .fail)
    else
      let m := sumVals ((List.range 32).map (fun k =>
        up8 (reflTerm (xv.getD (xi k) (.zero false)).abs (x.aref.get (.zero false) (32 * q + k)))))
      if m.isInf then .pass
      else if m.isZero then (if d.isZero && c.isZero then .pass else .fail)
      else if Val.le (Val.add d c.negate).abs (m.scale (-22)) then .pass else .fail

/-- The accumulator result of one column: FP32 with one rounding, or INT32 with saturation or wrap (R58 to R60). `old` is the row's old
content for ADD. An INT32 result that saturates or wraps differs from the exact value: OF, and IX by the table *Flag events* (R91; entry 52). -/
def accRound (int sati : Bool) (old : Option Nat) (s : Val × Bool) : Nat × Flags :=
  if int then
    let o : Val := match old with
      | some c => .ofInt (sgn c 32)
      | none => .ofInt 0
    let r := Val.add o s.1
    let i : Int := match r with
      | .fin n m e => sInt n (m <<< e.toNat)
      | _ => 0
    let excess := decide (i > 2147483647) || decide (i < -2147483648)
    let j : Int := if excess && sati then (if i > 0 then 2147483647 else -2147483648) else i
    ((j % 4294967296).toNat, { of := excess, ix := excess })
  else
    let r : Val × Bool := match old with
      | some c => joinSums (fp32.dec c, false) s
      | none => s
    let f := fp32.round r.1
    (f.1, f.2.or { iv := r.2 })

/-- The sub-arrays of a gang mode: the quadrants summed for each output column, first accumulator row offset, columns (R41). -/
def subArrays (gang : Nat) : List (List Nat × Nat × List Nat) :=
  let c0 := List.range 32
  let c1 := (List.range 32).map (· + 32)
  match gang with
  | 0 => [([0, 2], 0, c0), ([1, 3], 0, c1)]
  | 1 => [([0], 0, c0), ([1], 0, c1), ([2], 512, c0), ([3], 512, c1)]
  | _ => [([0], 0, c0), ([1], 0, c1), ([2], 512, c0), ([3], 512, c1)]

/-- Accumulator words (8 entries each) of a physical row and columns 32*h to 32*h + 31. -/
def accWords (row h : Nat) : List Nat := (List.range 4).map (fun g => 8 * row + 4 * h + g)

/-- Hand the output rows of one streamed row to the converter in sub-array order (R84): one row of 64 in G1, two in G2, four of 32 in G4. -/
def cvRows (k : Nat) (gang : Nat) : Tile → Op → List (List Val) → Nat → Bool → UR Op
  | t, o, [], _, _ => .ok t o
  | t, o, vs :: rest, r, last =>
    (cvRow t o k vs (fun n => if gang = 2 then 32 * (r % 4 % 2) + n else n) r (last && rest.isEmpty)).bind (fun t o =>
      cvRows k gang t o rest (r + 1) last)

/-- Read one streamed row's block scales: one byte per 32 elements (R62). -/
def rdStreamScales (t : Tile) (o : Op) : Nat → Nat → UR (List Nat × Op)
  | _, 0 => .ok t ([], o)
  | u, n + 1 => (rdPacked 0 t (o.snap 1) (o.buf.get [] 1) u 1).bind (fun t r =>
      (rdStreamScales t { o with buf := o.buf.set [] 1 r.2 } (u + 1) n).bind (fun t q => .ok t (ofLE r.1 :: q.1, q.2)))

/-- Elements in a streamed row (R57). -/
def mstWidth (gang : Nat) : Nat := if gang = 2 then 128 else 64
/-- The capture of row i, when CAP asks for it: the streamed row enters the shadow set, whose sums form behind the last row (R64). -/
def mstCapture (t : Tile) (f : MstF) (p : Snap) (i : Nat) (bs : List Byte) : Tile :=
  let n := min f.rows 64
  if f.cap && i < n then
    let x0 := t.shadow
    let x1 := { x0 with fmt := f.afmt, src := if i = 0 then some ⟨p.start, n, f.afmt, 0, false, p.step, p.period⟩ else x0.src }
    let x2 := x1.putRow false t.gang f.afmt i bs
    t.setShadow (if i + 1 = n then x2.form else x2)
  else t
/-- The elements of a streamed row. -/
def mstElems (f : MstF) (gang : Nat) (bs : List Byte) : List Val :=
  (List.range (mstWidth gang)).map (fun e => elemVal f.afmt (unpack f.afmt bs e))
/-- The streamed values: each element times its block's scale (R62). -/
def mstVals (f : MstF) (el : List Val) (sc : List Nat) : List Val :=
  el.zipIdx.map (fun p => Val.mul p.1 (if f.afmt = 6 || f.afmt = 7 then e8m0 (sc.getD (p.2 / 32) 0) else vOne))
/-- The partial sums of the four quadrants for row i, with a malfunction where there is one (R59, R71). -/
def mstSums (x : StSet) (gang : Nat) (xv : List Val) (up : Option Upset) (i : Nat) : List (List (Val × Bool)) :=
  (List.range 4).map (fun q => (List.range 32).map (fun n =>
    let r := partialSum x xv (xIndex gang q) q (32 * (q % 2) + n)
    match up with
    | some u => if u.row = i && u.q = q && u.col = n then (Val.add r.1 (.fin u.neg u.mag u.e), r.2) else r
    | none => r))
/-- Does mode `mode` add to the accumulator's old content? -/
def mstReads (mode : Nat) : Bool := mode = 1 || mode = 2
/-- The results of one streamed row whose accumulator row is `a`: per sub-array the row, column, code and flags (R41, R58 to R60). -/
def mstResults (t : Tile) (f : MstF) (pss : List (List (Val × Bool))) (a : Nat) : List (List (Nat × Nat × Nat × Flags)) :=
  let pq (q n : Nat) : Val × Bool := (pss.getD q []).getD n (.zero false, false)
  (subArrays t.gang).map (fun s => s.2.2.zipIdx.map (fun c =>
    let sum := match s.1 with
      | [q] => pq q c.2
      | q :: q' :: _ => joinSums (pq q c.2) (pq q' c.2)
      | [] => (.zero false, false)
    (a + s.2.1, c.1, accRound (fmtGroup f.afmt = some 1) t.sati
      (if mstReads f.mode then some (t.acc.get 0 (64 * (a + s.2.1) + c.1)) else none) sum)))
/-- The accumulator words that sub-array s of accumulator row a uses. -/
def mstWords (a : Nat) (s : List Nat × Nat × List Nat) : List Nat := accWords (a + s.2.1) (s.2.2.headD 0 / 32)
/-- The tile with the results in its accumulator, where the mode writes it (R58, R66). -/
def mstStore (t : Tile) (f : MstF) (a : Nat) (out : List (List (Nat × Nat × Nat × Flags))) : Tile :=
  let rows := (subArrays t.gang).map (fun s => a + s.2.1)
  if f.mode ≤ 2 then
    { t with acc := (out.flatMap id).foldl (fun m c => m.set 0 (64 * c.1 + c.2.1) c.2.2.1) t.acc,
             accInt := if fmtGroup f.afmt = some 1 then rows.foldl (fun l r => if l.contains r then l else l ++ [r]) t.accInt
                       else t.accInt.filter (fun r => !rows.contains r),
             accBad := t.accBad.filter (fun w => !((subArrays t.gang).any (fun s => (mstWords a s).contains w))) }
  else t
/-- The rows handed to the converter (R84). -/
def mstRowsOut (f : MstF) (gang : Nat) (out : List (List (Nat × Nat × Nat × Flags))) : List (List Val) :=
  let vs := out.map (fun l => l.map (fun c => if fmtGroup f.afmt = some 1 then Val.ofInt (sgn c.2.2.1 32) else fp32.dec c.2.2.1))
  match gang with
  | 0 => [(vs.getD 0 []) ++ (vs.getD 1 [])]
  | 1 => [(vs.getD 0 []) ++ (vs.getD 1 []), (vs.getD 2 []) ++ (vs.getD 3 [])]
  | _ => vs
/-- A row that passed its checks: its flags, the accumulator and the converter. The detail word of ACC_UNCORRECTABLE is the row relative to the
slice (DESIGN CHOICE, entry 52). -/
def mstFinish (t : Tile) (o : Op) (f : MstF) (pss : List (List (Val × Bool))) : UR Op :=
  let a := (f.accBase + o.unit) % (if t.gang = 0 then 1024 else 512)
  if mstReads f.mode && (subArrays t.gang).any (fun s => (mstWords a s).any (fun w => t.accBad.contains w)) then .fault t fcAccUncorrectable 0x018 [a]
  else
    let out := mstResults t f pss a
    let t := mstStore { t with muFl := (out.flatMap id).foldl (fun g c => g.or c.2.2.2) t.muFl } f a out
    if f.mode ≥ 2 then
      let rs := mstRowsOut f t.gang out
      cvRows f.cvt t.gang t o rs (o.unit * rs.length) (o.unit + 1 = f.rows)
    else .ok t o
/-- What the reflection checks of the four quadrants find in streamed row i with bytes `bs` and scales `sc` (R71, R72). -/
def mstChecks (x : StSet) (f : MstF) (gang : Nat) (up : Option Upset) (i : Nat) (bs : List Byte) (sc : List Nat) : List Refl :=
  let el := mstElems f gang bs
  let xv := mstVals f el sc
  let rowBad := el.any (fun v => v.isNan || v.isInf) || sc.any (fun s => s = 255)
  let pss := mstSums x gang xv up i
  (List.range 4).map (fun q => reflect x xv (xIndex gang q) q ((pss.getD q []).map Prod.fst) rowBad)
/-- A streamed row in the array: the reflection checks of its partial sums with their counts (R71 to R73), then the results. Of several
quadrants that fail in one row the first is reported (DESIGN CHOICE, entry 52). -/
def mstRow (t : Tile) (o : Op) (f : MstF) (up : Option Upset) (bs : List Byte) (sc : List Nat) : UR Op :=
  let x := t.active
  let rf := mstChecks x f t.gang up o.unit bs sc
  let nskip := (rf.filter (· = .skip)).length
  let t := { t with muRows := t.muRows + BitVec.ofNat 48 (4 - nskip), muSkip := t.muSkip + BitVec.ofNat 32 nskip }
  match rf.idxOf? .fail with
  | some q => .fault t fcReflectMismatch (0x011 + q) [o.unit]
  | none => mstFinish t o f (mstSums x t.gang (mstVals f (mstElems f t.gang bs) sc) up o.unit)

/-- The tile as row i of an MST enters: the first row of one with SW swaps the sets (R56). -/
def mstEnter (f : MstF) (i : Nat) (t : Tile) : Tile := if i = 0 && f.sw then t.swapSets else t
/-- One streamed row of MST (R57 to R64, R71 to R73). -/
def unitMst (t : Tile) (o : Op) (f : MstF) (up : Option Upset) : UR Op :=
  let i := o.unit
  let a := (mstEnter f i t).active
  if i = 0 && (fmtGroup a.fmt ≠ fmtGroup f.afmt || fmtGroup f.afmt = none) then .fault t fcMuFormat 0x010 []
  else
  let width := mstWidth t.gang
  let p := o.snap 0
  (rdRow 0 t p (p.rowAddr i) (fmtBytes f.afmt width)).bind (fun t bs =>
  (if f.afmt = 6 || f.afmt = 7 then rdStreamScales t o (i * (width / 32)) (width / 32) else .ok t ([], o)).bind (fun t so =>
    mstRow (mstCapture (mstEnter f i t) f p i bs) so.2 f up bs so.1))

/-- The value of accumulator entry (row, col) as the drain reads it (R84). -/
def Tile.accVal (t : Tile) (row col : Nat) : Val :=
  let c := t.acc.get 0 (64 * row + col)
  if t.accInt.contains row then .ofInt (sgn c 32) else fp32.dec c

/-- One output row of MDR (R67 to R69). In column order each output row reads all 64 rows of its block; CLR zeroes them with the block's last
column, so that every column is read first (DESIGN CHOICE, entry 52). ACC_UNCORRECTABLE names the physical rows read (entry 52). -/
def unitMdr (t : Tile) (o : Op) (f : MdrF) : UR Op :=
  let i := o.unit
  let blk := f.accBase + 64 * (i / 64)
  let rows := if f.order then (List.range 64).map (blk + ·) else [f.accBase + i]
  if rows.any (fun r => (List.range 8).any (fun g => t.accBad.contains (8 * r + g))) then .fault t fcAccUncorrectable 0x018 rows
  else
    let vals := if f.order then (List.range 64).map (fun r => t.accVal (blk + r) (i % 64))
                else (List.range 64).map (fun c => t.accVal (f.accBase + i) c)
    (cvRow t o f.cvt vals id i (i + 1 = f.rows)).bind (fun t o =>
      let clr := if f.clr && (!f.order || i % 64 = 63) then rows else []
      .ok (if clr = [] then t else
        { t with acc := t.acc.filter (fun p => !clr.contains (p.1 / 64)), accInt := t.accInt.filter (fun r => !clr.contains r) }) o)

/-- One unit of CVL: the words of the parameter block, if any, and at the end the setting in place (R82, R83). -/
def unitCvl (t : Tile) (o : Op) (k : Nat) (pb : Bool) (word : Nat) : UR Op :=
  let fin (t : Tile) (o : Op) : UR Op :=
    let t := { t with cvSet := t.cvSet.set (5 * 2 ^ 60) k word }
    let par (i : Nat) : Nat := (o.data.getD (i / 8) 0 >>> (32 * (i % 8))) % 2 ^ 32
    .ok (if pb then { t with cvPar := (List.range 131).foldl (fun m i => m.set 0 (131 * k + i) (par i)) t.cvPar } else t) o
  if pb then
    let p := o.snap 0
    (rdRow 1 t p (p.start + 32 * o.unit) 32).bind (fun t bs =>
      let o := { o with data := o.data ++ [ofLE bs] }
      if o.unit + 1 = o.total then fin t o else .ok t o)
  else fin t o

end Sys2Proof.Machine
end

