-- ==== Sys2Proof/Machine/Vector.lean ====
section
/-! DEFINITION. The vector chain (spec 04): configurations and their validity (R101 to R103), the stages (R104 to R115), masks and tails
(R117, R118), the reduction buffer (R110 to R112). One unit of VRN is one group of 64 elements. -/

namespace Sys2Proof.Machine

/-- One stage word (R101). -/
structure Stage where
  kind : Nat
  op : Nat
  dst : Nat
  sa : Nat
  sb : Nat
  sc : Nat
  sd : Nat
  mp : Nat
  ag : Nat
  fmt : Nat
  rnd : Bool
  ovf : Bool
  kx1 : Nat
  kx2 : Nat
  vb : Nat
  acc : Bool
  sag : Nat
  deriving DecidableEq, Repr

/-- NSTG of a configuration held as a 1024-bit number. -/
def chNstg (c : Nat) : Nat := bits c 63 60
/-- SEG. -/
def chSeg (c : Nat) : Nat := bits c 59 36
/-- Stage word k. -/
def chWord (c k : Nat) : Nat := bits c (64 * k + 127) (64 * k + 64)
/-- Constant K_i as an FP32 code. -/
def chK (c i : Nat) : Nat := bits c (576 + 32 * i + 31) (576 + 32 * i)
/-- The fields of a stage word. -/
def stageOf (w : Nat) : Stage :=
  ⟨bits w 63 60, bits w 59 56, bits w 55 54, bits w 53 51, bits w 50 48, bits w 47 45, bits w 44 42, bits w 41 40, bits w 39 38,
   bits w 37 34, bit w 33, bit w 32, bits w 31 29, bits w 28 26, bits w 25 24, bit w 23, bits w 22 21⟩
/-- The stages below NSTG. -/
def chStages (c : Nat) : List Stage := (List.range (chNstg c)).map (fun k => stageOf (chWord c k))

/-- Operations a kind defines (R104). -/
def stageOpOk (s : Stage) : Bool :=
  match s.kind with
  | 1 => s.op = 0
  | 2 => s.op ≤ 4
  | 3 => s.op ≤ 5
  | 4 => s.op ≤ 8
  | 5 => s.op ≤ 10
  | 6 => s.op ≤ 10
  | 7 => s.op ≤ 2
  | 8 => s.op = 0
  | 9 => s.op = 0
  | _ => false

/-- Does the stage use AG, and does it use SAG (loads and packs of MX formats)? -/
def stageAgs (s : Stage) : List Nat :=
  (if s.kind = 1 || s.kind = 9 then [s.ag] else []) ++ (if (s.kind = 1 || s.kind = 8) && fmtMx s.fmt then [s.sag] else [])

/-- A store with no pack after the previous store must have FMT = 5 (R103). -/
def storesOk : Bool → List Stage → Bool
  | _, [] => true
  | packed, s :: r =>
    if s.kind = 8 then storesOk true r
    else if s.kind = 9 then (packed || s.fmt = 5) && storesOk false r
    else storesOk packed r

/-- A load takes the formats a stationary operand may have, a pack the converter's (R101). -/
def stageFmtOk (s : Stage) : Bool :=
  (s.kind ≠ 1 || fmtStationary s.fmt) && (s.kind ≠ 8 || cvFmtUsed s.fmt)

/-- A valid configuration (R103). Two uses of one generator make it invalid within one stage as well as across two (DESIGN CHOICE, entry 54). -/
def chainValid (c : Nat) : Bool :=
  let ss := chStages c
  let n (k : Nat) : Nat := (ss.filter (fun s => s.kind = k)).length
  1 ≤ chNstg c && chNstg c ≤ 8 && ss.all (fun s => 1 ≤ s.kind && s.kind ≤ 9 && stageOpOk s && s.mp ≠ 3 && stageFmtOk s)
    && n 1 ≤ 3 && n 7 ≤ 1 && n 8 ≤ 2 && n 9 ≤ 2 && (ss.flatMap stageAgs).Nodup && storesOk false ss

/-- The four slots of a lane, as FP32 codes (R100). -/
structure Lane where
  x0 : Nat := 0
  x1 : Nat := 0
  x2 : Nat := 0
  x3 : Nat := 0
  deriving DecidableEq, Repr

/-- Slot k. -/
def Lane.x (l : Lane) (k : Nat) : Nat := match k with
  | 0 => l.x0
  | 1 => l.x1
  | 2 => l.x2
  | _ => l.x3
/-- Write slot k. -/
def Lane.put (l : Lane) (k v : Nat) : Lane := match k with
  | 0 => { l with x0 := v }
  | 1 => { l with x1 := v }
  | 2 => { l with x2 := v }
  | _ => { l with x3 := v }

/-- A write a group has still to make: the generator, the format, the codes by element number, and the stage position that makes it. -/
structure GWrite where
  ag : Nat
  fmt : Nat
  els : List (Nat × Nat)
  stage : Nat
  deriving DecidableEq, Repr

/-- What travels with a group through the stages. -/
structure Grp where
  lanes : List Lane
  packed : Option (Nat × List (Option Nat)) := none
  writes : List GWrite := []
  npack : Nat := 0
  drew : Bool := false
  deriving DecidableEq, Repr

/-- The FP32 code of a value rounded once, with the flags of R91 (R105). -/
def r32 (v : Val) (ops : List Val) : Nat × Flags := let f := fp32.round v; (f.1, f.2.or (ivOf v ops))

/-- trunc(b) clamped to -300 to 300 (PW2). -/
def pw2Exp (b : Val) : Int :=
  match b with
  | .nan => 0
  | .inf n => if n then -300 else 300
  | .fin n m e =>
    let t : Nat := if e ≥ 0 then m <<< (min e.toNat 1024) else m >>> (-e).toNat
    max (-300) (min 300 (sInt n t))

/-- A scale stage (R104, R105). PW2 with a NaN b gives the canonical NaN and sets no flag (DESIGN CHOICE, entry 54). -/
def scaleOp (op : Nat) (a b k : Val) : Nat × Flags :=
  match op with
  | 0 => r32 (Val.mul a b) [a, b]
  | 1 => let v := Val.mul (Val.mul a b) k; r32 v [a, b, k]
  | 2 => if b.isNan then (0x7FC00000, Flags.none) else r32 (a.scale (pw2Exp b)) [a]
  | 3 => ((fp32.round a.abs).1, Flags.none)
  | _ => ((fp32.round a.negate).1, Flags.none)

/-- A fused multiply-add stage (R104, R105). -/
def fmaOp (op : Nat) (a b c : Val) : Nat × Flags :=
  match op with
  | 0 => r32 (Val.add (Val.mul a b) c) [a, b, c]
  | 1 => r32 (Val.add (Val.mul a b) c.negate) [a, b, c]
  | 2 => r32 (Val.add c (Val.mul a b).negate) [a, b, c]
  | 3 => r32 (Val.add a b) [a, b]
  | 4 => r32 (Val.add a b.negate) [a, b]
  | _ => r32 (Val.mul a b) [a, b]

/-- A compare and select stage on codes (R104, R105); it sets no flag, and a NaN it selects is the canonical one (R79). -/
def cmpOp (op : Nat) (a b c d : Nat) : Nat :=
  let va := fp32.dec a
  let vb := fp32.dec b
  let pick (b : Bool) : Nat := canon32 (if b then c else d)
  match op with
  | 0 => pick (Val.lt va vb)
  | 1 => pick (Val.le va vb)
  | 2 => pick (Val.eq va vb)
  | 3 => pick (!Val.eq va vb)
  | 4 => pick (Val.lt vb va)
  | 5 => pick (Val.le vb va)
  | 6 => pick va.isNan
  | 7 => (fp32.round (minVal va vb)).1
  | _ => (fp32.round (maxVal va vb)).1

/-- The special values of the function unit (R107), as FP32 codes. -/
def funcSpecial (op : Nat) (a : Val) : Option Nat :=
  let pz := 0x00000000
  let nz := 0x80000000
  let pi := 0x7F800000
  let ni := 0xFF800000
  let nanc := 0x7FC00000
  let one := 0x3F800000
  let mone := 0xBF800000
  if a.isNan then some nanc else
  match op with
  | 0 => if a.isZero then some one else match a with
    | .inf n => some (if n then pz else pi)
    | _ => none
  | 1 => if a.isZero then some ni else match a with
    | .inf n => some (if n then nanc else pi)
    | .fin n _ _ => if n then some nanc else if Val.eq a vOne then some pz else none
    | .nan => none
  | 2 => if a.isZero then some (if a.neg? then ni else pi) else match a with
    | .inf n => some (if n then nz else pz)
    | _ => none
  | 3 => if a.isZero then some (if a.neg? then ni else pi) else match a with
    | .inf n => some (if n then nanc else pz)
    | .fin n _ _ => if n then some nanc else none
    | .nan => none
  | 4 => match a with
    | .inf n => some (if n then mone else one)
    | _ => none
  | 5 => match a with
    | .inf n => some (if n then pz else one)
    | _ => none
  | 6 => match a with
    | .inf n => some (if n then mone else one)
    | _ => none
  | 10 => match a with
    | .inf n => some (if n then pz else pi)
    | _ => none
  | _ => match a with
    | .inf n => some (if n then nz else pi)
    | _ => none

/-- The result of the function unit that is not a special value: free within the bound (R107; entry 6). TANH and ERF are odd; GELU, GELU_T and
SILU keep the sign of a zero. -/
def funcFree (op : Nat) (a : Nat) : Nat :=
  let v := fp32.dec a
  let g (x : Nat) : Nat := bounded32 (funcBound op) (funcRef op (fp32.dec x)) (Config.funcUnit op (BitVec.ofNat 32 x)).toNat
  if op = 4 ∨ op = 6 then (if v.neg? then 2 ^ 31 else 0) + g (a % 2 ^ 31) % 2 ^ 31
  else if 7 ≤ op ∧ op ≤ 9 ∧ v.isZero then (if v.neg? then 2 ^ 31 else 0)
  else g a

/-- The function unit with its flags (R107). -/
def funcOp (op a : Nat) : Nat × Flags :=
  let v := fp32.dec a
  let res (c : Nat) (special : Bool) : Nat × Flags :=
    let r := fp32.dec c
    let c' := if r.isNan then 0x7FC00000 else c
    (c', { ix := !special, uf := !r.isZero && fp32.tiny r, of := r.isInf && !v.isInf && !v.isNan, iv := r.isNan && !v.isNan })
  match funcSpecial op v with
  | some c => res c true
  | none => res (funcFree op a) false

/-- The derivative stage: b times f'(a), free within the bound of the exact product (R108; entry 6). -/
def derivOp (op a b : Nat) : Nat × Flags :=
  let va := fp32.dec a
  let vb := fp32.dec b
  if va.isNan || vb.isNan then (0x7FC00000, Flags.none)
  else
    let r := Val.mul vb (derivRef op va)
    let c := match r with
      | .fin _ _ _ => bounded32 (derivBound op) r (fp32.round (Val.mul vb (fp32.dec (Config.derivUnit op (BitVec.ofNat 32 a)).toNat))).1
      | _ => (fp32.round r).1
    let rr := fp32.dec c
    (c, { ix := !rr.isNan, uf := !rr.isZero && fp32.tiny rr, of := rr.isInf && !va.isInf && !vb.isInf, iv := rr.isNan })

/-- Address of element e of a format under a snapshot (R128, R78). -/
def elAddr (p : Snap) (fmt e : Nat) : Int := p.start + ((p.f e * fmtBits fmt / 8 : Nat) : Int)
/-- A vector element stream's alignment (R130). -/
def elAligned (p : Snap) (fmt : Nat) : Bool := decide (p.start % 32 = 0) && decide (p.period * fmtBits fmt % 256 = 0)

/-- A list without repeats, in order of first appearance. -/
def dedup (l : List Nat) : List Nat := l.foldl (fun a x => if a.contains x then a else a ++ [x]) []

/-- Read the codes of some elements of one group (numbers `es`, group g) through a generator; `pre` are the words popped for it in queue
mode. -/
def rdElems (t : Tile) (p : Snap) (pre : List Nat) (fmt g : Nat) (es : List Nat) : UR (List (Nat × Nat)) :=
  let nb := max 1 (fmtBits fmt / 8)
  if p.qm then
    let bs := wordsBytes pre
    .ok t (es.map (fun e => (e, unpack fmt bs (e - 64 * g))))
  else if !elAligned p fmt then addrFault t p.start
  else
    let as := es.map (elAddr p fmt)
    match as.find? (fun a => !t.map.rangeOk a nb) with
    | some a => addrFault t a
    | none => (checkWords 2 t (dedup (as.map (fun a => a.toNat / 32)))).bind (fun t _ =>
        .ok t (es.map (fun e =>
          let a := (elAddr p fmt e).toNat
          (e, if fmtBits fmt = 4 then (let b := (t.mem.rd a).toNat; if p.f e % 2 = 0 then b % 16 else b / 16) else t.mem.rdLE a nb))))

/-- Read the MX scale bytes of the blocks of group g: one byte per block; in queue mode one word per group (R120). -/
def rdGrpScales (t : Tile) (p : Snap) (pre : List Nat) (g nblk : Nat) : UR (List Nat) :=
  if p.qm then .ok t ((List.range nblk).map (fun b => (wordsBytes pre).getD b 0 |>.toNat))
  else (rdRange 2 t (p.packAddr (2 * g) 1) (if p.f (2 * g) + 1 = p.f (2 * g + 1) then nblk else 1)).bind (fun t bs =>
    if bs.length = nblk then .ok t (bs.map BitVec.toNat)
    else (rdRange 2 t (p.packAddr (2 * g + 1) 1) 1).bind (fun t b2 => .ok t ((bs ++ b2).map BitVec.toNat)))

/-- Lanes, segment and mask of a run, for the stages. -/
structure RunCx where
  cfg : Nat
  g : Nat
  nact : Nat
  mask : Nat
  deriving DecidableEq, Repr

/-- Segment number of lane n. -/
def RunCx.segNo (c : RunCx) (n : Nat) : Nat := if chSeg c.cfg = 0 then 0 else (64 * c.g + n) / chSeg c.cfg
/-- Is lane n selected under mask policy mp? -/
def RunCx.sel (c : RunCx) (mp n : Nat) : Bool := mp = 0 || bit c.mask n

/-- Operand code k of lane n (R102), as an FP32 code. -/
def operand (t : Tile) (c : RunCx) (s : Stage) (l : Lane) (n k : Nat) : Nat :=
  match k with
  | 4 => chK c.cfg s.kx1
  | 5 => chK c.cfg s.kx2
  | 6 => t.vrb.get 0 (64 * s.vb + c.segNo n % 64)
  | 7 => 0
  | k => l.x k

/-- Write DST in every active lane: the result where selected, kept or zero elsewhere (R117, R118). `f` gives result and flags. -/
def mapLanes (t : Tile) (c : RunCx) (s : Stage) (gr : Grp) (f : Nat → Lane → Nat × Flags) : Tile × Grp :=
  let rs := gr.lanes.zipIdx.map (fun p =>
    if p.2 ≥ c.nact then (p.1, Flags.none)
    else if c.sel s.mp p.2 then let r := f p.2 p.1; (p.1.put s.dst r.1, r.2)
    else if s.mp = 1 then (p.1, Flags.none) else (p.1.put s.dst 0, Flags.none))
  ({ t with vcFl := rs.foldl (fun a p => a.or p.2) t.vcFl }, { gr with lanes := rs.map Prod.fst })

/-- Numeric order of ARGMAX: a NaN is larger than every number (R111). -/
def argGt (a b : Val) : Bool := if a.isNan then !b.isNan else Val.lt b a

/-- The value a segment's entry opens with (R110): +0, -infinity, or -1 for ARGMAX. -/
def segIdent (op : Nat) : Nat :=
  match op with
  | 0 => 0
  | 1 => 0xFF800000
  | _ => 0xBF800000
/-- The hidden maximum of an entry that a run has opened and not yet given a contribution: it reads as -infinity, and the first contribution
replaces it whatever it is (R110, R111). -/
def noMax : Nat := 0x1FF800000
/-- A segment's first element opens its VRB entry, unless the stage accumulates (R110), and with it the hidden maximum, whatever the operation; VRL
leaves the hidden maxima as they are (DESIGN CHOICE, entry 54). -/
def openSeg (t : Tile) (op key : Nat) (opens : Bool) : Tile :=
  if opens then { t with vrb := t.vrb.set 0 key (segIdent op), vrbMax := t.vrbMax.set 0xFF800000 key noMax } else t
/-- One lane's contribution to ARGMAX: its position, plus K, where it is the largest so far (R111). -/
def argmaxIn (t : Tile) (c : RunCx) (s : Stage) (sg key n code : Nat) : Tile :=
  let v := fp32.dec code
  let h := fp32.dec (t.vrbMax.get 0xFF800000 key)
  let fresh := !s.acc && t.vrbMax.get 0xFF800000 key = noMax
  if argGt v h || fresh then
    let posn : Nat := 64 * c.g + n - sg * chSeg c.cfg
    let r := rn32 (Val.add (.ofInt posn) (fp32.dec (chK c.cfg s.kx1)))
    { t with vrb := t.vrb.set 0 key r.toNat, vrbMax := t.vrbMax.set 0xFF800000 key (fp32.round v).1 }
  else t
/-- Lanes' codes reduced into a segment's entry: one rounded sum of the group added to it, the maximum, or ARGMAX (R110, R111). -/
def reduceIn (t : Tile) (c : RunCx) (s : Stage) (sg key : Nat) (contrib : List (Nat × Nat)) : Tile :=
  let cur := t.vrb.get 0 key
  match s.op with
  | 0 =>
    let vs := contrib.map (fun p => fp32.dec p.2)
    let pinf := vs.any (fun v => v = .inf false) && vs.any (fun v => v = .inf true)
    let sum := if vs.any Val.isNan || pinf then .nan else sumVals vs
    let p := r32 sum vs
    let pv := fp32.dec p.1
    let q := r32 (Val.add (fp32.dec cur) pv) [fp32.dec cur, pv]
    { t with vrb := t.vrb.set 0 key q.1, vcFl := (t.vcFl.or p.2).or q.2 }
  | 1 =>
    let m := contrib.foldl (fun a p => maxVal a (fp32.dec p.2)) (fp32.dec cur)
    { t with vrb := t.vrb.set 0 key (fp32.round m).1 }
  | _ => contrib.foldl (fun t p => argmaxIn t c s sg key p.1 p.2) t
/-- The reduce stage in one segment: `ls` are the group's active lanes. -/
def reduceSeg (t : Tile) (c : RunCx) (s : Stage) (ls : List (Lane × Nat)) (sg : Nat) : Tile :=
  let mine := ls.filter (fun p => c.segNo p.2 = sg)
  let first := mine.any (fun p => if chSeg c.cfg = 0 then 64 * c.g + p.2 = 0 else 64 * c.g + p.2 = sg * chSeg c.cfg)
  let key := 64 * s.vb + sg % 64
  let t := openSeg t s.op key (first && !s.acc)
  let contrib := mine.filterMap (fun p =>
    if c.sel s.mp p.2 then some (p.2, operand t c s p.1 p.2 s.sa) else if s.mp = 2 then some (p.2, 0) else none)
  if contrib = [] then t else reduceIn t c s sg key contrib

/-- The reduce stage: contributions of one group to each segment it touches, in segment order (R110, R111). -/
def reduceStage (t : Tile) (c : RunCx) (s : Stage) (gr : Grp) : Tile :=
  let ls := gr.lanes.zipIdx.filter (fun p => decide (p.2 < c.nact))
  (dedup (ls.map (fun p => c.segNo p.2))).foldl (fun t sg => reduceSeg t c s ls sg) t

/-- The pack stage (R113, R114). -/
def packStage (t : Tile) (c : RunCx) (s : Stage) (gr : Grp) : Tile × Grp :=
  let rnd (n : Nat) : Rnd := if s.rnd then .stoch (draw16v t.cvSeed t.vcCnt gr.npack n) else .nearest
  let val (p : Lane × Nat) : Option Val :=
    if p.2 ≥ c.nact then none
    else if c.sel s.mp p.2 then some (fp32.dec (operand t c s p.1 p.2 s.sa))
    else if s.mp = 2 then some (.zero false) else none
  let vs := gr.lanes.zipIdx.map val
  let live (p : Nat) : Bool := c.sel s.mp p
  if fmtMx s.fmt then
    let blk (b : Nat) : List (Nat × Val) := vs.zipIdx.filterMap (fun p => if p.2 / 32 = b then p.1.map (fun v => (p.2, v)) else none)
    let res := (List.range 2).map (fun b =>
      let l := blk b
      (b, l, deriveMx s.fmt (fun i => if live (l.getD i (0, .nan)).1 then rnd (l.getD i (0, .nan)).1 else .nearest) (l.map Prod.snd)))
    let res := res.filter (fun r => r.2.1 ≠ [])
    let codes := res.flatMap (fun r => r.2.1.zipIdx.map (fun p => (p.1.1, r.2.2.2.1.getD p.2 0)))
    let fl := res.foldl (fun a r => a.or r.2.2.2.2.1) Flags.none
    let ns := res.foldl (fun a r => a + r.2.2.2.2.2) 0
    ({ t with vcFl := t.vcFl.or fl, vcSat := t.vcSat + BitVec.ofNat 48 ns },
     { gr with packed := some (s.fmt, (List.range 64).map (fun n => (codes.find? (fun p => p.1 = n)).map Prod.snd))
               writes := gr.writes ++ [⟨s.sag, 16, res.map (fun r => (2 * c.g + r.1, r.2.2.1)), 0⟩]
               npack := gr.npack + 1, drew := gr.drew || s.rnd })
  else
    let cs := vs.zipIdx.map (fun p => p.1.map (fun v => (p.2, convElem s.fmt (if live p.2 then rnd p.2 else .nearest) s.ovf v)))
    let fl := cs.foldl (fun a o => match o with
      | some q => if live q.1 then a.or q.2.fl else a
      | none => a) Flags.none
    let ns := (cs.filter (fun o => match o with
      | some q => q.2.sat
      | none => false)).length
    ({ t with vcFl := t.vcFl.or fl, vcSat := t.vcSat + BitVec.ofNat 48 ns },
     { gr with packed := some (s.fmt, cs.map (fun o => o.map (fun q => q.2.code))), npack := gr.npack + 1, drew := gr.drew || s.rnd })

/-- The store stage: the elements it will write (R115, R118). -/
def storeStage (t : Tile) (c : RunCx) (s : Stage) (gr : Grp) : Grp :=
  let els := (List.range c.nact).filterMap (fun n =>
    if c.sel s.mp n then
      match gr.packed with
      | some (_, cs) => (cs.getD n none).map (fun k => (64 * c.g + n, k))
      | none => some (64 * c.g + n, canon32 (operand t c s (gr.lanes.getD n {}) n s.sa))
    else if s.mp = 2 then some (64 * c.g + n, 0) else none)
  let fmt := match gr.packed with
    | some (f, _) => f
    | none => 5
  { gr with writes := gr.writes ++ [⟨s.ag, fmt, els, 0⟩], packed := none }

/-- One stage of one group. -/
def runStage (t : Tile) (o : Op) (c : RunCx) (s : Stage) (gr : Grp) : UR Grp :=
  let k1 := fp32.dec (chK c.cfg s.kx1)
  let ov (n : Nat) (l : Lane) (k : Nat) : Val := fp32.dec (operand t c s l n k)
  let two (r : Tile × Grp) : UR Grp := .ok r.1 r.2
  match s.kind with
  | 1 =>
    let p := o.snap s.ag
    let es := ((List.range c.nact).filter (fun n => c.sel s.mp n)).map (64 * c.g + ·)
    let pre (ag : Nat) : List Nat := bytesWords (o.buf.get [] ag)
    (rdElems t p (pre s.ag) s.fmt c.g es).bind (fun t cs =>
      (if fmtMx s.fmt then rdGrpScales t (o.snap s.sag) (pre s.sag) c.g ((c.nact + 31) / 32) else .ok t []).bind (fun t sc =>
        two (mapLanes t c s gr (fun n _ =>
          let code := ((cs.find? (fun q => q.1 = 64 * c.g + n)).map Prod.snd).getD 0
          let v := statVal s.fmt (expand s.fmt code)
          if fmtMx s.fmt then
            let f := e8m0 (sc.getD (n / 32) 0)
            let r := fp32.round (Val.mul v f)
            (r.1, { r.2 with iv := false })
          else ((fp32.round v).1, Flags.none)))))
  | 2 => two (mapLanes t c s gr (fun n l => scaleOp s.op (ov n l s.sa) (ov n l s.sb) k1))
  | 3 => two (mapLanes t c s gr (fun n l => fmaOp s.op (ov n l s.sa) (ov n l s.sb) (ov n l s.sc)))
  | 4 => two (mapLanes t c s gr (fun n l =>
      (cmpOp s.op (operand t c s l n s.sa) (operand t c s l n s.sb) (operand t c s l n s.sc) (operand t c s l n s.sd), Flags.none)))
  | 5 => two (mapLanes t c s gr (fun n l => funcOp s.op (operand t c s l n s.sa)))
  | 6 => two (mapLanes t c s gr (fun n l => derivOp s.op (operand t c s l n s.sa) (operand t c s l n s.sb)))
  | 7 => .ok (reduceStage t c s gr) gr
  | 8 => two (packStage t c s gr)
  | _ => .ok t (storeStage t c s gr)

/-- The stages in order; a fault names the stage position (R122). -/
def runStages (o : Op) (c : RunCx) : Tile → Nat → List Stage → Grp → UR Grp
  | t, _, [], gr => .ok t gr
  | t, k, s :: ss, gr =>
    let n := gr.writes.length
    match runStage t o c s gr with
    | .ok t gr => runStages o c t (k + 1) ss { gr with writes := gr.writes.zipIdx.map (fun w => if w.2 < n then w.1 else { w.1 with stage := k }) }
    | .wait q => .wait q
    | .fault t cls sub det => .fault t cls (if cls = fcSpUncorrectable then sub else 0x021 + k) det

/-- The nibbles of a word that one element covers, as a mask of 64 bits. -/
def elMask (p : Snap) (fmt e : Nat) : Nat :=
  let a := (elAddr p fmt e).toNat % 32
  if fmtBits fmt = 4 then 2 ^ (2 * a + p.f e % 2) else (2 ^ (fmtBits fmt / 4) - 1) * 2 ^ (2 * a)
/-- Put one element into memory, the other nibble of its byte kept for a 4-bit format (R115). -/
def putEl (p : Snap) (fmt : Nat) (m : Mem) (e c : Nat) : Mem :=
  let a := (elAddr p fmt e).toNat
  if fmtBits fmt = 4 then
    let old := (m.rd a).toNat
    m.wr a (BitVec.ofNat 8 (if p.f e % 2 = 0 then old / 16 * 16 + c % 16 else old % 16 + 16 * (c % 16)))
  else m.wrBytes a (leBytes (fmtBits fmt / 8) c)
/-- Write the elements of one store through a generator, a word at a time: a word whose elements are all written needs no old value, one
written in part is merged after its check (R162). `lostB` as for `wrRange`. -/
def wrElems (lostB : List Nat) (p : Snap) (fmt : Nat) (t : Tile) (els : List (Nat × Nat)) : UR Unit :=
  match els.find? (fun q => !t.map.rangeOk (elAddr p fmt q.1) 1) with
  | some q => addrFault t (elAddr p fmt q.1)
  | none =>
    let word (q : Nat × Nat) : Nat := (elAddr p fmt q.1).toNat / 32
    let ws := dedup (els.map word)
    let part := ws.filter (fun w => decide ((els.filter (fun q => word q = w)).foldl (fun m q => m ||| elMask p fmt q.1) 0 ≠ 2 ^ 64 - 1))
    (checkWords 2 t part).bind (fun t _ =>
      let lost := ws.filter (fun w => lostB.contains w && t.map.dual (w / 8192))
      let kept := ws.filter (fun w => !lost.contains w)
      .ok { t with mem := (els.filter (fun q => kept.contains (word q))).foldl (fun m q => putEl p fmt m q.1 q.2) t.mem
                   errs := kept.foldl (fun e w => e.del w) t.errs, wback := t.wback.filter (fun w => !kept.contains w)
                   wlost := if lost = [] then t.wlost else t.wlost ||| 2 ^ 2, wlostN := t.wlostN + BitVec.ofNat 48 lost.length } ())

/-- Make the writes of a group, in stage order: in queue mode the fixed word count of R120 is pushed. A fault names the stage position. -/
def wrGroup (lostB : List Nat) (o : Op) (g : Nat) : Tile → List GWrite → UR Unit
  | t, [] => .ok t ()
  | t, w :: ws =>
    let p := o.snap w.ag
    let fmt := if w.fmt = 16 then 2 else if w.fmt = 10 then 8 else w.fmt
    let r := if p.qm then
        let base := if w.fmt = 16 then 2 * g else 64 * g
        let n := if w.fmt = 16 then 2 else 64
        let codes := (List.range n).map (fun i => ((w.els.find? (fun q => q.1 = base + i)).map Prod.snd).getD 0)
        let bs := if w.fmt = 16 then codes.map (BitVec.ofNat 8) else packCodes w.fmt codes
        pushWords t p.q (bytesWords bs)
      else if w.fmt ≠ 16 && !elAligned p fmt then addrFault t p.start
      else wrElems lostB p fmt t w.els
    match r with
    | .ok t _ => wrGroup lostB o g t ws
    | .wait q => .wait q
    | .fault t cls sub det => .fault t cls (if cls = fcSpUncorrectable then sub else 0x021 + w.stage) det

/-- The words that the loads of a group take from queues, by generator in stage order (R120, R129). -/
def loadWords (o : Op) : List Stage → List (Nat × Nat)
  | [] => []
  | s :: ss =>
    (if s.kind = 1 then
      (if (o.snap s.ag).qm then [(s.ag, fmtBits s.fmt / 4)] else []) ++ (if fmtMx s.fmt && (o.snap s.sag).qm then [(s.sag, 1)] else [])
    else []) ++ loadWords o ss
/-- Take up to `n` more words for generator `ag` of a run, as the queue has them; an entry that fails its check stays for the group to meet. -/
def takeWords (ag n : Nat) : Nat → Tile × Op → Tile × Op
  | 0, r => r
  | k + 1, (t, o) =>
    let q := (o.snap ag).q
    let b := o.buf.get [] ag
    if 32 * n ≤ b.length then (t, o)
    else match popWords t q 1 with
      | .ok t ws => takeWords ag n k (t, { o with buf := o.buf.set [] ag (b ++ wordsBytes ws) })
      | _ => (t, o)
/-- A run gathers the words of its next group as they come, so that a group may take more than its queue holds at once. -/
def Op.prefetch (t : Tile) (o : Op) : Tile × Op :=
  match o.ti with
  | .vrn _ _ => (loadWords o (chStages (o.data.headD 0))).foldl (fun r p => takeWords p.1 p.2 p.2 r) (t, o)
  | _ => (t, o)

/-- One group of VRN (R100, R116 to R119). `o.data` holds the configuration; `o.len` and `o.mask` the captured VC_LEN and VC_MASK. -/
def unitVrn (t : Tile) (o : Op) : UR Op :=
  let cfg := o.data.headD 0
  let g := o.unit
  let c : RunCx := ⟨cfg, g, min 64 (o.len - 64 * g), o.mask⟩
  match (loadWords o (chStages cfg)).find? (fun p => decide ((o.buf.get [] p.1).length < 32 * p.2)) with
  | some p => (popWords t (o.snap p.1).q 1).bind (fun _ _ => .wait true)
  | none =>
    (runStages o c t 0 (chStages cfg) { lanes := List.replicate 64 {} }).bind (fun t gr =>
      (wrGroup o.h.lostB o g t gr.writes).bind (fun t _ =>
        .ok { t with vcGroups := t.vcGroups + 1, vcCnt := if gr.drew then t.vcCnt + 1 else t.vcCnt } { o with buf := [] }))

/-- One word of VCL; after the fourth the slot is loaded, or VC_CONFIG is raised (R101, R103). -/
def unitVcl (t : Tile) (o : Op) (slot : Nat) : UR Op :=
  let p := o.snap 0
  (rdRow 2 t p (p.start + 32 * o.unit) 32).bind (fun t bs =>
    let o := { o with data := o.data ++ [ofLE bs] }
    if o.unit + 1 = o.total then
      let c := o.data.zipIdx.foldl (fun a q => a + q.1 * 2 ^ (256 * q.2)) 0
      if chainValid c then .ok { t with chain := t.chain.set 0 slot c } o else .fault t fcVcConfig 0x020 []
    else .ok t o)

/-- One word (eight entries) of VRS (R112). -/
def unitVrs (t : Tile) (o : Op) (bank n : Nat) : UR Op :=
  let p := o.snap 0
  let es := (List.range (min 8 (n - 8 * o.unit))).map (fun i => t.vrb.get 0 (64 * bank + 8 * o.unit + i))
  (wrRow 2 o.h.lostB t p (p.start + 32 * o.unit) (es.flatMap (leBytes 4))).bind (fun t _ => .ok t o)

/-- One word of VRL (R112). -/
def unitVrl (t : Tile) (o : Op) (bank n : Nat) : UR Op :=
  let p := o.snap 0
  let k := min 8 (n - 8 * o.unit)
  (rdRow 2 t p (p.start + 32 * o.unit) (4 * k)).bind (fun t bs =>
    .ok { t with vrb := (List.range k).foldl (fun m i => m.set 0 (64 * bank + 8 * o.unit + i) (ofLE ((bs.drop (4 * i)).take 4))) t.vrb } o)

end Sys2Proof.Machine
end

