-- ==== Sys2Proof/Machine/TileRun.lean ====
section
/-! DEFINITION. How a tile runs its two streams (spec 05): transfers unit by unit (R134 to R137, R144), issue with flags and acceptance
(R44, R54, R63, R83, R121, R126, R137), in-flight instructions advancing in the order R138 leaves, completion, loops and calls; the
fields of an instruction and their ranges (R46, R50, R57, R67, R68, R127 to R139). -/

namespace Sys2Proof.Machine

/-- A fault a tile raises: class, SUB of the engine, detail words, TAG and outermost CALL tag. -/
structure TFault where
  cls : Nat
  sub : Nat
  det : List Nat
  tag : Nat
  otag : Nat
  deriving DecidableEq, Repr

/-- The two words of a flit. -/
def flitBytes (f : Nat) : List Byte := leBytes 64 f

/-- One flit of GET (R135). -/
def unitGet (t : Tile) (o : Op) (ch : Nat) : UR Op :=
  match t.ic.get [] ch with
  | [] => .wait false
  | f :: fs =>
    let p := o.snap 0
    (wrRow 3 o.h.lostB { t with ic := t.ic.set [] ch fs } p (p.rowAddr o.unit) (flitBytes f)).bind (fun t _ => .ok t o)

/-- Place a flit in an outbound channel of 16 (R134). -/
def placeFlit (t : Tile) (ch f : Nat) : UR Unit :=
  let l := t.oc.get [] ch
  if l.length < 16 then .ok { t with oc := t.oc.set [] ch (l ++ [f]) } () else .wait false

/-- One flit of PUT (R135). -/
def unitPut (t : Tile) (o : Op) (ch : Nat) : UR Op :=
  let p := o.snap 0
  if (t.oc.get [] ch).length ≥ 16 then .wait false
  else (rdRow 3 t p (p.rowAddr o.unit) 64).bind (fun t bs => (placeFlit t ch (ofLE bs)).bind (fun t _ => .ok t o))

/-- Read index n of a list, of 2 or 4 bytes. -/
def rdIndex (t : Tile) (o : Op) (iw32 : Bool) (n : Nat) : UR (Nat × Op) :=
  (rdPacked 3 t (o.snap 0) (o.buf.get [] 0) n (if iw32 then 4 else 2)).bind (fun t r => .ok t (ofLE r.1, { o with buf := o.buf.set [] 0 r.2 }))

/-- A skip index: all ones (R136). -/
def isSkip (iw32 : Bool) (v : Nat) : Bool := v = (if iw32 then 0xFFFFFFFF else 0xFFFF)

/-- The first address of n words from a on that may not be accessed, if any (R130). -/
def badWord (t : Tile) (a : Int) (n : Nat) : Option Int :=
  if a % 32 ≠ 0 then some a
  else (List.range n).findSome? (fun (w : Nat) => let x : Int := a + 32 * (w : Int); if t.map.rangeOk x 32 then none else some x)
/-- Before the first word of a row moves, the whole row is checked: no byte is moved for a row at fault (R130, R136). -/
def rowsFine (t : Tile) (first : Bool) (l : List (Option Int)) : UR Unit :=
  match if first then l.findSome? id else none with
  | some a => addrFault t a
  | none => .ok t ()

/-- One word of GTH: word w of row n of the destination (R136). The row's index waits in `data`, and the first word of a flit behind it. -/
def unitGth (t : Tile) (o : Op) (f : GthF) : UR Op :=
  let n := o.unit / f.roww
  let w := o.unit % f.roww
  (if w = 0 then rdIndex t o f.iw32 n else .ok t (o.data.headD 0, o)).bind (fun t io =>
    let v := io.1
    let o := io.2
    if !isSkip f.iw32 v && v ≥ f.limit then .fault t fcIndexRange 0x030 [n]
    else
      let sp := o.snap 1
      (rowsFine t (w = 0) [if isSkip f.iw32 v then none else badWord t (sp.start + (v : Int) * sp.step) f.roww,
        if f.chan = none ∧ (o.snap 2).qm = false then badWord t ((o.snap 2).rowAddr n) f.roww else none]).bind (fun t _ =>
      (if isSkip f.iw32 v then .ok t (List.replicate 32 0)
       else rdRow 3 t { sp with qm := false } (sp.start + (v : Int) * sp.step + 32 * w) 32).bind (fun t bs =>
        let o := { o with data := [v] ++ (if w % 2 = 0 then [ofLE bs] else []) }
        match f.chan with
        | some ch =>
          if w % 2 = 0 then .ok t o
          else (placeFlit t ch (io.2.data.getD 1 0 + ofLE bs * 2 ^ 256)).bind (fun t _ => .ok t o)
        | none =>
          let p := o.snap 2
          (wrRow 3 o.h.lostB t p (p.rowAddr n + 32 * w) bs).bind (fun t _ => .ok t o))))

/-- One word of SCT: word w of source row n goes to row v, unless v is a skip (R136). -/
def unitSct (t : Tile) (o : Op) (f : SctF) : UR Op :=
  let n := o.unit / f.roww
  let w := o.unit % f.roww
  (if w = 0 then rdIndex t o f.iw32 n else .ok t (o.data.headD 0, o)).bind (fun t io =>
    let v := io.1
    let o := io.2
    if !isSkip f.iw32 v && v ≥ f.limit then .fault t fcIndexRange 0x030 [n]
    else
      (rowsFine t (w = 0) [if f.chan = none ∧ (o.snap 1).qm = false then badWord t ((o.snap 1).rowAddr n) f.roww else none,
        if isSkip f.iw32 v then none else badWord t ((o.snap 2).start + (v : Int) * (o.snap 2).step) f.roww]).bind (fun t _ =>
      (show UR (List Byte × Nat) from match f.chan with
       | some ch =>
         if w % 2 = 1 then .ok t (leBytes 32 (o.data.getD 1 0), 0)
         else match t.ic.get [] ch with
           | [] => .wait false
           | fl :: fs => .ok { t with ic := t.ic.set [] ch fs } (leBytes 32 fl, fl / 2 ^ 256)
       | none =>
         let p := o.snap 1
         (rdRow 3 t p (p.rowAddr n + 32 * w) 32).bind (fun t bs => .ok t (bs, 0))).bind (fun t r =>
        let o := { o with data := [v, r.2] }
        if isSkip f.iw32 v then .ok t o
        else
          let dp := o.snap 2
          (wrRow 3 o.h.lostB t { dp with qm := false } (dp.start + (v : Int) * dp.step + 32 * w) r.1).bind (fun t _ => .ok t o))))

/-- The pending bank's number. -/
def Tile.pendb (t : Tile) : Nat := if t.actb then 0 else 1
/-- Bank numbers as 0 and 1. -/
def Tile.actN (t : Tile) : Nat := if t.actb then 1 else 0

/-- One flit of PGL: four slots of the pending bank (R144). -/
def unitPgl (t : Tile) (o : Op) (ch off : Nat) (fin : Bool) : UR Op :=
  match t.ic.get [] ch with
  | [] => .wait false
  | f :: fs =>
    let base := 4096 * t.pendb + 4 * (off + o.unit)
    .ok { t with ic := t.ic.set [] ch fs
                 bank := (List.range 4).foldl (fun m j => m.set 0 (base + j) ((f >>> (128 * j)) % 2 ^ 128)) t.bank
                 pend := t.pend || (fin && o.unit + 1 = o.total) } o

/-- One unit of an instruction in flight. -/
def unitOp (t : Tile) (o : Op) : UR Op :=
  match o.ti with
  | .mld f => unitMld t o f
  | .msw => .ok t.swapSets o
  | .mst f u => unitMst t o f u
  | .mdr f => unitMdr t o f
  | .cvl k pb _ w => unitCvl t o k pb w.toNat
  | .vcl k _ => unitVcl t o k
  | .vrn _ _ => unitVrn t o
  | .vrs b n _ => unitVrs t o b n
  | .vrl b n _ => unitVrl t o b n
  | .get ch _ _ => unitGet t o ch
  | .put ch _ _ => unitPut t o ch
  | .gth f => unitGth t o f
  | .sct f => unitSct t o f
  | .pgl ch off _ fin => unitPgl t o ch off fin
  | .srd r _ =>
    let p := o.snap 0
    (wrRow 3 o.h.lostB t { p with qm := false } p.start (leBytes 32 (t.regNow r))).bind (fun t _ => .ok t o)
  | _ => .ok t o

/-! Order among instructions in flight (R45, R138). -/

/-- The bytes n units of `size` bytes may touch through a snapshot; none in queue mode. -/
def rowSpan (p : Snap) (n size : Nat) (wr : Bool) : List (Int × Int × Bool) :=
  if p.qm || n = 0 then [] else
  let k : Int := ((if p.period = 0 then n else min n p.period) - 1 : Nat)
  [(p.start + min 0 (k * p.step), p.start + max 0 (k * p.step) + size, wr)]
/-- The same for a packed stream of n items of `size` bytes. -/
def packSpan (p : Snap) (n size : Nat) (wr : Bool) : List (Int × Int × Bool) :=
  if p.qm || n = 0 then [] else
  [(p.start, p.start + ((if p.period = 0 then n else min n p.period) * size : Nat), wr)]

/-- Flits `off` to `off + n - 1` of the pending plan bank as bytes far above the scratchpad's addresses, so that PGL writes keep program order
(R144). -/
def bankSpan (off n : Nat) : List (Int × Int × Bool) := [(2 ^ 40 + 64 * (off : Int), 2 ^ 40 + 64 * ((off + n : Nat) : Int), true)]
/-- The scratchpad bytes an instruction may touch. -/
def Op.spans (o : Op) : List (Int × Int × Bool) :=
  match o.ti with
  | .mld f => rowSpan (o.snap 0) o.total (max 64 (fmtBytes f.sfmt 64)) false
  | .mst f _ => rowSpan (o.snap 0) o.total (fmtBytes f.afmt 128) false ++ packSpan (o.snap 1) (4 * o.total) 1 false
      ++ (if f.mode ≥ 2 then rowSpan (o.snap 2) (4 * o.total) 256 true ++ packSpan (o.snap 10) (8 * o.total) 4 false
            ++ packSpan (o.snap 11) (8 * o.total) 1 true else [])
  | .mdr _ => rowSpan (o.snap 2) o.total 256 true ++ packSpan (o.snap 10) (2 * o.total) 4 false ++ packSpan (o.snap 11) (2 * o.total) 1 true
  | .cvl _ pb _ _ => if pb then packSpan (o.snap 0) 17 32 false else []
  | .vcl _ _ => packSpan (o.snap 0) 4 32 false
  | .vrn _ _ => (List.range 4).flatMap (fun k => packSpan (o.snap k) (64 * o.total) 4 true)
  | .vrs _ _ _ => packSpan (o.snap 0) o.total 32 true
  | .vrl _ _ _ => packSpan (o.snap 0) o.total 32 false
  | .get _ _ _ => rowSpan (o.snap 0) o.total 64 true
  | .put _ _ _ => rowSpan (o.snap 0) o.total 64 false
  | .gth f => packSpan (o.snap 0) f.count 4 false ++ rowSpan { o.snap 1 with period := 0 } f.limit (32 * f.roww) false
      ++ (if f.chan = none then rowSpan (o.snap 2) f.count (32 * f.roww) true else [])
  | .sct f => packSpan (o.snap 0) f.count 4 false ++ (if f.chan = none then rowSpan (o.snap 1) f.count (32 * f.roww) false else [])
      ++ rowSpan { o.snap 2 with period := 0 } f.limit (32 * f.roww) true
  | .srd _ _ => packSpan (o.snap 0) 1 32 true
  | .pgl _ off n _ => bankSpan off n
  | _ => []
/-- The queues an instruction reaches. -/
def Op.queues (o : Op) : List Nat := (o.snaps.filter (fun p => p.2.qm)).map (fun p => p.2.q)
/-- The channel a transfer uses: 0-7 inbound, 8-15 outbound. -/
def Op.chan (o : Op) : Option Nat :=
  match o.ti with
  | .get ch _ _ => some ch
  | .put ch _ _ => some (8 + ch)
  | .pgl ch _ _ _ => some ch
  | .gth f => f.chan.map (8 + ·)
  | .sct f => f.chan
  | _ => none
/-- A vector-chain instruction. -/
def Op.isVector (o : Op) : Bool := match o.ti with
  | .vrn _ _ => true
  | .vcl _ _ => true
  | .vrs _ _ _ => true
  | .vrl _ _ _ => true
  | _ => false
/-- Do two byte spans overlap with a write among them? -/
def spansMeet (a b : List (Int × Int × Bool)) : Bool :=
  a.any (fun x => b.any (fun y => (x.2.2 || y.2.2) && decide (x.1 < y.2.1) && decide (y.1 < x.2.1)))
/-- One span of bytes through a snapshot; none in queue mode. -/
def oneSpan (p : Snap) (a : Int) (n : Nat) (wr : Bool) : List (Int × Int × Bool) := if p.qm then [] else [(a, a + n, wr)]
/-- The bytes that converting `n` output rows of `width` elements from row r on touches under setting k (R84, R88). -/
def Op.outSpans (t : Tile) (o : Op) (k r n width : Nat) : List (Int × Int × Bool) :=
  let set := t.cv k
  let dfmt := bits set 63 60
  let nb := width / 32
  (List.range n).flatMap (fun j => oneSpan (o.snap 2) ((o.snap 2).rowAddr (r + j)) (fmtBytes dfmt width) true)
    ++ (if bits set 59 58 = 3 then (List.range (n * nb)).flatMap (fun j => oneSpan (o.snap 10) ((o.snap 10).packAddr (r * nb + j) 4) 4 false) else [])
    ++ (if fmtMx dfmt then (List.range (n * nb)).flatMap (fun j => oneSpan (o.snap 11) ((o.snap 11).packAddr (r * nb + j) 1) 1 true) else [])
/-- The bytes of the elements of group g that a load or store of format `fmt` touches; `n` of them are active. -/
def groupSpans (p : Snap) (fmt g n : Nat) (wr : Bool) : List (Int × Int × Bool) :=
  if p.period = 0 then oneSpan p (elAddr p fmt (64 * g)) ((n * fmtBits fmt + 7) / 8) wr
  else (List.range n).flatMap (fun e => oneSpan p (elAddr p fmt (64 * g + e)) (max 1 (fmtBits fmt / 8)) wr)
/-- The bytes a group of a run touches, stage by stage; `packed` is the format that waits for the next store (R115). -/
def stageSpans (o : Op) (g n : Nat) : Option Nat → List Stage → List (Int × Int × Bool)
  | _, [] => []
  | packed, s :: ss =>
    let scales (wr : Bool) : List (Int × Int × Bool) :=
      if fmtMx s.fmt then (List.range 2).flatMap (fun b => oneSpan (o.snap s.sag) ((o.snap s.sag).packAddr (2 * g + b) 1) 1 wr) else []
    match s.kind with
    | 1 => groupSpans (o.snap s.ag) s.fmt g n false ++ scales false ++ stageSpans o g n packed ss
    | 8 => scales true ++ stageSpans o g n (some s.fmt) ss
    | 9 => groupSpans (o.snap s.ag) (packed.getD 5) g n true ++ stageSpans o g n none ss
    | _ => stageSpans o g n packed ss
/-- The scratchpad bytes that unit u of an instruction touches. A row that an index names may be any of those below LIMIT until the index is
read. -/
def Op.unitSpans (t : Tile) (o : Op) (u : Nat) : List (Int × Int × Bool) :=
  let rowOf (s : Snap) (roww limit : Nat) (wr : Bool) : List (Int × Int × Bool) :=
    if u % roww ≠ 0 ∧ u = o.unit then oneSpan { s with qm := false } (s.start + (o.data.headD 0 : Int) * s.step + 32 * (u % roww : Nat)) 32 wr
    else rowSpan { s with period := 0, qm := false } limit (32 * roww) wr
  let index (iw32 : Bool) (roww : Nat) : List (Int × Int × Bool) :=
    if u % roww = 0 then oneSpan (o.snap 0) ((o.snap 0).packAddr (u / roww) (if iw32 then 4 else 2)) (if iw32 then 4 else 2) false else []
  match o.ti with
  | .mld f => oneSpan (o.snap 0) ((o.snap 0).rowAddr u) (if u < f.rows then fmtBytes f.sfmt 64 else 64) false
  | .mst f _ =>
    let w := mstWidth t.gang
    let n := if t.gang = 0 then 1 else if t.gang = 1 then 2 else 4
    oneSpan (o.snap 0) ((o.snap 0).rowAddr u) (fmtBytes f.afmt w) false
      ++ (if f.afmt = 6 ∨ f.afmt = 7 then (List.range (w / 32)).flatMap (fun j => oneSpan (o.snap 1) ((o.snap 1).packAddr (u * (w / 32) + j) 1) 1 false) else [])
      ++ (if f.mode ≥ 2 then o.outSpans t f.cvt (u * n) n (if t.gang = 2 then 32 else 64) else [])
  | .mdr f => o.outSpans t f.cvt u 1 64
  | .cvl _ pb _ _ => if pb then oneSpan (o.snap 0) ((o.snap 0).start + 32 * u) 32 false else []
  | .vcl _ _ => oneSpan (o.snap 0) ((o.snap 0).start + 32 * u) 32 false
  | .vrn _ _ => stageSpans o u (min 64 (o.len - 64 * u)) none (chStages (o.data.headD 0))
  | .vrs _ _ _ => oneSpan (o.snap 0) ((o.snap 0).start + 32 * u) 32 true
  | .vrl _ _ _ => oneSpan (o.snap 0) ((o.snap 0).start + 32 * u) 32 false
  | .get _ _ _ => oneSpan (o.snap 0) ((o.snap 0).rowAddr u) 64 true
  | .put _ _ _ => oneSpan (o.snap 0) ((o.snap 0).rowAddr u) 64 false
  | .gth f => index f.iw32 f.roww ++ rowOf (o.snap 1) f.roww f.limit false
      ++ (if f.chan = none then oneSpan (o.snap 2) ((o.snap 2).rowAddr (u / f.roww) + 32 * (u % f.roww : Nat)) 32 true else [])
  | .sct f => index f.iw32 f.roww ++ rowOf (o.snap 2) f.roww f.limit true
      ++ (if f.chan = none then oneSpan (o.snap 1) ((o.snap 1).rowAddr (u / f.roww) + 32 * (u % f.roww : Nat)) 32 false else [])
  | .srd _ _ => oneSpan { o.snap 0 with qm := false } (o.snap 0).start 32 true
  | .pgl _ off _ _ => bankSpan (off + u) 1
  | _ => []
/-- The accumulator rows that unit u of an instruction reads or writes (R58, R67, R68). -/
def Op.accRows (t : Tile) (o : Op) (u : Nat) : List Nat :=
  match o.ti with
  | .mst f _ => if f.mode ≤ 2 then (subArrays t.gang).map (fun s => (f.accBase + u) % (if t.gang = 0 then 1024 else 512) + s.2.1) else []
  | .mdr f => if f.order then (List.range 64).map (f.accBase + 64 * (u / 64) + ·) else [f.accBase + u]
  | _ => []
/-- Is accumulator row r among those that the units left of an instruction touch? -/
def Op.accLeft (t : Tile) (o : Op) (r : Nat) : Bool :=
  match o.ti with
  | .mst f _ =>
    let h := if t.gang = 0 then 1024 else 512
    decide (f.mode ≤ 2) && decide ((r % h + h - (f.accBase + o.unit) % h) % h < o.total - o.unit)
  | .mdr f => decide (f.accBase + (if f.order then 64 * (o.unit / 64) else o.unit) ≤ r) && decide (r < f.accBase + o.total)
  | _ => false
/-- The order of vector instructions (R121): a run behind all of them, VCL behind runs of its slot, VRS and VRL behind every run. -/
def vecFollow (a b : TI) : Bool :=
  match b, a with
  | .vrn _ _, .vrn _ _ => true
  | .vrn _ _, .vcl _ _ => true
  | .vrn _ _, .vrs _ _ _ => true
  | .vrn _ _, .vrl _ _ _ => true
  | .vcl k _, .vrn j _ => decide (j = k)
  | .vcl _ _, .vcl _ _ => true
  | .vrs _ _ _, .vrn _ _ => true
  | .vrs _ _ _, .vrs _ _ _ => true
  | .vrs _ _ _, .vrl _ _ _ => true
  | .vrl _ _ _, .vrn _ _ => true
  | .vrl _ _ _, .vrs _ _ _ => true
  | .vrl _ _ _, .vrl _ _ _ => true
  | _, _ => false
/-- Must the next unit of the later of two instructions of one stream wait for the earlier (R45, R121, R127, R135, R138)? -/
def mustFollow (t : Tile) (a b : Op) : Bool :=
  vecFollow a.ti b.ti || (a.chan ≠ none && a.chan = b.chan) || a.queues.any (fun q => b.queues.contains q)
    || (b.accRows t b.unit).any (a.accLeft t)
    || (let us := b.unitSpans t b.unit
        spansMeet a.spans us && (List.range (a.total - a.unit)).any (fun d => spansMeet (a.unitSpans t (a.unit + d)) us))

/-- What an instruction in flight came to: complete, blocked on a queue or not, or at fault. -/
inductive OpRes where
  | done (t : Tile)
  | left (t : Tile) (o : Op)
  | fault (t : Tile) (f : TFault)
  deriving DecidableEq, Repr

/-- Advance one instruction as far as it goes; `n` bounds the units. No byte is moved for the unit at fault (R130). A run first gathers the words
its next group takes from queues. -/
def runOp : Nat → Tile → Op → OpRes
  | 0, t, o => .left t o
  | n + 1, t, o =>
    if o.unit ≥ o.total then .done t
    else
      let p := o.prefetch t
      match unitOp p.1 p.2 with
      | .ok t' o' => runOp n t' { o' with unit := o.unit + 1, blocked := false }
      | .wait q => .left p.1 { p.2 with blocked := q }
      | .fault u c s d => .fault (p.1.atFault u) ⟨c, s, d, o.h.tag, o.otag⟩

/-- The same for an instruction behind earlier ones in flight: it stops at a unit that must wait for one of them, and is blocked on a queue where
that one is. -/
def runBehind (kept : List Op) : Nat → Tile → Op → OpRes
  | 0, t, o => .left t o
  | n + 1, t, o =>
    if o.unit ≥ o.total then .done t
    else if kept.any (fun k => mustFollow t k o) then .left t { o with blocked := kept.any (fun k => k.blocked && mustFollow t k o) }
    else
      let p := o.prefetch t
      match unitOp p.1 p.2 with
      | .ok t' o' => runBehind kept n t' { o' with unit := o.unit + 1, blocked := false }
      | .wait q => .left p.1 { p.2 with blocked := q }
      | .fault u c s d => .fault (p.1.atFault u) ⟨c, s, d, o.h.tag, o.otag⟩

/-- The completion of an instruction: its SE flag rises, or FLAG_OVERFLOW (R126). -/
def complete (t : Tile) (sfl : Option Nat) (tag otag : Nat) : Tile × Option TFault :=
  match sfl with
  | none => (t, none)
  | some f => match t.raiseFlag f with
    | some t => (t, none)
    | none => (t, some ⟨fcFlagOverflow, 0, [f], tag, otag⟩)

/-- One pass over a stream's instructions in flight, in program order; those left wait behind `kept`. Answers the tile, the list left,
whether any unit moved, and a fault. -/
def passOps : Tile → List Op → List Op → Bool → Tile × List Op × Bool × Option TFault
  | t, kept, [], mv => (t, kept, mv, none)
  | t, kept, o :: os, mv =>
    match (if kept.isEmpty then runOp (o.total - o.unit + 1) t o else runBehind kept (o.total - o.unit + 1) t o) with
      | .done t =>
        match complete t o.h.sfl o.h.tag o.otag with
        | (t, none) => passOps t kept os true
        | (t, some f) => (t, kept ++ os, true, some f)
      | .left t o' => passOps t (kept ++ [o']) os (mv || decide (o'.unit ≠ o.unit))
      | .fault t f => (t, kept ++ os, true, some f)

/-- Advance both streams' instructions until none moves; `n` bounds the passes. -/
def pump : Nat → Tile → Tile × Option TFault
  | 0, t => (t, none)
  | n + 1, t =>
    match passOps t [] t.sa.ops false with
    | (t, la, _, some f) => ({ t with sa := { t.sa with ops := la } }, some f)
    | (t, la, ma, none) =>
      let t := { t with sa := { t.sa with ops := la } }
      match passOps t [] t.se.ops false with
      | (t, le, _, some f) => ({ t with se := { t.se with ops := le } }, some f)
      | (t, le, me, none) =>
        let t := { t with se := { t.se with ops := le } }
        if ma || me then pump n t else (t, none)

/-- Units still to do, which bounds the passes of `pump`. -/
def Tile.todo (t : Tile) : Nat := (t.sa.ops ++ t.se.ops).foldl (fun a o => a + (o.total - o.unit) + 1) 1
/-- After instructions of a stream have moved, its wait on a queue has not lasted through the beat (R147); a wait on a flag, SWP or END has. -/
def Stream.moved (was now : Stream) : Stream :=
  { now with stuckAll := now.stuckAll && (decide (was.ops = now.ops) || decide (now.st = .atSwp) || decide (now.st = .atEnd) ||
      (decide (now.st = .waiting) && decide (now.wait = .flag))) }
/-- A tile about to advance: the sticky flags set before stand beside, so that those set on the way can be told from them. -/
def Tile.quiet (t : Tile) : Tile := { t with muFl := {}, cvFl := {}, vcFl := {}, muNew := t.muFl, cvNew := t.cvFl, vcNew := t.vcFl }
/-- What the tile `t` has come to when its instructions have advanced to `u`: the sticky flags set on the way join those of before, and are noted
as set in this cycle (R91). -/
def Tile.noted (t u : Tile) : Tile :=
  { u with sa := t.sa.moved u.sa, se := t.se.moved u.se, muFl := t.muFl.or u.muFl, cvFl := t.cvFl.or u.cvFl, vcFl := t.vcFl.or u.vcFl
           muNew := t.muNew.or u.muFl, cvNew := t.cvNew.or u.cvFl, vcNew := t.vcNew.or u.vcFl }
/-- Advance everything that can advance. -/
def Tile.advance (t : Tile) : Tile × Option TFault :=
  let r := pump t.todo t.quiet
  (t.noted r.1, r.2)

/-! Loops and calls (R131, R133). -/

/-- The slot and loops after the instruction at slot p has been taken at call depth d. -/
def afterSlot (d p : Nat) : List LoopRun → Nat × List LoopRun
  | [] => (p + 1, [])
  | l :: ls =>
    if l.depth = d && p = l.last then
      if l.idx + 1 < l.count then (l.top, { l with idx := l.idx + 1 } :: ls) else afterSlot d p ls
    else (p + 1, l :: ls)

/-- Step past the instruction at the stream's position. -/
def Stream.stepPast (s : Stream) : Stream :=
  let r := afterSlot s.calls.length s.pos s.loops
  { s with pos := r.1, loops := r.2 }

/-- The count of a LOOP (R131). -/
def loopCount (s : Stream) (f : LoopF) : Nat := f.c0 + (if f.cme then f.cm * s.idx f.clv else 0)

/-- Enter a LOOP, or skip its body when the count is 0. -/
def Stream.enterLoop (s : Stream) (f : LoopF) : Stream :=
  let c := loopCount s f
  if c = 0 then
    let r := afterSlot s.calls.length (s.pos + f.body) s.loops
    { s with pos := r.1, loops := r.2 }
  else { s with pos := s.pos + 1, loops := ⟨f.lv, 0, c, s.pos + 1, s.pos + f.body, s.calls.length⟩ :: s.loops }

/-- Enter a routine. -/
def Stream.enterCall (s : Stream) (slot tag : Nat) : Stream := { s with pos := slot, calls := ⟨s.pos, tag⟩ :: s.calls }

/-- Return to the instruction after the CALL; loops of the routine have ended. -/
def Stream.doRet (s : Stream) : Stream :=
  match s.calls with
  | [] => s.stepPast
  | c :: cs =>
    let r := afterSlot cs.length c.slot (s.loops.filter (fun l => decide (l.depth ≤ cs.length)))
    { s with pos := r.1, loops := r.2, calls := cs }

/-- Tag of the outermost CALL, 0 outside routines (R125). -/
def Stream.otag (s : Stream) : Nat := (s.calls.getLast?.map CallRun.tag).getD 0

/-! Issue. -/

/-- Streams in which an opcode is allowed (*Opcodes*): `none` both. -/
def TI.stream : TI → Option Bool
  | .get _ _ _ => some false
  | .put _ _ _ => some false
  | .gth _ => some false
  | .sct _ => some false
  | .pgl _ _ _ _ => some false
  | .mcf _ _ => some true
  | .mld _ => some true
  | .msw => some true
  | .mst _ _ => some true
  | .mdr _ => some true
  | .cvl _ _ _ _ => some true
  | .vcl _ _ => some true
  | .vrn _ _ => some true
  | .vsl _ => some true
  | .vsm _ => some true
  | .vrs _ _ _ => some true
  | .vrl _ _ _ => some true
  | _ => none

/-- Reduction-buffer banks the stages of a chain read, and those they reduce into. -/
def chReads (c : Nat) : List Nat :=
  ((chStages c).filter (fun s => (s.kind ≠ 1 && s.sa = 6) || ([2, 3, 4, 6].contains s.kind && s.sb = 6) || ([3, 4].contains s.kind && s.sc = 6) ||
    (s.kind = 4 && s.sd = 6))).map Stage.vb
def chReduces (c : Nat) : List Nat := ((chStages c).filter (fun s => s.kind = 7)).map Stage.vb
/-- A run of chain `b` may overlap an earlier run of chain `a`: neither meets a bank the other reduces into (R121). -/
def banksApart (a b : Nat) : Bool :=
  (chReduces a).all (fun k => !(chReads b ++ chReduces b).contains k) && (chReduces b).all (fun k => !(chReads a).contains k)
/-- Is the instruction accepted now (*Opcodes*, column Accepted when; R44, R46, R54 to R56, R63, R83, R121, R137)? -/
def accepted (t : Tile) (h : IHdr) (ti : TI) : Bool :=
  let ops := (t.stream h.exe).ops
  match ti with
  | .wcy off => decide (off ≤ h.cyc)
  | .endI => ops.isEmpty
  | .get _ _ _ => t.axfer < 6
  | .put _ _ _ => t.axfer < 6
  | .gth _ => t.axfer < 6
  | .sct _ => t.axfer < 6
  | .pgl _ _ _ _ => t.axfer < 6
  | .mcf _ _ => !ops.any Op.isMatrix
  | .mld _ => !ops.any (fun o => o.isLoad || o.swapsYet)
  | .msw => !ops.any (fun o => o.isLoad || o.isArray)
  | .mst f _ => !ops.any (fun o => o.isArray || (o.isLoad && (f.sw || f.cap)) || (o.isDrain && decide (f.mode ≥ 2)))
  | .mdr _ => !ops.any Op.isDrain
  | .cvl _ _ _ _ => !ops.any Op.isDrain
  | .vcl k _ => !ops.any (fun o => vecFollow o.ti (.vcl k 0) && o.isRun)
  | .vrn k ovl =>
    let runs := ops.filter Op.isRun
    let c := t.chain.get 0 k
    !ops.any (fun o => o.isVector && !o.isRun) &&
      (runs.isEmpty || (ovl && decide (runs.length < 4) && runs.all (fun o => decide (o.total ≤ o.unit + 1) && banksApart (o.data.headD 0) c)))
  | .vrs _ _ _ => !ops.any Op.isRun
  | .vrl _ _ _ => !ops.any Op.isRun
  | _ => true

/-- The generators an instruction names, with the operand each serves. -/
def TI.gens (t : Tile) : TI → List (Nat × Nat)
  | .mld f => [(0, f.src)]
  | .mst f _ => [(0, f.src)] ++ (if f.afmt = 6 || f.afmt = 7 then [(1, f.ssrc)] else [])
      ++ (if f.mode ≥ 2 then [(2, f.dst)] ++ (if bits (t.cv f.cvt) 59 58 = 3 then [(10, bits (t.cv f.cvt) 53 52)] else [])
            ++ (if fmtMx (bits (t.cv f.cvt) 63 60) then [(11, bits (t.cv f.cvt) 51 50)] else []) else [])
  | .mdr f => [(2, f.dst)] ++ (if bits (t.cv f.cvt) 59 58 = 3 then [(10, bits (t.cv f.cvt) 53 52)] else [])
      ++ (if fmtMx (bits (t.cv f.cvt) 63 60) then [(11, bits (t.cv f.cvt) 51 50)] else [])
  | .cvl _ pb ag _ => if pb then [(0, ag)] else []
  | .vcl _ ag => [(0, ag)]
  | .vrn k _ => ((chStages (t.chain.get 0 k)).flatMap stageAgs).map (fun a => (a, a))
  | .vrs _ _ ag => [(0, ag)]
  | .vrl _ _ ag => [(0, ag)]
  | .get _ ag _ => [(0, ag)]
  | .put _ ag _ => [(0, ag)]
  | .gth f => [(0, f.iag), (1, f.sag)] ++ (if f.chan = none then [(2, f.dag)] else [])
  | .sct f => [(0, f.iag)] ++ (if f.chan = none then [(1, f.sag)] else []) ++ [(2, f.dag)]
  | .srd _ ag => [(0, ag)]
  | _ => []

/-- The units of an instruction that goes into flight; `none` for one that completes at issue. -/
def TI.units (t : Tile) : TI → Option Nat
  | .mld f => some (f.rows + (if f.scl then 2 else 0))
  | .msw => some 1
  | .mst f _ => some f.rows
  | .mdr f => some f.rows
  | .cvl _ pb _ _ => some (if pb then 17 else 1)
  | .vcl _ _ => some 4
  | .vrn _ _ => some ((t.vcLen + 63) / 64)
  | .vrs _ n _ => some ((n + 7) / 8)
  | .vrl _ n _ => some ((n + 7) / 8)
  | .get _ _ n => some n
  | .put _ _ n => some n
  | .gth f => some (f.count * f.roww)
  | .sct f => some (f.count * f.roww)
  | .pgl _ _ n _ => some n
  | .srd _ _ => some 1
  | _ => none

/-- Is it an instruction of the matrix unit or converter (MU_WAIT), or of the vector chain (VC_WAIT)? -/
def TI.waitsMatrix : TI → Bool
  | .mcf _ _ => true
  | .mld _ => true
  | .msw => true
  | .mst _ _ => true
  | .mdr _ => true
  | .cvl _ _ _ _ => true
  | _ => false
/-- A vector instruction. -/
def TI.waitsVector : TI → Bool
  | .vcl _ _ => true
  | .vrn _ _ => true
  | .vsl _ => true
  | .vsm _ => true
  | .vrs _ _ _ => true
  | .vrl _ _ _ => true
  | _ => false

/-- The effect an instruction has at its issue on registers and stream position (R127, R131, R133, R139, R140). -/
def issueEffect (t : Tile) (h : IHdr) (ti : TI) : Tile :=
  let past (t : Tile) : Tile := t.onStream h.exe Stream.stepPast
  match ti with
  | .loop f => t.onStream h.exe (fun s => s.enterLoop f)
  | .call r => t.onStream h.exe (fun s => s.enterCall (t.routines.get {} r).slot h.tag)
  | .ret => t.onStream h.exe Stream.doRet
  | .swp => { t.onStream h.exe (fun s => { s with st := .atSwp, swpSet := h.sfl }) with
              swpBeats := if t.swpBeats = none then some 0 else t.swpBeats }
  | .endI =>
    let t := t.onStream h.exe (fun s => { s with st := .atEnd, endAt := t.at_ })
    { t with running := t.running && !(t.sa.st = .atEnd && t.se.st = .atEnd) }
  | .ags f => past (t.onStream h.exe (fun s => { s with ags := s.ags.upd {} f.ag (fun g =>
      { g with base := f.base, step := f.step, period := f.period, ring := f.ring, qm := f.qm, q := f.q }) }))
  | .agi f => past (t.onStream h.exe (fun s => { s with ags := s.ags.upd {} f.ag (fun g =>
      let i := g.inc.set 0 f.lv f.inca
      let i := if f.n ≥ 2 then i.set 0 (f.lv + 1) f.incb else i
      { g with inc := if f.n ≥ 3 then i.set 0 (f.lv + 2) f.incc else i }) }))
  | .swr r v => past (t.writeBy (b2n h.exe) r v.toNat)
  | .mcf g s => past { t with gang := g, sati := s }
  | .vsl f => past (t.writeBy 1 0x11 (f.len0 + (if f.lve then f.mult * t.se.idx f.lv else 0)))
  | .vsm m => past (t.writeBy 1 0x12 m.toNat)
  | _ => past t

/-- The in-flight record of an instruction taken in tile `t` (before its issue's effects on the position). -/
def mkOp (t : Tile) (h : IHdr) (ti : TI) (n : Nat) : Op :=
  let s := t.stream h.exe
  { h := h, ti := ti, otag := s.otag
    snaps := (ti.gens t).foldl (fun m p => m.set {} p.1 (s.snap p.2)) []
    total := n
    data := match ti with
      | .vrn k _ => [t.chain.get 0 k]
      | _ => []
    len := t.vcLen, mask := t.vcMask.toNat }

/-- A signed value of w bits. -/
def fitsSigned (w : Nat) (i : Int) : Bool := decide (-(2 ^ (w - 1) : Int) ≤ i) && decide (i < (2 ^ (w - 1) : Int))

/-- Every field fits the bits of the instruction word that carry it. -/
def TI.fits : TI → Bool
  | .nop c => c < 4096
  | .wcy o => o < 4096
  | .loop f => f.lv < 8 && f.c0 < 2 ^ 24 && f.cm < 2 ^ 24 && f.clv < 8 && f.body < 4096
  | .call r => r < 256
  | .ret => true
  | .swp => true
  | .endI => true
  | .ags f => f.ag < 4 && f.base < 2 ^ 23 && fitsSigned 24 f.step && f.period < 2 ^ 20 && f.ring < 2 ^ 18 && f.q < 4
  | .agi f => f.ag < 4 && f.lv < 8 && f.n < 4 && fitsSigned 24 f.inca && fitsSigned 24 f.incb && fitsSigned 24 f.incc
  | .srd r a => r < 256 && a < 4
  | .swr r _ => r < 256
  | .get c a n => c < 8 && a < 4 && n < 2 ^ 20
  | .put c a n => c < 8 && a < 4 && n < 2 ^ 20
  | .gth f => f.iag < 4 && f.sag < 4 && f.dag < 4 && f.count < 2 ^ 20 && 1 ≤ f.roww && f.roww ≤ 64 && f.limit < 2 ^ 24 && (f.chan.getD 0 < 8 : Bool)
  | .sct f => f.iag < 4 && f.sag < 4 && f.dag < 4 && f.count < 2 ^ 20 && 1 ≤ f.roww && f.roww ≤ 64 && f.limit < 2 ^ 24 && (f.chan.getD 0 < 8 : Bool)
  | .pgl c o n _ => c < 8 && o < 1024 && n < 2048
  | .mcf g _ => g < 4
  | .mld f => f.src < 4 && 1 ≤ f.rows && f.rows ≤ 64 && f.first < 64 && f.sfmt < 16
  | .msw => true
  | .mst f _ => f.src < 4 && f.ssrc < 4 && f.rows < 2 ^ 24 && f.afmt < 16 && f.mode < 4 && f.accBase < 1024 && f.dst < 4 && f.cvt < 16
  | .mdr f => f.accBase < 1024 && f.rows < 2048 && f.dst < 4 && f.cvt < 16
  | .cvl k _ a _ => k < 16 && a < 4
  | .vcl k a => k < 16 && a < 4
  | .vrn k _ => k < 16
  | .vsl f => f.len0 < 2 ^ 24 && f.mult < 2 ^ 24 && f.lv < 8
  | .vsm _ => true
  | .vrs b n a => b < 4 && n < 128 && a < 4
  | .vrl b n a => b < 4 && n < 128 && a < 4
/-- Every field within the range given for it. -/
def TI.ok : TI → Bool
  | .nop c => c ≤ 4095
  | .wcy o => o ≤ 0xFFF
  | .loop f => f.lv ≤ 5 && f.c0 < 2 ^ 24 && f.cm < 2 ^ 24 && f.clv ≤ 5 && 1 ≤ f.body && f.body ≤ 4095
  | .call r => r ≤ 255
  | .ret => true
  | .swp => true
  | .endI => true
  | .ags f => f.ag ≤ 3 && f.base < spBytes && fitsSigned 24 f.step && f.period < 2 ^ 20 && f.ring < 2 ^ 18 && f.q ≤ 3
  | .agi f => f.ag ≤ 3 && 1 ≤ f.n && f.n ≤ 3 && f.lv + f.n ≤ 6 && fitsSigned 24 f.inca && fitsSigned 24 f.incb && fitsSigned 24 f.incc
  | .srd r a => regKnown r && a ≤ 3
  | .swr r _ => regWritable r
  | .get c a n => c ≤ 7 && a ≤ 3 && 1 ≤ n && n < 2 ^ 20
  | .put c a n => c ≤ 7 && a ≤ 3 && 1 ≤ n && n < 2 ^ 20
  | .gth f => f.iag ≤ 3 && f.sag ≤ 3 && f.dag ≤ 3 && 1 ≤ f.count && f.count < 2 ^ 20 && 1 ≤ f.roww && f.roww ≤ 64 && f.limit < 2 ^ 24
      && (match f.chan with
          | some c => c ≤ 7 && f.roww % 2 = 0
          | none => true)
  | .sct f => f.iag ≤ 3 && f.sag ≤ 3 && f.dag ≤ 3 && 1 ≤ f.count && f.count < 2 ^ 20 && 1 ≤ f.roww && f.roww ≤ 64 && f.limit < 2 ^ 24
      && (match f.chan with
          | some c => c ≤ 7 && f.roww % 2 = 0
          | none => true)
  | .pgl c o n _ => c ≤ 7 && o ≤ 1023 && 1 ≤ n && n ≤ 1024 && o + n ≤ 1024
  | .mcf g _ => g ≤ 2
  | .mld f => f.src ≤ 3 && 1 ≤ f.rows && f.rows ≤ 64 && f.first ≤ 63 && f.first + f.rows ≤ 64 && fmtStationary f.sfmt
      && (f.scl == fmtMx f.sfmt)
  | .msw => true
  | .mst f _ => f.src ≤ 3 && f.ssrc ≤ 3 && 1 ≤ f.rows && f.rows < 2 ^ 24 && fmtStreamed f.afmt && f.mode ≤ 3 && f.accBase ≤ 1023
      && f.dst ≤ 3 && f.cvt ≤ 15 && (!f.cap || f.afmt ≤ 2)
  | .mdr f => f.accBase ≤ 1023 && 1 ≤ f.rows && f.rows ≤ 1024 && f.accBase + f.rows ≤ 1024 && f.dst ≤ 3 && f.cvt ≤ 15
      && (!f.order || (f.accBase % 64 = 0 && f.rows % 64 = 0))
  | .cvl k _ a w => k ≤ 15 && a ≤ 3 && cvFmtUsed (bits w.toNat 63 60) && w.toNat % 2 ^ 50 = 0
  | .vcl k a => k ≤ 15 && a ≤ 3
  | .vrn k _ => k ≤ 15
  | .vsl f => f.len0 < 2 ^ 24 && f.mult < 2 ^ 24 && f.lv ≤ 5
  | .vsm _ => true
  | .vrs b n a => b ≤ 3 && 1 ≤ n && n ≤ 64 && a ≤ 3
  | .vrl b n a => b ≤ 3 && 1 ≤ n && n ≤ 64 && a ≤ 3

/-- Issue cycles an instruction costs its stream (*Opcodes*). -/
def TI.cost : TI → Nat
  | .nop c => 1 + c
  | .call _ => 2
  | .ret => 0
  | _ => 1
/-- The cycles a stream has waited behind an instruction since it last offered it, counted: MU_WAIT and VC_WAIT take those in which it waited on
the unit and not on its flag (R44, R74, R121). -/
def addWait (h : IHdr) (ti : TI) (t : Tile) : Tile :=
  let w := BitVec.ofNat 48 h.waited
  let s := t.stream h.exe
  let unit := s.wait = .port ∨ (s.wait ≠ .flag ∧ h.wf = none)
  let t := t.onStream h.exe (fun s => { s with waitN := s.waitN + w })
  { t with
    muWait := if ti.waitsMatrix ∧ unit then t.muWait + w else t.muWait
    vcWait := if ti.waitsVector ∧ unit then t.vcWait + w else t.vcWait }
/-- The issue as the stream and the counters note it (R148, R158). -/
def countIssue (h : IHdr) (ti : TI) (t : Tile) : Tile :=
  let t := (addWait h ti t).onStream h.exe (fun s => { s with
    st := .issuing, wait := .none, tag := h.tag, issued := true, idleBeats := 0, iss := s.iss + 1, held := none, heldWf := none
    nextAt := t.at_ + ti.cost })
  { t with conf := h.conf.zipIdx.foldl (fun m p => m.upd 0 p.2 (fun c => (c + p.1) % 2 ^ 48)) t.conf }
/-- The stream waits behind an instruction. -/
def holdIssue (h : IHdr) (ti : TI) (w : WaitOn) (t : Tile) : Tile :=
  (addWait h ti t).onStream h.exe (fun s => { s with st := .waiting, wait := w, tag := h.tag, held := some ti, heldWf := h.wf })
/-- A vector run of a chain slot without a stage (R106). -/
def TI.noStage (t : Tile) : TI → Bool
  | .vrn k _ => decide (chNstg (t.chain.get 0 k) = 0)
  | _ => false
/-- Issue an instruction: counted, its effect made; one that completes at issue raises its flag (SWP keeps it for the swap), one that goes into
flight joins its stream's; then everything in flight advances. Answers the tile, a fault, and that it was issued. -/
def issueGo (h : IHdr) (ti : TI) (t : Tile) : Tile × Option TFault × Bool :=
  let ot := (t.stream h.exe).otag
  if ti.noStage t then (t, some ⟨fcVcConfig, 0x020, [], h.tag, ot⟩, true)
  else
    let u := issueEffect (countIssue h ti t) h ti
    match ti.units t with
    | some n =>
      let r := (u.onStream h.exe (fun s => { s with ops := s.ops ++ [mkOp t h ti n] })).advance
      (r.1, r.2, true)
    | none =>
      match (if ti = .swp then (u, none) else complete u h.sfl h.tag ot) with
      | (t, some f) => (t, some f, true)
      | (t, none) => let r := t.advance; (r.1, r.2, true)
/-- May a stream take flag f now? Where both streams wait on one flag that holds 1, the access stream takes it (R126). -/
def flagFree (t : Tile) (exe : Bool) (f : Nat) : Bool :=
  decide (1 ≤ t.flag f) && !(exe && decide (t.flag f = 1) && decide (t.sa.st = .waiting) && decide (t.sa.wait = .flag) && decide (t.sa.heldWf = some f))
/-- Offer one instruction to its stream (R124 to R126): it waits on its flag or its acceptance, or its flag is lowered and it is issued; one of
the other stream is BAD_INSTR (R149), and so is one with a field outside its range (DESIGN CHOICE, entry 67). Answers the tile, a fault, and
whether it was issued. -/
def issue (t : Tile) (h : IHdr) (ti : TI) : Tile × Option TFault × Bool :=
  let s := t.stream h.exe
  let bad : TFault := ⟨fcBadInstr, if h.exe then 0x031 else 0x030, [], h.tag, s.otag⟩
  if ti.stream = some (!h.exe) ∨ ti.ok = false then (t, some bad, false)
  else
    let wait (w : WaitOn) : Tile × Option TFault × Bool := (holdIssue h ti w t, none, false)
    match h.wf with
    | some f => if flagFree t h.exe f = false then wait .flag else if accepted t h ti then issueGo h ti (t.lowerFlag f) else wait .port
    | none => if accepted t h ti then issueGo h ti t else wait .port
/-- Does the stream offer this instruction now: it waits behind no other, and the issue cycles of the one before are over (R124, R142)? -/
def offers (t : Tile) (h : IHdr) (ti : TI) : Bool :=
  let s := t.stream h.exe
  s.held.all (fun x => decide (x = ti)) && decide (s.nextAt ≤ t.at_) && decide (t.startAt ≤ t.at_)

end Sys2Proof.Machine
end

