-- ==== Sys2Proof/Machine/TileWord.lean ====
section
/-! DEFINITION. Instruction words and page headers as numbers (R124, R139, R141): the reading of a word, and the loader's rules for one page (R150) and the library (R349). -/

namespace Sys2Proof.Machine

/-- An instruction word read: header fields and operands (R124). -/
structure IWordRead where
  tag : Nat
  wf : Option Nat
  sfl : Option Nat
  ti : TI
  deriving DecidableEq, Repr

/-- The operands of an opcode and the mask of operand bits it defines (R139 and the operand tables of spec 05). -/
def readOperands (op w : Nat) : Option (TI × Nat) :=
  let b (hi lo : Nat) : Nat := bits w hi lo
  let m (hi lo : Nat) : Nat := (2 ^ (hi + 1 - lo) - 1) <<< lo
  match op with
  | 0x00 => some (.nop (b 91 80), m 91 80)
  | 0x01 => some (.wcy (b 91 80), m 91 80)
  | 0x02 => some (.loop ⟨b 91 89, b 88 65, b 64 41, b 40 38, bit w 37, b 36 25⟩, m 91 25)
  | 0x03 => some (.call (b 91 84), m 91 84)
  | 0x04 => some (.ret, 0)
  | 0x05 => some (.swp, 0)
  | 0x06 => some (.endI, 0)
  | 0x08 => some (.ags ⟨b 91 90, b 89 67, sgn (b 66 43) 24, b 42 23, b 22 5, bit w 4, b 3 2⟩, m 91 2)
  | 0x09 => some (.agi ⟨b 91 90, b 89 87, b 86 85, sgn (b 84 61) 24, sgn (b 60 37) 24, sgn (b 36 13) 24⟩, m 91 13)
  | 0x0A => some (.srd (b 91 84) (b 83 82), m 91 82)
  | 0x0B => some (.swr (b 91 84) (BitVec.ofNat 64 (b 83 20)), m 91 20)
  | 0x20 => some (.get (b 91 89) (b 88 87) (b 86 67), m 91 67)
  | 0x21 => some (.put (b 91 89) (b 88 87) (b 86 67), m 91 67)
  | 0x22 => some (.gth ⟨b 91 90, b 89 88, if bit w 87 then some (b 86 84) else none, b 85 84, b 83 64, b 63 58 + 1, bit w 57, b 56 33⟩,
                  m 91 33 - (if bit w 87 then 0 else m 86 86))
  | 0x23 => some (.sct ⟨b 91 90, if bit w 89 then some (b 88 86) else none, b 87 86, b 85 84, b 83 64, b 63 58 + 1, bit w 57, b 56 33⟩,
                  m 91 33 - (if bit w 89 then 0 else m 88 88))
  | 0x24 => some (.pgl (b 91 89) (b 88 79) (b 78 68) (bit w 67), m 91 67)
  | 0x40 => some (.mcf (b 91 90) (bit w 89), m 91 89)
  | 0x41 => some (.mld ⟨b 91 90, b 89 84 + 1, b 83 78, b 77 74, bit w 73, bit w 72, bit w 71⟩, m 91 71)
  | 0x42 => some (.msw, 0)
  | 0x43 => some (.mst ⟨b 91 90, b 89 88, b 87 64, b 63 60, b 59 58, b 57 48, bit w 47, bit w 46, b 45 44, b 43 40⟩ none, m 91 40)
  | 0x44 => some (.mdr ⟨b 91 82, b 81 71, bit w 70, bit w 69, b 68 67, b 66 63⟩, m 91 63)
  | 0x45 => some (.cvl (b 91 88) (bit w 87) (b 86 85) (BitVec.ofNat 64 (b 84 21)), m 91 21)
  | 0x50 => some (.vcl (b 91 88) (b 87 86), m 91 86)
  | 0x51 => some (.vrn (b 91 88) (bit w 87), m 91 87)
  | 0x52 => some (.vsl ⟨b 91 68, b 67 44, b 43 41, bit w 40⟩, m 91 40)
  | 0x53 => some (.vsm (BitVec.ofNat 64 (b 91 28)), m 91 28)
  | 0x54 => some (.vrs (b 91 90) (b 89 83) (b 82 81), m 91 81)
  | 0x55 => some (.vrl (b 91 90) (b 89 83) (b 82 81), m 91 81)
  | _ => none

/-- Read an instruction word: none for an undefined opcode or a reserved operand bit that is not 0 (R124). -/
def readIWord (w : Nat) : Option IWordRead :=
  match readOperands (bits w 127 120) w with
  | none => none
  | some (ti, mask) =>
    if (w % 2 ^ 92) &&& mask = w % 2 ^ 92 then
      some ⟨bits w 119 104, if bit w 103 then some (bits w 102 98) else none, if bit w 97 then some (bits w 96 92) else none, ti⟩
    else none

/-- The word at a stream's position: in the active plan bank, or in the library within a routine (R133, R141). -/
def Tile.wordAt (t : Tile) (exe : Bool) : Nat :=
  let s := t.stream exe
  if s.calls = [] then t.bank.get 0 (4096 * t.actN + s.pos) else t.lib.get 0 s.pos
/-- Is the opcode of a word undefined (*Opcodes*)? -/
def opUndefined (w : Nat) : Bool := (readOperands (bits w 127 120) w).isNone

/-! Page headers (R141). -/

/-- A page header. -/
structure PageHdr where
  planId : Nat
  work : Nat
  page : Nat
  pages : Nat
  aoff : Nat
  alen : Nat
  eoff : Nat
  elen : Nat
  csmask : Nat
  csoff : Nat
  swapLimit : Nat
  stallLimit : Nat
  deriving DecidableEq, Repr

/-- Read the header in slots 0 and 1. -/
def readHdr (s0 s1 : Nat) : PageHdr :=
  ⟨bits s0 127 96, bits s0 95 80, bits s0 79 64, bits s0 63 48, bits s0 47 36, bits s0 35 24, bits s0 23 12, bits s0 11 0,
   bits s1 127 112, bits s1 111 100, bits s1 99 84, bits s1 83 68⟩

/-- Number of bits set in 16. -/
def popcount16 (m : Nat) : Nat := (List.range 16).foldl (fun a i => a + b2n (bit m i)) 0

/-- Does [a, a+n) meet [b, b+m)? -/
def meets (a n b m : Nat) : Bool := decide (n ≠ 0 ∧ m ≠ 0 ∧ a < b + m ∧ b < a + n)

/-- The last instruction of a section must be SWP, or END on the last page, at depth 0 (R141). -/
def endsRight (slot : Nat → Nat) (off len : Nat) (last : Bool) : Bool :=
  match readIWord (slot (off + len - 1)) with
  | some r => if last then r.ti = .endI else r.ti = .swp
  | none => false

/-- R141 for one page, `slot` its 4096 slots. -/
def hdrOk (slot : Nat → Nat) : Bool :=
  let h := readHdr (slot 0) (slot 1)
  let n := 8 * popcount16 h.csmask
  let inR (o l : Nat) : Bool := decide (2 ≤ o ∧ o + l ≤ 4096)
  1 ≤ h.pages && h.page < h.pages && 1 ≤ h.alen && 1 ≤ h.elen && inR h.aoff h.alen && inR h.eoff h.elen && (n = 0 || inR h.csoff n)
    && !meets h.aoff h.alen h.eoff h.elen && !meets h.aoff h.alen h.csoff n && !meets h.eoff h.elen h.csoff n
    && endsRight slot h.aoff h.alen (h.page + 1 = h.pages) && endsRight slot h.eoff h.elen (h.page + 1 = h.pages)

/-- Instructions of a slot range. -/
def tisIn (slot : Nat → Nat) (p n : Nat) : List TI := (List.range n).filterMap (fun i => (readIWord (slot (p + i))).map IWordRead.ti)
/-- A list of instructions with the routines it calls written out, `fuel` calls deep. -/
def flatTis (rt : Tab Routine) (lib : Nat → Nat) : Nat → List TI → List TI
  | 0, is => is
  | n + 1, is => is.flatMap (fun i => match i with
    | .call k => flatTis rt lib n (tisIn lib (rt.get {} k).slot (rt.get {} k).len)
    | i => [i])
/-- The gang modes that MCFs of a list set. -/
def gangsOf (is : List TI) : List Nat := is.filterMap (fun i => match i with
  | .mcf g _ => some g
  | _ => none)
/-- What the loader knows at an instruction: open bodies, innermost first, with level, last slot and greatest index; the gang modes that may be
in force. -/
structure ScanSt where
  open_ : List (Nat × Nat × Nat)
  gangs : List Nat
  deriving DecidableEq, Repr
/-- The fields whose range depends on the gang mode (R57, R64): refused where no mode that may be in force allows them. -/
def gangFits (gangs : List Nat) : TI → Bool
  | .mst f _ => gangs.contains 0 || (decide (f.accBase < 512) && !f.cap)
  | _ => true

/-- Scan one section or routine: opcodes, streams, ranges, nesting, calls, and counts below 2^24 (R150). `base` is the depth at entry, `calld` the
call depth already used, `outer` the bodies of the caller, and `callee` the scan of a routine where it is called. -/
def scanSec (callee : Nat → ScanSt → Bool) (rt : Tab Routine) (lib slot : Nat → Nat) (exe routine : Bool) (endSlot base calld : Nat)
    (outer : List (Nat × Nat × Nat)) : Nat → Nat → ScanSt → Bool
  | 0, _, st => st.open_.isEmpty
  | n + 1, p, st =>
    match readIWord (slot p) with
    | none => false
    | some r =>
      let depth := base + st.open_.length
      let maxIdx (l : Nat) : Nat := (((st.open_ ++ outer).find? (fun o => o.1 = l)).map (fun o => o.2.2)).getD (if routine then 0 else 2 ^ 24 - 1)
      let bodyRoom (last : Nat) : Bool := match st.open_ with
        | [] => decide (last < endSlot)
        | o :: _ => decide (last ≤ o.2.1)
      let next (st : ScanSt) : Bool :=
        scanSec callee rt lib slot exe routine endSlot base calld outer n (p + 1) { st with open_ := st.open_.dropWhile (fun o => o.2.1 = p) }
      let within (q m : Nat) : List Nat := gangsOf (flatTis rt lib 4 (tisIn slot q m))
      r.ti.ok && (r.ti.stream = none || r.ti.stream = some exe) && gangFits st.gangs r.ti &&
      (match r.ti with
       | .loop f =>
         let cnt := f.c0 + (if f.cme then f.cm * maxIdx f.clv else 0)
         f.lv = depth && depth ≤ 5 && cnt < 2 ^ 24 && bodyRoom (p + f.body) &&
           next ⟨(f.lv, p + f.body, cnt - 1) :: st.open_, st.gangs ++ within (p + 1) f.body⟩
       | .call k =>
         let e := rt.get {} k
         e.len ≠ 0 && e.exe = exe && e.base = depth && depth + e.loopd ≤ 6 && calld + 1 + e.calld ≤ 4 &&
           callee k ⟨st.open_ ++ outer, st.gangs⟩ && next { st with gangs := st.gangs ++ gangsOf (flatTis rt lib 4 (tisIn lib e.slot e.len)) }
       | .vsl f => f.len0 + (if f.lve then f.mult * maxIdx f.lv else 0) < 2 ^ 24 && next st
       | .mcf g _ => next { st with gangs := [g] }
       | .swp => !routine && st.open_.isEmpty && n = 0
       | .endI => !routine && st.open_.isEmpty && n = 0
       | .ret => routine && st.open_.isEmpty && n = 0
       | _ => next st)
/-- The scan of routine k where it is called: the caller's open bodies give the indices its counts reach. Deeper than four calls nothing is
looked at; R133 refuses those calls by their depth. -/
def scanCall (rt : Tab Routine) (lib : Nat → Nat) : Nat → Nat → ScanSt → Bool
  | 0, _, _ => true
  | n + 1, k, st =>
    let r := rt.get {} k
    scanSec (scanCall rt lib n) rt lib lib r.exe true (r.slot + r.len) r.base (4 - r.calld) st.open_ r.len r.slot ⟨[], st.gangs⟩

/-- R150 for one page against a routine table; flits and channels against the router tables are checked with the plan set. -/
def pageOk (rt : Tab Routine) (lib slot : Nat → Nat) : Bool :=
  let h := readHdr (slot 0) (slot 1)
  let sec (exe : Bool) (off len : Nat) : Bool :=
    scanSec (scanCall rt lib 4) rt lib slot exe false (off + len) 0 0 [] len off ⟨[], [0, 1, 2]⟩
  hdrOk slot && sec false h.aoff h.alen && sec true h.eoff h.elen
    && ((List.range 16).filter (bit h.csmask)).zipIdx.all (fun p =>
         chainValid ((List.range 8).foldl (fun a j => a + slot (h.csoff + 8 * p.2 + j) * 2 ^ (128 * j)) 0))
    && bits (slot 1) 67 0 = 0

/-- The rules a library image must keep (R133, R349): routines inside the segment, none overlapping, each correct within itself. -/
def libraryOk (rt : Tab Routine) (slot : Nat → Nat) : Bool :=
  rt.all (fun p => let r := p.2
    r.len = 0 || (decide (r.slot + r.len ≤ 8192) && r.base + r.loopd ≤ 6 && r.calld ≤ 3
      && scanSec (fun _ _ => true) rt slot slot r.exe true (r.slot + r.len) r.base (4 - r.calld) [] r.len r.slot ⟨[], [0, 1, 2]⟩))
  && rt.all (fun p => rt.all (fun q => p.1 = q.1 || !meets p.2.slot p.2.len q.2.slot q.2.len))

end Sys2Proof.Machine
end

