-- ==== Sys2Proof/Machine/CoreTypes.lean ====
section
/-! DEFINITION. The types of the clock, the regions, the contexts' records and rings, the log and the host attachment (spec 01, 12, 13, 17,
18) as plain data. Unit IDs, indices and counters that are never added into a field of another are plain numbers. -/

namespace Sys2Proof.Machine

/-- The 512 bits of a descriptor, a context record or a group record: eight 64-bit words. -/
structure Words8 where
  w0 : W64 := 0
  w1 : W64 := 0
  w2 : W64 := 0
  w3 : W64 := 0
  w4 : W64 := 0
  w5 : W64 := 0
  w6 : W64 := 0
  w7 : W64 := 0
  deriving DecidableEq, Repr

/-- Word i as a number. -/
def Words8.w (d : Words8) (i : Nat) : Nat :=
  match i with
  | 0 => d.w0.toNat
  | 1 => d.w1.toNat
  | 2 => d.w2.toNat
  | 3 => d.w3.toNat
  | 4 => d.w4.toNat
  | 5 => d.w5.toNat
  | 6 => d.w6.toNat
  | _ => d.w7.toNat
/-- Replace word i. -/
def Words8.setW (d : Words8) (i v : Nat) : Words8 :=
  let b := BitVec.ofNat 64 v
  match i with
  | 0 => { d with w0 := b }
  | 1 => { d with w1 := b }
  | 2 => { d with w2 := b }
  | 3 => { d with w3 := b }
  | 4 => { d with w4 := b }
  | 5 => { d with w5 := b }
  | 6 => { d with w6 := b }
  | _ => { d with w7 := b }
/-- Bits hi:lo of word i. -/
def Words8.fld (d : Words8) (i hi lo : Nat) : Nat := bits (d.w i) hi lo
/-- The 64 bytes, little-endian. -/
def Words8.bytes (d : Words8) : List Byte := (List.range 8).flatMap (fun i => leBytes 8 (d.w i))
/-- Eight words from 64 bytes. -/
def Words8.ofBytes (b : List Byte) : Words8 :=
  (List.range 8).foldl (fun d i => d.setW i (ofLE ((b.drop (8 * i)).take 8))) {}

/-! Clock (spec 01). -/

/-- A PTP anchor (R37): the beat, the time of its cycle 000 in ns, and the unsynchronised flag. -/
structure Anchor where
  beat : Nat
  time : Nat
  unsync : Bool
  deriving DecidableEq, Repr

/-- BEAT_MODE values (R39): cable mode, master mark, declared input delay in ns or none. -/
structure BeatModeV where
  cable : Bool := false
  master : Bool := false
  delay : Option Nat := none
  deriving DecidableEq, Repr

/-- The beat synthesiser and what is kept with it. `wall` is Keeper time in thirds of a nanosecond: a beat at setting m lasts 128 m of them
with spread off (R22). -/
structure Clock where
  beat : Nat := 0
  cycle : Nat := 0
  m : Nat := 64
  spread : Bool := true
  /-- Beat-stretch orders in flight: new m and the beat from whose cycle 000 it applies (R25). -/
  stretch : List (Nat × Nat) := []
  spreadNext : Option Bool := none
  wall : Nat := 0
  mode : BeatModeV := {}
  modeNext : Option BeatModeV := none
  inLost : Bool := false
  /-- The beat number has been adopted from the master (R290). -/
  adopted : Bool := false
  anchors : List Anchor := []
  deriving DecidableEq, Repr

/-! Regions (spec 01, 07, 13, 15 to 17). -/

/-- *Region states* (R14). -/
inductive RState where
  | active
  | standby
  | closed
  | hosting
  | heatOff
  | shadowed
  | transitLost
  deriving DecidableEq, Repr

/-- The code of a region state. -/
def RState.code : RState → Nat
  | .active => 0
  | .standby => 1
  | .closed => 2
  | .hosting => 3
  | .heatOff => 4
  | .shadowed => 5
  | .transitLost => 6

/-- A region's compute domain (R383). -/
inductive Domain where
  | off
  | on
  | switchingOff
  deriving DecidableEq, Repr

/-- A lease in a region controller's table (R334, R335). -/
structure Lease where
  res : Nat
  kind : Nat
  idx : Nat
  holder : Nat
  ctx : Nat
  expiry : Nat
  deriving DecidableEq, Repr

/-- A beat order (R172, R174): the context, the beat it is for, held or executed, and the schedule active in it. -/
structure BeatOrd where
  ctx : Nat
  beat : Nat
  exec : Bool
  sched : Nat
  deriving DecidableEq, Repr

/-- A region controller's sample (R385, R393): four temperatures in 0.25 °C, current in mA, supply in mV, power in mW. -/
structure Sample where
  t0 : Int := 0
  t1 : Int := 0
  t2 : Int := 0
  t3 : Int := 0
  ma : Nat := 0
  mv : Nat := 0
  mw : Nat := 0
  deriving DecidableEq, Repr

/-- What a region controller gathers over an aggregation window (R386): energy in nJ, highest reading, sum and count of readings, highest supply
current in 0.1 A, voltage changes. -/
structure RWin where
  nj : Nat := 0
  tmax : Option Int := none
  tsum : Int := 0
  n : Nat := 0
  ipeak : Nat := 0
  vsteps : Nat := 0
  deriving DecidableEq, Repr

/-- One region with its controller. -/
structure Region where
  st : RState := .active
  peer : Nat := 0x7F
  /-- State and PEER from the next boundary (R14). -/
  next : Option (RState × Nat) := none
  /-- Sites shadowed in force, as 20*cluster + site (R11), and those that the next remap takes in. -/
  bad : List Nat := []
  badNext : List Nat := []
  /-- The context the region is bound to; 0 where no user context holds it (R321). -/
  ctx : Nat := 0
  cd : Domain := .off
  /-- A switch-on is ordered; behind a switch-off that has not finished it waits (R383). -/
  cdQueued : Bool := false
  rcFenced : Bool := false
  /-- Keeper times of this controller's RC_FAULT and RC_SILENT (R421). -/
  rcFails : List Nat := []
  leases : List Lease := []
  /-- The partner's copy of the table (R337). -/
  leaseCopy : List Lease := []
  /-- The controller that grants for this one while it is out, if any (R337). -/
  grantor : Option Nat := none
  orders : List BeatOrd := []
  /-- Supply setpoint in mV, beats with a droop trip in the window by cluster (4: in any), a trip in this beat, and the clock setting the voltage
  is ready for. -/
  vset : Nat := 0
  droops : Tab Nat := []
  droopSeen : Bool := false
  vready : Nat := 0
  /-- What the aggregation window has gathered. -/
  win : RWin := {}
  /-- High in force (R395). -/
  high : Bool := false
  sample : Sample := {}
  /-- Consecutive beats at 102 °C or more, and below 90 °C in heat-off (R395, R397). -/
  hotBeats : Nat := 0
  coolBeats : Nat := 0
  /-- Beats above the region power limit (R393). -/
  overBeats : Nat := 0
  heatTrip : Bool := false
  trips : List Nat := []
  /-- The last window whose telemetry has reached the Keeper. -/
  teleWin : Nat := 0
  /-- A Waggle packet could not reach the region (R188). -/
  unreached : Bool := false
  /-- Suspect sites (20*cluster + site) with the Keeper time their mark ends (R414). -/
  suspect : Tab Nat := []
  /-- Tiles that have reported plan end (R146). -/
  planEnds : List Nat := []
  deriving DecidableEq, Repr

/-! Rings and replies (spec 12). -/

/-- Where a packet came from: the ring of a context (0 the system ring) or a management session (R443, R455). -/
inductive Src where
  | ring (c : Nat)
  | mgmt (session : Nat)
  deriving DecidableEq, Repr

/-- A packet header as it reaches the Keeper (R306): FLAGS, LEN, CTX, SEQ and TAG as they stand in it; `rsv` says that every reserved byte and
bit of PARAMS and payload is 0 (R339); `cyc` is the cycle offset at which it is taken. -/
structure Hdr where
  src : Src
  cyc : Nat
  flags : Nat
  len : Nat
  ctx : Nat
  seq : Nat
  tag : Nat
  rsv : Bool
  deriving DecidableEq, Repr

/-- A data reference (R344). -/
structure DRef where
  dext : Nat
  doff : Nat
  dlen : Nat
  deriving DecidableEq, Repr

/-- Ring states of the status line (R301). -/
inductive RingSt where
  | disabled
  | running
  | stopped
  | stopping
  deriving DecidableEq, Repr

/-- The code of a ring state. -/
def RingSt.code : RingSt → Nat
  | .disabled => 0
  | .running => 1
  | .stopped => 2
  | .stopping => 3

/-- A completion entry before its phase bit: a reply, or an event (R309). -/
structure CEntry where
  tag : Nat
  opcode : Nat
  status : Nat
  stamp : Nat
  detail : Nat
  seq : Nat
  ctx : Nat
  fin : Bool
  evt : Bool
  irq : Bool
  deriving DecidableEq, Repr

/-- A command ring with its completion ring. -/
structure Ring where
  desc : Words8 := {}
  cprod : Nat := 0
  qcons : Nat := 0
  ccons : Nat := 0
  qprod : Nat := 0
  nseq : Nat := 0
  st : RingSt := .disabled
  err : Nat := 0
  backlog : List CEntry := []
  evLost : Nat := 0
  evSeq : Nat := 0
  deriving DecidableEq, Repr

/-- What a long-running command does; the two numbers are what its kind names. -/
inductive Job where
  | ctxOpen
  | ctxClose
  | ctxFence
  | bind
  | protChange
  /-- Answered OK once a zero-fill has ended, at the beat-stamp `a` of its table entry. -/
  | fill
  | planRun
  | step
  | eval
  | planAbort
  | podConfig
  | linkWidth
  | linkRetrain
  | config
  | group
  | freeze
  | parcelMap
  | stateInit
  | capsuleOpen
  | clockSet
  | testRun
  | testAbort
  | trace
  | reset
  deriving DecidableEq, Repr

/-- A long-running command that has not had its final reply (R308). -/
structure Long where
  id : Nat
  src : Src
  opcode : Nat
  tag : Nat
  seq : Nat
  ctx : Nat
  irq : Bool
  job : Job
  a : Nat := 0
  b : Nat := 0
  deriving DecidableEq, Repr

/-- An unanswered far-page request (R312): context, extent, page, stream, next posting beat. -/
structure FarReq where
  ctx : Nat
  ext : Nat
  page : Nat
  stream : Nat
  at_ : Nat
  deriving DecidableEq, Repr

/-- The host attachment (spec 12). -/
structure Ha where
  variant : Nat := 0xFF
  fwver : Nat := 0
  noVariant : Bool := false
  warm : Bool := false
  ready : Bool := false
  cxl : Bool := false
  trained : Bool := false
  rate : Nat := 0
  width : Nat := 0
  sren : Bool := false
  /-- SREN written 1 while the ring was stopping (R300). -/
  srenAgain : Bool := false
  /-- Cause of the last system ring stop (SRERR). -/
  srerr : Nat := 0
  pkts : C48 := 0
  snoop : C48 := 0
  evtLost : W32 := 0
  replDrop : W32 := 0
  memErr : W32 := 0
  unmapped : W32 := 0
  /-- MSI-X: table size enabled, vectors masked and pending (bit v), and the vectors sent, newest last. -/
  msixSize : Nat := 256
  msixMask : Nat := 2 ^ 256 - 1
  msixPend : Nat := 0
  msixSent : List Nat := []
  hdm : Bool := false
  /-- The 64 bytes of the last CXL.mem read response (R315). -/
  memResp : List Byte := []
  far : List FarReq := []
  deriving DecidableEq, Repr

/-! Faults and the log (spec 17, 18). -/

/-- An Afterglow record (R439); INDEX is its number in the log, the CRC is formed when it is read. -/
structure Rec where
  typ : Nat := 0
  flags : Nat := 0
  stamp : Nat := 0
  boot : Nat := 0
  ctx : Nat := 0
  len : Nat := 0
  body : List Byte := []
  deriving DecidableEq, Repr

/-- A fault report on its way or at its region controller (R407): class, unit, stamp, instruction and CALL tags, context, details. -/
structure FReport where
  cls : Nat
  unit : Nat
  stamp : Nat
  tag : Nat
  otag : Nat
  ctx : Nat
  det : List Nat
  deriving DecidableEq, Repr

/-- A repetition that has to run, or runs (R413): the record, its unit and context. -/
structure Rep where
  idx : Nat
  rep : FReport
  deriving DecidableEq, Repr

/-- Why a hold request is outstanding: a forecast or full egress (one decision only, R219), a fence (until recovery clears it), a reaction P
or a stream fault (until the plan has ended), no usable plan (until the host loads one), or a tile reset that ended a plan (until the host starts
one, R378). -/
inductive HoldWhy where
  | forecast
  | fence
  | plan
  | noPlan
  | restart
  deriving DecidableEq, Repr

/-! Waggle messages (spec 07). -/

/-- What a Waggle packet in flight carries (*Waggle opcodes*, R189). -/
inductive WMsg where
  | hold (ctx src : Nat) (why : HoldWhy)
  | fault (r : FReport)
  | fence (action target ctx : Nat)
  | order (o : BeatOrd)
  | spReply (status value : Nat)
  | regReply (status value : Nat)
  | lease (l : Lease) (status : Nat) (reply : Bool)
  | reclaim (l : Lease)
  | release (l : Lease)
  | planStart (tile planId beat bank : Nat)
  | planEnd (tile stamp : Nat)
  | routeSwitch (ctx region target beat : Nat)
  | stretch (m beat : Nat)
  | telemetry (unit : Nat) (words : List Nat)
  deriving DecidableEq, Repr

/-- A packet in flight: source and destination units, and the sender's sequence number modulo 128 (R187). -/
structure WPkt where
  src : Nat
  dst : Nat
  msg : WMsg
  seq : Nat
  deriving DecidableEq, Repr

/-- The Afterglow log and its rate window. -/
structure Log where
  recs : Tab Rec := []
  next : Nat := 0
  gasp : List Rec := []
  gaspEmpty : Bool := true
  boot : Nat := 0
  winStart : Nat := 0
  winStamp : Nat := 0
  winRecs : Nat := 0
  dropped : Nat := 0
  dropCls : Nat := 0
  dropUnit : Nat := 0
  dropStamp : Nat := 0
  reps : List Rep := []
  smbSel : Nat := 0
  /-- The Keeper's event buffer: the last 8192 Waggle packets of classes 0 and 1 (R441). -/
  evbuf : List WPkt := []
  deriving DecidableEq, Repr

/-- The first fault of a partition since its last release (R410): its record if written, the stamp of detection, and the beat from which its
hold applies once it does. -/
structure First where
  idx : Option Nat
  stamp : Nat
  heldAt : Option Nat
  deriving DecidableEq, Repr

end Sys2Proof.Machine
end

