-- ==== Sys2Proof/Machine/RimTypes.lean ====
section
/-! DEFINITION. The state of the networks, the stack controllers with streams, reduction path and Ripener, and what a context holds for its
training (spec 07 to 10) as plain data. -/

namespace Sys2Proof.Machine

/-! Data mesh and Waggle hubs (spec 07). -/

/-- A mesh flit (R168): two data words with what their check codes find (0 good, 1 one byte error, 2 uncorrectable), PTAG, V, and whether the
sideband parity holds. -/
structure MFlit where
  w0 : Nat := 0
  w1 : Nat := 0
  e0 : Nat := 0
  e1 : Nat := 0
  ptag : Nat := 0
  v : Bool := false
  spBad : Bool := false
  deriving DecidableEq, Repr

/-- A flit on its way to a router input (`port` 0 N, 1 E, 2 S, 3 W) or, with `port` 5, to an edge-port buffer of number `dst`. -/
structure Fly where
  dst : Nat
  port : Nat
  beat : Nat
  cyc : Nat
  flit : MFlit
  deriving DecidableEq, Repr

/-- A router: its route memory and counters (R171, R192). -/
structure Router where
  routes : Tab Nat := []
  corr : C48 := 0
  discard : C48 := 0
  absorb : C48 := 0
  mergeNf : W32 := 0
  deriving DecidableEq, Repr

/-- A Waggle hub (R186, R192): counters, neighbours whose link is down, resends of the packet at the output towards each neighbour. -/
structure Hub where
  pkts : C48 := 0
  drop : W32 := 0
  resend : W32 := 0
  down : List Nat := []
  resends : Tab Nat := []
  deriving DecidableEq, Repr

/-! Streams (spec 08). -/

/-- Stream states of R223. -/
inductive SlotSt where
  | idle
  | running
  | haltFar
  | haltErr
  | done
  | aborted
  deriving DecidableEq, Repr

/-- The code of a stream state. -/
def SlotSt.code : SlotSt → Nat
  | .idle => 0
  | .running => 1
  | .haltFar => 2
  | .haltErr => 3
  | .done => 4
  | .aborted => 5

/-- A stream slot with its stream. `pos` counts the flits fetched into the buffer (read) or written to the extent (write); `idx` is the gather
index of the block being walked. -/
structure Slot where
  ctx : Nat := 0
  desc : Words8 := {}
  st : SlotSt := .idle
  cause : Nat := 0
  buf : List Nat := []
  pos : Nat := 0
  idx : Option Nat := none
  /-- The number plus one of the block whose index `idx` is; 0 with none read. -/
  idxBlk : Nat := 0
  done : Nat := 0
  offset : Nat := 0
  /-- The wafer beat in which the stream was done. -/
  doneAt : Nat := 0
  /-- Armed by the plan whose run this is; 0 for a stream armed by command. -/
  plan : Nat := 0
  deriving DecidableEq, Repr

/-! Reduction and Ripener (spec 10). -/

/-- A reduction descriptor in service (R242): five words, flits taken, the row index in force, and how many rows are done. -/
structure RedRun where
  ctx : Nat
  d0 : W64
  d1 : W64
  d2 : W64
  d3 : W64
  d4 : W64
  taken : Nat := 0
  part : List Nat := []
  idx : Option Nat := none
  stopped : Bool := false
  deriving DecidableEq, Repr

/-- An egress buffer (R242, R243): the parcel's FP32 sums by element, and how far its sending has come. -/
structure Egress where
  ctx : Nat
  parcel : Nat
  sum : Tab Nat := []
  seen : List Nat := []
  complete : Bool := false
  /-- Words of 8 sums in error: 1 one byte, 2 uncorrectable (R422). -/
  errs : Tab Nat := []
  deriving DecidableEq, Repr

/-- What an owner has from one member for one parcel (R252): blocks accepted and the close. -/
structure MemberIn where
  pos : Nat
  dense : Nat := 0
  rows : Nat := 0
  closed : Bool := false
  cDense : Bool := false
  cRows : Nat := 0
  nf : Bool := false
  stamp : Nat := 0
  deriving DecidableEq, Repr

/-- An owner buffer (R242, R250): exact sums, A and S, blocks reached, and the members' contributions. -/
structure Owner where
  ctx : Nat
  parcel : Nat
  attempt : Nat
  acc : Tab Int := []
  amax : Val := .zero false
  sat : Nat := 0
  touched : List Nat := []
  members : List MemberIn := []
  complete : Bool := false
  skipped : Bool := false
  aside : Bool := false
  /-- Its place, plus one, in the order in which its controller's parcels became complete (R254); 0 until then. -/
  doneNo : Nat := 0
  /-- Words of 4 accumulators in error: 1 one byte, 2 uncorrectable (R422). -/
  errs : Tab Nat := []
  deriving DecidableEq, Repr

/-- A commit table or mirror map entry (R262). -/
structure Commit where
  step : W32 := 0xFFFFFFFF#32
  v : Bool := false
  inf : Bool := false
  slot : Nat := 0
  newslot : Nat := 0
  deriving DecidableEq, Repr

/-- A commit in flight: since the mirror transfer of `beat` (R263, R264). `unch` marks a commit as unchanged. -/
structure InFlight where
  parcel : Nat
  step : Nat
  attempt : Nat
  beat : Nat
  unch : Bool
  wnext : Nat
  /-- A mirror of state loaded by command or, with `unch`, of a takeover's new mirrors: its acknowledgement changes no STEP. -/
  initial : Bool
  deriving DecidableEq, Repr

/-- What a step leaves in the step record for one parcel (R253, R355). -/
structure PStat where
  parcel : Nat
  a : W32
  s : Nat
  skipped : Bool
  elems : Nat
  norm : W64
  deriving DecidableEq, Repr

/-- The step record of one step. -/
structure StepRec where
  step : Nat
  updated : Nat := 0
  skipped : Nat := 0
  gnorm : W32 := 0
  parcels : List PStat := []
  deriving DecidableEq, Repr

/-- A stack controller with its stack, regulator, reduction SRAM and Ripener. -/
structure Sc where
  /-- Fitted by the variant and in service; the stack's pages (R195). -/
  serving : Bool := false
  pages : Nat := 24576
  mem : Mem := []
  /-- Stack words (byte address / 32) in error: 1 one byte, 2 uncorrectable. -/
  errs : Tab Nat := []
  ext : Tab Nat := []
  map : Tab Nat := []
  /-- The kind-2 extent paired with a kind-1 extent and the reverse, by index, plus one (R227). -/
  pair : Tab Nat := []
  /-- First window page of a host-visible extent, by index, plus one (R314). -/
  win : Tab Nat := []
  /-- Store pages retired or failed, never placed again (R204, R435). -/
  retired : List Nat := []
  slots : Tab Slot := []
  rg : W32 := 0x42#32
  rgNext : Option W32 := none
  rd : W32 := 0x40080#32
  rdNext : Option W32 := none
  grant : C48 := 0
  holdReq : W32 := 0
  corr : C48 := 0
  uncorr : W32 := 0
  ztFill : W32 := 0
  blocks : C48 := 0
  stale : W32 := 0
  dup : W32 := 0
  satN : C48 := 0
  skip : W32 := 0
  parcels : C48 := 0
  mirrors : C48 := 0
  temp : Int := 0
  /-- Grant limit by stack temperature: 0 full, 1 half, 2 none (R398). -/
  limit : Nat := 0
  /-- Granules granted in the current beat to each context (R387). -/
  beatGr : Tab Nat := []
  /-- Of these, the granules of class 4 (R217). -/
  lowGr : Nat := 0
  /-- Granules already written of the zero-fill of a store page, by page (R200). -/
  fills : Tab Nat := []
  /-- Granules reserved by the forecast, by stream slot (R218). -/
  reserved : Tab Nat := []
  orders : List BeatOrd := []
  patrol : Nat := 0
  underTest : Bool := false
  reds : List RedRun := []
  egress : List Egress := []
  owners : List Owner := []
  /-- Parcels that have become complete (R254). -/
  doneCnt : Nat := 0
  /-- The edge-port buffer's blocks waiting for credit are in `egress`; row blocks waiting are here: context, parcel, block, bytes, sat. -/
  rowQ : List (Nat × Nat × Nat × List Byte × Nat) := []
  winNj : Nat := 0
  /-- Sticky flags of the quantising rim vector chain and of the Ripener (R91, R94). -/
  qFl : Flags := {}
  rpFl : Flags := {}
  deriving DecidableEq, Repr

/-! Links and pod (spec 11). -/

/-- A fabric packet to send (R283): channel, type, context, destination (a position, or 65 for the buddy) and payload. -/
structure FPkt where
  vc : Nat
  typ : Nat
  ctx : Nat
  dst : Nat
  body : List Byte
  deriving DecidableEq, Repr

end Sys2Proof.Machine
end

