-- ==== Sys2Proof/Machine/CtxTypes.lean ====
section
/-! DEFINITION. What a context holds: grant, bindings, ring, partition, plan sets, runs, optimiser configuration, ledger (spec 01, 09, 10,
12 to 14, 17) as plain data. -/

namespace Sys2Proof.Machine

/-- *Context states* (R322). -/
inductive CtxSt where
  | ungranted
  | closed
  | opened
  | closing
  | fenced
  deriving DecidableEq, Repr

/-- The code of a context state. -/
def CtxSt.code : CtxSt → Nat
  | .ungranted => 0
  | .closed => 1
  | .opened => 2
  | .closing => 3
  | .fenced => 4

/-- A hold request received by the lead region controller: its source unit, its kind and the first beat it holds (R26). -/
structure HoldReq where
  src : Nat
  why : HoldWhy
  beat : Nat
  deriving DecidableEq, Repr

/-- The hold state and schedule sequence of a partition (R26 to R28, R173). -/
structure Part where
  held : Bool := false
  /-- The decision broadcast for the next beat. -/
  next : Option Bool := none
  holds : List HoldReq := []
  heldBeats : Nat := 0
  /-- HOLD_TIMEOUT has been raised for this hold. -/
  timedOut : Bool := false
  limit : Nat := 65536
  planBeat : Nat := 0
  /-- The schedule sequence in force (R173); empty once the plan has ended. -/
  seq : List Nat := []
  /-- The beat named in the plan's start order, and whether plan beat 0 has begun. -/
  startAt : Option Nat := none
  begun : Bool := false
  first : Option First := none
  deriving DecidableEq, Repr

/-- A route switch ordered (R176): replaced region, target region, beat it is named for. -/
structure Switch where
  region : Nat
  target : Nat
  beat : Nat
  deriving DecidableEq, Repr

/-- A substitute or without-region plan (type 7, R350). -/
structure SubPlan where
  target : Nat
  region : Nat
  pages : List (Nat × Nat × List Nat)
  routes : List (Nat × Nat)
  steps : List Nat
  deriving DecidableEq, Repr

/-- A loaded plan set (R350): pages by tile and page number, route entries by router, schedule steps, stream and reduction descriptors and
reduction orders by stack controller, substitute plans; `ok` falls when a region its routes cross becomes transit lost (R421). -/
structure PlanSet where
  kind : Nat
  freeze : Nat
  holdLimit : Nat
  pages : List (Nat × Nat × List Nat)
  routes : List (Nat × Nat)
  steps : List Nat
  streams : List (Nat × Nat × Words8)
  reds : List (Nat × List Nat)
  order : List (Nat × List Nat)
  subs : List SubPlan
  ok : Bool := true
  deriving DecidableEq, Repr

/-- What a run of a plan is. -/
inductive RunKind where
  | plain
  | step
  | eval
  deriving DecidableEq, Repr

/-- How a run ends that does not complete: its status code and the Afterglow index of the cause. -/
structure Ending where
  status : Nat
  cause : Nat
  deriving DecidableEq, Repr

/-- A run of a plan set, queued or under way. -/
structure Run where
  kind : RunKind
  handle : Nat
  step : Nat := 0
  seed : Nat := 0
  tokens : Nat := 0
  lr : Nat := 0x3F800000
  attempt : Nat := 0
  long : Nat
  cmdTag : Nat
  /-- Plan beat 0 has been issued. -/
  started : Bool := false
  planDone : Bool := false
  ending : Option Ending := none
  deriving DecidableEq, Repr

/-- What is recorded of the last step: its interval over all attempts (R226, R236). -/
structure StepNow where
  step : Nat
  seed : Nat
  tokens : Nat
  attempts : Nat := 0
  attempt : Nat := 0
  start : Nat := 0
  beats : Nat := 0
  held : Nat := 0
  ended : Bool := false
  /-- Taken over: its token count is not known (R426). -/
  taken : Bool := false
  deriving DecidableEq, Repr

/-- A ledger record before it is laid out (R353). -/
structure Ledger where
  step : Nat
  attempts : Nat
  eval : Bool
  complete : Bool := false
  ended : Bool := false
  tokens : Nat
  held : Nat := 0
  start : Nat
  stop : Nat := 0
  beats : Nat := 0
  /-- Pool-1 and pool-2 energy of the interval in the current window, and the energy of the interval up to its start, in nJ (R388). -/
  winNj : Nat := 0
  energy : Nat := 0
  tpmwh : Nat := 0
  deriving DecidableEq, Repr

/-- A STEP_START message received (R289). -/
structure StartMsg where
  pos : Nat
  step : Nat
  attempt : Nat
  scale : Nat
  freeze : Nat
  deriving DecidableEq, Repr

/-- A parcel map entry (R239). -/
structure PEnt where
  w0 : W64
  w1 : W64
  deriving DecidableEq, Repr

/-- A change an OPT command asked for during a step (R342): applied at the next step start, in ring order. -/
inductive Deferred where
  | config (v : Nat)
  | group (i : Nat) (r : Words8)
  | freeze (bits : List Byte)
  deriving DecidableEq, Repr

/-- A takeover under way (R426): the OPT_PARCEL_MAP that asked and the positions whose RESTORE_DONE is still to come. -/
structure Takeover where
  long : Nat
  wait : List Nat
  /-- 2 KiB units received, and stated in RESTORE_DONE, by position (65 for a buddy in another pod). -/
  got : Tab Nat := []
  due : Tab Nat := []
  /-- The buddy has reported mirror entries: the other positions have been asked. -/
  asked : Bool := false
  deriving DecidableEq, Repr

/-- A context. -/
structure Ctx where
  -- grant and record (R323)
  w0 : W64 := 0
  w1 : W64 := 0
  w2 : W64 := 0
  w3 : W64 := 0
  gen : W32 := 0
  st : CtxSt := .ungranted
  gblk : Option Nat := none
  /-- The priority in force until the next boundary, after a change of it (R327). -/
  prioOld : Option Nat := none
  /-- The descriptor of a CTX_OPEN taken and its command, in force at the next boundary. -/
  opening : Option (Words8 × Nat) := none
  /-- An open queued behind the close (R322). -/
  queuedOpen : Option (Words8 × Nat) := none
  /-- The close came from a revocation of the grant (R327). -/
  toUngranted : Bool := false
  /-- CTX_FENCE taken: it acts at the next boundary (R332). -/
  fencing : Option Nat := none
  ring : Ring := {}
  part : Part := {}
  switch : Option Switch := none
  /-- Switches ordered while one is under way, oldest first. -/
  moves : List Switch := []
  -- plans and runs
  sets : Tab (Option PlanSet) := []
  nextSet : Nat := 1
  run : Option Run := none
  queued : Option Run := none
  last : Nat := 0xFFFFFFFF
  now : Option StepNow := none
  starts : List StartMsg := []
  /-- The module's own STEP_START: the beat it was sent in, its step and attempt. -/
  ownStart : Option (Nat × Nat × Nat) := none
  -- parameters and optimiser
  pmap : List PEnt := []
  rsets : List Nat := []
  scaleCur : Tab Nat := []
  scaleNext : Tab Nat := []
  e4m3 : Bool := false
  /-- The wire format that the next step start puts into effect (R96). -/
  wireNext : Bool := false
  wsr : Bool := false
  headroom : Nat := 1
  satStep : Nat := 2
  downStep : Nat := 1
  deferred : List (Deferred × Nat) := []
  freeze : List Byte := []
  /-- Parcels frozen since the last completed step, to be committed as unchanged once (R260). -/
  newFz : List Nat := []
  groups : Tab Words8 := []
  counts : Tab Nat := []
  /-- Groups whose parcels committed with an update in the step under way. -/
  bumped : List Nat := []
  commits : Tab Commit := []
  mirrors : Tab Commit := []
  flight : List InFlight := []
  /-- Parcels opened by each owner stack controller in reduction order, and the credits received, by 64*position + controller. -/
  opened : Tab Nat := []
  credits : Tab Nat := []
  order : List (Nat × List Nat) := []
  /-- The reduction orders of other owners that the plan under way gives: position, controller, parcels (R249). -/
  others : List (Nat × Nat × List Nat) := []
  /-- Closes sent and all-gathers received in the step under way. -/
  closesSent : List Nat := []
  gathered : List Nat := []
  /-- Row blocks sent and blocks withheld, by parcel, in the step under way. -/
  rowSent : Tab Nat := []
  withheld : List Nat := []
  recs : List StepRec := []
  norms : List (Nat × Nat × W64) := []
  gnorm : Tab Nat := []
  /-- Host-assisted updates outstanding: parcel, attempt, beat of the event (R269). -/
  hostOut : List (Nat × Nat × Nat) := []
  /-- Parcels whose committed state waits for the buddy's copy (R423). -/
  repair : List Nat := []
  hxNext : Nat := 0
  stragglers : Tab Nat := []
  takeover : Option Takeover := none
  /-- A run was under way when a pod configuration was taken: the context keeps the old one until the run is over (R282). -/
  oldPod : Bool := false
  /-- Long-running mirrors of OPT_STATE_INIT and CAPSULE_OPEN: the command and the parcels still to be acknowledged. -/
  initWait : List (Nat × List Nat) := []
  -- energy and ledger
  meter : Nat := 0
  winNj : Nat := 0
  ledger : List Ledger := []
  -- kept images (R416)
  lib : List Byte := []
  map : Option SpMap := none
  deriving DecidableEq, Repr

end Sys2Proof.Machine
end

