-- ==== Sys2Proof/Machine/SysTypes.lean ====
section
/-! DEFINITION. Links, pod, governor, inputs, security controller, flash, boot, tests, traces and sideband (spec 11, 14 to 16, 18 to 20)
as plain data. -/

namespace Sys2Proof.Machine

/-- What link training finds (R278, R279): lanes passing at full and at half rate in both directions, the worst margin, whether a signal and
a HELLO came, and the peer it names. -/
structure Trained where
  signal : Bool
  passF : Nat
  passH : Nat
  margin : Nat
  hello : Bool
  pod : Nat
  pos : Nat
  plink : Nat
  pidh : Nat
  deriving DecidableEq, Repr

/-- A packet in a link's replay buffer or queue with its LSEQ once sent. -/
structure SPkt where
  lseq : Nat
  p : FPkt
  resends : Nat := 0
  deriving DecidableEq, Repr

/-- A fabric link (R278 to R294). `st` is the topology STATE: 0 disabled, 1 no peer, 2 excluded, 3 up, 4 retraining. -/
structure Link where
  st : Nat := 0
  width : Nat := 0
  half : Bool := false
  lmask : Nat := 0
  pmask : Nat := 0
  plink : Nat := 0
  ppos : Nat := 0x7F
  ppod : Nat := 0
  margin : Nat := 0
  pidh : Nat := 0
  gen : Nat := 0
  cfg : W32 := 0
  /-- The trained mode before the caps: width code and half rate. -/
  tw : Nat := 0
  th : Bool := false
  /-- The lanes of the trained mode. -/
  tmask : Nat := 0
  /-- A narrowing in progress and the commands it answers; a widening queued behind it: the LK_CFG value and its commands. -/
  narrowing : Option (List Nat) := none
  widen : Option (Nat × List Nat) := none
  /-- The commands a retraining in progress answers, and whether it is one in service (R286). -/
  retrain : List Nat := []
  inService : Bool := false
  /-- A training whose mode is set and whose peer's HELLO is awaited: what it found, and the Keeper time at which the wait ends (R279). -/
  hello : Option (Trained × Nat) := none
  /-- The governor holds this link narrowed (R400). -/
  govCap : Bool := false
  txSeq : Nat := 0
  replay : List SPkt := []
  queue : List FPkt := []
  credit : Tab Nat := []
  /-- Weighted bytes sent, by which VCs 1 to 3 share the link (R285). -/
  share : Tab Nat := []
  /-- Beats since a credit of a VC with a packet waiting. -/
  starve : Tab Nat := []
  /-- Bytes sent and received in the current beat, by context (R387). -/
  beatBytes : Tab Nat := []
  /-- Keeper time of the last packet received. -/
  lastRx : Nat := 0
  rxSeq : Nat := 0
  rxNak : Bool := false
  rxCredit : Tab Nat := []
  tx : C48 := 0
  rx : C48 := 0
  fecCorr : C48 := 0
  fecUnc : W32 := 0
  replays : W32 := 0
  retrains : W32 := 0
  badPkt : W32 := 0
  misdir : W32 := 0
  ctxDrop : W32 := 0
  /-- Start of the current 10 ms slice, bytes carried in it and in the one before (R400). -/
  sliceAt : Nat := 0
  slice : Nat := 0
  slicePrev : Nat := 0
  /-- How long, in thirds of a nanosecond, a packet of a VC has waited. -/
  waits : Tab Nat := []
  winNj : Nat := 0
  deriving DecidableEq, Repr

/-- A pod configuration (R282, R354). -/
structure PodCfg where
  pod : Nat := 0
  pos : Nat := 0
  buddy : Nat := 0
  buddyPod : Nat := 0
  master : Nat := 0
  routes : List (Nat × Nat) := []
  deriving DecidableEq, Repr

/-- What is known of another position. -/
structure Peer where
  share : Nat := 0
  power : Nat := 0
  offer : Int := 0
  heard : Bool := false
  stale : Bool := false
  lost : Bool := false
  /-- Keeper time of its last HEADROOM. -/
  headAt : Nat := 0
  deriving DecidableEq, Repr

/-- The pod as the module knows it. -/
structure Pod where
  cfg : Option PodCfg := none
  pending : Option (PodCfg × Nat) := none
  gen : Nat := 0
  peers : Tab Peer := []
  /-- A capsule transfer being received or sent: number, next unit, total, bytes; and units acknowledged by transfer. -/
  capIn : Tab (List Byte) := []
  capOut : Tab Nat := []
  deriving DecidableEq, Repr

/-- The governor (spec 16). Powers in W; `share` is S. -/
structure Gov where
  cmod : Nat := 21000
  share : Nat := 0
  mmin : Nat := 64
  cap : Nat := 21000
  allow : Nat := 21000
  pin : Nat := 0
  pstat : Nat := 0
  inlet : Int := 0
  outlet : Int := 0
  flow : Nat := 0
  excess : Bool := false
  stale : Bool := false
  derate : Bool := false
  unmet : Bool := false
  /-- CLOCK_SET commands not yet in force. -/
  clockSet : List Nat := []
  policyNext : Option (Nat × Nat) := none
  podAllow : Int := 0
  /-- The pod allowance from the next boundary. -/
  podNext : Option Int := none
  offer : Int := 0
  /-- The allowance that applies once the one before has been kept for 10 ms after a falling offer, and when the message was sent (R394). -/
  keep : Option (Int × Nat) := none
  overBeats : Nat := 0
  /-- The first beat whose power may lengthen again (R390). -/
  noLengthen : Nat := 0
  /-- Sum of input power in mW over the window, its beats, and its input energy in nJ. -/
  winW : Nat := 0
  winBeats : Nat := 0
  winNj : Nat := 0
  /-- Mean input power of the last whole window in mW, rounded up. -/
  lastMean : Nat := 0
  /-- The window in which POWER_CAP_UNMET was posted last, and the last window closed, each plus one. -/
  unmetWin : Nat := 0
  closedWin : Nat := 0
  /-- The input limit of the last beat (R460). -/
  inLimit : Nat := 0
  /-- The coolant shutdown of R399 is in force. -/
  coolOff : Bool := false
  deriving DecidableEq, Repr

/-- Why an input is open (R458 to R460). -/
inductive InOpen where
  | fitted
  | sense
  | excess
  | current
  deriving DecidableEq, Repr

/-- A 54 V input: voltage in 10 mV, current in 0.1 A, its stage, and whether it is live. -/
structure PwrIn where
  v : Nat := 0
  i : Nat := 0
  live : Bool := false
  opened : Option InOpen := some .fitted
  /-- Keeper time at which its voltage went away after a current trip (R460). -/
  gone : Option Nat := none
  deriving DecidableEq, Repr

/-- The inputs and the standby supply (spec 20). -/
structure Pwr where
  ins : Tab PwrIn := []
  aux : Bool := false
  hist : List (Nat × List (Nat × Nat)) := []
  deriving DecidableEq, Repr

/-- A defect map entry (R370). -/
structure Defect where
  unit : Nat
  kind : Nat
  source : Nat
  cls : Nat
  index : Nat
  stamp : Nat
  counter : Nat
  deriving DecidableEq, Repr

/-- A refinement record as stored: its entry, signature, and the 48-byte digest it was chained to. -/
structure Refine where
  e : Defect
  sig : List Byte
  deriving DecidableEq, Repr

/-- Where the module is in its boot (R366, R380): the standby domain alone, the coolant wait of step 1, stopped on that wait (R466), ROM recovery
(R367), ready, in a module warm reset. -/
inductive Boot where
  | standby
  | coolantWait
  | coolantStop
  | romRecovery
  | ready
  | warm
  deriving DecidableEq, Repr

/-- A variant certificate (R362). -/
structure Variant where
  variant : Nat
  stackcap : Nat
  scmask : Nat
  linkmask : Nat
  closed : Nat
  standby : Nat
  certseq : Nat
  deriving DecidableEq, Repr

/-- A management session (R455). -/
structure Session where
  id : Nat
  nseq : Nat := 0
  replies : List CEntry := []
  deriving DecidableEq, Repr

/-- A pattern pack slot (R437, R438). -/
structure Pack where
  id : Nat
  ver : Nat
  classes : Nat
  minfw : Nat
  inletLo : Int
  inletHi : Int
  tmax : Nat
  deriving DecidableEq, Repr

/-- One unit of a TEST_RUN, queued or running (R433): the command and its data reference, the unit, its pack slot and corner; the coolant inlet
and the setpoint at its start with the Keeper time; the result entry once it has one, and the counts it adds to DETAIL. -/
structure TestUnit where
  long : Nat
  unit : Nat
  slot : Nat
  corner : Nat
  ref : DRef
  running : Bool := false
  /-- The compute domain was switched on for the test (R432). -/
  powered : Bool := false
  /-- Ended by TEST_ABORT. -/
  aborted : Bool := false
  inlet : Int := 0
  volt : Nat := 0
  since : Nat := 0
  result : Option (List Byte) := none
  passed : Nat := 0
  failed : Nat := 0
  deriving DecidableEq, Repr

/-- A trace record (*Trace record*, R358): stamp, unit, TAG, event, uncertainty flag, and the 48 bytes of registers. -/
structure TRec where
  stamp : Nat
  unit : Nat
  tag : Nat
  ev : Nat
  flag : Bool
  regs : List Byte
  deriving DecidableEq, Repr

/-- A trace (R358): the command, the unit, the window, the buffer and the records written. -/
structure Trace where
  long : Nat
  unit : Nat
  start : Nat
  stop : Nat
  ref : DRef
  ctx : Nat
  n : Nat := 0
  /-- The records that stand in the buffer, in order. -/
  recs : List TRec := []
  deriving DecidableEq, Repr

/-- A reset below module level that has been ordered (R376): level, unit or context, the boundary, the commands that await it, and whether
fault recovery ordered it. -/
structure RstOrd where
  level : Nat
  party : Nat
  beat : Nat
  longs : List Nat
  byFault : Bool
  deriving DecidableEq, Repr

/-- What EXTENT_CREATE has set aside until it takes effect: the entry's fields, its store pages, first window page plus one, pair plus one. -/
structure ExtMake where
  kind : Nat
  far : Bool
  pages : Nat
  base : Nat
  store : List Nat
  win : Nat
  pair : Nat
  deriving DecidableEq, Repr

/-- A binding or revocation taken and not yet in effect (R328, R329): 0 region, 1 extent, 2 slot, 3 group block; the first beat at whose
start it may take effect; the command that has its final reply with it. -/
structure BindOrd where
  long : Option Nat
  kind : Nat
  idx : Nat
  ctx : Nat
  free : Bool
  beat : Nat
  make : Option ExtMake := none
  deriving DecidableEq, Repr

/-- The trust state, flash and boot. -/
structure Trust where
  officers : Tab (List Byte) := []
  ogen : W32 := 0
  idCert : List Byte := []
  caCert : List Byte := []
  idKey : List Byte := []
  serial : W32 := 0
  mac : List Byte := []
  minSvn : Nat := 0
  certSeq : Nat := 0
  counter : Nat := 0
  /-- Certificates that chain to the Vakendam root, with their public keys; the keys of the bundle (entry 8). -/
  chained : List (List Byte × List Byte) := []
  variantKey : List Byte := []
  factoryKey : List Byte := []
  patternKey : List Byte := []
  fw : Tab (List Byte) := []
  /-- The slot that booted, and whether the other holds an image staged for the next reset. -/
  bootSlot : Nat := 0
  staged : Bool := false
  stagedCert : Option (List Byte) := none
  fwver : Nat := 0
  svn : Nat := 0
  mfw : List Byte := []
  mboot : List Byte := []
  varCert : List Byte := []
  variant : Option Variant := none
  factory : List Byte := []
  refine : List Refine := []
  findings : List Defect := []
  fullRaised : Bool := false
  boot : Boot := .standby
  wdTimes : List Nat := []
  /-- What asked for the module warm reset ordered, 0 none (R483); the TAG and the RESET commands it answers. -/
  warmTrigger : Nat := 0
  warmTag : Nat := 0
  warmLongs : List Nat := []
  /-- A cold boot is asked for (R474); three watchdog resets within 60 s have made the next reset one (R381). -/
  coldAsked : Bool := false
  wdCold : Bool := false
  sessions : List Session := []
  packs : Tab (Option Pack) := []
  tests : List TestUnit := []
  traces : List Trace := []
  -- sideband
  sbCfg : W32 := 2#32
  armed : Option Nat := none
  ipNext : Option (List Byte) := none
  ip : Option (List Byte) := none
  alert : Bool := false
  recsUnread : Bool := false
  smbOut : List Byte := []
  /-- LED and PWR_OK follow READY; no-variant mode turns the LED off (R472). -/
  wafer : Bool := false
  deriving DecidableEq, Repr

end Sys2Proof.Machine
end

