-- ==== Sys2Proof/Machine/CmdTypes.lean ====
section
/-! DEFINITION. The operand records of the commands that are no tile instructions: what the message, the sensor or the pin brings. -/

namespace Sys2Proof.Machine

/-- How a fabric packet arrives (R283, R284): its link, VC, LSEQ, payload length, CTX, pods and
positions of source and destination, the number of sequenced packets it came in, its size in bytes, and whether a CRC or FEC error hit it. -/
structure FHdr where
  link : Nat
  vc : Nat
  lseq : Nat
  len : Nat
  ctx : Nat
  spod : Nat
  dpod : Nat
  spos : Nat
  dpos : Nat
  stamp : Nat
  frags : Nat
  bad : Bool
  deriving DecidableEq, Repr

/-- A wire block (R92). -/
structure WireBlk where
  parcel : Nat
  block : Nat
  sat : Nat
  elems : List Byte
  deriving DecidableEq, Repr

/-- The fragment prefix of a whole transfer (*Fragment prefix*, R283, and flag bit 1 of R426). -/
structure Prefix where
  parcel : Nat
  step : Nat
  attempt : Nat
  wnext : Nat
  frags : Nat
  unch : Bool
  scales : Bool
  deriving DecidableEq, Repr

/-- An officer signature block (R450); `rsv` says its reserved bytes are 0. -/
structure SigBlk where
  slot : Nat
  rsv : Bool
  sig : List Byte
  deriving DecidableEq, Repr

/-- What a boot or a module warm reset finds on the way: stacks present and trained, links, host link, sites (20*cluster of the wafer + site)
and region controllers that fail broadcast or self-test, the beat number heard from the master, static power, and the step times in µs. -/
structure BootFinds where
  present : Nat
  stackOk : Nat
  links : List Trained
  hostTrained : Bool
  hostCxl : Bool
  hostRate : Nat
  hostWidth : Nat
  badSites : List Nat
  badRcs : List Nat
  master : Option Nat
  pstat : Nat
  times : List Nat
  deriving DecidableEq, Repr

/-- What a test of a unit finds (R435): failed sites, pages or lanes by number, the class of the first failure, whether the stack controller
itself failed, and the setpoint applied. -/
structure TestFinds where
  failed : List Nat
  cls : Nat
  ctrlBad : Bool
  volt : Nat
  deriving DecidableEq, Repr

/-- What the repeat engine finds (R413): the source can be repeated, the same site passes, and the other site with what it shows. -/
structure Repeat where
  able : Bool
  same : Bool
  other : Option (Nat × Bool)
  aborted : Bool
  deriving DecidableEq, Repr

end Sys2Proof.Machine
end

