-- ==== Sys2Proof/Syntax.lean ====
section
/-! DEFINITION. The commands: one constructor per row of the spec's opcode table, in its order, with the row's operands. The row's rule is
the one the table names. -/

namespace Sys2Proof

open Sys2Proof.Machine

/-- The commands of the module. -/
inductive Instr where
  | beatBoundary
  | siteRemap (region cluster : Nat)
  | boundarySlip (rx tx cyc : Nat)
  | stretchOrder (m beat cyc : Nat)
  | holdRequest (ctx src cyc : Nat)
  | holdDecision (ctx : Nat)
  | holdTimeout (ctx : Nat)
  | ptpAnchor (time : Nat) (locked : Bool)
  | beatInLost
  | beatEpoch (f : FHdr) (beat : Nat)
  | mcf (h : IHdr) (gang : Nat) (sati : Bool)
  | mld (h : IHdr) (f : MldF)
  | msw (h : IHdr)
  | mst (h : IHdr) (f : MstF) (u : Option Upset)
  | mdr (h : IHdr) (f : MdrF)
  | cvl (h : IHdr) (setting : Nat) (pb : Bool) (ag : Nat) (word : BitVec 64)
  | vcl (h : IHdr) (slot ag : Nat)
  | vrn (h : IHdr) (slot : Nat) (ovl : Bool)
  | vsl (h : IHdr) (f : VslF)
  | vsm (h : IHdr) (mask : BitVec 64)
  | vrs (h : IHdr) (bank n ag : Nat)
  | vrl (h : IHdr) (bank n ag : Nat)
  | nop (h : IHdr) (cyc : Nat)
  | wcy (h : IHdr) (offset : Nat)
  | loop (h : IHdr) (f : LoopF)
  | call (h : IHdr) (routine : Nat)
  | ret (h : IHdr)
  | swp (h : IHdr)
  | endI (h : IHdr)
  | ags (h : IHdr) (f : AgsF)
  | agi (h : IHdr) (f : AgiF)
  | srd (h : IHdr) (reg ag : Nat)
  | swr (h : IHdr) (reg : Nat) (v : BitVec 64)
  | get (h : IHdr) (ch ag flits : Nat)
  | put (h : IHdr) (ch ag flits : Nat)
  | gth (h : IHdr) (f : GthF)
  | sct (h : IHdr) (f : SctF)
  | pgl (h : IHdr) (ch offset flits : Nat) (fin : Bool)
  | pageSwap (tile : Nat)
  | swapTimeout (tile cyc : Nat)
  | crossWait (tile : Nat)
  | streamStall (tile : Nat) (exe : Bool) (cyc : Nat)
  | planStart (tile : Nat)
  | planEnd (tile cyc : Nat)
  | spPatrol (tile : Nat)
  | spCorrectionWriteback (tile bank : Nat)
  | routerSlot (pos entry cyc : Nat)
  | beatOrder (dst ctx cyc : Nat)
  | beatOrderLost (dst ctx : Nat)
  | routeSwitch (ctx : Nat)
  | waggleResend (hub next : Nat)
  | fenceOrder (dst action ctx : Nat)
  | faultReport (unit cls stamp : Nat)
  | telemetry (unit : Nat)
  | spRead (tile src addr : Nat)
  | spWrite (tile src addr : Nat) (word : Line)
  | spReply (tile dst : Nat)
  | regRead (tile src reg : Nat)
  | regWrite (tile src reg : Nat) (v : BitVec 64)
  | regReply (tile dst : Nat)
  | shortMsg (tile seq : Nat) (words : List Nat)
  | leaseGrant (l : Lease) (reply : Bool)
  | leaseRenew (l : Lease) (reply : Bool)
  | leaseRelease (l : Lease)
  | leaseReclaim (l : Lease)
  | leaseExpired (l : Lease)
  | regulatorGrant (sc : Nat)
  | streamForecast (sc ctx : Nat)
  | edgePortSlot (sc port cyc : Nat) (outbound : Bool)
  | streamDeadline (sc slot : Nat)
  | stackPatrol (sc : Nat)
  | reduceDeadline (sc n : Nat)
  | reductionForecast (sc ctx : Nat)
  | gradEgressSend (sc ctx parcel : Nat)
  | ownerBufferOpen (sc ctx : Nat)
  | gradBlock (f : FHdr) (step attempt : Nat) (row : Bool) (b : WireBlk)
  | gradClose (f : FHdr) (parcel step attempt : Nat) (dense nf : Bool) (rows : Nat)
  | parcelCredit (f : FHdr) (step attempt sc ordinal : Nat)
  | ripenerUpdate (sc ctx parcel : Nat)
  | mirror (f : FHdr) (p : Prefix) (data : List Byte)
  | mirrorAck (f : FHdr) (parcel step attempt status : Nat)
  | mirrorTimeout (ctx parcel : Nat)
  | allgather (f : FHdr) (p : Prefix) (data : List Byte)
  | hostUpdateTimeout (ctx parcel : Nat)
  | capsule (f : FHdr) (transfer off total : Nat) (data : List Byte)
  | capsuleAck (f : FHdr) (transfer units status : Nat)
  | link (n ack : Nat) (nak : Bool) (credits : List Nat) (bad : Bool)
  | linkRetrainInService (n fecWindow : Nat)
  | linkRetrainComplete (n : Nat) (t : Trained)
  | fabricCreditStall (n vc : Nat)
  | hello (n pod pos plink pidh : Nat)
  | stepStartMessage (f : FHdr) (step attempt scale freeze : Nat)
  | stepSyncTimeout (ctx : Nat)
  | norm (f : FHdr) (step : Nat) (v : BitVec 64)
  | headroom (f : FHdr) (share power : Nat) (offer : Int)
  | headroomSend (cyc : Nat)
  | podAllowanceHoldEnd
  | headroomTimeout (pos : Nat)
  | restoreRequest (f : FHdr) (pos mask : Nat)
  | restoreDone (f : FHdr) (pos last cur seed attempt gnorm units : Nat) (counts : List Nat)
  | moduleLost (pos : Nat)
  | systemRingStart (cprod qcons : Nat) (readable : Bool)
  | systemRingStop
  | systemRingStopDone
  | registerWrite (off len value : Nat)
  | headLineSnoop (ctx cyc cprod qcons : Nat) (readable : Bool) (undef : List (Nat × Hdr))
  | headLineReread (ctx cyc cprod qcons : Nat) (readable : Bool) (undef : List (Nat × Hdr))
  | farPageRequestRepost (ctx ext page : Nat)
  | msixUnmask (vec : Nat)
  | hdmDecoderCommit (ways : Nat)
  | windowRead (addr : Nat)
  | windowWrite (addr enable : Nat) (data : List Byte)
  | hostLinkReset
  | ctxOpen (h : Hdr) (d : Words8)
  | ctxClose (h : Hdr)
  | ctxFence (h : Hdr) (gen : Nat) (b : SigBlk)
  | ctxRead (h : Hdr) (first count : Nat) (x : DRef)
  | regionBind (h : Hdr) (region flags : Nat)
  | extentCreate (h : Hdr) (sc kind flags pages pair : Nat)
  | extentBind (h : Hdr) (ext flags : Nat)
  | slotBind (h : Hdr) (stream flags : Nat)
  | groupBind (h : Hdr) (blk flags : Nat)
  | bindingEffect (kind idx : Nat)
  | protChange (h : Hdr) (ctx gen : Nat) (n0 n1 n2 n3 : BitVec 64) (blks : List SigBlk)
  | pageMapFar (h : Hdr) (ext page flags addr : Nat)
  | pageRetire (h : Hdr) (ext page : Nat)
  | extentCopy (h : Hdr) (src dst soff doff len : Nat)
  | streamArm (h : Hdr) (stream : Nat) (d : Words8)
  | streamResume (h : Hdr) (stream : Nat)
  | streamAbort (h : Hdr) (stream : Nat)
  | streamStatus (h : Hdr) (first count : Nat) (x : DRef)
  | spMapLoad (h : Hdr) (m : SpMap)
  | libLoad (h : Hdr) (x : DRef)
  | planLoad (h : Hdr) (x : DRef)
  | planFree (h : Hdr) (handle : Nat)
  | planRun (h : Hdr) (handle : Nat)
  | planAbort (h : Hdr)
  | stepStart (h : Hdr) (step seed tokens lr handle : Nat)
  | stepBegin (ctx : Nat)
  | stepComplete (ctx : Nat)
  | evalStart (h : Hdr) (handle tokens seed : Nat)
  | stepStatus (h : Hdr)
  | fabricTopology (h : Hdr) (x : DRef)
  | podConfig (h : Hdr) (x : DRef)
  | linkWidth (h : Hdr) (n v : Nat)
  | linkRetrain (h : Hdr) (n : Nat)
  | optConfig (h : Hdr) (flags hr sat down : Nat)
  | optParcelMap (h : Hdr) (count : Nat) (x : DRef)
  | optScaleLoad (h : Hdr) (first tables count : Nat) (x : DRef)
  | optGroup (h : Hdr) (group : Nat) (r : Words8)
  | optFreeze (h : Hdr) (count : Nat) (x : DRef)
  | optStateInit (h : Hdr) (first flags count : Nat) (x : DRef)
  | optNorms (h : Hdr) (step : Nat) (x : DRef)
  | optAudit (h : Hdr) (first flags count : Nat) (digests : List (Nat × Nat × Nat))
  | optHostDone (h : Hdr) (parcel attempt step : Nat)
  | capsuleSeal (h : Hdr) (first count : Nat) (recips : List (List Byte)) (x : DRef)
  | capsuleOpen (h : Hdr) (x : DRef)
  | telemRead (h : Hdr) (unit : Nat) (x : DRef)
  | ledgerRead (h : Hdr) (first count flags : Nat) (x : DRef)
  | meterRead (h : Hdr)
  | powerPolicy (h : Hdr) (cap share : Nat)
  | clockSet (h : Hdr) (mmin flags : Nat)
  | patternLoad (h : Hdr) (slot : Nat) (x : DRef)
  | testRun (h : Hdr) (unit slot corner : Nat) (x : DRef)
  | testAbort (h : Hdr) (unit : Nat)
  | testUnitDone (unit : Nat) (t : TestFinds)
  | testTimeLimit (unit : Nat)
  | logRead (h : Hdr) (first count : Nat) (x : DRef)
  | logStatus (h : Hdr)
  | traceConfig (h : Hdr) (unit flags start stop : Nat) (x : DRef)
  | traceWindowEnd (unit : Nat)
  | attest (h : Hdr) (nonce : List Byte) (x : DRef)
  | officerEnrol (h : Hdr) (slot : Nat) (key : List Byte) (blks : List SigBlk)
  | officerRetire (h : Hdr) (slot : Nat) (blks : List SigBlk)
  | certRead (h : Hdr) (x : DRef)
  | reset (h : Hdr) (level unit : Nat)
  | regionMapRead (h : Hdr) (x : DRef)
  | rimConfig (h : Hdr) (mask which rg rd : Nat)
  | beatMode (h : Hdr) (mode flags delay : Nat)
  | fwStage (h : Hdr) (x : DRef)
  | defectMapRead (h : Hdr) (x : DRef)
  | tileReset (tile : Nat)
  | clusterReset (region cluster : Nat)
  | partitionReset (ctx : Nat)
  | moduleWarmReset (b : BootFinds)
  | coldBoot (b : BootFinds)
  | keeperWatchdog (checkpoint pc lastFeed : Nat)
  | computeDomainOn (region : Nat)
  | governorBeat (ins : List (Nat × Nat)) (cyc : Nat)
  | inputOverpower
  | aggregationWindowEnd
  | regionSensorSample (region : Nat) (smp : Sample) (droops : List Nat)
  | heatHigh (region : Nat)
  | heatOffRecovery (region : Nat)
  | stackSensorSample (sc : Nat) (temp : Int)
  | coolantSample (inlet outlet : Int) (flow : Nat)
  | coolantWaitTimeout (inlet : Int) (flow : Nat)
  | repetition (idx : Nat) (r : Repeat)
  | rcFault (region : Nat) (resetOk : Bool)
  | rcSilent (region : Nat) (resetOk : Bool)
  | logRateWindowEnd
  | powerFailCapture
  | mgmtSessionOpen (id : Nat) (key : List Byte)
  | modRstNRelease (ns : Nat)
  | pxSenseBreak (conn : Nat)
  | inputValid (i v : Nat)
  | inputOvervoltage (i v : Nat)
  | inputReclose (i v : Nat)
  | inputOvercurrent (i amps held : Nat)
  | smbusReadIdentity
  | smbusReadStatus
  | smbusResetArm (v : Nat)
  | smbusResetArmExpiry
  | smbusResetConfirm (v : Nat)
  | smbusSetIpv4 (v : List Byte)
  | smbusWriteSbCfg (v : Nat)
  | smbusAlertResponse (sa1 sa0 : Bool)
  | smbusLogIndices
  | smbusLogSelect (v : Nat)
  | smbusLogReadLow
  | smbusLogReadHigh
  | inputLost (i v : Nat)
  | transitSupplyLoss (region : Nat)
  | aux12vChange (present : Bool)
  | linkAckSend (n : Nat)
  | linkNarrowingComplete (n : Nat)
  | mgmtPortLinkUp
  deriving DecidableEq, Repr

end Sys2Proof
end

