-- ==== Sys2Proof/Machine/State.lean ====
section
/-! DEFINITION. The state of the module: every register, buffer, table, queue and pin the spec gives it, as plain data; the reasons a step can
stop; and the module as State.reset leaves it. -/

namespace Sys2Proof.Machine

/-- The machine. -/
structure State where
  /-- The commands that wait, first in first out. -/
  pending : List Instr := []
  clk : Clock := {}
  regions : Tab Region := []
  tiles : Tab Tile := []
  routers : Tab Router := []
  hubs : Tab Hub := []
  /-- Flits on their way (R169) and Waggle packets on their way (R187). -/
  fly : List Fly := []
  waggle : List WPkt := []
  /-- The next sequence number of each Waggle sender, by unit ID (R187). -/
  wgSeq : Tab Nat := []
  scs : Tab Sc := []
  links : Tab Link := []
  pod : Pod := {}
  ctxs : Tab Ctx := []
  ha : Ha := {}
  gov : Gov := {}
  pwr : Pwr := {}
  log : Log := {}
  tr : Trust := {}
  /-- Long-running commands without their final reply (R308) and the number the next one takes. -/
  long : List Long := []
  nextId : Nat := 0
  /-- The last TELEMETRY payload of each region controller (by region), stack controller (80 on) and rim side (104 on), as 16 words (R386). -/
  tele : Tab (List Nat) := []
  binds : List BindOrd := []
  resets : List RstOrd := []
  /-- Host memory as the module reaches it over the host link (R298). -/
  hostMem : Mem := []
  /-- The model's own: the number of the next free value (entry 1). -/
  free : Nat := 0
  deriving DecidableEq, Repr

/-- Why a step stops with a fault. -/
inductive Fault where
  /-- The command names a unit, table or index beyond what the spec numbers (R6, R7): raised by every meaning through `Instr.wf`. Safe:
  no hardware can be given such a command. -/
  | noSuchUnit (command : String)
  deriving DecidableEq, Repr

/-- Why a step has no meaning for a command. -/
inductive Refusal where
  /-- The command has no meaning yet: raised by Dispatch alone. Safe: nothing is claimed about it. -/
  | notModelled (mnemonic : String)
  /-- An operand does not fit the field that carries it (`Instr.wf`): raised by every meaning. Safe: no hardware can be given such a
  command. -/
  | illFormed (command : String)
  deriving DecidableEq, Repr

/-- The outcome of a step. -/
abbrev Out := Host.Outcome State Fault Refusal

/-- Context 0 as R323 gives its record: granted everything, open. -/
def Ctx.system : Ctx :=
  { w0 := 0x8FF0000000000000#64
    w1 := 0xFFFFFFFFFFFFFFFF#64
    w2 := 0xFFFFFFFFFC010000#64
    w3 := 0xFFFFFFFFFFFFFFFF#64
    st := .opened }

/-- The module as it stands before its first cold boot: unpowered but for the standby domain, flash and log empty, every register at its
reset value. COLD_BOOT is the command that brings it up (entry 15). -/
def State.reset : State := { ctxs := [(0, Ctx.system)] }

end Sys2Proof.Machine
end

