-- ==== Sys2Proof/WellFormed.lean ====
section
/-! DEFINITION. When a command is well formed: every operand fits the field that carries it (`Instr.wf`), and every part it names is one the
spec numbers (`Instr.units`, R5 to R7, R20, R197). What a field may legally hold is judged by the command's meaning. -/

namespace Sys2Proof

open Sys2Proof.Machine

/-- A tile instruction's header: 16-bit TAG, flags 0 to 31, a cycle of the beat, counts for the five scratchpad masters. -/
def hdrFits (h : IHdr) : Bool :=
  decide (h.tag < 65536) && decide (h.cyc < 4096) && h.wf.all (fun f => decide (f < 32)) && h.sfl.all (fun f => decide (f < 32)) &&
    decide (h.conf.length ≤ 5)
/-- A packet header's fields (R306). -/
def packetFits (h : Hdr) : Bool :=
  decide (h.cyc < 4096) && decide (h.flags < 256) && decide (h.len < 256) && decide (h.ctx < 65536) && decide (h.seq < 65536) &&
    decide (h.tag < 2 ^ 32) && (match h.src with | .ring c => decide (c < 1024) | .mgmt _ => true)
/-- A data reference's fields (R344). -/
def refFits (x : DRef) : Bool := decide (x.dext < 65536) && decide (x.doff < 2 ^ 48) && decide (x.dlen < 2 ^ 32)
/-- A fabric packet's header fields (R283). -/
def fabricFits (f : FHdr) : Bool :=
  decide (f.vc < 4) && decide (f.lseq < 65536) && decide (f.len < 65536) && decide (f.ctx < 1024) && decide (f.spos < 256) &&
    decide (f.dpos < 256)
/-- The rim side's home region controller for a rim unit, the region itself for a region resource (R32, R334); 80 where there is none. -/
def unitHome (u : Nat) : Nat :=
  let cls := bits u 31 24
  let sub := bits u 10 0
  let side := fun (n : Nat) => if n = 0 then 74 else if n = 1 then 39 else if n = 2 then 4 else 30
  if 1 ≤ cls ∧ cls ≤ 6 then (if bits u 23 17 < 80 then bits u 23 17 else 80)
  else if cls = 0x10 ∨ cls = 0x11 then (if sub < 24 then side (sub / 6) else 80)
  else if cls = 0x12 then (if sub < 64 then side (sub / 16) else 80)
  else if cls = 0x13 then 74
  else 80
/-- The home region controller of a lease's resource (R334). -/
def leaseHome (l : Lease) : Nat := unitHome l.res

/-- Every operand fits its field. -/
def Instr.wf : Instr → Bool
  | .beatBoundary => true
  | .siteRemap _ _ => true
  | .boundarySlip _ _ cyc => decide (cyc < 4096)
  | .stretchOrder m _ cyc => decide (m < 256) && decide (cyc < 4096)
  | .holdRequest ctx _ cyc => decide (ctx < 1024) && decide (cyc < 4096)
  | .holdDecision _ => true
  | .holdTimeout _ => true
  | .ptpAnchor _ _ => true
  | .beatInLost => true
  | .beatEpoch f _ => fabricFits f
  | .mcf h gang sati => hdrFits h && TI.fits (.mcf gang sati)
  | .mld h f => hdrFits h && TI.fits (.mld f)
  | .msw h => hdrFits h && TI.fits (.msw)
  | .mst h f u => hdrFits h && TI.fits (.mst f u)
  | .mdr h f => hdrFits h && TI.fits (.mdr f)
  | .cvl h setting pb ag word => hdrFits h && TI.fits (.cvl setting pb ag word)
  | .vcl h slot ag => hdrFits h && TI.fits (.vcl slot ag)
  | .vrn h slot ovl => hdrFits h && TI.fits (.vrn slot ovl)
  | .vsl h f => hdrFits h && TI.fits (.vsl f)
  | .vsm h mask => hdrFits h && TI.fits (.vsm mask)
  | .vrs h bank n ag => hdrFits h && TI.fits (.vrs bank n ag)
  | .vrl h bank n ag => hdrFits h && TI.fits (.vrl bank n ag)
  | .nop h cyc => hdrFits h && TI.fits (.nop cyc)
  | .wcy h offset => hdrFits h && TI.fits (.wcy offset)
  | .loop h f => hdrFits h && TI.fits (.loop f)
  | .call h routine => hdrFits h && TI.fits (.call routine)
  | .ret h => hdrFits h && TI.fits (.ret)
  | .swp h => hdrFits h && TI.fits (.swp)
  | .endI h => hdrFits h && TI.fits (.endI)
  | .ags h f => hdrFits h && TI.fits (.ags f)
  | .agi h f => hdrFits h && TI.fits (.agi f)
  | .srd h reg ag => hdrFits h && TI.fits (.srd reg ag)
  | .swr h reg v => hdrFits h && TI.fits (.swr reg v)
  | .get h ch ag flits => hdrFits h && TI.fits (.get ch ag flits)
  | .put h ch ag flits => hdrFits h && TI.fits (.put ch ag flits)
  | .gth h f => hdrFits h && TI.fits (.gth f)
  | .sct h f => hdrFits h && TI.fits (.sct f)
  | .pgl h ch offset flits fin => hdrFits h && TI.fits (.pgl ch offset flits fin)
  | .pageSwap _ => true
  | .swapTimeout _ cyc => decide (cyc < 4096)
  | .crossWait _ => true
  | .streamStall _ _ cyc => decide (cyc < 4096)
  | .planStart _ => true
  | .planEnd _ cyc => decide (cyc < 4096)
  | .spPatrol _ => true
  | .spCorrectionWriteback _ _ => true
  | .routerSlot _ _ cyc => decide (cyc < 4096)
  | .beatOrder _ _ cyc => decide (cyc < 4096)
  | .beatOrderLost _ _ => true
  | .routeSwitch _ => true
  | .waggleResend _ _ => true
  | .fenceOrder _ _ _ => true
  | .faultReport _ _ _ => true
  | .telemetry _ => true
  | .spRead _ _ addr => decide (addr < 2 ^ 32)
  | .spWrite _ _ addr _ => decide (addr < 2 ^ 32)
  | .spReply _ _ => true
  | .regRead _ _ reg => decide (reg < 2 ^ 16)
  | .regWrite _ _ reg _ => decide (reg < 2 ^ 16)
  | .regReply _ _ => true
  | .shortMsg _ seq words => decide (seq < 128) && decide (words.length ≤ 16) && words.all (fun w => decide (w < 2 ^ 32))
  | .leaseGrant _ _ => true
  | .leaseRenew _ _ => true
  | .leaseRelease _ => true
  | .leaseReclaim _ => true
  | .leaseExpired _ => true
  | .regulatorGrant _ => true
  | .streamForecast _ _ => true
  | .edgePortSlot _ _ cyc _ => decide (cyc < 4096)
  | .streamDeadline _ _ => true
  | .stackPatrol _ => true
  | .reduceDeadline _ _ => true
  | .reductionForecast _ _ => true
  | .gradEgressSend _ _ _ => true
  | .ownerBufferOpen _ _ => true
  | .gradBlock f step attempt _ b => decide (step < 2 ^ 32) && decide (attempt < 256) && decide (b.parcel < 2 ^ 24) && decide (b.block < 256) && decide (b.sat ≤ 256) && decide (b.elems.length = 256) && fabricFits f
  | .gradClose f parcel step attempt _ _ rows => decide (parcel < 2 ^ 24) && decide (step < 2 ^ 32) && decide (attempt < 256) && decide (rows < 2 ^ 24) && fabricFits f
  | .parcelCredit f step attempt sc ordinal => decide (step < 2 ^ 32) && decide (attempt < 256) && decide (sc < 256) && decide (ordinal < 2 ^ 32) && fabricFits f
  | .ripenerUpdate _ _ _ => true
  | .mirror f p _ => decide (p.parcel < 2 ^ 24) && decide (p.step < 2 ^ 32) && decide (p.attempt < 256) && decide (p.wnext < 256) && fabricFits f
  | .mirrorAck f parcel step attempt status => decide (parcel < 2 ^ 24) && decide (step < 2 ^ 32) && decide (attempt < 256) && decide (status < 256) && fabricFits f
  | .mirrorTimeout _ _ => true
  | .allgather f p _ => decide (p.parcel < 2 ^ 24) && decide (p.step < 2 ^ 32) && decide (p.attempt < 256) && decide (p.wnext < 256) && fabricFits f
  | .hostUpdateTimeout _ _ => true
  | .capsule f _ _ _ _ => fabricFits f
  | .capsuleAck f _ _ _ => fabricFits f
  | .link _ ack _ credits _ => decide (ack < 65536) && decide (credits.length = 4)
  | .linkRetrainInService _ _ => true
  | .linkRetrainComplete _ _ => true
  | .fabricCreditStall _ _ => true
  | .hello _ pod pos plink _ => decide (pod < 65536) && decide (pos < 256) && decide (plink < 256)
  | .stepStartMessage f step attempt _ _ => decide (step < 2 ^ 32) && decide (attempt < 256) && fabricFits f
  | .stepSyncTimeout _ => true
  | .norm f _ _ => fabricFits f
  | .headroom f _ _ _ => fabricFits f
  | .headroomSend cyc => decide (cyc < 4096)
  | .podAllowanceHoldEnd => true
  | .headroomTimeout _ => true
  | .restoreRequest f pos mask => decide (pos < 256) && decide (mask < 256) && fabricFits f
  | .restoreDone f _ _ _ _ attempt _ _ counts => decide (attempt < 256) && decide (counts.length = 64) && fabricFits f
  | .moduleLost _ => true
  | .systemRingStart cprod qcons _ => decide (cprod < 2 ^ 32) && decide (qcons < 2 ^ 32)
  | .systemRingStop => true
  | .systemRingStopDone => true
  | .registerWrite off len value => decide (off < 65536) && decide (len ≤ 8) && decide (value < 2 ^ 64)
  | .headLineSnoop _ cyc cprod qcons _ _ => decide (cprod < 2 ^ 32) && decide (qcons < 2 ^ 32) && decide (cyc < 4096)
  | .headLineReread _ cyc cprod qcons _ _ => decide (cprod < 2 ^ 32) && decide (qcons < 2 ^ 32) && decide (cyc < 4096)
  | .farPageRequestRepost _ _ _ => true
  | .msixUnmask _ => true
  | .hdmDecoderCommit _ => true
  | .windowRead addr => decide (addr < 2 ^ 41)
  | .windowWrite addr enable data => decide (addr < 2 ^ 41) && decide (enable < 2 ^ 64) && decide (data.length = 64)
  | .hostLinkReset => true
  | .ctxOpen h _ => packetFits h
  | .ctxClose h => packetFits h
  | .ctxFence h gen b => packetFits h && decide (gen < 2 ^ 32) && decide (b.sig.length = 96)
  | .ctxRead h first count x => packetFits h && decide (first < 2 ^ 16) && decide (count < 2 ^ 16) && refFits x
  | .regionBind h region flags => packetFits h && decide (region < 2 ^ 8) && decide (flags < 2 ^ 8)
  | .extentCreate h sc kind flags pages pair => packetFits h && decide (sc < 2 ^ 8) && decide (kind < 2 ^ 8) && decide (flags < 2 ^ 8) && decide (pages < 2 ^ 16) && decide (pair < 2 ^ 16)
  | .extentBind h ext flags => packetFits h && decide (ext < 2 ^ 16) && decide (flags < 2 ^ 8)
  | .slotBind h stream flags => packetFits h && decide (stream < 2 ^ 16) && decide (flags < 2 ^ 8)
  | .groupBind h blk flags => packetFits h && decide (blk < 2 ^ 8) && decide (flags < 2 ^ 8)
  | .bindingEffect _ _ => true
  | .protChange h ctx gen _ _ _ _ blks => packetFits h && decide (ctx < 2 ^ 16) && decide (gen < 2 ^ 32) && blks.all (fun b => decide (b.slot < 256) && decide (b.sig.length = 96))
  | .pageMapFar h ext page flags addr => packetFits h && decide (ext < 2 ^ 16) && decide (page < 2 ^ 16) && decide (flags < 2 ^ 8) && decide (addr < 2 ^ 64)
  | .pageRetire h ext page => packetFits h && decide (ext < 2 ^ 16) && decide (page < 2 ^ 16)
  | .extentCopy h src dst soff doff len => packetFits h && decide (src < 2 ^ 16) && decide (dst < 2 ^ 16) && decide (soff < 2 ^ 48) && decide (doff < 2 ^ 48) && decide (len < 2 ^ 32)
  | .streamArm h stream _ => packetFits h && decide (stream < 2 ^ 16)
  | .streamResume h stream => packetFits h && decide (stream < 2 ^ 16)
  | .streamAbort h stream => packetFits h && decide (stream < 2 ^ 16)
  | .streamStatus h first count x => packetFits h && decide (first < 2 ^ 16) && decide (count < 2 ^ 8) && refFits x
  | .spMapLoad h _ => packetFits h
  | .libLoad h x => packetFits h && refFits x
  | .planLoad h x => packetFits h && refFits x
  | .planFree h handle => packetFits h && decide (handle < 2 ^ 32)
  | .planRun h handle => packetFits h && decide (handle < 2 ^ 32)
  | .planAbort h => packetFits h
  | .stepStart h step seed tokens lr handle => packetFits h && decide (step < 2 ^ 32) && decide (seed < 2 ^ 64) && decide (tokens < 2 ^ 32) && decide (lr < 2 ^ 32) && decide (handle < 2 ^ 32)
  | .stepBegin _ => true
  | .stepComplete _ => true
  | .evalStart h handle tokens seed => packetFits h && decide (handle < 2 ^ 32) && decide (tokens < 2 ^ 32) && decide (seed < 2 ^ 64)
  | .stepStatus h => packetFits h
  | .fabricTopology h x => packetFits h && refFits x
  | .podConfig h x => packetFits h && refFits x
  | .linkWidth h n v => packetFits h && decide (n < 2 ^ 8) && decide (v < 2 ^ 8)
  | .linkRetrain h n => packetFits h && decide (n < 2 ^ 8)
  | .optConfig h flags hr sat down => packetFits h && decide (flags < 2 ^ 8) && decide (hr < 2 ^ 8) && decide (sat < 2 ^ 8) && decide (down < 2 ^ 8)
  | .optParcelMap h count x => packetFits h && decide (count < 2 ^ 32) && refFits x
  | .optScaleLoad h first tables count x => packetFits h && decide (first < 2 ^ 24) && decide (tables < 2 ^ 8) && decide (count < 2 ^ 32) && refFits x
  | .optGroup h group _ => packetFits h && decide (group < 2 ^ 8)
  | .optFreeze h count x => packetFits h && decide (count < 2 ^ 32) && refFits x
  | .optStateInit h first flags count x => packetFits h && decide (first < 2 ^ 24) && decide (flags < 2 ^ 8) && decide (count < 2 ^ 32) && refFits x
  | .optNorms h step x => packetFits h && decide (step < 2 ^ 32) && refFits x
  | .optAudit h first flags count _ => packetFits h && decide (first < 2 ^ 24) && decide (flags < 2 ^ 8) && decide (count < 2 ^ 32)
  | .optHostDone h parcel attempt step => packetFits h && decide (parcel < 2 ^ 24) && decide (attempt < 2 ^ 8) && decide (step < 2 ^ 32)
  | .capsuleSeal h first count recips x => packetFits h && decide (first < 2 ^ 24) && decide (count < 2 ^ 32) && refFits x && recips.all (fun r => decide (r.length = 48))
  | .capsuleOpen h x => packetFits h && refFits x
  | .telemRead h unit x => packetFits h && decide (unit < 2 ^ 32) && refFits x
  | .ledgerRead h first count flags x => packetFits h && decide (first < 2 ^ 32) && decide (count < 2 ^ 16) && decide (flags < 2 ^ 8) && refFits x
  | .meterRead h => packetFits h
  | .powerPolicy h cap share => packetFits h && decide (cap < 2 ^ 32) && decide (share < 2 ^ 32)
  | .clockSet h mmin flags => packetFits h && decide (mmin < 2 ^ 8) && decide (flags < 2 ^ 8)
  | .patternLoad h slot x => packetFits h && decide (slot < 2 ^ 8) && refFits x
  | .testRun h unit slot corner x => packetFits h && decide (unit < 2 ^ 32) && decide (slot < 2 ^ 8) && decide (corner < 2 ^ 8) && refFits x
  | .testAbort h unit => packetFits h && decide (unit < 2 ^ 32)
  | .testUnitDone _ _ => true
  | .testTimeLimit _ => true
  | .logRead h first count x => packetFits h && decide (first < 2 ^ 32) && decide (count < 2 ^ 32) && refFits x
  | .logStatus h => packetFits h
  | .traceConfig h unit flags start stop x => packetFits h && decide (unit < 2 ^ 32) && decide (flags < 2 ^ 8) && decide (start < 2 ^ 64) && decide (stop < 2 ^ 64) && refFits x
  | .traceWindowEnd _ => true
  | .attest h nonce x => packetFits h && refFits x && decide (nonce.length = 32)
  | .officerEnrol h slot key blks => packetFits h && decide (slot < 2 ^ 8) && blks.all (fun b => decide (b.slot < 256) && decide (b.sig.length = 96)) && decide (key.length = 128)
  | .officerRetire h slot blks => packetFits h && decide (slot < 2 ^ 8) && blks.all (fun b => decide (b.slot < 256) && decide (b.sig.length = 96))
  | .certRead h x => packetFits h && refFits x
  | .reset h level unit => packetFits h && decide (level < 2 ^ 8) && decide (unit < 2 ^ 32)
  | .regionMapRead h x => packetFits h && refFits x
  | .rimConfig h mask which rg rd => packetFits h && decide (mask < 2 ^ 24) && decide (which < 2 ^ 8) && decide (rg < 2 ^ 32) && decide (rd < 2 ^ 32)
  | .beatMode h mode flags delay => packetFits h && decide (mode < 2 ^ 8) && decide (flags < 2 ^ 8) && decide (delay < 2 ^ 16)
  | .fwStage h x => packetFits h && refFits x
  | .defectMapRead h x => packetFits h && refFits x
  | .tileReset _ => true
  | .clusterReset _ _ => true
  | .partitionReset _ => true
  | .moduleWarmReset _ => true
  | .coldBoot b => decide (b.links.length = 64)
  | .keeperWatchdog _ _ _ => true
  | .computeDomainOn _ => true
  | .governorBeat ins cyc => decide (ins.length = 6) && decide (cyc < 4096)
  | .inputOverpower => true
  | .aggregationWindowEnd => true
  | .regionSensorSample _ _ _ => true
  | .heatHigh _ => true
  | .heatOffRecovery _ => true
  | .stackSensorSample _ _ => true
  | .coolantSample _ _ _ => true
  | .coolantWaitTimeout _ _ => true
  | .repetition _ _ => true
  | .rcFault _ _ => true
  | .rcSilent _ _ => true
  | .logRateWindowEnd => true
  | .powerFailCapture => true
  | .mgmtSessionOpen _ key => decide (key.length = 97)
  | .modRstNRelease _ => true
  | .pxSenseBreak _ => true
  | .inputValid _ _ => true
  | .inputOvervoltage _ _ => true
  | .inputReclose _ _ => true
  | .inputOvercurrent _ _ _ => true
  | .smbusReadIdentity => true
  | .smbusReadStatus => true
  | .smbusResetArm v => decide (v < 256)
  | .smbusResetArmExpiry => true
  | .smbusResetConfirm v => decide (v < 256)
  | .smbusSetIpv4 v => decide (v.length = 12)
  | .smbusWriteSbCfg v => decide (v < 256)
  | .smbusAlertResponse _ _ => true
  | .smbusLogIndices => true
  | .smbusLogSelect v => decide (v < 2 ^ 32)
  | .smbusLogReadLow => true
  | .smbusLogReadHigh => true
  | .inputLost _ _ => true
  | .transitSupplyLoss _ => true
  | .aux12vChange _ => true
  | .linkAckSend _ => true
  | .linkNarrowingComplete _ => true
  | .mgmtPortLinkUp => true

/-- Every part named is one the spec numbers. -/
def Instr.units : Instr → Bool
  | .beatBoundary => true
  | .siteRemap region cluster => decide (region < 80) && decide (cluster < 4)
  | .boundarySlip rx tx _ => decide (rx < 80) && decide (tx < 80)
  | .stretchOrder _ _ _ => true
  | .holdRequest ctx _ _ => decide (ctx < 1024)
  | .holdDecision ctx => decide (ctx < 1024)
  | .holdTimeout ctx => decide (ctx < 1024)
  | .ptpAnchor _ _ => true
  | .beatInLost => true
  | .beatEpoch f _ => decide (f.link < 64)
  | .mcf h _ _ => decide (h.tile < 5120)
  | .mld h _ => decide (h.tile < 5120)
  | .msw h => decide (h.tile < 5120)
  | .mst h _ _ => decide (h.tile < 5120)
  | .mdr h _ => decide (h.tile < 5120)
  | .cvl h _ _ _ _ => decide (h.tile < 5120)
  | .vcl h _ _ => decide (h.tile < 5120)
  | .vrn h _ _ => decide (h.tile < 5120)
  | .vsl h _ => decide (h.tile < 5120)
  | .vsm h _ => decide (h.tile < 5120)
  | .vrs h _ _ _ => decide (h.tile < 5120)
  | .vrl h _ _ _ => decide (h.tile < 5120)
  | .nop h _ => decide (h.tile < 5120)
  | .wcy h _ => decide (h.tile < 5120)
  | .loop h _ => decide (h.tile < 5120)
  | .call h _ => decide (h.tile < 5120)
  | .ret h => decide (h.tile < 5120)
  | .swp h => decide (h.tile < 5120)
  | .endI h => decide (h.tile < 5120)
  | .ags h _ => decide (h.tile < 5120)
  | .agi h _ => decide (h.tile < 5120)
  | .srd h _ _ => decide (h.tile < 5120)
  | .swr h _ _ => decide (h.tile < 5120)
  | .get h _ _ _ => decide (h.tile < 5120)
  | .put h _ _ _ => decide (h.tile < 5120)
  | .gth h _ => decide (h.tile < 5120)
  | .sct h _ => decide (h.tile < 5120)
  | .pgl h _ _ _ _ => decide (h.tile < 5120)
  | .pageSwap tile => decide (tile < 5120)
  | .swapTimeout tile _ => decide (tile < 5120)
  | .crossWait tile => decide (tile < 5120)
  | .streamStall tile _ _ => decide (tile < 5120)
  | .planStart tile => decide (tile < 5120)
  | .planEnd tile _ => decide (tile < 5120)
  | .spPatrol tile => decide (tile < 5120)
  | .spCorrectionWriteback tile bank => decide (tile < 5120) && decide (bank < 24)
  | .routerSlot pos entry _ => decide (pos < 5120) && decide (entry < 1024)
  | .beatOrder _ ctx _ => decide (ctx < 1024)
  | .beatOrderLost _ ctx => decide (ctx < 1024)
  | .routeSwitch ctx => decide (ctx < 1024)
  | .waggleResend hub next => decide (hub < 80) && decide (next < 84 + 5120)
  | .fenceOrder _ _ ctx => decide (ctx < 1024)
  | .faultReport _ _ _ => true
  | .telemetry _ => true
  | .spRead tile _ _ => decide (tile < 5120)
  | .spWrite tile _ _ _ => decide (tile < 5120)
  | .spReply tile _ => decide (tile < 5120)
  | .regRead tile _ _ => decide (tile < 5120)
  | .regWrite tile _ _ _ => decide (tile < 5120)
  | .regReply tile _ => decide (tile < 5120)
  | .shortMsg tile _ _ => decide (tile < 5120)
  | .leaseGrant l _ => decide (leaseHome l < 80)
  | .leaseRenew l _ => decide (leaseHome l < 80)
  | .leaseRelease l => decide (leaseHome l < 80)
  | .leaseReclaim l => decide (leaseHome l < 80)
  | .leaseExpired l => decide (leaseHome l < 80)
  | .regulatorGrant sc => decide (sc < 24)
  | .streamForecast sc ctx => decide (sc < 24) && decide (ctx < 1024)
  | .edgePortSlot sc port _ _ => decide (sc < 24) && decide (port < 12)
  | .streamDeadline sc slot => decide (sc < 24) && decide (slot < 64)
  | .stackPatrol sc => decide (sc < 24)
  | .reduceDeadline sc _ => decide (sc < 24)
  | .reductionForecast sc ctx => decide (sc < 24) && decide (ctx < 1024)
  | .gradEgressSend sc ctx _ => decide (sc < 24) && decide (ctx < 1024)
  | .ownerBufferOpen sc ctx => decide (sc < 24) && decide (ctx < 1024)
  | .gradBlock f _ _ _ _ => decide (f.link < 64)
  | .gradClose f _ _ _ _ _ _ => decide (f.link < 64)
  | .parcelCredit f _ _ _ _ => decide (f.link < 64)
  | .ripenerUpdate sc ctx _ => decide (sc < 24) && decide (ctx < 1024)
  | .mirror f _ _ => decide (f.link < 64)
  | .mirrorAck f _ _ _ _ => decide (f.link < 64)
  | .mirrorTimeout ctx _ => decide (ctx < 1024)
  | .allgather f _ _ => decide (f.link < 64)
  | .hostUpdateTimeout ctx _ => decide (ctx < 1024)
  | .capsule f _ _ _ _ => decide (f.link < 64)
  | .capsuleAck f _ _ _ => decide (f.link < 64)
  | .link n _ _ _ _ => decide (n < 64)
  | .linkRetrainInService n _ => decide (n < 64)
  | .linkRetrainComplete n _ => decide (n < 64)
  | .fabricCreditStall n vc => decide (n < 64) && decide (vc < 4)
  | .hello n _ _ _ _ => decide (n < 64)
  | .stepStartMessage f _ _ _ _ => decide (f.link < 64)
  | .stepSyncTimeout ctx => decide (ctx < 1024)
  | .norm f _ _ => decide (f.link < 64)
  | .headroom f _ _ _ => decide (f.link < 64)
  | .headroomSend _ => true
  | .podAllowanceHoldEnd => true
  | .headroomTimeout pos => decide (pos < 65)
  | .restoreRequest f _ _ => decide (f.link < 64)
  | .restoreDone f _ _ _ _ _ _ _ _ => decide (f.link < 64)
  | .moduleLost pos => decide (pos < 65)
  | .systemRingStart _ _ _ => true
  | .systemRingStop => true
  | .systemRingStopDone => true
  | .registerWrite _ _ _ => true
  | .headLineSnoop ctx _ _ _ _ _ => decide (ctx < 1024)
  | .headLineReread ctx _ _ _ _ _ => decide (ctx < 1024)
  | .farPageRequestRepost ctx _ _ => decide (ctx < 1024)
  | .msixUnmask vec => decide (vec < 256)
  | .hdmDecoderCommit _ => true
  | .windowRead _ => true
  | .windowWrite _ _ _ => true
  | .hostLinkReset => true
  | .ctxOpen _ _ => true
  | .ctxClose _ => true
  | .ctxFence _ _ _ => true
  | .ctxRead _ _ _ _ => true
  | .regionBind _ _ _ => true
  | .extentCreate _ _ _ _ _ _ => true
  | .extentBind _ _ _ => true
  | .slotBind _ _ _ => true
  | .groupBind _ _ _ => true
  | .bindingEffect _ _ => true
  | .protChange _ _ _ _ _ _ _ _ => true
  | .pageMapFar _ _ _ _ _ => true
  | .pageRetire _ _ _ => true
  | .extentCopy _ _ _ _ _ _ => true
  | .streamArm _ _ _ => true
  | .streamResume _ _ => true
  | .streamAbort _ _ => true
  | .streamStatus _ _ _ _ => true
  | .spMapLoad _ _ => true
  | .libLoad _ _ => true
  | .planLoad _ _ => true
  | .planFree _ _ => true
  | .planRun _ _ => true
  | .planAbort _ => true
  | .stepStart _ _ _ _ _ _ => true
  | .stepBegin ctx => decide (ctx < 1024)
  | .stepComplete ctx => decide (ctx < 1024)
  | .evalStart _ _ _ _ => true
  | .stepStatus _ => true
  | .fabricTopology _ _ => true
  | .podConfig _ _ => true
  | .linkWidth _ _ _ => true
  | .linkRetrain _ _ => true
  | .optConfig _ _ _ _ _ => true
  | .optParcelMap _ _ _ => true
  | .optScaleLoad _ _ _ _ _ => true
  | .optGroup _ _ _ => true
  | .optFreeze _ _ _ => true
  | .optStateInit _ _ _ _ _ => true
  | .optNorms _ _ _ => true
  | .optAudit _ _ _ _ _ => true
  | .optHostDone _ _ _ _ => true
  | .capsuleSeal _ _ _ _ _ => true
  | .capsuleOpen _ _ => true
  | .telemRead _ _ _ => true
  | .ledgerRead _ _ _ _ _ => true
  | .meterRead _ => true
  | .powerPolicy _ _ _ => true
  | .clockSet _ _ _ => true
  | .patternLoad _ _ _ => true
  | .testRun _ _ _ _ _ => true
  | .testAbort _ _ => true
  | .testUnitDone _ _ => true
  | .testTimeLimit _ => true
  | .logRead _ _ _ _ => true
  | .logStatus _ => true
  | .traceConfig _ _ _ _ _ _ => true
  | .traceWindowEnd _ => true
  | .attest _ _ _ => true
  | .officerEnrol _ _ _ _ => true
  | .officerRetire _ _ _ => true
  | .certRead _ _ => true
  | .reset _ _ _ => true
  | .regionMapRead _ _ => true
  | .rimConfig _ _ _ _ _ => true
  | .beatMode _ _ _ _ => true
  | .fwStage _ _ => true
  | .defectMapRead _ _ => true
  | .tileReset tile => decide (tile < 5120)
  | .clusterReset region cluster => decide (region < 80) && decide (cluster < 4)
  | .partitionReset ctx => decide (ctx < 1024)
  | .moduleWarmReset _ => true
  | .coldBoot _ => true
  | .keeperWatchdog _ _ _ => true
  | .computeDomainOn region => decide (region < 80)
  | .governorBeat _ _ => true
  | .inputOverpower => true
  | .aggregationWindowEnd => true
  | .regionSensorSample region _ _ => decide (region < 80)
  | .heatHigh region => decide (region < 80)
  | .heatOffRecovery region => decide (region < 80)
  | .stackSensorSample sc _ => decide (sc < 24)
  | .coolantSample _ _ _ => true
  | .coolantWaitTimeout _ _ => true
  | .repetition _ _ => true
  | .rcFault region _ => decide (region < 80)
  | .rcSilent region _ => decide (region < 80)
  | .logRateWindowEnd => true
  | .powerFailCapture => true
  | .mgmtSessionOpen _ _ => true
  | .modRstNRelease _ => true
  | .pxSenseBreak conn => decide (conn < 2)
  | .inputValid i _ => decide (i < 6)
  | .inputOvervoltage i _ => decide (i < 6)
  | .inputReclose i _ => decide (i < 6)
  | .inputOvercurrent i _ _ => decide (i < 6)
  | .smbusReadIdentity => true
  | .smbusReadStatus => true
  | .smbusResetArm _ => true
  | .smbusResetArmExpiry => true
  | .smbusResetConfirm _ => true
  | .smbusSetIpv4 _ => true
  | .smbusWriteSbCfg _ => true
  | .smbusAlertResponse _ _ => true
  | .smbusLogIndices => true
  | .smbusLogSelect _ => true
  | .smbusLogReadLow => true
  | .smbusLogReadHigh => true
  | .inputLost i _ => decide (i < 6)
  | .transitSupplyLoss region => decide (region < 80)
  | .aux12vChange _ => true
  | .linkAckSend n => decide (n < 64)
  | .linkNarrowingComplete n => decide (n < 64)
  | .mgmtPortLinkUp => true

namespace Machine

/-- The frame of every meaning: an operand that fits no field is refused by name, a part that does not exist is a fault by name, and on every
other command the effect `f` gives the next state. -/
def guarded (name : String) (i : Instr) (s : State) (f : State → State) : Out :=
  if i.wf then (if i.units then .next (f s) else .fault (.noSuchUnit name)) else .refused (.illFormed name)

end Machine

end Sys2Proof
end

