-- ==== Sys2Proof/Machine/Ops.lean ====
section
/-! DEFINITION. The shared operations over the machine: unit IDs, access to the parts, stamps and Keeper time, partitions, Waggle packets, the
Afterglow log, completion rings and events. -/

namespace Sys2Proof.Machine

/-! Unit IDs (R6, R7, R43). -/

/-- A unit ID. -/
def uid (cls region cluster tile sub : Nat) : Nat := fld cls 8 24 + fld region 7 17 + fld cluster 2 15 + fld tile 4 11 + fld sub 11 0
/-- Tile number: 64*region + 16*cluster + tile. -/
def uidTile (t sub : Nat) : Nat := uid 1 (t / 64) (t / 16 % 4) (t % 16) sub
/-- Region controller. -/
def uidRc (r : Nat) : Nat := uid 6 r 0 0 0
/-- A region's transit domain, which names its hub (R193). -/
def uidTransit (r : Nat) : Nat := uid 5 r 0 0 0
/-- A region's compute domain. -/
def uidComp (r : Nat) : Nat := uid 4 r 0 0 0
/-- Cluster. -/
def uidCluster (r k : Nat) : Nat := uid 3 r k 0 0
/-- Physical site. -/
def uidSite (r k site : Nat) : Nat := uid 2 r k 0 site
/-- Stack controller. -/
def uidSc (n : Nat) : Nat := uid 0x10 0x7F 0 0 n
/-- Ripener. -/
def uidRip (n : Nat) : Nat := uid 0x11 0x7F 0 0 n
/-- Fabric link. -/
def uidLink (n : Nat) : Nat := uid 0x12 0x7F 0 0 n
/-- The Keeper. -/
def uidKeeper : Nat := uid 0x20 0x7F 0 0 0
/-- The class of a unit ID. -/
def uClass (u : Nat) : Nat := bits u 31 24
/-- Its region field. -/
def uRegion (u : Nat) : Nat := bits u 23 17
/-- Its cluster field. -/
def uCluster (u : Nat) : Nat := bits u 16 15
/-- Its tile number 64*region + 16*cluster + tile. -/
def uTile (u : Nat) : Nat := 64 * uRegion u + 16 * uCluster u + bits u 14 11
/-- Its SUB field. -/
def uSub (u : Nat) : Nat := bits u 10 0
/-- The engine numbers of a logical tile: the whole tile, matrix unit (R43), vector chain (R122), streams and plan banks (spec 05), scratchpad
and banks (R165), router, channels and Waggle agent (R193). -/
def engineOk (n : Nat) : Bool :=
  decide (n = 0) || (decide (0x010 ≤ n) && decide (n ≤ 0x014)) || decide (n = 0x018) || (decide (0x020 ≤ n) && decide (n ≤ 0x028)) ||
    decide (n = 0x02C) || (decide (0x030 ≤ n) && decide (n ≤ 0x032)) || (decide (0x040 ≤ n) && decide (n ≤ 0x058)) ||
    (decide (0x060 ≤ n) && decide (n ≤ 0x071))
/-- A unit ID names a unit (R7). -/
def uidOk (u : Nat) : Bool :=
  let c := uClass u
  let rest := bits u 16 11
  if c = 1 then decide (uRegion u < 80) && engineOk (uSub u)
  else if c = 2 then decide (uRegion u < 80) && decide (bits u 14 11 = 0) && decide (uSub u < 20)
  else if c = 3 then decide (uRegion u < 80) && decide (bits u 14 11 = 0) && decide (uSub u = 0)
  else if 4 ≤ c ∧ c ≤ 6 then decide (uRegion u < 80) && decide (rest = 0) && decide (uSub u = 0)
  else decide (uRegion u = 0x7F) && decide (rest = 0) &&
    (if c = 0x10 ∨ c = 0x11 then decide (uSub u < 24) else if c = 0x12 then decide (uSub u < 64)
     else ([0x13, 0x20, 0x21, 0x22].contains c) && decide (uSub u = 0))

/-! The parts. -/

/-- Region r. -/
def State.region (s : State) (r : Nat) : Region := s.regions.get {} r
/-- Change region r. -/
def State.onRegion (s : State) (r : Nat) (f : Region → Region) : State := { s with regions := s.regions.upd {} r f }
/-- Tile t. -/
def State.tile (s : State) (t : Nat) : Tile := s.tiles.get {} t
/-- Replace tile t. -/
def State.setTile (s : State) (t : Nat) (x : Tile) : State := { s with tiles := s.tiles.set {} t x }
/-- Change tile t. -/
def State.onTile (s : State) (t : Nat) (f : Tile → Tile) : State := s.setTile t (f (s.tile t))
/-- Router t. -/
def State.router (s : State) (t : Nat) : Router := s.routers.get {} t
/-- Change router t. -/
def State.onRouter (s : State) (t : Nat) (f : Router → Router) : State := { s with routers := s.routers.upd {} t f }
/-- Change hub r. -/
def State.onHub (s : State) (r : Nat) (f : Hub → Hub) : State := { s with hubs := s.hubs.upd {} r f }
/-- Stack controller n. -/
def State.sc (s : State) (n : Nat) : Sc := s.scs.get {} n
/-- Change stack controller n. -/
def State.onSc (s : State) (n : Nat) (f : Sc → Sc) : State := { s with scs := s.scs.upd {} n f }
/-- Link n. -/
def State.link (s : State) (n : Nat) : Link := s.links.get {} n
/-- Change link n. -/
def State.onLink (s : State) (n : Nat) (f : Link → Link) : State := { s with links := s.links.upd {} n f }
/-- Context c. -/
def State.ctx (s : State) (c : Nat) : Ctx := s.ctxs.get {} c
/-- Change context c. -/
def State.onCtx (s : State) (c : Nat) (f : Ctx → Ctx) : State := { s with ctxs := s.ctxs.upd {} c f }
/-- Change the partition of context c. -/
def State.onPart (s : State) (c : Nat) (f : Part → Part) : State := s.onCtx c (fun x => { x with part := f x.part })
/-- Change the ring of context c. -/
def State.onRing (s : State) (c : Nat) (f : Ring → Ring) : State := s.onCtx c (fun x => { x with ring := f x.ring })
/-- Draw the next free number (entry 1). -/
def State.drawFree (s : State) : Nat × State := (s.free, { s with free := s.free + 1 })

/-! Stamps and Keeper time (R8, R22, R32). -/

/-- The beat-stamp at a cycle of the current beat. -/
def State.stamp (s : State) (cyc : Nat) : Nat := s.clk.beat * 4096 + cyc
/-- The Keeper's beat-stamp now: the last cycle a command named in the beat. -/
def State.now (s : State) : Nat := s.stamp s.clk.cycle
/-- Note the cycle a command names; offsets of one beat do not run backwards. -/
def State.at (s : State) (cyc : Nat) : State := { s with clk := { s.clk with cycle := max s.clk.cycle cyc } }
/-- Milliseconds in thirds of a nanosecond. -/
def thirds (ms : Nat) : Nat := ms * 3000000

/-! Partitions (R26, R321). -/

/-- All regions. -/
def allRegions : List Nat := List.range 80
/-- The regions bound to a context: its partition. -/
def State.bound (s : State) (c : Nat) : List Nat := allRegions.filter (fun r => (s.region r).ctx = c)
/-- The region whose controller leads the partition. -/
def State.lead (s : State) (c : Nat) : Option Nat := (s.bound c).head?
/-- The context a region's compute serves (R321, R387): its bound context while active, the context of the region in PEER while hosting, 0
else. -/
def State.serves (s : State) (r : Nat) : Nat :=
  let g := s.region r
  if g.st = .hosting then (s.region g.peer).ctx else if g.st = .active then g.ctx else 0
/-- The regions whose compute serves a context. -/
def State.working (s : State) (c : Nat) : List Nat := allRegions.filter (fun r => s.serves r = c)
/-- The context a tile serves: its PTAG (R179). -/
def State.ptag (s : State) (t : Nat) : Nat := s.serves (t / 64)
/-- The tiles of a list of regions. -/
def tilesOf (rs : List Nat) : List Nat := rs.flatMap (fun r => (List.range 64).map (64 * r + ·))
/-- Change every tile of the regions in `rs`; tiles not listed are at their reset value, which `f` sees too. -/
def State.onTiles (s : State) (rs : List Nat) (f : Tile → Tile) : State :=
  { s with tiles := (tilesOf rs).foldl (fun ts t => ts.upd {} t f) s.tiles }
/-- A context is a user context that causes holds (R405). -/
def isUser (c : Nat) : Bool := decide (0 < c)

/-- The region whose work a region does: of a hosting region, the one it hosts for. -/
def workOf (g : Region) (r : Nat) : Nat := if g.st = .hosting then g.peer else r
/-- A region is in transit-lost state, or enters it at the next boundary (R14, R421). -/
def Region.gone (g : Region) : Bool := decide (g.st = .transitLost) || decide (g.next.map Prod.fst = some .transitLost)
/-- A region's state and PEER from the next boundary (R14); nothing takes a region out of the loss of its transit domain (R421). -/
def Region.goTo (g : Region) (st : RState) (peer : Nat) : Region := if g.gone then g else { g with next := some (st, peer) }

/-! Places (R5, R11, R20). -/

/-- X of tile t. -/
def tileX (t : Nat) : Nat := 8 * (t / 64 % 10) + 4 * (t / 16 % 2) + t % 4
/-- Y of tile t. -/
def tileY (t : Nat) : Nat := 8 * (t / 640) + 4 * (t / 32 % 2) + t % 16 / 4
/-- The tile at X, Y. -/
def tileAt (x y : Nat) : Nat := 64 * (x / 8 + 10 * (y / 8)) + 16 * (x / 4 % 2 + 2 * (y / 4 % 2)) + x % 4 + 4 * (y % 4)
/-- The tile next to t in direction 0 N, 1 E, 2 S, 3 W; none off the grid. -/
def tileNext (t d : Nat) : Option Nat :=
  let x := tileX t
  let y := tileY t
  if d = 0 then (if y = 63 then none else some (tileAt x (y + 1)))
  else if d = 1 then (if x = 79 then none else some (tileAt (x + 1) y))
  else if d = 2 then (if y = 0 then none else some (tileAt x (y - 1)))
  else (if x = 0 then none else some (tileAt (x - 1) y))
/-- The edge port at a tile's side that faces off the grid (R20). -/
def edgeAt (t d : Nat) : Nat :=
  if d = 0 then tileX t else if d = 1 then 80 + (63 - tileY t) else if d = 2 then 144 + (79 - tileX t) else 224 + tileY t
/-- The tile and side of edge port p. -/
def edgeTile (p : Nat) : Nat × Nat :=
  if p < 80 then (tileAt p 63, 0) else if p < 144 then (tileAt 79 (63 - (p - 80)), 1)
  else if p < 224 then (tileAt (79 - (p - 144)) 0, 2) else (tileAt 0 (p - 224), 3)
/-- The good site rows of a column of a cluster, northernmost first (R11); `bad` lists 20*cluster + site. -/
def goodRows (bad : List Nat) (k col : Nat) : List Nat := [4, 3, 2, 1, 0].filter (fun r => !bad.contains (20 * k + 4 * r + col))
/-- The site of tile t of cluster k, none when it is shadowed (R11). -/
def siteOf (bad : List Nat) (k t : Nat) : Option Nat := ((goodRows bad k (t % 4))[3 - t % 16 / 4]?).map (fun r => 4 * r + t % 4)
/-- A cluster holds a shadowed logical tile (R13). -/
def shadowedIn (bad : List Nat) (k : Nat) : Bool := (List.range 16).any (fun t => (siteOf bad k t).isNone)
/-- The REMAP field of a region map entry (R15). -/
def remapField (bad : List Nat) : Nat :=
  (List.range 16).foldl (fun a i =>
    let k := i / 4
    let c := i % 4
    let lost := [0, 1, 2, 3, 4].filter (fun r => bad.contains (20 * k + 4 * r + c))
    a + fld (match lost with | [] => 5 | [r] => r | _ => 6) 3 (12 * k + 3 * c)) 0

/-! Waggle packets (R187, R189). -/

/-- Class of a message (*Waggle message types*). -/
def WMsg.cls : WMsg → Nat
  | .fault _ => 0
  | .fence _ _ _ => 0
  | .hold _ _ _ => 1
  | .order _ => 1
  | .stretch _ _ => 1
  | .planStart _ _ _ _ => 1
  | .planEnd _ _ => 1
  | .routeSwitch _ _ _ _ => 1
  | .lease _ _ _ => 2
  | .reclaim _ => 2
  | .release _ => 2
  | .telemetry _ _ => 3
  | .spReply _ _ => 3
  | .regReply _ _ => 3
/-- Payload flits of a message (*Waggle message types*). -/
def WMsg.len : WMsg → Nat
  | .fence _ _ _ => 1
  | .fault _ => 5
  | .lease _ _ _ => 4
  | .reclaim _ => 4
  | .release _ => 4
  | .telemetry _ _ => 16
  | .spReply _ _ => 9
  | .regReply _ _ => 3
  | _ => 2
/-- The context a message concerns, its PTAG (R187). -/
def WMsg.ptag : WMsg → Nat
  | .hold c _ _ => c
  | .fault r => r.ctx
  | .fence _ _ c => c
  | .order o => o.ctx
  | .lease l _ _ => l.ctx
  | .reclaim l => l.ctx
  | .release l => l.ctx
  | .routeSwitch c _ _ _ => c
  | _ => 0
/-- TYPE of a message; a lease message that asks reads as LEASE_GRANT (R335). -/
def WMsg.typ : WMsg → Nat
  | .fence _ _ _ => 0x01
  | .fault _ => 0x02
  | .hold _ _ _ => 0x10
  | .order _ => 0x11
  | .stretch _ _ => 0x12
  | .planStart _ _ _ _ => 0x13
  | .planEnd _ _ => 0x14
  | .routeSwitch _ _ _ _ => 0x15
  | .lease _ _ _ => 0x20
  | .release _ => 0x22
  | .reclaim _ => 0x23
  | .telemetry _ _ => 0x30
  | .spReply _ _ => 0x33
  | .regReply _ _ => 0x36
/-- The three header flits of a packet (R187). -/
def WPkt.header (p : WPkt) : List Nat :=
  [fld p.msg.typ 8 24 + fld p.msg.cls 2 22 + fld p.msg.len 5 17 + fld p.seq 7 10 + fld p.msg.ptag 10 0, p.dst, p.src]
/-- The two hubs a rim gateway is attached to: north, east, south, west (R186). -/
def gateHubs (side : Nat) : List Nat := if side = 0 then [74, 75] else if side = 1 then [39, 49] else if side = 2 then [4, 5] else [30, 40]
/-- The number that names a gateway among a hub's neighbours: 80 to 83. -/
def gateNode (side : Nat) : Nat := 80 + side
/-- The number that names a tile's Waggle agent among its hub's neighbours: 84 on. -/
def agentNode (t : Nat) : Nat := 84 + t
/-- Where a unit's packets enter the grid: pairs of the neighbour whose link they cross and the hub behind it; a hub's own region units have no
link between (R186). Rim units use their side's gateway; the Keeper may use any of the four, taken north, east, south, west (entry 50). -/
def accessOf (u : Nat) : List (Nat × Nat) :=
  let gate (side : Nat) : List (Nat × Nat) := (gateHubs side).map (fun h => (gateNode side, h))
  if uClass u = 1 then [(agentNode (uTile u), uRegion u % 80)]
  else if uClass u ≤ 6 then [(uRegion u % 80, uRegion u % 80)]
  else if uClass u = 0x10 ∨ uClass u = 0x11 then gate (uSub u / 6)
  else if uClass u = 0x12 then gate (uSub u / 16)
  else (List.range 4).flatMap gate
/-- One hop from hub a towards b along X, or along Y. -/
def hopX (a b : Nat) : Nat := if a % 10 < b % 10 then a + 1 else if b % 10 < a % 10 then a - 1 else a
/-- One hop from hub a towards b along Y. -/
def hopY (a b : Nat) : Nat := if a / 10 < b / 10 then a + 10 else if b / 10 < a / 10 then a - 10 else a
/-- The hubs of a route from a to b, X first or Y first (R188). -/
def hubPath (xFirst : Bool) (b : Nat) : Nat → Nat → List Nat
  | _, 0 => []
  | a, n + 1 =>
    if a = b then [a]
    else
      let h := if xFirst then hopX a b else hopY a b
      a :: hubPath xFirst b (if h = a then (if xFirst then hopY a b else hopX a b) else h) n
/-- A route meets no hub in transit-lost state and no link that is down. -/
def State.pathOk (s : State) (p : List Nat) : Bool :=
  p.all (fun h => decide ((s.region h).st ≠ .transitLost)) && (p.zip (p.drop 1)).all (fun e => !(s.hubs.get {} e.1).down.contains e.2)
/-- The link between a hub and a neighbour is up. -/
def State.linkUp (s : State) (hub next : Nat) : Bool := !(s.hubs.get {} hub).down.contains next
/-- The route a packet takes between two hubs: X first, else Y first (R188). -/
def State.hubRoute (s : State) (a b : Nat) : Option (List Nat) :=
  let x := hubPath true b a 20
  let y := hubPath false b a 20
  if s.pathOk x then some x else if s.pathOk y then some y else none
/-- The route from unit to unit: the first of the ways in and out that is open (R186, R188). -/
def State.waggleRoute (s : State) (src dst : Nat) : Option (List Nat) :=
  ((accessOf src).flatMap (fun a => (accessOf dst).map (fun b => (a, b)))).findSome? (fun p =>
    if s.linkUp p.1.2 p.1.1 && s.linkUp p.2.2 p.2.1 then s.hubRoute p.1.2 p.2.2 else none)
/-- A packet crosses the network: every hub of its route counts it. One that no route takes to its destination is discarded and counted, and
marks the destination's region (R188); the flag says that it arrives. -/
def State.carry (s : State) (src dst : Nat) : State × Bool :=
  match s.waggleRoute src dst with
  | none =>
    let s := s.onHub (((accessOf src).map Prod.snd).headD 0) (fun h => { h with drop := h.drop + 1 })
    (if uClass dst ≤ 6 then s.onRegion (uRegion dst) (fun g => { g with unreached := true }) else s, false)
  | some path => (path.foldl (fun s h => s.onHub h (fun x => { x with pkts := x.pkts + 1 })) s, true)
/-- A sender has used its next sequence number (R187). -/
def State.countSeq (s : State) (src : Nat) : State := { s with wgSeq := s.wgSeq.upd 0 src (fun n => (n + 1) % 128) }
/-- The Keeper's event buffer keeps the last 8192 packets of classes 0 and 1 (R441). -/
def State.noteEvent (s : State) (p : WPkt) : State :=
  if p.msg.cls ≤ 1 then
    let e := s.log.evbuf ++ [p]
    { s with log := { s.log with evbuf := e.drop (e.length - 8192) } }
  else s
/-- Send a packet with its sender's next sequence number (R187): it is on its way until a command names its arrival, or, with `now`, arrives at
once, where no row of the table stands for its arrival. The flag says that a route takes it there. -/
def State.sendPkt (s : State) (src dst : Nat) (m : WMsg) (now : Bool) : State × Bool :=
  let c := s.carry src dst
  let p : WPkt := ⟨src, dst, m, s.wgSeq.get 0 src⟩
  if c.2 then ((({ c.1 with waggle := if now then c.1.waggle else c.1.waggle ++ [p] }).countSeq src).noteEvent p, true) else c
/-- Put a packet on its way. -/
def State.send (s : State) (src dst : Nat) (m : WMsg) : State := (s.sendPkt src dst m false).1
/-- May packet p arrive while `before` were sent earlier and have not arrived? Classes 2 and 3 keep their order per source and class (R190); a
lower class for the same destination from the same source goes first at every hub output (R189); a tile agent has one packet at a time on its
way to its region controller (R187). -/
def WPkt.mayPass (before : List WPkt) (p : WPkt) : Bool :=
  before.all (fun q =>
    !(decide (q.src = p.src) && decide (q.msg.cls = p.msg.cls) && decide (2 ≤ p.msg.cls)) &&
    !(decide (q.src = p.src) && decide (q.dst = p.dst) && decide (q.msg.cls < p.msg.cls)) &&
    !(decide (uClass q.src = 1) && decide (uClass p.src = 1) && decide (uTile q.src = uTile p.src) && decide (q.dst = p.dst) && decide (uClass p.dst = 6)))
/-- The first packet that `q` accepts, with those before it; none where one before it may not be passed. -/
def pickPkt (q : WPkt → Bool) : List WPkt → List WPkt → Option WPkt
  | _, [] => none
  | before, p :: ps => if q p then (if p.mayPass before then some p else none) else pickPkt q (before ++ [p]) ps
/-- The first packet on its way that `q` accepts, taken off the network where it may arrive now. -/
def State.take (s : State) (q : WPkt → Bool) : Option (WPkt × State) :=
  (pickPkt q [] s.waggle).map (fun p => (p, { s with waggle := s.waggle.erase p }))
/-- Ask the lead region controller of a context's partition for a hold (R26). A unit bound to no user context causes none (R405). -/
def State.askHold (s : State) (c src : Nat) (why : HoldWhy) : State :=
  match s.lead c with
  | some r => if isUser c then s.send src (uidRc r) (.hold c src why) else s
  | none => s

/-! The Afterglow log (R439, R440). -/

/-- Records the ring holds. -/
def logRing : Nat := 245760
/-- The oldest index kept. -/
def Log.oldest (l : Log) : Nat := l.next - logRing
/-- Write a record; the index it takes is the log's `next` before. Bytes 32 on are `body`; the rest of the record is 0. -/
def State.logRec (s : State) (typ flags ctx len : Nat) (body : List Byte) : State :=
  let l := s.log
  let r : Rec := { typ := typ, flags := flags, stamp := s.now, boot := l.boot, ctx := ctx, len := len, body := body }
  let recs := Tab.put (if logRing ≤ l.next then Tab.del l.recs (l.next - logRing) else l.recs) l.next r
  let s := { s with log := { l with recs := recs, next := (l.next + 1) % 4294967296 }, tr := { s.tr with recsUnread := true } }
  if typ = 0x20 ∨ typ = 0x10 then { s with tr := { s.tr with alert := true } } else s
/-- The CRC-32 of IEEE 802.3, a byte at a time, most significant reflection as usual. -/
def crcByte (c : Nat) (b : Byte) : Nat :=
  (List.range 8).foldl (fun c _ => if c % 2 = 1 then (c / 2) ^^^ 0xEDB88320 else c / 2) (c ^^^ b.toNat)
/-- CRC-32 of a byte string. -/
def crc32 (bs : List Byte) : Nat := (bs.foldl crcByte 0xFFFFFFFF) ^^^ 0xFFFFFFFF
/-- Pad or cut a byte string to n bytes. -/
def fitBytes (n : Nat) (b : List Byte) : List Byte := (b ++ List.replicate n 0#8).take n
/-- The 256 bytes of record number `idx`. -/
def Rec.bytes (r : Rec) (idx : Nat) : List Byte :=
  let h := leBytes 4 idx ++ leBytes 2 r.typ ++ leBytes 1 1 ++ leBytes 1 r.flags ++ leBytes 8 r.stamp ++ leBytes 4 r.boot ++
    leBytes 2 r.ctx ++ leBytes 2 r.len ++ leBytes 4 0
  let b := fitBytes 224 r.body
  h ++ leBytes 4 (crc32 (h ++ b)) ++ b

/-! Completion rings (R300 to R313). -/

/-- Ring descriptor fields. -/
def Ring.cbase (r : Ring) : Nat := r.desc.fld 0 63 12 * 4096
/-- log2 of the command ring's units. -/
def Ring.csize (r : Ring) : Nat := r.desc.fld 0 5 0
/-- The head line's address. -/
def Ring.hline (r : Ring) : Nat := r.desc.fld 1 63 6 * 64
/-- The completion ring's base. -/
def Ring.qbase (r : Ring) : Nat := r.desc.fld 2 63 12 * 4096
/-- log2 of the completion ring's entries. -/
def Ring.qsize (r : Ring) : Nat := r.desc.fld 2 5 0
/-- The status line's address. -/
def Ring.sline (r : Ring) : Nat := r.desc.fld 3 63 6 * 64
/-- May raise its vector. -/
def Ring.ie (r : Ring) : Bool := bit (r.desc.w 4) 8
/-- Its vector. -/
def Ring.vec (r : Ring) : Nat := r.desc.fld 4 7 0
/-- Difference of two free-running 32-bit indices. -/
def idxDiff (a b : Nat) : Nat := (a + 4294967296 - b) % 4294967296
/-- Entries the host has not consumed. -/
def Ring.unread (r : Ring) : Nat := idxDiff r.qprod r.qcons
/-- Room for one more entry (R311). -/
def Ring.room (r : Ring) : Bool := decide (r.unread < 2 ^ r.qsize)
/-- The 64 bytes of the status line (R301). -/
def Ring.statusLine (r : Ring) (stamp : Nat) : List Byte :=
  leBytes 4 r.ccons ++ leBytes 4 r.qprod ++ leBytes 2 r.nseq ++ leBytes 1 r.st.code ++ leBytes 1 r.err ++ leBytes 4 0 ++ leBytes 8 stamp ++
    leBytes 40 0
/-- Write the status line of context c's ring. -/
def State.putStatus (s : State) (c : Nat) : State :=
  let r := (s.ctx c).ring
  { s with hostMem := s.hostMem.wrBytes r.sline (r.statusLine s.now) }
/-- Raise an MSI-X vector (R313). -/
def State.raiseVec (s : State) (v : Nat) : State :=
  if s.ha.msixMask.testBit v then { s with ha := { s.ha with msixPend := s.ha.msixPend ||| 2 ^ v } }
  else { s with ha := { s.ha with msixSent := s.ha.msixSent ++ [v] } }
/-- The 32 bytes of an entry with its phase (R309, R310). -/
def CEntry.bytes (e : CEntry) (p : Bool) : List Byte :=
  leBytes 4 e.tag ++ leBytes 2 e.opcode ++ leBytes 2 e.status ++ leBytes 8 e.stamp ++ leBytes 8 e.detail ++ leBytes 2 e.seq ++
    leBytes 2 e.ctx ++ leBytes 1 (b2n p + 2 * b2n e.fin + 4 * b2n e.evt) ++ leBytes 3 0
/-- Write one entry, the status line and, where the ring may, its vector. -/
def State.writeEntry (s : State) (c : Nat) (e : CEntry) : State :=
  let r := (s.ctx c).ring
  let p := decide (r.qprod / 2 ^ r.qsize % 2 = 0)
  let s := { s with hostMem := s.hostMem.wrBytes (r.qbase + 32 * (r.qprod % 2 ^ r.qsize)) (e.bytes p) }
  let s := s.onRing c (fun r => { r with qprod := (r.qprod + 1) % 4294967296 })
  let s := s.putStatus c
  if r.ie ∧ (e.evt ∨ (e.fin ∧ e.irq)) then s.raiseVec r.vec else s
/-- The EVENTS_LOST event (R311). -/
def lostEvent (s : State) (c : Nat) (r : Ring) : CEntry :=
  ⟨6 + fld r.evLost 16 16, 0, r.evLost / 65536 % 65536, s.now, 0, r.evSeq, c, true, true, false⟩
/-- Write entries waiting while the ring has room, an EVENTS_LOST event first after a drop. -/
def State.flush (s : State) (c : Nat) : Nat → State
  | 0 => s
  | n + 1 =>
    let r := (s.ctx c).ring
    match r.backlog with
    | [] => s
    | e :: es =>
      if r.room = false ∨ s.ha.warm then s
      else if 0 < r.evLost then
        ((s.writeEntry c (lostEvent s c r)).onRing c (fun r => { r with evLost := 0, evSeq := (r.evSeq + 1) % 65536 })).flush c n
      else ((s.writeEntry c e).onRing c (fun r => { r with backlog := es })).flush c n
/-- Hand an entry to context c's ring: dropped and counted while the ring is disabled (R318), else through the backlog; an event that finds
the backlog full is dropped and counted (R311). -/
def State.putEntry (s : State) (c : Nat) (e : CEntry) : State :=
  let r := (s.ctx c).ring
  if r.st = .disabled then { s with ha := { s.ha with replDrop := s.ha.replDrop + 1 } }
  else if e.evt ∧ 64 ≤ r.backlog.length then
    { s.onRing c (fun r => { r with evLost := r.evLost + 1 }) with ha := { s.ha with evtLost := s.ha.evtLost + 1 } }
  else
    let s := s.onRing c (fun r => { r with backlog := r.backlog ++ [if e.evt then { e with seq := r.evSeq } else e]
                                           evSeq := if e.evt then (r.evSeq + 1) % 65536 else r.evSeq })
    s.flush c 66
/-- Post an event: its code and its 12 bytes of data as a number (R309, R311); `about` is the context it concerns. -/
def State.post (s : State) (c code data about : Nat) : State :=
  s.putEntry c ⟨code + fld data 16 16, 0, data / 65536 % 65536, s.now, data / 4294967296, 0, about, true, true, true⟩
/-- Post an event to the system ring. -/
def State.postSys (s : State) (code data about : Nat) : State := s.post 0 code data about

/-! Status codes (*Status codes*, R310). -/

/-- OK. -/
def stOk : Nat := 0x0000
/-- ACCEPTED. -/
def stAccepted : Nat := 0x0001
/-- DEFERRED. -/
def stDeferred : Nat := 0x0002
/-- BAD_OPCODE. -/
def stBadOpcode : Nat := 0x0100
/-- BAD_LENGTH. -/
def stBadLength : Nat := 0x0101
/-- BAD_PARAM. -/
def stBadParam : Nat := 0x0102
/-- DENIED. -/
def stDenied : Nat := 0x0200
/-- SIGNATURE_REQUIRED. -/
def stSignature : Nat := 0x0201
/-- NO_RESOURCE. -/
def stNoResource : Nat := 0x0300
/-- BUSY. -/
def stBusy : Nat := 0x0301
/-- FAULTED. -/
def stFaulted : Nat := 0x0400
/-- ABORTED. -/
def stAborted : Nat := 0x0401

/-! Replies (R308, R309). -/

/-- Write a reply where its packet came from. -/
def State.replyTo (s : State) (src : Src) (e : CEntry) : State :=
  match src with
  | .ring c => s.putEntry c e
  | .mgmt n => { s with tr := { s.tr with sessions := s.tr.sessions.map (fun x => if x.id = n then { x with replies := x.replies ++ [e] } else x) } }
/-- The final reply of the long-running command numbered `id`, which leaves the table. -/
def State.finish (s : State) (id status detail : Nat) : State :=
  match s.long.find? (fun l => l.id = id) with
  | none => s
  | some l =>
    let s := { s with long := s.long.filter (fun l => l.id ≠ id) }
    s.replyTo l.src ⟨l.tag, l.opcode, status, s.now, detail, l.seq, l.ctx, true, false, l.irq⟩
/-- Final replies of several commands. -/
def State.finishAll (s : State) (ids : List Nat) (status detail : Nat) : State := ids.foldl (fun s i => s.finish i status detail) s
/-- DETAIL with no record as the cause. -/
def noCause : Nat := 0xFFFFFFFF

end Sys2Proof.Machine
end

