-- ==== Sys2Proof/Machine/Faults.lean ====
section
/-! DEFINITION. Fault records, their events, and what the fixed reaction of a class does (spec 17: R405 to R412, R440). -/

namespace Sys2Proof.Machine

/-- The step a context is at for its records: step and attempt of the run under way. -/
def Ctx.stepOf (x : Ctx) : Nat × Nat × Nat :=
  match x.run with
  | some r => (if r.kind = .step then r.step else 0xFFFFFFFF, if r.kind = .step then r.attempt else 0, r.cmdTag)
  | none => (0xFFFFFFFF, 0, 0)
/-- The temperature and supply voltage a report carries (R407): the region's highest sensor and its supply, the stack's temperature, the
rim side's for links and the host link, the Keeper's. -/
def State.tempVolt (s : State) (u : Nat) : Int × Nat :=
  let g := s.region (uRegion u)
  if uClass u ≤ 6 then (max (max g.sample.t0 g.sample.t1) (max g.sample.t2 g.sample.t3), g.sample.mv)
  else if uClass u = 0x10 ∨ uClass u = 0x11 then ((s.sc (uSub u)).temp * 4, 0)
  else if uClass u = 0x12 then (Config.sideTemp (uSub u / 16) s.clk.beat, 0)
  else if uClass u = 0x13 then (Config.sideTemp 0 s.clk.beat, 0)
  else (Config.sideTemp 4 s.clk.beat, 0)
/-- A signed number in 16 bits. -/
def int16 (i : Int) : Nat := (i % 65536).toNat
/-- Words of detail: two items of 64 bits are given as two words (R409); missing words read 0. -/
def detWords (det : List Nat) : List Byte := fitBytes 44 (det.flatMap (leBytes 4))
/-- Bytes 32 to 255 of a fault record (R408). -/
def State.faultBody (s : State) (r : FReport) (repeat_ : Nat) (flags runit rstamp cause : Nat) : List Byte :=
  let tv := s.tempVolt r.unit
  let st := (s.ctx r.ctx).stepOf
  [leBytes 2 r.cls, leBytes 1 (reaction r.cls), leBytes 1 repeat_, leBytes 4 r.unit, leBytes 8 r.stamp, leBytes 2 r.tag,
    leBytes 2 r.otag, leBytes 4 st.2.2, leBytes 2 r.ctx, leBytes 2 (int16 tv.1), leBytes 2 tv.2, leBytes 1 flags,
    leBytes 1 st.2.1, leBytes 4 st.1, leBytes 4 runit, leBytes 8 rstamp, detWords r.det, leBytes 4 cause].flatten
/-- The stamp in a record's body, for R33 and R410. -/
def Rec.faultStamp (r : Rec) : Nat := ofLE ((r.body.drop 8).take 8)
/-- The unit in a record's body. -/
def Rec.faultUnit (r : Rec) : Nat := ofLE ((r.body.drop 4).take 4)
/-- The clock source of a unit: its region, its rim side as 80 to 83, the Keeper as 84 (R32). -/
def clockSource (u : Nat) : Nat :=
  if uClass u ≤ 6 then uRegion u
  else if uClass u = 0x10 ∨ uClass u = 0x11 then 80 + uSub u / 6
  else if uClass u = 0x12 then 80 + uSub u / 16
  else if uClass u = 0x13 then 80
  else 84
/-- Two stamps from different clock sources whose order is uncertain (R33). -/
def orderUncertain (u stamp v stamp' : Nat) : Bool :=
  decide (clockSource u ≠ clockSource v) && decide (stamp ≤ stamp' + 16 ∧ stamp' ≤ stamp + 16)
/-- A fault or repetition record whose order against a unit's stamp is uncertain. -/
def Rec.near (r : Rec) (u stamp : Nat) : Bool := (decide (r.typ = 1) || decide (r.typ = 2)) && orderUncertain r.faultUnit r.faultStamp u stamp
/-- The uncertainty flag of R33 against the records kept. -/
def State.uncertain (s : State) (u stamp : Nat) : Bool := s.log.recs.any (fun p => p.2.near u stamp)
/-- A record with its uncertainty flag set. -/
def Rec.flagged (r : Rec) : Rec := { r with body := r.body.set 30 (r.body.getD 30 0#8 ||| 1#8) }
/-- The flag set on the earlier records too (R33). -/
def State.flagNear (s : State) (u stamp : Nat) : State :=
  if s.uncertain u stamp then
    { s with log := { s.log with recs := s.log.recs.map (fun p => (p.1, if p.2.near u stamp then p.2.flagged else p.2)) } }
  else s
/-- The physical site of logical tile t within its region, as 20*cluster + site (R11). -/
def State.siteAt (s : State) (t : Nat) : Option Nat :=
  (siteOf (s.region (t / 64)).bad (t / 16 % 4) (t % 16)).map (fun n => 20 * (t / 16 % 4) + n)
/-- A site under suspicion (R414). -/
def State.suspectUnit (s : State) (u : Nat) : Bool :=
  decide (uClass u = 1) && (s.siteAt (uTile u)).any (fun n => decide (s.clk.wall < (s.region (uRegion u)).suspect.get 0 n))
/-- The FAULT event to the context concerned and to the system ring (R311, R408). -/
def State.postFault (s : State) (unit cls idx ctx : Nat) : State :=
  let data := unit + cls * 2 ^ 32 + idx * 2 ^ 48
  let s := if isUser ctx then s.post ctx 4 data ctx else s
  s.postSys 4 data ctx
/-- Records of reaction R the current rate window still takes (R440). -/
def rateLimit : Nat := 512
/-- End the run of a context: the first cause stands; a partition without a run takes none. -/
def State.endRun (s : State) (c status cause : Nat) : State :=
  s.onCtx c (fun x => match x.run with
    | some r => if r.started ∧ r.ending = none then { x with run := some { r with ending := some ⟨status, cause⟩ } } else x
    | none => x)
/-- A fault of the partition before the boundary at which the first fault's hold applies is secondary unless its reaction is T (R410). -/
def State.secondary (s : State) (r : FReport) : Option Nat :=
  if isUser r.ctx ∧ reaction r.cls ≠ 1 then
    match (s.ctx r.ctx).part.first with
    | some f =>
      if f.stamp ≤ r.stamp ∧ f.heldAt.all (fun b => decide (r.stamp < b * 4096)) = true then some (f.idx.getD noCause) else none
    | none => none
  else none
/-- Note the first fault of a partition: its record and the stamp of its detection (R410). -/
def State.firstFault (s : State) (c idx stamp : Nat) : State :=
  s.onPart c (fun p => if p.first = none ∧ isUser c then { p with first := some ⟨some idx, stamp, none⟩ } else p)
/-- Whether the hold of a class with reaction S lasts until the plan has ended (R213, R214) or asks for the next decision only (R221). -/
def stdHold (cls : Nat) (det : List Nat) : Option HoldWhy :=
  if [fcStreamDeadline, fcStreamUnderrun, fcEdgeUnclaimed, fcEgressOverrun].contains cls then some .plan
  else if cls = fcStreamIndex then some .forecast
  else if cls = fcStoreUncorrectable ∧ det.headD 0xFFFFFFFF ≠ 0xFFFFFFFF then some .forecast
  else if cls = fcNoSubstitutePlan then some .noPlan
  else none
/-- What a class's reaction asks of the partition's hold (R405, R411). -/
def holdOf (cls : Nat) (det : List Nat) : Option HoldWhy :=
  match reaction cls with
  | 1 => some .fence
  | 2 => some .fence
  | 3 => some .plan
  | 4 => stdHold cls det
  | _ => none
/-- Write the fault record, its event (for a tag mismatch also to the context of the flit's tag, R180), and start what the Keeper does for the
class (R408, R411, R413, R440). The hold is asked for by the
caller; runs of reaction T, U and P end FAULTED. -/
def State.record (s : State) (r : FReport) : State :=
  let rc := reaction r.cls
  if rc = 9 ∧ rateLimit ≤ s.log.winRecs then
    { s with log := { s.log with dropped := s.log.dropped + 1
                                 dropCls := if s.log.dropped = 0 then r.cls else s.log.dropCls
                                 dropUnit := if s.log.dropped = 0 then r.unit else s.log.dropUnit
                                 dropStamp := if s.log.dropped = 0 then r.stamp else s.log.dropStamp } }
  else
    let idx := s.log.next
    let sec := s.secondary r
    let flags := b2n (s.uncertain r.unit r.stamp) + 2 * b2n sec.isSome + 4 * b2n (s.suspectUnit r.unit)
    let s := (s.flagNear r.unit r.stamp).logRec 1 0 (if r.ctx = 0 then 0 else r.ctx) 96 (s.faultBody r 0 flags 0 0 (sec.getD noCause))
    let s := if rc = 9 then { s with log := { s.log with winRecs := s.log.winRecs + 1 } } else s
    let s := if rc = 8 then { s with tr := { s.tr with alert := true } } else s
    let s := s.postFault r.unit r.cls idx r.ctx
    let s := if r.cls = fcPtagMismatch ∧ isUser (r.det.headD 0) ∧ r.det.headD 0 ≠ r.ctx then s.post (r.det.headD 0) 4 (r.unit + r.cls * 2 ^ 32 + idx * 2 ^ 48) r.ctx else s
    if sec.isSome then s
    else
      let s := if (holdOf r.cls r.det).isSome then s.firstFault r.ctx idx r.stamp else s
      let s := if rc = 1 then { s with log := { s.log with reps := s.log.reps ++ [⟨idx, r⟩] } } else s
      if rc = 1 ∨ rc = 2 ∨ rc = 3 then s.endRun r.ctx stFaulted idx else s
/-- A fault the Keeper raises itself: recorded at once, and the hold asked for where its reaction holds the partition. -/
def State.keeperFault (s : State) (cls unit ctx tag : Nat) (det : List Nat) : State :=
  let r : FReport := ⟨cls, unit, s.now, tag, 0, ctx, det⟩
  let prim := (s.secondary r).isNone
  let s := s.record r
  match (if prim then holdOf cls det else none) with
  | some why => s.askHold ctx unit why
  | none => s
/-- A fault a unit of the wafer or the rim reports: a FAULT_REPORT on its way to its region controller (R405, R407). -/
def State.report (s : State) (r : FReport) : State := s.send r.unit (uidRc (unitHome r.unit)) (.fault r)
/-- The record of a beat event (TYPE 0x0040): its kind, the old and the new beat number. The layout of the body is entry 16's. -/
def State.beatEvent (s : State) (kind old new : Nat) : State :=
  s.logRec 0x40 0 0xFFFF 24 (leBytes 8 kind ++ leBytes 8 old ++ leBytes 8 new)

end Sys2Proof.Machine
end

