-- ==== Sys2Proof/Machine/Extents.lean ====
section
/-! DEFINITION. Extents, the page map, store and far pages, and data references (spec 08: R195 to R206; spec 14: R344, R345). -/

namespace Sys2Proof.Machine

/-- Bytes of a page. -/
def pageBytes : Nat := 2097152
/-- The stack controller an extent number names (R197). -/
def extSc (e : Nat) : Nat := e / 2048
/-- The index in its extent table. -/
def extIdx (e : Nat) : Nat := e % 2048

/-- An extent table entry, read (R197). -/
structure ExtEnt where
  ctx : Nat
  kind : Nat
  hv : Bool
  pages : Nat
  base : Nat
  deriving DecidableEq, Repr

/-- The entry's word. -/
def ExtEnt.word (e : ExtEnt) : Nat :=
  2 ^ 63 + fld e.ctx 10 53 + fld e.kind 3 50 + fld (b2n e.hv) 1 49 + fld e.pages 16 32 + fld e.base 16 16
/-- The extent of number `e`, if it names one: fitted stack controller and V = 1. -/
def State.ext (s : State) (e : Nat) : Option ExtEnt :=
  let sc := s.sc (extSc e)
  let w := sc.ext.get 0 (extIdx e)
  if extSc e < 24 ∧ sc.serving = true ∧ bit w 63 = true then
    some ⟨bits w 62 53, bits w 52 50, bit w 49, bits w 47 32, bits w 31 16⟩
  else none
/-- Write an extent's entry. -/
def State.setExt (s : State) (e : Nat) (x : ExtEnt) : State :=
  s.onSc (extSc e) (fun c => { c with ext := c.ext.set 0 (extIdx e) x.word })
/-- The page map entry of a logical page (R198). -/
def State.pageEnt (s : State) (e : Nat) (x : ExtEnt) (l : Nat) : Nat := (s.sc (extSc e)).map.get 0 (x.base + l)
/-- Write a page map entry. -/
def State.setPage (s : State) (e : Nat) (x : ExtEnt) (l w : Nat) : State :=
  s.onSc (extSc e) (fun c => { c with map := c.map.set 0 (x.base + l) w })
/-- A far page (FAR). -/
def pgFar (w : Nat) : Bool := bit w 62
/-- Present (P). -/
def pgP (w : Nat) : Bool := bit w 61
/-- Zero on first touch (ZT). -/
def pgZt (w : Nat) : Bool := bit w 60
/-- Store page number, or host physical address bits 51:21. -/
def pgAddr (w : Nat) : Nat := bits w 51 21
/-- Set or clear a bit. -/
def setBit (w i : Nat) (b : Bool) : Nat := if w.testBit i = b then w else if b then w + 2 ^ i else w - 2 ^ i
/-- A store page entry. -/
def storePage (p : Nat) (zt : Bool) : Nat := 2 ^ 63 + fld (b2n zt) 1 60 + fld p 31 21
/-- A far page entry. -/
def farPage (addr : Nat) (p : Bool) : Nat := 2 ^ 63 + 2 ^ 62 + fld (b2n p) 1 61 + fld addr 31 21

/-- Why an access to an extent stops: absent far page, or an uncorrectable word, with the byte offset. -/
inductive ExtErr where
  | absent (page : Nat)
  | bad (off : Nat)
  deriving DecidableEq, Repr

/-- Granules of stack time that a zero-fill takes (R200). -/
def fillGranules : Nat := 1024
/-- Stack time granted to a context (R387). -/
def Sc.spend (ctx n : Nat) (c : Sc) : Sc := { c with beatGr := c.beatGr.upd 0 ctx (· + n) }
/-- Stack time granted in class 4 (R217, R387). -/
def Sc.spendLow (ctx n : Nat) (c : Sc) : Sc := { c.spend ctx n with lowGr := c.lowGr + n }
/-- First access of a page: zero-fill a store page with ZT = 1 (R200). The granules it still takes go to context 0 (R387). -/
def State.touch (s : State) (e : Nat) (x : ExtEnt) (l : Nat) : State :=
  let w := s.pageEnt e x l
  if pgFar w = false ∧ pgZt w = true then
    s.onSc (extSc e) (fun c => { c.spend 0 (fillGranules - c.fills.get 0 (pgAddr w)) with
                                        fills := c.fills.del (pgAddr w)
                                        mem := c.mem.zero (pgAddr w * pageBytes) pageBytes
                                        errs := c.errs.filter (fun p => decide (p.1 < pgAddr w * 65536 ∨ (pgAddr w + 1) * 65536 ≤ p.1))
                                        map := c.map.set 0 (x.base + l) (w - 2 ^ 60)
                                        ztFill := c.ztFill + 1 })
  else s
/-- The stack or host byte address of an extent offset. -/
def State.addrOf (s : State) (e : Nat) (x : ExtEnt) (off : Nat) : Nat :=
  pgAddr (s.pageEnt e x (off / pageBytes)) * pageBytes + off % pageBytes
/-- Check one 32-byte word for reading: a single byte error is corrected and counted, an uncorrectable one stops the access (R201, R202),
and so does a read of a far page's granule that fails (R206, entry 58). -/
def State.checkStore (s : State) (e : Nat) (x : ExtEnt) (off : Nat) : State × Option ExtErr :=
  let w := s.pageEnt e x (off / pageBytes)
  if pgFar w then
    if pgP w = false then (s, some (.absent (off / pageBytes)))
    else if Config.farFails s.clk.beat e (off / 2048 * 2048) then (s.onSc (extSc e) (fun c => { c with uncorr := c.uncorr + 1 }), some (.bad (off / 32 * 32)))
    else (s, none)
  else
    let s := s.touch e x (off / pageBytes)
    let a := s.addrOf e x off / 32
    let sc := s.sc (extSc e)
    match sc.errs.get 0 a with
    | 0 => (s, none)
    | 1 => (s.onSc (extSc e) (fun c => { c with errs := c.errs.del a, corr := c.corr + 1 }), none)
    | _ => (s.onSc (extSc e) (fun c => { c with uncorr := c.uncorr + 1 }), some (.bad (off / 32 * 32)))
/-- Check the words of a range from `off` on, word by word, at most `n` of them. -/
def State.checkRange (s : State) (e : Nat) (x : ExtEnt) (off last : Nat) : Nat → State × Option ExtErr
  | 0 => (s, none)
  | n + 1 =>
    if last < off then (s, none)
    else match s.checkStore e x off with
      | (s, none) => s.checkRange e x (off / 32 * 32 + 32) last n
      | r => r
/-- The bytes of a range as they stand; a page that waits for its zero-fill holds zeros (R200). -/
def State.peek (s : State) (e : Nat) (x : ExtEnt) (off : Nat) : Nat → List Byte
  | 0 => []
  | n + 1 =>
    let a := s.addrOf e x off
    let w := s.pageEnt e x (off / pageBytes)
    (if pgFar w then s.hostMem.rd a else if pgZt w then 0#8 else (s.sc (extSc e)).mem.rd a) :: s.peek e x (off + 1) n
/-- Read a range of an extent: first every word is checked, then the bytes are taken. -/
def State.readExt (s : State) (e : Nat) (x : ExtEnt) (off n : Nat) : State × Except ExtErr (List Byte) :=
  if n = 0 then (s, .ok [])
  else match s.checkRange e x off (off + n - 1) (n / 32 + 2) with
    | (s, none) => (s, .ok (s.peek e x off n))
    | (s, some r) => (s, .error r)
/-- Write bytes into an extent. Whole words lose their error marks; a partly covered uncorrectable word is the caller's to refuse. -/
def State.writeExt (s : State) (e : Nat) (x : ExtEnt) (off : Nat) : List Byte → State
  | [] => s
  | b :: bs =>
    let w := s.pageEnt e x (off / pageBytes)
    let s := if pgFar w then { s with hostMem := s.hostMem.wr (s.addrOf e x off) b }
      else
        let s := s.touch e x (off / pageBytes)
        let a := s.addrOf e x off
        s.onSc (extSc e) (fun c => { c with mem := c.mem.wr a b, errs := c.errs.del (a / 32) })
    s.writeExt e x (off + 1) bs
/-- Every far page of a byte range is present. -/
def State.rangeHere (s : State) (e : Nat) (x : ExtEnt) (off n : Nat) : Bool :=
  (List.range ((off + n + pageBytes - 1) / pageBytes - off / pageBytes)).all (fun i =>
    let w := s.pageEnt e x (off / pageBytes + i)
    !pgFar w || pgP w)
/-- The extent a slot reads or writes at this moment. -/
def State.extD (s : State) (e : Nat) : ExtEnt := (s.ext e).getD ⟨0, 7, false, 0, 0⟩
/-- A range lies in the extent. -/
def ExtEnt.holds (x : ExtEnt) (off n : Nat) : Bool := decide (off + n ≤ x.pages * pageBytes)

/-! Data references (R344, R345). -/

/-- The context whose extents a packet's data reference may name. -/
def Src.dataCtx : Src → Nat
  | .ring c => c
  | .mgmt _ => 0
/-- The status that refuses a data reference, if any (R344). -/
def State.refBad (s : State) (src : Src) (x : DRef) : Option Nat :=
  match s.ext x.dext with
  | none => some stDenied
  | some e =>
    if e.kind ≠ 0 ∨ e.ctx ≠ src.dataCtx then some stDenied
    else if x.doff % 64 ≠ 0 ∨ x.dlen = 0 ∨ e.holds x.doff x.dlen = false ∨ s.rangeHere x.dext e x.doff x.dlen = false then some stBadParam
    else none
/-- The record of an input word that cannot be read (R344): its index, and the machine. -/
def State.dataFault (s : State) (x : DRef) (ctx tag : Nat) (err : ExtErr) : State × Nat :=
  let idx := s.log.next
  match err with
  | .bad off => (s.keeperFault fcStoreUncorrectable (uidSc (extSc x.dext)) ctx tag [0xFFFFFFFF, x.dext, off % 2 ^ 32, off / 2 ^ 32], idx)
  | .absent p => (s.keeperFault fcDataRefLost (uidSc (extSc x.dext)) ctx tag [x.dext, p, x.doff % 2 ^ 32, x.doff / 2 ^ 32], idx)
/-- The granules of stack time that a byte range of an extent takes: those of far pages take none (R207). -/
def State.granules (s : State) (e off n : Nat) : Nat :=
  ((List.range ((off + n + 2047) / 2048 - off / 2048)).filter (fun i => !pgFar (s.pageEnt e (s.extD e) ((off / 2048 + i) / 1024)))).length
/-- Stack time of class 4 for a byte range (R217, R344). -/
def State.spendIo (s : State) (e off n : Nat) : State := s.onSc (extSc e) (Sc.spendLow (s.extD e).ctx (s.granules e off n))
/-- Read the input of a command: the machine, and the bytes or the DETAIL of its FAULTED reply. -/
def State.readRef (s : State) (x : DRef) (ctx tag : Nat) : State × Except Nat (List Byte) :=
  match s.ext x.dext with
  | none => (s, .ok [])
  | some e =>
    match (s.spendIo x.dext x.doff x.dlen).readExt x.dext e x.doff x.dlen with
    | (s, .ok b) => (s, .ok b)
    | (s, .error err) =>
      let off := match err with | .bad o => o | .absent p => p * pageBytes
      let r := s.dataFault x ctx tag err
      (r.1, .error (r.2 + 2 ^ 32 * ((off - x.doff) / 64)))
/-- Whole 64-byte lines with zeros beyond the output (R345). -/
def padLine (b : List Byte) : List Byte := b ++ List.replicate ((64 - b.length % 64) % 64) 0#8
/-- Write the output of a command: status and DETAIL (R345). -/
def State.writeRef (s : State) (x : DRef) (out : List Byte) : State × Nat × Nat :=
  if x.dlen < out.length then (s, stNoResource, out.length)
  else match s.ext x.dext with
    | none => (s, stDenied, 0)
    | some e =>
      let room := e.pages * pageBytes - x.doff
      ((s.spendIo x.dext x.doff (padLine out).length).writeExt x.dext e x.doff ((padLine out).take room), stOk, out.length)

end Sys2Proof.Machine
end

