-- ==== Sys2Proof/Machine/Packets.lean ====
section
/-! DEFINITION. Taking a command packet: the ring's side (R300 to R308), the checks of R307 in their order, the permissions of R331, R333,
R340, R341 and R455, and the replies of R308 and R342. -/

namespace Sys2Proof.Machine

/-- What the checks from 5 on and the command itself answer: a final status with DETAIL; a long-running command's first status with what
it leaves in the table and what starting it does, given its number; or a command whose only reply comes later. -/
inductive Verdict where
  | done (status detail : Nat) (s : State)
  | accept (status : Nat) (job : Job) (a b : Nat) (start : Nat → State → State) (s : State)
  | later (job : Job) (a b : Nat) (start : Nat → State → State) (s : State)

/-- The context a packet acts on. -/
def Hdr.act (h : Hdr) : Nat := h.ctx
/-- It came on the system ring or a management session, which is checked like it (R455). -/
def Hdr.sys (h : Hdr) : Bool := match h.src with | .ring c => decide (c = 0) | .mgmt _ => true
/-- It came on a management session. -/
def Hdr.mgmt (h : Hdr) : Bool := match h.src with | .ring _ => false | .mgmt _ => true
/-- IRQ. -/
def Hdr.irq (h : Hdr) : Bool := bit h.flags 0
/-- ORD. -/
def Hdr.ord (h : Hdr) : Bool := bit h.flags 1
/-- The entry that answers a packet. -/
def Hdr.entry (h : Hdr) (s : State) (opcode status detail : Nat) (fin : Bool) : CEntry :=
  ⟨h.tag, opcode, status, s.now, detail, h.seq, h.ctx, fin, false, h.irq⟩
/-- Stop a ring on an error (R305). -/
def State.stopRing (s : State) (c err : Nat) : State :=
  let s := (s.onRing c (fun r => { r with st := .stopped, err := err })).putStatus c
  if c = 0 then { s with ha := { s.ha with srerr := err } } else s.postSys 5 (c + err * 65536) c
/-- The module is ready and rings are watched (R318, R319). -/
def State.watched (s : State) : Bool := s.ha.ready && !s.ha.warm && s.ha.cxl
/-- The system ring has a packet waiting that nothing holds up: it is served before context rings (R308). While a command of its own is
outstanding an ORD packet may stand in front, so that context rings go on then (entry 66). -/
def State.sysWaits (s : State) : Bool :=
  let r := (s.ctx 0).ring
  decide (r.st = .running) && decide (r.cprod ≠ r.ccons) && r.backlog.isEmpty && r.room && !s.long.any (fun l => decide (l.src = .ring 0)) &&
    !s.ctxs.any (fun p => p.2.opening.isSome)
/-- A packet can be taken now: from a running ring that holds it and whose completion ring has room (R307, R311), with ORD only behind final
replies (R308), the system ring not while an open awaits its boundary (R322), a context ring not before the system ring; a management session
whenever it is open. -/
def State.takeable (s : State) (h : Hdr) : Bool :=
  match h.src with
  | .mgmt n => s.tr.sessions.any (fun x => decide (x.id = n))
  | .ring c =>
    let r := (s.ctx c).ring
    s.watched && decide (r.st = .running) && decide (h.len ≤ idxDiff r.cprod r.ccons) && r.backlog.isEmpty && r.room &&
      !(h.ord && s.long.any (fun l => decide (l.src = h.src))) && (if c = 0 then !s.ctxs.any (fun p => p.2.opening.isSome) else !s.sysWaits)
/-- The sequence number expected next. -/
def State.nseq (s : State) (h : Hdr) : Nat :=
  match h.src with
  | .ring c => (s.ctx c).ring.nseq
  | .mgmt n => ((s.tr.sessions.find? (fun x => x.id = n)).map Session.nseq).getD 0
/-- Take the packet: CCONS, NSEQ and HA_PKTS (R307). -/
def State.consume (s : State) (h : Hdr) : State :=
  let q := (h.seq + 1) % 65536
  match h.src with
  | .ring c =>
    let s := s.onRing c (fun r => { r with ccons := (r.ccons + h.len) % 4294967296, nseq := q })
    { s with ha := { s.ha with pkts := s.ha.pkts + 1 } }
  | .mgmt n => { s with tr := { s.tr with sessions := s.tr.sessions.map (fun x => if x.id = n then { x with nseq := q } else x) } }
/-- The group of an opcode. -/
def opGroup (op : Nat) : Nat := op / 256
/-- Packet check 4 by ring, group and context state (R307, R331, R333, R340, R341, R455, R471). -/
def State.permitted (s : State) (h : Hdr) (op : Nat) (sysOnly : Bool) : Bool :=
  let g := opGroup op
  let onMgmt := h.mgmt && !(g = 10 || g = 11 || op = 0x0C01)
  let onRing := match h.src with
    | .ring c => decide (c ≠ 0) && (decide (h.ctx ≠ c) || sysOnly || (decide ((s.ctx c).st = .fenced) && !(g = 8 || g = 10)))
    | .mgmt _ => false
  let notOpen := (decide (2 ≤ g ∧ g ≤ 7) || g = 9) && decide ((s.ctx h.ctx).st ≠ .opened)
  !onMgmt && !onRing && !notOpen
/-- What the body of a command answers, written out: the replies and the table of long-running commands. -/
def Verdict.apply (h : Hdr) (op : Nat) : Verdict → State
  | .done st d s => s.replyTo h.src (h.entry s op st d true)
  | .accept st job a b start s =>
    let id := s.nextId
    let s := { s with long := s.long ++ [({ id := id, src := h.src, opcode := op, tag := h.tag, seq := h.seq, ctx := h.ctx, irq := h.irq, job := job, a := a, b := b } : Long)], nextId := id + 1 }
    start id (s.replyTo h.src (h.entry s op st 0 false))
  | .later job a b start s =>
    let id := s.nextId
    start id { s with long := s.long ++ [({ id := id, src := h.src, opcode := op, tag := h.tag, seq := h.seq, ctx := h.ctx, irq := h.irq, job := job, a := a, b := b } : Long)], nextId := id + 1 }
/-- A packet of opcode `op`: the ring's side, then checks 1 to 4 of R307, then `body`. `lens` are the lengths its row allows. A packet that
cannot be taken now waits in its ring: nothing happens. In no-variant mode only groups 0x0A and 0x0B are served (R363). -/
def packet (op : Nat) (lens : List Nat) (sysOnly : Bool) (h : Hdr) (s : State) (body : State → Verdict) : State :=
  let s := s.at h.cyc
  if h.len = 0 ∨ 128 < h.len then
    match h.src with
    | .ring c =>
      if s.watched ∧ (s.ctx c).ring.st = .running then (s.stopRing c 2).replyTo h.src (h.entry s op stBadLength 0 true) else s
    | .mgmt _ => s.replyTo h.src (h.entry s op stBadLength 0 true)
  else if s.takeable h = false then s
  else
    let want := s.nseq h
    let s := s.consume h
    if lens.contains h.len = false then Verdict.apply h op (.done stBadLength 0 s)
    else if 4 ≤ h.flags ∨ 1024 ≤ h.ctx ∨ h.seq ≠ want then Verdict.apply h op (.done stBadParam want s)
    else if s.permitted h op sysOnly = false then Verdict.apply h op (.done stDenied 0 s)
    else if s.ha.noVariant ∧ ¬(opGroup op = 10 ∨ opGroup op = 11) then Verdict.apply h op (.done stNoResource 0 s)
    else Verdict.apply h op (body s)
/-- A packet whose opcode no row defines, taken with a head line (R307 check 1). -/
def undefPacket (s : State) (p : Nat × Hdr) : State :=
  if s.takeable p.2 ∧ p.2.len ≠ 0 ∧ p.2.len ≤ 128 then Verdict.apply p.2 p.1 (.done stBadOpcode 0 (s.consume p.2)) else s
/-- Refuse at a check. -/
def refuse (st : Nat) (s : State) : Verdict := .done st 0 s
/-- Check 6 begins with the reserved bytes and bits (R339). -/
def check6 (h : Hdr) (s : State) (ok : Bool) (k : Verdict) : Verdict := if h.rsv && ok then k else refuse stBadParam s
/-- A long-running command that the model completes in the step that accepts it: ACCEPTED, then its final reply (entry 17). -/
def acceptNow (s : State) (job : Job) (f : State → State × Nat × Nat) : Verdict :=
  .accept stAccepted job 0 0 (fun id s => let r := f s; r.1.finish id r.2.1 r.2.2) s
/-- A data reference reaches far pages, which need CXL.cache (R296). -/
def State.refFar (s : State) (x : DRef) : Bool :=
  (s.ext x.dext).any (fun e => (List.range ((x.doff + x.dlen + pageBytes - 1) / pageBytes - x.doff / pageBytes)).any (fun i =>
    pgFar (s.pageEnt x.dext e (x.doff / pageBytes + i))))
/-- Refuse a data reference where R344 does, a DENIED before check 6, the rest with it, and without CXL where it reaches host memory; else
go on. -/
def withRef (h : Hdr) (x : DRef) (s : State) (ok : Bool) (k : Verdict) : Verdict :=
  match s.refBad h.src x with
  | some st => if st = stDenied then refuse st s else refuse stBadParam s
  | none => if h.rsv && ok && !s.ha.cxl && s.refFar x then refuse stNoResource s else check6 h s ok k
/-- An X-out command with reply code I: output written, DETAIL as R345. -/
def writeOut (h : Hdr) (x : DRef) (s : State) (ok : Bool) (out : List Byte) : Verdict :=
  withRef h x s ok (let r := s.writeRef x out; .done r.2.1 r.2.2 r.1)
/-- A command with input and reply code I: FAULTED where the input cannot be read. -/
def withInput (h : Hdr) (x : DRef) (s : State) (ok : Bool) (k : State → List Byte → Verdict) : Verdict :=
  withRef h x s ok (match s.readRef x h.ctx h.tag with
    | (s, .ok b) => k s b
    | (s, .error d) => .done stFaulted d s)
/-- A load: the input read, then `k`; FAULTED where it cannot be read. -/
def State.readThen (s : State) (x : DRef) (c tag : Nat) (k : List Byte → State → State × Nat × Nat) : State × Nat × Nat :=
  match s.readRef x c tag with
  | (s, .ok b) => k b s
  | (s, .error d) => (s, stFaulted, d)
/-- A load of an accepted command: the input read, then `k`; its final reply is FAULTED where it cannot be read. -/
def State.readFor (s : State) (x : DRef) (c tag id : Nat) (k : List Byte → State → State) : State :=
  match s.readRef x c tag with
  | (s, .ok b) => k b s
  | (s, .error d) => s.finish id stFaulted d
/-- The step of a context is running or queued to run, or an evaluation runs (R235). -/
def Ctx.busyRun (x : Ctx) : Bool := x.run.any (fun r => decide (r.kind ≠ .plain))
/-- A step of the context is running. -/
def Ctx.inStep (x : Ctx) : Bool := x.run.any (fun r => decide (r.kind = .step) && r.started)

end Sys2Proof.Machine
end

