-- ==== Sys2Proof/Machine/Traces.lean ====
section
/-! DEFINITION. Status registers and counters of the units as TELEM_READ and traces show them, and the writing of trace records (spec 14: R356,
R358). -/

namespace Sys2Proof.Machine

/-- HA_STAT (R299). -/
def State.haStat (s : State) : Nat :=
  let h := s.ha
  fld (s.ctx 0).ring.st.code 3 13 + fld h.srerr 5 8 + fld (b2n h.warm) 1 7 + fld (b2n h.ready) 1 6 + fld (b2n h.cxl) 1 5 + fld h.rate 2 3 + fld h.width 3 0
/-- Status registers and counters of a tile's engines, in the order of their chapters' tables: the matrix unit with the converter behind its drain
port, which has no number of its own (R74, R91); the vector chain (R122); the streams with the plan banks; the scratchpad. -/
def tileRegs : List (List Nat) :=
  [[0x00, 0x01, 0x02, 0x03, 0x04, 0x08, 0x0B, 0x0C], [0x11, 0x12, 0x13, 0x10, 0x14, 0x15, 0x16], [0x20, 0x21, 0x22, 0x23, 0x24, 0x25, 0x26],
   [0x2E, 0x30, 0x31, 0x32, 0x33, 0x34, 0x35, 0x36]]
/-- The engine of `tileRegs` that a SUB value names; 4 none of them. -/
def subEngine (sub : Nat) : Nat :=
  if (0x010 ≤ sub ∧ sub ≤ 0x014) ∨ sub = 0x018 then 0
  else if (0x020 ≤ sub ∧ sub ≤ 0x028) ∨ sub = 0x02C then 1
  else if 0x030 ≤ sub ∧ sub ≤ 0x032 then 2
  else if 0x040 ≤ sub ∧ sub ≤ 0x058 then 3
  else 4
/-- The registers of a unit, but for the Keeper's. -/
def State.unitRegs (s : State) (u : Nat) : List Nat :=
  let n := uSub u
  if uClass u = 1 then
    let t := s.tile (uTile u)
    let r := s.router (uTile u)
    if n = 0 then tileRegs.flatten.map (t.regAt s.now)
    else if n = 0x060 then [r.corr.toNat, r.discard.toNat, r.absorb.toNat, r.mergeNf.toNat]
    else ((tileRegs[subEngine n]?).getD []).map (t.regAt s.now)
  else if uClass u = 5 then
    let h := s.hubs.get {} (uRegion u)
    [h.pkts.toNat, h.drop.toNat, h.resend.toNat]
  else if uClass u = 0x10 then
    let c := s.sc n
    [c.grant.toNat, c.holdReq.toNat, c.corr.toNat, c.uncorr.toNat, c.ztFill.toNat, c.blocks.toNat, c.stale.toNat, c.dup.toNat, c.satN.toNat, c.skip.toNat]
  else if uClass u = 0x11 then [(s.sc n).parcels.toNat, (s.sc n).mirrors.toNat]
  else if uClass u = 0x12 then
    let l := s.link n
    [l.tx.toNat, l.rx.toNat, l.fecCorr.toNat, l.fecUnc.toNat, l.replays.toNat, l.retrains.toNat, l.badPkt.toNat, l.misdir.toNat, l.ctxDrop.toNat]
  else if uClass u = 0x13 then
    let h := s.ha
    [s.haStat, h.pkts.toNat, h.snoop.toNat, h.evtLost.toNat, h.replDrop.toNat, h.memErr.toNat, h.unmapped.toNat]
  else []
/-- What a context ring may read and trace: units of its partition, and the stack controllers of its slots and extents. -/
def State.telemOk (s : State) (c u : Nat) : Bool :=
  if uClass u ≤ 6 then decide ((s.region (uRegion u)).ctx = c)
  else if uClass u = 0x10 ∨ uClass u = 0x11 then
    (s.sc (uSub u)).slots.any (fun q => decide (q.2.ctx = c)) || (s.sc (uSub u)).ext.any (fun q => bit q.2 63 && decide (bits q.2 62 53 = c))
  else false

/-! Trace records (R358). -/

/-- A trace of unit `tu` takes the events of unit `u`: the unit itself, or a tile, cluster or region that holds the engine. -/
def traceHits (tu u : Nat) : Bool :=
  decide (tu = u) || (decide (uClass u = 1) && (decide (tu = uidTile (uTile u) 0) || decide (tu = uidCluster (uRegion u) (uCluster u)) || decide (tu = uidComp (uRegion u))))
/-- End a trace with its command's final reply; DETAIL gives the records written. -/
def State.endTrace (s : State) (t : Trace) (status detail : Nat) : State :=
  ({ s with tr := { s.tr with traces := s.tr.traces.filter (fun u => u.long ≠ t.long) } }).finish t.long status detail
/-- Change the traces. -/
def State.onTraces (s : State) (f : Trace → Trace) : State := { s with tr := { s.tr with traces := s.tr.traces.map f } }
/-- The 64 bytes of a trace record. -/
def TRec.bytes (r : TRec) : List Byte :=
  leBytes 8 r.stamp ++ leBytes 4 r.unit ++ leBytes 2 r.tag ++ leBytes 1 (b2n r.flag) ++ leBytes 1 r.ev ++ fitBytes 48 r.regs
/-- The key records of a trace are merged by: beat, cycle, clock source, unit ID (R9, R32). -/
def TRec.key (r : TRec) : Nat := (r.stamp * 2 ^ 8 + clockSource r.unit) * 2 ^ 32 + r.unit
/-- A record merged into a trace: behind those whose key is not larger, with the uncertainty flag on both of every close pair (R32, R33). -/
def mergeRec (l : List TRec) (r : TRec) : List TRec :=
  let near (q : TRec) : Bool := orderUncertain q.unit q.stamp r.unit r.stamp
  let l' := l.map (fun q => if near q then { q with flag := true } else q)
  l'.takeWhile (fun q => decide (q.key ≤ r.key)) ++ { r with flag := l.any near } :: l'.dropWhile (fun q => decide (q.key ≤ r.key))
/-- Merge one record into a trace's buffer, used as a ring: record number k stands at place k modulo its size, and the records whose place or flag
changes are written again. A buffer that has gone ends the trace FAULTED (R344). -/
def State.traceOne (s : State) (t : Trace) (r : TRec) : State :=
  let cap := t.ref.dlen / 64
  if cap = 0 then s
  else
    let all := mergeRec t.recs r
    let kept := all.drop (all.length - cap)
    let first := t.n + 1 - kept.length
    let was (k : Nat) : Option TRec := if k + t.recs.length < t.n then none else t.recs[k + t.recs.length - t.n]?
    let place (k : Nat) : Nat := t.ref.doff + 64 * (k % cap)
    let new := (kept.zipIdx.map (fun q => (first + q.2, q.1))).filter (fun q => decide (was q.1 ≠ some q.2))
    match s.ext t.ref.dext with
    | some e =>
      match new.find? (fun q => !(decide (e.ctx = t.ctx) && s.rangeHere t.ref.dext e (place q.1) 64)) with
      | some q => lost s (place q.1)
      | none =>
        (new.foldl (fun s q => s.writeExt t.ref.dext e (place q.1) q.2.bytes) s).onTraces (fun u =>
          if u.long = t.long then { u with n := u.n + 1, recs := kept } else u)
    | none => lost s (place t.n)
where
  lost (s : State) (off : Nat) : State :=
    let idx := s.log.next
    let s := s.keeperFault fcDataRefLost (uidSc (extSc t.ref.dext)) t.ctx 0 [t.ref.dext, off / pageBytes, off % 2 ^ 32, off / 2 ^ 32]
    s.endTrace t stFaulted (idx + 2 ^ 32 * t.n)
/-- Events: 0 issued, 1 wait began, 2 wait ended, 3 fault. -/
def State.traceEvent (s : State) (u stamp tag ev : Nat) : State :=
  (s.tr.traces.filter (fun t => traceHits t.unit u && decide (t.start ≤ stamp) && decide (stamp < t.stop))).foldl (fun s t =>
    s.traceOne t ⟨stamp, u, tag, ev, false, (s.unitRegs u).flatMap (leBytes 8)⟩) s

end Sys2Proof.Machine
end

