-- ==== Sys2Proof/Machine/Runs.lean ====
section
/-! DEFINITION. Shared operations over tiles, streams, runs and leases: tile resets and zero-fill, aborts, the end of a run with its ledger
record, lease tables (spec 08 R222; 13 R334 to R337; 14 R353; 15 R377; 17 R411). -/

namespace Sys2Proof.Machine

/-! Tiles. -/

/-- A tile or cluster reset (R377): engines, registers, counters, flags, queues and plan banks at their reset values; scratchpad words,
library and scratchpad map kept, with valid check codes. -/
def Tile.reset (t : Tile) : Tile := { mem := t.mem, lib := t.lib, routines := t.routines, map := t.map, moved := t.moved, scrubEnd := t.scrubEnd }
/-- Zero-fill of the scratchpad from stamp `now` on: 8192 cycles (R164). -/
def Tile.zeroFill (now : Nat) (t : Tile) : Tile := { t with mem := [], errs := [], wback := [], scrubEnd := now + 8192 }
/-- The tile reports a fault (R149, R403): its fence line is driven at once, instructions in progress end at their unit, and the report is
on its way. -/
def State.tileFault (s : State) (t cyc : Nat) (f : TFault) : State :=
  let s := s.onTile t (fun x => { x with fenced := true, sa := { x.sa with ops := [] }, se := { x.se with ops := [] } })
  let s := s.traceEvent (uidTile t f.sub) (s.stamp cyc) f.tag 3
  s.report ⟨f.cls, uidTile t f.sub, s.stamp cyc, f.tag, f.otag, s.ptag t, f.det⟩
/-- A tile's clock runs: its compute domain is on, it is not fenced and its partition executes the beat (R27). -/
def State.tileClocked (s : State) (t : Nat) : Bool :=
  decide ((s.region (t / 64)).cd = .on) && !(s.tile t).fenced && !(s.ctx (s.ptag t)).part.held
/-- Let a tile's instructions in progress go on in a cycle in which a channel has changed. -/
def State.tileGoes (s : State) (t cyc : Nat) : State :=
  if s.tileClocked t = false then s
  else
    match ((s.tile t).enter (s.stamp cyc)).advance with
    | (x, none) => s.setTile t x
    | (x, some f) => (s.setTile t x).tileFault t cyc f
/-- A flit comes to its inbound channel; one that finds 16 there is CHANNEL_OVERRUN (R134). -/
def State.landFlit (t : Nat) (s : State) (f : InFlit) : State :=
  let x := s.tile t
  let l := x.ic.get [] f.ch
  if l.length < 16 then (s.setTile t { x with ic := x.ic.set [] f.ch (l ++ [f.flit]) }).tileGoes t (f.at_ % 4096)
  else if x.fenced then s
  else s.tileFault t (f.at_ % 4096) ⟨fcChannelOverrun, 0x061 + f.ch, [f.ch], 0, 0⟩
/-- The flits that have come to a tile by now (R169). -/
def State.landTile (s : State) (t : Nat) : State :=
  let x := s.tile t
  if x.icIn = [] then s
  else
    (x.icIn.filter (fun f => decide (f.at_ ≤ s.now))).foldl (State.landFlit t)
      (s.setTile t { x with icIn := x.icIn.filter (fun f => decide (s.now < f.at_)) })
/-- Load the kept library and scratchpad map of a context into a tile (R416, R432). -/
def loadLib (img : List Byte) (t : Tile) : Tile :=
  let rt := (List.range 256).foldl (fun (m : Tab Routine) k =>
    let e := (img.drop (16 * k)).take 16
    m.set {} k { slot := ofLE (e.take 2), len := ofLE ((e.drop 2).take 2), exe := ofLE ((e.drop 4).take 1) = 1,
                 base := ofLE ((e.drop 5).take 1), loopd := ofLE ((e.drop 6).take 1), calld := ofLE ((e.drop 7).take 1) }) []
  let body := img.drop 4096
  let lib := (List.range (body.length / 16)).foldl (fun (m : Tab Nat) k => m.set 0 k (ofLE ((body.drop (16 * k)).take 16))) []
  { t with routines := rt, lib := lib }
/-- Both kept images of a context. -/
def Ctx.refill (x : Ctx) (t : Tile) : Tile :=
  let t := if x.lib = [] then t else loadLib x.lib t
  { t with map := x.map.getD t.map, moved := false }

/-! Streams (R222). -/

/-- A stream that runs or is halted. -/
def Slot.live (x : Slot) : Bool := x.st = .running || x.st = .haltFar || x.st = .haltErr
/-- Abort a stream: its claims end and its buffer units are freed. -/
def Slot.abort (cause : Nat) (x : Slot) : Slot := if x.live then { x with st := .aborted, cause := cause, buf := [] } else x
/-- Abort the live streams that `q` picks, on every stack controller. -/
def State.abortStreams (s : State) (cause : Nat) (q : Slot → Bool) : State :=
  { s with scs := s.scs.mapV {} (fun _ c => { c with slots := c.slots.mapV {} (fun _ x => if q x then x.abort cause else x) }) }
/-- Drop a context's reduction descriptors. -/
def State.dropReds (s : State) (c : Nat) : State :=
  { s with scs := s.scs.mapV {} (fun _ x => { x with reds := x.reds.filter (fun r => r.ctx ≠ c) }) }
/-- Free a context's egress and owner buffers. -/
def State.freeBuffers (s : State) (c : Nat) : State :=
  { s with scs := s.scs.mapV {} (fun _ x => { x with egress := x.egress.filter (fun b => b.ctx ≠ c)
                                                     owners := x.owners.filter (fun b => b.ctx ≠ c)
                                                     rowQ := x.rowQ.filter (fun b => b.1 ≠ c) }) }

/-! Runs, step records and the ledger (R236, R353, R411). -/

/-- A number in 32 bits, saturating. -/
def sat (w n : Nat) : Nat := min n (2 ^ w - 1)
/-- Change the ledger record of the step (or evaluation run) under way: the last one of its kind. -/
def ledgerUpd (l : List Ledger) (eval : Bool) (f : Ledger → Ledger) : List Ledger :=
  match l.reverse with
  | r :: rs => if r.eval = eval then (f r :: rs).reverse else l
  | [] => l
/-- The interval's counts written into the ledger, closed at `stop` (0 while open). -/
def Ctx.bookStep (x : Ctx) (stop : Nat) (ended : Bool) : Ctx :=
  match x.now with
  | some n => { x with ledger := ledgerUpd x.ledger false (fun l => { l with attempts := sat 8 n.attempts, held := sat 32 n.held
                                                                             beats := n.beats, stop := stop, ended := ended }) }
  | none => x
/-- The beat under way counted into the interval of the step (R236). -/
def Ctx.countBeat (x : Ctx) : Ctx :=
  { x with now := x.now.map (fun n => if x.part.held then { n with held := n.held + 1 } else { n with beats := n.beats + 1 }) }
/-- The boundary that closes an interval now: this one at cycle 000, else the next (R236). -/
def State.closing (s : State) : Nat := if s.clk.cycle = 0 then s.clk.beat * 4096 else (s.clk.beat + 1) * 4096
/-- Plan beats executed up to the boundary that closes an interval. -/
def State.executed (s : State) (p : Part) : Nat := if p.begun = false then 0 else if s.clk.cycle = 0 ∧ p.held = false then p.planBeat else p.planBeat + 1
/-- DETAIL of a run's final reply that did not complete: cause, progress in plan beats (R343, R349, R352). -/
def endDetail (e : Ending) (beats : Nat) : Nat := e.cause + 2 ^ 32 * sat 32 beats
/-- The plan of a context has ended: schedule, tiles, descriptors, and the holds that waited for its end (R28, R411). A fence's hold goes
when no tile of the partition is fenced any more. -/
def State.planOver (s : State) (c : Nat) : State :=
  let rs := s.working c
  let clean := (tilesOf rs).all (fun t => !(s.tile t).fenced)
  let s := s.onTiles rs (fun t => { t with running := false, sa := { t.sa with st := .idle, ops := [] }, se := { t.se with st := .idle, ops := [] } })
  let s := s.dropReds c
  s.onPart c (fun p => { p with seq := [], startAt := none, begun := false
                                holds := p.holds.filter (fun h => h.why = .noPlan ∨ h.why = .restart ∨ (h.why = .fence ∧ clean = false)) })
/-- What is recorded of a step whose run ends; one that never began has no attempt behind it (R226, R352). -/
def Ctx.nowEnds (x : Ctx) (r : Run) (failed : Bool) : StepNow :=
  match x.now with
  | some n => if n.step = r.step then { n with attempt := r.attempt, ended := failed }
      else { step := r.step, seed := r.seed, tokens := r.tokens, attempt := r.attempt, ended := failed }
  | none => { step := r.step, seed := r.seed, tokens := r.tokens, attempt := r.attempt, ended := failed }
/-- A queued step or run that never started ends with its final reply. -/
def State.dropQueued (s : State) (c status cause : Nat) : State :=
  match (s.ctx c).queued with
  | some r => (s.onCtx c (fun x => { x with queued := none })).finish r.long status cause
  | none => s
/-- End a run with its final reply. A step that did not complete leaves its step in state 3 (R352), and a step queued behind it, whose number
no longer follows the last one completed, ends with it (R226, entry 26). A step that is complete before its tiles have reached END leaves them
to run on (R236). -/
def State.closeRun (s : State) (c status detail : Nat) : State :=
  match (s.ctx c).run with
  | none => s
  | some r =>
    let beats := s.executed (s.ctx c).part
    let s := if r.kind = .step ∧ status = stOk ∧ r.planDone = false then s else s.planOver c
    let failed := decide (status ≠ stOk)
    let s := s.onCtx c (fun x =>
      let x := if r.kind = .step ∧ r.started ∧ s.clk.cycle ≠ 0 then x.countBeat else x
      let x := { x with run := none, ownStart := none, oldPod := false, now := if r.kind = .step then some (x.nowEnds r failed) else x.now }
      if r.kind = .step ∧ r.started = false then x
      else if r.kind = .step then x.bookStep (if failed then 0 else s.closing) failed
      else if r.kind = .eval then { x with ledger := ledgerUpd x.ledger true (fun l => { l with stop := s.closing, beats := beats, ended := failed }) }
      else x)
    let s := s.finish r.long status detail
    if failed then s.dropQueued c status (detail % 2 ^ 32) else s
/-- End a run that a fault or an abort has ended. -/
def State.closeEnded (s : State) (c : Nat) (e : Ending) : State :=
  s.closeRun c e.status (endDetail e (s.executed (s.ctx c).part))
/-- End everything a context runs at once: a plan that has begun through its ending, a run not begun and a queued one with their replies. -/
def State.killRuns (s : State) (c status cause : Nat) : State :=
  let s := s.dropQueued c status cause
  match (s.ctx c).run with
  | some r => if r.started then (s.endRun c status cause).closeEnded c (((s.ctx c).run.bind Run.ending).getD ⟨status, cause⟩) else s.closeRun c status (cause)
  | none => s
/-- Forget every loaded plan set of a context (R351). -/
def Ctx.freeSets (x : Ctx) : Ctx := { x with sets := [] }

/-! Leases (R334 to R337). -/

/-- Two leases name one resource. -/
def Lease.same (a b : Lease) : Bool := a.res = b.res && a.kind = b.kind && a.idx = b.idx
/-- The controller that grants for home region `r`: itself, or the next in service to the east while it is out (R337). -/
def State.grantorOf (s : State) (r : Nat) : Nat := (s.region r).grantor.getD r
/-- The partner of a region controller (R17). -/
def partner (r : Nat) : Nat := r / 10 * 10 + (r % 10 + 1) % 10
/-- The table that stands for home region `r`, and its partner's copy, changed alike (R337). -/
def State.onLeases (s : State) (r : Nat) (f : List Lease → List Lease) : State :=
  let s := s.onRegion r (fun g => { g with leases := f g.leases })
  s.onRegion (partner r) (fun g => { g with leaseCopy := f g.leaseCopy })
/-- Take a lease for the longest term; 0 granted, 1 held by another, 2 table full (R334, R335). -/
def State.leaseTake (s : State) (l : Lease) : State × Nat :=
  let r := leaseHome l
  let tbl := (s.region r).leases
  if tbl.any (fun x => x.same l && decide (x.holder ≠ l.holder)) then (s, 1)
  else if 256 ≤ (tbl.filter (fun x => !x.same l)).length then (s, 2)
  else
    let e := min l.expiry ((s.clk.beat + 65536) * 4096)
    (s.onLeases r (fun t => t.filter (fun x => !x.same l) ++ [{ l with expiry := e }]), 0)
/-- Give up a lease. -/
def State.leaseDrop (s : State) (l : Lease) : State := s.onLeases (leaseHome l) (fun t => t.filter (fun x => !(x.same l && decide (x.holder = l.holder))))
/-- A lease for the longest term. -/
def State.newLease (s : State) (res kind idx holder ctx : Nat) : Lease := ⟨res, kind, idx, holder, ctx, (s.clk.beat + 65536) * 4096⟩
/-- Abandon a commit in flight (R264): NEWSLOT free again, INF cleared. -/
def State.abandonCommit (s : State) (c parcel : Nat) : State :=
  s.onCtx c (fun x => { x with commits := x.commits.upd {} parcel (fun e => { e with inf := false, newslot := 0 })
                               flight := x.flight.filter (fun f => f.parcel ≠ parcel) })
/-! Tests (R431, R432, R435). -/

/-- The result entry of a unit (*Test result*). -/
def TestUnit.entry (t : TestUnit) (res cls sites stamp pack idx : Nat) : List Byte :=
  leBytes 4 t.unit ++ leBytes 1 res ++ leBytes 1 t.corner ++ leBytes 2 cls ++ leBytes 4 sites ++ leBytes 2 (int16 t.inlet) ++ leBytes 2 t.volt ++
    leBytes 8 stamp ++ leBytes 4 pack ++ leBytes 4 idx
/-- A unit has its result: one Afterglow record carries it. -/
def State.testResult (s : State) (t : TestUnit) (res cls sites passed failed : Nat) : State :=
  let pack := ((s.tr.packs.get none t.slot).map (fun p => p.id * 65536 + p.ver)).getD 0
  let t : TestUnit := if t.running then t else { t with inlet := s.gov.inlet }
  let e := t.entry res cls sites s.now pack s.log.next
  let s := s.logRec 0x30 0 (((s.long.find? (fun l => l.id = t.long)).map Long.ctx).getD 0) 32 e
  { s with tr := { s.tr with tests := s.tr.tests.map (fun u =>
    if u.long = t.long ∧ u.unit = t.unit then { u with running := false, result := some e, passed := passed, failed := failed } else u) } }
/-- A test of a cluster of the region runs. -/
def State.regionTested (s : State) (r : Nat) : Bool := s.tr.tests.any (fun t => t.running && decide (uClass t.unit = 3) && decide (uRegion t.unit = r))
/-- A cluster after its test: reset, zero-filled, with the kept images of its context, the setpoint the table's, and its domain off again if the
test switched it on. -/
def State.reinitCluster (s : State) (r k c : Nat) (powered : Bool) : State :=
  let x := s.ctx c
  let s := { s with tiles := (List.range 16).foldl (fun ts i => ts.upd {} (64 * r + 16 * k + i) (fun t => x.refill (t.reset.zeroFill s.now))) s.tiles }
  let s := s.onRegion r (fun g => { g with vset := Config.voltTable s.clk.m r })
  if powered then s.onRegion r (fun g => { g with cd := if g.cd = .on then .switchingOff else g.cd, cdQueued := false }) else s
/-- A cluster's test stops with RESULT 3. -/
def State.stopTest (s : State) (r k c : Nat) : State :=
  match s.tr.tests.find? (fun t => t.running && decide (t.unit = uidCluster r k)) with
  | some t => (s.reinitCluster r k c t.powered).testResult t 3 0 0 0 0
  | none => s.reinitCluster r k c false
/-- Queued units that `q` picks report RESULT 3. -/
def State.dropTests (s : State) (q : TestUnit → Bool) : State :=
  (s.tr.tests.filter (fun t => q t && !t.running && t.result.isNone)).foldl (fun s t => s.testResult t 3 0 0 0 0) s

/-- Every switch of a context that is under way or waits. -/
def Ctx.allMoves (x : Ctx) : List Switch := x.switch.toList ++ x.moves
/-- The context with the switches that `q` picks given up: the oldest left is the one under way. -/
def Ctx.dropMoves (q : Switch → Bool) (x : Ctx) : Ctx :=
  let ws := x.allMoves.filter (fun w => !q w)
  { x with switch := ws.head?, moves := ws.tail }
/-- What becomes of a resource whose lease ends (*Lease kinds*): 1 the commit is abandoned, 2 the buffer is freed and its contributions go,
3 the move is abandoned and the region returns to standby, 4 the cluster is reset and returned. -/
def State.leaseEnds (s : State) (l : Lease) : State :=
  let s := s.leaseDrop l
  if l.kind = 1 then
    match (s.ctx l.ctx).commits.find? (fun p => p.2.inf && decide (p.2.newslot = l.idx)) with
    | some p => s.abandonCommit l.ctx p.1
    | none => s
  else if l.kind = 2 then
    s.onSc (uSub l.res) (fun c => { c with egress := c.egress.filter (fun b => ¬(b.ctx = l.ctx ∧ b.parcel = l.idx))
                                           owners := c.owners.filter (fun b => ¬(b.ctx = l.ctx ∧ b.parcel = l.idx)) })
  else if l.kind = 3 then
    let r := uRegion l.res
    let s := s.onRegion r (fun g => { g.goTo .standby 0x7F with cd := if g.cd = .on then .switchingOff else g.cd })
    s.onCtx l.ctx (fun x => x.dropMoves (fun w => decide (w.target = r)))
  else
    s.stopTest (uRegion l.res) (l.idx % 4) l.ctx
/-- Reclaim every lease that `q` picks, in every table (R336). -/
def State.reclaim (s : State) (q : Lease → Bool) : State :=
  (s.regions.flatMap (fun p => p.2.leases.filter q)).foldl State.leaseEnds s

end Sys2Proof.Machine
end

