-- ==== Sys2Proof/Machine/Beats.lean ====
section
/-! DEFINITION. Site remaps, boundary slips, beat-stretch orders, holds, anchors and the beat source (spec 01: R11 to R39; spec 07: R173,
R174). -/

namespace Sys2Proof.Machine

/-- The tiles of cluster k whose site changes when the sites in `new` are shadowed too; a tile left without a site counts (R12). -/
def movedTiles (bad new : List Nat) (k : Nat) : List Nat :=
  (List.range 16).filter (fun t => siteOf bad k t ≠ siteOf (bad ++ new) k t)
/-- A cluster's compute is off, fenced or held (R12). -/
def State.stillCluster (s : State) (r k : Nat) : Bool :=
  (s.region r).cd ≠ .on || (s.ctx (s.serves r)).part.held || (List.range 16).all (fun t => (s.tile (64 * r + 16 * k + t)).fenced)
/-- The sites found bad in a cluster are shadowed in force, and a tile whose site changes starts empty on its new site (R11, R12). -/
def State.remapCluster (s : State) (region cluster : Nat) : State :=
  let g := s.region region
  let new := (g.badNext.filter (fun n => decide (n / 20 = cluster))).filter (fun n => !g.bad.contains n)
  let s1 := s.onRegion region (fun g => { g with bad := g.bad ++ new, badNext := g.badNext.filter (fun n => decide (n / 20 ≠ cluster)) })
  (movedTiles g.bad new cluster).foldl (fun s t => s.setTile (64 * region + 16 * cluster + t) { moved := true, scrubEnd := s.now + 8192 }) s1
/-- A run of context c has lost scratchpads or plan banks of tiles in region r. A step that runs cannot finish and is to be redone (R228, R237); of
a plain plan or an evaluation entry 57 says the same. The partition is held until the run has ended. -/
def State.runLoses (s : State) (c r : Nat) : State :=
  if (s.ctx c).run.any (fun x => x.started && x.ending.isNone) then (s.endRun c stFaulted noCause).askHold c (uidRc r) .plan else s
/-- A remap of a cluster would move a tile to another site. -/
def State.remapMoves (s : State) (region cluster : Nat) : Bool :=
  let g := s.region region
  !(movedTiles g.bad ((g.badNext.filter (fun n => decide (n / 20 = cluster))).filter (fun n => !g.bad.contains n)) cluster).isEmpty
/-- The region controller remaps a cluster at the boundary. -/
def doSiteRemap (region cluster : Nat) (s : State) : State :=
  if s.clk.cycle ≠ 0 ∨ s.stillCluster region cluster = false then s
  else (if s.remapMoves region cluster then s.runLoses (s.serves region) region else s).remapCluster region cluster

/-- The route entry words of a router that are valid, with their numbers. -/
def Router.valid (r : Router) : List (Nat × Nat) := r.routes.filter (fun p => bit p.2 63)
/-- PTAG of a route entry. -/
def rePtag (w : Nat) : Nat := bits w 17 8
/-- The contexts with route entries in a region's routers. -/
def State.ptagsIn (s : State) (r : Nat) : List Nat :=
  dedup ((s.routers.filter (fun p => decide (p.1 / 64 = r))).flatMap (fun p => p.2.valid.map (fun e => rePtag e.2)))
/-- The regions whose routers hold entries of a context. -/
def State.routeRegions (s : State) (c : Nat) : List Nat :=
  dedup ((s.routers.filter (fun p => p.2.valid.any (fun e => decide (rePtag e.2 = c)))).map (fun p => p.1 / 64))
/-- The side of a region that faces another, if they are neighbours. -/
def facing (rx tx : Nat) : Option Nat :=
  if tx = rx + 10 then some 0 else if tx = rx + 1 ∧ rx % 10 ≠ 9 then some 1
  else if rx = tx + 10 then some 2 else if rx = tx + 1 ∧ tx % 10 ≠ 9 then some 3 else none
/-- The contexts whose entries take flits from neighbour region tx into rx. -/
def State.crossing (s : State) (rx d : Nat) : List Nat :=
  dedup ((s.routers.filter (fun p => decide (p.1 / 64 = rx) && (tileNext p.1 d).any (fun n => decide (n / 64 ≠ rx)))).flatMap (fun p =>
    (p.2.valid.filter (fun e => decide (bits e.2 33 31 = d) || (decide (bits e.2 22 21 ≠ 0) && decide (bits e.2 30 28 = d)))).map (fun e => rePtag e.2)))
/-- An elastic buffer slips (R24): flits through it are emptied and counted, and every partition whose entries use it takes the fault. -/
def doBoundarySlip (rx tx cyc : Nat) (s : State) : State :=
  let s := s.at cyc
  match facing rx tx with
  | none => s
  | some d =>
    let hit := s.fly.filter (fun f => f.port = d && decide (f.dst / 64 = rx) && (tileNext f.dst d).any (fun n => decide (n / 64 = tx)))
    let cs := s.crossing rx d
    let s := { s with fly := s.fly.filter (fun f => !hit.contains f) }
    let s := hit.foldl (fun s f => s.onRouter f.dst (fun r => { r with discard := r.discard + 1 })) s
    (if cs = [] then [0] else cs).foldl (fun s c => s.report ⟨fcBoundarySlip, uidRc rx, s.stamp cyc, 0, 0, c, [rx, tx]⟩) s

/-- The first boundary at least 1024 cycles after a cycle offset (R25), in beats from now. -/
def reach (cyc : Nat) : Nat := if cyc ≤ 3072 then 1 else 2
/-- Every active and hosting region is ready for setting m (R25, R392). -/
def State.voltReady (s : State) (m : Nat) : Bool :=
  allRegions.all (fun r => let g := s.region r; !(g.st = .active || g.st = .hosting) || g.cd ≠ .on || decide (g.vready ≤ m))
/-- A beat-stretch order reaches the region controllers and rim clock generators (R25). The Keeper's order is on its way; on a module that
follows a beat master the order is the master's (R36). -/
def doStretchOrder (m beat cyc : Nat) (s : State) : State :=
  let s := s.at cyc
  let on (s : State) : State := { s with clk := { s.clk with stretch := s.clk.stretch ++ [(m, max beat (s.clk.beat + reach cyc))] } }
  if m < 64 ∨ 192 < m then s
  else match s.take (fun p => p.msg = .stretch m beat) with
    | some (_, s) => on s
    | none => if s.clk.mode.cable ∧ s.clk.mode.master = false ∧ s.clk.adopted ∧ s.clk.inLost = false then on s else s

/-! Holds (R26 to R28) and beat orders (R173, R174). -/

/-- The schedule of plan beat `pb` in a sequence; 64 where none is active (R172, R173). -/
def schedAt : List Nat → Nat → Nat
  | [], _ => 64
  | w :: ws, pb =>
    let n := bits w 23 0
    let k := if bit w 24 then 64 else bits w 31 26
    if n = 0 ∨ pb < n then k else if bit w 25 then 64 else schedAt ws (pb - n)
/-- The plan beat that beat b would execute next: none before the start order's beat. -/
def Part.nextPlanBeat (p : Part) (b : Nat) : Option Nat :=
  match p.startAt with
  | none => none
  | some a => if b < a then none else if p.begun then some (p.planBeat + 1) else some 0
/-- The order for beat b. -/
def State.orderFor (s : State) (c b : Nat) (exec : Bool) : BeatOrd :=
  let p := (s.ctx c).part
  ⟨c, b, exec, match p.nextPlanBeat b with | some pb => schedAt p.seq pb | none => 64⟩
/-- The stack controllers that hold armed streams or reduction descriptors of a context (R208). -/
def State.scsOf (s : State) (c : Nat) : List Nat :=
  (s.scs.filter (fun p => p.2.slots.any (fun q => decide (q.2.ctx = c) && q.2.live) || p.2.reds.any (fun r => decide (r.ctx = c)))).map Prod.fst
/-- A hold request for a context from a source unit, and why it is made. -/
def WPkt.isHold (ctx src : Nat) (p : WPkt) : Bool := match p.msg with | .hold c u _ => decide (c = ctx ∧ u = src) | _ => false
/-- Why a hold request is made. -/
def WPkt.holdWhy (p : WPkt) : HoldWhy := match p.msg with | .hold _ _ w => w | _ => HoldWhy.forecast
/-- A hold request reaches the lead region controller (R26): by cycle 9FF it holds the next beat, later the one after. One that is outstanding
from the same source for the same reason joins it. -/
def doHoldRequest (ctx src cyc : Nat) (s : State) : State :=
  let s := s.at cyc
  match s.lead ctx with
  | none => s
  | some _ =>
    match s.take (WPkt.isHold ctx src) with
    | none => s
    | some (p, s) =>
      let w := p.holdWhy
      let why := if w = .plan ∧ (s.ctx ctx).run.all (fun r => !r.started) then HoldWhy.forecast else w
      let b := s.clk.beat + (if cyc ≤ 0x9FF then 1 else 2)
      s.onPart ctx (fun x => if x.holds.any (fun h => h.src = src && h.why = why) then x else { x with holds := x.holds ++ [⟨src, why, b⟩] })
/-- The lead region controller decides the next beat at cycle 9FF and sends its beat orders (R26, R28, R174). A forecast's request counts for
one decision. -/
def doHoldDecision (ctx : Nat) (s : State) : State :=
  let s := s.at 0x9FF
  match s.lead ctx with
  | none => s
  | some r =>
    let p := (s.ctx ctx).part
    if p.next ≠ none ∨ (s.region r).rcFenced then s
    else
      let b := s.clk.beat + 1
      let held := isUser ctx && p.holds.any (fun h => decide (h.beat ≤ b))
      let s := s.onPart ctx (fun p => { p with next := some held, holds := p.holds.filter (fun h => h.why ≠ .forecast ∨ b < h.beat) })
      let o := s.orderFor ctx b (!held)
      let rcs := (dedup (s.routeRegions ctx ++ s.working ctx)).map uidRc
      let scs := (s.scsOf ctx).map uidSc
      (rcs ++ scs).foldl (fun s d => s.send (uidRc r) d (.order o)) s
/-- A partition has stayed held beyond its limit with a plan that has not ended (R28, R411). -/
def doHoldTimeout (ctx : Nat) (s : State) : State :=
  let x := s.ctx ctx
  match s.lead ctx with
  | none => s
  | some r =>
    if x.part.held ∧ x.part.limit < x.part.heldBeats ∧ x.part.timedOut = false ∧ x.run.any (fun r => r.started && r.ending.isNone) then
      (s.onPart ctx (fun p => { p with timedOut := true })).report ⟨fcHoldTimeout, uidRc r, s.now, 0, 0, ctx, []⟩
    else s

/-! Across modules (R35 to R39). -/

/-- An anchor at a beat whose number is a multiple of 1024, in PTP mode and where BEAT_IN was lost (R37, R38). -/
def doPtpAnchor (time : Nat) (locked : Bool) (s : State) : State :=
  let k := s.clk
  if k.beat % 1024 = 0 ∧ (k.mode.cable = false ∨ k.inLost) ∧ k.anchors.all (fun a => decide (a.beat ≠ k.beat)) then
    { s with clk := { k with anchors := k.anchors ++ [⟨k.beat, time, !locked⟩] } }
  else s
/-- BEAT_IN is lost on a module in cable mode that is no master (R38). -/
def doBeatInLost (s : State) : State :=
  if s.clk.mode.cable ∧ s.clk.mode.master = false ∧ s.clk.inLost = false then
    ({ s with clk := { s.clk with inLost := true } }).beatEvent 1 s.clk.beat s.clk.beat
  else s

/-! Records of several modules merged (R35 to R37). Host tools that merge are held to these rules too (R33). -/

/-- A record as a merge sees it: pod position and region index of its module's unit, stamp, unit ID, the unit's own record sequence. -/
structure PodRec where
  pos : Nat
  stamp : Nat
  region : Nat
  unit : Nat
  seq : Nat
  deriving DecidableEq, Repr

/-- What records are sorted on in beat-sync cable mode: beat, cycle, pod position, region index, unit ID, sequence. -/
def PodRec.key (r : PodRec) : List Nat := [r.stamp / 4096, r.stamp % 4096, r.pos, r.region, r.unit, r.seq]
/-- One key sorts before another. -/
def keyBefore : List Nat → List Nat → Bool
  | [], _ => false
  | _, [] => false
  | a :: as, b :: bs => decide (a < b) || (decide (a = b) && keyBefore as bs)
/-- Does the order of two modules' records carry the uncertainty flag in cable mode: within 32 cycles, or always where a module has declared no
input delay (R36)? -/
def podUncertain (ma mb : BeatModeV) (a b : PodRec) : Bool :=
  decide (a.pos ≠ b.pos) && (ma.delay.isNone || mb.delay.isNone || (decide (a.stamp ≤ b.stamp + 32) && decide (b.stamp ≤ a.stamp + 32)))
/-- The time in ns of a stamp between two anchors, by linear interpolation, and whether an anchor without lock flags it (R37). -/
def between (a b : Anchor) (stamp : Nat) : Int × Bool :=
  ((a.time : Int) + ((b.time : Int) - a.time) * (stamp - 4096 * a.beat : Nat) / ((4096 * (b.beat - a.beat) : Nat) : Int), a.unsync || b.unsync)
/-- The time of a stamp by a module's anchors, oldest first; none beyond them. -/
def anchorTime (stamp : Nat) : List Anchor → Option (Int × Bool)
  | a :: b :: as => if 4096 * a.beat ≤ stamp ∧ stamp < 4096 * b.beat then some (between a b stamp) else anchorTime stamp (b :: as)
  | _ => none
/-- Does the order of two records converted to PTP time carry the flag: within 100 ns, or through an anchor without lock (R35, R37)? -/
def ptpUncertain (a b : Int × Bool) : Bool := a.2 || b.2 || (decide (a.1 ≤ b.1 + 100) && decide (b.1 ≤ a.1 + 100))

/-! The meanings: one per command, each a frame around its effect. -/

/-- SITE_REMAP (R12). -/
def execSiteRemap (region cluster : Nat) (s : State) : Out :=
  guarded "SITE_REMAP" (.siteRemap region cluster) s (doSiteRemap region cluster)
/-- BOUNDARY_SLIP (R24). -/
def execBoundarySlip (rx tx cyc : Nat) (s : State) : Out :=
  guarded "BOUNDARY_SLIP" (.boundarySlip rx tx cyc) s (doBoundarySlip rx tx cyc)
/-- STRETCH_ORDER (R25). -/
def execStretchOrder (m beat cyc : Nat) (s : State) : Out :=
  guarded "STRETCH_ORDER" (.stretchOrder m beat cyc) s (doStretchOrder m beat cyc)
/-- HOLD_REQUEST (R26). -/
def execHoldRequest (ctx src cyc : Nat) (s : State) : Out :=
  guarded "HOLD_REQUEST" (.holdRequest ctx src cyc) s (doHoldRequest ctx src cyc)
/-- HOLD_DECISION (R26). -/
def execHoldDecision (ctx : Nat) (s : State) : Out :=
  guarded "HOLD_DECISION" (.holdDecision ctx) s (doHoldDecision ctx)
/-- HOLD_TIMEOUT (R28). -/
def execHoldTimeout (ctx : Nat) (s : State) : Out :=
  guarded "HOLD_TIMEOUT" (.holdTimeout ctx) s (doHoldTimeout ctx)
/-- PTP_ANCHOR (R37). -/
def execPtpAnchor (time : Nat) (locked : Bool) (s : State) : Out :=
  guarded "PTP_ANCHOR" (.ptpAnchor time locked) s (doPtpAnchor time locked)
/-- BEAT_IN_LOST (R38). -/
def execBeatInLost (s : State) : Out :=
  guarded "BEAT_IN_LOST" (.beatInLost) s (doBeatInLost)

end Sys2Proof.Machine
end

