-- ==== Sys2Proof/Machine/Sha.lean ====
section
/-! DEFINITION. SHA-384 (FIPS 180-4), which the spec names for digests and signatures (spec 10, 11, 14, 18, 19). -/

namespace Sys2Proof.Machine

/-- 64-bit words of a number of n words, the highest first. -/
def wordsOf (n v : Nat) : List Nat := (List.range n).map (fun i => v / 2 ^ (64 * (n - 1 - i)) % 2 ^ 64)
/-- The first 64 fraction bits of the cube roots of the first 80 primes (FIPS 180-4), five of them in each number. -/
def shaRoots : List Nat :=
  [0x428a2f98d728ae227137449123ef65cdb5c0fbcfec4d3b2fe9b5dba58189dbbc3956c25bf348b538,
   0x59f111f1b605d019923f82a4af194f9bab1c5ed5da6d8118d807aa98a303024212835b0145706fbe,
   0x243185be4ee4b28c550c7dc3d5ffb4e272be5d74f27b896f80deb1fe3b1696b19bdc06a725c71235,
   0xc19bf174cf692694e49b69c19ef14ad2efbe4786384f25e30fc19dc68b8cd5b5240ca1cc77ac9c65,
   0x2de92c6f592b02754a7484aa6ea6e4835cb0a9dcbd41fbd476f988da831153b5983e5152ee66dfab,
   0xa831c66d2db43210b00327c898fb213fbf597fc7beef0ee4c6e00bf33da88fc2d5a79147930aa725,
   0x06ca6351e003826f142929670a0e6e7027b70a8546d22ffc2e1b21385c26c9264d2c6dfc5ac42aed,
   0x53380d139d95b3df650a73548baf63de766a0abb3c77b2a881c2c92e47edaee692722c851482353b,
   0xa2bfe8a14cf10364a81a664bbc423001c24b8b70d0f89791c76c51a30654be30d192e819d6ef5218,
   0xd69906245565a910f40e35855771202a106aa07032bbd1b819a4c116b8d2d0c81e376c085141ab53,
   0x2748774cdf8eeb9934b0bcb5e19b48a8391c0cb3c5c95a634ed8aa4ae3418acb5b9cca4f7763e373,
   0x682e6ff3d6b2b8a3748f82ee5defb2fc78a5636f43172f6084c87814a1f0ab728cc702081a6439ec,
   0x90befffa23631e28a4506cebde82bde9bef9a3f7b2c67915c67178f2e372532bca273eceea26619c,
   0xd186b8c721c0c207eada7dd6cde0eb1ef57d4f7fee6ed17806f067aa72176fba0a637dc5a2c898a6,
   0x113f9804bef90dae1b710b35131c471b28db77f523047d8432caab7b40c724933c9ebe0a15c9bebc,
   0x431d67c49c100d4c4cc5d4becb3e42b6597f299cfc657e2a5fcb6fab3ad6faec6c44198c4a475817]
/-- The round constants, in order. -/
def shaK : List Nat := shaRoots.flatMap (wordsOf 5)
/-- The two register lines before the first block: a to d, and e to h. -/
def shaInit : List Nat × List Nat :=
  (wordsOf 4 0xcbbb9d5dc1059ed8629a292a367cd5079159015a3070dd17152fecd8f70e5939,
   wordsOf 4 0x67332667ffc00b318eb44a8768581511db0c2e0d64f98fa747b5481dbefa4fa4)
/-- A number of big-endian bytes. -/
def ofBE (b : List Byte) : Nat := b.foldl (fun a x => 256 * a + x.toNat) 0
/-- The n big-endian bytes of a number. -/
def beBytes (n v : Nat) : List Byte := (leBytes n v).reverse
/-- Rotation to the right in 64 bits. -/
def ror64 (x n : Nat) : Nat := x / 2 ^ n + x % 2 ^ n * 2 ^ (64 - n)
/-- Padding to whole 1024-bit blocks. -/
def shaPad (m : List Byte) : List Byte :=
  m ++ [0x80#8] ++ List.replicate ((239 - m.length % 128) % 128) 0#8 ++ beBytes 16 (8 * m.length)
/-- A word rotated by each of some distances, and an offset, combined bit by bit: the sigma functions of the standard. -/
def shaSigma (rots : List Nat) (off x : Nat) : Nat := rots.foldl (fun a n => a ^^^ ror64 x n) off
/-- The word that follows 16 words of the message schedule, the newest of which stands first. -/
def shaNext (w : List Nat) : Nat :=
  let near := w.getD 1 0
  let far := w.getD 14 0
  (w.getD 15 0 + shaSigma [1, 8] (far / 128) far + w.getD 6 0 + shaSigma [19, 61] (near / 64) near) % 2 ^ 64
/-- Words of a schedule added in front, n times. -/
def shaExtend (n : Nat) (w : List Nat) : List Nat := n.repeat (fun w => shaNext w :: w) w
/-- Bits of y where x is 1, of z where it is 0. -/
def shaChoose (x y z : Nat) : Nat := z ^^^ (x &&& (y ^^^ z))
/-- The bit that most of three words have. -/
def shaMost (x y z : Nat) : Nat := (x &&& y) ||| (z &&& (x ||| y))
/-- One round: the last word of each line is used up and a new one enters in front. -/
def shaRound (l : List Nat × List Nat) (add : Nat) : List Nat × List Nat :=
  let at4 (q : List Nat) (i : Nat) : Nat := q.getD i 0
  let low := at4 l.2 3 + add + shaSigma [14, 18, 41] 0 (at4 l.2 0) + shaChoose (at4 l.2 0) (at4 l.2 1) (at4 l.2 2)
  let high := shaSigma [28, 34, 39] 0 (at4 l.1 0) + shaMost (at4 l.1 0) (at4 l.1 1) (at4 l.1 2)
  ((low + high) % 2 ^ 64 :: l.1.take 3, (at4 l.1 3 + low) % 2 ^ 64 :: l.2.take 3)
/-- Two lines added word by word. -/
def shaPlus (a b : List Nat) : List Nat := List.zipWith (fun x y => (x + y) % 2 ^ 64) a b
/-- One block of 128 bytes. -/
def shaBlock (h : List Nat × List Nat) (b : List Byte) : List Nat × List Nat :=
  let w := (shaExtend 64 (wordsOf 16 (ofBE (b.take 128))).reverse).reverse
  let r := (List.zipWith (· + ·) shaK w).foldl shaRound h
  (shaPlus h.1 r.1, shaPlus h.2 r.2)
/-- Blocks one after the other. -/
def shaBlocks (h : List Nat × List Nat) (b : List Byte) : Nat → List Nat × List Nat
  | 0 => h
  | n + 1 => shaBlocks (shaBlock h b) (b.drop 128) n
/-- SHA-384 of a byte string: 48 bytes. -/
def sha384 (m : List Byte) : List Byte :=
  let p := shaPad m
  let h := shaBlocks shaInit p (p.length / 128)
  (h.1 ++ h.2.take 2).flatMap (beBytes 8)
/-- Bits 383:320 of a SHA-384 digest as a number. -/
def sha64 (m : List Byte) : Nat := ofBE ((sha384 m).take 8)

end Sys2Proof.Machine
end

