-- ==== Sys2Proof/Machine/Moves.lean ====
section
/-! DEFINITION. Shared operations of recovery: the defect map's field part, shadowing, moves of a region's work, module-wide compute shutdown
(spec 01: R13 to R17; spec 15: R370 to R373, R383; spec 16: R395 to R399; spec 17: R415, R421). -/

namespace Sys2Proof.Machine

/-! The defect map (R370 to R372). -/

/-- The 32 bytes of an entry. -/
def Defect.bytes (d : Defect) : List Byte :=
  leBytes 4 d.unit ++ leBytes 1 d.kind ++ leBytes 1 d.source ++ leBytes 2 d.cls ++ leBytes 4 d.index ++ leBytes 4 0 ++ leBytes 8 d.stamp ++
    leBytes 4 d.counter ++ leBytes 4 0
/-- An entry from its bytes. -/
def Defect.ofBytes (b : List Byte) : Defect :=
  let f (o n : Nat) : Nat := ofLE ((b.drop o).take n)
  ⟨f 0 4, f 4 1, f 5 1, f 6 2, f 8 4, f 16 8, f 24 4⟩
/-- The 128 bytes of a refinement record. -/
def Refine.bytes (r : Refine) : List Byte := r.e.bytes ++ fitBytes 96 r.sig
/-- The entries of the factory part. -/
def Trust.factoryEntries (t : Trust) : List Defect :=
  (List.range (ofLE ((t.factory.drop 8).take 4))).map (fun i => Defect.ofBytes ((t.factory.drop (16 + 32 * i)).take 32))
/-- The digest a new record is chained to. -/
def Trust.chainDigest (t : Trust) : List Byte :=
  match t.refine.getLast? with
  | some r => sha384 r.bytes
  | none => sha384 t.factory
/-- The module's signature over a digest, as 96 bytes. -/
def Trust.sign (t : Trust) (digest : List Byte) : List Byte :=
  let r := Config.moduleSign (ofBE t.idKey) (ofBE digest)
  beBytes 48 r.1 ++ beBytes 48 r.2
/-- The records that form a valid chain from digest `d` and counter `n` on (R371): each signed over its entry and the digest before it, with a
COUNTER above the one before. -/
def Trust.chain (t : Trust) (d : List Byte) (n : Nat) : List Refine → List Refine
  | [] => []
  | r :: rs => if n < r.e.counter ∧ r.sig = t.sign (sha384 (r.e.bytes ++ d)) then r :: t.chain (sha384 r.bytes) r.e.counter rs else []
/-- The valid refinement records. -/
def Trust.valid (t : Trust) : List Refine := t.chain (sha384 t.factory) 0 t.refine
/-- Every entry in force: factory part, valid refinement, and the findings of this boot alone. -/
def Trust.defects (t : Trust) : List Defect := t.factoryEntries ++ t.valid.map Refine.e ++ t.findings
/-- The map in force holds a finding already (R371). -/
def Trust.listed (t : Trust) (unit kind index : Nat) : Bool := t.defects.any (fun d => d.unit = unit && d.kind = kind && (kind ≠ 3 || d.index = index))
/-- Append a finding to the refinement, signed and chained, with the counter advanced; a full refinement keeps it for this boot alone. -/
def State.addDefect (s : State) (unit kind source cls index : Nat) : State :=
  let t := s.tr
  if t.listed unit kind index then s
  else if t.refine.length < 8192 then
    let e : Defect := ⟨unit, kind, source, cls, index, s.now, t.counter + 1⟩
    let r : Refine := ⟨e, t.sign (sha384 (e.bytes ++ t.chainDigest))⟩
    { s with tr := { t with refine := t.refine ++ [r], counter := t.counter + 1 } }
  else
    let e : Defect := ⟨unit, kind, source, cls, index, s.now, t.counter⟩
    let s := { s with tr := { t with findings := t.findings ++ [e] } }
    let s := s.logRec 0x50 0 0xFFFF 32 e.bytes
    if t.fullRaised then s else { s with tr := { s.tr with fullRaised := true } }.keeperFault fcDefectMapFull uidKeeper 0 0 []
/-- A site found bad: it is listed, and the next remap of its cluster shadows it (R415, R371). -/
def State.shadowSite (s : State) (r k site source cls : Nat) : State :=
  let s := s.addDefect (uidSite r k site) 1 source cls 0
  s.onRegion r (fun g => { g with badNext := if g.badNext.contains (20 * k + site) ∨ g.bad.contains (20 * k + site) then g.badNext else g.badNext ++ [20 * k + site] })

/-! Compute domains (R383). -/

/-- The domain goes off at the next boundary. -/
def Region.turnOff (g : Region) : Region := { g with cd := if g.cd = .on then .switchingOff else g.cd, cdQueued := false }
/-- A switch-on is ordered. -/
def Region.turnOn (g : Region) : Region := if g.cd = .on then g else { g with cdQueued := true }

/-! Moves (R17, R395, R396, R415). -/

/-- The highest sensor of a region. -/
def Region.tmax (g : Region) : Int := max (max g.sample.t0 g.sample.t1) (max g.sample.t2 g.sample.t3)
/-- The substitute plans that the loaded plan sets of a context hold for a region. -/
def Ctx.subsFor (x : Ctx) (r : Nat) : List SubPlan := x.sets.flatMap (fun p => (p.2.map (fun q => q.subs.filter (fun u => u.region = r))).getD [])
/-- The number that stands for no region in a target: the plan runs without the region. -/
def noRegion : Nat := 0x7F
/-- The work of region r can go to standby region t: it is in standby, a substitute plan for it is loaded, `ok` holds, no lease is on it. -/
def State.canHost (s : State) (r t : Nat) (ok : Nat → Bool) : Bool :=
  decide ((s.region t).st = .standby) && decide ((s.region t).next = none) && ((s.ctx (s.serves r)).subsFor (workOf (s.region r) r)).any (fun u => u.target = t) && ok t && !(s.region t).rcFenced &&
    !(s.region t).leases.any (fun l => l.kind = 3 && l.idx = t)
/-- A move is ordered for the next beat, behind those of the context under way: the lead region controller tells the region controllers that
carry the partition (R176). -/
def State.orderSwitch (s : State) (c r target : Nat) : State :=
  let b := s.clk.beat + 1
  let s := s.onCtx c (fun x => if x.switch.isNone then { x with switch := some ⟨r, target, b⟩ } else { x with moves := x.moves ++ [⟨r, target, b⟩] })
  match s.lead c with
  | some l => (dedup (s.routeRegions c ++ s.working c)).foldl (fun s q => s.send (uidRc l) (uidRc q) (.routeSwitch c r target b)) s
  | none => s
/-- Move the work of region r: to the first standby region that can take it, under a lease of kind 3 with its compute switched on; else, if
`without` allows, to a plan without the region. The flag says that a move is under way. -/
def State.moveWork (s : State) (r : Nat) (ok : Nat → Bool) (without : Bool) : State × Bool :=
  let c := s.serves r
  match allRegions.find? (fun t => s.canHost r t ok && decide ((s.leaseTake (s.newLease (uidComp t) 3 t (uidRc r) c)).2 = 0)) with
  | some t =>
    let s := (s.leaseTake (s.newLease (uidComp t) 3 t (uidRc r) c)).1
    ((s.onRegion t Region.turnOn).orderSwitch c r t, true)
  | none =>
    if without ∧ ((s.ctx c).subsFor (workOf (s.region r) r)).any (fun u => u.target = noRegion) then (s.orderSwitch c r noRegion, true)
    else (s, false)
/-- The work of region r is being moved already. -/
def Ctx.moving (x : Ctx) (r : Nat) : Bool := x.allMoves.any (fun w => decide (w.region = r))
/-- Move a region's work after a fault, or hold its partition for want of a plan (R17). The record's UNIT is the region's controller (entry 51). -/
def State.moveOrHold (s : State) (r cause : Nat) : State :=
  let c := s.serves r
  if isUser c = false ∨ (s.ctx c).moving r then s
  else
    let m := s.moveWork r (fun _ => true) true
    if m.2 then m.1 else m.1.keeperFault fcNoSubstitutePlan (uidRc r) c 0 [workOf (s.region r) r, cause]

/-- The moves to region t: their contexts and the regions that give their work away. -/
def State.movesTo (s : State) (t : Nat) : List (Nat × Nat) :=
  s.ctxs.flatMap (fun p => (p.2.allMoves.filter (fun w => decide (w.target = t))).map (fun w => (p.1, w.region)))
/-- The work of a region cannot stay there: its compute is off, or a logical tile has no site. -/
def State.mustMove (s : State) (r : Nat) : Bool :=
  let g := s.region r
  decide (g.cd ≠ .on) || (List.range 4).any (shadowedIn (g.bad ++ g.badNext))
/-- Moves whose standby region was lost try the next candidate (R402, R428). -/
def State.tryNext (s : State) (ms : List (Nat × Nat)) : State :=
  ms.foldl (fun s p => if s.serves p.2 = p.1 ∧ s.mustMove p.2 then s.moveOrHold p.2 (((s.ctx p.1).part.first.bind First.idx).getD noCause) else s) s

/-! Whole-module shutdown of compute (R399, R401). -/

/-- Every compute domain goes off at the next boundary; active and hosting regions enter heat-off and keep PEER; every run ends. -/
def State.shutdown (s : State) (cls : Nat) (det : List Nat) : State :=
  let idx := s.log.next
  let s := s.keeperFault cls uidKeeper 0 0 det
  let s := allRegions.foldl (fun s r => s.onRegion r (fun g => (if g.st = .active ∨ g.st = .hosting then { g.goTo .heatOff g.peer with heatTrip := false } else g).turnOff)) s
  let s := s.ctxs.foldl (fun s p => ((s.endRun p.1 stFaulted idx).firstFault p.1 idx s.now).askHold p.1 uidKeeper .plan) s
  { s with gov := { s.gov with coolOff := true } }

/-! Transit loss and revoked regions (R330, R421). -/

/-- The route entries of a plan set, its substitute plans' with them (R176); one with V = 0 is inert (R171). -/
def PlanSet.allRoutes (q : PlanSet) : List (Nat × Nat) := (q.routes ++ q.subs.flatMap SubPlan.routes).filter (fun e => bit e.2 63)
/-- A context's plan sets with route entries in a region become unusable (R421). -/
def Ctx.spoilSets (x : Ctx) (r : Nat) : Ctx := { x with sets := x.sets.mapV none (fun _ p => p.map (fun q => if q.allRoutes.any (fun e => e.1 / 64 = r) then { q with ok := false } else q)) }
/-- Every partition with route entries in the region is held and its run ends (reactions C and X). -/
def State.stopCrossing (s : State) (r cause : Nat) : State := (s.ptagsIn r).foldl (fun s c => ((s.endRun c stFaulted cause).firstFault c cause s.now).askHold c (uidRc r) .plan) s
/-- Clear the route entries of a context by tag. -/
def State.dropTag (s : State) (c : Nat) : State :=
  { s with routers := s.routers.mapV {} (fun _ x => { x with routes := x.routes.filter (fun e => ¬(bit e.2 63 = true ∧ rePtag e.2 = c)) }) }
/-- Free every plan set of a context (R351). -/
def State.freeAllSets (s : State) (c : Nat) : State := (s.dropTag c).onCtx c Ctx.freeSets
/-- A region leaves its context: its partition's plan ends ABORTED, all route entries of the context are cleared by tag, and the region's
tiles are reset and zero-filled (R330). -/
def State.revokeRegion (s : State) (r : Nat) : State :=
  let c := (s.region r).ctx
  if isUser c = false then s
  else
    let s := s.killRuns c stAborted noCause
    let s := s.freeAllSets c
    let s := (s.dropReds c).onPart c (fun p => { p with seq := [], startAt := none, begun := false })
    (s.onTiles [r] (fun t => t.reset.zeroFill s.now)).onRegion r (fun g => { g with ctx := 0 })
/-- TRANSIT_LOST (R421): plans through the region are unusable, its context loses it, and from the next boundary it is in transit-lost state
(R14). -/
def State.transitLost (s : State) (r : Nat) : State :=
  if (s.region r).gone then s
  else
    let idx := s.log.next
    let s := s.keeperFault fcTransitLost (uidTransit r) (s.serves r) 0 []
    let s := s.stopCrossing r idx
    let s := { s with ctxs := s.ctxs.mapV {} (fun _ x => x.spoilSets r) }
    let s := s.revokeRegion r
    s.onRegion r (fun g => { g.turnOff with next := some (.transitLost, noRegion), rcFenced := true })

end Sys2Proof.Machine
end

