-- ==== Sys2Proof/Machine/Ecdsa.lean ====
section
/-! DEFINITION. ECDSA verification on brainpoolP384r1 with SHA-384 (spec 00, 19). The spec names the curve; its constants are PRESUMED from
RFC 5639, entry 13. -/

namespace Sys2Proof.Machine

/-- The field prime. -/
def ecP : Nat := 0x8CB91E82A3386D280F5D6F7E50E641DF152F7109ED5456B412B1DA197FB71123ACD3A729901D1A71874700133107EC53
/-- Coefficient A. -/
def ecA : Nat := 0x7BC382C63D8C150C3C72080ACE05AFA0C2BEA28E4FB22787139165EFBA91F90F8AA5814A503AD4EB04A8C7DD22CE2826
/-- Coefficient B. -/
def ecB : Nat := 0x04A8C7DD22CE28268B39B55416F0447C2FB77DE107DCD2A62E880EA53EEB62D57CB4390295DBC9943AB78696FA504C11
/-- The base point. -/
def ecGx : Nat := 0x1D1C64F068CF45FFA2A63A81B7C13F6B8847A3E77EF14FE3DB7FCAFE0CBD10E8E826E03436D646AAEF87B2E247D4AF1E
/-- Its y coordinate. -/
def ecGy : Nat := 0x8ABE1D7520F9C2A45CB1EB8E95CFD55262B70B29FEEC5864E19C054FF99129280E4646217791811142820341263C5315
/-- The order of the base point. -/
def ecN : Nat := 0x8CB91E82A3386D280F5D6F7E50E641DF152F7109ED5456B31F166E6CAC0425A7CF3AB6AF6B7FC3103B883202E9046565

/-- b^e mod m by squaring, over the low `n` bits of e. -/
def powMod (m b : Nat) : Nat → Nat → Nat
  | _, 0 => 1
  | e, n + 1 => let h := powMod m (b * b % m) (e / 2) n; if e % 2 = 1 then b * h % m else h
/-- The inverse modulo a prime below 2^384. -/
def invMod (m a : Nat) : Nat := powMod m (a % m) (m - 2) 384
/-- a - b modulo the field prime. -/
def fsub (a b : Nat) : Nat := (a + ecP - b) % ecP

/-- A point in Jacobian coordinates: x/z^2, y/z^3; z = 0 is the point at infinity. -/
structure Pt where
  x : Nat
  y : Nat
  z : Nat
  deriving DecidableEq, Repr

/-- The double of a point. -/
def Pt.dbl (p : Pt) : Pt :=
  let yy := p.y * p.y % ecP
  let s := 4 * p.x * yy % ecP
  let zz := p.z * p.z % ecP
  let m := (3 * p.x * p.x + ecA * (zz * zz % ecP)) % ecP
  let x := fsub (m * m % ecP) (2 * s % ecP)
  ⟨x, fsub (m * fsub s x % ecP) (8 * (yy * yy % ecP) % ecP), 2 * p.y * p.z % ecP⟩
/-- The sum of two points. -/
def Pt.add (p q : Pt) : Pt :=
  if p.z = 0 then q
  else if q.z = 0 then p
  else
    let pz := p.z * p.z % ecP
    let qz := q.z * q.z % ecP
    let u1 := p.x * qz % ecP
    let u2 := q.x * pz % ecP
    let s1 := p.y * (qz * q.z % ecP) % ecP
    let s2 := q.y * (pz * p.z % ecP) % ecP
    if u1 = u2 then (if s1 = s2 then p.dbl else ⟨1, 1, 0⟩)
    else
      let h := fsub u2 u1
      let r := fsub s2 s1
      let hh := h * h % ecP
      let hhh := h * hh % ecP
      let v := u1 * hh % ecP
      let x := fsub (fsub (r * r % ecP) hhh) (2 * v % ecP)
      ⟨x, fsub (r * fsub v x % ecP) (s1 * hhh % ecP), h * (p.z * q.z % ecP) % ecP⟩
/-- a P + b Q over the low n bits of a and b, most significant first. -/
def Pt.mulAdd (p q pq : Pt) (a b : Nat) : Nat → Pt
  | 0 => ⟨1, 1, 0⟩
  | n + 1 =>
    let r := (Pt.mulAdd p q pq (a / 2) (b / 2) n).dbl
    if a % 2 = 1 then (if b % 2 = 1 then r.add pq else r.add p) else (if b % 2 = 1 then r.add q else r)
/-- A point on the curve with coordinates below the prime. -/
def onCurve (x y : Nat) : Bool := decide (x < ecP) && decide (y < ecP) && decide (y * y % ecP = (x * x * x + ecA * x + ecB) % ecP)
/-- The coordinates of a 97-byte key: 04, x, y, big-endian. -/
def keyPoint (key : List Byte) : Option (Nat × Nat) :=
  if key.length = 97 ∧ key.headD 0 = 4#8 then some (ofBE ((key.drop 1).take 48), ofBE ((key.drop 49).take 48)) else none
/-- A key that names a point of the curve. -/
def keyOk (key : List Byte) : Bool := (keyPoint key).any (fun p => onCurve p.1 p.2)
/-- The affine coordinates of a point; none at infinity. -/
def Pt.affine (p : Pt) : Option (Nat × Nat) :=
  if p.z = 0 then none
  else
    let i := invMod ecP p.z
    let ii := i * i % ecP
    some (p.x * ii % ecP, p.y * (ii * i % ecP) % ecP)
/-- A multiple of a point. -/
def Pt.times (p : Pt) (k : Nat) : Pt := Pt.mulAdd p ⟨1, 1, 0⟩ p k 0 384
/-- The 97 bytes of a public key by its private key; zeros for the private key 0. -/
def keyOf (d : Nat) : List Byte :=
  match (Pt.times ⟨ecGx, ecGy, 1⟩ d).affine with
  | some q => 4#8 :: (beBytes 48 q.1 ++ beBytes 48 q.2)
  | none => List.replicate 97 0#8
/-- The 48 bytes of the x-coordinate that a private and a public key share (ECDH); none for a key that names no point of the curve. -/
def sharedX (d : Nat) (key : List Byte) : Option (List Byte) :=
  ((keyPoint key).filter (fun q => onCurve q.1 q.2)).bind (fun q => ((Pt.times ⟨q.1, q.2, 1⟩ d).affine).map (fun a => beBytes 48 a.1))
/-- A 96-byte signature over a digest verifies under a key. -/
def verifyDigest (key digest sig : List Byte) : Bool :=
  match keyPoint key with
  | none => false
  | some k =>
    let r := ofBE (sig.take 48)
    let t := ofBE ((sig.drop 48).take 48)
    if sig.length ≠ 96 ∨ onCurve k.1 k.2 = false ∨ r = 0 ∨ ecN ≤ r ∨ t = 0 ∨ ecN ≤ t then false
    else
      let w := invMod ecN t
      let g : Pt := ⟨ecGx, ecGy, 1⟩
      let q : Pt := ⟨k.1, k.2, 1⟩
      let v := Pt.mulAdd g q (g.add q) (ofBE digest * w % ecN) (r * w % ecN) 384
      v.affine.any (fun a => decide (a.1 % ecN = r))
/-- A signature over bytes verifies under a key. -/
def verify (key msg sig : List Byte) : Bool := verifyDigest key (sha384 msg) sig

end Sys2Proof.Machine
end

