-- ==== Sys2Proof/Machine/TrustOps.lean ====
section
/-! DEFINITION. Context records and grants, officer statements and signatures, digests of the trust state (spec 13: R323 to R326; spec 19:
R446 to R451). -/

namespace Sys2Proof.Machine

/-! Context records (R323). -/

/-- Store pages an extent holds. -/
def State.storePages (s : State) (e : Nat) (x : ExtEnt) : Nat := ((List.range x.pages).filter (fun l => !pgFar (s.pageEnt e x l))).length
/-- Every extent with its entry. -/
def State.extents (s : State) : List (Nat × ExtEnt) :=
  s.scs.flatMap (fun q => q.2.ext.filterMap (fun p => (s.ext (2048 * q.1 + p.1)).map (fun e => (2048 * q.1 + p.1, e))))
/-- Store pages a context holds. -/
def State.pagesHeld (s : State) (c : Nat) : Nat :=
  (s.extents.filter (fun p => p.2.ctx = c)).foldl (fun a p => a + s.storePages p.1 p.2) 0
/-- Stream slots a context holds. -/
def State.slotsHeld (s : State) (c : Nat) : Nat :=
  s.scs.foldl (fun a q => if q.2.serving then a + ((List.range 64).filter (fun n => (q.2.slots.get {} n).ctx = c)).length else a) 0
/-- Word 0 as it is read: V, permissions, STATE and GEN. -/
def Ctx.word0 (x : Ctx) : Nat := x.w0.toNat - fld (x.w0.toNat >>> 60) 3 60 - x.w0.toNat % 2 ^ 32 + fld x.st.code 3 60 + x.gen.toNat
/-- A set of regions as a mask of bits 0 to 79. -/
def maskOf (rs : List Nat) : Nat := rs.foldl (fun a r => a ||| 2 ^ r) 0
/-- The 64 bytes of context c's record. -/
def State.ctxRecord (s : State) (c : Nat) : List Byte :=
  let x := s.ctx c
  let m := maskOf (s.bound c)
  leBytes 8 x.word0 ++ leBytes 8 x.w1.toNat ++ leBytes 8 x.w2.toNat ++ leBytes 8 x.w3.toNat ++
    leBytes 8 (fld (b2n x.gblk.isSome) 1 63 + fld (x.gblk.getD 0) 5 58 + fld (s.pagesHeld c) 20 38 + fld (s.slotsHeld c) 11 27) ++
    leBytes 8 (m % 2 ^ 64) ++ leBytes 8 (fld (m / 2 ^ 64) 16 48) ++ leBytes 8 0
/-- REGMASK bit of region r. -/
def Ctx.mayHold (x : Ctx) (r : Nat) : Bool := if r < 64 then bit x.w1.toNat r else bit x.w2.toNat (48 + r - 64)
/-- V. -/
def Ctx.granted (x : Ctx) : Bool := bit x.w0.toNat 63
/-- EXPORT. -/
def Ctx.export_ (x : Ctx) : Bool := bit x.w0.toNat 56
/-- IMPORT. -/
def Ctx.import_ (x : Ctx) : Bool := bit x.w0.toNat 55
/-- HOSTASSIST. -/
def Ctx.hostAssist (x : Ctx) : Bool := bit x.w0.toNat 54
/-- FARPG. -/
def Ctx.farPg (x : Ctx) : Bool := bit x.w0.toNat 53
/-- TRACE. -/
def Ctx.trace_ (x : Ctx) : Bool := bit x.w0.toNat 52
/-- PAGEQ. -/
def Ctx.pageQ (x : Ctx) : Nat := bits x.w2.toNat 47 28
/-- SLOTQ. -/
def Ctx.slotQ (x : Ctx) : Nat := bits x.w2.toNat 27 17
/-- GQ. -/
def Ctx.gq (x : Ctx) : Bool := bit x.w2.toNat 16
/-- The protection-table digest (R324). -/
def State.protDigest (s : State) : List Byte :=
  sha384 ((List.range 1024).flatMap (fun c =>
    let x := s.ctx c
    leBytes 8 (x.word0 - fld x.st.code 3 60) ++ leBytes 8 x.w1.toNat ++ leBytes 8 x.w2.toNat ++ leBytes 8 x.w3.toNat))

/-! Widening (R326). -/

/-- A bit set in b and not in a. -/
def setsBit (a b : Nat) : Bool := decide (a ||| b ≠ a)
/-- The grant of a record, as R326 compares it. -/
structure Grant where
  w0 : Nat
  w1 : Nat
  w2 : Nat
  w3 : Nat
  deriving DecidableEq, Repr
/-- A change from one grant to another is widening. -/
def widening (a b : Grant) : Bool :=
  setsBit (bits a.w0 63 63) (bits b.w0 63 63) || setsBit (bits a.w0 56 52) (bits b.w0 56 52) || decide (bits a.w0 59 57 < bits b.w0 59 57) ||
    setsBit a.w1 b.w1 || setsBit (bits a.w2 63 48) (bits b.w2 63 48) || decide (bits a.w2 47 28 < bits b.w2 47 28) ||
    decide (bits a.w2 27 17 < bits b.w2 27 17) || setsBit (bits a.w2 16 16) (bits b.w2 16 16) || setsBit a.w3 b.w3
/-- A context's grant. -/
def Ctx.grant (x : Ctx) : Grant := ⟨x.w0.toNat, x.w1.toNat, x.w2.toNat, x.w3.toNat⟩

/-! Identity, statements and signature blocks (R446, R449 to R451). -/

/-- DEVID. -/
def Trust.devid (t : Trust) : List Byte := sha384 t.idCert
/-- What `CERT_READ` returns: the identity certificate, then the device CA's (R446). -/
def Trust.certs (t : Trust) : List Byte := t.idCert ++ t.caCert
/-- The statement an officer signs. -/
def Trust.statement (t : Trust) (purpose target gen : Nat) (content : List Byte) : List Byte :=
  leBytes 4 0x4C575043 ++ leBytes 2 purpose ++ leBytes 2 target ++ leBytes 4 gen ++ leBytes 4 0 ++ t.devid ++ fitBytes 48 content ++ leBytes 16 0
/-- The key a block names: an enrolled officer's, or the one being enrolled. -/
def Trust.blockKey (t : Trust) (new : Option (List Byte)) (slot : Nat) : List Byte :=
  if slot < 8 then t.officers.get [] slot else if slot = 0xFF then new.getD [] else []
/-- A block verifies over a statement. -/
def Trust.blockOk (t : Trust) (new : Option (List Byte)) (stmt : List Byte) (b : SigBlk) : Bool :=
  b.rsv && verify (t.blockKey new b.slot) stmt b.sig
/-- A set of blocks is accepted: every one verifies and no two name one slot. -/
def Trust.blocksOk (t : Trust) (new : Option (List Byte)) (stmt : List Byte) (bs : List SigBlk) : Bool :=
  bs.all (t.blockOk new stmt) && (List.range bs.length).all (fun i => (List.range i).all (fun j =>
    decide ((bs.map SigBlk.slot).getD i 0x100 ≠ (bs.map SigBlk.slot).getD j 0x101)))
/-- Distinct officers of an accepted set. -/
def officersIn (bs : List SigBlk) : Nat := (bs.filter (fun b => decide (b.slot < 8))).length
/-- The protection record of an applied change (R483). -/
def State.protRec (s : State) (h : Hdr) (purpose target gen : Nat) (bs : List SigBlk) (widen : Bool) (words : List Byte) : State :=
  s.logRec 0x60 0 (if purpose ≤ 2 then target else 0xFFFF) 44
    (leBytes 2 purpose ++ leBytes 2 target ++ leBytes 4 gen ++ leBytes 1 (bs.foldl (fun a b => if b.slot < 8 then a ||| 2 ^ b.slot else a) 0) ++
      leBytes 1 (b2n (bs.any (fun b => decide (b.slot = 0xFF)))) ++ leBytes 1 (b2n widen) ++ leBytes 1 (b2n h.mgmt) ++ fitBytes 32 words)
/-- Officers enrolled. -/
def Trust.enrolled (t : Trust) : Nat := t.officers.length
/-- The officer-table digest (R449). -/
def Trust.officerDigest (t : Trust) : List Byte :=
  sha384 ((List.range 8).flatMap (fun k => fitBytes 128 (t.officers.get [] k)) ++ leBytes 4 t.ogen.toNat)

end Sys2Proof.Machine
end

