-- ==== Sys2Proof/Machine/Mesh.lean ====
section
/-! DEFINITION. The data mesh and its beat orders (spec 07: R167 to R184). -/

namespace Sys2Proof.Machine

/-- START of a route entry. -/
def reStart (w : Nat) : Nat := bits w 62 51
/-- Slots less one. -/
def reCount (w : Nat) : Nat := bits w 50 39
/-- Cycles between slots. -/
def reStride (w : Nat) : Nat := bits w 38 34 + 1
/-- IN. -/
def reIn (w : Nat) : Nat := bits w 33 31
/-- IN2; 7 none. -/
def reIn2 (w : Nat) : Nat := bits w 30 28
/-- OUT mask. -/
def reOut (w : Nat) : Nat := bits w 27 23
/-- OPM. -/
def reOpm (w : Nat) : Nat := bits w 22 21
/-- CH. -/
def reCh (w : Nat) : Nat := bits w 20 18
/-- SCHED. -/
def reSched (w : Nat) : Nat := bits w 7 2
/-- A slot of the entry falls in cycle cyc (R171). -/
def reSlot (w cyc : Nat) : Bool :=
  decide (reStart w ≤ cyc) && decide ((cyc - reStart w) % reStride w = 0) && decide ((cyc - reStart w) / reStride w ≤ reCount w)
/-- The order of a context for a beat at a controller; none is treated as held (R174). -/
def orderAt (os : List BeatOrd) (c b : Nat) : Option BeatOrd := os.find? (fun o => o.ctx = c && o.beat = b)
/-- A schedule of a context is active in the current beat in region r (R172, R174). -/
def State.schedOn (s : State) (r c k : Nat) : Bool :=
  (orderAt (s.region r).orders c s.clk.beat).any (fun o => o.exec && decide (o.sched = k))

/-- An empty flit. -/
def MFlit.empty : MFlit := {}
/-- Check a flit at a router input (R170): corrected words counted, an uncorrectable word or a sideband error empties it and raises
MESH_UNCORRECTABLE for the partition of its PTAG. -/
def checkFlit (t port cyc : Nat) (s : State) (f : MFlit) : State × MFlit :=
  if f.spBad ∨ 2 ≤ f.e0 ∨ 2 ≤ f.e1 then
    ((s.onRouter t (fun r => { r with discard := r.discard + 1 })).report ⟨fcMeshUncorrectable, uidTile t 0x060, s.stamp cyc, 0, 0, f.ptag, [port, f.ptag]⟩, MFlit.empty)
  else
    let n := (if f.e0 = 1 then 1 else 0) + (if f.e1 = 1 then 1 else 0)
    (if n = 0 then s else s.onRouter t (fun r => { r with corr := r.corr + BitVec.ofNat 48 n }), { f with e0 := 0, e1 := 0 })
/-- Compare a flit's PTAG with its entry's (R180). -/
def checkTag (t cyc w : Nat) (s : State) (f : MFlit) : State × MFlit :=
  if f.v ∧ f.ptag ≠ rePtag w then
    ((s.onRouter t (fun r => { r with discard := r.discard + 1 })).report ⟨fcPtagMismatch, uidTile t 0x060, s.stamp cyc, 0, 0, rePtag w, [f.ptag, rePtag w]⟩, MFlit.empty)
  else (s, f)
/-- A tile's slots are absorbed (R181, R182): it is fenced, it was reset at this beat's boundary, or its compute domain is off. -/
def State.absorbs (s : State) (t : Nat) : Bool :=
  (s.tile t).fenced || decide ((s.region (t / 64)).cd ≠ .on) || decide ((s.tile t).resetAt = some s.clk.beat)
/-- Count an absorbed slot. -/
def State.absorb (s : State) (t : Nat) : State := s.onRouter t (fun r => { r with absorb := r.absorb + 1 })
/-- The flit an input gives in its slot: one that arrives at a mesh port, or the tile's outbound channel (R169, R179, R181, R134). -/
def takeInput (t cyc w port : Nat) (s : State) : State × MFlit :=
  if port = 4 then
    if s.absorbs t then (s.absorb t, MFlit.empty)
    else
      match (s.tile t).oc.get [] (reCh w) with
      | [] => (s.tileFault t cyc ⟨fcChannelUnderrun, 0x069 + reCh w, [reCh w], 0, 0⟩, MFlit.empty)
      | f :: fs =>
        let s := s.onTile t (fun x => { x with oc := x.oc.set [] (reCh w) fs })
        checkTag t cyc w (s.tileGoes t cyc) { w0 := f % 2 ^ 256, w1 := f / 2 ^ 256, ptag := s.ptag t, v := true }
  else
    match s.fly.find? (fun f => f.dst = t && f.port = port && f.beat = s.clk.beat && f.cyc = cyc) with
    | none => (s, MFlit.empty)
    | some f =>
      let r := checkFlit t port cyc { s with fly := s.fly.erase f } f.flit
      checkTag t cyc w r.1 r.2
/-- Lane sums of two words of 256 bits in lanes of `b` bits, each rounded once to `f` (R177). -/
def addLanes (f : Fmt) (b : Nat) (x y : Nat) : Nat × Bool :=
  (List.range (256 / b)).foldl (fun r i =>
    let c := (f.round (Val.add (f.dec (bits x (b * i + b - 1) (b * i))) (f.dec (bits y (b * i + b - 1) (b * i))))).1
    (r.1 + c * 2 ^ (b * i), r.2 || (f.dec c).isNan || (f.dec c).isInf)) (0, false)
/-- Merge two flits (R177, R178); the flag says that a lane is NaN or infinite. -/
def mergeFlits (opm : Nat) (a b : MFlit) : MFlit × Bool :=
  if a.v = false ∨ b.v = false ∨ a.ptag ≠ b.ptag then (MFlit.empty, false)
  else
    let f := if opm = 1 then fp32 else bf16
    let n := if opm = 1 then 32 else 16
    let x := addLanes f n a.w0 b.w0
    let y := addLanes f n a.w1 b.w1
    ({ a with w0 := x.1, w1 := y.1 }, x.2 || y.2)
/-- Deliver a flit to its tile's port: it is in its inbound channel two cycles on, one more behind a merge (R134, R169, R181). -/
def deliverTile (t cyc ch extra : Nat) (f : MFlit) (s : State) : State :=
  if f.v = false ∨ s.absorbs t then s.absorb t
  else s.onTile t (fun x => { x with icIn := x.icIn ++ [⟨s.stamp (cyc + 2 + extra), ch, f.w0 + 2 ^ 256 * f.w1⟩] })
/-- Send a flit out of a side (R169): to the next router, or to the edge-port buffer where the side faces off the grid. -/
def sendSide (t cyc d extra : Nat) (f : MFlit) (s : State) : State :=
  match tileNext t d with
  | some n =>
    if f.v then
      let c := cyc + (if n / 64 = t / 64 then 2 else 6) + extra
      { s with fly := s.fly ++ [⟨n, (d + 2) % 4, s.clk.beat + c / 4096, c % 4096, f⟩] }
    else s
  | none =>
    if f.v then
      let c := cyc + 6 + extra
      { s with fly := s.fly ++ [⟨edgeAt t d, 5, s.clk.beat + c / 4096, c % 4096, f⟩] }
    else s.absorb t
/-- One output of an entry. -/
def sendOut (t cyc w extra : Nat) (f : MFlit) (s : State) (o : Nat) : State :=
  if bit (reOut w) o = false then s else if o = 4 then deliverTile t cyc (reCh w) extra f s else sendSide t cyc o extra f s
/-- A router acts on a slot of one of its entries (R170 to R184). A slot that would deliver into a tile whose slots are absorbed takes nothing from
its source (R181). An entry that is not valid, has no slot in this cycle or whose schedule is
not active does nothing, and so does a router of a region in transit-lost state. -/
def doRouterSlot (pos entry cyc : Nat) (s : State) : State :=
  let s := (s.at cyc).landTile pos
  let w := (s.router pos).routes.get 0 entry
  if bit w 63 = false ∨ reSlot w cyc = false ∨ (s.region (pos / 64)).st = .transitLost ∨ 4 < reIn w ∨ 2 < reOpm w ∨
      (reOpm w ≠ 0 ∧ 4 < reIn2 w) ∨ s.schedOn (pos / 64) (rePtag w) (reSched w) = false then s
  else
    let m : State × MFlit :=
      if bit (reOut w) 4 ∧ s.absorbs pos then (if reIn w = 4 ∨ (reOpm w ≠ 0 ∧ reIn2 w = 4) then s.absorb pos else s, MFlit.empty)
      else
      let a := takeInput pos cyc w (reIn w) s
      if reOpm w = 0 then a
      else
        let b := takeInput pos cyc w (reIn2 w) a.1
        let r := mergeFlits (reOpm w) a.2 b.2
        (if r.2 then b.1.onRouter pos (fun x => { x with mergeNf := x.mergeNf + 1 }) else b.1, r.1)
    [0, 1, 2, 3, 4].foldl (sendOut pos cyc w (if reOpm w = 0 then 0 else 1) m.2) m.1

/-- The order a packet carries. -/
def WPkt.order? (p : WPkt) : Option BeatOrd := match p.msg with | .order o => some o | _ => none
/-- A beat order for a context on its way to a controller. -/
def WPkt.isOrder (dst ctx : Nat) (p : WPkt) : Bool := decide (p.dst = dst) && p.order?.any (fun o => decide (o.ctx = ctx))
/-- A controller's orders with one more: those of past beats, and one it replaces, are gone. -/
def addOrder (beat : Nat) (o : BeatOrd) (os : List BeatOrd) : List BeatOrd :=
  (os.filter (fun x => decide (beat ≤ x.beat) && !(x.ctx = o.ctx && x.beat = o.beat))) ++ [o]
/-- A beat order is for the next beat; a region or stack controller keeps it (R174, R208). One that comes late is dropped. -/
def keepOrder (dst : Nat) (o : BeatOrd) (s : State) : State :=
  if o.beat ≠ s.clk.beat + 1 then s
  else if uClass dst = 6 then s.onRegion (uRegion dst) (fun g => if g.rcFenced then g else { g with orders := addOrder s.clk.beat o g.orders })
  else if uClass dst = 0x10 then s.onSc (uSub dst) (fun x => { x with orders := addOrder s.clk.beat o x.orders })
  else s
/-- A beat order for the next beat reaches a region or stack controller (R174, R208). -/
def doBeatOrder (dst ctx cyc : Nat) (s : State) : State :=
  let s := s.at cyc
  match s.take (WPkt.isOrder dst ctx) with
  | some (p, s) => p.order?.elim s (fun o => keepOrder dst o s)
  | none => s
/-- A controller has no order for a partition by cycle FFF: it treats the next beat as held, and a region controller raises BEAT_ORDER_LOST
(R174, R208). -/
def doBeatOrderLost (dst ctx : Nat) (s : State) : State :=
  let s := s.at 0xFFF
  let o : BeatOrd := ⟨ctx, s.clk.beat + 1, false, 64⟩
  if uClass dst = 6 ∧ uRegion dst < 80 then
    let g := s.region (uRegion dst)
    if (orderAt g.orders ctx o.beat).isSome ∨ (s.ptagsIn (uRegion dst)).contains ctx = false then s
    else (s.onRegion (uRegion dst) (fun g => { g with orders := g.orders ++ [o] })).report ⟨fcBeatOrderLost, dst, s.stamp 0xFFF, 0, 0, ctx, []⟩
  else if uClass dst = 0x10 ∧ uSub dst < 24 then
    s.onSc (uSub dst) (fun x => if (orderAt x.orders ctx o.beat).isSome then x else { x with orders := x.orders ++ [o] })
  else s

/-- A plan set after its switch to the substitute plan for the work of `work`: the plan's sequence, pages and routes stand for the set's, and
the pages of the region that gives the work away go (R17, R176). -/
def PlanSet.switched (p : PlanSet) (work region target : Nat) : PlanSet :=
  match p.subs.find? (fun x => x.region = work && x.target = target) with
  | none => p
  | some x => { p with steps := if x.steps = [] then p.steps else x.steps, routes := p.routes ++ x.routes
                       pages := p.pages.filter (fun g => decide (g.1 / 64 ≠ region)) ++ x.pages }
/-- The state in which a region leaves the work it gave away: shadowed, heat-off or standby (R176). -/
def leavesAs (g : Region) : RState :=
  if shadowedIn g.bad 0 ∨ shadowedIn g.bad 1 ∨ shadowedIn g.bad 2 ∨ shadowedIn g.bad 3 then .shadowed else if g.heatTrip then .heatOff else .standby
/-- The sets of a context stand as their substitute plans say, and the lead region controller's sequence in force is the substitute plan's
(R176). -/
def switchSets (ctx work : Nat) (w : Switch) (s : State) : State :=
  s.onCtx ctx (fun x =>
    let sets := x.sets.mapV none (fun _ p => p.map (fun p => p.switched work w.region w.target))
    let seq := match x.run with
      | some r => if x.part.seq = [] then [] else (((sets.get none r.handle).map PlanSet.steps).getD x.part.seq)
      | none => x.part.seq
    { x.dropMoves (· = w) with sets := sets, part := { x.part with seq := seq } })
/-- The region gives its work away: its state from the next boundary, and its compute goes off. A region that hosted has no work of its own
that another carries. -/
def leaveWork (w : Switch) (s : State) : State :=
  let old := leavesAs (s.region w.region)
  let peer := if old = RState.standby ∨ (s.region w.region).st = .hosting then noRegion else w.target
  s.onRegion w.region (fun g => (g.goTo old peer).turnOff)
/-- The standby region hosts from the next boundary: the lease on it is given back, its tiles are not refilled yet. A region whose work is
carried on elsewhere names its new host. -/
def hostWork (ctx : Nat) (w : Switch) (src : Nat) (s : State) : State :=
  let s := s.onRegion w.target (fun t => t.goTo .hosting src)
  let s := if src = w.region then s else s.onRegion src (fun g => g.goTo g.st w.target)
  (s.leaseDrop (s.newLease (uidComp w.target) 3 w.target (uidRc w.region) ctx)).onTiles [w.target] (fun t => { t with moved := true })
/-- The route switch order of a context for a switch. -/
def WPkt.isSwitch (c : Nat) (w : Switch) (p : WPkt) : Bool := match p.msg with | .routeSwitch k r t _ => decide (k = c ∧ r = w.region ∧ t = w.target) | _ => false
/-- The region controllers, told by ROUTE_SWITCH, change to the substitute plan at the beat named for it, once the standby region's compute is
on: it becomes hosting, the region it replaces standby, heat-off or shadowed (R176, R396, R415). A run has lost the tiles of the
region and ends (R228, R237). -/
def doRouteSwitch (ctx : Nat) (s : State) : State :=
  match (s.ctx ctx).switch with
  | none => s
  | some w =>
    if s.clk.beat < w.beat ∨ (w.target ≠ noRegion ∧ (s.region w.target).cd ≠ .on) then s
    else
      let work := workOf (s.region w.region) w.region
      let s := { s with waggle := s.waggle.filter (fun p => !p.isSwitch ctx w) }
      let u := leaveWork w (switchSets ctx work w (s.runLoses ctx w.region))
      if w.target = noRegion then u else hostWork ctx w work u

/-! The meanings: one per command, each a frame around its effect. -/

/-- ROUTER_SLOT (R171). -/
def execRouterSlot (pos entry cyc : Nat) (s : State) : Out :=
  guarded "ROUTER_SLOT" (.routerSlot pos entry cyc) s (doRouterSlot pos entry cyc)
/-- BEAT_ORDER (R174). -/
def execBeatOrder (dst ctx cyc : Nat) (s : State) : Out :=
  guarded "BEAT_ORDER" (.beatOrder dst ctx cyc) s (doBeatOrder dst ctx cyc)
/-- BEAT_ORDER_LOST (R174). -/
def execBeatOrderLost (dst ctx : Nat) (s : State) : Out :=
  guarded "BEAT_ORDER_LOST" (.beatOrderLost dst ctx) s (doBeatOrderLost dst ctx)
/-- ROUTE_SWITCH (R176). -/
def execRouteSwitch (ctx : Nat) (s : State) : Out :=
  guarded "ROUTE_SWITCH" (.routeSwitch ctx) s (doRouteSwitch ctx)

end Sys2Proof.Machine
end

