-- ==== Sys2Proof/Machine/Streams.lean ====
section
/-! DEFINITION. Streams of a stack controller: descriptor fields, the walk, granules, claims and forecasts (spec 08: R208 to R223). -/

namespace Sys2Proof.Machine

/-- DIR: a write stream. -/
def sdWrite (d : Words8) : Bool := bit (d.w 0) 62
/-- MODE. -/
def sdMode (d : Words8) : Nat := d.fld 0 61 60
/-- EXTENT. -/
def sdExt (d : Words8) : Nat := d.fld 0 59 44
/-- BUF, in units of 64 flits. -/
def sdBuf (d : Words8) : Nat := d.fld 0 39 32
/-- DEADLINE. -/
def sdDeadline (d : Words8) : Nat := d.fld 0 31 0
/-- BASE. -/
def sdBase (d : Words8) : Nat := d.fld 1 63 27
/-- Flits per row. -/
def sdRowF (d : Words8) : Nat := d.fld 2 63 58 + 1
/-- ROWS. -/
def sdRows (d : Words8) : Nat := d.fld 2 57 42
/-- RSTRIDE. -/
def sdRstride (d : Words8) : Int := sgn (d.fld 2 41 0) 42
/-- CNT1. -/
def sdCnt1 (d : Words8) : Nat := d.fld 3 63 40
/-- STRIDE1. -/
def sdStride1 (d : Words8) : Int := sgn (d.fld 3 39 0) 40
/-- CNT2. -/
def sdCnt2 (d : Words8) : Nat := d.fld 4 63 40
/-- STRIDE2. -/
def sdStride2 (d : Words8) : Int := sgn (d.fld 4 39 0) 40
/-- IEXT. -/
def sdIext (d : Words8) : Nat := d.fld 5 63 48
/-- Bytes of an index. -/
def sdIw (d : Words8) : Nat := if bit (d.w 5) 47 then 4 else 2
/-- IBASE. -/
def sdIbase (d : Words8) : Nat := d.fld 5 46 10
/-- LIMIT. -/
def sdLimit (d : Words8) : Nat := d.fld 6 63 32
/-- START. -/
def sdStart (d : Words8) : Nat := d.fld 6 31 0
/-- PORTMASK. -/
def sdPorts (d : Words8) : Nat := d.fld 7 63 52
/-- The ports of a mask. -/
def portsOf (m : Nat) : List Nat := (List.range 12).filter (fun i => bit m i)
/-- SCHED. -/
def sdSched (d : Words8) : Nat := d.fld 7 51 46
/-- Flits of a block. -/
def sdBlock (d : Words8) : Nat := sdRowF d * sdRows d
/-- All flits of a stream (R209). -/
def sdTotal (d : Words8) : Nat := sdBlock d * sdCnt1 d * (if sdMode d = 1 then 1 else sdCnt2 d)
/-- Flits the buffer holds. -/
def sdRoom (d : Words8) : Nat := 64 * sdBuf d

/-- The claimed slots of one beat: first cycle, slots, stride (R210). -/
structure Claim where
  sched : Nat
  start : Nat
  deadline : Nat
  first : Nat
  count : Nat
  stride : Nat
  deriving DecidableEq, Repr

/-- The claims of a stream descriptor. -/
def sdClaim (d : Words8) : Claim := ⟨sdSched d, sdStart d, sdDeadline d, d.fld 7 45 34, d.fld 7 33 22 + 1, d.fld 7 21 17 + 1⟩
/-- A slot falls in cycle cyc. -/
def Claim.hits (c : Claim) (cyc : Nat) : Bool :=
  decide (c.first ≤ cyc) && decide ((cyc - c.first) % c.stride = 0) && decide ((cyc - c.first) / c.stride < c.count)
/-- Slots at or after a cycle. -/
def Claim.after (c : Claim) (cyc : Nat) : Nat :=
  if cyc ≤ c.first then c.count else c.count - min c.count ((cyc - c.first + c.stride - 1) / c.stride)
/-- Plan beat p lies in the window and the schedule is active in it. -/
def Claim.inBeat (c : Claim) (seq : List Nat) (p : Nat) : Bool := decide (c.start ≤ p) && decide (p < c.deadline) && decide (schedAt seq p = c.sched)
/-- Claims of plan beat p from cycle cyc on. -/
def Claim.of (c : Claim) (seq : List Nat) (p cyc : Nat) : Nat := if c.inBeat seq p then c.after cyc else 0
/-- The plan beat from `from_` on in which `c.count` claims per active beat first exceed `avail`, walking the sequence whose first step
begins at plan beat `at_` (R216). -/
def Claim.dryIn (c : Claim) (from_ : Nat) : List Nat → Nat → Nat → Option Nat
  | [], _, _ => none
  | w :: ws, at_, avail =>
    let n := bits w 23 0
    let last := n = 0 ∨ bit w 25
    let hi := if n = 0 then 2 ^ 33 else at_ + n
    let a := max at_ (max from_ c.start)
    let b := min hi c.deadline
    let on := bit w 24 = false ∧ bits w 31 26 = c.sched ∧ a < b
    if on ∧ avail < c.count * (b - a) then some (a + avail / c.count)
    else if last then none
    else c.dryIn from_ ws hi (if on then avail - c.count * (b - a) else avail)

/-- The plan beat and cycle of the claim after `n` others, walking the sequence from plan beat `at_` on. -/
def Claim.nth (c : Claim) : List Nat → Nat → Nat → Option (Nat × Nat)
  | [], _, _ => none
  | w :: ws, at_, n =>
    let len := bits w 23 0
    let last := len = 0 ∨ bit w 25
    let hi := if len = 0 then 2 ^ 33 else at_ + len
    let a := max at_ c.start
    let b := min hi c.deadline
    let on := bit w 24 = false ∧ bits w 31 26 = c.sched ∧ a < b
    if on ∧ n < c.count * (b - a) then some (a + n / c.count, c.first + n % c.count * c.stride)
    else if last then none
    else c.nth ws hi (if on then n - c.count * (b - a) else n)
/-- The plan beat and whether the current wafer beat executes it: the current one, or the next during a held beat (R216). -/
def Part.planNow (p : Part) : Nat × Bool := if p.begun then (if p.held then (p.planBeat + 1, false) else (p.planBeat, true)) else (0, false)
/-- Flits of a stream not yet claimed. -/
def Slot.left (x : Slot) : Nat := if sdWrite x.desc then sdTotal x.desc - (x.pos + x.buf.length) else sdTotal x.desc - x.done
/-- avail (R215). -/
def Slot.avail (x : Slot) : Nat := if sdWrite x.desc then sdRoom x.desc - x.buf.length else x.buf.length
/-- The dry beat of a stream (R216). -/
def State.dryBeat (s : State) (x : Slot) : Option Nat :=
  let p := (s.ctx x.ctx).part
  let c := sdClaim x.desc
  let now := p.planNow
  if x.left ≤ x.avail then none
  else
    let c0 := if now.2 then c.of p.seq now.1 s.clk.cycle else 0
    if x.avail < c0 then some now.1 else c.dryIn (if now.2 then now.1 + 1 else now.1) p.seq 0 (x.avail - c0)
/-- An urgent stream (R216). -/
def State.urgent (s : State) (sc : Sc) (x : Slot) : Bool :=
  (s.dryBeat x).any (fun d => decide (d ≤ (s.ctx x.ctx).part.planNow.1 + bits sc.rg.toNat 3 0))

/-- The kinds a direction may reach (R199). -/
def kindAllows (write : Bool) (kind : Nat) : Bool := if write then decide (kind = 0) else decide (kind ≤ 2)

/-! The walk. -/

/-- Byte offset in the extent of flit k, given the gather index of its block (R209). -/
def sdOffset (d : Words8) (k i : Nat) : Int :=
  let b := k / sdBlock d
  let i1 := if sdMode d = 1 then i else b % sdCnt1 d
  let i2 := if sdMode d = 1 then 0 else b / sdCnt1 d
  (sdBase d : Int) + (i2 : Int) * sdStride2 d + (i1 : Int) * sdStride1 d + ((k / sdRowF d % sdRows d : Nat) : Int) * sdRstride d +
    ((64 * (k % sdRowF d) : Nat) : Int)
/-- Byte offset in IEXT of the index of flit k's block. -/
def sdIndexOff (d : Words8) (k : Nat) : Nat := sdIbase d + k / sdBlock d * sdIw d
/-- A skip index. -/
def sdSkip (d : Words8) (v : Nat) : Bool := v = 2 ^ (8 * sdIw d) - 1
/-- A gather stream has not read the index of the block at its position. -/
def Slot.lacksIdx (x : Slot) : Bool := decide (sdMode x.desc = 1) && decide (x.idxBlk ≠ x.pos / sdBlock x.desc + 1)
/-- A gather stream's next flit belongs to a skip. -/
def Slot.atSkip (x : Slot) : Bool := decide (sdMode x.desc = 1) && !x.lacksIdx && sdSkip x.desc (x.idx.getD 0)
/-- The index it lacks begins a granule of the list: it is the first, or the one before lies in another granule of 2 KiB. -/
def Slot.newListGranule (x : Slot) : Bool :=
  decide (x.pos < sdBlock x.desc) || decide (sdIndexOff x.desc x.pos / 2048 ≠ sdIndexOff x.desc (x.pos - sdBlock x.desc) / 2048)
/-- Post a far-page request and note it as unanswered (R312); `stream` is 0xFFFF for the Ripener. -/
def State.postFar (s : State) (c ext page stream : Nat) : State :=
  let s := s.post c 1 (ext + page * 2 ^ 16 + stream * 2 ^ 32) c
  let f := s.ha.far.filter (fun f => ¬(f.ctx = c ∧ f.ext = ext ∧ f.page = page ∧ f.stream = stream))
  { s with ha := { s.ha with far := f ++ [⟨c, ext, page, stream, s.clk.beat + 1024⟩] } }
/-- Change a stream slot. -/
def State.onSlot (s : State) (sc n : Nat) (f : Slot → Slot) : State := s.onSc sc (fun c => { c with slots := c.slots.upd {} n f })
/-- Halt a stream (R221): a far page posts its request; an error raises its fault. -/
def State.haltStream (s : State) (sc n ext : Nat) (x : Slot) (off : Nat) (err : ExtErr) : State :=
  match err with
  | .absent page =>
    (s.onSlot sc n (fun _ => { x with st := .haltFar, cause := 1, offset := off })).postFar x.ctx ext page (64 * sc + n)
  | .bad o =>
    (s.onSlot sc n (fun _ => { x with st := .haltErr, cause := 2, offset := off })).report
      ⟨fcStoreUncorrectable, uidSc sc, s.now, 0, 0, x.ctx, [64 * sc + n, ext, o % 2 ^ 32, o / 2 ^ 32]⟩
/-- Make sure a gather stream knows the index of the block at its position; the flag says it can go on. -/
def State.needIndex (s : State) (sc n : Nat) : State × Bool :=
  let x := (s.sc sc).slots.get {} n
  let d := x.desc
  if x.lacksIdx = false then (s, true)
  else
    let off := sdIndexOff d x.pos
    match s.readExt (sdIext d) (s.extD (sdIext d)) off (sdIw d) with
    | (s, .error e) => (s.haltStream sc n (sdIext d) x off e, false)
    | (s, .ok b) =>
      let v := ofLE b
      if sdSkip d v = false ∧ sdLimit d ≤ v then
        ((s.onSlot sc n (fun _ => { x with st := .haltErr, cause := 3, offset := off })).report
          ⟨fcStreamIndex, uidSc sc, s.now, 0, 0, x.ctx, [64 * sc + n, v, off % 2 ^ 32, off / 2 ^ 32]⟩, false)
      else (s.onSlot sc n (fun x => { x with st := .running, cause := 0, idx := some v, idxBlk := x.pos / sdBlock d + 1 }), true)
/-- Read one flit of a read stream that has its index into its buffer. -/
def State.fetchFlit (s : State) (sc n : Nat) : State × Bool :=
    let x := (s.sc sc).slots.get {} n
    let d := x.desc
    if x.atSkip then (s.onSlot sc n (fun x => { x with st := .running, cause := 0, buf := x.buf ++ [0], pos := x.pos + 1 }), true)
    else
      let off := (sdOffset d x.pos (x.idx.getD 0)).toNat
      match s.readExt (sdExt d) (s.extD (sdExt d)) off 64 with
      | (s, .error e) => (s.haltStream sc n (sdExt d) x off e, false)
      | (s, .ok b) => (s.onSlot sc n (fun x => { x with st := .running, cause := 0, buf := x.buf ++ [ofLE b], pos := x.pos + 1, offset := off + 64 }), true)
/-- Write the oldest flit of a write stream's buffer into its extent. -/
def State.storeFlit (s : State) (sc n : Nat) : State × Bool :=
  let x := (s.sc sc).slots.get {} n
  let d := x.desc
  let off := (sdOffset d x.pos 0).toNat
  let e := s.extD (sdExt d)
  match x.buf with
  | [] => (s, false)
  | f :: fs =>
    if s.rangeHere (sdExt d) e off 64 = false then (s.haltStream sc n (sdExt d) x off (.absent (off / pageBytes)), false)
    else
      let s := s.writeExt (sdExt d) e off (leBytes 64 f)
      let fin := decide (x.pos + 1 = sdTotal d)
      (s.onSlot sc n (fun x => { x with st := if fin then .done else .running, cause := 0, buf := fs, pos := x.pos + 1, done := x.done + 1, offset := off + 64,
                                        doneAt := if fin then s.clk.beat else x.doneAt }), true)
/-- The stream's next access: the extent and the byte offset, of an index it lacks or of a flit. -/
def Slot.next (x : Slot) : Nat × Nat :=
  if x.lacksIdx then (sdIext x.desc, sdIndexOff x.desc x.pos) else (sdExt x.desc, (sdOffset x.desc x.pos (x.idx.getD 0)).toNat)
/-- What a stream's next access asks of the stack: nothing (a skip, or an index of a granule already fetched), nothing because the page is far
(R207), a granule of data, a granule of the index list (R209), or first a granule of the zero-fill of its page (R200). -/
inductive Acc where
  | free
  | far
  | stack
  | index
  | fill (ext : Nat) (x : ExtEnt) (page : Nat)
  deriving DecidableEq, Repr
/-- It takes stack time. -/
def Acc.timed : Acc → Bool
  | .free => false
  | .far => false
  | _ => true
/-- The next access of a stream. -/
def State.access (s : State) (x : Slot) : Acc :=
  if x.atSkip then .free
  else
    let y := s.extD x.next.1
    let l := x.next.2 / pageBytes
    let w := s.pageEnt x.next.1 y l
    if pgFar w then .far
    else if pgZt w then .fill x.next.1 y l
    else if x.lacksIdx = false then .stack
    else if x.newListGranule then .index else .free
/-- An access may follow in a granule in which `used` has been accessed; `grant` says that stack time is there. -/
def Acc.joins (grant : Bool) (used : Option Acc) : Acc → Bool
  | .free => true
  | .far => decide (used ≠ some .stack)
  | .stack => decide (used = some .stack) || (used.isNone && grant)
  | _ => used.isNone && grant
/-- A granule granted to a stream: counted, given to its context, and one less reserved (R218, R387). -/
def Sc.charge (n : Nat) (c : Sc) : Sc :=
  { c.spend (c.slots.get {} n).ctx 1 with grant := c.grant + 1, reserved := c.reserved.upd 0 n (· - 1) }
/-- One granule of a page's zero-fill (R200); the last one clears ZT. -/
def State.fillOne (s : State) (e : Nat) (x : ExtEnt) (l : Nat) : State :=
  let p := pgAddr (s.pageEnt e x l)
  let s := s.onSc (extSc e) (fun c => { c.spend 0 1 with fills := c.fills.upd 0 p (· + 1) })
  if fillGranules ≤ (s.sc (extSc e)).fills.get 0 p then s.touch e x l else s
/-- Read the index a stream lacks, or move its next flit; the flag says that it can go on. -/
def State.advance (s : State) (sc n : Nat) (x : Slot) : State × Bool :=
  if x.lacksIdx then s.needIndex sc n else if sdWrite x.desc then s.storeFlit sc n else s.fetchFlit sc n
/-- A granule: up to `k` flits by accesses of one kind, in at most `fuel` accesses (R215). -/
def State.granule (s : State) (sc n : Nat) (grant : Bool) : Nat → Nat → Option Acc → State
  | 0, _, _ => s
  | fuel + 1, k, used =>
    let x := (s.sc sc).slots.get {} n
    let a := s.access x
    if k = 0 ∨ x.pos = sdTotal x.desc ∨ a.joins grant used = false then s
    else match a with
      | .fill e y l => s.fillOne e y l
      | .index => ((s.onSc sc (Sc.charge n)).needIndex sc n).1
      | _ =>
        let s := if a = .stack ∧ used = none then s.onSc sc (Sc.charge n) else s
        match s.advance sc n x with
        | (s, true) => s.granule sc n grant fuel (if x.lacksIdx then k else k - 1) (if a = .free then used else some a)
        | (s, false) => s
/-- A stream's turn: one granule, or flits that need no stack time. -/
def State.serve (s : State) (sc n : Nat) (grant : Bool) : State := s.granule sc n grant 96 32 none
/-- The far page a halted stream waits for is present, or it waits for none (R221). -/
def State.canTry (s : State) (x : Slot) : Bool :=
  x.st = .running || (x.st = .haltFar && s.rangeHere x.next.1 (s.extD x.next.1) x.next.2 1)
/-- The stream can take a granule (R215). -/
def State.wants (s : State) (x : Slot) : Bool :=
  s.canTry x && decide (x.pos < sdTotal x.desc) &&
    (if sdWrite x.desc then decide (32 ≤ x.buf.length) || (decide (x.buf ≠ []) && decide (x.pos + x.buf.length = sdTotal x.desc))
     else decide (x.buf.length + 32 ≤ sdRoom x.desc))
/-- Priority of a context. -/
def Ctx.prio (x : Ctx) : Nat := x.prioOld.getD (bits x.w0.toNat 59 57)
/-- The order of R217 and R218: class, reserved first, earliest dry beat, higher priority, lower stream. -/
def State.rank (s : State) (c : Sc) (n : Nat) (x : Slot) : List Nat :=
  [if s.urgent c x then 1 else 3, if c.reserved.get 0 n = 0 then 1 else 0, (s.dryBeat x).getD (2 ^ 40), 7 - (s.ctx x.ctx).prio, n]
/-- Lexicographic order of ranks. -/
def rankLt : List Nat → List Nat → Bool
  | a :: as, b :: bs => decide (a < b) || (decide (a = b) && rankLt as bs)
  | _, _ => false
/-- The first of a list of ranked items. -/
def firstRank {α : Type} : List (List Nat × α) → Option (List Nat × α)
  | [] => none
  | p :: ps => match firstRank ps with
    | none => some p
    | some q => if rankLt q.1 p.1 then some q else some p
/-- Granules a beat holds at half rate, from the landing budget of R218. -/
def halfRate (m : Nat) : Nat := 47787 * m * 4096 / (6400 * 1792)
/-- Granules granted in the beat so far. -/
def Sc.granted (c : Sc) : Nat := c.beatGr.foldl (fun a p => a + p.2) 0

end Sys2Proof.Machine
end

