-- ==== Sys2Proof/Machine/FabricOps.lean ====
section
/-! DEFINITION. Shared operations over the fabric: positions and routes, sending with credits and replay, the checks of a received packet
(spec 11: R281 to R287). -/

namespace Sys2Proof.Machine

/-- The module's pod ID. -/
def State.myPod (s : State) : Nat := (s.pod.cfg.map PodCfg.pod).getD 0
/-- The module's pod position. -/
def State.myPos (s : State) : Nat := (s.pod.cfg.map PodCfg.pos).getD 0
/-- Route entry n: two link numbers, 0xFF for none; entry 65 serves the buddy. -/
def PodCfg.route (c : PodCfg) (n : Nat) : Nat × Nat := c.routes.getD n (0xFF, 0xFF)
/-- The configuration a context uses: a new one from its next step boundary on (R282). -/
def State.cfgFor (s : State) (c : Nat) : Option PodCfg :=
  match s.pod.pending with
  | some p => if (s.ctx c).oldPod then s.pod.cfg else some p.1
  | none => s.pod.cfg
/-- The links a route entry names. -/
def State.linksTo (s : State) (c n : Nat) : List Nat :=
  match s.cfgFor c with
  | none => []
  | some c => [(c.route n).1, (c.route n).2].filter (fun l => decide (l < 64))
/-- The link for a packet of parcel p (R282): the first for an even parcel and for control, the second, if there is one, for an odd one. -/
def State.linkFor (s : State) (c n p : Nat) : Option Nat :=
  match s.linksTo c n with
  | [] => none
  | [a] => some a
  | a :: b :: _ => some (if p % 2 = 1 then b else a)
/-- A link end carries a context's packets (R287, R327, R332). -/
def State.ctxOnLink (s : State) (c n : Nat) : Bool := c = 0 || (let x := s.ctx c; bit x.w3.toNat n && x.st ≠ .fenced && bit x.w0.toNat 63)
/-- A packet's bytes on the link: header, payload, CRC. -/
def pktBytes (len : Nat) : Nat := 28 + len
/-- Credits a packet takes, in 256-byte units (R285). -/
def pktUnits (len : Nat) : Nat := (pktBytes len + 255) / 256
/-- Credits of a VC's receiver buffer at link up. -/
def vcCredits (vc : Nat) : Nat := if vc = 0 then 32 else if vc = 1 then 512 else 256
/-- Bytes in the replay buffer. -/
def Link.held (l : Link) : Nat := l.replay.foldl (fun a p => a + pktBytes p.p.body.length) 0
/-- A packet may start on the link now (R284, R285, R292). -/
def Link.canSend (l : Link) (p : FPkt) : Bool :=
  l.st = 3 && l.narrowing.isNone && decide (pktUnits p.body.length ≤ l.credit.get 0 p.vc) && decide (l.held + pktBytes p.body.length ≤ 524288)
/-- The packet that goes next: VC0 first, then VCs 1 to 3 by bytes in the ratio 2:2:1, each in its order (R285). -/
def Link.pick (l : Link) : Option FPkt :=
  let head (v : Nat) : Option FPkt := (l.queue.find? (fun p => p.vc = v)).filter l.canSend
  match head 0 with
  | some p => some p
  | none =>
    [1, 2, 3].foldl (fun a v =>
      match head v with
      | none => a
      | some p => match a with
        | none => some p
        | some q => if l.share.get 0 v < l.share.get 0 q.vc then some p else a) none
/-- Put the next packet on the link. -/
def Link.sendOne (l : Link) : Link :=
  match l.pick with
  | none => l
  | some p =>
    let n := pktBytes p.body.length
    let q := l.queue.erase p
    let share := l.share.upd 0 p.vc (· + (if p.vc = 3 then 2 * n else n))
    let idle := [1, 2, 3].filter (fun v => q.all (fun x => x.vc ≠ v))
    let top := share.foldl (fun a x => max a x.2) 0
    { l with queue := q, replay := l.replay ++ [⟨l.txSeq, p, 0⟩], txSeq := (l.txSeq + 1) % 65536, tx := l.tx + BitVec.ofNat 48 n
             beatBytes := l.beatBytes.upd 0 p.ctx (· + n), waits := l.waits.set 0 p.vc 0
             credit := l.credit.upd 0 p.vc (· - pktUnits p.body.length)
             share := if p.vc = 0 then l.share else if idle.length = 3 then [] else idle.foldl (fun t v => t.set 0 v top) share }
/-- Send as many packets as credits and the replay buffer let go, at most n. -/
def Link.pump (l : Link) : Nat → Link
  | 0 => l
  | n + 1 => l.sendOne.pump n
/-- Send everything a link may. -/
def State.pumpLink (s : State) (n : Nat) : State := s.onLink n (fun l => l.pump l.queue.length)
/-- Queue packets for route entry `dst` on the link of parcel `p`. A link end closed to the context takes none, and says so (R327); a link
that is not in service takes none (R281). -/
def State.fsendAll (s : State) (p : Nat) (ps : List FPkt) : State :=
  match ps with
  | [] => s
  | h :: _ =>
    match s.linkFor h.ctx h.dst p with
    | none => s
    | some n =>
      if s.ctxOnLink h.ctx n = false then s.keeperFault fcFabricCtxDenied (uidLink n) 0 0 [h.ctx]
      else if (s.link n).st ≠ 3 ∧ (s.link n).st ≠ 4 then s
      else (s.onLink n (fun l => { l with queue := l.queue ++ ps })).pumpLink n
/-- Queue one packet. -/
def State.fsend (s : State) (c dst p typ vc : Nat) (body : List Byte) : State := s.fsendAll p [⟨vc, typ, c, dst, body⟩]
/-- A control message's payload: subtype and body (R283). -/
def ctlBody (sub : Nat) (b : List Byte) : List Byte := leBytes 8 sub ++ b
/-- A control message. -/
def State.fctl (s : State) (c dst sub : Nat) (b : List Byte) : State := s.fsend c dst 0 0x10 0 (ctlBody sub b)

/-- The module with a sequenced packet counted by its link, its peer heard from. -/
def State.rxCount (s : State) (f : FHdr) : State :=
  let n := max 1 f.frags
  let s := s.onLink f.link (fun l => { l with
    rxSeq := (l.rxSeq + n) % 65536, rxNak := false, rx := l.rx + BitVec.ofNat 48 (n * pktBytes f.len), lastRx := s.clk.wall
    beatBytes := l.beatBytes.upd 0 f.ctx (· + n * pktBytes f.len), rxCredit := l.rxCredit.upd 0 f.vc (· + n * pktUnits f.len) })
  if f.spod = s.myPod then { s with pod := { s.pod with peers := s.pod.peers.upd {} f.spos (fun p => { p with lost := false }) } } else s
/-- A sequenced packet arrives on its link (R283, R284, R287): errors and gaps are answered with a NAK, a repeated packet is dropped, and one
that passes every check goes on to `k`. A transfer's packets arrive as one run of LSEQs. -/
def State.fabricIn (s : State) (f : FHdr) (vc : Nat) (lens : List Nat) (k : State → State) : State :=
  let l := s.link f.link
  let n := max 1 f.frags
  if l.st ≠ 3 ∨ l.narrowing.isSome then s
  else if f.bad then s.onLink f.link (fun l => { l with rxNak := true })
  else if f.lseq ≠ l.rxSeq then
    if 32768 ≤ (f.lseq + 65536 - l.rxSeq) % 65536 then s else s.onLink f.link (fun l => { l with rxNak := true })
  else
    let s := s.rxCount f
    if f.dpod ≠ s.myPod ∨ f.dpos ≠ s.myPos then s.onLink f.link (fun l => { l with misdir := l.misdir + BitVec.ofNat 32 n })
    else if f.vc ≠ vc ∨ lens.contains f.len = false then s.onLink f.link (fun l => { l with badPkt := l.badPkt + BitVec.ofNat 32 n })
    else if s.ctxOnLink f.ctx f.link = false then
      (s.onLink f.link (fun l => { l with ctxDrop := l.ctxDrop + BitVec.ofNat 32 n })).keeperFault fcFabricCtxDenied (uidLink f.link) 0 0 [f.ctx]
    else k s

/-! Parcels (R238 to R240). -/

/-- OWNER. -/
def PEnt.owner (e : PEnt) : Nat := bits e.w0.toNat 63 57
/-- RSET. -/
def PEnt.rset (e : PEnt) : Nat := bits e.w0.toNat 56 53
/-- FZ. -/
def PEnt.fz (e : PEnt) : Bool := bit e.w0.toNat 52
/-- SP. -/
def PEnt.sp (e : PEnt) : Bool := bit e.w0.toNat 51
/-- GROUP. -/
def PEnt.group (e : PEnt) : Nat := bits e.w0.toNat 50 45
/-- WEXT. -/
def PEnt.wext (e : PEnt) : Nat := bits e.w0.toNat 41 26
/-- WOFF in bytes. -/
def PEnt.woff (e : PEnt) : Nat := bits e.w0.toNat 25 0 * 2048
/-- MEXT. -/
def PEnt.mext (e : PEnt) : Nat := bits e.w1.toNat 63 48
/-- VEXT. -/
def PEnt.vext (e : PEnt) : Nat := bits e.w1.toNat 47 32
/-- BEXT. -/
def PEnt.bext (e : PEnt) : Nat := bits e.w1.toNat 31 16
/-- SLOT. -/
def PEnt.slot (e : PEnt) : Nat := bits e.w1.toNat 14 0
/-- Set FZ. -/
def PEnt.setFz (e : PEnt) (b : Bool) : PEnt := { e with w0 := BitVec.ofNat 64 (setBit e.w0.toNat 52 b) }
/-- A parcel's entry; none beyond the map. -/
def Ctx.pent (x : Ctx) (p : Nat) : Option PEnt := x.pmap[p]?
/-- Members of a replica set, by mask. -/
def membersOf (mask : Nat) : List Nat := (List.range 65).filter (fun i => bit mask i)
/-- Members of a parcel's set. -/
def Ctx.members (x : Ctx) (e : PEnt) : List Nat := membersOf (x.rsets.getD e.rset 0)
/-- Every other position of a context's replica sets. -/
def Ctx.peersOf (x : Ctx) (me : Nat) : List Nat := (membersOf (x.rsets.foldl (· ||| ·) 0)).filter (· ≠ me)
/-- The parcels an owner has, with their entries. -/
def Ctx.ownedBy (x : Ctx) (pos : Nat) : List (Nat × PEnt) := (x.pmap.zipIdx.filter (fun q => q.1.owner = pos)).map (fun q => (q.2, q.1))
/-- A parcel's group record. -/
def Ctx.groupOf (x : Ctx) (e : PEnt) : Words8 := x.groups.get {} e.group
/-- Entry of the current scale table. -/
def Ctx.scale (x : Ctx) (p : Nat) : Nat := x.scaleCur.get 0x7F p
/-- The wire element format. -/
def Ctx.wire (x : Ctx) : Fmt := if x.e4m3 then Sys2Proof.Machine.e4m3 else e5m2
/-- w_max (R97). -/
def wMax (e4m3 : Bool) : Nat := if e4m3 then 246 else 239
/-- The step and attempt that run. -/
def Ctx.stepOn (x : Ctx) : Option (Nat × Nat) :=
  x.run.bind (fun r => if r.kind = .step ∧ r.started ∧ r.ending = none then some (r.step, r.attempt) else none)
/-- Attempt a is later than attempt b (R266). -/
def later (a b : Nat) : Bool := decide (1 ≤ (a + 256 - b) % 256) && decide ((a + 256 - b) % 256 ≤ 127)

end Sys2Proof.Machine
end

