-- ==== Sys2Proof/Machine/Rim.lean ====
section
/-! DEFINITION. The bandwidth regulator, forecasts, deadlines and patrol of a stack controller (spec 08: R200 to R222). -/

namespace Sys2Proof.Machine

/-- The first store page with ZT, in page order: extent index, entry and logical page. -/
def State.ztPage (s : State) (n : Nat) : Option (Nat × ExtEnt × Nat) :=
  let c := s.sc n
  let ents := (List.range 2048).filterMap (fun i => if c.ext.get 0 i = 0 then none else (s.ext (2048 * n + i)).map (fun e => (2048 * n + i, e)))
  let zt := c.map.filter (fun p => bit p.2 63 && !pgFar p.2 && pgZt p.2)
  let best := zt.foldl (fun (a : Option (Nat × Nat)) p => match a with
    | none => some p
    | some q => if pgAddr p.2 < pgAddr q.2 then some p else some q) none
  best.bind (fun p => (ents.find? (fun x => decide (x.2.base ≤ p.1) && decide (p.1 < x.2.base + x.2.pages))).map (fun x => (x.1, x.2, p.1 - x.2.base)))
/-- The stream that the next granule goes to: the first in class order that can take one (R215); without stack time, the first that needs none. -/
def State.grantee (s : State) (sc : Nat) (grant : Bool) : Option (List Nat × Nat) :=
  firstRank (((s.sc sc).slots.filter (fun p => s.wants p.2 && (grant || !(s.access p.2).timed))).map (fun p => (s.rank (s.sc sc) p.1 p.2, p.1)))
/-- A stack at its thermal limit grants no granules, or half of them (R398). -/
def State.throttled (s : State) (sc : Nat) : Bool :=
  decide ((s.sc sc).limit = 2) || (decide ((s.sc sc).limit = 1) && decide (halfRate s.clk.m ≤ (s.sc sc).granted))
/-- The granules a stack gives in a beat. -/
def State.beatCap (s : State) (sc : Nat) : Nat := if (s.sc sc).limit = 1 then halfRate s.clk.m else 2 * halfRate s.clk.m
/-- Class 4 goes before a stream of a class: its share of the granules issued would fall short of LOWSHARE/64, against class 1 only when the
rest of the beat is owed to it (R217). -/
def State.lowDue (s : State) (sc cls : Nat) : Bool :=
  let c := s.sc sc
  let share := bits c.rg.toNat 9 4
  let owed := (share * s.beatCap sc + 63) / 64 - c.lowGr
  if cls = 1 then decide (0 < owed) && decide (s.beatCap sc ≤ c.granted + owed) else decide (c.lowGr * 64 < share * (c.granted + 1))
/-- One granule of the background zero-fill, the lowest class (R200, R217). -/
def State.fillLow (s : State) (sc : Nat) (p : Nat × ExtEnt × Nat) : State :=
  (s.fillOne p.1 p.2.1 p.2.2).onSc sc (fun c => { c with lowGr := c.lowGr + 1 })
/-- One granule of stack time (R215, R217): to the stream that is next, or to a page waiting for its zero-fill where no stream asks or the share
of class 4 is due (R200). A stream that needs no stack time moves even where the stack grants none (R207). -/
def doRegulatorGrant (sc : Nat) (s : State) : State :=
  if (s.sc sc).serving = false then s
  else
    let grant := !s.throttled sc
    let zt := if grant then s.ztPage sc else none
    match s.grantee sc grant, zt with
    | some (_, n), none => s.serve sc n grant
    | some (r, n), some p => if s.lowDue sc (r.headD 3) then s.fillLow sc p else s.serve sc n grant
    | none, some p => s.fillLow sc p
    | none, none => s

/-- The flit at position q of a stream's walk, or its index, lies in a far page (R207). -/
def State.farFlit (s : State) (x : Slot) (q : Nat) : Bool :=
  let d := x.desc
  let far (e off : Nat) : Bool := pgFar (s.pageEnt e (s.extD e) (off / pageBytes))
  if sdMode d = 1 then
    let known := decide (x.idxBlk = q / sdBlock d + 1)
    let v := if known then x.idx.getD 0 else ofLE (s.peek (sdIext d) (s.extD (sdIext d)) (sdIndexOff d q) (sdIw d))
    (!known && far (sdIext d) (sdIndexOff d q)) || (!sdSkip d v && far (sdExt d) (sdOffset d q v).toNat)
  else far (sdExt d) (sdOffset d q 0).toNat
/-- Some of the next `k` flits of a walk lie in a far page (R207, R218). -/
def State.farAhead (s : State) (x : Slot) (k : Nat) : Bool :=
  (List.range k).any (fun j => s.farFlit x (x.pos + x.buf.length * b2n (sdWrite x.desc) + j))
/-- need of R218. -/
def State.needOf (s : State) (x : Slot) : Nat :=
  let p := (s.ctx x.ctx).part
  let c := sdClaim x.desc
  let now := p.planNow
  let cur := if now.2 then c.of p.seq now.1 0x700 else 0
  let nxt := if now.2 then c.of p.seq (now.1 + 1) 0 else (if p.startAt.isSome then c.of p.seq now.1 0 else 0)
  min (cur + nxt) x.left
/-- The forecast for a partition's streams: the stack time left, what each stream has reserved, and whether one cannot get what it needs
(R218, R219). -/
def State.forecast (s : State) (sc ctx : Nat) : Nat × Tab Nat × Bool :=
  let c := s.sc sc
  let mine := (c.slots.filter (fun p => decide (p.2.ctx = ctx) && p.2.live)).map (fun p => (s.rank { c with reserved := [] } p.1 p.2, p.1))
  let others := c.reserved.filter (fun p => decide ((c.slots.get {} p.1).ctx ≠ ctx))
  let land := 47787 * s.clk.m / 6400
  let land := if c.limit = 0 then land else if c.limit = 1 then land / 2 else 0
  let budget := land - others.foldl (fun a p => a + p.2) 0
  let sorted := mine.foldl (fun (l : List (List Nat × Nat)) p => l.takeWhile (fun q => rankLt q.1 p.1) ++ [p] ++ l.dropWhile (fun q => rankLt q.1 p.1)) []
  sorted.foldl (fun (a : Nat × Tab Nat × Bool) p =>
    let x := c.slots.get {} p.2
    let short := s.needOf x - x.avail
    let g := (short + 31) / 32
    if x.st = .haltErr then (a.1, a.2.1, true)
    else if short = 0 then a
    else if x.st = .haltFar ∨ s.farAhead x short then (a.1, a.2.1, true)
    else if g ≤ a.1 then (a.1 - g, a.2.1.set 0 p.2 g, a.2.2)
    else (0, a.2.1.set 0 p.2 a.1, true)) (budget, others, false)
/-- The regulator's forecast for a partition at cycle 700 (R218, R219, R221). -/
def doStreamForecast (sc ctx : Nat) (s : State) : State :=
  let s := s.at 0x700
  let r := s.forecast sc ctx
  let s := s.onSc sc (fun c => { c with reserved := r.2.1 })
  if r.2.2 ∧ isUser ctx then (s.onSc sc (fun c => { c with holdReq := c.holdReq + 1 })).askHold ctx (uidSc sc) .forecast else s
/-- Plan beat DEADLINE begins with flits remaining (R213). -/
def doStreamDeadline (sc slot : Nat) (s : State) : State :=
  let x := (s.sc sc).slots.get {} slot
  let p := (s.ctx x.ctx).part
  let left := sdTotal x.desc - x.done
  if x.live ∧ p.begun ∧ sdDeadline x.desc ≤ p.planBeat ∧ left ≠ 0 then
    (s.onSlot sc slot (Slot.abort 4)).report ⟨fcStreamDeadline, uidSc sc, s.now, 0, 0, x.ctx, [64 * sc + slot, left]⟩
  else s
/-- The extent and logical page a store page is mapped by. -/
def State.pageUser (s : State) (sc page : Nat) : Option (Nat × ExtEnt × Nat) :=
  let c := s.sc sc
  let hit := c.map.find? (fun p => bit p.2 63 && !pgFar p.2 && decide (pgAddr p.2 = page))
  hit.bind (fun p =>
    ((List.range 2048).filterMap (fun i => if c.ext.get 0 i = 0 then none else (s.ext (2048 * sc + i)).map (fun e => (2048 * sc + i, e)))).findSome?
      (fun x => if x.2.base ≤ p.1 ∧ p.1 < x.2.base + x.2.pages then some (x.1, x.2, p.1 - x.2.base) else none))
/-- A store page is mapped by an extent. -/
def Sc.pageUsed (c : Sc) (page : Nat) : Bool := c.map.any (fun p => bit p.2 63 && !pgFar p.2 && decide (pgAddr p.2 = page))
/-- The words of a page in error, correctable or not. -/
def Sc.pageErrs (c : Sc) (page : Nat) (correctable : Bool) : List (Nat × Nat) :=
  c.errs.filter (fun p => decide (p.1 / 65536 = page) && (decide (p.2 = 1) == correctable))
/-- The controller once patrol has read its next page: correctable words corrected, all counted. -/
def Sc.patrolled (c : Sc) : Sc :=
  let fixed := c.pageErrs c.patrol true
  if c.pageUsed c.patrol then
    { c with patrol := (c.patrol + 1) % c.pages, errs := c.errs.filter (fun p => !fixed.contains p), corr := c.corr + BitVec.ofNat 48 fixed.length
             uncorr := c.uncorr + BitVec.ofNat 32 (c.pageErrs c.patrol false).length }
  else { c with patrol := (c.patrol + 1) % c.pages }
/-- Patrol of the next page in use, a whole page in the lowest class (R203, R217, R387): correctable words are corrected; each uncorrectable one is recorded, with all ones for the stream. -/
def doStackPatrol (sc : Nat) (s : State) : State :=
  let c := s.sc sc
  if c.serving = false ∨ s.throttled sc then s
  else
    let page := c.patrol
    let s := s.onSc sc Sc.patrolled
    if c.pageUsed page = false then s
    else
      let s := s.onSc sc (Sc.spendLow 0 1024)
      let who := s.pageUser sc page
      (c.pageErrs page false).foldl (fun s p =>
        let off := (who.map (fun w => w.2.2 * pageBytes + p.1 % 65536 * 32)).getD (2 ^ 64 - 1)
        s.report ⟨fcStoreUncorrectable, uidSc sc, s.now, 0, 0, (who.map (fun w => w.2.1.ctx)).getD 0,
          [0xFFFFFFFF, (who.map (fun w => w.1)).getD 0xFFFFFFFF, off % 2 ^ 32, off / 2 ^ 32]⟩) s

/-! The meanings: one per command, each a frame around its effect. -/

/-- REGULATOR_GRANT (R217). -/
def execRegulatorGrant (sc : Nat) (s : State) : Out :=
  guarded "REGULATOR_GRANT" (.regulatorGrant sc) s (doRegulatorGrant sc)
/-- STREAM_FORECAST (R218). -/
def execStreamForecast (sc ctx : Nat) (s : State) : Out :=
  guarded "STREAM_FORECAST" (.streamForecast sc ctx) s (doStreamForecast sc ctx)
/-- STREAM_DEADLINE (R213). -/
def execStreamDeadline (sc slot : Nat) (s : State) : Out :=
  guarded "STREAM_DEADLINE" (.streamDeadline sc slot) s (doStreamDeadline sc slot)
/-- STACK_PATROL (R203). -/
def execStackPatrol (sc : Nat) (s : State) : Out :=
  guarded "STACK_PATROL" (.stackPatrol sc) s (doStackPatrol sc)

end Sys2Proof.Machine
end

