-- ==== Sys2Proof/Machine/Reduce.lean ====
section
/-! DEFINITION. Edge-port slots, reduction descriptors, egress, owner buffers, blocks, closes and credits (spec 03: R92 to R98; 08: R214;
10: R242 to R253). -/

namespace Sys2Proof.Machine

/-! Wire blocks (R92 to R95). -/

/-- Quantise one FP32 element: code and whether it saturated; none for a NaN or an infinity (R94). -/
def quantise (f : Fmt) (rnd : Rnd) (w y : Nat) : Option (Nat × Bool) :=
  let v := fp32.dec y
  if v.isNan || v.isInf then none
  else let c := f.conv rnd false (v.scale (127 - (w : Int))); some (c.code, c.sat)
/-- The rounding of element i of a block (R94). -/
def wireRnd (stoch : Bool) (seed bi i : Nat) : Rnd :=
  if stoch then .stoch ((mix64 (BitVec.ofNat 64 seed ^^^ BitVec.ofNat 64 (bi <<< 8) ^^^ BitVec.ofNat 64 i)).toNat % 65536) else .nearest
/-- A wire block from its 256 FP32 elements; none where one is NaN or infinite. -/
def wireBlock (f : Fmt) (stoch : Bool) (seed w parcel block : Nat) (ys : List Nat) : Option WireBlk :=
  let bi := parcel * 256 + block
  let qs := ys.zipIdx.map (fun y => quantise f (wireRnd stoch seed bi y.2) w y.1)
  if qs.any Option.isNone then none
  else
    let q := qs.filterMap id
    some ⟨parcel, block, (q.filter (fun x => x.2)).length, q.map (fun x => BitVec.ofNat 8 x.1)⟩
/-- The flags that quantising a block sets (R91, R94). -/
def wireFlags (f : Fmt) (stoch : Bool) (seed w parcel block : Nat) (ys : List Nat) : Flags :=
  ys.zipIdx.foldl (fun a y =>
    let v := fp32.dec y.1
    if v.isNan || v.isInf then a else a.or (f.conv (wireRnd stoch seed (parcel * 256 + block) y.2) false (v.scale (127 - (w : Int)))).fl) {}
/-- The payload of a GRAD_BLOCK (R92, R283). -/
def gradBlockBody (step attempt : Nat) (row : Bool) (b : WireBlk) : List Byte :=
  leBytes 4 step ++ leBytes 1 attempt ++ leBytes 1 (b2n row) ++ leBytes 2 0 ++ b.elems ++ leBytes 4 (b.parcel * 256 + b.block) ++ leBytes 2 b.sat ++ leBytes 2 0
/-- The payload of a GRAD_CLOSE (R247, R283). -/
def gradCloseBody (parcel step attempt : Nat) (dense nf : Bool) (rows : Nat) : List Byte :=
  leBytes 4 parcel ++ leBytes 4 step ++ leBytes 1 attempt ++ leBytes 1 (b2n dense + 2 * b2n nf) ++ leBytes 3 rows ++ leBytes 3 0
/-- The payload of a PARCEL_CREDIT (R283). -/
def creditBody (step attempt sc ordinal : Nat) : List Byte :=
  leBytes 4 step ++ leBytes 1 attempt ++ leBytes 1 sc ++ leBytes 2 0 ++ leBytes 4 ordinal ++ leBytes 4 0

/-! The owner's side (R249 to R253). -/

/-- Free owner buffers of a stack controller (R242). -/
def Sc.ownerFree (c : Sc) : Nat := (768 - bits c.rd.toNat 19 10) / 2 - c.owners.length
/-- LOWMARK. -/
def Sc.lowmark (c : Sc) : Nat := bits c.rd.toNat 9 4
/-- Free egress buffers. -/
def Sc.egFree (c : Sc) : Nat := bits c.rd.toNat 19 10 - c.egress.length
/-- The owner buffer of a parcel. -/
def Sc.owner? (c : Sc) (x p : Nat) : Option Owner := c.owners.find? (fun o => o.ctx = x && o.parcel = p)
/-- Change the owner buffer of a parcel. -/
def State.onOwner (s : State) (sc c p : Nat) (f : Owner → Owner) : State :=
  s.onSc sc (fun x => { x with owners := x.owners.map (fun o => if o.ctx = c ∧ o.parcel = p then f o else o) })
/-- The member record of a position. -/
def Owner.member (o : Owner) (pos : Nat) : MemberIn := (o.members.find? (fun m => m.pos = pos)).getD { pos := pos }
/-- Change a member record. -/
def Owner.onMember (o : Owner) (pos : Nat) (f : MemberIn → MemberIn) : Owner :=
  { o with members := o.members.filter (fun m => m.pos ≠ pos) ++ [f (o.member pos)] }
/-- The exponent of the accumulator's unit (R250). -/
def accUnit (e4m3 : Bool) : Int := if e4m3 then -9 else -16
/-- A wire element as a number of accumulator units (R250). -/
def wireInt (f : Fmt) (e4m3 : Bool) (c : Nat) : Int :=
  match f.dec c with
  | .fin neg m e => sInt neg (m * 2 ^ (e - accUnit e4m3).toNat)
  | _ => 0
/-- G[i] as an FP32 code (R250). -/
def ownerG (e4m3 : Bool) (w : Nat) (a : Int) : Nat := (fp32.round (.fin (decide (a < 0)) a.natAbs (accUnit e4m3 + w - 127))).1
/-- Add a block's elements (R250). -/
def Owner.addBlock (o : Owner) (x : Ctx) (b : WireBlk) : Owner :=
  let w := x.scale b.parcel
  let acc := b.elems.zipIdx.foldl (fun (t : Tab Int) e => t.upd 0 (256 * b.block + e.2) (· + wireInt x.wire x.e4m3 e.1.toNat)) o.acc
  let amax := b.elems.foldl (fun (m : Val) e => let v := ((x.wire.dec e.toNat).scale ((w : Int) - 127)).abs; if Val.lt m v then v else m) o.amax
  { o with acc := acc, amax := amax, sat := o.sat + b.sat, touched := if o.touched.contains b.block then o.touched else o.touched ++ [b.block] }
/-- Every member has closed, and the counts of its close have come, unless a close carries NF (R252). -/
def Owner.isComplete (o : Owner) (ms : List Nat) : Bool :=
  ms.all (fun p => (o.member p).closed) &&
    (ms.any (fun p => (o.member p).nf) ||
      ms.all (fun p => let m := o.member p; decide (m.dense = if m.cDense then 256 else 0) && decide (m.rows = m.cRows)))
/-- The lower median of a list. -/
def lowMedian (l : List Nat) : Nat :=
  (l.foldl (fun (a : List Nat) x => a.takeWhile (· < x) ++ [x] ++ a.dropWhile (· < x)) []).getD ((l.length - 1) / 2) 0
/-- Note the lags of a complete parcel; a member beyond 4096 beats on 64 parcels of the controller in the step is a straggler (R424). -/
def State.noteLags (s : State) (sc c : Nat) (o : Owner) : State :=
  let med := lowMedian (o.members.map MemberIn.stamp)
  o.members.foldl (fun s m =>
    let lag := (m.stamp - med) / 4096
    if lag ≤ 4096 then s
    else
      let k := 128 * sc + m.pos
      let v := (s.ctx c).stragglers.get 0 k
      let n := v % 2 ^ 32 + 1
      let big := max (v / 2 ^ 32) lag
      let s := s.onCtx c (fun x => { x with stragglers := x.stragglers.set 0 k (n + big * 2 ^ 32) })
      if n = 64 then s.report ⟨fcStraggler, uidSc sc, s.now, 0, 0, c, [m.pos, big]⟩ else s) s
/-- An uncorrectable word of reduction SRAM: the attempt ends under reaction P (R422). -/
def State.rsramFault (s : State) (sc c p : Nat) : State := s.report ⟨fcRsramUncorrectable, uidSc sc, s.now, 0, 0, c, [p]⟩
/-- A word of the accumulators cannot be read. -/
def Owner.unreadable (o : Owner) : Bool := o.errs.any (fun e => decide (2 ≤ e.2))
/-- A word of a block's accumulators cannot be read. -/
def Owner.badBlock (o : Owner) (block : Nat) : Bool := o.errs.any (fun e => decide (e.1 / 64 = block) && decide (2 ≤ e.2))
/-- See whether a parcel is complete now, and whether it is skipped (R250, R252). -/
def State.checkComplete (s : State) (sc c p : Nat) : State :=
  let x := s.ctx c
  match x.pent p, (s.sc sc).owner? c p with
  | some e, some o =>
    if o.complete ∨ o.isComplete (x.members e) = false then s
    else if o.unreadable then s.rsramFault sc c p
    else
      let w := x.scale p
      let k := (s.sc sc).doneCnt + 1
      let excess := o.acc.any (fun q => (fp32.dec (ownerG x.e4m3 w q.2)).isInf)
      let nf := o.members.any MemberIn.nf
      ((s.onOwner sc c p (fun o => { o with complete := true, skipped := nf || excess, doneNo := k })).onSc sc (fun q => { q with doneCnt := k })).noteLags sc c o
  | _, _ => s
/-- A member's block counted. -/
def Owner.countBlock (pos : Nat) (row : Bool) (o : Owner) : Owner :=
  o.onMember pos (fun m => if row then { m with rows := m.rows + 1 } else { m with dense := m.dense + 1 })
/-- A block at its open owner buffer: added and counted, or, for a parcel committed in the step already, counted alone (R250, R251). -/
def acceptBlock (sc c pos step : Nat) (row : Bool) (b : WireBlk) (s : State) : State :=
  let x := s.ctx c
  let dup := decide ((x.commits.get {} b.parcel).step.toNat = step)
  if dup = false ∧ ((s.sc sc).owner? c b.parcel).any (fun o => o.badBlock b.block) then s.rsramFault sc c b.parcel
  else
  let s := s.onOwner sc c b.parcel (fun o => (if dup then { o with touched := if o.touched.contains b.block then o.touched else o.touched ++ [b.block] } else o.addBlock x b).countBlock pos row)
  let s := s.onSc sc (fun k => if dup then { k with dup := k.dup + 1 } else { k with blocks := k.blocks + 1, satN := k.satN + BitVec.ofNat 48 b.sat })
  s.checkComplete sc c b.parcel
/-- A block or close without its owner buffer is discarded: of a parcel committed in the step already, or not open (R251). -/
def Sc.discarded (k : Sc) (committed : Bool) : Sc := if committed then { k with dup := k.dup + 1 } else { k with stale := k.stale + 1 }
/-- A block reaches the owner (R250, R251). -/
def ownerBlock (c pos step attempt : Nat) (row : Bool) (b : WireBlk) (s : State) : State :=
  let x := s.ctx c
  match x.pent b.parcel with
  | none => s
  | some e =>
    let sc := extSc e.wext
    if e.owner ≠ s.myPos then s
    else if x.stepOn ≠ some (step, attempt) then s.onSc sc (fun k => { k with stale := k.stale + 1 })
    else if ((s.sc sc).owner? c b.parcel).isNone then s.onSc sc (fun k => k.discarded (decide ((x.commits.get {} b.parcel).step.toNat = step)))
    else acceptBlock sc c pos step row b s
/-- A close reaches the owner (R247, R251, R252). -/
def ownerClose (c pos parcel step attempt : Nat) (dense nf : Bool) (rows : Nat) (s : State) : State :=
  let x := s.ctx c
  match x.pent parcel with
  | none => s
  | some e =>
    let sc := extSc e.wext
    if e.owner ≠ s.myPos then s
    else if x.stepOn ≠ some (step, attempt) then s.onSc sc (fun k => { k with stale := k.stale + 1 })
    else if ((s.sc sc).owner? c parcel).isNone then s.onSc sc (fun k => k.discarded (decide ((x.commits.get {} parcel).step.toNat = step)))
    else
      let s := if (x.commits.get {} parcel).step.toNat = step then s.onSc sc (fun k => { k with dup := k.dup + 1 }) else s
      let s := s.onOwner sc c parcel (fun o => o.onMember pos (fun m => { m with closed := true, cDense := dense, cRows := rows, nf := nf, stamp := s.now }))
      s.checkComplete sc c parcel

/-! The member's side (R243 to R249). -/

/-- Send a block to its owner: over the rim ring to the module itself, else over the fabric. -/
def State.sendBlock (s : State) (c owner step attempt : Nat) (row : Bool) (b : WireBlk) : State :=
  if owner = s.myPos then ownerBlock c owner step attempt row b s
  else s.fsend c owner b.parcel 1 1 (gradBlockBody step attempt row b)
/-- Send a close. -/
def State.sendClose (s : State) (c owner parcel step attempt : Nat) (dense nf : Bool) (rows : Nat) : State :=
  let s := s.onCtx c (fun x => { x with closesSent := x.closesSent ++ [parcel] })
  if owner = s.myPos then ownerClose c owner parcel step attempt dense nf rows s
  else s.fsend c owner parcel 2 1 (gradCloseBody parcel step attempt dense nf rows)
/-- The controller and ordinal of a parcel in the reduction orders of the plan set that runs: the module's own, or another owner's (R249). -/
def Ctx.ordinal (x : Ctx) (owner p : Nat) : Option (Nat × Nat) :=
  (x.order.findSome? (fun l => if l.2.contains p then some (l.1, l.2.idxOf p) else none)).or
    (x.others.findSome? (fun l => if l.1 = owner ∧ l.2.2.contains p then some (l.2.1, l.2.2.idxOf p) else none))
/-- The owner's parcel credit admits a parcel (R249). -/
def Ctx.admitted (x : Ctx) (e : PEnt) (p : Nat) : Bool :=
  (x.ordinal e.owner p).any (fun q => decide (q.2 < x.credits.get 0 (64 * e.owner + q.1)))
/-- Word accessors of a reduction descriptor: rows kind. -/
def RedRun.isRows (r : RedRun) : Bool := bit r.d0.toNat 62
/-- ARR. -/
def RedRun.arr (r : RedRun) : Nat := bits r.d0.toNat 61 58
/-- PARCEL or TPARCEL. -/
def RedRun.parcel (r : RedRun) : Nat := bits r.d0.toNat 57 34
/-- FLIT0. -/
def RedRun.flit0 (r : RedRun) : Nat := bits r.d0.toNat 33 22
/-- NFLITS. -/
def RedRun.nflits (r : RedRun) : Nat := bits r.d0.toNat 21 9
/-- IEXT. -/
def RedRun.iext (r : RedRun) : Nat := bits r.d1.toNat 63 48
/-- Bytes of an index. -/
def RedRun.iw (r : RedRun) : Nat := if bit r.d1.toNat 47 then 4 else 2
/-- IBASE. -/
def RedRun.ibase (r : RedRun) : Nat := bits r.d1.toNat 46 10
/-- Wire blocks per row. -/
def RedRun.rowb (r : RedRun) : Nat := bits r.d1.toNat 9 0 + 1
/-- COUNT. -/
def RedRun.count (r : RedRun) : Nat := bits r.d2.toNat 63 40
/-- LIMIT. -/
def RedRun.limit (r : RedRun) : Nat := bits r.d2.toNat 39 16
/-- PORT. -/
def RedRun.port (r : RedRun) : Nat := bits r.d3.toNat 63 60
/-- The descriptor's claims. -/
def RedRun.claim (r : RedRun) : Claim :=
  ⟨bits r.d3.toNat 59 54, bits r.d4.toNat 63 32, bits r.d4.toNat 31 0, bits r.d3.toNat 53 42, bits r.d3.toNat 41 30 + 1, bits r.d3.toNat 29 25 + 1⟩
/-- All flits of a descriptor (R243, R246). -/
def RedRun.total (r : RedRun) : Nat := if r.isRows then r.count * r.rowb * 16 else r.arr * r.nflits
/-- It has taken all its flits. -/
def RedRun.isDone (r : RedRun) : Bool := decide (r.total ≤ r.taken)
/-- Every row descriptor of the step plan is done (R247). -/
def State.rowsDone (s : State) (c : Nat) : Bool := s.scs.all (fun p => p.2.reds.all (fun r => r.ctx ≠ c || !r.isRows || r.isDone))
/-- The parcel's dense contribution is under way or waits to be sent. -/
def State.densePending (s : State) (c p : Nat) : Bool :=
  s.scs.any (fun q => q.2.egress.any (fun b => b.ctx = c && b.parcel = p) || q.2.reds.any (fun r => r.ctx = c && !r.isRows && r.parcel = p && !r.isDone))
/-- A dense contribution of the parcel is in the plan. -/
def State.hasDense (s : State) (c p : Nat) : Bool := s.scs.any (fun q => q.2.reds.any (fun r => r.ctx = c && !r.isRows && r.parcel = p))
/-- Row blocks waiting for credit. -/
def State.rowWaiting (s : State) (c p : Nat) : Bool := s.scs.any (fun q => q.2.rowQ.any (fun r => r.1 = c && r.2.1 = p))
/-- Send the closes of the parcels with SP = 1 that may go: rows done, nothing pending, credit there (R247, R249). -/
def State.flushCloses (s : State) (c : Nat) : State :=
  match (s.ctx c).stepOn with
  | none => s
  | some (step, attempt) =>
    if s.rowsDone c = false then s
    else (s.ctx c).pmap.zipIdx.foldl (fun s q =>
      let x := s.ctx c
      let e := q.1
      let p := q.2
      if e.sp ∧ e.fz = false ∧ (x.members e).contains s.myPos ∧ x.closesSent.contains p = false ∧ x.admitted e p ∧ s.densePending c p = false ∧ s.rowWaiting c p = false then
        s.sendClose c e.owner p step attempt (s.hasDense c p) (x.withheld.contains p) (x.rowSent.get 0 p)
      else s) s
/-- Send the row blocks that have credit now (R246, R249). -/
def State.flushRows (s : State) (c : Nat) : State :=
  match (s.ctx c).stepOn with
  | none => s
  | some (step, attempt) =>
    s.scs.foldl (fun s q =>
      q.2.rowQ.foldl (fun s r =>
        let x := s.ctx c
        match x.pent r.2.1 with
        | some e =>
          if r.1 = c ∧ x.admitted e r.2.1 then
            let s := s.onSc q.1 (fun k => { k with rowQ := k.rowQ.erase r })
            let s := s.onCtx c (fun x => { x with rowSent := x.rowSent.upd 0 r.2.1 (· + 1) })
            s.sendBlock c e.owner step attempt true ⟨r.2.1, r.2.2.1, r.2.2.2.2, r.2.2.2.1⟩
          else s
        | none => s) s) s
/-- An owner's credit reaches a member and lets waiting blocks and closes go (R249). -/
def takeCredit (c pos step attempt sc ordinal : Nat) (s : State) : State :=
  if (s.ctx c).stepOn ≠ some (step, attempt) then s
  else
    let s := s.onCtx c (fun x => { x with credits := x.credits.upd 0 (64 * pos + sc) (max (ordinal + 1)) })
    (s.flushRows c).flushCloses c
/-- The seed of the step and whether the wire rounds stochastically. -/
def Ctx.seedOf (x : Ctx) : Nat := (x.now.map StepNow.seed).getD 0
/-- Form and send the blocks of a parcel's dense contribution; a block with a NaN or an infinity is withheld (R94, R245, R248). -/
def State.sendDense (s : State) (sc c p owner step attempt : Nat) (b : Egress) : State :=
  (List.range 256).foldl (fun s j =>
    let x := s.ctx c
    let ys := (List.range 256).map (fun i => b.sum.get 0 (256 * j + i))
    let s := s.onSc sc (fun k => { k with qFl := k.qFl.or (wireFlags x.wire x.wsr x.seedOf (x.scale p) p j ys) })
    match wireBlock x.wire x.wsr x.seedOf (x.scale p) p j ys with
    | some w => s.sendBlock c owner step attempt false w
    | none =>
      (s.onCtx c (fun x => { x with withheld := if x.withheld.contains p then x.withheld else x.withheld ++ [p] })).report
        ⟨fcGradNonfinite, uidSc sc, s.now, 0, 0, c, [p * 256 + j]⟩) s
/-- A complete dense contribution is quantised and sent with its close as credit allows, and its buffer freed (R245, R247). -/
def doGradEgressSend (sc ctx parcel : Nat) (s : State) : State :=
  let x := s.ctx ctx
  match x.pent parcel, (s.sc sc).egress.find? (fun b => b.ctx = ctx && b.parcel = parcel), x.stepOn with
  | some e, some b, some (step, attempt) =>
    if b.complete = false ∨ x.admitted e parcel = false ∨ (s.sc sc).underTest ∨ x.st = .fenced then s
    else if b.errs.any (fun e => decide (2 ≤ e.2)) then s.rsramFault sc ctx parcel
    else
      let s := s.sendDense sc ctx parcel e.owner step attempt b
      let s := s.onSc sc (fun k => { k with egress := k.egress.filter (fun b => ¬(b.ctx = ctx ∧ b.parcel = parcel)) })
      if e.sp then s.flushCloses ctx
      else s.sendClose ctx e.owner parcel step attempt true ((s.ctx ctx).withheld.contains parcel) 0
  | _, _, _ => s
/-- The parcels that a controller of this module owns, in reduction order. -/
def State.ownOrder (s : State) (sc ctx : Nat) : List Nat :=
  let x := s.ctx ctx
  (x.order.filter (fun l => l.1 = sc)).flatMap (fun l => l.2.filter (fun p => (x.pent p).any (fun e => decide (e.owner = s.myPos))))
/-- Open the owner buffer of parcel `p`, the `n`-th of its controller, and tell every member (R249). -/
def openOwner (sc ctx p n step attempt : Nat) (s : State) : State :=
  let s1 := s.onSc sc (fun k => { k with owners := k.owners ++ [{ ctx := ctx, parcel := p, attempt := attempt }] })
  let s2 := s1.onCtx ctx (fun x => { x with opened := x.opened.set 0 sc (n + 1) })
  takeCredit ctx s.myPos step attempt sc n (((s.ctx ctx).peersOf s.myPos).foldl (fun s q => s.fsend ctx q 0 3 0 (creditBody step attempt sc n)) s2)
/-- The owner opens the next buffer in reduction order while more than LOWMARK remain free, and tells every member (R249). -/
def doOwnerBufferOpen (sc ctx : Nat) (s : State) : State :=
  let x := s.ctx ctx
  let k := s.sc sc
  match x.stepOn with
  | none => s
  | some (step, attempt) =>
    match (s.ownOrder sc ctx)[x.opened.get 0 sc]? with
    | none => s
    | some p => if k.ownerFree ≤ k.lowmark then s else openOwner sc ctx p (x.opened.get 0 sc) step attempt s
/-- GRAD_BLOCK from a member. -/
def doGradBlock (f : FHdr) (step attempt : Nat) (row : Bool) (b : WireBlk) (s : State) : State :=
  s.fabricIn f 1 [272] (ownerBlock f.ctx f.spos step attempt row b)
/-- GRAD_CLOSE from a member. -/
def doGradClose (f : FHdr) (parcel step attempt : Nat) (dense nf : Bool) (rows : Nat) (s : State) : State :=
  s.fabricIn f 1 [16] (ownerClose f.ctx f.spos parcel step attempt dense nf rows)
/-- PARCEL_CREDIT from an owner. -/
def doParcelCredit (f : FHdr) (step attempt sc ordinal : Nat) (s : State) : State :=
  s.fabricIn f 0 [16] (takeCredit f.ctx f.spos step attempt sc ordinal)

/-! Egress (R242 to R246). -/

/-- Plan beat DEADLINE begins while a descriptor has flits to come (R242). -/
def doReduceDeadline (sc n : Nat) (s : State) : State :=
  match (s.sc sc).reds[n]? with
  | none => s
  | some r =>
    let p := (s.ctx r.ctx).part
    if p.begun ∧ r.claim.deadline ≤ p.planBeat ∧ r.isDone = false ∧ r.stopped = false then
      (s.onSc sc (fun k => { k with reds := k.reds.set n { r with stopped := true } })).report ⟨fcReduceDeadline, uidSc sc, s.now, 0, 0, r.ctx, [r.parcel]⟩
    else s
/-- The plan beat and cycle of a parcel's first claim: the earliest of its dense descriptors' (R244). -/
def State.firstClaim (s : State) (sc ctx parcel : Nat) : Option Nat :=
  let seq := (s.ctx ctx).part.seq
  ((s.sc sc).reds.filter (fun r => decide (r.ctx = ctx) && !r.isRows && decide (r.parcel = parcel))).foldl (fun a r =>
    match r.claim.nth seq 0 0 with
    | some t => some (min (a.getD (2 ^ 62)) (4096 * t.1 + t.2))
    | none => a) none
/-- Parcels of a partition that hold no egress buffer and whose first claim falls between cycle 700 and the end of the next executed plan beat
(R244). -/
def State.egressNeed (s : State) (sc ctx : Nat) : Nat :=
  let k := s.sc sc
  let p := (s.ctx ctx).part
  let now := p.planNow
  let lo := if now.2 then 4096 * now.1 + 0x700 else 4096 * now.1
  let hi := if now.2 then 4096 * (now.1 + 2) else 4096 * (now.1 + 1)
  let soon (q : Nat) : Bool :=
    !k.egress.any (fun b => b.ctx = ctx && b.parcel = q) && (s.firstClaim sc ctx q).any (fun t => decide (lo ≤ t) && decide (t < hi)) && (now.2 || p.startAt.isSome)
  ((dedup ((k.reds.filter (fun r => decide (r.ctx = ctx) && !r.isRows && !r.stopped)).map RedRun.parcel)).filter soon).length
/-- The forecast of the reduction path (R244). -/
def doReductionForecast (sc ctx : Nat) (s : State) : State :=
  let s := s.at 0x700
  if (s.sc sc).egFree < s.egressNeed sc ctx ∧ isUser ctx then (s.onSc sc (fun k => { k with holdReq := k.holdReq + 1 })).askHold ctx (uidSc sc) .forecast else s
/-- A position whose sums are there already, and a word of them cannot be read. -/
def Egress.badAt (b : Egress) (pos : Nat) : Bool := b.seen.contains pos && (decide (2 ≤ b.errs.get 0 (2 * pos)) || decide (2 ≤ b.errs.get 0 (2 * pos + 1)))
/-- Add a flit's 16 FP32 lanes to a dense sum at a flit position (R238, R243). -/
def Egress.addFlit (b : Egress) (pos flit : Nat) : Egress :=
  let first := !b.seen.contains pos
  { b with seen := if first then b.seen ++ [pos] else b.seen
           errs := (b.errs.del (2 * pos)).del (2 * pos + 1)
           sum := (List.range 16).foldl (fun (t : Tab Nat) k =>
             let y := bits flit (32 * k + 31) (32 * k)
             t.set 0 (16 * pos + k) (if first then y else (f32add (BitVec.ofNat 32 (t.get 0 (16 * pos + k))) (BitVec.ofNat 32 y)).toNat)) b.sum }
/-- Every dense descriptor of a parcel has taken all its flits: the contribution is complete, or discarded where the parcel is frozen (R233,
R243, R245). -/
def State.closeEgress (s : State) (sc c p : Nat) : State :=
  let k := s.sc sc
  if (k.reds.filter (fun r => r.ctx = c && !r.isRows && r.parcel = p)).all RedRun.isDone then
    if ((s.ctx c).pent p).any PEnt.fz then s.onSc sc (fun k => { k with egress := k.egress.filter (fun b => ¬(b.ctx = c ∧ b.parcel = p)) })
    else s.onSc sc (fun k => { k with egress := k.egress.map (fun b => if b.ctx = c ∧ b.parcel = p then { b with complete := true } else b) })
  else s
/-- A data flit reaches a dense descriptor. -/
def takeDense (sc n : Nat) (r : RedRun) (flit : Nat) (excess : State → State) (s : State) : State :=
  let k := s.sc sc
  let have_ := k.egress.any (fun b => b.ctx = r.ctx && b.parcel = r.parcel)
  if have_ = false ∧ k.egFree = 0 then excess s
  else
    let pos := r.flit0 + r.taken % r.nflits
    if k.egress.any (fun b => b.ctx = r.ctx && b.parcel = r.parcel && b.badAt pos) then s.rsramFault sc r.ctx r.parcel
    else
    let s := if have_ then s else s.onSc sc (fun k => { k with egress := k.egress ++ [{ ctx := r.ctx, parcel := r.parcel }] })
    let s := s.onSc sc (fun k => { k with egress := k.egress.map (fun b => if b.ctx = r.ctx ∧ b.parcel = r.parcel then b.addFlit pos flit else b)
                                          reds := k.reds.set n { r with taken := r.taken + 1 } })
    s.closeEgress sc r.ctx r.parcel
/-- A block of a row is whole: quantised on its own and sent, or kept until credit comes; nothing of a frozen parcel is sent (R233, R246). -/
def takeRowBlock (sc : Nat) (r : RedRun) (v j : Nat) (flits : List Nat) (s : State) : State :=
  let x := s.ctx r.ctx
  let lin := r.rowb * v + j
  let p := r.parcel + lin / 256
  let blk := lin % 256
  match x.pent p with
  | none => s
  | some e =>
    if e.fz then s
    else
      let ys := flits.flatMap (fun f => (List.range 16).map (fun k => bits f (32 * k + 31) (32 * k)))
      let s := s.onSc sc (fun k => { k with qFl := k.qFl.or (wireFlags x.wire x.wsr x.seedOf (x.scale p) p blk ys) })
      match wireBlock x.wire x.wsr x.seedOf (x.scale p) p blk ys with
      | none =>
        (s.onCtx r.ctx (fun x => { x with withheld := if x.withheld.contains p then x.withheld else x.withheld ++ [p] })).report
          ⟨fcGradNonfinite, uidSc sc, s.now, 0, 0, r.ctx, [p * 256 + blk]⟩
      | some w => (s.onSc sc (fun k => { k with rowQ := k.rowQ ++ [(r.ctx, p, blk, w.elems, w.sat)] })).flushRows r.ctx
/-- A data flit reaches a row descriptor (R246). An index that its extent denies or that cannot be read stops it like one out of range, with all
ones for the index (entry 61). -/
def takeRows (sc n : Nat) (r : RedRun) (flit : Nat) (s : State) : State :=
  let per := r.rowb * 16
  let i := r.taken / per
  let stop (v : Nat) (s : State) : State :=
    (s.onSc sc (fun k => { k with reds := k.reds.set n { r with stopped := true } })).report ⟨fcReduceIndex, uidSc sc, s.now, 0, 0, r.ctx, [r.parcel, v]⟩
  let go (v : Nat) (s : State) : State :=
    let part := r.part ++ [flit]
    let full := decide (part.length = 16)
    let s := s.onSc sc (fun k => { k with reds := k.reds.set n { r with taken := r.taken + 1, part := if full then [] else part, idx := some v } })
    let s := if full ∧ v ≠ 2 ^ (8 * r.iw) - 1 then takeRowBlock sc r v (r.taken % per / 16) part s else s
    s.flushCloses r.ctx
  if r.taken % per ≠ 0 then go (r.idx.getD 0) s
  else if (s.ext r.iext).any (fun y => decide (y.ctx = r.ctx) && kindAllows false y.kind && y.holds (r.ibase + i * r.iw) r.iw) = false then stop 0xFFFFFFFF s
  else match s.readExt r.iext (s.extD r.iext) (r.ibase + i * r.iw) r.iw with
    | (s, .error _) => stop 0xFFFFFFFF s
    | (s, .ok b) => if ofLE b ≠ 2 ^ (8 * r.iw) - 1 ∧ r.limit ≤ ofLE b then stop (ofLE b) s else go (ofLE b) s

/-! Edge-port slots (R210, R214). -/

/-- A stream of the controller claims a port's slot in this cycle: direction, port, schedule, window. -/
def State.slotClaim (s : State) (sc port cyc : Nat) (wr : Bool) : Option (Nat × Slot) :=
  let c := s.sc sc
  c.slots.find? (fun q =>
    let x := q.2
    let p := (s.ctx x.ctx).part
    (x.live || (x.st = .done && x.doneAt = s.clk.beat)) && sdWrite x.desc = wr && bit (sdPorts x.desc) port && p.begun &&
      (orderAt c.orders x.ctx s.clk.beat).any BeatOrd.exec && (sdClaim x.desc).inBeat p.seq p.planBeat && (sdClaim x.desc).hits cyc)
/-- A reduction descriptor claims a port's slot in this cycle. -/
def State.redClaim (s : State) (sc port cyc : Nat) : Option (Nat × RedRun) :=
  let c := s.sc sc
  ((c.reds.zipIdx.map (fun q => (q.2, q.1))).find? (fun q =>
    let r := q.2
    let p := (s.ctx r.ctx).part
    !r.stopped && !r.isDone && r.port = port && p.begun && (orderAt c.orders r.ctx s.clk.beat).any BeatOrd.exec && r.claim.inBeat p.seq p.planBeat && r.claim.hits cyc))
/-- The context whose route entry takes a flit from an edge port in this cycle. -/
def State.entryAtEdge (s : State) (port cyc : Nat) : Option Nat :=
  let e := edgeTile port
  ((s.router e.1).valid.find? (fun q =>
    let w := q.2
    reSlot w cyc && (reIn w = e.2 || (reOpm w ≠ 0 && reIn2 w = e.2)) && s.schedOn (e.1 / 64) (rePtag w) (reSched w))).map (fun q => rePtag q.2)
/-- A fault of an edge-port slot (R214). -/
def State.edgeFault (s : State) (cls sc port c stream cyc : Nat) : State :=
  s.report ⟨cls, uidSc sc, s.stamp cyc, 0, 0, c, [port, stream, s.stamp cyc % 2 ^ 32, s.stamp cyc / 2 ^ 32]⟩
/-- The multicast group's ports present the next flit of a read stream; the group's lowest port takes it from the buffer (R210). -/
def inboundSlot (sc port cyc : Nat) (s : State) : State :=
  let edge := 12 * sc + port
  match s.slotClaim sc port cyc false with
  | none => match s.entryAtEdge edge cyc with
    | some c => s.edgeFault fcEdgeUnclaimed sc edge c 0xFFFFFFFF cyc
    | none => s
  | some (n, x) =>
    let ports := portsOf (sdPorts x.desc)
    if ports.head? ≠ some port ∨ sdTotal x.desc ≤ x.done then s
    else
      match x.buf with
      | [] => (s.onSlot sc n (Slot.abort 7)).edgeFault fcStreamUnderrun sc edge x.ctx (64 * sc + n) cyc
      | f :: fs =>
        let fin := decide (x.done + 1 = sdTotal x.desc)
        let s := s.onSlot sc n (fun x => { x with buf := fs, done := x.done + 1, st := if fin then .done else x.st, doneAt := if fin then s.clk.beat else x.doneAt })
        let out := ports.map (fun q => let e := edgeTile (12 * sc + q); (⟨e.1, e.2, s.clk.beat, cyc, { w0 := f % 2 ^ 256, w1 := f / 2 ^ 256, ptag := x.ctx, v := true }⟩ : Fly))
        { s with fly := s.fly ++ out }
/-- A word of a flit cannot be corrected, or its sideband parity fails (R170). -/
def MFlit.unreadable (f : MFlit) : Bool := f.spBad || decide (2 ≤ f.e0) || decide (2 ≤ f.e1)
/-- A flit arrives at the edge-port buffer, or none (R181, R184, R214). It is checked there (R201): a single byte error is corrected, and one that
cannot be corrected is discarded, as at a router's input (entry 62). -/
def outboundSlot (sc port cyc : Nat) (s : State) : State :=
  let edge := 12 * sc + port
  match s.fly.find? (fun f => f.port = 5 && f.dst = edge && f.beat = s.clk.beat && f.cyc = cyc) with
  | none => s
  | some f =>
    let s := { s with fly := s.fly.erase f }
    let data := f.flit.w0 + 2 ^ 256 * f.flit.w1
    if f.flit.unreadable then s.report ⟨fcMeshUncorrectable, uidSc sc, s.stamp cyc, 0, 0, f.flit.ptag, [edge, f.flit.ptag]⟩
    else
    match s.slotClaim sc port cyc true with
    | some (n, x) =>
      if sdRoom x.desc ≤ x.buf.length ∨ sdTotal x.desc ≤ x.pos + x.buf.length then s.edgeFault fcEgressOverrun sc edge x.ctx (64 * sc + n) cyc
      else s.onSlot sc n (fun x => { x with buf := x.buf ++ [data] })
    | none =>
      match s.redClaim sc port cyc with
      | some (n, r) =>
        if r.isRows then takeRows sc n r data s
        else takeDense sc n r data (fun s => s.edgeFault fcEgressOverrun sc edge r.ctx 0xFFFFFFFF cyc) s
      | none => s.edgeFault fcEdgeUnclaimed sc edge f.flit.ptag 0xFFFFFFFF cyc
/-- The ports on which dense descriptors of the same parcel before the one that claims this port have their slot in the same cycle, in descriptor
order: their flits are added first (R243). -/
def State.portsBefore (s : State) (sc port cyc : Nat) : List Nat :=
  match s.redClaim sc port cyc with
  | none => []
  | some (n, r) =>
    if r.isRows then []
    else (List.range n).filterMap (fun m => (List.range 12).find? (fun q =>
      (s.redClaim sc q cyc).any (fun u => decide (u.1 = m) && !u.2.isRows && decide (u.2.ctx = r.ctx) && decide (u.2.parcel = r.parcel))))
/-- An edge-port slot (R214). -/
def doEdgePortSlot (sc port cyc : Nat) (outbound : Bool) (s : State) : State :=
  let s := s.at cyc
  if (s.sc sc).serving = false then s
  else if outbound then outboundSlot sc port cyc ((s.portsBefore sc port cyc).foldl (fun s q => outboundSlot sc q cyc s) s)
  else inboundSlot sc port cyc s

/-! The meanings: one per command, each a frame around its effect. -/

/-- EDGE_PORT_SLOT (R214). -/
def execEdgePortSlot (sc port cyc : Nat) (outbound : Bool) (s : State) : Out :=
  guarded "EDGE_PORT_SLOT" (.edgePortSlot sc port cyc outbound) s (doEdgePortSlot sc port cyc outbound)
/-- REDUCE_DEADLINE (R242). -/
def execReduceDeadline (sc n : Nat) (s : State) : Out :=
  guarded "REDUCE_DEADLINE" (.reduceDeadline sc n) s (doReduceDeadline sc n)
/-- REDUCTION_FORECAST (R244). -/
def execReductionForecast (sc ctx : Nat) (s : State) : Out :=
  guarded "REDUCTION_FORECAST" (.reductionForecast sc ctx) s (doReductionForecast sc ctx)
/-- GRAD_EGRESS_SEND (R245). -/
def execGradEgressSend (sc ctx parcel : Nat) (s : State) : Out :=
  guarded "GRAD_EGRESS_SEND" (.gradEgressSend sc ctx parcel) s (doGradEgressSend sc ctx parcel)
/-- OWNER_BUFFER_OPEN (R249). -/
def execOwnerBufferOpen (sc ctx : Nat) (s : State) : Out :=
  guarded "OWNER_BUFFER_OPEN" (.ownerBufferOpen sc ctx) s (doOwnerBufferOpen sc ctx)
/-- GRAD_BLOCK (R250). -/
def execGradBlock (f : FHdr) (step attempt : Nat) (row : Bool) (b : WireBlk) (s : State) : Out :=
  guarded "GRAD_BLOCK" (.gradBlock f step attempt row b) s (doGradBlock f step attempt row b)
/-- GRAD_CLOSE (R252). -/
def execGradClose (f : FHdr) (parcel step attempt : Nat) (dense nf : Bool) (rows : Nat) (s : State) : Out :=
  guarded "GRAD_CLOSE" (.gradClose f parcel step attempt dense nf rows) s (doGradClose f parcel step attempt dense nf rows)
/-- PARCEL_CREDIT (R249). -/
def execParcelCredit (f : FHdr) (step attempt sc ordinal : Nat) (s : State) : Out :=
  guarded "PARCEL_CREDIT" (.parcelCredit f step attempt sc ordinal) s (doParcelCredit f step attempt sc ordinal)

end Sys2Proof.Machine
end

