-- ==== Sys2Proof/Machine/Update.lean ====
section
/-! DEFINITION. Groups, learning rate, update rules, working copies, state slots, and the start of a commit (spec 10: R254 to R263). -/

namespace Sys2Proof.Machine

/-! Group records (R255). -/

/-- RULE. -/
def grRule (g : Words8) : Nat := g.fld 0 63 60
/-- WFMT. -/
def grWfmt (g : Words8) : Nat := g.fld 0 59 58
/-- MFMT: BF16 moments. -/
def grBf (g : Words8) : Bool := bit (g.w 0) 57
/-- WRND: stochastic derivation. -/
def grWrnd (g : Words8) : Bool := bit (g.w 0) 56
/-- LRS. -/
def grLrs (g : Words8) : Nat := g.fld 0 55 54
/-- CLIP. -/
def grClip (g : Words8) : Bool := bit (g.w 0) 53
/-- SPARSE. -/
def grSparse (g : Words8) : Bool := bit (g.w 0) 52
/-- WARM. -/
def grWarm (g : Words8) : Nat := g.fld 1 63 32
/-- TOTAL. -/
def grTotal (g : Words8) : Nat := g.fld 1 31 0
/-- The FP32 constant in the high or the low half of word i. -/
def grConst (g : Words8) (i : Nat) (high : Bool) : W32 := BitVec.ofNat 32 (if high then g.fld i 63 32 else g.fld i 31 0)
/-- HLIMIT. -/
def grHlimit (g : Words8) : Nat := g.fld 6 31 0
/-- HXEXT. -/
def grHxext (g : Words8) : Nat := g.fld 7 63 48

/-! Learning rate and factors (R256, R257). -/

/-- One in FP32. -/
def one32 : W32 := 0x3F800000#32
/-- 1 - p, then its reciprocal, in FP64, rounded once to FP32. -/
def recip1m (p : Val) : W32 := rn32 (r64 (Val.div 60 (.ofInt 1) (r64 (Val.add (.ofInt 1) p.negate))))
/-- cos x for 0 ≤ x ≤ 4, by its power series. -/
def fxCos (x : Int) : Int := fxSeries (fun k t => -fxMul t (fxMul x x) / ((2 * k + 1) * (2 * k + 2) : Nat)) (fun _ t => t) 60 0 fxOne 0
/-- The circle number in FP64. -/
def pi64 : Val := v64 0x400921FB54442D18
/-- A value to a power, exactly. -/
def Val.pow (n : Nat) : Val → Val
  | .nan => .nan
  | .inf neg => .inf (neg && decide (n % 2 = 1))
  | .fin neg m e => .fin (neg && decide (n % 2 = 1)) (m ^ n) (e * n)
/-- lr of step s: formed in FP64 operation by operation, the cosine correctly rounded (entry 7), and rounded once to FP32. -/
def grLr (g : Words8) (s : Nat) (factor : W32) : W32 :=
  let mx := v32 (grConst g 2 true)
  let mn := v32 (grConst g 2 false)
  if grLrs g = 0 then grConst g 2 true
  else if grLrs g = 2 then rn32 (r64 (Val.mul mx (v32 factor)))
  else if s < grWarm g then rn32 (r64 (Val.div 60 (r64 (Val.mul mx (.ofInt (s + 1)))) (.ofInt (grWarm g))))
  else if s < grTotal g then
    let x := r64 (Val.div 60 (r64 (Val.mul pi64 (.ofInt (s - grWarm g : Nat)))) (.ofInt (grTotal g - grWarm g : Nat)))
    let a := r64 (Val.add (.ofInt 1) (r64 (fxVal (fxCos (fxOf x)))))
    let b := (r64 (Val.add mx mn.negate)).scale (-1)
    rn32 (r64 (Val.add mn (r64 (Val.mul b a))))
  else grConst g 2 false
/-- The clip factor from the global norm of the step before, 0 where there is none. -/
def clipFactor (g : Words8) (gnorm : Nat) : W32 :=
  let n := BitVec.ofNat 32 gnorm
  if grClip g = false ∨ (v32 n).isZero then one32
  else
    let q := f32div (grConst g 5 false) n
    if Val.lt (v32 q) (v32 one32) then q else one32

/-- The constants of an update. -/
structure Hyper where
  rule : Nat
  lr : W32
  c1 : W32
  c2 : W32
  ob1 : W32
  ob2 : W32
  b1 : W32
  b2 : W32
  eps : W32
  wd : W32
  mu : W32
  /-- GSCALE and c. -/
  gs : W32
  c : W32
  deriving DecidableEq, Repr

/-- The constants of group g in step s: learning-rate factor, update count t, norm of the step before. -/
def hyperOf (g : Words8) (s : Nat) (factor : W32) (t gnorm : Nat) : Hyper :=
  let b1 := grConst g 3 true
  let b2 := grConst g 3 false
  let p (b : W32) : Val := r64 ((v32 b).pow (t + 1))
  { rule := grRule g, lr := grLr g s factor, c1 := recip1m (p b1), c2 := recip1m (p b2)
    ob1 := rn32 (r64 (Val.add (.ofInt 1) (v32 b1).negate)), ob2 := rn32 (r64 (Val.add (.ofInt 1) (v32 b2).negate)), b1 := b1, b2 := b2
    eps := grConst g 4 true, wd := grConst g 4 false, mu := grConst g 5 true, gs := grConst g 6 true, c := clipFactor g gnorm }

/-! Update rules (R258). -/

/-- sign(a) in FP32; sign(0) is 0. -/
def sign32 (a : W32) : W32 := if (v32 a).isNan then 0x7FC00000#32 else if (v32 a).isZero then 0#32 else if (v32 a).neg? then 0xBF800000#32 else one32
/-- The rule reads and writes m. -/
def usesM (rule : Nat) : Bool := [1, 2, 3, 4, 5].contains rule
/-- The rule reads and writes v. -/
def usesV (rule : Nat) : Bool := [3, 4, 6].contains rule
/-- GSCALE * c * G. -/
def Hyper.grad (h : Hyper) (G : W32) : W32 := f32mul (f32mul h.gs h.c) G
/-- One element: new θ, m and v. -/
def updElem (h : Hyper) (G θ m v : W32) : W32 × W32 × W32 :=
  let g0 := h.grad G
  let g := if [0, 1, 2, 3, 6].contains h.rule then f32add g0 (f32mul h.wd θ) else g0
  let adamM := f32add (f32mul h.b1 m) (f32mul h.ob1 g)
  let adamV := f32add (f32mul h.b2 v) (f32mul h.ob2 (f32mul g g))
  let adamQ := f32div (f32mul adamM h.c1) (f32add (f32sqrt (f32mul adamV h.c2)) h.eps)
  let mom := f32add (f32mul h.mu m) g
  match h.rule with
  | 0 => (f32sub θ (f32mul h.lr g), m, v)
  | 1 => (f32sub θ (f32mul h.lr mom), mom, v)
  | 2 => (f32sub θ (f32mul h.lr (f32add g (f32mul h.mu mom))), mom, v)
  | 3 => (f32sub θ (f32mul h.lr adamQ), adamM, adamV)
  | 4 => (f32sub θ (f32mul h.lr (f32add adamQ (f32mul h.wd θ))), adamM, adamV)
  | 5 =>
    let u := sign32 adamM
    (f32sub θ (f32mul h.lr (f32add u (f32mul h.wd θ))), f32add (f32mul h.b2 m) (f32mul h.ob2 g), v)
  | 6 =>
    let v' := f32add v (f32mul g g)
    (f32sub θ (f32div (f32mul h.lr g) (f32add (f32sqrt v') h.eps)), m, v')
  | _ => (θ, m, v)

/-- An FP32 word with the flags raised on the way to it (R91). -/
abbrev FlW := W32 × Flags
/-- Round an exact result of operands a and b. -/
def flOp (a b : FlW) (v : Val) : FlW :=
  (rn32 v, (a.2.or b.2).or ((fp32.round v).2.or { iv := newNan v [v32 a.1, v32 b.1] }))
/-- a + b, a - b, a * b, a / b and the square root, with their flags. -/
def FlW.add (a b : FlW) : FlW := flOp a b (Val.add (v32 a.1) (v32 b.1))
/-- a - b. -/
def FlW.sub (a b : FlW) : FlW := flOp a b (Val.add (v32 a.1) (v32 b.1).negate)
/-- a * b. -/
def FlW.mul (a b : FlW) : FlW := flOp a b (Val.mul (v32 a.1) (v32 b.1))
/-- a / b. -/
def FlW.div (a b : FlW) : FlW := flOp a b (Val.div 30 (v32 a.1) (v32 b.1))
/-- The square root. -/
def FlW.sqrt (a : FlW) : FlW := flOp a a (Val.sqrt 30 (v32 a.1))
/-- The flags that the operations of `updElem` on one element raise (R91, R258). -/
def updFlags (h : Hyper) (G θ m v : W32) : Flags :=
  let k (w : W32) : FlW := (w, {})
  let g0 := ((k h.gs).mul (k h.c)).mul (k G)
  let g := if [0, 1, 2, 3, 6].contains h.rule then g0.add ((k h.wd).mul (k θ)) else g0
  let am := ((k h.b1).mul (k m)).add ((k h.ob1).mul g)
  let av := ((k h.b2).mul (k v)).add ((k h.ob2).mul (g.mul g))
  let aq := (am.mul (k h.c1)).div ((av.mul (k h.c2)).sqrt.add (k h.eps))
  let mo := ((k h.mu).mul (k m)).add g
  let step (u : FlW) : Flags := ((k θ).sub ((k h.lr).mul u)).2
  match h.rule with
  | 0 => step g
  | 1 => step mo
  | 2 => (step (g.add ((k h.mu).mul mo))).or mo.2
  | 3 => step aq
  | 4 => step (aq.add ((k h.wd).mul (k θ)))
  | 5 => (step (FlW.add (sign32 am.1, am.2) ((k h.wd).mul (k θ)))).or (((k h.b2).mul (k m)).add ((k h.ob2).mul g)).2
  | 6 => let v' := (k v).add (g.mul g); ((k θ).sub (((k h.lr).mul g).div (v'.sqrt.add (k h.eps)))).2
  | _ => g.2

/-! Bytes and elements. -/

/-- 32-bit little-endian elements. -/
def le32s : List Byte → List Nat
  | a :: b :: c :: d :: t => ofLE [a, b, c, d] :: le32s t
  | _ => []
/-- 16-bit little-endian elements. -/
def le16s : List Byte → List Nat
  | a :: b :: t => ofLE [a, b] :: le16s t
  | _ => []
/-- Consecutive pieces of n items, the last one whole. -/
def chunks {α : Type} (n : Nat) (l : List α) : List (List α) := (List.range (l.length / n)).map (fun k => (l.drop (n * k)).take n)
/-- Moments as FP32 codes from their bytes: BF16 ones are widened exactly. -/
def momIn (bf : Bool) (b : List Byte) : List Nat := if bf then (le16s b).map (· * 65536) else le32s b
/-- The stored code of an FP32 moment: BF16 rounded to nearest even. -/
def momCode (bf : Bool) (v : W32) : Nat := if bf then (bf16.round (v32 v)).1 else v.toNat
/-- Moments as bytes. -/
def momOut (bf : Bool) (vs : List Nat) : List Byte := vs.flatMap (leBytes (if bf then 2 else 4))
/-- A stored moment is NaN or infinite. -/
def momBad (bf : Bool) (c : Nat) : Bool := let v := if bf then bf16.dec c else fp32.dec c; v.isNan || v.isInf

/-! Working copies (R241, R259). -/

/-- Bytes of a working slot by WFMT. -/
def workBytes (wfmt : Nat) : Nat := if wfmt = 0 then 67584 else if wfmt = 1 then 131072 else 34816
/-- Element format of R78 by WFMT. -/
def workFmt (wfmt : Nat) : Nat := if wfmt = 0 then 6 else if wfmt = 1 then 3 else 10
/-- Bytes of the elements alone, which the scales follow. -/
def workElems (wfmt : Nat) : Nat := if wfmt = 0 then 65536 else if wfmt = 1 then 131072 else 32768
/-- The draw of element i of parcel p under WRND = 1. -/
def workDraw (seed p i : Nat) : Nat :=
  (mix64 (mix64 (BitVec.ofNat 64 seed) ^^^ BitVec.ofNat 64 (p <<< 16) ^^^ BitVec.ofNat 64 i)).toNat % 65536
/-- The working copy of a parcel derived from its master. -/
def deriveWork (g : Words8) (seed p : Nat) (master : List Nat) : List Byte :=
  let f := workFmt (grWfmt g)
  let rnd (i : Nat) : Rnd := if grWrnd g then .stoch (workDraw seed p i) else .nearest
  if grWfmt g = 1 then packCodes f (master.zipIdx.map (fun q => (convElem f (rnd q.2) false (fp32.dec q.1)).code))
  else
    let bs := (chunks 32 master).zipIdx.map (fun q => deriveMx f (fun l => rnd (32 * q.2 + l)) (q.1.map fp32.dec))
    packCodes f (bs.flatMap (fun b => b.2.1)) ++ bs.map (fun b => BitVec.ofNat 8 b.1)
/-- The flags that deriving a working copy raises (R91, R259). -/
def deriveFlags (g : Words8) (seed p : Nat) (master : List Nat) : Flags :=
  let f := workFmt (grWfmt g)
  let rnd (i : Nat) : Rnd := if grWrnd g then .stoch (workDraw seed p i) else .nearest
  if grWfmt g = 1 then master.zipIdx.foldl (fun a q => a.or (convElem f (rnd q.2) false (fp32.dec q.1)).fl) {}
  else ((chunks 32 master).zipIdx.map (fun q => (deriveMx f (fun l => rnd (32 * q.2 + l)) (q.1.map fp32.dec)).2.2.1)).foldl Flags.or {}
/-- Keep the elements and scales of wire blocks that nothing reached (R260). -/
def keepUntouched (wfmt : Nat) (touched : List Nat) (old new : List Byte) : List Byte :=
  let n := workElems wfmt
  let e := n / 256
  (List.range 256).flatMap (fun b => ((if touched.contains b then new else old).drop (e * b)).take e) ++
    (if wfmt = 1 then [] else (List.range 256).flatMap (fun b => ((if touched.contains b then new else old).drop (n + 8 * b)).take 8))
/-- The working-copy extent of bank b (R227, R239). -/
def State.bankExt (s : State) (wext b : Nat) : Nat :=
  if b % 2 = 0 then wext else extSc wext * 2048 + ((s.sc (extSc wext)).pair.get 0 (extIdx wext) - 1)
/-! State slots (R241, R262, R263). -/

/-- Bytes of a slot's moments. -/
def momBytes (bf : Bool) : Nat := if bf then 262144 else 524288
/-- Slots of a parcel's master and moment extents: a page holds 8 slots of 262,144 bytes, or 4 of 524,288. -/
def State.slotCount (s : State) (e : PEnt) (bf : Bool) : Nat :=
  min (8 * (s.extD e.mext).pages) ((if bf then 8 else 4) * (s.extD e.vext).pages)
/-- The lowest spare slot: no owned parcel of the same extent holds or writes it. -/
def State.spareSlot (s : State) (c : Nat) (e : PEnt) (bf : Bool) : Option Nat :=
  let x := s.ctx c
  let used := (x.ownedBy s.myPos).flatMap (fun q =>
    if q.2.mext ≠ e.mext then [] else let m := x.commits.get {} q.1; m.slot :: (if m.inf then [m.newslot] else []))
  (List.range (s.slotCount e bf)).find? (fun k => !used.contains k)
/-- The pieces of a state slot: extent, offset, bytes, for master, m and v. -/
def slotParts (e : PEnt) (bf : Bool) (slot : Nat) : List (Nat × Nat × Nat) :=
  let h := momBytes bf / 2
  [(e.mext, 262144 * slot, 262144), (e.vext, momBytes bf * slot, h), (e.vext, momBytes bf * slot + h, h)]
/-- Why the Ripener cannot move a piece of an extent: the store stops it, or the extent's entry denies it (R199). -/
inductive PartErr where
  | stops (ext : Nat) (err : ExtErr)
  | denied
  deriving DecidableEq, Repr
/-- A piece (extent, offset, bytes) lies in an extent of context c whose kind is one of a range (R199). -/
def State.mayMove (s : State) (c lo hi : Nat) (q : Nat × Nat × Nat) : Bool :=
  (s.ext q.1).any (fun y => decide (y.ctx = c) && decide (lo ≤ y.kind) && decide (y.kind ≤ hi) && y.holds q.2.1 q.2.2)
/-- Stack time of class 2 for a piece of a context (R217, R387). -/
def State.spendPart (s : State) (c : Nat) (q : Nat × Nat × Nat) : State := s.onSc (extSc q.1) (Sc.spend c (s.granules q.1 q.2.1 q.2.2))
/-- Read a piece of a context's working copies, masters, moments or mirrors, if its extent allows it and every word can be read. -/
def State.readPart (s : State) (c : Nat) (q : Nat × Nat × Nat) : State × Except PartErr (List Byte) :=
  if s.mayMove c 1 5 q = false then (s, .error .denied)
  else match (s.spendPart c q).readExt q.1 (s.extD q.1) q.2.1 q.2.2 with
    | (s, .ok b) => (s, .ok b)
    | (s, .error r) => (s, .error (.stops q.1 r))
/-- Read the pieces of a slot one after the other. -/
def State.readParts (s : State) (c : Nat) : List (Nat × Nat × Nat) → State × Except PartErr (List (List Byte))
  | [] => (s, .ok [])
  | q :: qs =>
    match s.readPart c q with
    | (s, .error r) => (s, .error r)
    | (s, .ok b) => match s.readParts c qs with
      | (s, .ok bs) => (s, .ok (b :: bs))
      | (s, .error r) => (s, .error r)
/-- Go on after a read: with the error and the state it leaves, or with what was read. -/
def afterRead {ε α β : Type} (r : State × Except ε α) (bad : State → ε → β) (good : State → α → β) : β :=
  match r with
  | (s, .error e) => bad s e
  | (s, .ok b) => good s b
/-- Pages of a byte range. -/
def pagesOf (off n : Nat) : List Nat := (List.range ((off + n + pageBytes - 1) / pageBytes - off / pageBytes)).map (off / pageBytes + ·)
/-- Why a list of pieces cannot be moved now: the first one denied, or an absent far page. -/
def State.stopsIn (s : State) (c lo hi : Nat) (ps : List (Nat × Nat × Nat)) : Option PartErr :=
  ps.findSome? (fun q =>
    if s.mayMove c lo hi q = false then some .denied
    else (pagesOf q.2.1 q.2.2).findSome? (fun l =>
      let w := s.pageEnt q.1 (s.extD q.1) l
      if pgFar w && !pgP w then some (.stops q.1 (.absent l)) else none))
/-- Write a piece, if its extent allows it; a denied write moves no byte (R199). -/
def State.writePart (s : State) (c : Nat) (q : Nat × Nat × Nat) (b : List Byte) : State :=
  if s.mayMove c 1 5 q then (s.spendPart c q).writeExt q.1 (s.extD q.1) q.2.1 b else s
/-- The piece that is a parcel's working slot in bank b. -/
def State.workPart (s : State) (e : PEnt) (wfmt b : Nat) : Nat × Nat × Nat := (s.bankExt e.wext b, e.woff, workBytes wfmt)
/-- Write a parcel's working slot in bank b. -/
def State.writeWork (s : State) (c : Nat) (e : PEnt) (b : Nat) (w : List Byte) : State := s.writePart c (s.bankExt e.wext b, e.woff, w.length) w
/-- Write a whole slot from its bytes: master, then moments (the layout of a mirror transfer and of OPT_STATE_INIT). -/
def State.writeSlot (s : State) (c : Nat) (e : PEnt) (bf : Bool) (slot : Nat) (b : List Byte) : State :=
  ((slotParts e bf slot).foldl (fun (a : State × List Byte) q => (a.1.writePart c q (a.2.take q.2.2), a.2.drop q.2.2)) (s, b)).1

/-! What stops a read (R261, R423). -/

/-- The buddy's position is lost (R425). -/
def State.buddyLost (s : State) : Bool := s.pod.cfg.any (fun p => decide (p.buddyPod = p.pod) && (s.pod.peers.get {} p.buddy).lost)
/-- The body of RESTORE_REQUEST (R426). -/
def restoreBody (c pos mask : Nat) : List Byte := leBytes 2 c ++ leBytes 1 pos ++ leBytes 1 mask
/-- A piece of a parcel cannot be moved: the parcel is set aside. A far page is asked for, once; a bad word of a state slot is repaired from the
buddy, or ends the run where the buddy is lost; one of a working copy is recorded and waits for the host; a piece that its extent denies raises
PARCEL_DENIED (R199, R202, R261, R423; entry 63). -/
def State.stateError (s : State) (sc c parcel step attempt : Nat) (e : PartErr) : State :=
  let aside := ((s.sc sc).owner? c parcel).any Owner.aside
  let s1 := s.onOwner sc c parcel (fun o => { o with aside := true })
  match e with
  | .denied => s1.report ⟨fcParcelDenied, uidSc sc, s.now, 0, 0, c, [parcel, step, attempt]⟩
  | .stops ext (.absent page) => if aside then s else s1.postFar c ext page 0xFFFF
  | .stops ext (.bad off) =>
    if (s.extD ext).kind ≤ 2 then s1.report ⟨fcStoreUncorrectable, uidSc (extSc ext), s.now, 0, 0, c, [0xFFFFFFFF, ext, off % 2 ^ 32, off / 2 ^ 32]⟩
    else
      let s := s1.report ⟨fcStateUncorrectable, uidRip sc, s.now, 0, 0, c, [parcel, step, attempt]⟩
      let s := s.onCtx c (fun x => { x with repair := if x.repair.contains parcel then x.repair else x.repair ++ [parcel] })
      if s.buddyLost then (s.endRun c stFaulted noCause).askHold c (uidRip sc) .plan
      else s.fctl c 65 6 (restoreBody c s.myPos 1)

/-! Transfers (R263, R268, R283). -/

/-- A fragment prefix. -/
def prefixBytes (parcel step attempt wnext idx frags flags : Nat) : List Byte :=
  leBytes 4 parcel ++ leBytes 4 step ++ leBytes 1 attempt ++ leBytes 1 wnext ++ leBytes 2 idx ++ leBytes 2 frags ++ leBytes 1 flags ++ leBytes 1 0
/-- Send a transfer in fragments of 2 KiB; without data a record alone. -/
def State.transfer (s : State) (c dst parcel typ vc step attempt wnext flags : Nat) (data : List Byte) : State :=
  let n := (data.length + 2047) / 2048
  if n = 0 then s.fsend c dst parcel typ vc (prefixBytes parcel step attempt wnext 0 0 flags)
  else s.fsendAll parcel ((List.range n).map (fun i => ⟨vc, typ, c, dst, prefixBytes parcel step attempt wnext i n flags ++ fitBytes 2048 ((data.drop (2048 * i)).take 2048)⟩))
/-- Send a mirror transfer of a state slot, or the record alone of a parcel committed as unchanged, to route entry `dst`. -/
def State.sendMirror (s : State) (c dst parcel : Nat) (e : PEnt) (slot step attempt wnext : Nat) (unch : Bool) : State :=
  if unch then s.transfer c dst parcel 5 3 step attempt wnext 1 []
  else afterRead (s.readParts c (slotParts e (grBf ((s.ctx c).groupOf e)) slot)) (fun s r => s.stateError (extSc e.wext) c parcel step attempt r)
    (fun s bs => s.transfer c dst parcel 5 3 step attempt wnext 0 bs.flatten)
/-- Send the working slot of bank b of a parcel to positions. -/
def State.sendWork (s : State) (c parcel : Nat) (e : PEnt) (b step attempt wnext : Nat) (dsts : List Nat) : State :=
  afterRead (s.readPart c (s.workPart e (grWfmt ((s.ctx c).groupOf e)) b)) (fun s r => s.stateError (extSc e.wext) c parcel step attempt r)
    (fun s w => dsts.foldl (fun s q => s.transfer c q parcel 4 2 step attempt wnext 0 w) s)
/-- The all-gather of a committed parcel (R268). -/
def State.allGather (s : State) (c parcel : Nat) (e : PEnt) (step attempt wnext : Nat) : State :=
  s.sendWork c parcel e (step + 1) step attempt wnext (((s.ctx c).members e).filter (· ≠ s.myPos))

/-! Step records (R253, R355). -/

/-- Change the record of a step; the last 16 are kept. -/
def Ctx.onRec (x : Ctx) (step : Nat) (f : StepRec → StepRec) : Ctx :=
  let r := (x.recs.find? (fun r => r.step = step)).getD { step := step }
  let l := x.recs.filter (fun r => r.step ≠ step) ++ [f r]
  { x with recs := l.drop (l.length - 16) }
/-- Put a parcel's values into its step's record. -/
def Ctx.putStat (x : Ctx) (step : Nat) (p : PStat) : Ctx :=
  x.onRec step (fun r => { r with parcels := r.parcels.filter (fun q => q.parcel ≠ p.parcel) ++ [p] })
/-- A parcel's values in a step. -/
def Ctx.statOf (x : Ctx) (step parcel : Nat) : Option PStat :=
  (x.recs.find? (fun r => r.step = step)).bind (fun r => r.parcels.find? (fun q => q.parcel = parcel))
/-- w_next (R97). -/
def nextScale (x : Ctx) (w : Nat) (a : Val) (s : Nat) : Nat :=
  if a.isZero then w
  else
    let et := a.log2 - (if x.e4m3 then 8 else 15) + 127 + (x.headroom : Int)
    let n := if 0 < s then max et ((w : Int) + x.satStep) else max et ((w : Int) - x.downStep)
    (min (max n 0) (wMax x.e4m3)).toNat

/-! The start of a commit (R263). -/

/-- Take NEWSLOT with its lease and set INF; none where no slot is spare or the lease is not granted. -/
def State.takeSlot (s : State) (c parcel : Nat) (e : PEnt) : Option (State × Nat) :=
  let sc := extSc e.wext
  match s.spareSlot c e (grBf ((s.ctx c).groupOf e)) with
  | none => none
  | some n =>
    let r := s.leaseTake (s.newLease (uidSc sc) 1 n (uidRip sc) c)
    if r.2 ≠ 0 then none
    else some (r.1.onCtx c (fun x => { x with commits := x.commits.upd {} parcel (fun m => { m with v := true, inf := true, newslot := n }) }), n)
/-- Give back a commit's slot lease. -/
def State.dropSlotLease (s : State) (c sc slot : Nat) : State := s.leaseDrop (s.newLease (uidSc sc) 1 slot (uidRip sc) c)
/-- Order 1's end and order 2: the mirror transfer leaves and the commit is in flight. -/
def State.fly1 (s : State) (c parcel : Nat) (e : PEnt) (slot step attempt wnext : Nat) (unch initial : Bool) : State :=
  let s := s.onCtx c (fun x => { x with flight := x.flight.filter (fun f => f.parcel ≠ parcel) ++ [⟨parcel, step, attempt, s.clk.beat, unch, wnext, initial⟩] })
  s.sendMirror c 65 parcel e slot step attempt wnext unch
/-- Free the owner buffer of a parcel. -/
def State.freeOwner (s : State) (sc c parcel : Nat) : State :=
  s.onSc sc (fun k => { k with owners := k.owners.filter (fun o => ¬(o.ctx = c ∧ o.parcel = parcel)) })
/-- Commit a parcel as unchanged: it keeps its slot and its scale entry, and its working copy is in both banks from now on (R260). -/
def State.commitUnchanged (s : State) (c parcel : Nat) (e : PEnt) (step attempt : Nat) (stat : PStat) : State :=
  let x := s.ctx c
  afterRead (s.readPart c (s.workPart e (grWfmt (x.groupOf e)) step)) (fun s r => s.stateError (extSc e.wext) c parcel step attempt r) (fun s w =>
  let s := s.writeWork c e (step + 1) w
  let s := s.onCtx c (fun x => { x.putStat step stat with commits := x.commits.upd {} parcel (fun m => { m with v := true, inf := true, newslot := m.slot }) })
  (s.fly1 c parcel e (x.commits.get {} parcel).slot step attempt (x.scale parcel) true false).freeOwner (extSc e.wext) c parcel)
/-- The working copy of bank s mod 2 where a sparse group needs its untouched blocks. -/
def State.readOld (s : State) (c : Nat) (e : PEnt) (wfmt step : Nat) (touched : Option (List Nat)) : State × Except PartErr (List Byte) :=
  match touched with
  | some _ => s.readPart c (s.workPart e wfmt step)
  | none => (s, .ok [])
/-- Write the working copy of a new slot into bank (s + 1) mod 2 and let the mirror transfer go; the blocks of a sparse group that nothing reached
stay as they were. Where they cannot be read, the commit is abandoned. -/
def State.finishUpdate (s : State) (c parcel : Nat) (e : PEnt) (slot step attempt : Nat) (master : List Nat) (touched : Option (List Nat)) : State :=
  let x := s.ctx c
  let g := x.groupOf e
  let sc := extSc e.wext
  afterRead (s.readOld c e (grWfmt g) step touched) (fun s r => ((s.dropSlotLease c sc slot).abandonCommit c parcel).stateError sc c parcel step attempt r) (fun s old =>
    let new := deriveWork g x.seedOf parcel master
    let w := (touched.map (fun t => keepUntouched (grWfmt g) t old new)).getD new
    let st := (x.statOf step parcel).getD ⟨parcel, 0, 0, false, 0, 0⟩
    let s := s.onSc sc (fun k => { k with rpFl := k.rpFl.or (deriveFlags g x.seedOf parcel master) })
    ((s.writeWork c e (step + 1) w).fly1 c parcel e slot step attempt (nextScale x (x.scale parcel) (v32 st.a) st.s) false false).freeOwner sc c parcel)

end Sys2Proof.Machine
end

