-- ==== Sys2Proof/Machine/BindOps.lean ====
section
/-! DEFINITION. Shared operations of binding: who holds what, allocation, revocation and binding of each kind of resource, and the close of
a context (spec 13: R321, R322, R327 to R330). -/

namespace Sys2Proof.Machine

/-! Holders. -/

/-- The context that holds a resource: 0 region, 1 extent, 2 slot, 3 group block; none for an extent that does not exist. -/
def State.holder (s : State) (kind idx : Nat) : Option Nat :=
  if kind = 0 then some (s.region idx).ctx
  else if kind = 1 then (s.ext idx).map ExtEnt.ctx
  else if kind = 2 then some ((s.sc (idx / 64)).slots.get {} (idx % 64)).ctx
  else some (((s.ctxs.find? (fun p => decide (p.2.gblk = some idx))).map Prod.fst).getD 0)
/-- The orders taken for a resource, in the order they were taken. -/
def State.ordersFor (s : State) (kind idx : Nat) : List BindOrd := s.binds.filter (fun b => b.kind = kind && b.idx = idx)
/-- The context that holds a resource once every order taken has taken effect (R328). -/
def State.willHold (s : State) (kind idx : Nat) : Option Nat :=
  match (s.ordersFor kind idx).getLast? with
  | some b => if b.free then (if kind = 1 then none else some 0) else some b.ctx
  | none => s.holder kind idx
/-- The first boundary an order reaches: a region's under R25's rule, any other the next one (R329). -/
def State.effectBeat (s : State) (kind cyc : Nat) : Nat := s.clk.beat + (if kind = 0 then reach cyc else 1)
/-- Store pages a context will hold. -/
def State.pagesToBe (s : State) (c : Nat) : Nat :=
  (s.extents.filter (fun p => s.willHold 1 p.1 = some c)).foldl (fun a p => a + s.storePages p.1 p.2) 0 +
    (s.binds.filter (fun b => decide (b.ctx = c))).foldl (fun a b => a + ((b.make.map ExtMake.store).getD []).length) 0
/-- Stream slots a context will hold. -/
def State.slotsToBe (s : State) (c : Nat) : Nat :=
  s.scs.foldl (fun a q => if q.2.serving then a + ((List.range 64).filter (fun n => s.willHold 2 (64 * q.1 + n) = some c)).length else a) 0
/-- The group block a context will hold. -/
def State.groupToBe (s : State) (c : Nat) : Option Nat := (List.range 32).find? (fun k => s.willHold 3 k = some c)

/-! Allocation: the lowest free numbers (entry 24). -/

/-- The lowest start of a free run of `n` below `top`, given the runs taken. -/
def lowestRun (taken : List (Nat × Nat)) (n top : Nat) : Option Nat :=
  let free (a : Nat) : Bool := decide (a + n ≤ top) && taken.all (fun r => decide (a + n ≤ r.1 ∨ r.1 + r.2 ≤ a))
  let cs := (0 :: taken.map (fun r => r.1 + r.2)).filter free
  match cs with
  | [] => none
  | c :: cs => some (minOf c cs)
/-- The lowest `n` numbers from k on that `used` does not hold; at most `fuel` are tried. -/
def lowestFree (used : List Nat) : Nat → Nat → Nat → List Nat
  | 0, _, _ => []
  | fuel + 1, k, n => if n = 0 then [] else if used.contains k then lowestFree used fuel (k + 1) n else k :: lowestFree used fuel (k + 1) (n - 1)
/-- The makes set aside at a stack controller, by extent number. -/
def State.makesAt (s : State) (sc : Nat) : List (Nat × ExtMake) :=
  s.binds.filterMap (fun b => if b.kind = 1 ∧ extSc b.idx = sc then b.make.map (fun m => (b.idx, m)) else none)
/-- Store pages in use, retired, or set aside at a stack controller. -/
def State.usedPages (s : State) (sc : Nat) : List Nat :=
  (s.sc sc).map.filterMap (fun p => if bit p.2 63 && !pgFar p.2 then some (pgAddr p.2) else none) ++ (s.sc sc).retired ++
    (s.makesAt sc).flatMap (fun m => m.2.store)
/-- Reserved pages at the top of a stack, of which the last are the spare pages (R196). -/
def reservedPages : Nat := 512
/-- Spare pages at the very top. -/
def sparePages : Nat := 64
/-- The pages of a stack that extents may be placed in: below the reserved ones (R196). -/
def Sc.openPages (c : Sc) : Nat := c.pages - reservedPages
/-- The lowest extent index without an entry. -/
def State.freeIndex (s : State) (sc : Nat) : Option Nat :=
  (List.range 2048).find? (fun i => !(s.sc sc).ext.any (fun p => decide (p.1 = i)) && !(s.makesAt sc).any (fun m => decide (extIdx m.1 = i)))
/-- The lowest free run of the page map. -/
def State.freeMap (s : State) (sc n : Nat) : Option Nat :=
  lowestRun ((s.extents.filter (fun p => extSc p.1 = sc)).map (fun p => (p.2.base, p.2.pages)) ++ (s.makesAt sc).map (fun m => (m.2.base, m.2.pages))) n 65536
/-- The window pages mapped or set aside. -/
def State.winTaken (s : State) : List (Nat × Nat) :=
  s.extents.filterMap (fun p => let w := (s.sc (extSc p.1)).win.get 0 (extIdx p.1); if w = 0 then none else some (w - 1, p.2.pages)) ++
    s.binds.filterMap (fun b => b.make.bind (fun m => if m.win = 0 then none else some (m.win - 1, m.pages)))
/-- The first free run of window pages (R314, R330). -/
def State.freeWin (s : State) (n : Nat) : Option Nat := lowestRun s.winTaken n 1048576
/-- The first window page of an extent, plus one; 0 where it is not mapped. -/
def State.winOf (s : State) (e : Nat) : Nat := (s.sc (extSc e)).win.get 0 (extIdx e)
/-- Map or unmap an extent's window pages. -/
def State.setWin (s : State) (e w : Nat) : State := s.onSc (extSc e) (fun c => { c with win := c.win.set 0 (extIdx e) w })

/-! Revocation and binding, kind by kind (R330). -/

/-- A stream works on an extent. -/
def Slot.uses (x : Slot) (e : Nat) : Bool := x.live && (decide (sdExt x.desc = e) || (decide (sdMode x.desc = 1) && decide (sdIext x.desc = e)))
/-- A context's parcel map names an extent, or the pair of one it names. -/
def State.mapUses (s : State) (c e : Nat) : Bool :=
  (s.ctx c).pmap.any (fun p => decide (p.wext = e) || decide (s.bankExt p.wext 1 = e) || decide (p.mext = e) || decide (p.vext = e) || decide (p.bext = e))
/-- A context's run whose work uses an extent ends FAULTED, and its partition stays held (R338). -/
def State.endUsers (s : State) (c e : Nat) : State :=
  if s.scs.any (fun q => q.2.slots.any (fun p => decide (p.2.ctx = c) && p.2.uses e)) ∨ s.mapUses c e then
    (s.endRun c stFaulted noCause).askHold c uidKeeper .plan
  else s
/-- Traces into an extent that is revoked end FAULTED (R344). -/
def State.endTraces (s : State) (e : Nat) : State :=
  s.tr.traces.foldl (fun s t =>
    if t.ref.dext = e then
      let idx := s.log.next
      let s := s.keeperFault fcDataRefLost (uidSc (extSc e)) t.ctx 0 [e, (t.ref.doff + 64 * t.n) / pageBytes, (t.ref.doff + 64 * t.n) % 2 ^ 32, (t.ref.doff + 64 * t.n) / 2 ^ 32]
      ({ s with tr := { s.tr with traces := s.tr.traces.filter (fun u => u.long ≠ t.long) } }).finish t.long stFaulted (idx + 2 ^ 32 * t.n)
    else s) s
/-- The extent leaves its holder: streams aborted, its users' runs ended, window pages unmapped; a zero-fill in progress begins anew. -/
def State.dropExtent (s : State) (e : Nat) (x : ExtEnt) : State :=
  let s := s.endUsers x.ctx e
  let s := s.abortStreams 5 (fun q => q.uses e)
  let gone := (List.range x.pages).map (fun l => pgAddr (s.pageEnt e x l))
  ((s.endTraces e).setWin e 0).onSc (extSc e) (fun c => { c with fills := c.fills.filter (fun p => !gone.contains p.1) })
/-- A plain revoke: V = 0, its store pages and map entries are free, and its pair has none. -/
def State.freeExtent (s : State) (e : Nat) (x : ExtEnt) : State :=
  (s.dropExtent e x).onSc (extSc e) (fun c => { c with
    ext := c.ext.del (extIdx e)
    map := c.map.filter (fun p => decide (p.1 < x.base ∨ x.base + x.pages ≤ p.1))
    pair := (c.pair.del (extIdx e)).filter (fun p => p.2 ≠ extIdx e + 1) })
/-- A move: ZT on every store page, far pages absent with ADDR cleared, the new holder, and its window where it may have one. -/
def State.moveExtent (s : State) (e : Nat) (x : ExtEnt) (c : Nat) : State :=
  let s := s.dropExtent e x
  let s := (List.range x.pages).foldl (fun s l =>
    let w := s.pageEnt e x l
    s.setPage e x l (if pgFar w then farPage 0 false else storePage (pgAddr w) true)) s
  let hv := x.hv && (s.ctx c).export_
  let win := if hv then s.freeWin x.pages else none
  (s.setExt e { x with ctx := c, hv := hv }).setWin e ((win.map (· + 1)).getD 0)
/-- An extent is created as EXTENT_CREATE set it aside; without EXPORT any more it is not mapped (R327). -/
def State.makeExtent (s : State) (e c : Nat) (m : ExtMake) : State :=
  let hv := decide (m.win ≠ 0) && (s.ctx c).export_
  let x : ExtEnt := ⟨c, m.kind, hv, m.pages, m.base⟩
  let s := s.setExt e x
  let s := if m.far then (List.range m.pages).foldl (fun s l => s.setPage e x l (farPage 0 false)) s
    else m.store.zipIdx.foldl (fun s p => s.setPage e x p.2 (storePage p.1 true)) s
  let s := s.setWin e (if hv then m.win else 0)
  if m.pair = 0 then s
  else s.onSc (extSc e) (fun k => { k with pair := (k.pair.set 0 (extIdx e) m.pair).set 0 (m.pair - 1) (extIdx e + 1) })
/-- A region passes to a context: the former holder loses it (R330), a standby move of it is abandoned (R338), and a change of partition frees
the handles of both (R351). -/
def State.bindRegion (s : State) (r c : Nat) : State :=
  let old := (s.region r).ctx
  if old = c then s
  else
    let s := s.reclaim (fun l => decide (l.kind = 3 ∧ l.holder = uidRc r))
    let s := s.revokeRegion r
    (s.freeAllSets c).onRegion r (fun g => { g with ctx := c })
/-- A group block leaves its holder: its steps end FAULTED, the records are reset, with update counts of 0. -/
def State.dropGroup (s : State) (k : Nat) : State :=
  match s.ctxs.find? (fun p => decide (p.2.gblk = some k)) with
  | none => s
  | some p =>
    let s := if p.2.run.any (fun r => decide (r.kind = .step)) then (s.endRun p.1 stFaulted noCause).askHold p.1 uidKeeper .plan else s
    s.onCtx p.1 (fun x => { x with gblk := none, groups := [], counts := [], bumped := [] })
/-- Carry one order out. -/
def State.applyBind (s : State) (b : BindOrd) : State :=
  if s.holder b.kind b.idx = some b.ctx ∧ b.free = false ∧ b.make = none then s
  else match b.kind with
    | 0 => s.bindRegion b.idx (if b.free then 0 else b.ctx)
    | 1 => match b.make, s.ext b.idx with
      | some m, _ => s.makeExtent b.idx b.ctx m
      | none, some x => if b.free then s.freeExtent b.idx x else s.moveExtent b.idx x b.ctx
      | none, none => s
    | 2 =>
      let x := (s.sc (b.idx / 64)).slots.get {} (b.idx % 64)
      let s := if x.live then s.askHold x.ctx (uidSc (b.idx / 64)) .plan else s
      s.onSlot (b.idx / 64) (b.idx % 64) (fun _ => { ctx := if b.free then 0 else b.ctx })
    | _ =>
      let s := s.dropGroup b.idx
      if b.free ∨ b.ctx = 0 then s else s.onCtx b.ctx (fun x => { x with gblk := some b.idx, groups := [], counts := [] })
/-- DETAIL of a binding's final reply: the extent number of a creation, and the first window page in bytes 4 to 7. -/
def State.bindDetail (s : State) (b : BindOrd) : Nat :=
  if b.kind ≠ 1 ∨ b.free then 0
  else (if b.make.isSome then b.idx else 0) + (s.winOf b.idx - 1) * 2 ^ 32
/-- Add a free order for everything a context will hold, with no reply of its own or with that of `long` (R322, R327). -/
def State.revokeAll (s : State) (c : Nat) : State :=
  let o (kind idx : Nat) : BindOrd := ⟨none, kind, idx, c, true, s.effectBeat kind s.clk.cycle, none⟩
  let rs := (allRegions.filter (fun r => s.willHold 0 r = some c)).map (o 0)
  let es := ((s.extents.map Prod.fst ++ s.binds.filterMap (fun b => b.make.map (fun _ => b.idx))).filter (fun e => s.willHold 1 e = some c)).map (o 1)
  let ss := (s.scs.flatMap (fun q => (List.range 64).map (64 * q.1 + ·))).filter (fun n => s.willHold 2 n = some c) |>.map (o 2)
  let gs := ((List.range 32).filter (fun k => s.willHold 3 k = some c)).map (o 3)
  { s with binds := s.binds ++ rs ++ es ++ ss ++ gs }
/-- A close begins (R322): every binding is revoked, every plan and stream ends, tests stop (R444). -/
def State.beginClose (s : State) (c : Nat) (toUngranted : Bool) : State :=
  let s := s.onCtx c (fun x => { x with st := .closing, toUngranted := x.toUngranted || toUngranted })
  let s := s.reclaim (fun l => decide (l.kind = 4) && decide (l.ctx = c))
  let s := s.dropTests (fun t => s.long.any (fun l => decide (l.id = t.long) && decide (l.ctx = c)))
  s.revokeAll c
/-- The commands that await the close of a context. -/
def State.closers (s : State) (c : Nat) : List Nat :=
  (s.long.filter (fun l => decide (l.a = c) && (decide (l.job = .ctxClose) || (decide (l.job = .protChange) && decide (l.b = 1))))).map Long.id
/-- A context whose bindings are gone becomes closed or ungranted at a boundary: its runs and streams have ended, its handles are free, its
long-running commands end ABORTED, and an open that waited follows or is refused (R322, R343). -/
def State.endClose (s : State) (c : Nat) : State :=
  let s := s.killRuns c stAborted noCause
  let s := (s.freeBuffers c).freeAllSets c
  let s := (s.closers c).foldl (fun s i => s.finish i stOk 0) s
  let s := { s with tr := { s.tr with traces := s.tr.traces.filter (fun t => t.ctx ≠ c) } }
  let rest := (s.long.filter (fun l => decide (l.ctx = c) && decide (l.job ≠ .protChange) && decide (l.job ≠ .ctxOpen))).map Long.id
  let s := s.finishAll rest stAborted noCause
  let x := s.ctx c
  let s := { s with ha := { s.ha with far := s.ha.far.filter (fun f => f.ctx ≠ c) } }
  let s := s.onCtx c (fun x =>
    { x with st := if x.toUngranted then .ungranted else .closed, toUngranted := false, queuedOpen := none, sets := [], switch := none, moves := [], part := {}
             deferred := [], takeover := none, initWait := [], lib := [], map := none, ring := { x.ring with st := .disabled } })
  match x.queuedOpen with
  | some q => if x.toUngranted then s.finish q.2 stDenied 0 else s.onCtx c (fun x => { x with opening := some q })
  | none => s

end Sys2Proof.Machine
end

