-- ==== Sys2Proof/Machine/BindCmd.lean ====
section
/-! DEFINITION. Binding commands and the boundary at which they take effect (spec 13: R328 to R330; spec 14: R347). -/

namespace Sys2Proof.Machine

/-- MOVE. -/
def fMove (flags : Nat) : Bool := bit flags 0
/-- FREE. -/
def fFree (flags : Nat) : Bool := bit flags 1
/-- Flags a binding command may carry. -/
def bindFlagsOk (flags : Nat) : Bool := decide (flags < 3)
/-- Take an order for a resource. -/
def takeBind (kind idx c : Nat) (free : Bool) (mk : Option ExtMake) (s : State) : Verdict :=
  .accept stAccepted .bind 0 0 (fun id s => { s with binds := s.binds ++ [⟨some id, kind, idx, c, free, s.effectBeat kind s.clk.cycle, mk⟩] }) s
/-- The common part of R328 for a resource that exists, whose holder-to-be is `w`: FREE of what CTX does not hold, a holding that stays, a
user holder without MOVE, and `room`, which answers the quota. -/
def bindIt (h : Hdr) (kind idx flags w : Nat) (room : Bool) (s : State) : Verdict :=
  let c := h.ctx
  if fFree flags then (if w = c then takeBind kind idx c true none s else refuse stBadParam s)
  else if w = c then (if s.ordersFor kind idx = [] then acceptNow s .bind (fun s => (s, stOk, 0)) else takeBind kind idx c false none s)
  else if isUser w ∧ fMove flags = false then refuse stBusy s
  else if room then takeBind kind idx c false none s
  else refuse stNoResource s
/-- On its own ring a context may only FREE what it holds. -/
def ownOnly (h : Hdr) (flags : Nat) (w : Option Nat) : Bool := h.sys || (fFree flags && !fMove flags && decide (w = some h.ctx))

/-- REGION_BIND. -/
def doRegionBind (h : Hdr) (region flags : Nat) (s : State) : State :=
  packet 0x0201 [1] true h s (fun s =>
    let x := s.ctx h.ctx
    if region < 80 ∧ fFree flags = false ∧ x.mayHold region = false then refuse stDenied s
    else check6 h s (decide (region < 80) && bindFlagsOk flags && decide ((s.region region).st = .active))
      (bindIt h 0 region flags ((s.willHold 0 region).getD 0) true s))
/-- What EXTENT_CREATE sets aside, or why it cannot. -/
def State.planExtent (s : State) (c sc kind pages pair : Nat) (hv far : Bool) : Option (Nat × ExtMake) :=
  let store := if far then [] else lowestFree (s.usedPages sc) (s.sc sc).openPages 0 pages
  let win := if hv then s.freeWin pages else some 0
  let quota := c = 0 ∨ far ∨ s.pagesToBe c + pages ≤ (s.ctx c).pageQ
  (s.freeIndex sc).bind (fun i => (s.freeMap sc pages).bind (fun base => win.bind (fun w =>
    if quota ∧ (far ∨ store.length = pages) then
      some (2048 * sc + i, ⟨kind, far, pages, base, store, if hv then w + 1 else 0, if kind = 2 then extIdx pair + 1 else 0⟩)
    else none)))
/-- PAIR names a free kind-1 extent of CTX at the same stack controller with as many pages (R227, R347). -/
def State.pairOk (s : State) (c sc pages pair : Nat) : Bool :=
  (s.ext pair).any (fun e => decide (e.kind = 1) && decide (e.ctx = c) && decide (extSc pair = sc) && decide (e.pages = pages)) &&
    decide ((s.sc sc).pair.get 0 (extIdx pair) = 0) && !(s.makesAt sc).any (fun m => decide (m.2.pair = extIdx pair + 1))
/-- EXTENT_CREATE. -/
def doExtentCreate (h : Hdr) (sc kind flags pages pair : Nat) (s : State) : State :=
  packet 0x0202 [1] false h s (fun s =>
    let c := h.ctx
    let x := s.ctx c
    let hv := bit flags 0
    let far := bit flags 1
    if (hv ∧ x.export_ = false) ∨ (far ∧ x.farPg = false) then refuse stDenied s
    else check6 h s (decide (sc < 24) && (s.sc sc).serving && decide (kind ≤ 5) && decide (flags < 4) && decide (1 ≤ pages) &&
        (s.freeIndex sc).isSome && (s.freeMap sc pages).isSome &&
        (!far || (decide (kind ≠ 1) && decide (kind ≠ 2))) && (!hv || decide (kind = 1) || decide (kind = 2)) && (decide (kind ≠ 2) || s.pairOk c sc pages pair))
      (match s.planExtent c sc kind pages pair hv far with
       | some p => takeBind 1 p.1 c false (some p.2) s
       | none => refuse stNoResource s))
/-- EXTENT_BIND. -/
def doExtentBind (h : Hdr) (ext flags : Nat) (s : State) : State :=
  packet 0x0203 [1] false h s (fun s =>
    let c := h.ctx
    let w := s.willHold 1 ext
    if ownOnly h flags w = false then refuse stDenied s
    else check6 h s (w.isSome && bindFlagsOk flags && !(s.ext ext).any (fun e => decide (e.kind = 6)))
      (bindIt h 1 ext flags (w.getD 0)
        (decide (c = 0) || decide (s.pagesToBe c + ((s.ext ext).map (fun e => s.storePages ext e)).getD 0 ≤ (s.ctx c).pageQ)) s))
/-- SLOT_BIND. -/
def doSlotBind (h : Hdr) (stream flags : Nat) (s : State) : State :=
  packet 0x0204 [1] false h s (fun s =>
    let c := h.ctx
    let w := s.willHold 2 stream
    if ownOnly h flags w = false then refuse stDenied s
    else check6 h s (decide (stream < 1536) && (s.sc (stream / 64)).serving && bindFlagsOk flags)
      (bindIt h 2 stream flags (w.getD 0) (decide (c = 0) || decide (s.slotsToBe c + 1 ≤ (s.ctx c).slotQ)) s))
/-- GROUP_BIND. -/
def doGroupBind (h : Hdr) (blk flags : Nat) (s : State) : State :=
  packet 0x0205 [1] true h s (fun s =>
    let c := h.ctx
    if fFree flags = false ∧ (s.ctx c).gq = false then refuse stDenied s
    else check6 h s (decide (blk < 32) && bindFlagsOk flags)
      (bindIt h 3 blk flags ((s.willHold 3 blk).getD 0) (decide (c = 0) || (s.groupToBe c).isNone) s))
/-- The queued tests of a region's clusters report RESULT 3 (R444). -/
def State.dropRegionTests (s : State) (r : Nat) : State := s.dropTests (fun t => decide (uClass t.unit = 3) && decide (uRegion t.unit = r))
/-- The beat-stamp at which the last zero-fill of a region's tiles ends. -/
def State.fillEnd (s : State) (r : Nat) : Nat := (List.range 64).foldl (fun a i => max a (s.tile (64 * r + i)).scrubEnd) 0
/-- A tile of a region is being zero-filled. -/
def State.filling (s : State) (r : Nat) : Bool := decide (s.now < s.fillEnd r)
/-- The final OK of a region's binding follows the zero-fill of its tiles (R330). -/
def State.afterFill (s : State) (id r : Nat) : State :=
  { s with long := s.long.map (fun (l : Long) => if l.id = id then { l with job := .fill, a := s.fillEnd r } else l) }
/-- A partition reset of a region's partition is ordered: a binding of the region waits for it (R384). -/
def State.resetComes (s : State) (r : Nat) : Bool := s.resets.any (fun o => decide (o.level = 2) && (s.working o.party ++ s.bound o.party).contains r)
/-- BINDING_EFFECT (R329): at a boundary its order reaches, the first order for a resource takes effect; the next one waits for a later
boundary, and the final reply follows with its last. The binding of a region waits for a test that runs there (R444). -/
def doBindingEffect (kind idx : Nat) (s : State) : State :=
  match s.ordersFor kind idx with
  | [] => s
  | b :: _ =>
    if s.clk.cycle ≠ 0 ∨ s.clk.beat < b.beat ∨ (b.kind = 0 ∧ s.resetComes idx) then s
    else if b.kind = 0 ∧ s.tr.tests.any (fun t => t.running && decide (uClass t.unit = 3) && decide (uRegion t.unit = idx)) then s.dropRegionTests idx
    else
      let s := (if b.kind = 0 then s.dropRegionTests idx else s).applyBind b
      let s := { s with binds := (s.binds.erase b).map (fun o => if o.kind = kind ∧ o.idx = idx then { o with beat := max o.beat (s.clk.beat + 1) } else o) }
      match b.long with
      | none => s
      | some id =>
        if s.binds.any (fun o => decide (o.long = some id)) then s
        else if b.kind = 0 ∧ s.filling idx then s.afterFill id idx
        else s.finish id stOk (s.bindDetail b)

/-! The meanings: one per command, each a frame around its effect. -/

/-- REGION_BIND (R328). -/
def execRegionBind (h : Hdr) (region flags : Nat) (s : State) : Out :=
  guarded "REGION_BIND" (.regionBind h region flags) s (doRegionBind h region flags)
/-- EXTENT_CREATE (R347). -/
def execExtentCreate (h : Hdr) (sc kind flags pages pair : Nat) (s : State) : Out :=
  guarded "EXTENT_CREATE" (.extentCreate h sc kind flags pages pair) s (doExtentCreate h sc kind flags pages pair)
/-- EXTENT_BIND (R328). -/
def execExtentBind (h : Hdr) (ext flags : Nat) (s : State) : Out :=
  guarded "EXTENT_BIND" (.extentBind h ext flags) s (doExtentBind h ext flags)
/-- SLOT_BIND (R328). -/
def execSlotBind (h : Hdr) (stream flags : Nat) (s : State) : Out :=
  guarded "SLOT_BIND" (.slotBind h stream flags) s (doSlotBind h stream flags)
/-- GROUP_BIND (R328). -/
def execGroupBind (h : Hdr) (blk flags : Nat) (s : State) : Out :=
  guarded "GROUP_BIND" (.groupBind h blk flags) s (doGroupBind h blk flags)
/-- BINDING_EFFECT (R329). -/
def execBindingEffect (kind idx : Nat) (s : State) : Out :=
  guarded "BINDING_EFFECT" (.bindingEffect kind idx) s (doBindingEffect kind idx)

end Sys2Proof.Machine
end

