-- ==== Sys2Proof/Machine/Firmware.lean ====
section
/-! DEFINITION. Firmware images and variant certificates (spec 15: R362, R363, R365; spec 19: R447, R448). -/

namespace Sys2Proof.Machine

/-- Sections an image names. -/
def fwNsec (b : List Byte) : Nat := ofLE ((b.drop 12).take 4)
/-- Section i: its type, and its bytes. -/
def fwSec (b : List Byte) (i : Nat) : Nat × List Byte :=
  let e := b.drop (64 + 64 * i)
  (ofLE (e.take 1), (b.drop (ofLE ((e.drop 8).take 8))).take (ofLE ((e.drop 16).take 8)))
/-- Where the sections end. -/
def fwEnd (b : List Byte) : Nat :=
  (List.range (min 64 (fwNsec b))).foldl (fun a i => let e := b.drop (64 + 64 * i); max a (ofLE ((e.drop 8).take 8) + ofLE ((e.drop 16).take 8))) (64 + 64 * min 64 (fwNsec b))
/-- The firmware-key certificate. -/
def fwCert (b : List Byte) : List Byte := (b.drop (fwEnd b + 4)).take (ofLE ((b.drop (fwEnd b)).take 4))
/-- Bytes of the image without its signature. -/
def fwLen (b : List Byte) : Nat := fwEnd b + 4 + (fwCert b).length
/-- The image itself, without what follows it. -/
def fwImage (b : List Byte) : List Byte := b.take (fwLen b + 96)
/-- FWVER. -/
def fwVer (b : List Byte) : Nat := ofLE ((b.drop 4).take 4)
/-- SVN. -/
def fwSvn (b : List Byte) : Nat := ofLE ((b.drop 8).take 4)
/-- Every section digest matches. -/
def fwSections (b : List Byte) : Bool :=
  (List.range (fwNsec b)).all (fun i => decide ((sha384 (fwSec b i).2).take 40 = ((b.drop (64 + 64 * i + 24)).take 40)))
/-- The section of a type: 1 Keeper firmware, 2 boot image, 3 key bundle, 4 variant certificate (entry 31). -/
def fwSection (b : List Byte) (typ : Nat) : Option (List Byte) :=
  ((List.range (min 64 (fwNsec b))).map (fwSec b)).find? (fun p => p.1 = typ) |>.map Prod.snd
/-- The public key of a certificate that chains to the root (entry 8). -/
def Trust.chainKey (t : Trust) (cert : List Byte) : Option (List Byte) := (t.chained.find? (fun p => p.1 = cert)).map Prod.snd
/-- An image is accepted (R447). -/
def Trust.fwOk (t : Trust) (b : List Byte) : Bool :=
  decide (ofLE (b.take 4) = 0x4C574657) && decide (fwNsec b ≤ 64) && decide (fwLen b + 96 ≤ b.length) &&
    (t.chainKey (fwCert b)).any (fun k => verify k (b.take (fwLen b)) ((b.drop (fwLen b)).take 96)) && fwSections b && decide (t.minSvn ≤ fwSvn b)

/-! The variant certificate (R1, R16, R362, R363). -/

/-- The fields of a certificate. -/
def readVariant (b : List Byte) : Variant :=
  let f (o n : Nat) : Nat := ofLE ((b.drop o).take n)
  ⟨f 6 1, f 7 1, f 56 3, f 60 8, f 68 10, f 78 10, f 88 4⟩
/-- A list of numbers as a mask. -/
def maskN (l : List Nat) : Nat := l.foldl (fun a i => a ||| 2 ^ i) 0
/-- Default standby regions of a variant. -/
def standbyOf (v : Nat) : List Nat := if v = 0 then [0, 9, 70, 79] else [0, 9, 30, 39, 40, 49, 70, 79]
/-- Closed regions of a variant. -/
def closedOf (v : Nat) : List Nat := if v = 2 then [2, 3, 19, 29, 50, 60, 76, 77] else []
/-- Stack controllers of a variant. -/
def scsFitted (v : Nat) : Nat := if v = 2 then maskN ((List.range 24).filter (fun n => decide (n % 6 < 4))) else 2 ^ 24 - 1
/-- Links of a variant. -/
def linksFitted (v : Nat) : Nat := if v = 2 then maskN ((List.range 64).filter (fun n => decide (n % 16 < 12))) else 2 ^ 64 - 1
/-- The fields agree with the variant's rows. -/
def Variant.fits (v : Variant) : Bool :=
  decide (v.variant ≤ 2) && decide (v.stackcap = if v.variant = 0 then 1 else 0) && decide (v.scmask = scsFitted v.variant) &&
    decide (v.linkmask = linksFitted v.variant) && decide (v.closed = maskN (closedOf v.variant)) && decide (v.standby = maskN (standbyOf v.variant))
/-- A certificate is accepted, with the stacks present (R363). -/
def Trust.variantOk (t : Trust) (b : List Byte) (present : Nat) : Bool :=
  let v := readVariant b
  decide (b.length = 224) && decide (ofLE (b.take 4) = 0x4C575643) && decide (ofLE ((b.drop 4).take 2) = 1) && verify t.variantKey (b.take 128) (b.drop 128) &&
    decide ((b.drop 8).take 48 = t.devid) && decide (t.certSeq ≤ v.certseq) && v.fits && decide (present &&& v.scmask = v.scmask)
end Sys2Proof.Machine
end

