-- ==== Sys2Proof/Machine/LinkOps.lean ====
section
/-! DEFINITION. Shared operations over links: modes, caps, training and the topology record (spec 11: R277 to R280, R286, R292). -/

namespace Sys2Proof.Machine

/-- The widest usable lane group of a mask, lowest-numbered on a tie: width code and lanes (R277). -/
def widest (m : Nat) : Nat × Nat :=
  if m &&& 0xFF = 0xFF then (3, 0xFF)
  else match [0x0F, 0xF0].find? (fun g => decide (m &&& g = g)) with
    | some g => (2, g)
    | none => match [0x03, 0x0C, 0x30, 0xC0].find? (fun g => decide (m &&& g = g)) with
      | some g => (1, g)
      | none => (0, 0)
/-- Lanes of a width code. -/
def widthLanes (w : Nat) : Nat := if w = 3 then 8 else if w = 2 then 4 else if w = 1 then 2 else 0
/-- The mode of R278: width code, half rate, lanes. -/
def pickMode (t : Trained) : Nat × Bool × Nat :=
  let f := widest t.passF
  let h := widest t.passH
  if widthLanes h.1 ≤ 2 * widthLanes f.1 then (f.1, false, f.2) else (h.1, true, h.2)
/-- The widest mode the caps leave (R292, R400). -/
def capWidth (cfg : Nat) (gov : Bool) : Nat :=
  let w := bits cfg 3 2
  let c := if w = 0 then 3 else if w = 1 then 2 else if w = 2 then 1 else 0
  if gov then min 1 c else c
/-- A mode under the caps. -/
def Link.mode (l : Link) : Nat × Bool × Nat :=
  let w := min l.tw (capWidth l.cfg.toNat l.govCap)
  let m := if w = l.tw then l.tmask
    else if w = 2 then (widest (l.tmask &&& 0x0F)).2
    else if w = 1 then (([0x03, 0x0C, 0x30, 0xC0].find? (fun g => decide (l.tmask &&& g = g))).getD 0)
    else 0
  (w, l.th || bit l.cfg.toNat 1, m)
/-- Word 0 of a topology entry (R280). -/
def Link.word0 (l : Link) : Nat :=
  fld l.st 3 61 + fld l.width 2 59 + fld (b2n l.half) 1 58 + fld l.lmask 8 50 + fld l.pmask 8 42 + fld l.plink 6 36 + fld l.ppos 7 29 +
    fld l.ppod 16 13 + fld l.margin 8 5
/-- Word 1. -/
def Link.word1 (l : Link) : Nat := fld l.pidh 48 16 + fld l.gen 16 0
/-- Change a link; a change of its entry counts in both generations and posts a link event (R280). -/
def State.setLink (s : State) (n : Nat) (f : Link → Link) : State :=
  let a := s.link n
  let b := f a
  if a.word0 = b.word0 ∧ a.pidh = b.pidh then s.onLink n f
  else
    let g := (b.gen + 1) % 65536
    let s := s.onLink n (fun l => { f l with gen := g })
    { s with pod := { s.pod with gen := (s.pod.gen + 1) % 4294967296 } }.postSys 3 (n + b.st * 256 + g * 65536) 0
/-- An excluded link: what it held is discarded (R286). -/
def Link.exclude (l : Link) : Link :=
  { l with st := 2, width := 0, half := false, lmask := 0, queue := [], replay := [], narrowing := none, widen := none, inService := false, hello := none }
/-- A link in service in the mode its training and its caps give. A fresh training starts both directions anew. -/
def Link.up (l : Link) (t : Trained) : Link :=
  let m := l.mode
  let l := { l with st := 3, width := m.1, half := m.2.1, lmask := m.2.2, pmask := t.passF, plink := t.plink, ppos := t.pos, ppod := t.pod
                    margin := t.margin, pidh := t.pidh, narrowing := none, hello := none }
  if l.inService then { l with inService := false }
  else { l with txSeq := 0, rxSeq := 0, rxNak := false, replay := [], credit := [(0, 32), (1, 512), (2, 256), (3, 256)], rxCredit := []
                share := [], starve := [] }
/-- What a training finds, entered into the link: trained mode and lanes. -/
def Link.found (l : Link) (t : Trained) : Link :=
  let m := pickMode t
  { l with tw := m.1, th := m.2.1, tmask := m.2.2, pmask := t.passF }
/-- The outcome at time `wall` of a training on the link itself (R278, R279, R286, R292): where the mode is set and no HELLO has come, the link
waits for it for 100 ms. -/
def Link.trained (wall : Nat) (l : Link) (t : Trained) : Link :=
  let f := l.found t
  if t.signal = false ∧ l.inService = false then { f.exclude with st := 1, ppos := 0x7F, plink := 0, ppod := 0, pidh := 0, pmask := 0, margin := 0 }
  else if f.tw = 0 ∨ f.mode.1 = 0 then f.exclude
  else if t.hello = false then { f with st := 4, hello := some (t, wall + thirds 100) }
  else if l.inService ∧ t.pidh ≠ l.pidh then f.exclude
  else f.up t
/-- Queue a packet on a link itself and let it go. -/
def State.lsend (s : State) (n : Nat) (p : FPkt) : State := (s.onLink n (fun l => { l with queue := l.queue ++ [p] })).pumpLink n
/-- BEAT_EPOCH on one link (R39, R288). -/
def State.sendEpoch (s : State) (n : Nat) : State := s.lsend n ⟨0, 0x10, 0, (s.link n).ppos, ctlBody 4 (leBytes 8 s.clk.beat)⟩
/-- Send at once on a link that has come up, on a beat master. -/
def State.greet (s : State) (n : Nat) : State := if s.clk.mode.cable ∧ s.clk.mode.master ∧ (s.link n).st = 3 then s.sendEpoch n else s
/-- Final replies of the commands a retraining answers: LINK_RETRAIN shows word 0 found, LINK_WIDTH nothing (R354). -/
def State.endRetrain (s : State) (n : Nat) : State :=
  let l := s.link n
  let s := s.onLink n (fun l => { l with retrain := [] })
  l.retrain.foldl (fun s i => s.finish i stOk (if s.long.any (fun x => x.id = i && x.job = .linkRetrain) then l.word0 else 0)) s
/-- A training has left its link `f`: excluded in service it raises a fault, and the commands that waited for it are answered (R286). -/
def State.trainingOver (s : State) (n : Nat) (f : Link → Link) (other : Bool) : State :=
  let l := s.link n
  let s := s.setLink n f
  let s := if l.inService ∧ (s.link n).st ≠ 3 ∧ capWidth l.cfg.toNat l.govCap ≠ 0 then
      s.keeperFault (if other then fcPeerMismatch else fcFabricLinkDown) (uidLink n) 0 0 [l.ppod, l.ppos]
    else s
  ((s.greet n).endRetrain n).pumpLink n
/-- A training or retraining ends, or goes on waiting for the peer's HELLO. -/
def State.endTraining (s : State) (n : Nat) (t : Trained) : State :=
  let l := s.link n
  let f (l : Link) : Link := l.trained s.clk.wall t
  if (f l).hello.isSome then s.setLink n f else s.trainingOver n f (decide ((l.found t).tw ≠ 0) && t.hello && decide (t.pidh ≠ l.pidh))
/-- Links whose peer has sent no HELLO within 100 ms are excluded (R279). -/
def State.helloLate (s : State) : State :=
  (s.links.map Prod.fst).foldl (fun s n => if (s.link n).hello.any (fun q => decide (q.2 < s.clk.wall)) then s.trainingOver n Link.exclude false else s) s
/-- A link in service begins to retrain; it counts only where the link itself asks (R286, R293). -/
def State.beginRetrain (s : State) (n : Nat) : State := s.setLink n (fun l => { l with st := 4, inService := decide (l.st = 3) })
/-- The caps of a link change: what is narrower is done within 200 µs, what is wider by retraining (R292). -/
def State.capLink (s : State) (n : Nat) (f : Link → Link) (ids : List Nat) : State :=
  let a := (s.link n)
  let b := f a
  if a.st = 3 then
    let m := b.mode
    if m.1 = a.width ∧ m.2.1 = a.half then (s.onLink n f).finishAll ids stOk 0
    else if a.width < m.1 ∨ (a.half ∧ m.2.1 = false) then ((s.onLink n (fun l => { f l with retrain := l.retrain ++ ids })).beginRetrain n)
    else s.onLink n (fun l => { f l with narrowing := some (l.narrowing.getD [] ++ ids) })
  else if a.st = 2 ∧ capWidth a.cfg.toNat a.govCap = 0 ∧ capWidth b.cfg.toNat b.govCap ≠ 0 then
    (s.onLink n (fun l => { f l with retrain := l.retrain ++ ids })).beginRetrain n
  else if a.st = 4 then s.onLink n (fun l => { f l with retrain := l.retrain ++ ids })
  else (s.onLink n f).finishAll ids stOk 0

end Sys2Proof.Machine
end

