-- ==== Sys2Proof/Machine/FabricCmd.lean ====
section
/-! DEFINITION. Fabric commands (spec 11: R280, R282, R286, R292; spec 14: R354). -/

namespace Sys2Proof.Machine

/-- The topology record with its header (R280, R354). -/
def State.topology (s : State) : List Byte :=
  leBytes 2 s.myPod ++ leBytes 1 s.myPos ++ leBytes 1 0 ++ leBytes 4 s.pod.gen ++ leBytes 8 0 ++
    (List.range 64).flatMap (fun n => let l := s.link n; leBytes 8 l.word0 ++ leBytes 8 l.word1)
/-- FABRIC_TOPOLOGY. -/
def doFabricTopology (h : Hdr) (x : DRef) (s : State) : State :=
  packet 0x0601 [1] false h s (fun s => writeOut h x s true s.topology)

/-- A pod configuration from its 280 bytes (R354). -/
def readPod (b : List Byte) : PodCfg :=
  let f (o n : Nat) : Nat := ofLE ((b.drop o).take n)
  { pod := f 0 2, pos := f 2 1, buddy := f 3 1, buddyPod := f 4 2, master := f 6 1, routes := (List.range 66).map (fun i => (f (16 + 4 * i) 1, f (17 + 4 * i) 1)) }
/-- Its reserved bytes are 0 and its positions exist. -/
def podForm (b : List Byte) (c : PodCfg) : Bool :=
  decide (280 ≤ b.length) && ((b.drop 7).take 9).all (· = 0#8) && (List.range 66).all (fun i => decide (ofLE ((b.drop (18 + 4 * i)).take 2) = 0)) &&
    decide (c.pos ≤ 64) && decide (c.buddy ≤ 64) && decide (c.master ≤ 64)
/-- Every link an entry names is up and leads to the entry's peer, and the buddy has one (R282). -/
def State.podFine (s : State) (c : PodCfg) : Bool :=
  c.routes.zipIdx.all (fun q => [q.1.1, q.1.2].all (fun l =>
    decide (l = 0xFF) || (decide (l < 64) && (let k := s.link l
      decide (k.st = 3) && (if q.2 = 65 then decide (k.ppod = c.buddyPod ∧ k.ppos = c.buddy) else decide (k.ppod = c.pod ∧ k.ppos = q.2)))))) &&
    decide ((c.route 65).1 < 64 ∨ (c.route 65).2 < 64)
/-- A pod configuration that has been read (R282, R354): BAD_PARAM, or it waits to be in force; contexts that run a step or plan keep the old one
until its end. -/
def State.takePod (s : State) (id : Nat) (b : List Byte) : State :=
  let c := readPod b
  if podForm b c = false ∨ s.podFine c = false then s.finish id stBadParam 0
  else
    let s := { s with pod := { s.pod with pending := some (c, id) } }
    { s with ctxs := s.ctxs.mapV {} (fun _ y => { y with oldPod := y.oldPod || y.run.any (fun r => r.started) }) }
/-- POD_CONFIG: contexts that run a step or plan keep the old configuration until its end; the final OK follows once it is in force for all. -/
def doPodConfig (h : Hdr) (x : DRef) (s : State) : State :=
  packet 0x0602 [1] true h s (fun s =>
    withRef h x s true
      (.accept stAccepted .podConfig 0 0 (fun id s => s.readFor x h.ctx h.tag id (fun b s => s.takePod id b)) s))
/-- A value that is wider than the narrowing in progress. -/
def Link.widens (l : Link) (v : Nat) : Bool :=
  let a := l.mode
  let b := ({ l with cfg := BitVec.ofNat 32 v } : Link).mode
  l.narrowing.isSome && (decide (a.1 < b.1) || (a.2.1 && !b.2.1))
/-- LINK_WIDTH (R292). -/
def doLinkWidth (h : Hdr) (n v : Nat) (s : State) : State :=
  packet 0x0603 [1] true h s (fun s =>
    check6 h s (decide (n < 64) && decide (v < 16) && decide (v % 2 = 0) && decide ((s.link n).st ≠ 0))
      (if (s.link n).widens v then
        .accept stDeferred .linkWidth n 0 (fun id s => s.onLink n (fun l => { l with widen := some (v, (l.widen.map Prod.snd).getD [] ++ [id]) })) s
       else .accept stAccepted .linkWidth n 0 (fun id s => s.capLink n (fun l => { l with cfg := BitVec.ofNat 32 v }) [id]) s))
/-- LINK_RETRAIN: a narrowing in progress is overtaken and has its reply with the training. -/
def doLinkRetrain (h : Hdr) (n : Nat) (s : State) : State :=
  packet 0x0604 [1] true h s (fun s =>
    check6 h s (decide (n < 64) && decide ((s.link n).st ≠ 0))
      (if (s.link n).st = 4 then refuse stBusy s
       else .accept stAccepted .linkRetrain n 0 (fun id s =>
        (s.onLink n (fun l => { l with retrain := l.retrain ++ l.narrowing.getD [] ++ (l.widen.map Prod.snd).getD [] ++ [id], narrowing := none
                                       cfg := (l.widen.map (fun w => BitVec.ofNat 32 w.1)).getD l.cfg, widen := none })).beginRetrain n) s))

/-! The meanings: one per command, each a frame around its effect. -/

/-- FABRIC_TOPOLOGY (R280). -/
def execFabricTopology (h : Hdr) (x : DRef) (s : State) : Out :=
  guarded "FABRIC_TOPOLOGY" (.fabricTopology h x) s (doFabricTopology h x)
/-- POD_CONFIG (R282). -/
def execPodConfig (h : Hdr) (x : DRef) (s : State) : Out :=
  guarded "POD_CONFIG" (.podConfig h x) s (doPodConfig h x)
/-- LINK_WIDTH (R292). -/
def execLinkWidth (h : Hdr) (n v : Nat) (s : State) : Out :=
  guarded "LINK_WIDTH" (.linkWidth h n v) s (doLinkWidth h n v)
/-- LINK_RETRAIN (R354). -/
def execLinkRetrain (h : Hdr) (n : Nat) (s : State) : Out :=
  guarded "LINK_RETRAIN" (.linkRetrain h n) s (doLinkRetrain h n)

end Sys2Proof.Machine
end

