-- ==== Sys2Proof/Machine/GovOps.lean ====
section
/-! DEFINITION. Shared operations of the governor: CAP and the allowance, energy of a beat and its attribution, stretch orders, pod share
(spec 16: R386 to R394; spec 20: R460). -/

namespace Sys2Proof.Machine

/-- The six inputs in order. -/
def State.inputs (s : State) : List PwrIn := (List.range 6).map (fun i => s.pwr.ins.get {} i)
/-- The standby domain has a source: AUX_12V, or an input above 40 V (R463). -/
def Pwr.standbyUp (p : Pwr) : Bool := p.aux || (List.range 6).any (fun i => decide (4000 < (p.ins.get {} i).v))
/-- The live ones. -/
def State.liveIns (s : State) : List PwrIn := s.inputs.filter PwrIn.live
/-- The input limit in W (R460): 0.98 × 70 A × n × v_mean / share, from volts in 10 mV and currents in 0.1 A. -/
def inputLimit (l : List PwrIn) : Nat :=
  let n := l.length
  let v := l.foldl (fun a x => a + x.v) 0
  let i := l.foldl (fun a x => a + x.i) 0
  let top := l.foldl (fun a x => max a x.i) 0
  if n = 0 then 0 else if i = 0 then 686 * v / 1000 else 686 * v * i / (1000 * n * top)
/-- The coolant term of CAP (R399); temperatures in 0.25 °C. -/
def coolantTerm (inlet : Int) : Nat := if inlet ≤ 160 then 21000 else 21000 - 700 * (((inlet - 160).toNat + 3) / 4)
/-- CAP (R389, R460). -/
def State.capNow (s : State) : Nat := min (min (min s.gov.cmod 21000) (coolantTerm s.gov.inlet)) (inputLimit s.liveIns)
/-- The allowance A (R389). -/
def State.allowNow (s : State) : Nat := if s.gov.share = 0 then s.capNow else min s.capNow s.gov.podAllow.toNat
/-- Input power of the last reading in mW. -/
def State.powerMw (s : State) : Nat := s.liveIns.foldl (fun a x => a + x.v * x.i) 0
/-- Energy in nJ of a power in mW over a beat at setting m. -/
def beatNj (m mw : Nat) : Nat := mw * 128 * m / 3000
/-- The stretch order of the governor (R25, R390): on its way, unless the module follows a beat master (R36). -/
def State.orderStretch (s : State) (m beat : Nat) : State :=
  if s.clk.mode.cable ∧ s.clk.mode.master = false ∧ s.clk.adopted ∧ s.clk.inLost = false then s
  else s.send uidKeeper (uidRc 0) (.stretch m beat)
/-- m_new of R390, from the beat's input power in mW. -/
def lengthenTo (m mmin p a ps : Nat) : Nat :=
  let den : Int := 1000 * (98 * a - 100 * ps)
  let num : Int := (m : Int) * ((p : Int) - 1000 * ps) * 100
  let q : Nat := if den ≤ 0 then 192 else ((num + den - 1) / den).toNat
  min 192 (max q (max (m + 1) mmin))
/-- The smallest m_new of R391, from the window's mean power in mW. -/
def shortenTo (m mmin p a ps : Nat) : Option Nat :=
  if 950 * a < p then none
  else
    let lo := max mmin (m - 16)
    ((List.range (m - lo)).map (lo + ·)).find? (fun k =>
      decide ((1000 * ps * k : Int) + ((p : Int) - 1000 * ps) * m ≤ (970 * a * k : Nat)))

/-! Energy of a beat (R387). -/

/-- Share an energy by weights: what each context gets; the rest, with idle capacity and rounding, is context 0's. -/
def shareOut (e cap : Nat) (w : Tab Nat) (acc : Tab Nat) : Tab Nat :=
  let total := w.foldl (fun a p => a + p.2) 0
  let den := max cap total
  if den = 0 then acc.upd 0 0 (· + e)
  else
    let parts := (w.filter (fun p => decide (p.1 ≠ 0))).map (fun p => (p.1, e * p.2 / den))
    let given := parts.foldl (fun a p => a + p.2) 0
    (parts.foldl (fun (t : Tab Nat) p => t.upd 0 p.1 (· + p.2)) acc).upd 0 0 (· + (e - given))
/-- Bytes a link carries in a beat, both directions. -/
def Link.beatCap (l : Link) (m : Nat) : Nat := if l.st = 3 then widthLanes l.width * (if l.half then 25 else 50) * 128 * m / 3 else 0
/-- Pools 1 and 2 of the beat, by context. -/
def State.pools (s : State) : Tab Nat :=
  let m := s.clk.m
  let regs := allRegions.foldl (fun (t : Tab Nat) r => t.upd 0 (s.serves r) (· + beatNj m (s.region r).sample.mw)) []
  let scs := (List.range 24).foldl (fun t n =>
    if (s.sc n).serving then shareOut (Config.rimEnergy n s.clk.beat) (47787 * m / 6400) (s.sc n).beatGr t else t) regs
  (List.range 4).foldl (fun t k =>
    let ls := (List.range 16).map (fun i => s.link (16 * k + i))
    let w := ls.foldl (fun (t : Tab Nat) l => l.beatBytes.foldl (fun (t : Tab Nat) p => t.upd 0 p.1 (· + p.2)) t) []
    shareOut (Config.rimEnergy (24 + k) s.clk.beat) (ls.foldl (fun a l => a + l.beatCap m) 0) w t) scs
/-- An interval of the ledger holds a beat. -/
def Ledger.holds (l : Ledger) (b : Nat) : Bool := !l.complete && decide (l.start ≤ b * 4096) && (decide (l.stop = 0) || decide (b * 4096 < l.stop))
/-- The energy of the beat by context before the remainder: the pools, or the whole input to context 0 during a module warm reset (R402). -/
def State.beatEnergy (s : State) : Tab Nat := if s.tr.boot = .warm then [(0, beatNj s.clk.m s.powerMw)] else s.pools
/-- Account for a beat's energy: pools 1 and 2 to the meters at once, the whole input to the window. -/
def State.meterBeat (s : State) : State :=
  let b := s.clk.beat
  let s1 := s.beatEnergy.foldl (fun s p => s.onCtx p.1 (fun x => { x with
    meter := (x.meter + p.2) % 2 ^ 64, winNj := x.winNj + p.2
    ledger := x.ledger.map (fun l => if l.holds b then { l with winNj := l.winNj + p.2 } else l) })) s
  let s1 := { s1 with gov := { s1.gov with winNj := s1.gov.winNj + beatNj s.clk.m s.powerMw }
                      scs := s1.scs.mapV {} (fun n c => { c with winNj := c.winNj + Config.rimEnergy n b }) }
  (List.range 4).foldl (fun s k => s.onLink (16 * k) (fun l => { l with winNj := l.winNj + Config.rimEnergy (24 + k) b })) s1
/-- Pool 3 at the end of a window (R387, R388): the remainder goes to the contexts by their energy, rounding to context 0; ledger records whose
interval has closed are completed. -/
def State.closeMeters (s : State) : State :=
  let total : Nat := s.ctxs.foldl (fun (a : Nat) (p : Nat × Ctx) => a + p.2.winNj) 0
  let rem : Int := (s.gov.winNj : Int) - (total : Int)
  let share (w : Nat) : Int := if total = 0 then 0 else rem * (w : Int) / (total : Int)
  let given : Int := s.ctxs.foldl (fun (a : Int) (p : Nat × Ctx) => if p.1 = 0 then a else a + share p.2.winNj) (0 : Int)
  let close (c : Nat) (x : Ctx) : Ctx :=
    let add : Int := if c = 0 then rem - given else share x.winNj
    { x with
      meter := (((x.meter : Int) + add) % 2 ^ 64).toNat, winNj := 0
      ledger := x.ledger.map (fun l =>
        if l.complete then l
        else
          let e := ((l.energy : Int) + l.winNj + (if x.winNj = 0 then 0 else add * (l.winNj : Int) / (x.winNj : Int))).toNat
          let l := { l with energy := e, winNj := 0 }
          if l.stop = 0 ∨ s.now < l.stop then l
          else { l with complete := true, tpmwh := if e / 1000 = 0 then 0 else l.tokens * 3600000000000000 / (e / 1000) }) }
  (({ s with ctxs := s.ctxs.mapV {} close, gov := { s.gov with winNj := 0 } }).onCtx 0 (fun x => if s.ctxs.any (fun p => p.1 = 0) then x else close 0 x))

/-! Pod share (R394). -/

/-- The other positions the module has a route to. -/
def State.others (s : State) : List Nat := (List.range 65).filter (fun p => decide (p ≠ s.myPos) && !(s.linksTo 0 p).isEmpty)
/-- The pod allowance from the module's own offer h and the others' latest messages; a silent peer offers nothing. Rounded to the nearest W, as
the worked example of chapter 16 has it (entry 27). -/
def State.podShare (s : State) (h : Int) : Int :=
  let hs := h :: (s.others.filterMap (fun p => let q := s.pod.peers.get {} p; if q.heard ∧ q.stale = false then some q.offer else none))
  let up := hs.foldl (fun a x => if 0 < x then a + x else a) 0
  let need := hs.foldl (fun a x => if x < 0 then a - x else a) 0
  let sh : Int := s.gov.share
  if 0 < h then (if up ≤ need then sh - h else sh - (2 * h * need + up - 1) / (2 * up))
  else if h < 0 then (if need ≤ up then sh - h else sh + (2 * -h * up + need) / (2 * need))
  else sh

end Sys2Proof.Machine
end

