-- ==== Sys2Proof/Machine/PowerCmd.lean ====
section
/-! DEFINITION. Telemetry, ledger, meter, policy and clock commands (spec 14: R353, R356; spec 16: R387 to R389; spec 20: R464). -/

namespace Sys2Proof.Machine

/-! TELEM_READ: status registers and counters of a unit, in the order of its chapter's tables (entry 29). -/

/-- GV_STAT0. -/
def State.gvStat0 (s : State) : Nat := fld s.clk.m 8 56 + fld s.gov.mmin 8 48 + fld s.gov.cap 16 32 + fld s.gov.allow 16 16 + fld s.gov.pin 16 0
/-- GV_STAT1. -/
def State.gvStat1 (s : State) : Nat :=
  let g := s.gov
  fld g.pstat 16 48 + fld (int16 g.inlet) 16 32 + fld g.flow 16 16 + fld (b2n g.excess) 1 4 +
    fld (b2n (s.links.any (fun l => l.2.govCap))) 1 3 + fld (b2n g.stale) 1 2 + fld (b2n g.derate) 1 1 + b2n g.unmet
/-- An input opened by its current or voltage limit. -/
def PwrIn.tripped (x : PwrIn) : Bool := x.opened = some .excess || x.opened = some .current
/-- One bit for each input that `q` accepts. -/
def State.inBits (s : State) (q : PwrIn → Bool) : Nat := (s.inputs.zipIdx).foldl (fun a p => a + fld (b2n (q p.1)) 1 p.2) 0
/-- PI_STAT (R464). -/
def State.piStat (s : State) : Nat :=
  let l := s.liveIns
  fld (b2n (decide (s.gov.inLimit = s.gov.cap))) 1 51 + fld (b2n s.pwr.aux) 1 50 + fld (l.foldl (fun a x => max a x.i) 0) 16 34 +
    fld (if l.length = 0 then 0 else l.foldl (fun a x => a + x.v) 0 / l.length) 16 18 + fld l.length 3 15 + fld (s.inBits PwrIn.tripped) 6 6 +
    s.inBits PwrIn.live
/-- The registers of every unit. -/
def State.telemRegs (s : State) (u : Nat) : List Nat := if uClass u = 0x20 then [s.gvStat0, s.gvStat1, s.piStat] else s.unitRegs u
/-- TELEM_READ (R356). -/
def doTelemRead (h : Hdr) (unit : Nat) (x : DRef) (s : State) : State :=
  packet 0x0801 [1] false h s (fun s =>
    if h.sys = false ∧ uidOk unit ∧ s.telemOk h.ctx unit = false then refuse stDenied s
    else writeOut h x s (uidOk unit) ((s.telemRegs unit).flatMap (leBytes 8)))

/-! Ledger and meter (R353, R387). -/

/-- A ledger record (*Ledger record*): ENERGY, TPMWH, END and BEATS as they stand. -/
def Ledger.bytes (l : Ledger) (c : Nat) : List Byte :=
  leBytes 4 l.step ++ leBytes 2 c ++ leBytes 1 l.attempts ++ leBytes 1 (b2n l.eval + 2 * b2n l.complete + 4 * b2n l.ended) ++
    leBytes 4 l.tokens ++ leBytes 4 (sat 32 l.held) ++ leBytes 8 l.start ++ leBytes 8 l.stop ++ leBytes 8 l.beats ++
    leBytes 8 (if l.complete then l.energy / 1000 else 0) ++ leBytes 8 l.tpmwh ++ leBytes 8 0
/-- Put a record behind those of its step and kind and before those of a later one. -/
def ledgerIn (l : Ledger) : List Ledger → List Ledger
  | [] => [l]
  | k :: ks => if l.step < k.step ∨ (l.step = k.step ∧ l.eval = false ∧ k.eval) then l :: k :: ks else k :: ledgerIn l ks
/-- LEDGER_READ: from a step on, in step order, evaluation records where they are asked for. -/
def doLedgerRead (h : Hdr) (first count flags : Nat) (x : DRef) (s : State) : State :=
  packet 0x0802 [1] false h s (fun s =>
    let ls := (s.ctx h.ctx).ledger.filter (fun l => decide (first ≤ l.step) && (!l.eval || bit flags 0))
    let out := ((ls.foldl (fun a l => ledgerIn l a) []).take count).flatMap (fun l => l.bytes h.ctx)
    writeOut h x s (decide (1 ≤ count) && decide (count ≤ 4096) && decide (flags < 2)) out)
/-- METER_READ. -/
def doMeterRead (h : Hdr) (s : State) : State :=
  packet 0x0803 [1] false h s (fun s => check6 h s true (.done stOk ((s.ctx h.ctx).meter / 1000) s))

/-! Policy (R389). -/

/-- POWER_POLICY: in force from the next boundary. -/
def doPowerPolicy (h : Hdr) (cap share : Nat) (s : State) : State :=
  packet 0x0804 [1] true h s (fun s =>
    check6 h s (decide (1 ≤ cap) && decide (cap ≤ 21000)) (.done stOk 0 { s with gov := { s.gov with policyNext := some (cap, share) } }))
/-- CLOCK_SET (R22, R23): m_min at once, with a stretch order where the setting is below it; the spread setting from the next boundary. -/
def doClockSet (h : Hdr) (mmin flags : Nat) (s : State) : State :=
  packet 0x0805 [1] true h s (fun s =>
    check6 h s (decide (64 ≤ mmin) && decide (mmin ≤ 192) && decide (flags < 2))
      (.accept stAccepted .clockSet 0 0 (fun id s =>
        let s := { s with gov := { s.gov with mmin := mmin, clockSet := s.gov.clockSet ++ [id] }, clk := { s.clk with spreadNext := some (!bit flags 0) } }
        if s.clk.m < mmin then s.orderStretch mmin (s.clk.beat + 1) else s) s))

/-! The meanings: one per command, each a frame around its effect. -/

/-- TELEM_READ (R356). -/
def execTelemRead (h : Hdr) (unit : Nat) (x : DRef) (s : State) : Out :=
  guarded "TELEM_READ" (.telemRead h unit x) s (doTelemRead h unit x)
/-- LEDGER_READ (R353). -/
def execLedgerRead (h : Hdr) (first count flags : Nat) (x : DRef) (s : State) : Out :=
  guarded "LEDGER_READ" (.ledgerRead h first count flags x) s (doLedgerRead h first count flags x)
/-- METER_READ (R387). -/
def execMeterRead (h : Hdr) (s : State) : Out :=
  guarded "METER_READ" (.meterRead h) s (doMeterRead h)
/-- POWER_POLICY (R389). -/
def execPowerPolicy (h : Hdr) (cap share : Nat) (s : State) : Out :=
  guarded "POWER_POLICY" (.powerPolicy h cap share) s (doPowerPolicy h cap share)
/-- CLOCK_SET (R356). -/
def execClockSet (h : Hdr) (mmin flags : Nat) (s : State) : Out :=
  guarded "CLOCK_SET" (.clockSet h mmin flags) s (doClockSet h mmin flags)

end Sys2Proof.Machine
end

