-- ==== Sys2Proof/Machine/Capture.lean ====
section
/-! DEFINITION. The last-gasp capture and what it writes (spec 18: R439, R441; spec 01: R15). -/

namespace Sys2Proof.Machine

/-- The region map entry of a region (R15). -/
def Region.entry (g : Region) : Nat := fld g.st.code 4 60 + fld g.peer 7 53 + remapField g.bad
/-- The inputs as a record lays them out: voltage, then current. -/
def inputBytes (l : List (Nat × Nat)) : List Byte := (List.range 6).flatMap (fun i => let p := l.getD i (0, 0); leBytes 2 p.1 ++ leBytes 2 p.2)
/-- The sample of a beat; all ones where there is none. -/
def State.beatSample (s : State) (b : Nat) : List Byte :=
  match s.pwr.hist.find? (fun p => p.1 = b) with
  | some p => inputBytes p.2
  | none => List.replicate 24 0xFF#8
/-- The contexts that are open. -/
def State.openCtxs (s : State) : List Nat := (s.ctxs.filter (fun p => decide (p.2.st = .opened))).map Prod.fst
/-- A last-gasp record. -/
def State.gaspRec (s : State) (typ ctx len : Nat) (body : List Byte) : Rec :=
  { typ := typ, flags := 1, stamp := s.now, boot := s.log.boot, ctx := ctx, len := len, body := body }
/-- Part 0 of the power-loss record. -/
def State.lossPart0 (s : State) : Rec :=
  s.gaspRec 0x20 0xFFFF 160 (leBytes 1 0 ++ leBytes 1 (s.inBits PwrIn.live) ++ leBytes 2 s.gov.pin ++ inputBytes (s.inputs.map (fun x => (x.v, x.i))) ++
    leBytes 4 0 ++ leBytes 128 (s.openCtxs.foldl (fun a c => a ||| 2 ^ c) 0))
/-- Parts 1 and 2: eight beats each. -/
def State.lossPart (s : State) (part : Nat) : Rec :=
  let first := s.clk.beat - (if part = 1 then 16 else 8)
  s.gaspRec 0x20 0xFFFF 208 (leBytes 1 part ++ leBytes 7 0 ++ leBytes 8 (first * 4096) ++
    (List.range 8).flatMap (fun i => if s.clk.beat + i < (if part = 1 then 16 else 8) then List.replicate 24 0xFF#8
      else s.beatSample (s.clk.beat + i - (if part = 1 then 16 else 8))))
/-- A commit table entry's word (R262). -/
def Commit.word (m : Commit) : Nat := fld m.step.toNat 32 32 + fld (b2n m.v) 1 31 + fld (b2n m.inf) 1 30 + fld m.slot 15 15 + fld m.newslot 15 0
/-- What an open context leaves: step, attempt, plan beat, commits in flight (entry 30). -/
def State.ctxGasp (s : State) (c : Nat) : Rec :=
  let x := s.ctx c
  let st := x.stepOf
  let b := leBytes 4 st.1 ++ leBytes 1 st.2.1 ++ leBytes 3 0 ++ leBytes 8 x.part.planBeat ++
    ((x.commits.filter (fun p => p.2.inf)).take 17).flatMap (fun p => leBytes 4 p.1 ++ leBytes 8 p.2.word)
  s.gaspRec 0x21 c b.length b
/-- Regions 7k to 7k + 6. -/
def State.mapGasp (s : State) (k : Nat) : Rec :=
  let rs := allRegions.filter (fun r => r / 7 = k)
  s.gaspRec 0x22 0xFFFF (32 * rs.length) (rs.flatMap (fun r =>
    let g := s.region r
    leBytes 8 g.entry ++ leBytes 2 g.vset ++ leBytes 2 g.leases.length ++ leBytes 2 (s.serves r) ++ leBytes 18 0))
/-- Telemetry payloads 3k to 3k + 2. -/
def State.teleGasp (s : State) (k : Nat) : Rec :=
  s.gaspRec 0x23 0xFFFF 192 ((List.range 3).flatMap (fun i => fitBytes 64 ((s.tele.get [] (3 * k + i)).flatMap (leBytes 4))))
/-- The governor's registers and the topology record, in records of 224 bytes. -/
def State.govGasp (s : State) : List Rec :=
  let b := leBytes 8 s.gvStat0 ++ leBytes 8 s.gvStat1 ++ s.topology
  (List.range ((b.length + 223) / 224)).map (fun i => let p := (b.drop (224 * i)).take 224; s.gaspRec 0x24 0xFFFF p.length p)
/-- The opcode and contents of a Waggle message. -/
def WMsg.words : WMsg → Nat × List Nat
  | .fence a t c => (0x01, [a, t, c])
  | .fault r => (0x02, [r.cls * 65536 + r.tag, r.unit, r.stamp, r.ctx] ++ r.det)
  | .hold c u _ => (0x10, [c, u])
  | .order o => (0x11, [o.ctx, o.beat, b2n o.exec, o.sched])
  | .stretch m b => (0x12, [m, b])
  | .planStart t p b k => (0x13, [t, p, b, k])
  | .planEnd t st => (0x14, [t, st])
  | .routeSwitch c r t b => (0x15, [c, r, t, b])
  | .lease l st _ => (0x20, [l.res, l.kind, l.idx, st])
  | .release l => (0x22, [l.res, l.kind, l.idx])
  | .reclaim l => (0x23, [l.res, l.kind, l.idx])
  | .telemetry u _ => (0x30, [u])
  | .spReply st _ => (0x33, [st])
  | .regReply st _ => (0x36, [st])
/-- One packet of the event buffer (entry 30). -/
def State.eventGasp (s : State) (p : WPkt) : Rec :=
  let w := p.msg.words
  let b := (leBytes 4 p.src ++ leBytes 4 p.dst ++ leBytes 4 w.1 ++ leBytes 4 0 ++ w.2.flatMap (leBytes 8)).take 224
  s.gaspRec 0x25 0xFFFF b.length b
/-- The capture's records in their order, without the last. -/
def State.gaspRecs (s : State) : List Rec :=
  [s.lossPart0, s.lossPart 1, s.lossPart 2] ++ s.openCtxs.map s.ctxGasp ++ (List.range 12).map s.mapGasp ++ (List.range 36).map s.teleGasp ++ s.govGasp ++
    s.log.evbuf.map s.eventGasp
/-- The capture-end record: records written, and the beats their writing takes at 200 MB/s. -/
def State.gaspEnd (s : State) (n : Nat) : Rec := s.gaspRec 0x26 0xFFFF 8 (leBytes 4 n ++ leBytes 4 (30 * n / s.clk.m))
/-- A capture starts while the area is marked empty. -/
def State.capture (s : State) : State :=
  if s.log.gaspEmpty = false then s
  else
    let rs := s.gaspRecs
    { s with log := { s.log with gasp := rs ++ [s.gaspEnd (rs.length + 1)], gaspEmpty := false }, tr := { s.tr with alert := true } }

end Sys2Proof.Machine
end

