-- ==== Sys2Proof/Machine/SysCmd.lean ====
section
/-! DEFINITION. System commands (spec 14: R360; spec 01: R15, R35, R39; spec 08: R220; spec 10: R242; spec 15: R365, R370, R374 to R376;
spec 19: R448). -/

namespace Sys2Proof.Machine

/-! RESET (R376, R384). -/

/-- The party of a reset: a tile, 4*region + cluster, a context. -/
def resetParty (level unit ctx : Nat) : Nat := if level = 0 then uTile unit else if level = 1 then 4 * uRegion unit + uCluster unit else ctx
/-- The regions a party lies in. -/
def State.partyRegions (s : State) (level party : Nat) : List Nat :=
  if level = 0 then [party / 64] else if level = 1 then [party / 4] else s.working party
/-- A reset ordered already covers a narrower one. -/
def State.covers (s : State) (o : RstOrd) (level party : Nat) : Bool :=
  (decide (o.level = level) && decide (o.party = party)) ||
    (decide (level = 0) && decide (o.level = 1) && decide (o.party = party / 16)) ||
    (decide (level < 2) && decide (o.level = 2) && (s.working o.party).contains (if level = 0 then party / 64 else party / 4))
/-- Order a reset below module level, or join one that covers it. -/
def State.orderReset (s : State) (level party : Nat) (ids : List Nat) (byFault : Bool) : State :=
  match s.resets.find? (fun o => s.covers o level party) with
  | some o => { s with resets := s.resets.map (fun q => if q = o then { q with longs := q.longs ++ ids } else q) }
  | none => { s with resets := s.resets ++ [⟨level, party, s.clk.beat + reach s.clk.cycle, ids, byFault⟩] }
/-- A module warm reset is asked for: the first trigger stands, and every RESET is answered (R384). During a cold boot it is
absorbed; behind three watchdog resets within 60 s it is a cold boot (R381). -/
def State.askWarm (s : State) (trigger tag : Nat) (ids : List Nat) : State :=
  let t := s.tr
  let up := decide (t.boot = .ready) || decide (t.boot = .warm)
  let first := decide (t.warmTrigger = 0) && up && !t.wdCold
  { s with tr := { t with warmTrigger := if first then trigger else t.warmTrigger, warmTag := if first then tag else t.warmTag
                          coldAsked := t.coldAsked || (up && t.wdCold), warmLongs := t.warmLongs ++ ids } }
/-- RESET. -/
def doReset (h : Hdr) (level unit : Nat) (s : State) : State :=
  packet 0x0C01 [1] false h s (fun s =>
    if (h.sys = false ∧ level ≠ 2) ∨ (h.mgmt ∧ level ≠ 3) then refuse stDenied s
    else check6 h s (decide (level ≤ 3) && (decide (2 ≤ level) || (uidOk unit && decide (uClass unit = if level = 0 then 1 else 3))))
      (.accept stAccepted .reset level 0 (fun id s =>
        if level = 3 then s.askWarm (if h.mgmt then 2 else 1) h.tag [id]
        else s.orderReset level (resetParty level unit h.ctx) [id] false) s))

/-! Reads. -/

/-- REGION_MAP_READ. -/
def doRegionMapRead (h : Hdr) (x : DRef) (s : State) : State :=
  packet 0x0C02 [1] true h s (fun s => writeOut h x s true (allRegions.flatMap (fun r => leBytes 8 (s.region r).entry)))
/-- The defect map with its header (*Defect map output*). -/
def Trust.defectOut (t : Trust) : List Byte :=
  leBytes 4 t.factory.length ++ leBytes 4 t.refine.length ++ leBytes 4 t.valid.length ++ leBytes 4 0 ++ t.factory ++ t.refine.flatMap Refine.bytes
/-- DEFECT_MAP_READ. -/
def doDefectMapRead (h : Hdr) (x : DRef) (s : State) : State :=
  packet 0x0C06 [1] true h s (fun s => writeOut h x s true s.tr.defectOut)

/-! Configuration. -/

/-- A regulator value is allowed (R220). -/
def rgOk (v : Nat) : Bool := decide (v < 1024) && decide (bits v 9 4 ≤ 32) && decide (1 ≤ bits v 3 0)
/-- A reduction SRAM value is allowed (R242). -/
def rdOk (v : Nat) : Bool := decide (v < 2 ^ 20) && decide (bits v 3 0 = 0) && decide (16 ≤ bits v 19 10) && decide (bits v 19 10 ≤ 512) && decide (1 ≤ bits v 9 4)
/-- The stack controllers of a mask. -/
def scsIn (mask : Nat) : List Nat := (List.range 24).filter (bit mask)
/-- RIM_CONFIG: in force from the next boundary. -/
def doRimConfig (h : Hdr) (mask which rg rd : Nat) (s : State) : State :=
  packet 0x0C03 [1] true h s (fun s =>
    let fitted := (s.tr.variant.map Variant.scmask).getD 0
    check6 h s (decide (which < 4) && decide (mask &&& fitted = mask) && (!bit which 0 || rgOk rg) && (!bit which 1 || rdOk rd))
      (if bit which 1 ∧ (scsIn mask).any (fun n => !(s.sc n).egress.isEmpty || !(s.sc n).owners.isEmpty) then refuse stBusy s
       else .done stOk 0 ((scsIn mask).foldl (fun s n => s.onSc n (fun k => { k with
          rgNext := if bit which 0 then some (BitVec.ofNat 32 rg) else k.rgNext
          rdNext := if bit which 1 then some (BitVec.ofNat 32 rd) else k.rdNext })) s)))
/-- BEAT_MODE: kept in flash, in force from the next module warm reset. -/
def doBeatMode (h : Hdr) (mode flags delay : Nat) (s : State) : State :=
  packet 0x0C04 [1] true h s (fun s =>
    let master := decide (mode = 1) && bit flags 0
    check6 h s (decide (mode ≤ 1) && decide (flags < 2) && (master || decide (delay ≤ 1000) || decide (delay = 0xFFFF)))
      (.done stOk 0 { s with clk := { s.clk with modeNext := some ⟨decide (mode = 1), bit flags 0, if delay = 0xFFFF ∨ master then none else some delay⟩ } }))
/-- What staging an image answers: it goes to the slot that did not boot; its certificate waits for the next cold boot (R365, R448). -/
def State.stage (s : State) (b : List Byte) : State × Nat × Nat :=
  let t := s.tr
  let cert := fwSection b 4
  if t.fwOk b = false then (s, stSignature, 0)
  else if cert.any (fun c => decide ((readVariant c).certseq < t.certSeq)) then (s, stBadParam, 0)
  else
    let img := fwImage b
    let s := { s with tr := { t with fw := t.fw.set [] (1 - t.bootSlot) img, staged := true, stagedCert := cert.orElse (fun _ => t.stagedCert) } }
    (s.logRec 0x13 0 0xFFFF 52 (leBytes 4 (fwVer b) ++ sha384 img), stOk, fwVer b)
/-- FW_STAGE. -/
def doFwStage (h : Hdr) (x : DRef) (s : State) : State :=
  packet 0x0C05 [1] true h s (fun s =>
    withRef h x s true (acceptNow s .bind (fun s => s.readThen x h.ctx h.tag (fun b s => s.stage b))))

/-! The meanings: one per command, each a frame around its effect. -/

/-- RESET (R360). -/
def execReset (h : Hdr) (level unit : Nat) (s : State) : Out :=
  guarded "RESET" (.reset h level unit) s (doReset h level unit)
/-- REGION_MAP_READ (R360). -/
def execRegionMapRead (h : Hdr) (x : DRef) (s : State) : Out :=
  guarded "REGION_MAP_READ" (.regionMapRead h x) s (doRegionMapRead h x)
/-- RIM_CONFIG (R360). -/
def execRimConfig (h : Hdr) (mask which rg rd : Nat) (s : State) : Out :=
  guarded "RIM_CONFIG" (.rimConfig h mask which rg rd) s (doRimConfig h mask which rg rd)
/-- BEAT_MODE (R39). -/
def execBeatMode (h : Hdr) (mode flags delay : Nat) (s : State) : Out :=
  guarded "BEAT_MODE" (.beatMode h mode flags delay) s (doBeatMode h mode flags delay)
/-- FW_STAGE (R448). -/
def execFwStage (h : Hdr) (x : DRef) (s : State) : Out :=
  guarded "FW_STAGE" (.fwStage h x) s (doFwStage h x)
/-- DEFECT_MAP_READ (R360). -/
def execDefectMapRead (h : Hdr) (x : DRef) (s : State) : Out :=
  guarded "DEFECT_MAP_READ" (.defectMapRead h x) s (doDefectMapRead h x)

end Sys2Proof.Machine
end

