-- ==== Sys2Proof/Machine/ResetCmd.lean ====
section
/-! DEFINITION. Resets below module level taking effect, and compute domains coming on (spec 15: R376 to R379, R383, R384). -/

namespace Sys2Proof.Machine

/-- The order for a party that has reached its boundary. -/
def State.dueReset (s : State) (level party : Nat) : Option RstOrd :=
  if s.clk.cycle ≠ 0 then none else s.resets.find? (fun o => decide (o.level = level) && decide (o.party = party) && decide (o.beat ≤ s.clk.beat))
/-- A reset is over: its orders go, and every command it answers has its final reply. -/
def State.endReset (s : State) (o : RstOrd) : State := ({ s with resets := s.resets.filter (· ≠ o) }).finishAll o.longs stOk 0
/-- What a tile or cluster reset does to the context it serves: a plan under way ends, with the partition held until the host starts one again,
and the context's streams and reduction descriptors are aborted (R377, R378). -/
def State.resetServes (s : State) (r : Nat) (byFault : Bool) : State :=
  let c := s.serves r
  let s := s.abortStreams 8 (fun q => decide (q.ctx = c))
  let s := s.dropReds c
  if isUser c = false ∨ (s.ctx c).run.all (fun r => !r.started) then s
  else ((s.endRun c (if byFault then stFaulted else stAborted) noCause).askHold c (uidRc r) .plan).askHold c (uidRc r) .restart
/-- The tile itself, with valid check codes on the words it keeps; its slots are absorbed in the beat that begins (R182). -/
def Tile.resetNow (beat : Nat) (t : Tile) : Tile := { t.reset with errs := [], resetAt := some beat }
/-- A tile fenced in a zero-fill is not released before the zero-fill has ended (R166). -/
def State.fillsFenced (s : State) (t : Nat) : Bool := (s.tile t).fenced && decide (s.now < (s.tile t).scrubEnd)
/-- TILE_RESET. -/
def doTileReset (tile : Nat) (s : State) : State :=
  match s.dueReset 0 tile with
  | none => s
  | some o =>
    if s.fillsFenced tile then s
    else
    let s := s.resetServes (tile / 64) o.byFault
    let s := s.onTile tile (Tile.resetNow s.clk.beat)
    let s := s.reclaim (fun l => decide (uClass l.holder = 1) && decide (uTile l.holder = tile))
    s.endReset o
/-- CLUSTER_RESET: its remap is applied with it (R12). -/
def doClusterReset (region cluster : Nat) (s : State) : State :=
  match s.dueReset 1 (4 * region + cluster) with
  | none => s
  | some o =>
    if (List.range 16).any (fun i => s.fillsFenced (64 * region + 16 * cluster + i)) then s
    else
    let s := s.resetServes region o.byFault
    let s := (List.range 16).foldl (fun s i => s.onTile (64 * region + 16 * cluster + i) (Tile.resetNow s.clk.beat)) s
    let s := s.remapCluster region cluster
    let s := s.reclaim (fun l => decide (uClass l.holder = 1) && decide (uTile l.holder / 16 = 4 * region + cluster))
    s.endReset o
/-- PARTITION_RESET (R379). -/
def doPartitionReset (ctx : Nat) (s : State) : State :=
  match s.dueReset 2 ctx with
  | none => s
  | some o =>
    if (tilesOf (s.working ctx)).any s.fillsFenced then s
    else
    let s := s.killRuns ctx (if o.byFault then stFaulted else stAborted) noCause
    let s := s.abortStreams 8 (fun q => decide (q.ctx = ctx))
    let s := (s.dropReds ctx).freeBuffers ctx
    let rs := dedup (s.bound ctx ++ s.working ctx)
    let s := s.reclaim (fun l => (decide (uClass l.holder ≤ 6) && rs.contains (uRegion l.holder)) || (decide (l.kind = 4) && decide (l.ctx = ctx)))
    let s := s.onTiles (s.working ctx) (Tile.resetNow s.clk.beat)
    let s := s.onPart ctx (fun p => { p with seq := [], startAt := none, begun := false, holds := p.holds.filter (fun h => h.why ≠ .plan ∧ h.why ≠ .fence) })
    s.endReset o
/-- COMPUTE_DOMAIN_ON: at a boundary, once any switch-off has finished, the domain is on with every tile reset. -/
def doComputeDomainOn (region : Nat) (s : State) : State :=
  let g := s.region region
  if s.clk.cycle ≠ 0 ∨ g.cdQueued = false ∨ g.cd ≠ .off ∨ g.st = .closed ∨ g.st = .transitLost then s
  else (s.onTiles [region] (fun t => { moved := t.moved })).onRegion region (fun g => { g with cd := .on, cdQueued := false, vset := Config.voltTable s.clk.m region, vready := s.clk.m })

/-! The meanings: one per command, each a frame around its effect. -/

/-- TILE_RESET (R376). -/
def execTileReset (tile : Nat) (s : State) : Out :=
  guarded "TILE_RESET" (.tileReset tile) s (doTileReset tile)
/-- CLUSTER_RESET (R376). -/
def execClusterReset (region cluster : Nat) (s : State) : Out :=
  guarded "CLUSTER_RESET" (.clusterReset region cluster) s (doClusterReset region cluster)
/-- PARTITION_RESET (R379). -/
def execPartitionReset (ctx : Nat) (s : State) : Out :=
  guarded "PARTITION_RESET" (.partitionReset ctx) s (doPartitionReset ctx)
/-- COMPUTE_DOMAIN_ON (R383). -/
def execComputeDomainOn (region : Nat) (s : State) : Out :=
  guarded "COMPUTE_DOMAIN_ON" (.computeDomainOn region) s (doComputeDomainOn region)

end Sys2Proof.Machine
end

