-- ==== Sys2Proof/Machine/Arming.lean ====
section
/-! DEFINITION. Arming of streams (spec 08: R199, R208 to R212). -/

namespace Sys2Proof.Machine

/-- Reserved bits and unused values of a stream descriptor. -/
def sdClean (d : Words8) : Bool :=
  bit (d.w 0) 63 && decide (sdMode d ≤ 1) && decide (d.fld 0 43 40 = 0) && decide (d.fld 1 26 0 = 0) && decide (d.fld 5 9 0 = 0) &&
    decide (d.fld 7 16 0 = 0)
/-- Ranges and alignments of its fields. -/
def sdRanges (d : Words8) : Bool :=
  decide (1 ≤ sdBuf d) && decide (sdBase d % 64 = 0) && decide (1 ≤ sdRows d) && decide (sdRstride d % 64 = 0) && decide (1 ≤ sdCnt1 d) &&
    decide (sdStride1 d % 64 = 0) && decide (1 ≤ sdCnt2 d) && decide (sdStride2 d % 64 = 0) && decide (sdStart d < sdDeadline d) &&
    decide (d.fld 7 45 34 + d.fld 7 33 22 * (d.fld 7 21 17 + 1) ≤ 0xFFF)
/-- What the direction and the mode ask. -/
def sdShape (d : Words8) : Bool :=
  if sdWrite d then decide (sdMode d = 0) && decide ((portsOf (sdPorts d)).length = 1)
  else decide (sdMode d = 0) || decide (sdCnt2 d = 1)
/-- The lowest byte and the end of a walk, over the extremes of every index (R211). -/
def sdSpan (d : Words8) : Int × Int :=
  let term (n : Nat) (st : Int) : Int := ((n - 1 : Nat) : Int) * st
  let ts := [term (if sdMode d = 1 then sdLimit d else sdCnt1 d) (sdStride1 d), term (sdCnt2 d) (sdStride2 d), term (sdRows d) (sdRstride d)]
  ((sdBase d : Int) + (ts.map (fun t => min 0 t)).foldl (· + ·) 0, (sdBase d : Int) + (ts.map (fun t => max 0 t)).foldl (· + ·) 0 + ((64 * sdRowF d : Nat) : Int))
/-- The walk stays in its extent; a gather whose indices must all be below 0 reaches no byte of it. -/
def sdInside (d : Words8) (x : ExtEnt) : Bool := (decide (sdMode d = 1) && decide (sdLimit d = 0)) || (decide (0 ≤ (sdSpan d).1) && decide ((sdSpan d).2 ≤ ((x.pages * pageBytes : Nat) : Int)))
/-- Two claims meet in one cycle of one port, direction and schedule within windows that overlap (R211). -/
def sdClash (a b : Words8) : Bool :=
  decide (sdWrite a = sdWrite b) && decide (sdPorts a &&& sdPorts b ≠ 0) && decide (sdSched a = sdSched b) && decide (sdStart a < sdDeadline b) &&
    decide (sdStart b < sdDeadline a) && (List.range 4096).any (fun cyc => (sdClaim a).hits cyc && (sdClaim b).hits cyc)
/-- Buffer units the live streams of a stack controller take. -/
def Sc.bufUnits (c : Sc) : Nat := c.slots.foldl (fun a p => if p.2.live then a + sdBuf p.2.desc else a) 0
/-- The form of a descriptor for a stack controller, apart from extents. -/
def sdForm (d : Words8) (sc : Nat) : Bool :=
  sdClean d && sdRanges d && sdShape d && decide (extSc (sdExt d) = sc) && (decide (sdMode d = 0) || decide (extSc (sdIext d) = sc))
/-- A context may reach an extent in a direction (R199); a number that names none is not denied here. -/
def State.mayReach (s : State) (c e : Nat) (write : Bool) : Bool := (s.ext e).all (fun x => decide (x.ctx = c) && kindAllows write x.kind)
/-- The extents of a descriptor exist and hold its walk and its index list. -/
def State.sdHeld (s : State) (d : Words8) : Bool :=
  (s.ext (sdExt d)).any (sdInside d) &&
    (decide (sdMode d = 0) || (s.ext (sdIext d)).any (fun x => x.holds (sdIbase d) (sdCnt1 d * sdIw d)))
/-- Why arming slot n of stack controller sc for context c is refused, in the order of the checks (R211, R431). -/
def State.armRefusal (s : State) (c sc n : Nat) (d : Words8) : Option Nat :=
  let k := s.sc sc
  let old := k.slots.get {} n
  if old.ctx ≠ c ∨ s.mayReach c (sdExt d) (sdWrite d) = false ∨ (sdMode d = 1 ∧ s.mayReach c (sdIext d) false = false) then some stDenied
  else if sdForm d sc = false ∨ s.sdHeld d = false ∨ k.slots.any (fun p => decide (p.1 ≠ n) && p.2.live && decide (p.2.ctx = c) && sdClash p.2.desc d) then some stBadParam
  else if old.live ∨ k.underTest then some stBusy
  else if 2048 < k.bufUnits + sdBuf d then some stNoResource
  else none
/-- Arm a slot; `plan` is the handle of the plan set that carries the descriptor, 0 for a command (R212). -/
def State.arm (s : State) (c sc n : Nat) (d : Words8) (plan : Nat) : State :=
  s.onSlot sc n (fun _ => { ctx := c, desc := d, st := .running, offset := sdBase d, plan := plan })

end Sys2Proof.Machine
end

