-- ==== Sys2Proof/Machine/PlanImage.lean ====
section
/-! DEFINITION. Images of the plan commands as byte strings (spec 14: R350; spec 07: R171, R173; spec 10: reduction descriptors; spec 06: R153,
R155, R156): reading a plan set image into its records. The layout of what R350 leaves open is entry 25's. -/

namespace Sys2Proof.Machine

/-- A little-endian field of an image. -/
def imgF (b : List Byte) (off n : Nat) : Nat := ofLE ((b.drop off).take n)
/-- A 128-bit slot sequence. -/
def slotsOf (b : List Byte) : List Nat := (List.range ((b.length + 15) / 16)).map (fun k => imgF b (16 * k) 16)

/-- A record of a section: target unit, index, structure. -/
structure PRec where
  unit : Nat
  idx : Nat
  body : List Byte
  deriving DecidableEq, Repr

/-- A section: its type and bytes. -/
structure PSec where
  typ : Nat
  body : List Byte
  deriving DecidableEq, Repr

/-- The header and directory of an image stand as R350 gives them; `types` are the section types it may hold. -/
def imgHeadOk (b : List Byte) (types : List Nat) : Bool :=
  let n := imgF b 7 1
  decide (32 + 16 * n ≤ b.length) && decide (imgF b 0 4 = 0x4C575053) && decide (imgF b 4 2 = 1) && decide (imgF b 6 1 ≤ 2) && decide (1 ≤ n) && decide (n ≤ 16) &&
    decide (imgF b 20 12 = 0) && (List.range n).all (fun i =>
      let e := 32 + 16 * i
      types.contains (imgF b e 1) && decide (imgF b (e + 1) 3 = 0) && decide (64 * imgF b (e + 4) 4 + imgF b (e + 8) 8 ≤ b.length))
/-- Its sections. -/
def imgSecs (b : List Byte) : List PSec :=
  (List.range (imgF b 7 1)).map (fun i =>
    let e := 32 + 16 * i
    ⟨imgF b e 1, (b.drop (64 * imgF b (e + 4) 4)).take (imgF b (e + 8) 8)⟩)
/-- The length of a nested image: where its last section ends. -/
def nestedLen (b : List Byte) : Nat :=
  let n := imgF b 7 1
  (List.range n).foldl (fun a i => max a (64 * imgF b (32 + 16 * i + 4) 4 + imgF b (32 + 16 * i + 8) 8)) (32 + 16 * n)
/-- Bytes of the structure a section type names, given the record's index and what follows its target. -/
def recLen (typ idx : Nat) (rest : List Byte) : Nat :=
  match typ with
  | 1 => 65536
  | 2 => 8
  | 3 => 4
  | 4 => 64
  | 5 => 40
  | 6 => 4 * idx
  | _ => nestedLen rest
/-- The records of a section; none where they do not fill it. -/
def secRecs (typ : Nat) : Nat → List Byte → Option (List PRec)
  | 0, b => if b = [] then some [] else none
  | n + 1, b =>
    if b = [] then some []
    else if b.length < 8 then none
    else
      let idx := imgF b 4 4
      let rest := b.drop 8
      let l := recLen typ idx rest
      if rest.length < l then none
      else (secRecs typ n (rest.drop l)).map (⟨imgF b 0 4, idx, rest.take l⟩ :: ·)
/-- All records of one type in an image. -/
def imgRecs (b : List Byte) (typ : Nat) : Option (List PRec) :=
  ((imgSecs b).filter (fun s => s.typ = typ)).foldl (fun a s => a.bind (fun l => (secRecs typ s.body.length s.body).map (l ++ ·))) (some [])

/-! Records read. -/

/-- The parts a plan set and a substitute plan share: pages by tile, route entries by router, schedule steps. -/
structure PlanCore where
  pages : List (Nat × Nat × List Nat)
  routes : List (Nat × Nat)
  steps : List Nat
  deriving DecidableEq, Repr

/-- A page record: target a logical tile. -/
def pageRec (r : PRec) : Option (Nat × Nat × List Nat) :=
  let w := slotsOf r.body
  if uidOk r.unit ∧ uClass r.unit = 1 ∧ uSub r.unit = 0 then some (uTile r.unit, (readHdr (w.headD 0) (w.getD 1 0)).page, w) else none
/-- A route record: target a router. -/
def routeRec (r : PRec) : Option (Nat × Nat) :=
  if uidOk r.unit ∧ uClass r.unit = 1 ∧ uSub r.unit = 0x060 then some (uTile r.unit, ofLE r.body) else none
/-- The schedule steps in order: targets the lead region controller, indices from 0 on. -/
def stepRecs (lead : Nat) (rs : List PRec) : Option (List Nat) :=
  let w := (List.range rs.length).filterMap (fun i => (rs.find? (fun r => r.idx = i)).map (fun r => ofLE r.body))
  if w.length = rs.length ∧ rs.all (fun r => r.unit = uidRc lead) then some w else none
/-- Apply a reading to every record. -/
def allRecs {α : Type} (f : PRec → Option α) (rs : List PRec) : Option (List α) :=
  let l := rs.filterMap f
  if l.length = rs.length then some l else none
/-- Types 1 to 3 of an image. -/
def coreOf (lead : Nat) (b : List Byte) : Option PlanCore :=
  (imgRecs b 1).bind (fun p => (allRecs pageRec p).bind (fun ps =>
    (imgRecs b 2).bind (fun r => (allRecs routeRec r).bind (fun rs =>
      (imgRecs b 3).bind (fun t => (stepRecs lead t).map (fun ts => ⟨ps, rs, ts⟩))))))
/-- A stream record: target a stack controller, index a slot. -/
def streamRec (r : PRec) : Option (Nat × Nat × Words8) :=
  if uidOk r.unit ∧ uClass r.unit = 0x10 ∧ r.idx < 64 then some (uSub r.unit, r.idx, Words8.ofBytes r.body) else none
/-- A reduction record: target a stack controller. -/
def redRec (r : PRec) : Option (Nat × List Nat) :=
  if uidOk r.unit ∧ uClass r.unit = 0x10 then some (uSub r.unit, (List.range 5).map (fun i => imgF r.body (8 * i) 8)) else none
/-- A reduction order: target an owner stack controller. -/
def orderRec (r : PRec) : Option (Nat × List Nat) :=
  if uidOk r.unit ∧ uClass r.unit = 0x10 then some (uSub r.unit, (List.range r.idx).map (fun i => imgF r.body (4 * i) 4)) else none
/-- A substitute or without-region plan: target a compute domain, index the region whose work it replaces. -/
def subRec (lead : Nat) (r : PRec) : Option SubPlan :=
  if uidOk r.unit ∧ uClass r.unit = 4 ∧ r.idx < 80 ∧ imgHeadOk r.body [1, 2, 3] then
    (coreOf lead r.body).map (fun k => ⟨if uRegion r.unit = r.idx then 0x7F else uRegion r.unit, r.idx, k.pages, k.routes, k.steps⟩)
  else none
/-- A plan set from its image; none where a record or the header is not as R350 gives it. -/
def readSet (lead : Nat) (b : List Byte) : Option PlanSet :=
  if imgHeadOk b [1, 2, 3, 4, 5, 6, 7] = false then none
  else (coreOf lead b).bind (fun k =>
    (imgRecs b 4).bind (fun s => (allRecs streamRec s).bind (fun ss =>
      (imgRecs b 5).bind (fun d => (allRecs redRec d).bind (fun ds =>
        (imgRecs b 6).bind (fun o => (allRecs orderRec o).bind (fun os =>
          (imgRecs b 7).bind (fun u => (allRecs (subRec lead) u).map (fun us =>
            { kind := imgF b 6 1, freeze := imgF b 8 8, holdLimit := if imgF b 16 4 = 0 then 65536 else imgF b 16 4, pages := k.pages, routes := k.routes
              steps := k.steps, streams := ss, reds := ds, order := os, subs := us })))))))))
/-- A reduction descriptor in service, from its words. -/
def redOf (c : Nat) (w : List Nat) : RedRun :=
  let b (i : Nat) : W64 := BitVec.ofNat 64 (w.getD i 0)
  { ctx := c, d0 := b 0, d1 := b 1, d2 := b 2, d3 := b 3, d4 := b 4 }

/-! Library images and scratchpad maps. -/

/-- A library image has whole entries and slots, and its reserved bytes are 0 (R350). -/
def libFormOk (b : List Byte) : Bool :=
  decide (4096 ≤ b.length) && decide ((b.length - 4096) % 16 = 0) && decide (b.length ≤ 4096 + 16 * 8192) &&
    (List.range 256).all (fun k => decide (imgF b (16 * k + 8) 8 = 0) && decide (imgF b (16 * k + 4) 1 ≤ 1))
/-- The shape of bank b keeps R153. -/
def SpMap.shapeOk (m : SpMap) (b : Nat) : Bool :=
  let sh := m.shapeByte b
  let n := 2 ^ bits sh 7 6
  let b0 := b - b % n
  decide (b0 + n ≤ 24) && (List.range n).all (fun i => decide (m.shapeByte (b0 + i) = sh)) && decide (bits sh 5 4 ≤ bits sh 7 6) &&
    decide (bits sh 5 4 ≤ bits sh 3 0) && decide (bits sh 3 0 ≤ 13)
/-- The owners of bank b keep R155 and R156. -/
def SpMap.ownOk (m : SpMap) (b : Nat) : Bool :=
  let x := m.mapByte b
  decide (bits x 7 7 = 0) && decide (bits x 2 0 ≤ 4) && decide (bits x 6 4 ≤ 4) &&
    (!m.dual b || (decide (bits (m.shapeByte b) 7 6 = 0) && decide (bits x 6 4 ≠ bits x 2 0)))
/-- A scratchpad map R156 accepts. -/
def SpMap.loadable (m : SpMap) : Bool :=
  (List.range 24).all (fun b => m.shapeOk b && m.ownOk b) && decide (((List.range 24).filter m.dual).length ≤ 4)

end Sys2Proof.Machine
end

