-- ==== Sys2Proof/Machine/Ripener.lean ====
section
/-! DEFINITION. The Ripener's commands: updates, mirrors, acknowledgements, all-gathers and their limits (spec 10: R254 to R269; spec 17: R423,
R426). -/

namespace Sys2Proof.Machine

/-- Elements received (R253): 256 for each dense and row block accepted. -/
def Owner.elems (o : Owner) : Nat := 256 * o.members.foldl (fun a m => a + m.dense + m.rows) 0
/-- The values of the step record. -/
def Owner.stat (o : Owner) (norm : W64) : PStat := ⟨o.parcel, rn32 o.amax, o.sat, o.skipped, o.elems, norm⟩
/-- n_p (R257). -/
def normOf (gs : W32) (G : List Nat) : W64 :=
  c64 (G.foldl (fun (a : Val) y => let p := Val.mul (v32 gs) (fp32.dec y); r64 (Val.add a (r64 (Val.mul p p)))) (.zero false))
/-- The gradient of a complete parcel. -/
def Owner.grads (o : Owner) (x : Ctx) : List Nat := (List.range 65536).map (fun i => ownerG x.e4m3 (x.scale o.parcel) (o.acc.get 0 i))
/-- The constants a parcel's group uses in a step. -/
def Ctx.hyper (x : Ctx) (e : PEnt) (step : Nat) : Hyper :=
  hyperOf (x.groupOf e) step (BitVec.ofNat 32 ((x.run.map Run.lr).getD 0x3F800000)) (x.counts.get 0 e.group) (if step = 0 then 0 else x.gnorm.get 0 (step - 1))
/-- The new elements of a parcel: θ, m and v as stored codes, with the first element that is not finite. -/
def updateAll (h : Hyper) (bf : Bool) (on : Nat → Bool) (G θ m v : List Nat) : List (Nat × Nat × Nat) × Option Nat :=
  let r := (List.range 65536).map (fun i =>
    let t0 := θ.getD i 0
    let m0 := m.getD i 0
    let v0 := v.getD i 0
    if on i then
      let u := updElem h (BitVec.ofNat 32 (G.getD i 0)) (BitVec.ofNat 32 t0) (BitVec.ofNat 32 m0) (BitVec.ofNat 32 v0)
      (u.1.toNat, momCode bf u.2.1, momCode bf u.2.2)
    else (t0, momCode bf (BitVec.ofNat 32 m0), momCode bf (BitVec.ofNat 32 v0)))
  (r, (r.zipIdx.find? (fun q => on q.2 && (f32nonfinite (BitVec.ofNat 32 q.1.1) || (usesM h.rule && momBad bf q.1.2.1) || (usesV h.rule && momBad bf q.1.2.2)))).map Prod.snd)
/-- The pieces of a slot that the rule reads: the master, m and v where it uses them. -/
def wantParts (e : PEnt) (bf : Bool) (rule slot : Nat) : List (Nat × Nat × Nat) :=
  ((slotParts e bf slot).zipIdx.filter (fun q => decide (q.2 = 0) || (decide (q.2 = 1) && usesM rule) || (decide (q.2 = 2) && usesV rule))).map Prod.fst
/-- The elements a sparse group touches, all of any other. -/
def Owner.on (o : Owner) (g : Words8) (i : Nat) : Bool := !grSparse g || o.touched.contains (i / 256)
/-- The new elements from what was read. -/
def newElems (x : Ctx) (e : PEnt) (step : Nat) (o : Owner) (bs : List (List Byte)) : List (Nat × Nat × Nat) × Option Nat :=
  let g := x.groupOf e
  let bf := grBf g
  let h := x.hyper e step
  updateAll h bf (o.on g) (o.grads x) (le32s (bs.headD [])) (if usesM h.rule then momIn bf (bs.getD 1 []) else [])
    (if usesV h.rule then momIn bf (if usesM h.rule then bs.getD 2 [] else bs.getD 1 []) else [])
/-- The new elements in state slot `n`: master, and the moments the rule uses. -/
def writeElems (c : Nat) (e : PEnt) (bf : Bool) (rule n : Nat) (r : List (Nat × Nat × Nat)) (s : State) : State :=
  let h := momBytes bf / 2
  let s := s.writePart c (e.mext, 262144 * n, 262144) (r.flatMap (fun q => leBytes 4 q.1))
  let s := if usesM rule then s.writePart c (e.vext, momBytes bf * n, h) (momOut bf (r.map (fun q => q.2.1))) else s
  if usesV rule then s.writePart c (e.vext, momBytes bf * n + h, h) (momOut bf (r.map (fun q => q.2.2))) else s
/-- An update whose elements are all finite: the slot written, the step record, the working copy, the mirror on its way, the owner buffer free
(R253, R258, R263). -/
def storeUpdate (c parcel step attempt : Nat) (e : PEnt) (o : Owner) (n : Nat) (r : List (Nat × Nat × Nat)) (x : Ctx) (s : State) : State :=
  let g := x.groupOf e
  let h := x.hyper e step
  let s := (writeElems c e (grBf g) h.rule n r s).onCtx c (fun y => y.putStat step (o.stat (normOf h.gs (o.grads x))))
  s.finishUpdate c parcel e n step attempt (r.map Prod.fst) (if grSparse g then some o.touched else none)
/-- The flags that an update raises (R91): of every element it forms. -/
def ripenFlags (x : Ctx) (e : PEnt) (step : Nat) (o : Owner) (bs : List (List Byte)) : Flags :=
  let g := x.groupOf e
  let bf := grBf g
  let h := x.hyper e step
  let θ := le32s (bs.headD [])
  let m := if usesM h.rule then momIn bf (bs.getD 1 []) else []
  let v := if usesV h.rule then momIn bf (if usesM h.rule then bs.getD 2 [] else bs.getD 1 []) else []
  let G := o.grads x
  (List.range 65536).foldl (fun a i =>
    if o.on g i then a.or (updFlags h (BitVec.ofNat 32 (G.getD i 0)) (BitVec.ofNat 32 (θ.getD i 0)) (BitVec.ofNat 32 (m.getD i 0)) (BitVec.ofNat 32 (v.getD i 0))) else a) {}
/-- The pieces an update of a parcel reads, from state slot `slot`: its master and moments, and the working copy where it keeps blocks of it. -/
def State.readPieces (s : State) (x : Ctx) (e : PEnt) (step slot : Nat) : List (Nat × Nat × Nat) :=
  let g := x.groupOf e
  wantParts e (grBf g) (x.hyper e step).rule slot ++ (if grSparse g then [s.workPart e (grWfmt g) step] else [])
/-- Why an update of a parcel cannot run now: a piece that it reads or writes is denied or lies in an absent far page. -/
def State.updateStops (s : State) (c : Nat) (e : PEnt) (step slot : Nat) : Option PartErr :=
  let x := s.ctx c
  let g := x.groupOf e
  let reads := s.readPieces x e step slot
  let writes := ((s.spareSlot c e (grBf g)).map (wantParts e (grBf g) (x.hyper e step).rule)).getD [] ++ [s.workPart e (grWfmt g) (step + 1)]
  s.stopsIn c 1 5 (reads ++ writes)
/-- Go on with a parcel unless something stops it. -/
def unlessStopped (sc c parcel step attempt : Nat) (stop : Option PartErr) (go : State → State) (s : State) : State :=
  match stop with
  | none => go s
  | some r => s.stateError sc c parcel step attempt r
/-- The update of a complete parcel by its group's rule (R258, R263). -/
def ripen (sc c parcel step attempt : Nat) (e : PEnt) (o : Owner) (s : State) : State :=
  let x := s.ctx c
  let bf := grBf (x.groupOf e)
  let rule := (x.hyper e step).rule
  let slot := (x.commits.get {} parcel).slot
  unlessStopped sc c parcel step attempt (s.updateStops c e step slot) (fun s =>
    afterRead (s.readParts c (wantParts e bf rule slot)) (fun s r => s.stateError sc c parcel step attempt r) (fun s bs =>
      match s.takeSlot c parcel e with
      | none => s
      | some (s, n) =>
        let s := s.onSc sc (fun k => { k with rpFl := k.rpFl.or (ripenFlags x e step o bs) })
        match (newElems x e step o bs).2 with
        | some i =>
          ((s.abandonCommit c parcel).dropSlotLease c sc n).freeOwner sc c parcel |>.report
            ⟨fcUpdateNonfinite, uidRip sc, s.now, 0, 0, c, [parcel, i, step, attempt]⟩
        | none => storeUpdate c parcel step attempt e o n (newElems x e step o bs).1 x s)) s
/-- A host-assisted parcel: g into the next slot of HXEXT, and the event (R269). -/
def ripenHost (sc c parcel step attempt : Nat) (e : PEnt) (o : Owner) (s : State) : State :=
  let x := s.ctx c
  let g := x.groupOf e
  let h := x.hyper e step
  let hx := grHxext g
  let n := (s.extD hx).pages * pageBytes / 262144
  let k := if n = 0 then 0 else x.hxNext % n
  let q := (hx, 262144 * k, 262144)
  unlessStopped sc c parcel step attempt (s.stopsIn c 0 0 [q]) (fun s =>
    match s.takeSlot c parcel e with
    | none => s
    | some (s, slot) =>
      let G := o.grads x
      let s := (s.spendPart c q).writeExt hx (s.extD hx) (262144 * k) (G.flatMap (fun y => leBytes 4 (h.grad (BitVec.ofNat 32 y)).toNat))
      let s := s.onCtx c (fun x => { x.putStat step (o.stat (normOf h.gs G)) with hostOut := x.hostOut ++ [(parcel, attempt, s.clk.beat)], hxNext := k + 1 })
      (s.post c 2 (fld parcel 24 0 + fld attempt 8 24 + fld k 24 32 + fld (x.commits.get {} parcel).slot 16 56 + fld slot 16 72) c).freeOwner sc c parcel) s
/-- A parcel committed before in the step becomes complete in a redo: the working copy is derived again and sent again (R267). -/
def ripenAgain (sc c parcel step attempt : Nat) (e : PEnt) (o : Owner) (s : State) : State :=
  let x := s.ctx c
  let g := x.groupOf e
  let cm := x.commits.get {} parcel
  let kept := (x.statOf step parcel).any PStat.skipped || (grSparse g && decide (o.touched = []))
  let q := (e.mext, 262144 * cm.slot, 262144)
  let old := s.workPart e (grWfmt g) step
  unlessStopped sc c parcel step attempt (s.stopsIn c 1 5 [q, old]) (fun s =>
    afterRead (s.readParts c (if kept then [old] else if grSparse g then [q, old] else [q])) (fun s r => s.stateError sc c parcel step attempt r) (fun s bs =>
      let new := deriveWork g x.seedOf parcel (le32s (bs.headD []))
      let w := if kept then bs.headD [] else if grSparse g then keepUntouched (grWfmt g) o.touched (bs.getD 1 []) new else new
      ((s.writeWork c e (step + 1) w).allGather c parcel e step attempt (x.scaleNext.get 0x7F parcel)).freeOwner sc c parcel)) s
/-- It is a complete parcel's turn: it was set aside before, or no other that can be taken became complete before it (R254, R261). -/
def State.ripeNow (s : State) (sc : Nat) (o : Owner) : Bool :=
  o.aside || (s.sc sc).owners.all (fun q => !q.complete || q.aside || (s.ctx q.ctx).stepOn.isNone || decide (o.doneNo ≤ q.doneNo))
/-- RIPENER_UPDATE (R254, R263): a complete parcel, or one newly frozen, of the step that runs; a fenced context's engines do not act (R332). -/
def doRipenerUpdate (sc ctx parcel : Nat) (s : State) : State :=
  let x := s.ctx ctx
  match x.pent parcel, x.stepOn with
  | some e, some (step, attempt) =>
    let cm := x.commits.get {} parcel
    if e.owner ≠ s.myPos ∨ extSc e.wext ≠ sc ∨ (s.sc sc).underTest ∨ s.throttled sc ∨ x.st = .fenced ∨ cm.inf ∨ x.repair.contains parcel then s
    else if x.newFz.contains parcel then
      if cm.step.toNat = step then s else s.commitUnchanged ctx parcel e step attempt ⟨parcel, 0, 0, false, 0, 0⟩
    else match (s.sc sc).owner? ctx parcel with
      | none => s
      | some o =>
        if o.complete = false ∨ s.ripeNow sc o = false then s
        else if o.unreadable then s.rsramFault sc ctx parcel
        else if cm.step.toNat = step then ripenAgain sc ctx parcel step attempt e o s
        else if o.skipped ∨ (grSparse (x.groupOf e) ∧ o.touched = []) then s.commitUnchanged ctx parcel e step attempt (o.stat 0)
        else if grRule (x.groupOf e) = 15 then ripenHost sc ctx parcel step attempt e o s
        else ripen sc ctx parcel step attempt e o s
  | _, _ => s

/-! Mirrors (R262 to R264, R426). -/

/-- The kind-5 extents of a context, in number order. -/
def State.mirrorExts (s : State) (c : Nat) : List (Nat × ExtEnt) :=
  s.scs.flatMap (fun q => q.2.ext.filterMap (fun p => (s.ext (2048 * q.1 + p.1)).bind (fun e => if e.kind = 5 ∧ e.ctx = c then some (2048 * q.1 + p.1, e) else none)))
/-- Bytes of a mirror slot. -/
def mirrorSlotBytes : Nat := 786432
/-- The places of the mirror slots of a context: extent and offset by slot number. -/
def State.mirrorPlaces (s : State) (c : Nat) : List (Nat × Nat) :=
  (s.mirrorExts c).flatMap (fun p => (List.range (p.2.pages * pageBytes / mirrorSlotBytes)).map (fun i => (p.1, mirrorSlotBytes * i)))
/-- The lowest mirror slot no entry holds. -/
def State.spareMirror (s : State) (c : Nat) : Option (Nat × Nat × Nat) :=
  let used := (s.ctx c).mirrors.map (fun p => p.2.slot)
  ((s.mirrorPlaces c).zipIdx.find? (fun q => !used.contains q.2)).map (fun q => (q.2, q.1))
/-- Answer a mirror transfer on the link it came over. -/
def State.ackMirror (s : State) (link c dst : Nat) (p : Prefix) (status : Nat) : State :=
  let body := leBytes 4 p.parcel ++ leBytes 4 p.step ++ leBytes 1 p.attempt ++ leBytes 1 status ++ leBytes 6 0
  (s.onLink link (fun l => { l with queue := l.queue ++ [⟨0, 6, c, dst, body⟩] })).pumpLink link
/-- A takeover ends: its OPT_PARCEL_MAP has its final reply. -/
def State.endTakeover (s : State) (c status detail : Nat) : State :=
  match (s.ctx c).takeover with
  | some t => (s.onCtx c (fun x => { x with takeover := none })).finish t.long status detail
  | none => s
/-- A takeover is over once every sender has ended and everything it stated has come; more than stated fails the check (R426). -/
def State.tryTakeover (s : State) (c : Nat) : State :=
  match (s.ctx c).takeover with
  | none => s
  | some t =>
    if t.due.any (fun d => decide (d.2 < t.got.get 0 d.1)) then s.endTakeover c stFaulted noCause
    else if t.asked ∧ t.wait = [] ∧ t.due.all (fun d => decide (t.got.get 0 d.1 = d.2)) = true then s.endTakeover c stOk 0
    else s
/-- The number a sender has in a takeover: its position, 65 for a buddy in another pod. -/
def State.senderKey (s : State) (f : FHdr) : Nat := if f.spod = s.myPod then f.spos else 65
/-- Units received from a position in a takeover. -/
def State.tookUnits (s : State) (f : FHdr) (n : Nat) : State :=
  (s.onCtx f.ctx (fun x => { x with takeover := x.takeover.map (fun t => { t with got := t.got.upd 0 (s.senderKey f) (· + n) }) })).tryTakeover f.ctx
/-- The buddy's copy of a state comes back to its owner: for a takeover into the home slot with its STEP, for a repair into a spare slot with
STEP as it was (R423, R426). -/
def mirrorBack (f : FHdr) (p : Prefix) (e : PEnt) (data : List Byte) (s : State) : State :=
  let c := f.ctx
  let x := s.ctx c
  let bf := grBf (x.groupOf e)
  let put (slot : Nat) (s : State) : State := s.writeSlot c e bf slot data
  if x.takeover.isSome then
    ((put e.slot s).onCtx c (fun x => { x with commits := x.commits.set {} p.parcel ⟨BitVec.ofNat 32 p.step, true, false, e.slot, 0⟩ })).tookUnits f p.frags
  else if x.repair.contains p.parcel then
    match s.spareSlot c e bf with
    | none => s
    | some n =>
      (((put n s).onCtx c (fun x => { x with commits := x.commits.upd {} p.parcel (fun m => { m with slot := n }), repair := x.repair.filter (· ≠ p.parcel) }))).onOwner
        (extSc e.wext) c p.parcel (fun o => { o with aside := false })
  else s
/-- A mirror transfer reaches the buddy: out of place, then the entry flips as one write (R263). -/
def mirrorIn (f : FHdr) (p : Prefix) (data : List Byte) (s : State) : State :=
  let c := f.ctx
  let step : W32 := BitVec.ofNat 32 p.step
  if p.unch then
    if ((s.ctx c).mirrors.get {} p.parcel).v then
      (s.onCtx c (fun x => { x with mirrors := x.mirrors.upd {} p.parcel (fun m => { m with step := step }) })).ackMirror f.link c f.spos p 0
    else s.ackMirror f.link c f.spos p 1
  else match s.spareMirror c with
    | none => s.ackMirror f.link c f.spos p 1
    | some (n, ext, off) =>
      if s.rangeHere ext (s.extD ext) off data.length = false then s.ackMirror f.link c f.spos p 1
      else
        let s := s.writeExt ext (s.extD ext) off data
        ((s.onCtx c (fun x => { x with mirrors := x.mirrors.set {} p.parcel ⟨step, true, false, n, 0⟩ })).ackMirror f.link c f.spos p 0).tookUnits f p.frags
/-- Scale tables of a takeover: current, then next, each padded to whole units (R426). -/
def scalesIn (f : FHdr) (p : Prefix) (data : List Byte) (s : State) : State :=
  let c := f.ctx
  if (s.ctx c).takeover.isNone then s
  else
    let n := (s.ctx c).pmap.length
    let tab (b : List Byte) : Tab Nat := (b.take n).zipIdx.foldl (fun (t : Tab Nat) q => t.set 0x7F q.2 q.1.toNat) []
    (s.onCtx c (fun x => { x with scaleCur := tab data, scaleNext := tab (data.drop (data.length / 2)) })).tookUnits f p.frags
/-- MIRROR (R263, R426). -/
def doMirror (f : FHdr) (p : Prefix) (data : List Byte) (s : State) : State :=
  s.fabricIn f 3 [2064, 16] (fun s =>
    if p.scales then scalesIn f p data s
    else if data.length ≠ 2048 * p.frags then s
    else match (s.ctx f.ctx).pent p.parcel with
      | none => s.ackMirror f.link f.ctx f.spos p 1
      | some e => if e.owner = s.myPos then mirrorBack f p e data s else mirrorIn f p data s)
/-- A parcel written by command has its mirror: the last one ends the command (R274, R355). -/
def State.initDone (s : State) (c parcel : Nat) (cause : Option Nat) : State :=
  (s.ctx c).initWait.foldl (fun s w =>
    if w.2.contains parcel = false then s
    else
      let rest := w.2.filter (· ≠ parcel)
      let s := s.onCtx c (fun x => { x with initWait := (x.initWait.filter (fun v => v.1 ≠ w.1)) ++ (if rest = [] ∨ cause.isSome then [] else [(w.1, rest)]) })
      match cause with
      | some i => s.finish w.1 stFaulted i
      | none => if rest = [] then s.finish w.1 stOk (((s.long.find? (fun l => l.id = w.1)).map Long.a).getD 0) else s) s
/-- A context whose update in flight is committed, as one write: the new slot and step, the next scale, the step record's count. -/
def Ctx.commitFlight (x : Ctx) (fl : InFlight) (e : PEnt) (skipped : Bool) : Ctx :=
  { x.onRec fl.step (fun r => if fl.unch then { r with skipped := r.skipped + b2n skipped } else { r with updated := r.updated + 1 }) with
    commits := x.commits.upd {} fl.parcel (fun m => { m with slot := m.newslot, step := BitVec.ofNat 32 fl.step, inf := false, newslot := 0 })
    scaleNext := x.scaleNext.set 0x7F fl.parcel fl.wnext
    bumped := if fl.unch ∨ x.bumped.contains e.group then x.bumped else x.bumped ++ [e.group] }
/-- The mirror of an update is there: counted, and no longer in flight. -/
def State.mirrored (s : State) (sc c parcel : Nat) : State :=
  (s.onSc sc (fun k => { k with mirrors := k.mirrors + 1 })).onCtx c (fun x => { x with flight := x.flight.filter (fun f => f.parcel ≠ parcel) })
/-- The buddy has acknowledged: the parcel is committed as one write, and its all-gather goes (R263, R268). -/
def ackIn (c : Nat) (fl : InFlight) (e : PEnt) (s : State) : State :=
  let sc := extSc e.wext
  let x := s.ctx c
  let s := s.mirrored sc c fl.parcel
  if fl.initial ∧ fl.unch then s
  else if fl.initial then
    let s := s.initDone c fl.parcel none
    s.sendWork c fl.parcel e 0 0xFFFFFFFF 0 (x.scaleNext.get 0x7F fl.parcel) ((x.members e).filter (· ≠ s.myPos))
  else
    let skipped := (x.statOf fl.step fl.parcel).any PStat.skipped
    let s := if fl.unch then s else s.dropSlotLease c sc (x.commits.get {} fl.parcel).newslot
    let s := s.onCtx c (fun x => x.commitFlight fl e skipped)
    let s := s.onSc sc (fun k => { k with parcels := k.parcels + 1, skip := if skipped then k.skip + 1 else k.skip })
    s.allGather c fl.parcel e fl.step fl.attempt fl.wnext
/-- MIRROR_ACK (R263); one after abandonment is ignored (R264). -/
def doMirrorAck (f : FHdr) (parcel step attempt status : Nat) (s : State) : State :=
  s.fabricIn f 0 [16] (fun s =>
    let x := s.ctx f.ctx
    match x.flight.find? (fun q => decide (q.parcel = parcel ∧ q.step = step ∧ q.attempt = attempt)), x.pent parcel with
    | some fl, some e => if status = 0 then ackIn f.ctx fl e s else s
    | _, _ => s)
/-- MIRROR_TIMEOUT (R264). -/
def doMirrorTimeout (ctx parcel : Nat) (s : State) : State :=
  let x := s.ctx ctx
  match x.flight.find? (fun q => q.parcel = parcel), x.pent parcel with
  | some fl, some e =>
    if s.clk.beat < fl.beat + 65536 then s
    else
      let sc := extSc e.wext
      let det := [(s.pod.cfg.map PodCfg.buddy).getD 0, parcel, fl.step, fl.attempt]
      if fl.initial then
        let i := s.log.next
        ((s.keeperFault fcMirrorTimeout (uidRip sc) ctx 0 det).onCtx ctx (fun x => { x with flight := x.flight.filter (fun f => f.parcel ≠ parcel) })).initDone ctx parcel (some i)
      else
        let s := s.report ⟨fcMirrorTimeout, uidRip sc, s.now, 0, 0, ctx, det⟩
        let s := if fl.unch then s else s.dropSlotLease ctx sc (x.commits.get {} parcel).newslot
        s.abandonCommit ctx parcel
  | _, _ => s

/-- The working slot of a parcel in bank `b` lies in a working-copy extent of the context that is here (R268). -/
def State.workFits (s : State) (c : Nat) (e : PEnt) (b : Nat) : Bool :=
  let n := s.bankExt e.wext b
  let wb := workBytes (grWfmt ((s.ctx c).groupOf e))
  (s.ext n).any (fun y => decide (y.ctx = c) && (decide (y.kind = 1) || decide (y.kind = 2)) && y.holds e.woff wb && s.rangeHere n y e.woff wb)
/-- ALLGATHER (R268): the slot into its bank, w_next into the next table, unless the extent check refuses. -/
def doAllgather (f : FHdr) (p : Prefix) (data : List Byte) (s : State) : State :=
  s.fabricIn f 2 [2064] (fun s =>
    let c := f.ctx
    let x := s.ctx c
    match x.pent p.parcel with
    | none => s
    | some e =>
      let both := decide (p.step = 0xFFFFFFFF)
      let cur := x.now.any (fun n => decide (n.step = p.step))
      if (x.members e).contains s.myPos = false ∨ (both = false ∧ cur = false ∧ x.takeover.isNone) ∨ (e.owner = s.myPos ∧ x.takeover.isNone) then s
      else
        let banks := if both then [0, 1] else [(p.step + 1) % 2]
        if data.length ≠ workBytes (grWfmt (x.groupOf e)) ∨ banks.all (s.workFits c e) = false then
          (s.report ⟨fcParcelDenied, uidSc (extSc e.wext), s.now, 0, 0, c, [p.parcel, p.step, p.attempt]⟩).endTakeover c stFaulted noCause
        else
          let s := banks.foldl (fun s b => s.writeWork c e b data) s
          (s.onCtx c (fun y => { y with
            scaleNext := if both ∨ x.takeover.isSome then y.scaleNext else y.scaleNext.set 0x7F p.parcel p.wnext
            gathered := if cur = false ∨ y.gathered.contains p.parcel then y.gathered else y.gathered ++ [p.parcel] })).tookUnits f p.frags)

/-- HOST_UPDATE_TIMEOUT (R269). -/
def doHostUpdateTimeout (ctx parcel : Nat) (s : State) : State :=
  let x := s.ctx ctx
  match x.hostOut.find? (fun h => h.1 = parcel), x.pent parcel with
  | some h, some e =>
    let lim := grHlimit (x.groupOf e)
    if lim = 0 ∨ s.clk.beat < h.2.2 + lim then s
    else
      let sc := extSc e.wext
      let s := s.onCtx ctx (fun x => { x with hostOut := x.hostOut.filter (fun h => h.1 ≠ parcel) })
      let s := (s.dropSlotLease ctx sc (x.commits.get {} parcel).newslot).abandonCommit ctx parcel
      s.report ⟨fcHostUpdateTimeout, uidRip sc, s.now, 0, 0, ctx, [parcel, (x.now.map StepNow.step).getD 0, h.2.1]⟩
  | _, _ => s

/-! The meanings: one per command, each a frame around its effect. -/

/-- RIPENER_UPDATE (R258). -/
def execRipenerUpdate (sc ctx parcel : Nat) (s : State) : Out :=
  guarded "RIPENER_UPDATE" (.ripenerUpdate sc ctx parcel) s (doRipenerUpdate sc ctx parcel)
/-- MIRROR (R263). -/
def execMirror (f : FHdr) (p : Prefix) (data : List Byte) (s : State) : Out :=
  guarded "MIRROR" (.mirror f p data) s (doMirror f p data)
/-- MIRROR_ACK (R263). -/
def execMirrorAck (f : FHdr) (parcel step attempt status : Nat) (s : State) : Out :=
  guarded "MIRROR_ACK" (.mirrorAck f parcel step attempt status) s (doMirrorAck f parcel step attempt status)
/-- MIRROR_TIMEOUT (R264). -/
def execMirrorTimeout (ctx parcel : Nat) (s : State) : Out :=
  guarded "MIRROR_TIMEOUT" (.mirrorTimeout ctx parcel) s (doMirrorTimeout ctx parcel)
/-- ALLGATHER (R268). -/
def execAllgather (f : FHdr) (p : Prefix) (data : List Byte) (s : State) : Out :=
  guarded "ALLGATHER" (.allgather f p data) s (doAllgather f p data)
/-- HOST_UPDATE_TIMEOUT (R269). -/
def execHostUpdateTimeout (ctx parcel : Nat) (s : State) : Out :=
  guarded "HOST_UPDATE_TIMEOUT" (.hostUpdateTimeout ctx parcel) s (doHostUpdateTimeout ctx parcel)

end Sys2Proof.Machine
end

