-- ==== Sys2Proof/Machine/StepOps.lean ====
section
/-! DEFINITION. Shared operations of steps: what a step start changes, digests, STEP_START messages, norms (spec 03: R96; spec 09: R226,
R232; spec 10: R257, R266; spec 11: R288, R289). -/

namespace Sys2Proof.Machine

/-- Load a freeze set: FZ of every entry; parcels that become frozen wait for their commit as unchanged (R232, R260). -/
def Ctx.setFreeze (x : Ctx) (b : List Byte) : Ctx :=
  let on (i : Nat) : Bool := bit (b.getD (i / 8) 0#8).toNat (i % 8)
  let was := x.pmap.zipIdx.filter (fun q => !q.1.fz && on q.2)
  { x with pmap := x.pmap.zipIdx.map (fun q => q.1.setFz (on q.2)), freeze := b
           newFz := (x.newFz ++ was.map Prod.snd).filter on }
/-- OPT_CONFIG's values (R97, R355), packed as its PARAMS bytes 12 to 15; the wire format waits for a step start (R96). -/
def Ctx.setConfig (x : Ctx) (v : Nat) : Ctx :=
  { x with wireNext := bit v 0, wsr := bit v 1, headroom := bits v 15 8, satStep := bits v 23 16, downStep := bits v 31 24 }
/-- A change that waited for a step start. -/
def Ctx.applyDef (x : Ctx) : Deferred → Ctx
  | .config v => x.setConfig v
  | .group i r => { x with groups := x.groups.set {} i r }
  | .freeze b => x.setFreeze b
/-- Set every entry above w_max to w_max (R96). -/
def Ctx.clip (x : Ctx) : Ctx :=
  let f (t : Tab Nat) : Tab Nat := t.map (fun p => (p.1, min p.2 (wMax x.e4m3)))
  { x with scaleCur := f x.scaleCur, scaleNext := f x.scaleNext }
/-- A run is a redo of the step recorded last, which has begun before. -/
def Ctx.isRedo (x : Ctx) (r : Run) : Bool := x.now.any (fun n => decide (n.step = r.step) && decide (0 < n.attempts))
/-- The context as a step start makes it: deferred changes in ring order, the next scale table current in a first attempt, entries clipped
(R96, R232, R255). The first step after set-up is such an attempt: it takes the next table (DESIGN CHOICE, entry 53). -/
def Ctx.atStart (x : Ctx) (r : Run) : Ctx :=
  let x := x.deferred.foldl (fun x d => x.applyDef d.1) x
  let x := { x with deferred := [], e4m3 := x.wireNext, scaleCur := if x.isRedo r then x.scaleCur else x.scaleNext }
  x.clip
/-- The 64-bit digest of the current scale table and the wire format (R96). -/
def Ctx.scaleDigest (x : Ctx) : Nat := sha64 ((List.range x.pmap.length).map (fun p => BitVec.ofNat 8 (x.scale p)) ++ [BitVec.ofNat 8 (b2n x.e4m3)])
/-- The freeze-set digest (R232, R355). -/
def Ctx.freezeDigest (x : Ctx) : Nat := sha64 x.freeze
/-- A step of a context waits for its plan beat 0. -/
def Ctx.waiting (x : Ctx) : Option Run := x.run.filter (fun r => r.kind = .step && !r.started)
/-- The message of a position for the step that waits. -/
def Ctx.startFrom (x : Ctx) (r : Run) (pos : Nat) : Option StartMsg := x.starts.find? (fun m => m.pos = pos && m.step = r.step && m.attempt = r.attempt)
/-- Positions whose message is missing. -/
def Ctx.missing (x : Ctx) (me : Nat) (r : Run) : List Nat := (x.peersOf me).filter (fun p => (x.startFrom r p).isNone)
/-- A step that has not begun does not start: its final reply names the record (R289). -/
def State.refuseStart (s : State) (c cls : Nat) (det : List Nat) : State :=
  let tag := ((s.ctx c).run.map Run.cmdTag).getD 0
  let idx := s.log.next
  (s.keeperFault cls uidKeeper c tag det).closeRun c stFaulted idx
/-- Compare the digests of the messages received with the module's own (R96, R289). -/
def State.compareStarts (s : State) (c : Nat) : State :=
  let x := s.ctx c
  match x.waiting with
  | none => s
  | some r =>
    if x.ownStart.isNone then s
    else
      let y := x.atStart r
      let sd := y.scaleDigest
      let fd := y.freezeDigest
      match (x.peersOf s.myPos).filterMap (x.startFrom r) |>.find? (fun m => decide (m.scale ≠ sd ∨ m.freeze ≠ fd)) with
      | none => s
      | some m => s.refuseStart c (if m.scale ≠ sd then fcScaleMismatch else fcFreezeMismatch) [m.pos]
/-- A gradient or all-gather packet of a context. -/
def FPkt.ofStep (p : FPkt) (c : Nat) : Bool := p.ctx = c && [1, 2, 4].contains p.typ
/-- The body of STEP_START. -/
def startBody (c : Nat) (r : Run) (sd fd : Nat) : List Byte := leBytes 2 c ++ leBytes 4 r.step ++ leBytes 1 r.attempt ++ leBytes 8 sd ++ leBytes 8 fd
/-- Send the module's own STEP_START once it may: for a redo, packets of earlier attempts leave the queues, and none may be unacknowledged
(R266, R288). -/
def State.sendStart (s : State) (c : Nat) : State :=
  let x := s.ctx c
  match x.waiting with
  | none => s
  | some r =>
    if x.ownStart.isSome then s
    else
      let redo := x.isRedo r
      let s := if redo then { s with links := s.links.mapV {} (fun _ l => { l with queue := l.queue.filter (fun p => !p.ofStep c) }) } else s
      if redo ∧ s.links.any (fun l => l.2.replay.any (fun p => p.p.ofStep c)) then s
      else
        let y := x.atStart r
        let s := (x.peersOf s.myPos).foldl (fun s q => s.fctl c q 2 (startBody c r y.scaleDigest y.freezeDigest)) s
        (s.onCtx c (fun x => { x with ownStart := some (s.clk.beat, r.step, r.attempt) })).compareStarts c
/-- STEP_START from another position (R289, R418). -/
def startIn (c pos step attempt scale freeze : Nat) (s : State) : State :=
  let x := s.ctx c
  let older (st at_ : Nat) : Bool := decide (step < st) || (decide (step = st) && later at_ attempt)
  let known := x.starts.any (fun m => m.pos = pos && older m.step m.attempt)
  let own := x.run.any (fun r => decide (r.kind = .step) && older r.step r.attempt)
  let done := decide (x.last ≠ 0xFFFFFFFF) && decide (step ≤ x.last)
  if known ∨ own ∨ done then s
  else
    let s := s.onCtx c (fun x => { x with starts := x.starts.filter (fun m => m.pos ≠ pos) ++ [⟨pos, step, attempt, scale, freeze⟩] })
    match x.run with
    | some r =>
      if r.kind = .step ∧ r.started ∧ r.ending = none ∧ r.step = step ∧ later attempt r.attempt then s.keeperFault fcStepSuperseded uidKeeper c r.cmdTag [pos]
      else s.compareStarts c
    | none => s
/-- The global norm of a step, once every position has reported (R257). -/
def State.tryNorm (s : State) (c step : Nat) : State :=
  let x := s.ctx c
  let ps := membersOf (x.rsets.foldl (· ||| ·) (2 ^ s.myPos))
  let vs := ps.filterMap (fun p => (x.norms.find? (fun n => n.1 = p ∧ n.2.1 = step)).map (fun n => n.2.2))
  if vs.length ≠ ps.length then s
  else
    let sum := vs.foldl (fun (a : Val) v => r64 (Val.add a (v64 v))) (.zero false)
    let g := rn32 (Val.sqrt 60 sum)
    s.onCtx c (fun x => { x.onRec step (fun r => { r with gnorm := g }) with gnorm := Tab.set 0 [] step g.toNat, norms := x.norms.filter (fun n => n.2.1 ≠ step) })
/-- A position's sum of n_p. -/
def normIn (c pos step : Nat) (v : W64) (s : State) : State :=
  (s.onCtx c (fun x => { x with norms := x.norms.filter (fun n => ¬(n.1 = pos ∧ n.2.1 = step)) ++ [(pos, step, v)] })).tryNorm c step

end Sys2Proof.Machine
end

