-- ==== Sys2Proof/Machine/PlanCheck.lean ====
section
/-! DEFINITION. What the plan loader checks (spec 05: R127 to R150; 07: R171 to R176; 08: R211; 09: R227, R235; 10: R242, R249; 14: R349,
R350). -/

namespace Sys2Proof.Machine

/-! Pages (R129, R150). -/

/-- What the loader knows of a stream's generators, converter settings and chain slots from the instructions before: the queue of a generator plus
one (0 outside queue mode or not fixed), a setting's CV_SET word, a slot's configuration. -/
structure AgsSt where
  gens : Tab Nat := []
  cvs : Tab (Option Nat) := []
  chains : Tab Nat := []
  deriving DecidableEq, Repr
/-- The generators that converting under setting k reaches besides DST: row scales read, block scales written (R82). -/
def AgsSt.cvUses (st : AgsSt) (k : Nat) : List (Nat × Nat) :=
  match st.cvs.get none k with
  | some w => (if bits w 59 58 = 3 then [(bits w 53 52, 0)] else []) ++ (if fmtMx (bits w 63 60) then [(bits w 51 50, 1)] else [])
  | none => []
/-- The generators of a stage (R101). -/
def stageUses (s : Stage) : List (Nat × Nat) :=
  (if s.kind = 1 then [(s.ag, 0)] else if s.kind = 9 then [(s.ag, 1)] else []) ++
    (if fmtMx s.fmt then (if s.kind = 1 then [(s.sag, 0)] else if s.kind = 8 then [(s.sag, 1)] else []) else [])
/-- The generators an instruction reaches and how: 0 it reads, 1 it writes, 2 queue mode is not allowed. -/
def TI.genUses (st : AgsSt) : TI → List (Nat × Nat)
  | .mld f => [(f.src, 0)]
  | .mst f _ => [(f.src, 0)] ++ (if fmtMx f.afmt then [(f.ssrc, 0)] else []) ++ (if 2 ≤ f.mode then (f.dst, 1) :: st.cvUses f.cvt else [])
  | .mdr f => (f.dst, 1) :: st.cvUses f.cvt
  | .cvl _ pb a _ => if pb then [(a, 0)] else []
  | .vcl _ a => [(a, 0)]
  | .vrn k _ => (chStages (st.chains.get 0 k)).flatMap stageUses
  | .vrs _ _ a => [(a, 1)]
  | .vrl _ _ a => [(a, 0)]
  | .get _ a _ => [(a, 1)]
  | .put _ a _ => [(a, 0)]
  | .gth f => [(f.iag, 0), (f.sag, 2)] ++ (if f.chan = none then [(f.dag, 1)] else [])
  | .sct f => [(f.iag, 0), (f.dag, 2)] ++ (if f.chan = none then [(f.sag, 0)] else [])
  | .srd _ a => [(a, 2)]
  | _ => []
/-- A stream may use queue q in a way: it pops the queues it pops and pushes those it pushes (R127). -/
def queueUse (exe : Bool) (q use : Nat) : Bool := if use = 2 then false else decide (((use = 1) ↔ (q < 2)) ↔ exe = false)
/-- What the instructions of a section, routines written out, do to that knowledge. -/
def AgsSt.after (st : AgsSt) : TI → AgsSt
  | .ags f => { st with gens := st.gens.set 0 f.ag (if f.qm then f.q + 1 else 0) }
  | .cvl k _ _ w => { st with cvs := st.cvs.set none k (some w.toNat) }
  | .vcl k _ => { st with chains := st.chains.set 0 k 0 }
  | _ => st
/-- Generators whose template an AGS of the page has set keep R129. -/
def agsOk (exe : Bool) : AgsSt → List TI → Bool
  | _, [] => true
  | st, i :: is => (i.genUses st).all (fun u => let q := st.gens.get 0 u.1; q = 0 || queueUse exe (q - 1) u.2) && agsOk exe (st.after i) is
/-- The channel an instruction moves flits through: inbound 0 to 7, outbound from 8. -/
def TI.chan : TI → Option Nat
  | .get ch _ _ => some ch
  | .put ch _ _ => some (8 + ch)
  | .pgl ch _ _ _ => some ch
  | .gth f => f.chan.map (8 + ·)
  | .sct f => f.chan
  | _ => none
/-- A tile's route entries give every channel the page uses. -/
def chansMatch (rt : Tab Routine) (lib : Tab Nat) (slot : Nat → Nat) (routes : List Nat) : Bool :=
  let h := readHdr (slot 0) (slot 1)
  ((flatTis rt (lib.get 0) 4 (tisIn slot h.aoff h.alen ++ tisIn slot h.eoff h.elen)).filterMap TI.chan).all (fun ch =>
    routes.any (fun w => decide (reCh w = ch % 8) && (if ch < 8 then bit (reOut w) 4 else decide (reIn w = 4) || decide (reIn2 w = 4))))
/-- One page of a plan for tile t. -/
def State.pageFine (s : State) (routes : List (Nat × Nat)) (t : Nat) (w : List Nat) : Bool :=
  let x := s.tile t
  let slot (k : Nat) : Nat := w.getD k 0
  let h := readHdr (slot 0) (slot 1)
  let lib := x.lib.get 0
  let chains := ((List.range 16).filter (bit h.csmask)).zipIdx.foldl (fun (m : Tab Nat) p =>
    m.set 0 p.1 ((List.range 8).foldl (fun a j => a + slot (h.csoff + 8 * p.2 + j) * 2 ^ (128 * j)) 0)) []
  let sec (off len : Nat) : List TI := flatTis x.routines lib 4 (tisIn slot off len)
  pageOk x.routines lib slot && agsOk false {} (sec h.aoff h.alen) && agsOk true { chains := chains } (sec h.eoff h.elen) &&
    chansMatch x.routines x.lib slot ((routes.filter (fun r => r.1 = t)).map Prod.snd)
/-- The pages of a plan: tiles it may run on, page 0 there, one PLAN_ID and PAGES in a tile, no page twice (R141, R150). -/
def State.pagesFine (s : State) (k : PlanCore) (tiles : List Nat) : Bool :=
  let hdr (p : Nat × Nat × List Nat) : PageHdr := readHdr (p.2.2.getD 0 0) (p.2.2.getD 1 0)
  k.pages.all (fun p => tiles.contains p.1 && s.pageFine k.routes p.1 p.2.2 && k.pages.any (fun q => q.1 = p.1 && q.2.1 = 0) &&
    k.pages.all (fun q => q.1 ≠ p.1 || (decide ((hdr q).planId = (hdr p).planId) && decide ((hdr q).pages = (hdr p).pages)))) &&
  (k.pages.map (fun p => (p.1, p.2.1))).Nodup

/-! Routes (R171, R175, R176). -/

/-- The slot cycles of an entry. -/
def reSlots (w : Nat) : List Nat := (List.range (reCount w + 1)).map (fun k => reStart w + k * reStride w)
/-- Its inputs. -/
def reIns (w : Nat) : List Nat := reIn w :: (if reIn2 w = 7 then [] else [reIn2 w])
/-- It takes from the tile port. -/
def reTakes (w : Nat) : Bool := (reIns w).contains 4
/-- It delivers to the tile port. -/
def reGives (w : Nat) : Bool := bit (reOut w) 4
/-- The fields of an entry of context c, one by one. -/
def reForm (c w : Nat) : Bool :=
  bit w 63 && decide (reIn w ≤ 4) && (if reOpm w = 0 then decide (reIn2 w = 7) else decide (reIn2 w ≤ 4) && decide (reIn2 w ≠ reIn w)) && decide (reOpm w ≤ 2) &&
    decide (reOut w ≠ 0) && decide (rePtag w = c) && decide (bits w 1 0 = 0) && decide (reStart w + reCount w * reStride w ≤ 0xFFF) &&
    (reTakes w || reGives w || decide (reCh w = 0)) && !(reTakes w && reGives w)
/-- Two entries of one router meet in a cycle on an output or an input. -/
def reMeet (a b : Nat) : Bool :=
  (decide (reOut a &&& reOut b ≠ 0) || (reIns a).any (reIns b).contains) && (reSlots a).any (fun x => reSlot b x)
/-- The variant fits the stack controller of an edge port (R20, R175). -/
def State.edgeFitted (s : State) (t d : Nat) : Bool := s.tr.variant.any (fun v => bit v.scmask (edgeAt t d / 12))
/-- What leaves an entry at router t arrives in time and is consumed (R29, R169, R175); `es` are the entries of its schedule. -/
def hopsOk (es : List (Nat × Nat)) (t w : Nat) : Bool :=
  let m := b2n (decide (reOpm w ≠ 0))
  let last := reStart w + reCount w * reStride w
  (!reGives w || decide (last + 2 + m ≤ 0xFEF)) && (List.range 4).all (fun d =>
    !bit (reOut w) d || (match tileNext t d with
      | none => decide (last + 6 + m ≤ 0xFEF)
      | some n =>
        let lat := (if n / 64 = t / 64 then 2 else 6) + m
        decide (last + lat ≤ 0xFEF) && (reSlots w).all (fun c => es.any (fun e => decide (e.1 = n) && (reIns e.2).contains ((d + 2) % 4) && reSlot e.2 (c + lat)))))
/-- The entries of context c in the route memories. -/
def State.routesOf (s : State) (c : Nat) : List (Nat × Nat) :=
  s.routers.flatMap (fun p => (p.2.valid.filter (fun e => decide (rePtag e.2 = c))).map (fun e => (p.1, e.2)))
/-- Every entry of `new` keeps R175 with the entries the context has. -/
def State.routesFine (s : State) (c : Nat) (new : List (Nat × Nat)) : Bool :=
  let all := s.routesOf c ++ new
  new.zipIdx.all (fun q =>
    let t := q.1.1
    let w := q.1.2
    let same := all.filter (fun e => decide (reSched e.2 = reSched w))
    reForm c w && decide ((s.region (t / 64)).st ≠ .transitLost) &&
      (List.range 4).all (fun d => (tileNext t d).isSome || !(bit (reOut w) d || (reIns w).contains d) || s.edgeFitted t d) &&
      (all.zipIdx.all (fun e => decide (e.2 = (s.routesOf c).length + q.2) || decide (e.1.1 ≠ t) || decide (reSched e.1.2 ≠ reSched w) || !reMeet e.1.2 w)) &&
      hopsOk same t w)
/-- Another partition's entry claims a slot of a new one, or a router has too few free entries (R176). -/
def State.routesShort (s : State) (c : Nat) (new : List (Nat × Nat)) : Bool :=
  new.any (fun r => (s.router r.1).valid.any (fun e => decide (rePtag e.2 ≠ c) && reMeet e.2 r.2)) ||
    new.any (fun r => decide (1024 < (s.router r.1).valid.length + (new.filter (fun q => q.1 = r.1)).length))

/-! Schedules, streams, reduction descriptors and orders. -/

/-- A schedule sequence (R173). -/
def stepsFine (l : List Nat) : Bool :=
  decide (l.length ≤ 256) && l.zipIdx.all (fun q =>
    let last := decide (q.2 + 1 = l.length)
    (bit q.1 25 == last) && (last || decide (bits q.1 23 0 ≠ 0)))
/-- Two claims meet: one schedule, overlapping windows, a common cycle. -/
def Claim.clash (a b : Claim) : Bool :=
  decide (a.sched = b.sched) && decide (a.start < b.deadline) && decide (b.start < a.deadline) && (List.range 4096).any (fun cyc => a.hits cyc && b.hits cyc)
/-- A stream descriptor of a plan (R211, R227). -/
def State.planStream (s : State) (c : Nat) (r : Nat × Nat × Words8) : Bool :=
  let k := s.sc r.1
  let d := r.2.2
  let kindOk (e : Nat) : Bool := match s.ext e with
    | some x => decide (x.kind ≠ 2) && (decide (x.kind ≠ 1) || decide (k.pair.get 0 (extIdx e) ≠ 0))
    | none => false
  k.serving && decide ((k.slots.get {} r.2.1).ctx = c) && s.mayReach c (sdExt d) (sdWrite d) && (decide (sdMode d = 0) || s.mayReach c (sdIext d) false) &&
    sdForm d r.1 && s.sdHeld d && kindOk (sdExt d) && (decide (sdMode d = 0) || kindOk (sdIext d))
/-- The streams of a plan among themselves. -/
def streamsApart (l : List (Nat × Nat × Words8)) : Bool :=
  (l.map (fun r => (r.1, r.2.1))).Nodup &&
    l.zipIdx.all (fun a => l.zipIdx.all (fun b => decide (b.2 ≤ a.2) || decide (a.1.1 ≠ b.1.1) || !sdClash a.1.2.2 b.1.2.2))
/-- The fields of a reduction descriptor. -/
def RedRun.formOk (r : RedRun) : Bool :=
  let c := r.claim
  bit r.d0.toNat 63 && decide (bits r.d0.toNat 8 0 = 0) && decide (bits r.d2.toNat 15 0 = 0) && decide (bits r.d3.toNat 24 0 = 0) && decide (r.port ≤ 11) &&
    decide (c.first + (c.count - 1) * c.stride ≤ 0xFFF) &&
    (if r.isRows then decide (1 ≤ r.count) else decide (1 ≤ r.arr) && decide (1 ≤ r.nflits) && decide (r.flit0 + r.nflits ≤ 4096))
/-- Parcels a row descriptor can reach. -/
def RedRun.reach (r : RedRun) : List Nat := (List.range ((r.limit * r.rowb + 255) / 256)).map (r.parcel + ·)
/-- The index list of a row descriptor: an extent that is no bank-1 working copy, and a kind-1 one has its pair (R197, R227). -/
def State.redExtFine (s : State) (r : RedRun) : Bool :=
  !r.isRows || (s.ext r.iext).any (fun y => decide (y.kind ≠ 2) && (decide (y.kind ≠ 1) || decide ((s.sc (extSc r.iext)).pair.get 0 (extIdx r.iext) ≠ 0)))
/-- The reduction descriptors of a plan (*Reduction descriptors*). -/
def redsFine (x : Ctx) (c : Nat) (l : List (Nat × List Nat)) (streams : List (Nat × Nat × Words8)) : Bool :=
  let rs := l.map (fun q => (q.1, redOf c q.2))
  rs.zipIdx.all (fun a =>
    let r := a.1.2
    let mine := rs.filter (fun q => !q.2.isRows && decide (q.2.parcel = r.parcel))
    r.formOk &&
    (if r.isRows then r.reach.all (fun p => (x.pent p).any PEnt.sp)
     else (x.pent r.parcel).isSome && mine.all (fun q => decide (q.1 = a.1.1)) &&
      (List.range 4096).all (fun i => mine.any (fun q => decide (q.2.flit0 ≤ i) && decide (i < q.2.flit0 + q.2.nflits)))) &&
    rs.zipIdx.all (fun b => decide (b.2 ≤ a.2) || decide (b.1.1 ≠ a.1.1) || decide (b.1.2.port ≠ r.port) || !r.claim.clash b.1.2.claim) &&
    streams.all (fun t => decide (t.1 ≠ a.1.1) || sdWrite t.2.2 = false || !bit (sdPorts t.2.2) r.port || !r.claim.clash (sdClaim t.2.2)))
/-- When the dense contribution of a parcel completes in a plan. -/
def denseEnd (c : Nat) (p : PlanSet) (parcel : Nat) : Nat :=
  ((p.reds.map (fun q => redOf c q.2)).filter (fun r => !r.isRows && decide (r.parcel = parcel))).foldl (fun a r =>
    max a (match r.claim.nth p.steps 0 (r.total - 1) with
      | some t => t.1 * 4096 + t.2
      | none => 2 ^ 45)) 0
/-- A parcel has a dense contribution in the plan. -/
def denseIn (c : Nat) (p : PlanSet) (parcel : Nat) : Bool := p.reds.any (fun q => let r := redOf c q.2; !r.isRows && decide (r.parcel = parcel))
/-- The freeze set a plan was compiled for: the one in force, or one that waits for the next step start (R232). -/
def Ctx.frozenIn (x : Ctx) (digest : Nat) : Nat → Bool :=
  match x.deferred.findSome? (fun d => match d.1 with | .freeze b => if sha64 b = digest then some b else none | _ => none) with
  | some b => fun p => bit (b.getD (p / 8) 0#8).toNat (p % 8)
  | none => fun p => (x.pent p).any PEnt.fz
/-- Owner buffers of a stack controller, less LOWMARK and one (R242, R249). -/
def Sc.spRoom (k : Sc) : Nat := (768 - bits k.rd.toNat 19 10) / 2 - bits k.rd.toNat 9 4 - 1
/-- The reduction order of owner stack controller sc (R249): SP parcels without a dense contribution first, then by completion. -/
def orderFine (x : Ctx) (c me sc : Nat) (p : PlanSet) (l : List Nat) (k : Sc) : Bool :=
  let own := (x.ownedBy me).filter (fun q => decide (extSc q.2.wext = sc) && !x.frozenIn p.freeze q.1 && (q.2.sp || denseIn c p q.1))
  let times := l.map (fun q => if denseIn c p q then denseEnd c p q + 1 else 0)
  decide (l.length = own.length) && l.Nodup && own.all (fun q => l.contains q.1) && (times.zip (times.drop 1)).all (fun t => decide (t.1 ≤ t.2)) &&
    decide ((own.filter (fun q => q.2.sp)).length ≤ k.spRoom)
/-- A parcel into a list ordered by key, behind the equal ones. -/
def putByKey (l : List (Nat × Nat)) (k p : Nat) : List (Nat × Nat) := l.takeWhile (fun q => decide (q.1 ≤ k)) ++ (k, p) :: l.dropWhile (fun q => decide (q.1 ≤ k))
/-- The reduction order that a plan gives another owner's controller: the order in which the plan completes the dense contributions, parcels with
SP = 1 and none first, ties by parcel number. Its controller has the number of the parcel's own one here (entry 60). -/
def PlanSet.orderOf (p : PlanSet) (x : Ctx) (c owner sc : Nat) : List Nat :=
  let mine := x.pmap.zipIdx.filter (fun q => decide (q.1.owner = owner) && decide (extSc q.1.wext = sc) && !x.frozenIn p.freeze q.2 && (q.1.sp || denseIn c p q.2))
  (mine.foldl (fun l q => putByKey l (if denseIn c p q.2 then denseEnd c p q.2 + 1 else 0) q.2) []).map Prod.snd
/-- The reduction orders of every other owner of the sets this module belongs to (R249). -/
def PlanSet.otherOrders (p : PlanSet) (x : Ctx) (c me : Nat) : List (Nat × Nat × List Nat) :=
  if p.kind ≠ 1 then []
  else (dedup ((x.pmap.filter (fun e => decide (e.owner ≠ me) && (x.members e).contains me)).map (fun e => 32 * e.owner + extSc e.wext))).map
    (fun k => (k / 32, k % 32, p.orderOf x c (k / 32) (k % 32)))
/-- Every order of a step set. -/
def State.ordersFine (s : State) (c : Nat) (p : PlanSet) : Bool :=
  (p.order.map Prod.fst).Nodup && (p.kind ≠ 1 || (List.range 24).all (fun n =>
    orderFine (s.ctx c) c s.myPos n p (((p.order.find? (fun q => q.1 = n)).map Prod.snd).getD []) (s.sc n)))

/-! A plan set as a whole. -/

/-- A substitute plan (R17, R350): for a region of the context, into a standby region, or without it. -/
def State.subFine (s : State) (c : Nat) (u : SubPlan) : Bool :=
  let tiles := tilesOf ((s.working c).filter (fun r => decide (r ≠ u.region)) ++ (if u.target = 0x7F then [] else [u.target]))
  decide ((s.region u.region).ctx = c) && (decide (u.target = 0x7F) || decide ((s.region u.target).st = .standby)) &&
    s.pagesFine ⟨u.pages, u.routes, u.steps⟩ tiles && stepsFine u.steps
/-- Nothing of the set breaks a rule of the loader. -/
def State.setFine (s : State) (c : Nat) (p : PlanSet) : Bool :=
  s.pagesFine ⟨p.pages, p.routes, p.steps⟩ (tilesOf (s.working c)) && stepsFine p.steps && s.routesFine c p.allRoutes && p.streams.all (s.planStream c) &&
    streamsApart p.streams && redsFine (s.ctx c) c p.reds p.streams && p.reds.all (fun q => s.redExtFine (redOf c q.2)) && (decide (p.kind ≠ 2) || decide (p.reds = [])) && s.ordersFine c p && p.subs.all (s.subFine c)

/-! Route memories. -/

/-- Enter a route entry at the lowest free place (entry 24). -/
def Router.add (r : Router) (w : Nat) : Router :=
  { r with routes := (((List.range 1024).find? (fun i => !bit (r.routes.get 0 i) 63)).map (fun i => r.routes.set 0 i w)).getD r.routes }
/-- Enter all entries of a set. -/
def State.addRoutes (s : State) (l : List (Nat × Nat)) : State := l.foldl (fun s r => s.onRouter r.1 (fun x => x.add r.2)) s
/-- Take the entries of a set out again. -/
def State.dropRoutes (s : State) (l : List (Nat × Nat)) : State :=
  l.foldl (fun s r => s.onRouter r.1 (fun x => { x with routes := x.routes.filter (fun e => e.2 ≠ r.2) })) s
/-- Free one plan set of a context. -/
def State.freeSet (s : State) (c handle : Nat) : State :=
  match (s.ctx c).sets.get none handle with
  | none => s
  | some p => (s.dropRoutes p.allRoutes).onCtx c (fun x => { x with sets := x.sets.set none handle none })
end Sys2Proof.Machine
end

