-- ==== Sys2Proof/Machine/PlanCmd.lean ====
section
/-! DEFINITION. Plan, library and map commands (spec 05: R132, R142, R143; 06: R156; 14: R349 to R351). -/

namespace Sys2Proof.Machine

/-! Starting a plan. -/

/-- The kind-2 partner of a working-copy extent, for a run whose bank is 1 (R227). -/
def State.substitute (s : State) (e : Nat) : Nat :=
  if (s.ext e).any (fun x => x.kind = 1) then extSc e * 2048 + ((s.sc (extSc e)).pair.get 0 (extIdx e) - 1) else e
/-- A plan's stream descriptor as it is armed for a bank. -/
def State.forBank (s : State) (bank : Nat) (d : Words8) : Words8 :=
  if bank = 0 then d
  else
    let put (v hi lo i : Nat) (d : Words8) : Words8 := d.setW i (d.w i - fld (bits (d.w i) hi lo) (hi + 1 - lo) lo + fld v (hi + 1 - lo) lo)
    let d := put (s.substitute (sdExt d)) 59 44 0 d
    if sdMode d = 1 then put (s.substitute (sdIext d)) 63 48 5 d else d
/-- The Keeper delivers the pages of a plan: page 0 to bank 0, page 1, if the image has it, to the pending bank (R143). -/
def Tile.deliver (t : Tile) (n : Nat) (w : List Nat) : Tile :=
  { t with bank := w.zipIdx.foldl (fun (m : Tab Nat) p => m.set 0 (4096 * n + p.2) p.1) t.bank
           planOk := t.planOk || decide (n = 0), pend := if n = 1 then true else t.pend }
/-- Deliver the pages of a plan to its tiles. -/
def State.deliverPages (s : State) (pages : List (Nat × Nat × List Nat)) : State :=
  let s := pages.foldl (fun s p => s.onTile p.1 (fun t => { t with pend := false })) s
  pages.foldl (fun s p => if p.2.1 < 2 then s.onTile p.1 (fun t => t.deliver p.2.1 p.2.2) else s) s
/-- A plan's reduction descriptor for a bank: its index list in the partner extent where the bank is 1 (R227). -/
def State.redFor (s : State) (c bank : Nat) (w : List Nat) : RedRun :=
  let r := redOf c w
  if bank = 0 ∨ r.isRows = false then r
  else { r with d1 := BitVec.ofNat 64 (r.d1.toNat % 2 ^ 48 + 2 ^ 48 * s.substitute r.iext) }
/-- Arm the streams of a plan; one that is refused now stays unarmed. -/
def State.armPlan (s : State) (c handle bank : Nat) (l : List (Nat × Nat × Words8)) : State :=
  l.foldl (fun s r =>
    let d := s.forBank bank r.2.2
    if s.armRefusal c r.1 r.2.1 d = none then s.arm c r.1 r.2.1 d handle else s) s
/-- Holds that last until the host starts a plan end (R378). -/
def Part.restarted (p : Part) : Part := { p with holds := p.holds.filter (fun h => h.why ≠ .restart) }
/-- The start order of a plan at wafer beat b (R142, R173): pages delivered, tiles ordered to start, the schedule sequence, streams,
reduction descriptors and orders in force. -/
def State.issueStart (s : State) (c handle bank b : Nat) (p : PlanSet) : State :=
  let s := s.deliverPages p.pages
  let s := ((p.pages.filter (fun q => q.2.1 = 0)).map Prod.fst).foldl (fun s t =>
    s.send (uidRc (t / 64)) (uidTile t 0) (.planStart t ((s.tile t).bank.get 0 0 >>> 96) b 0)) s
  let s := (s.working c).foldl (fun s r => s.onRegion r (fun g => { g with planEnds := [] })) s
  let s := s.armPlan c handle bank p.streams
  let s := p.reds.foldl (fun s q => s.onSc q.1 (fun k => { k with reds := k.reds ++ [s.redFor c bank q.2] })) (s.dropReds c)
  (s.onCtx c (fun x => { x with order := p.order, others := p.otherOrders x c s.myPos })).onPart c (fun q => { q.restarted with seq := p.steps, startAt := some b, begun := false, planBeat := 0, limit := p.holdLimit })
/-- A tile of the partition has a plan that has not reached END, or is ordered to start one (R132, R156). -/
def State.planRuns (s : State) (c : Nat) : Bool := (s.ctx c).run.any (fun r => r.started && !r.planDone) || (tilesOf (s.working c)).any (fun t => (s.tile t).running)

/-! The commands. -/

/-- Every tile of a context's partition. -/
def State.onPartition (s : State) (c : Nat) (f : Tile → Tile) : State := s.onTiles (s.working c) f
/-- Holds for want of a usable plan end when the host loads one (R17). -/
def Part.planned (p : Part) : Part := { p with holds := p.holds.filter (fun h => h.why ≠ .noPlan) }
/-- SP_MAP_LOAD (R156): map, zero-fill, plans of the banks invalid, handles free; the final OK follows the zero-fill (R349). -/
def doSpMapLoad (h : Hdr) (m : SpMap) (s : State) : State :=
  packet 0x0401 [3] false h s (fun s =>
    check6 h s m.loadable
      (if s.planRuns h.ctx then refuse stBusy s
       else .accept stAccepted .fill (s.now + 8192) 0 (fun _ s =>
        let s := s.onPartition h.ctx (fun t => { t.zeroFill s.now with map := m, planOk := false, pend := false })
        (s.freeAllSets h.ctx).onCtx h.ctx (fun x => { x with map := some m })) s))
/-- What a library image does once it is read (R132, R349). -/
def loadLibrary (c : Nat) (b : List Byte) (s : State) : State × Nat × Nat :=
  let t := loadLib b {}
  if libFormOk b = false ∨ libraryOk t.routines (t.lib.get 0) = false then (s, stBadParam, 0)
  else
    let s := s.onPartition c (fun t => { loadLib b t with planOk := false, pend := false })
    ((s.freeAllSets c).onCtx c (fun x => { x with lib := b }), stOk, 0)
/-- LIB_LOAD. -/
def doLibLoad (h : Hdr) (x : DRef) (s : State) : State :=
  packet 0x0402 [1] false h s (fun s =>
    withRef h x s true
      (if s.planRuns h.ctx then refuse stBusy s
       else acceptNow s .bind (fun s => s.readThen x h.ctx h.tag (loadLibrary h.ctx))))
/-- The next handle: handles are counted on, so that a freed one names nothing (entry 24). -/
def Ctx.newHandle (x : Ctx) : Nat := x.nextSet
/-- What a plan set that has been read does (R349, R350): BAD_PARAM before NO_RESOURCE; else it has the next handle. -/
def State.takeSet (s : State) (c : Nat) (p : PlanSet) : State × Nat × Nat :=
  let x := s.ctx c
  if p.pages = [] ∨ s.setFine c p = false then (s, stBadParam, 0)
  else if 64 ≤ x.sets.length ∨ s.routesShort c p.allRoutes then (s, stNoResource, 0)
  else
    let n := x.newHandle
    let s := s.addRoutes p.allRoutes
    let s := s.onCtx c (fun x => { x with sets := x.sets.set none n (some p), nextSet := (n + 1) % 4294967296, part := x.part.planned })
    (s, stOk, n)
/-- What a plan set image does once its bytes are read. A step plan may not put a backward product before the last forward one (R225); the spec does
not give the place of the marks that tell (entry 64). -/
def loadSet (c : Nat) (b : List Byte) (s : State) : State × Nat × Nat :=
  match readSet ((s.lead c).getD 0) b with
  | none => (s, stBadParam, 0)
  | some p => if p.kind = 1 ∧ Config.backwardFirst b then (s, stBadParam, 0) else s.takeSet c p
/-- PLAN_LOAD. -/
def doPlanLoad (h : Hdr) (x : DRef) (s : State) : State :=
  packet 0x0403 [1] false h s (fun s =>
    withRef h x s true
      (if s.planRuns h.ctx then refuse stBusy s
       else acceptNow s .bind (fun s => s.readThen x h.ctx h.tag (loadSet h.ctx))))
/-- The plan set a handle names. -/
def Ctx.setOf (x : Ctx) (handle : Nat) : Option PlanSet := x.sets.get none handle
/-- A run or a queued one names a handle. -/
def Ctx.usesSet (x : Ctx) (handle : Nat) : Bool := x.run.any (fun r => r.handle = handle) || x.queued.any (fun r => r.handle = handle)
/-- PLAN_FREE. -/
def doPlanFree (h : Hdr) (handle : Nat) (s : State) : State :=
  packet 0x0404 [1] false h s (fun s =>
    let x := s.ctx h.ctx
    check6 h s (x.setOf handle).isSome
      (if x.usesSet handle then refuse stBusy s else .done stOk 0 (s.freeSet h.ctx handle)))
/-- A usable set of a kind that gives no page to a tile without a site (R13, R435). -/
def State.setFor (s : State) (c handle kind : Nat) : Option PlanSet :=
  ((s.ctx c).setOf handle).filter (fun p => p.kind = kind && p.ok && p.pages.all (fun g => (s.siteAt g.1).isSome))
/-- The wafer beat a start order names: the first boundary it reaches, and not one that is decided already (R25, R142). -/
def State.startBeat (s : State) (c cyc : Nat) : Nat := s.clk.beat + max (reach cyc) (if (s.ctx c).part.next = none then 1 else 2)
/-- PLAN_RUN (R142, R146). -/
def doPlanRun (h : Hdr) (handle : Nat) (s : State) : State :=
  packet 0x0405 [1] false h s (fun s =>
    let c := h.ctx
    let x := s.ctx c
    match s.setFor c handle 0 with
    | none => refuse stBadParam s
    | some p =>
      check6 h s true
        (if x.run.isSome ∨ s.planRuns c then refuse stBusy s
         else .accept stAccepted .planRun handle 0 (fun id s =>
          let s := s.onCtx c (fun x => { x with run := some { kind := .plain, handle := handle, long := id, cmdTag := h.tag, started := true } })
          s.issueStart c handle 0 (s.startBeat c h.cyc) p) s))
/-- PLAN_ABORT (R222, R349): its own final reply follows when the plan has ended; a run that has not begun ends at once. -/
def doPlanAbort (h : Hdr) (s : State) : State :=
  packet 0x0406 [1] false h s (fun s =>
    let c := h.ctx
    check6 h s true
      (match (s.ctx c).run with
       | none => acceptNow s .planAbort (fun s => (s, stOk, 0))
       | some r =>
        if r.started then
          .accept stAccepted .planAbort c 0 (fun _ s =>
            let s := s.abortStreams 6 (fun q => q.ctx = c)
            ((s.dropReds c).endRun c stAborted noCause).askHold c uidKeeper .plan) s
        else acceptNow s .planAbort (fun s => (s.closeRun c stAborted noCause, stOk, 0))))

/-! The meanings: one per command, each a frame around its effect. -/

/-- SP_MAP_LOAD (R156). -/
def execSpMapLoad (h : Hdr) (m : SpMap) (s : State) : Out :=
  guarded "SP_MAP_LOAD" (.spMapLoad h m) s (doSpMapLoad h m)
/-- LIB_LOAD (R132). -/
def execLibLoad (h : Hdr) (x : DRef) (s : State) : Out :=
  guarded "LIB_LOAD" (.libLoad h x) s (doLibLoad h x)
/-- PLAN_LOAD (R349). -/
def execPlanLoad (h : Hdr) (x : DRef) (s : State) : Out :=
  guarded "PLAN_LOAD" (.planLoad h x) s (doPlanLoad h x)
/-- PLAN_FREE (R351). -/
def execPlanFree (h : Hdr) (handle : Nat) (s : State) : Out :=
  guarded "PLAN_FREE" (.planFree h handle) s (doPlanFree h handle)
/-- PLAN_RUN (R349). -/
def execPlanRun (h : Hdr) (handle : Nat) (s : State) : Out :=
  guarded "PLAN_RUN" (.planRun h handle) s (doPlanRun h handle)
/-- PLAN_ABORT (R349). -/
def execPlanAbort (h : Hdr) (s : State) : Out :=
  guarded "PLAN_ABORT" (.planAbort h) s (doPlanAbort h)

end Sys2Proof.Machine
end

