-- ==== Sys2Proof/Machine/TestCmd.lean ====
section
/-! DEFINITION. The self-test: pattern packs, the queue of tests, its boundaries, results (spec 14: R357; spec 18: R429 to R438). -/

namespace Sys2Proof.Machine

/-! Pattern packs (R437, R438). -/

/-- The end of the last section of a pack, its directory included. -/
def packEnd (b : List Byte) : Nat :=
  let n := min 64 (ofLE ((b.drop 24).take 4))
  (List.range n).foldl (fun a i => max a (ofLE ((b.drop (64 + 64 * i + 8)).take 8) + ofLE ((b.drop (64 + 64 * i + 16)).take 8))) (64 + 64 * n)
/-- Every section's digest holds. -/
def packSections (b : List Byte) : Bool :=
  (List.range (ofLE ((b.drop 24).take 4))).all (fun i =>
    let e := b.drop (64 + 64 * i)
    decide ((sha384 ((b.drop (ofLE ((e.drop 8).take 8))).take (ofLE ((e.drop 16).take 8)))).take 40 = (e.drop 24).take 40))
/-- A signed number of 16 bits. -/
def sint16 (n : Nat) : Int := if n < 32768 then n else (n : Int) - 65536
/-- The pack's header, as the slot keeps it. -/
def packOf (b : List Byte) : Pack :=
  let f (o n : Nat) : Nat := ofLE ((b.drop o).take n)
  ⟨f 4 2, f 6 2, f 8 1, f 12 4, sint16 (f 16 2), sint16 (f 18 2), f 20 4⟩
/-- What the checks of R437 answer once the signature holds. -/
def State.packOk (s : State) (slot : Nat) (b : List Byte) : Bool :=
  let p := packOf b
  let n := ofLE ((b.drop 24).take 4)
  decide (ofLE (b.take 4) = 0x4C575450) && decide (1 ≤ n) && decide (n ≤ 64) && bit (ofLE ((b.drop 9).take 1)) s.ha.variant &&
    decide (p.minfw ≤ s.ha.fwver) && packSections b && !(s.tr.packs.get none slot).any (fun q => decide (q.id = p.id ∧ p.ver < q.ver))
/-- A queued or running test names a slot. -/
def State.slotInTest (s : State) (slot : Nat) : Bool := s.tr.tests.any (fun t => decide (t.slot = slot) && t.result.isNone)
/-- A pattern pack that has been read (R437): SIGNATURE, BAD_PARAM, or kept in its slot and recorded. -/
def State.takePack (s : State) (slot : Nat) (b : List Byte) : State × Nat × Nat :=
  let n := packEnd b
  if b.length < n + 96 ∨ verify s.tr.patternKey (b.take n) ((b.drop n).take 96) = false then (s, stSignature, 0)
  else if s.packOk slot b = false then (s, stBadParam, 0)
  else
    let p := packOf b
    (({ s with tr := { s.tr with packs := s.tr.packs.set none slot (some p) } }).logRec 0x31 0 0xFFFF 6 (leBytes 2 slot ++ leBytes 2 p.id ++ leBytes 2 p.ver), stOk, p.ver)
/-- PATTERN_LOAD. -/
def doPatternLoad (h : Hdr) (slot : Nat) (x : DRef) (s : State) : State :=
  packet 0x0901 [1] true h s (fun s =>
    withRef h x s (decide (slot < 16))
      (if s.slotInTest slot then refuse stBusy s
       else acceptNow s .bind (fun s => s.readThen x h.ctx h.tag (fun b s => s.takePack slot b))))

/-! TEST_RUN (R429 to R431). -/

/-- The units a named unit stands for: a region's are its four clusters. -/
def testUnits (u : Nat) : List Nat := if uClass u = 4 then (List.range 4).map (uidCluster (uRegion u)) else [u]
/-- The unit's class can be tested. -/
def testClass (u : Nat) : Bool := [3, 4, 0x10, 0x12].contains (uClass u)
/-- The pack's CLASSES bit for a unit. -/
def packBit (u : Nat) : Nat := if uClass u = 0x10 then 1 else if uClass u = 0x12 then 2 else 0
/-- What the context of a packet may test (R357, R430). -/
def State.mayTest (s : State) (h : Hdr) (u : Nat) : Bool :=
  if uClass u = 3 ∨ uClass u = 4 then decide ((s.region (uRegion u)).ctx = h.ctx)
  else if uClass u = 0x12 then h.sys
  else decide (h.ctx = 0) || (s.sc (uSub u)).slots.any (fun q => decide (q.2.ctx = h.ctx)) || s.extents.any (fun p => decide (extSc p.1 = uSub u ∧ p.2.ctx = h.ctx))
/-- A unit has work, or is under test already (R430). -/
def State.testBusy (s : State) (u corner : Nat) : Bool :=
  (testUnits u).any (fun v => s.tr.tests.any (fun t => decide (t.unit = v) && t.result.isNone)) ||
    (if uClass u = 3 ∨ uClass u = 4 then
      (isUser (s.serves (uRegion u)) && s.planRuns (s.serves (uRegion u))) || (decide (corner ≠ 0) && (tilesOf [uRegion u]).any (fun t => (s.tile t).running))
     else if uClass u = 0x10 then
      let k := s.sc (uSub u)
      !k.egress.isEmpty || !k.owners.isEmpty || k.slots.any (fun p => p.2.live)
     else false)
/-- The setpoint of a corner (R434). -/
def cornerVolt (v corner : Nat) : Nat :=
  if corner % 4 = 1 then 95 * v / 100 / 5 * 5 else if corner % 4 = 2 then min 930 ((103 * v + 499) / 500 * 5) else v
/-- Change a test. -/
def State.onTest (s : State) (t : TestUnit) (f : TestUnit → TestUnit) : State :=
  { s with tr := { s.tr with tests := s.tr.tests.map (fun u => if u.long = t.long ∧ u.unit = t.unit then f u else u) } }
/-- Why a unit is not run: 4 its class is not targeted, 2 the inlet lies outside the pack's window, or its slot has gone. -/
def State.notRun (s : State) (t : TestUnit) : Option Nat :=
  match s.tr.packs.get none t.slot with
  | none => some 2
  | some p => if bit p.classes (packBit t.unit) = false then some 4 else if s.gov.inlet < p.inletLo ∨ p.inletHi < s.gov.inlet then some 2 else none
/-- The test of a unit starts: a cluster under a lease of kind 4, fenced and powered, with its corner's setpoint; a stack controller and a link out of their work (R431). -/
def State.startTest (s : State) (t : TestUnit) : State :=
  let run (s : State) (volt : Nat) (powered : Bool) : State :=
    s.onTest t (fun u => { u with running := true, powered := powered, inlet := s.gov.inlet, volt := volt, since := s.clk.wall })
  let u := t.unit
  if uClass u = 3 then
    let r := uRegion u
    let k := uCluster u
    let lt := s.leaseTake (s.newLease u 4 k (uidRc r) (((s.long.find? (fun l => l.id = t.long)).map Long.ctx).getD 0))
    if lt.2 ≠ 0 then s
    else
      let off := decide ((s.region r).cd ≠ .on)
      let v := cornerVolt (Config.voltTable s.clk.m r) t.corner
      let s := { lt.1 with tiles := (List.range 16).foldl (fun ts i => ts.upd {} (64 * r + 16 * k + i) (fun x => { x with fenced := true })) s.tiles }
      run (s.onRegion r (fun g => { g.turnOn with vset := v })) v off
  else if uClass u = 0x10 then run (s.onSc (uSub u) (fun k => { k with underTest := true })) 0 false
  else run (s.beginRetrain (uSub u)) 0 false
/-- Start a unit, or report why it is not run. -/
def State.tryTest (s : State) (t : TestUnit) : State :=
  match s.notRun t with
  | some r => s.testResult t r 0 0 0 0
  | none => s.startTest t
/-- The words of the results of a command. -/
def resultsOf (ts : List TestUnit) : List Byte := ts.flatMap (fun t => t.result.getD [])
/-- Write results where the command's reference still reaches (R344). -/
def State.writeResults (s : State) (l : Long) (x : DRef) (out : List Byte) : State × Option Nat :=
  match s.ext x.dext with
  | some e =>
    if e.ctx = l.src.dataCtx ∧ s.rangeHere x.dext e x.doff out.length then (s.writeExt x.dext e x.doff ((padLine out).take (e.pages * pageBytes - x.doff)), none)
    else let r := s.dataFault x l.ctx l.tag (.absent (x.doff / pageBytes)); (r.1, some r.2)
  | none => let r := s.dataFault x l.ctx l.tag (.absent (x.doff / pageBytes)); (r.1, some r.2)
/-- Final replies of the TEST_RUN commands whose units all have results; tests of commands that have ended otherwise are forgotten. -/
def State.closeTests (s : State) : State :=
  let s := { s with tr := { s.tr with tests := s.tr.tests.filter (fun t => t.running || s.long.any (fun l => decide (l.id = t.long))) } }
  (s.long.filter (fun l => decide (l.job = .testRun))).foldl (fun (s : State) (l : Long) =>
    let ts := s.tr.tests.filter (fun t => t.long = l.id)
    if ts.any (fun t => t.result.isNone) then s
    else
      let ok := ts.foldl (fun a t => a + t.passed) 0
      let bad := ts.foldl (fun a t => a + t.failed) 0
      let w := s.writeResults l ((ts.head?.map TestUnit.ref).getD ⟨0, 0, 0⟩) (resultsOf ts)
      let s := { w.1 with tr := { w.1.tr with tests := w.1.tr.tests.filter (fun t => t.long ≠ l.id) } }
      match w.2 with
      | some idx => s.finish l.id stFaulted idx
      | none => if ts.any TestUnit.aborted then s.finish l.id stAborted (noCause + (ok + bad) * 2 ^ 32) else s.finish l.id stOk (ok + bad * 2 ^ 32)) s
/-- TEST_RUN: cluster tests are queued, a stack controller's or a link's starts. -/
def doTestRun (h : Hdr) (unit slot corner : Nat) (x : DRef) (s : State) : State :=
  packet 0x0902 [1] false h s (fun s =>
    if uidOk unit ∧ testClass unit ∧ s.mayTest h unit = false then refuse stDenied s
    else
      let us := testUnits unit
      let ok := uidOk unit && testClass unit && decide (slot < 16) && decide (corner < 8) && decide (corner % 4 ≠ 3) &&
        (decide (uClass unit = 0x10) || (if uClass unit = 0x12 then decide ((s.link (uSub unit)).st ≠ 0) else decide ((s.region (uRegion unit)).st ≠ .closed)))
      withRef h x s ok
        (if (s.tr.packs.get none slot).isNone ∨ (uClass unit = 0x10 ∧ (s.sc (uSub unit)).serving = false) then refuse stNoResource s
         else if x.dlen < 32 * us.length then .done stNoResource (32 * us.length) s
         else if s.testBusy unit corner then refuse stBusy s
         else .accept stAccepted .testRun unit 0 (fun id s =>
          let ts : List TestUnit := us.map (fun u => { long := id, unit := u, slot := slot, corner := corner, ref := x })
          let s := { s with tr := { s.tr with tests := s.tr.tests ++ ts } }
          if uClass unit = 0x10 ∨ uClass unit = 0x12 then (ts.foldl State.tryTest s).closeTests else s) s))

/-! The queue (R433). -/

/-- One entry of the scan: the machine, tests started, and whether the scan goes on. -/
def State.scanTest (a : State × Nat × Bool) (t : TestUnit) : State × Nat × Bool :=
  let s := a.1
  if a.2.2 = false ∨ s.regionTested (uRegion t.unit) then a
  else match s.notRun t with
    | some r => (s.testResult t r 0 0 0 0, a.2)
    | none =>
      if 8 ≤ (allRegions.filter s.regionTested).length ∨ s.gov.allow < s.gov.pin + 110 * (a.2.1 + 1) then (s, a.2.1, false)
      else (s.startTest t, a.2.1 + 1, true)
/-- The scan at a boundary. -/
def State.scanTests (s : State) : State :=
  ((s.tr.tests.filter (fun t => decide (uClass t.unit = 3) && !t.running && t.result.isNone)).foldl State.scanTest (s, 0, true)).1

/-! Ends (R432, R435, R436). -/

/-- A running test of a unit. -/
def State.testOn (s : State) (u : Nat) : Option TestUnit := s.tr.tests.find? (fun t => t.running && decide (t.unit = u))
/-- The unit returns to service: a cluster re-initialised with its lease given up, a stack controller to its work, a link to its retraining. -/
def State.testRelease (s : State) (t : TestUnit) : State :=
  let u := t.unit
  if uClass u = 3 then
    let r := uRegion u
    let k := uCluster u
    let c := (((s.region r).leases.find? (fun l => l.kind = 4 && l.idx = k)).map Lease.ctx).getD 0
    (s.leaseDrop ⟨u, 4, k, uidRc r, c, 0⟩).reinitCluster r k c t.powered
  else if uClass u = 0x10 then s.onSc (uSub u) (fun k => { k with underTest := false })
  else s
/-- What a cluster's failed sites lead to. -/
def State.failSites (s : State) (u cls : Nat) (sites : List Nat) : State :=
  sites.foldl (fun s n =>
    if (s.region (uRegion u)).bad.contains (20 * uCluster u + n) then s else s.shadowSite (uRegion u) (uCluster u) n 3 cls) s
/-- What a stack controller's failures lead to. -/
def State.failSc (s : State) (u : Nat) (f : TestFinds) : State :=
  let n := uSub u
  let s := f.failed.foldl (fun s p => (s.addDefect (uidSc n) 3 3 f.cls p).onSc n (fun k => { k with retired := if k.retired.contains p then k.retired else k.retired ++ [p] })) s
  if f.ctrlBad then (s.addDefect (uidSc n) 4 3 f.cls 0).onSc n (fun k => { k with serving := false }) else s
/-- A mask of numbers below 32. -/
def mask32 (l : List Nat) : Nat := (l.filter (· < 32)).foldl (fun a i => a ||| 2 ^ i) 0
/-- TEST_UNIT_DONE. -/
def doTestUnitDone (unit : Nat) (f : TestFinds) (s : State) : State :=
  match s.testOn unit with
  | none => s
  | some t =>
    if uClass unit = 3 then
      if (s.region (uRegion unit)).cd ≠ .on then s
      else
        let bad := dedup (f.failed.filter (· < 20))
        let s := (s.testRelease t).failSites unit f.cls bad
        (s.testResult t (b2n (bad ≠ [])) (if bad = [] then 0 else f.cls) (mask32 bad) (20 - bad.length) bad.length).closeTests
    else
      let t : TestUnit := { t with volt := f.volt }
      let bad := decide (f.failed ≠ []) || (f.ctrlBad && decide (uClass unit = 0x10))
      let s := s.testRelease t
      let s := if uClass unit = 0x10 then s.failSc unit f else s
      let n := if uClass unit = 0x10 then f.failed.length % 2 ^ 32 else mask32 f.failed
      (s.testResult t (b2n bad) (if bad then f.cls else 0) n (b2n (!bad)) (b2n bad)).closeTests
/-- TEST_TIME_LIMIT: a unit that exceeds its pack's TMAX_MS ends with RESULT 1. -/
def doTestTimeLimit (unit : Nat) (s : State) : State :=
  match s.testOn unit with
  | none => s
  | some t =>
    if s.clk.wall ≤ t.since + thirds (((s.tr.packs.get none t.slot).map Pack.tmax).getD 0) then s
    else ((s.testRelease t).testResult t 1 0 0 0 (if uClass unit = 3 then 20 else 1)).closeTests
/-- A TEST_ABORT names a test: the unit itself, or a cluster of the region it names, of its own context. -/
def State.abortsTest (s : State) (c u : Nat) (t : TestUnit) : Bool :=
  (testUnits u).contains t.unit && t.result.isNone && s.long.any (fun l => decide (l.id = t.long) && decide (l.ctx = c))
/-- TEST_ABORT: it acts at the next boundary. -/
def doTestAbort (h : Hdr) (unit : Nat) (s : State) : State :=
  packet 0x0903 [1] false h s (fun s =>
    check6 h s (uidOk unit && s.tr.tests.any (s.abortsTest h.ctx unit)) (.accept stAccepted .testAbort unit h.ctx (fun _ s => s) s))
/-- The aborts in force at a boundary. -/
def State.abortTests (s : State) : State :=
  (s.long.filter (fun l => decide (l.job = .testAbort))).foldl (fun (s : State) (l : Long) =>
    let ts := s.tr.tests.filter (s.abortsTest l.b l.a)
    let s := ts.foldl (fun s t => ((if t.running then s.testRelease t else s).testResult t 3 0 0 0 0).onTest t (fun u => { u with aborted := true })) s
    s.closeTests.finish l.id stOk 0) s

/-! The meanings: one per command, each a frame around its effect. -/

/-- PATTERN_LOAD (R437). -/
def execPatternLoad (h : Hdr) (slot : Nat) (x : DRef) (s : State) : Out :=
  guarded "PATTERN_LOAD" (.patternLoad h slot x) s (doPatternLoad h slot x)
/-- TEST_RUN (R429). -/
def execTestRun (h : Hdr) (unit slot corner : Nat) (x : DRef) (s : State) : Out :=
  guarded "TEST_RUN" (.testRun h unit slot corner x) s (doTestRun h unit slot corner x)
/-- TEST_ABORT (R436). -/
def execTestAbort (h : Hdr) (unit : Nat) (s : State) : Out :=
  guarded "TEST_ABORT" (.testAbort h unit) s (doTestAbort h unit)
/-- TEST_UNIT_DONE (R435). -/
def execTestUnitDone (unit : Nat) (t : TestFinds) (s : State) : Out :=
  guarded "TEST_UNIT_DONE" (.testUnitDone unit t) s (doTestUnitDone unit t)
/-- TEST_TIME_LIMIT (R437). -/
def execTestTimeLimit (unit : Nat) (s : State) : Out :=
  guarded "TEST_TIME_LIMIT" (.testTimeLimit unit) s (doTestTimeLimit unit)

end Sys2Proof.Machine
end

