-- ==== Sys2Proof/Machine/BootCmd.lean ====
section
/-! DEFINITION. Cold boot, module warm reset, watchdog, the wait for coolant (spec 15: R363 to R373, R377, R380 to R384; spec 18: R442, R483;
spec 20: R459, R466). -/

namespace Sys2Proof.Machine

/-! Firmware slots (R367, R447). -/

/-- The image slots in the order they are tried: the staged image first. -/
def Trust.slotOrder (t : Trust) : List Nat := if t.staged then [1 - t.bootSlot, t.bootSlot] else [t.bootSlot, 1 - t.bootSlot]
/-- The slot that boots. -/
def Trust.tryFw (t : Trust) : Option Nat := t.slotOrder.find? (fun k => t.fwOk (t.fw.get [] k))
/-- The accepted image runs, with its measurements. -/
def Trust.loadFw (t : Trust) (k : Nat) : Trust :=
  let img := fwImage (t.fw.get [] k)
  { t with bootSlot := k, staged := false, fwver := fwVer img, svn := fwSvn img, mfw := sha384 img, mboot := sha384 ((fwSection img 2).getD []) }

/-! The defect map applied (R371, R373). -/

/-- Sites of region r that the map or this boot names, as 20*cluster + site. -/
def State.badSitesOf (s : State) (b : BootFinds) (r : Nat) : List Nat :=
  dedup (((s.tr.defects.filter (fun d => decide (d.kind = 1) && decide (uClass d.unit = 2) && decide (uRegion d.unit = r))).map (fun d => 20 * uCluster d.unit + uSub d.unit)) ++
    (b.badSites.filter (fun n => decide (n / 80 = r))).map (· % 80))
/-- A region fails R373. -/
def State.regionFails (s : State) (b : BootFinds) (r : Nat) : Bool :=
  (List.range 4).any (shadowedIn (s.badSitesOf b r)) || b.badRcs.contains r || s.tr.defects.any (fun d => decide (d.kind = 2) && decide (d.unit = uidComp r))
/-- The state of each region (R16, R373): a failed active region is replaced by the lowest good standby region left. -/
def State.bootStates (s : State) (v : Variant) (b : BootFinds) : List RState :=
  let fails := allRegions.map (s.regionFails b)
  let bad (r : Nat) : Bool := fails.getD r false
  let lost := (allRegions.filter (fun r => !bit v.closed r && !bit v.standby r && bad r)).length
  let called := (allRegions.filter (fun r => bit v.standby r && !bit v.closed r && !bad r)).take lost
  allRegions.map (fun r => if bit v.closed r then .closed else if bad r then .shadowed else if bit v.standby r ∧ called.contains r = false then .standby else .active)
/-- What a region controller and its domains keep when they are released again (R377): context, marks and times that the Keeper holds. -/
def Region.fresh (g : Region) (st : RState) (bad : List Nat) (on : Bool) (vset m win : Nat) : Region :=
  { st := if st = .active ∧ on = false then .heatOff else st, bad := bad, ctx := g.ctx, cd := if st = .active ∧ on then .on else .off, rcFails := g.rcFails
    vset := vset, vready := m, sample := g.sample, trips := g.trips, teleWin := win, suspect := g.suspect }
/-- Steps 5 to 7: broadcast and self-test findings recorded, the map applied, the regions brought up. `on` says whether compute may run. -/
def State.bringUp (s : State) (v : Variant) (b : BootFinds) (on : Bool) : State :=
  let corrupt := decide (s.tr.valid.length < s.tr.refine.length)
  let s := (dedup (b.badSites.filter (· < 6400))).foldl (fun s n => s.addDefect (uidSite (n / 80) (n / 20 % 4) (n % 20)) 1 1 0 0) s
  let s := if corrupt then s.keeperFault fcDefectMapCorrupt uidKeeper 0 0 [] else s
  let sts := s.bootStates v b
  allRegions.foldl (fun (s1 : State) r => s1.onRegion r (fun g =>
    g.fresh (sts.getD r .active) (s.badSitesOf b r) on (Config.voltTable s.clk.m r) s.clk.m (s.clk.beat / 1024))) s
/-- The regions shadowed. -/
def State.shadowedMask (s : State) : Nat := maskN (allRegions.filter (fun r => decide ((s.region r).st = .shadowed)))
/-- FAIL bits 7 to 10; `corrupt` as found before new records. -/
def State.failBits (s : State) (b : BootFinds) (corrupt : Bool) : Nat :=
  128 * b2n (b.badSites ≠ []) + 256 * b2n (s.shadowedMask ≠ 0) + 512 * b2n corrupt + 1024 * b2n (decide (8192 ≤ s.tr.refine.length))
/-- Sites found failing. -/
def siteCount (b : BootFinds) : Nat := (dedup (b.badSites.filter (· < 6400))).length
/-- The master's number adopted at `cable`'s start, or the module's own count with the loss of the source recorded (R290, R38). -/
def State.adopt (s : State) (master : Option Nat) (own : Nat) : State :=
  let old := s.clk.beat
  match master with
  | some n => ({ s with clk := { s.clk with beat := n + 1, adopted := true, inLost := false } }).beatEvent 2 old (n + 1)
  | none => ({ s with clk := { s.clk with beat := own, adopted := false, inLost := true } }).beatEvent 1 old own
/-- BEAT_EPOCH on every link that is up, on a beat master (R39). -/
def State.epochs (s : State) : State := if s.clk.mode.cable ∧ s.clk.mode.master then (List.range 64).foldl State.greet s else s
/-- A fresh rate window starts with the Keeper firmware (R440). -/
def State.freshWindow (s : State) : State :=
  { s with log := { s.log with winStart := s.clk.wall, winStamp := s.now, winRecs := 0, dropped := 0, dropCls := 0, dropUnit := 0, dropStamp := 0 } }

/-! The cold boot (R366). -/

/-- All six inputs are live (R459). -/
def State.allLive (s : State) : Bool := s.inputs.all PwrIn.live
/-- Flow and inlet allow a boot (R466). -/
def State.coolantFit (s : State) : Bool := decide (180 ≤ s.gov.flow) && decide (s.gov.inlet ≤ (180 : Int))
/-- The wafer is unpowered: only the standby domain runs. -/
def State.goDark (s : State) : State :=
  { s with ha := { s.ha with ready := false, warm := false, cxl := false, trained := false }, tr := { s.tr with boot := .standby, wafer := false, coldAsked := false } }
/-- A context after a cold boot: its grant and generation alone (R323). -/
def Ctx.cold (c : Nat) (x : Ctx) : Ctx :=
  if c = 0 then Ctx.system
  else { w0 := x.w0, w1 := x.w1, w2 := x.w2, w3 := x.w3, gen := x.gen, st := if bit x.w0.toNat 63 then .closed else .ungranted }
/-- The machine with everything that a cold boot resets at its reset value (R377): kept are flash, officers and counters, the log, Keeper time,
the beat number until step 4, sensors, inputs, host memory, the sideband. -/
def State.coldState (s : State) : State :=
  { pending := s.pending
    clk := { beat := s.clk.beat, wall := s.clk.wall, mode := s.clk.modeNext.getD s.clk.mode }
    ctxs := (s.ctxs.mapV {} Ctx.cold).set {} 0 Ctx.system
    gov := { inlet := s.gov.inlet, outlet := s.gov.outlet, flow := s.gov.flow, derate := s.gov.derate }
    pwr := s.pwr
    log := { s.log with reps := [], evbuf := [] }
    tr := { s.tr with variant := none, findings := [], fullRaised := false, boot := .standby, warmTrigger := 0, warmTag := 0, coldAsked := false, wdCold := false
                      sessions := [], tests := [], traces := [], wafer := false }
    long := s.long.filter (fun l => s.tr.warmLongs.contains l.id)
    nextId := s.nextId
    hostMem := s.hostMem
    free := s.free }
/-- A last-gasp record copied into the ring (R442). -/
def State.copyRec (s : State) (r : Rec) : State :=
  let l := s.log
  let recs := Tab.put (if logRing ≤ l.next then Tab.del l.recs (l.next - logRing) else l.recs) l.next { r with flags := r.flags ||| 1 }
  { s with log := { l with recs := recs, next := (l.next + 1) % 4294967296 }, tr := { s.tr with recsUnread := true } }
/-- A number in its bytes for each of n times. -/
def timeBytes (n : Nat) (ts : List Nat) : List Byte := fitBytes (4 * n) (ts.flatMap (leBytes 4))
/-- What a cold-boot record states beside the coolant readings. -/
structure ColdRep where
  phase : Nat
  slot : Nat := 0xFF
  variant : Nat := 0xFF
  fwver : Nat := 0
  certseq : Nat := 0
  times : List Nat := []
  fail : Nat := 0
  scfail : Nat := 0
  lkfail : Nat := 0
  rgshad : Nat := 0
  nsites : Nat := 0
/-- A cold-boot record (R483). -/
def State.coldRec (s : State) (c : ColdRep) : State :=
  s.logRec 0x10 0 0xFFFF 80 (leBytes 1 c.phase ++ leBytes 1 c.slot ++ leBytes 1 c.variant ++ leBytes 1 0 ++ leBytes 4 c.fwver ++ leBytes 4 c.certseq ++
    timeBytes 9 c.times ++ leBytes 4 c.fail ++ leBytes 3 c.scfail ++ leBytes 1 0 ++ leBytes 8 c.lkfail ++ leBytes 10 c.rgshad ++ leBytes 2 c.nsites ++
    leBytes 2 (int16 s.gov.inlet) ++ leBytes 2 s.gov.flow)
/-- Step 1 up to the coolant: BOOT advanced, the last-gasp area copied and marked empty, the opening record written. -/
def State.bootOpen (s : State) : State :=
  let s := s.coldState
  let s := { s with log := { s.log with boot := (s.log.boot + 1) % 4294967296 } }
  let s := s.log.gasp.foldl State.copyRec s
  let s := { s with log := { s.log with gasp := [], gaspEmpty := true } }
  s.coldRec { phase := 0 }
/-- Step 3a: the stacks (R367); retired pages and stacks out of service as the map has them. -/
def State.bootStacks (s : State) (v : Variant) (b : BootFinds) : State :=
  let s := (List.range 24).foldl (fun (s : State) n => if bit v.scmask n ∧ bit b.stackOk n = false then s.addDefect (uidSc n) 4 1 0 0 else s) s
  let ds := s.tr.defects
  (List.range 24).foldl (fun (s : State) n => if bit v.scmask n = false then s else s.onSc n (fun k => { k with
    serving := bit b.stackOk n && !ds.any (fun d => decide (d.kind = 4) && decide (d.unit = uidSc n))
    pages := if v.stackcap = 1 then 32768 else 24576
    retired := dedup ((ds.filter (fun d => decide (d.kind = 3) && decide (d.unit = uidSc n))).map Defect.index) })) s
/-- Step 3c: the fabric links the variant enables (R278). -/
def State.bootLinks (s : State) (v : Variant) (b : BootFinds) : State :=
  (List.range 64).foldl (fun (s : State) n => match b.links[n]? with
    | some t => if bit v.linkmask n then s.onLink n (fun _ => { Link.trained s.clk.wall {} t with gen := 0, lastRx := s.clk.wall }) else s
    | none => s) s
/-- Links enabled that failed or are narrower than ×8 at full rate. -/
def State.linkFails (s : State) (v : Variant) : Nat :=
  maskN ((List.range 64).filter (fun n => let l := s.link n
    bit v.linkmask n && (decide (l.st = 2) || (decide (l.st = 3) && (decide (widthLanes l.width < 8) || l.half)))))
/-- Step 3b: the host link (R296). -/
def State.bootHost (s : State) (b : BootFinds) : State :=
  { s with ha := { s.ha with trained := b.hostTrained, cxl := b.hostTrained && b.hostCxl, rate := if b.hostTrained then b.hostRate else 0
                             width := if b.hostTrained then b.hostWidth else 0 } }
/-- Ready: what R366, R384 and R448 tie to READY reading 1. -/
def State.bootReady (s : State) (c : ColdRep) : State :=
  let s := { s with ha := { s.ha with ready := true }, tr := { s.tr with boot := .ready, minSvn := max s.tr.minSvn s.tr.svn } }
  let ids := s.tr.warmLongs
  (({ s with tr := { s.tr with warmLongs := [] } }).coldRec c).finishAll ids stOk 0
/-- Step 2: the firmware in slot k runs, a staged variant certificate is taken up, a fresh rate window begins. -/
def State.bootLoad (s : State) (k : Nat) : State :=
  let t := s.tr.loadFw k
  ({ s with tr := { t with varCert := t.stagedCert.getD t.varCert, stagedCert := none }, ha := { s.ha with fwver := t.fwver } }).freshWindow
/-- FAIL bits 4 and 5: what step 3b found on the host link. -/
def hostFails (b : BootFinds) : Nat := 16 * b2n (b.hostTrained && !b.hostCxl) + 32 * b2n (!b.hostTrained)
/-- No usable variant certificate: the wafer stays unpowered and the module answers groups 0x0A and 0x0B alone (R363). -/
def State.bootBare (s : State) (b : BootFinds) (slot : Nat) (failed : Bool) : State :=
  let s := { s with ha := { s.ha with variant := 0xFF, noVariant := true }, gov := { s.gov with pstat := b.pstat } }
  let s := (s.bootHost b).keeperFault fcVariantInvalid uidKeeper 0 0 []
  s.bootReady { phase := 2, slot := slot, fwver := s.tr.fwver, times := b.times, fail := b2n failed + 4 + hostFails b }
/-- The certificate is taken up and the wafer powered. -/
def State.powerWafer (s : State) (v : Variant) : State :=
  { s with tr := { s.tr with variant := some v, certSeq := v.certseq, wafer := true }, ha := { s.ha with variant := v.variant } }
/-- Step 4: the beat number is the module's own from 0, or the one heard from the beat master (R31, R290). -/
def State.bootBeat (s : State) (b : BootFinds) : State :=
  if s.clk.mode.cable ∧ s.clk.mode.master = false then s.adopt b.master 0 else { s with clk := { s.clk with beat := 0 } }
/-- Steps 3 to 9 with the variant of the certificate. -/
def State.bootFull (s : State) (b : BootFinds) (slot : Nat) (failed : Bool) : State :=
  let v := readVariant s.tr.varCert
  let corrupt := decide (s.tr.valid.length < s.tr.refine.length)
  let s := ((((s.powerWafer v).bootStacks v b).bootHost b).bootLinks v b).bootBeat b
  let s := (s.bringUp v b true).epochs
  let s := { s with gov := { s.gov with pstat := b.pstat } }
  let scfail := v.scmask - (v.scmask &&& b.stackOk)
  let lk := s.linkFails v
  s.bootReady { phase := 1, slot := slot, variant := v.variant, fwver := s.tr.fwver, certseq := v.certseq, times := b.times
                fail := b2n failed + 8 * b2n (decide (scfail ≠ 0)) + hostFails b + 64 * b2n (decide (lk ≠ 0)) + s.failBits b corrupt
                scfail := scfail, lkfail := lk, rgshad := s.shadowedMask, nsites := siteCount b }
/-- No image verifies: ROM recovery, with its record (R367). -/
def State.bootRom (s : State) (b : BootFinds) : State :=
  ({ s with tr := { s.tr with boot := .romRecovery, staged := false } }).coldRec { phase := 3, times := b.times.take 2, fail := 3 }
/-- Steps 2 to 9. -/
def State.bootOn (s : State) (b : BootFinds) : State :=
  let failed := decide (s.tr.tryFw ≠ s.tr.slotOrder.head?)
  match s.tr.tryFw with
  | none => s.bootRom b
  | some k =>
    let s := s.bootLoad k
    if s.tr.variantOk s.tr.varCert b.present then s.bootFull b k failed else s.bootBare b k failed
/-- COLD_BOOT: at power-on, behind a long MOD_RST_N pulse or a coolant wait that ran out; during the wait itself it goes on once the coolant
allows. -/
def doColdBoot (b : BootFinds) (s : State) : State :=
  let t := s.tr
  let start := t.coldAsked || decide (t.boot = .standby) || (decide (t.boot = .coolantStop) && s.coolantFit)
  if t.coldAsked = false ∧ t.boot = .coolantWait then (if s.coolantFit then s.bootOn b else s)
  else if start = false then s
  else if s.allLive = false then (if t.coldAsked then s.goDark else s)
  else
    let s := s.bootOpen
    if s.coolantFit then s.bootOn b else { s with tr := { s.tr with boot := .coolantWait } }
/-- COOLANT_WAIT_TIMEOUT: the wait has taken its 60 s; how long step 1 took is not said (entry 32). -/
def doCoolantWaitTimeout (inlet : Int) (flow : Nat) (s : State) : State :=
  if s.tr.boot ≠ .coolantWait then s
  else
    let s := { s with gov := { s.gov with inlet := inlet, flow := flow } }
    let d := s.drawFree
    (({ d.2 with tr := { d.2.tr with boot := .coolantStop } }).coldRec { phase := 4, times := [Config.freeNat d.1], fail := 2048 })

/-! The module warm reset (R380). -/

/-- A warm-reset record (R483). -/
def State.warmRec (s : State) (phase fwver : Nat) (times : List Nat) (fail rgshad nsites : Nat) : State :=
  s.logRec 0x11 0 0xFFFF 52 (leBytes 1 phase ++ leBytes 1 s.tr.warmTrigger ++ leBytes 2 0 ++ leBytes 4 s.tr.warmTag ++ leBytes 4 fwver ++ timeBytes 6 times ++
    leBytes 4 fail ++ leBytes 10 rgshad ++ leBytes 2 nsites)
/-- Repetitions under way end aborted (R414). -/
def State.endReps (s : State) : State :=
  let s1 := s.log.reps.foldl (fun (s : State) p =>
    (s.flagNear p.rep.unit p.rep.stamp).logRec 2 0 p.rep.ctx 96
      (s.faultBody p.rep 5 (b2n (s.uncertain p.rep.unit p.rep.stamp) + 4 * b2n (s.suspectUnit p.rep.unit)) 0 s.now p.idx)) s
  { s1 with log := { s1.log with reps := [] } }
/-- A context as the warm reset leaves it: plan sets, library and map gone, nothing under way (R377). -/
def Ctx.warm (x : Ctx) : Ctx :=
  { x with part := {}, switch := none, moves := [], opening := none, queuedOpen := none, sets := [], starts := [], ownStart := none, deferred := [], oldPod := false
           commits := x.commits.mapV {} (fun _ e => { e with inf := false, newslot := if e.inf then 0 else e.newslot }), flight := [], initWait := []
           opened := [], credits := [], order := [], closesSent := [], gathered := [], rowSent := [], withheld := [], hostOut := [], takeover := none
           lib := [], map := none }
/-- A stack controller: its stack and tables kept, its engines, counters and buffers at their reset values. -/
def Sc.warm (k : Sc) : Sc :=
  { serving := k.serving, pages := k.pages, mem := k.mem, errs := k.errs, ext := k.ext, map := k.map, pair := k.pair, win := k.win, retired := k.retired
    slots := k.slots.mapV {} (fun _ x => x.abort 8), temp := k.temp, limit := k.limit, patrol := k.patrol, winNj := k.winNj }
/-- Step 1: everything stops at the boundary, and every long-running command but the RESETs that asked for this ends ABORTED. -/
def State.warmStop (s : State) : State :=
  let s := (s.warmRec 0 0 [] 0 0 0).endReps
  let s := { s with ha := { s.ha with ready := false, warm := true }, tr := { s.tr with boot := .warm } }
  let s := s.ctxs.foldl (fun (s : State) p => s.killRuns p.1 stAborted noCause) s
  let ids := (s.long.filter (fun l => !s.tr.warmLongs.contains l.id)).map Long.id
  let s := s.finishAll ids stAborted noCause
  { s with
    ctxs := s.ctxs.mapV {} (fun _ x => x.warm)
    tiles := [], routers := [], hubs := [], fly := [], waggle := [], resets := []
    binds := s.binds.filter (fun o => o.long.isNone)
    scs := s.scs.mapV {} (fun _ k => k.warm)
    links := s.links.mapV {} (fun _ l => { l with narrowing := l.narrowing.map (fun _ => []), widen := l.widen.map (fun w => (w.1, [])), retrain := [] })
    pod := { s.pod with pending := none }
    gov := { s.gov with clockSet := [] }
    tr := { s.tr with tests := [], traces := [] }
    regions := allRegions.foldl (fun (t : Tab Region) r => t.upd {} r (fun g => { g with
      next := none, cd := .off, cdQueued := false, leases := [], leaseCopy := [], grantor := none, orders := [], planEnds := [] })) s.regions }
/-- The mode of R35 taken up: the master's number where cable mode begins or BEAT_IN had been lost. -/
def State.takeMode (s : State) (master : Option Nat) : State :=
  let was := s.clk.mode.cable && !s.clk.mode.master && s.clk.adopted && !s.clk.inLost
  let s := { s with clk := { s.clk with mode := s.clk.modeNext.getD s.clk.mode, modeNext := none } }
  if s.clk.mode.cable ∧ s.clk.mode.master = false then (if was then s else s.adopt master s.clk.beat)
  else { s with clk := { s.clk with inLost := false, adopted := false } }
/-- Bound regions that the map now shadows leave their contexts, each named by an event (R380). -/
def State.dropShadowed (s : State) : State :=
  (allRegions.filter (fun r => decide ((s.region r).st = .shadowed) && isUser (s.region r).ctx)).foldl (fun (s : State) r =>
    let c := (s.region r).ctx
    (s.revokeRegion r).postFault (uidComp r) 0 noCause c) s
/-- Steps 2 to 6. -/
def State.warmStart (s : State) (b : BootFinds) : State :=
  match s.tr.tryFw, s.tr.variant with
  | some k, some v =>
    let s := { s with tr := s.tr.loadFw k }
    let s := ({ s with ha := { s.ha with fwver := s.tr.fwver } }).freshWindow.takeMode b.master
    let corrupt := decide (s.tr.valid.length < s.tr.refine.length)
    let fit := decide (s.gov.inlet ≤ (180 : Int)) && decide (180 ≤ s.gov.flow) && decide (s.gov.outlet ≤ (260 : Int))
    let on := !s.gov.coolOff || (fit && decide (s.tr.warmTrigger ≤ 2))
    let s := (s.bringUp v b on).dropShadowed
    let s := { s with gov := { s.gov with pstat := b.pstat, coolOff := !on, excess := s.gov.excess && !on, unmet := false }
                      ha := { s.ha with ready := true, warm := false }, tr := { s.tr with boot := .ready } }
    let s := s.ctxs.foldl (fun (s : State) p => s.flush p.1 (p.2.ring.backlog.length + 2)) s
    let s := s.warmRec 1 s.tr.fwver b.times (s.failBits b corrupt) s.shadowedMask (siteCount b)
    let ids := s.tr.warmLongs
    ({ s with tr := { s.tr with warmTrigger := 0, warmTag := 0, warmLongs := [] } }).finishAll ids stOk 0
  | some k, none =>
    let s := { s with tr := { s.tr.loadFw k with boot := .ready } }
    let s := ({ s with ha := { s.ha with fwver := s.tr.fwver, ready := true, warm := false } }).freshWindow
    let s := s.ctxs.foldl (fun (s : State) p => s.flush p.1 (p.2.ring.backlog.length + 2)) s
    let s := s.warmRec 1 s.tr.fwver b.times 0 0 0
    let ids := s.tr.warmLongs
    ({ s with tr := { s.tr with warmTrigger := 0, warmTag := 0, warmLongs := [] } }).finishAll ids stOk 0
  | none, _ => { s with ha := { s.ha with warm := false }, tr := { s.tr with boot := .romRecovery, staged := false, wafer := false } }
/-- MODULE_WARM_RESET: once asked for, its first taking at a boundary is step 1, and its second brings the module up again (entry 33). -/
def doModuleWarmReset (b : BootFinds) (s : State) : State :=
  if s.tr.boot = .warm then s.warmStart b
  else if s.tr.boot ≠ .ready ∨ s.tr.warmTrigger = 0 ∨ s.clk.cycle ≠ 0 then s
  else s.warmStop

/-! The watchdog (R381). -/

/-- KEEPER_WATCHDOG: its record, its fault, and the warm reset that follows; during a warm reset it is counted and the reset goes on. -/
def doKeeperWatchdog (checkpoint pc lastFeed : Nat) (s : State) : State :=
  let now := s.clk.wall
  let times := s.tr.wdTimes.filter (fun t => decide (now < t + thirds 60000)) ++ [now]
  let s := { s with tr := { s.tr with wdTimes := times } }
  let s := s.logRec 0x12 0 0xFFFF 40 (leBytes 4 s.tr.fwver ++ leBytes 4 checkpoint ++ leBytes 4 pc ++ leBytes 1 (min 255 times.length) ++ leBytes 3 0 ++
    leBytes 8 lastFeed ++ leBytes 8 s.haStat ++ leBytes 8 s.gvStat0)
  let s := (s.keeperFault fcKeeperWatchdog uidKeeper 0 0 []).askWarm 3 0 []
  { s with tr := { s.tr with wdCold := s.tr.wdCold || decide (3 ≤ times.length) } }

/-! The meanings: one per command, each a frame around its effect. -/

/-- MODULE_WARM_RESET (R380). -/
def execModuleWarmReset (b : BootFinds) (s : State) : Out :=
  guarded "MODULE_WARM_RESET" (.moduleWarmReset b) s (doModuleWarmReset b)
/-- COLD_BOOT (R366). -/
def execColdBoot (b : BootFinds) (s : State) : Out :=
  guarded "COLD_BOOT" (.coldBoot b) s (doColdBoot b)
/-- KEEPER_WATCHDOG (R381). -/
def execKeeperWatchdog (checkpoint pc lastFeed : Nat) (s : State) : Out :=
  guarded "KEEPER_WATCHDOG" (.keeperWatchdog checkpoint pc lastFeed) s (doKeeperWatchdog checkpoint pc lastFeed)
/-- COOLANT_WAIT_TIMEOUT (R466). -/
def execCoolantWaitTimeout (inlet : Int) (flow : Nat) (s : State) : Out :=
  guarded "COOLANT_WAIT_TIMEOUT" (.coolantWaitTimeout inlet flow) s (doCoolantWaitTimeout inlet flow)

end Sys2Proof.Machine
end

