-- ==== Sys2Proof/Machine/Waggle.lean ====
section
/-! DEFINITION. Waggle packets and what they do where they arrive: resends, fences, fault reports, telemetry, the tile agent (spec 07: R186 to
R191; spec 17: R403 to R408). -/

namespace Sys2Proof.Machine

/-- The engine number of a tile's Waggle agent (R193). -/
def uidAgent (t : Nat) : Nat := uidTile t 0x071
/-- A hub has a Waggle link to a neighbour: the hub of a neighbour region, a rim gateway attached to it, or the agent of one of its region's
tiles (R186). -/
def waggleLink (hub next : Nat) : Bool :=
  if next < 80 then (facing hub next).isSome else if next < 84 then (gateHubs (next - 80)).contains hub else decide ((next - 84) / 64 = hub)
/-- The unit ID that stands for a hub's neighbour in a record; a gateway, which has none, is the Keeper's way in (entry 50). -/
def uidNeighbour (next : Nat) : Nat := if next < 80 then uidTransit next else if next < 84 then uidKeeper else uidAgent (next - 84)
/-- A packet with an uncorrectable flit is resent; after three failed resends the link is marked down and WAGGLE_LINK raised (R186). -/
def doWaggleResend (hub next : Nat) (s : State) : State :=
  let h := s.hubs.get {} hub
  if waggleLink hub next = false ∨ h.down.contains next then s
  else if h.resends.get 0 next < 3 then
    s.onHub hub (fun h => { h with resend := h.resend + 1, resends := h.resends.upd 0 next (· + 1) })
  else
    let cut (n : Nat) (h : Hub) : Hub := { h with resends := h.resends.set 0 n 0, down := if h.down.contains n then h.down else h.down ++ [n] }
    let s := s.onHub hub (cut next)
    (if next < 80 then s.onHub next (cut hub) else s).report ⟨fcWaggleLink, uidTransit hub, s.now, 0, 0, 0, [uidNeighbour next]⟩

/-- A tile fenced by order (R404). -/
def Tile.fence (t : Tile) : Tile :=
  if t.fenced then t else { t with fenced := true, sa := { t.sa with ops := [] }, se := { t.se with ops := [] } }
/-- A fence order on its way to a unit. -/
def WPkt.isFence (dst action ctx : Nat) (p : WPkt) : Bool :=
  decide (p.dst = dst) && (match p.msg with | .fence a _ c => decide (a = action) && (decide (a ≠ 2) || decide (c = ctx)) | _ => false)
/-- A fence order reaches its unit (R405). -/
def doFenceOrder (dst action ctx : Nat) (s : State) : State :=
  match s.take (WPkt.isFence dst action ctx) with
  | none => s
  | some (_, s) =>
    if action = 1 ∧ uClass dst = 1 ∧ uRegion dst < 80 then s.onTile (uTile dst) Tile.fence
    else if action = 2 ∧ uClass dst = 6 ∧ uRegion dst < 80 then
      if s.serves (uRegion dst) = ctx then s.onTiles [uRegion dst] Tile.fence else s
    else if action = 3 ∧ uClass dst = 6 ∧ uRegion dst < 80 then s.onRegion (uRegion dst) (fun g => { g with rcFenced := true })
    else s

/-- A unit's cluster, region, controller or link is under test (R429, R444). -/
def State.unitUnderTest (s : State) (u : Nat) : Bool :=
  s.tr.tests.any (fun t => t.running &&
    (t.unit = u || (uClass u = 1 && t.unit = uidCluster (uRegion u) (uCluster u)) || (uClass u = 0x11 && t.unit = uidSc (uSub u))))
/-- The fault record and its events alone: no hold, no repetition, no recovery (R444). -/
def State.recordOnly (s : State) (r : FReport) : State :=
  let idx := s.log.next
  let flags := b2n (s.uncertain r.unit r.stamp) + 4 * b2n (s.suspectUnit r.unit)
  ((s.flagNear r.unit r.stamp).logRec 1 0 r.ctx 96 (s.faultBody r 0 flags 0 0 noCause)).postFault r.unit r.cls idx r.ctx
/-- The report a packet carries. -/
def WPkt.fault? (p : WPkt) : Option FReport := match p.msg with | .fault r => some r | _ => none
/-- A fault report of a unit on its way. -/
def WPkt.isFault (unit cls stamp : Nat) (p : WPkt) : Bool := p.fault?.any (fun r => decide (r.unit = unit ∧ r.cls = cls ∧ r.stamp = stamp))
/-- A fault report at its region controller, which fences the unit, reclaims its leases and asks for the hold of its partition, and at the
Keeper, which writes the record (R405, R407, R408, R410). -/
def faultArrives (r : FReport) (s : State) : State :=
  let s := if uClass r.unit = 1 then s else s.traceEvent r.unit r.stamp r.tag 3
  if s.unitUnderTest r.unit then s.recordOnly r
  else
    let prim := (s.secondary r).isNone
    let rc := uidRc (unitHome r.unit)
    let s := if (reaction r.cls = 1 ∨ reaction r.cls = 2) ∧ uClass r.unit = 1 then
        s.send rc (uidTile (uTile r.unit) 0) (.fence 1 (uidTile (uTile r.unit) 0) r.ctx) else s
    let s := if reaction r.cls ≤ 2 then s.reclaim (fun l => decide (l.holder = r.unit)) else s
    let s := match (if prim then holdOf r.cls r.det else none) with
      | some why => s.askHold r.ctx r.unit why
      | none => s
    let idx := s.log.next
    let s := s.record r
    if r.cls = fcThermalTrip ∧ uClass r.unit = 6 then s.moveOrHold (uRegion r.unit) idx else s
/-- A fault report arrives (R405). -/
def doFaultReport (unit cls stamp : Nat) (s : State) : State :=
  match s.take (WPkt.isFault unit cls stamp) with
  | none => s
  | some (p, s) => p.fault?.elim s (fun r => faultArrives r s)

/-- The place of a unit in the telemetry table: region controllers by region, stack controllers from 80, rim sides from 104 by their first
link. -/
def teleIdx (u : Nat) : Nat := if uClass u ≤ 6 then uRegion u else if uClass u = 0x10 then 80 + uSub u else 104 + uSub u / 16
/-- The telemetry a packet carries: its unit and words. -/
def WPkt.tele? (p : WPkt) : Option (Nat × List Nat) := match p.msg with | .telemetry u w => some (u, w) | _ => none
/-- A unit's telemetry on its way. -/
def WPkt.isTele (unit : Nat) (p : WPkt) : Bool := p.tele?.any (fun q => decide (q.1 = unit))
/-- A window's telemetry at the Keeper. -/
def keepTele (u : Nat) (w : List Nat) (s : State) : State :=
  let s := { s with tele := s.tele.set [] (teleIdx u) w }
  if uClass u ≤ 6 then s.onRegion (uRegion u) (fun g => { g with teleWin := s.clk.beat / 1024 }) else s
/-- A window's telemetry reaches the Keeper (R386). -/
def doTelemetry (unit : Nat) (s : State) : State :=
  match s.take (WPkt.isTele unit) with
  | none => s
  | some (p, s) => p.tele?.elim s (fun q => keepTele q.1 q.2 s)

/-! The Waggle agent of a tile (R191). -/

/-- The scratchpad and registers behind the agent have power; the agent itself is of the transit domain (R193). -/
def State.tilePowered (s : State) (t : Nat) : Bool := decide ((s.region (t / 64)).cd = .on)
/-- A request to a tile's agent crosses the network with its sender's next sequence number, and the flits that have come to the tile by then are
there. The flag says that it arrives (R188). -/
def State.request (s : State) (src tile : Nat) : State × Bool :=
  let c := s.carry src (uidAgent tile)
  (((c.1.countSeq src).landTile tile).onTile tile (Tile.enter s.now), c.2)
/-- An agent answers. -/
def State.spAnswer (s : State) (tile dst status value : Nat) : State := s.send (uidAgent tile) dst (.spReply status value)
/-- An agent answers about a register. -/
def State.regAnswer (s : State) (tile dst status value : Nat) : State := s.send (uidAgent tile) dst (.regReply status value)
/-- SP_READ at the agent: the word, or FAULTED with the tile fenced, or BAD_PARAM for an address outside the map. A tile without power answers
FAULTED (entry 56). -/
def agentRead (tile src addr : Nat) (s : State) : State :=
  let t := s.tile tile
  if s.tilePowered tile = false then s.spAnswer tile src stFaulted 0
  else if addr % 32 ≠ 0 ∨ t.map.there addr = false then s.spAnswer tile src stBadParam 0
  else match checkWord 4 t (addr / 32) with
    | .ok t _ => (s.setTile tile t).spAnswer tile src stOk (t.mem.rdLE addr 32)
    | .wait _ => s
    | .fault t cls sub det => ((s.setTile tile t).tileFault tile s.clk.cycle ⟨cls, sub, det, 0, 0⟩).spAnswer tile src stFaulted 0
/-- SP_READ. -/
def doSpRead (tile src addr : Nat) (s : State) : State := let r := s.request src tile; if r.2 then agentRead tile src addr r.1 else r.1
/-- A whole word with a good check code in the scratchpad. -/
def Tile.putWord (t : Tile) (addr w : Nat) : Tile :=
  { t with mem := t.mem.wrLE addr 32 w, errs := t.errs.del (addr / 32), wback := t.wback.filter (· ≠ addr / 32) }
/-- SP_WRITE at the agent. -/
def agentWrite (tile src addr : Nat) (word : Line) (s : State) : State :=
  if s.tilePowered tile = false then s.spAnswer tile src stFaulted 0
  else if addr % 32 ≠ 0 ∨ (s.tile tile).map.there addr = false then s.spAnswer tile src stBadParam 0
  else (s.onTile tile (fun t => t.putWord addr word.toNat)).spAnswer tile src stOk word.toNat
/-- SP_WRITE. -/
def doSpWrite (tile src addr : Nat) (word : Line) (s : State) : State := let r := s.request src tile; if r.2 then agentWrite tile src addr word r.1 else r.1
/-- A tile agent's reply on its way to a unit. -/
def WPkt.isReply (tile dst : Nat) (sp : Bool) (p : WPkt) : Bool :=
  decide (p.src = uidAgent tile ∧ p.dst = dst) && (match p.msg with | .spReply _ _ => sp | .regReply _ _ => !sp | _ => false)
/-- A reply reaches its requester. -/
def takeReply (tile dst : Nat) (sp : Bool) (s : State) : State :=
  match s.take (WPkt.isReply tile dst sp) with
  | some (_, s) => s
  | none => s
/-- SP_REPLY. -/
def doSpReply (tile dst : Nat) (s : State) : State := takeReply tile dst true s
/-- REG_READ at the agent. -/
def agentRegRead (tile src reg : Nat) (s : State) : State :=
  if s.tilePowered tile = false then s.regAnswer tile src stFaulted 0
  else if regKnown reg then s.regAnswer tile src stOk ((s.tile tile).regAt s.now reg)
  else s.regAnswer tile src stBadParam 0
/-- REG_READ. -/
def doRegRead (tile src reg : Nat) (s : State) : State := let r := s.request src tile; if r.2 then agentRegRead tile src reg r.1 else r.1
/-- REG_WRITE at the agent: only the fields SWR may write, as the last of a cycle's writers (R140). -/
def agentRegWrite (tile src reg : Nat) (v : BitVec 64) (s : State) : State :=
  if s.tilePowered tile = false then s.regAnswer tile src stFaulted 0
  else if regWritable reg then
    let s := s.onTile tile (fun t => t.writeBy 2 reg v.toNat)
    s.regAnswer tile src stOk ((s.tile tile).regAt s.now reg)
  else s.regAnswer tile src stBadParam 0
/-- REG_WRITE. -/
def doRegWrite (tile src reg : Nat) (v : BitVec 64) (s : State) : State := let r := s.request src tile; if r.2 then agentRegWrite tile src reg v r.1 else r.1
/-- REG_REPLY. -/
def doRegReply (tile dst : Nat) (s : State) : State := takeReply tile dst false s
/-- The byte address of a row of a bank: R154 the other way round. -/
def SpMap.rowAddr (m : SpMap) (b row : Nat) : Nat :=
  let sh := m.shapeByte b
  let n := 2 ^ bits sh 7 6
  let i := 2 ^ bits sh 5 4
  let sz := 2 ^ (bits sh 3 0 + 5)
  let b0 := b - b % n
  let per := sz / (32 * i)
  let t := row / per * (n / i) + (b - b0) / i
  b0 * 0x40000 + t * sz + 32 * (row % per * i + (b - b0) % i)
/-- The highest-numbered bank the Waggle agent owns. -/
def SpMap.agentBank (m : SpMap) : Option Nat := ((List.range 24).filter (fun b => bits (m.mapByte b) 2 0 = 4)).getLast?
/-- Write 32-byte words by rows of a bank. -/
def mailWords (m : SpMap) (b row : Nat) : List Nat → Tile → Tile
  | [], t => t
  | w :: ws, t =>
    let a := m.rowAddr b row
    mailWords m b (row + 1) ws (t.putWord a w)
/-- A hub discards a packet (R189, R191). -/
def State.dropAt (s : State) (hub : Nat) : State := s.onHub hub (fun h => { h with drop := h.drop + 1 })
/-- SHORT_MSG: the next entry of the mailbox ring at the top of the agent's bank, SEQ and LEN as they stand in the header's first flit, and the
payload after them; of 16 flits the last has no place in the entry (entry 55). A tile without such a bank discards and counts it, and so does the
first hub for a LEN that the type does not have (R189). The command names no sender: the region controller stands for it. -/
def doShortMsg (tile seq : Nat) (words : List Nat) (s : State) : State :=
  if words = [] then s.dropAt (tile / 64)
  else
  let r := s.request (uidRc (tile / 64)) tile
  let s := r.1
  let t := s.tile tile
  if r.2 = false then s
  else match t.map.agentBank with
    | none => s.dropAt (tile / 64)
    | some b =>
      if s.tilePowered tile = false then s.dropAt (tile / 64)
      else
      let e := fitBytes 64 (leBytes 4 (fld words.length 5 17 + fld seq 7 10) ++ words.flatMap (leBytes 4))
      let top := (if t.map.dual b then 4096 else 8192) - 128
      s.setTile tile { mailWords t.map b (top + 2 * t.mbox) (bytesWords e) t with mbox := (t.mbox + 1) % 64 }

/-! The meanings: one per command, each a frame around its effect. -/

/-- WAGGLE_RESEND (R186). -/
def execWaggleResend (hub next : Nat) (s : State) : Out :=
  guarded "WAGGLE_RESEND" (.waggleResend hub next) s (doWaggleResend hub next)
/-- FENCE_ORDER (R405). -/
def execFenceOrder (dst action ctx : Nat) (s : State) : Out :=
  guarded "FENCE_ORDER" (.fenceOrder dst action ctx) s (doFenceOrder dst action ctx)
/-- FAULT_REPORT (R405). -/
def execFaultReport (unit cls stamp : Nat) (s : State) : Out :=
  guarded "FAULT_REPORT" (.faultReport unit cls stamp) s (doFaultReport unit cls stamp)
/-- TELEMETRY (R386). -/
def execTelemetry (unit : Nat) (s : State) : Out :=
  guarded "TELEMETRY" (.telemetry unit) s (doTelemetry unit)
/-- SP_READ (R191). -/
def execSpRead (tile src addr : Nat) (s : State) : Out :=
  guarded "SP_READ" (.spRead tile src addr) s (doSpRead tile src addr)
/-- SP_WRITE (R191). -/
def execSpWrite (tile src addr : Nat) (word : Line) (s : State) : Out :=
  guarded "SP_WRITE" (.spWrite tile src addr word) s (doSpWrite tile src addr word)
/-- SP_REPLY (R191). -/
def execSpReply (tile dst : Nat) (s : State) : Out :=
  guarded "SP_REPLY" (.spReply tile dst) s (doSpReply tile dst)
/-- REG_READ (R191). -/
def execRegRead (tile src reg : Nat) (s : State) : Out :=
  guarded "REG_READ" (.regRead tile src reg) s (doRegRead tile src reg)
/-- REG_WRITE (R191). -/
def execRegWrite (tile src reg : Nat) (v : BitVec 64) (s : State) : Out :=
  guarded "REG_WRITE" (.regWrite tile src reg v) s (doRegWrite tile src reg v)
/-- REG_REPLY (R191). -/
def execRegReply (tile dst : Nat) (s : State) : Out :=
  guarded "REG_REPLY" (.regReply tile dst) s (doRegReply tile dst)
/-- SHORT_MSG (R191). -/
def execShortMsg (tile seq : Nat) (words : List Nat) (s : State) : Out :=
  guarded "SHORT_MSG" (.shortMsg tile seq words) s (doShortMsg tile seq words)

end Sys2Proof.Machine
end

