-- ==== Sys2Proof/Machine/FaultCmd.lean ====
section
/-! DEFINITION. Repetition of tile faults, failed region controllers, lost transit domains (spec 13: R337; spec 17: R413 to R415, R419 to
R421). -/

namespace Sys2Proof.Machine

/-! Repetition (R413, R414). -/

/-- The result of a repetition whose fault's reflection check has an other-site step; the memory words and TILE_PARITY have none. -/
def repeatResult (cls : Nat) (r : Repeat) : Nat :=
  if r.aborted then 5
  else if cls = fcReflectMismatch then
    if r.able = false then 4
    else if r.same then 1
    else match r.other with
      | none => 6
      | some (_, true) => 2
      | some (_, false) => 3
  else if r.same then 1 else 2
/-- The other site used, as the record names it. -/
def repeatUnit (cls : Nat) (r : Repeat) : Nat :=
  if r.aborted = false ∧ cls = fcReflectMismatch ∧ r.able ∧ r.same = false then (r.other.map Prod.fst).getD 0 else 0
/-- The site of a tile becomes suspect for 24 hours. -/
def State.markSuspect (s : State) (t : Nat) : State :=
  match s.siteAt t with
  | some n => s.onRegion (t / 64) (fun g => { g with suspect := g.suspect.set 0 n (s.clk.wall + thirds 86400000) })
  | none => s
/-- A column of the cluster has fewer good sites than rows once the sites found bad count (R13, R415). -/
def State.columnShort (s : State) (t : Nat) : Bool :=
  let g := s.region (t / 64)
  (siteOf (g.bad ++ g.badNext) (t / 16 % 4) (t % 4)).isNone
/-- The site of a tile is shadowed: its cluster is remapped, or the region's work moves (R415); of a fenced context nothing moves (R428). -/
def State.loseSite (s : State) (t cls idx : Nat) : State :=
  match s.siteAt t with
  | none => s
  | some n =>
    let s := s.shadowSite (t / 64) (t / 16 % 4) (n % 20) 2 cls
    if s.columnShort t ∧ (s.ctx (s.serves (t / 64))).st ≠ .fenced then s.moveOrHold (t / 64) idx else s
/-- REPETITION ends: the second record, then the action of its result. A fault waits for its partition's hold; a tile that a reset or a
revocation has taken out of its fence has nothing left to repeat; the recovery of a fenced context stops here (R428). -/
def doRepetition (idx : Nat) (r : Repeat) (s : State) : State :=
  match s.log.reps.find? (fun p => p.idx = idx) with
  | none => s
  | some p =>
    let f := p.rep
    let t := uTile f.unit
    let r : Repeat := if (s.tile t).fenced then r else { r with aborted := true }
    if r.aborted = false ∧ isUser f.ctx ∧ (s.ctx f.ctx).part.held = false then s
    else
      let res := repeatResult f.cls r
      let sus := s.suspectUnit f.unit
      let other := repeatUnit f.cls r
      let s := (s.flagNear f.unit f.stamp).logRec 2 0 f.ctx 96
        (s.faultBody f res (b2n (s.uncertain f.unit f.stamp) + 4 * b2n sus) other s.now idx)
      let s := { s with log := { s.log with reps := s.log.reps.filter (fun q => q.idx ≠ idx) } }
      if res = 2 ∨ res = 6 ∨ (sus ∧ (res = 1 ∨ res = 4)) then s.loseSite t f.cls idx
      else
        let s := if res = 3 then s else s.markSuspect t
        if (s.tile t).fenced ∧ (s.ctx f.ctx).st ≠ .fenced then s.orderReset 0 t [] true else s
/-- The repetitions that a region controller runs end aborted with it (R428). -/
def State.abortReps (s : State) (r : Nat) : State :=
  (s.log.reps.filter (fun p => decide (uClass p.rep.unit = 1) && decide (uRegion p.rep.unit = r))).foldl (fun s p => doRepetition p.idx ⟨false, false, none, true⟩ s) s

/-! Region controllers (R420) and transit domains (R421). -/

/-- A region's controller is out: fenced or transit-lost (R337). -/
def State.rcOut (s : State) (r : Nat) : Bool := (s.region r).rcFenced || (s.region r).gone
/-- The controller that takes over for region r: the next to the east, with wrap-around, that is not out itself (R337). -/
def State.successor (s : State) (r : Nat) : Nat :=
  (((List.range 9).map (fun i => r / 10 * 10 + (r % 10 + 1 + i) % 10)).find? (fun q => !s.rcOut q)).getD (partner r)
/-- The take-over: every lease the controller granted and every lease held by a unit of its region is reclaimed; new ones are the partner's to
grant (R337). A move to the region is tried elsewhere (R428). -/
def State.takeOver (s : State) (r : Nat) : State :=
  let q := s.successor r
  let ms := s.movesTo r
  ((s.onRegion r (fun g => { g with grantor := some q })).reclaim
    (fun l => decide (leaseHome l = r) || (decide (uClass l.holder ≤ 6) && decide (uRegion l.holder = r)))).tryNext ms
/-- A region's transit domain is lost (R421), its leases with it (R337, R419). -/
def State.loseTransit (s : State) (r : Nat) : State := if (s.region r).gone then s else (s.transitLost r).takeOver r
/-- A region controller fails: fenced by the order of its partner, its orders lost, the partitions held that route through it; its reset ends
at the next boundary, and a second failure within 24 hours or a failed reset loses the region (R420, R421). -/
def State.rcFails (s : State) (cls r : Nat) (resetOk : Bool) : State :=
  let g := s.region r
  if g.gone then s
  else
    let now := s.clk.wall
    let fails := g.rcFails.filter (fun t => decide (now < t + thirds 86400000)) ++ [now]
    let idx := s.log.next
    let s := s.keeperFault cls (uidRc r) 0 0 []
    let s := s.send (uidRc (s.successor r)) (uidRc r) (.fence 3 (uidRc r) 0)
    let s := s.onRegion r (fun g => { g with rcFenced := true, rcFails := fails, orders := [] })
    let s := ((s.abortReps r).stopCrossing r idx).takeOver r
    if resetOk = false ∨ 2 ≤ fails.length then s.loseTransit r else s
/-- RC_FAULT. -/
def doRcFault (region : Nat) (resetOk : Bool) (s : State) : State := s.rcFails fcRcFault region resetOk
/-- RC_SILENT: two aggregation windows without telemetry. -/
def doRcSilent (region : Nat) (resetOk : Bool) (s : State) : State :=
  if s.clk.beat / 1024 < (s.region region).teleWin + 2 then s else s.rcFails fcRcSilent region resetOk
/-- TRANSIT_SUPPLY_LOSS. -/
def doTransitSupplyLoss (region : Nat) (s : State) : State := s.loseTransit region

/-! The meanings: one per command, each a frame around its effect. -/

/-- REPETITION (R413). -/
def execRepetition (idx : Nat) (r : Repeat) (s : State) : Out :=
  guarded "REPETITION" (.repetition idx r) s (doRepetition idx r)
/-- RC_FAULT (R420). -/
def execRcFault (region : Nat) (resetOk : Bool) (s : State) : Out :=
  guarded "RC_FAULT" (.rcFault region resetOk) s (doRcFault region resetOk)
/-- RC_SILENT (R420). -/
def execRcSilent (region : Nat) (resetOk : Bool) (s : State) : Out :=
  guarded "RC_SILENT" (.rcSilent region resetOk) s (doRcSilent region resetOk)
/-- TRANSIT_SUPPLY_LOSS (R421). -/
def execTransitSupplyLoss (region : Nat) (s : State) : Out :=
  guarded "TRANSIT_SUPPLY_LOSS" (.transitSupplyLoss region) s (doTransitSupplyLoss region)

end Sys2Proof.Machine
end

