-- ==== Sys2Proof/Machine/HostCmd.lean ====
section
/-! DEFINITION. The host attachment: the system ring, the register page, head lines, far-page requests, MSI-X, the host-visible window and
the host link's reset (spec 12). -/

namespace Sys2Proof.Machine

/-! Rings (R300 to R305). -/

/-- The byte ranges of a ring's four parts. -/
def Ring.parts (r : Ring) : List (Nat × Nat) := [(r.cbase, 32 * 2 ^ r.csize), (r.qbase, 32 * 2 ^ r.qsize), (r.hline, 64), (r.sline, 64)]
/-- Two ranges overlap. -/
def overlap (a b : Nat × Nat) : Bool := decide (a.1 < b.1 + b.2) && decide (b.1 < a.1 + a.2)
/-- A ring descriptor passes R302, under an enabled MSI-X table of `vecs` vectors. -/
def ringDescOk (vecs : Nat) (d : Words8) : Bool :=
  let r : Ring := { desc := d }
  let ps := r.parts
  decide (7 ≤ r.csize) && decide (r.csize ≤ 19) && decide (7 ≤ r.qsize) && decide (r.qsize ≤ 16) && decide (d.fld 0 11 6 = 0) &&
    decide (d.fld 1 5 0 = 0) && decide (d.fld 2 11 6 = 0) && decide (d.fld 3 5 0 = 0) && decide (d.fld 4 63 9 = 0) &&
    decide (d.w 5 = 0) && decide (d.w 6 = 0) && decide (d.w 7 = 0) && decide (r.vec < vecs) &&
    (List.range 4).all (fun i => (List.range 4).all (fun j => decide (j ≤ i) || !overlap (ps.getD i (0, 0)) (ps.getD j (0, 0))))
/-- Take up a head line (R301, R303, R305): unreadable, CPROD beyond the ring, or QCONS ahead of QPROD stops the ring; else its values count,
and entries that waited are written. -/
def State.headLine (s : State) (c cprod qcons : Nat) (readable : Bool) : State :=
  let r := (s.ctx c).ring
  if readable = false then s.stopRing c 4
  else if 2 ^ r.csize < idxDiff cprod r.ccons then s.stopRing c 1
  else if 2 ^ r.qsize < idxDiff r.qprod qcons then s.stopRing c 3
  else (s.onRing c (fun r => { r with cprod := cprod, qcons := qcons })).flush c 66
/-- Start a ring from a descriptor that has passed its check (R302). -/
def State.startRing (s : State) (c : Nat) (d : Words8) (cprod qcons : Nat) (readable : Bool) : State :=
  let s := s.onRing c (fun r => { r with desc := d, cprod := cprod, ccons := cprod, qcons := 0, qprod := 0, nseq := 0, st := .running, err := 0 })
  (s.putStatus c).headLine c cprod qcons readable
/-- Start a ring with the head line as it stands in host memory. -/
def State.startFromMem (s : State) (c : Nat) (d : Words8) : State :=
  let h := ({ desc := d } : Ring).hline
  s.startRing c d (s.hostMem.rdLE h 4) (s.hostMem.rdLE (h + 4) 4) true
/-- SREN has gone from 0 to 1 with the ring disabled (R300). -/
def State.srStart (s : State) (cprod qcons : Nat) (readable : Bool) : State :=
  let d := (s.ctx 0).ring.desc
  let s := { s with ha := { s.ha with sren := true, srenAgain := false } }
  if s.ha.cxl = false then s
  else if ringDescOk s.ha.msixSize d then s.startRing 0 d cprod qcons readable
  else s.onRing 0 (fun r => { r with st := .stopped })
/-- Writes to HA_CTL and SR_DESC count (R319). -/
def State.regsOpen (s : State) : Bool := s.ha.ready || s.ha.warm
/-- SYSTEM_RING_START (R300); while the ring is stopping it waits for the stop. -/
def doSystemRingStart (cprod qcons : Nat) (readable : Bool) (s : State) : State :=
  if s.regsOpen = false ∨ s.ha.sren then s
  else if (s.ctx 0).ring.st = .stopping then { s with ha := { s.ha with sren := true, srenAgain := true } }
  else s.srStart cprod qcons readable
/-- SYSTEM_RING_STOP (R300). -/
def doSystemRingStop (s : State) : State :=
  if s.regsOpen = false ∨ s.ha.sren = false then s
  else
    let was := (s.ctx 0).ring.st
    let s := { s with ha := { s.ha with sren := false, srenAgain := false } }
    if was = .running then (s.onRing 0 (fun r => { r with st := .stopping })).putStatus 0
    else if was = .stopped then s.onRing 0 (fun r => { r with st := .stopping })
    else s
/-- SYSTEM_RING_STOP_DONE (R300): every long-running command of the ring has its final reply, written; a start that waited follows, with the
head line as it stands in host memory. -/
def doSystemRingStopDone (s : State) : State :=
  let r := (s.ctx 0).ring
  if r.st ≠ .stopping ∨ s.long.any (fun l => decide (l.src = .ring 0)) ∨ r.backlog ≠ [] then s
  else
    let s := (s.onRing 0 (fun r => { r with st := .disabled }))
    let s := if r.err = 0 ∧ ringDescOk s.ha.msixSize r.desc then s.putStatus 0 else s
    if s.ha.srenAgain then s.srStart (s.hostMem.rdLE r.hline 4) (s.hostMem.rdLE (r.hline + 4) 4) true else s
/-- Replace `len` bytes of a 64-bit register at byte `b`. -/
def putBytes (old b len v : Nat) : Nat := old - fld (old >>> (8 * b)) (8 * len) (8 * b) + fld v (8 * len) (8 * b)
/-- REGISTER_WRITE (R299, R300, R319): SR_DESC is stored while the ring is disabled; every other register that has no row of its own ignores
writes. -/
def doRegisterWrite (off len value : Nat) (s : State) : State :=
  if (len ≠ 4 ∧ len ≠ 8) ∨ off % len ≠ 0 ∨ off < 0x40 ∨ 0x80 ≤ off ∨ (s.ctx 0).ring.st ≠ .disabled ∨ s.regsOpen = false then s
  else
    let i := (off - 0x40) / 8
    s.onRing 0 (fun r => { r with desc := r.desc.setW i (putBytes (r.desc.w i) (off % 8) len value) })
/-- The opcodes a row of *Command reference* defines. -/
def opDefined (op : Nat) : Bool :=
  let n := op % 256
  decide (1 ≤ n) && decide (n ≤ [0, 4, 5, 7, 6, 3, 4, 11, 5, 3, 3, 5, 6].getD (op / 256) 0)
/-- The device reads a ring's head line again (R303): new values, waiting entries, packets of undefined opcodes (R307 check 1). The other
packets are commands of their own. -/
def State.reread (s : State) (ctx cprod qcons : Nat) (readable : Bool) (undef : List (Nat × Hdr)) : State :=
  if s.watched = false ∨ (s.ctx ctx).ring.st ≠ .running then s
  else
    let s := s.headLine ctx cprod qcons readable
    (undef.filter (fun p => !opDefined p.1 && decide (p.2.src = .ring ctx))).foldl undefPacket s
/-- HEAD_LINE_SNOOP (R303); during a warm reset the line is kept and not acted on (R318). -/
def doHeadLineSnoop (ctx cyc cprod qcons : Nat) (readable : Bool) (undef : List (Nat × Hdr)) (s : State) : State :=
  let s := s.at cyc
  if (s.ctx ctx).ring.st = .running ∧ s.ha.cxl then
    ({ s with ha := { s.ha with snoop := s.ha.snoop + 1 } }).reread ctx cprod qcons readable undef
  else s
/-- HEAD_LINE_REREAD (R303). -/
def doHeadLineReread (ctx cyc cprod qcons : Nat) (readable : Bool) (undef : List (Nat × Hdr)) (s : State) : State :=
  (s.at cyc).reread ctx cprod qcons readable undef

/-! Requests and vectors. -/

/-- FAR_PAGE_REQUEST_REPOST (R312). -/
def doFarPageRequestRepost (ctx ext page : Nat) (s : State) : State :=
  (s.ha.far.filter (fun f => decide (f.ctx = ctx ∧ f.ext = ext ∧ f.page = page ∧ f.at_ ≤ s.clk.beat))).foldl (fun s f => s.postFar ctx ext page f.stream) s
/-- MSIX_UNMASK (R313). -/
def doMsixUnmask (vec : Nat) (s : State) : State :=
  let h := s.ha
  { s with ha := { h with msixMask := setBit h.msixMask vec false, msixPend := setBit h.msixPend vec false
                          msixSent := if h.msixMask.testBit vec ∧ h.msixPend.testBit vec then h.msixSent ++ [vec] else h.msixSent } }

/-! The host-visible window (R314 to R316). -/

/-- HDM_DECODER_COMMIT: one-way interleave alone commits. -/
def doHdmDecoderCommit (ways : Nat) (s : State) : State := if ways = 1 ∧ s.ha.cxl then { s with ha := { s.ha with hdm := true } } else s
/-- The extent and logical page a window page shows. -/
def State.windowAt (s : State) (page : Nat) : Option (Nat × ExtEnt × Nat) :=
  s.scs.findSome? (fun q => q.2.win.findSome? (fun w => (s.ext (2048 * q.1 + w.1)).bind (fun e =>
    if e.hv ∧ w.2 ≤ page + 1 ∧ page + 1 < w.2 + e.pages then some (2048 * q.1 + w.1, e, page + 1 - w.2) else none)))
/-- An uncorrectable word met through the window: counted, and recorded with the window address (R315). -/
def State.windowFault (s : State) (ext : Nat) (e : ExtEnt) (off addr : Nat) : State :=
  s.keeperFault fcStoreUncorrectable (uidSc (extSc ext)) e.ctx 0 [0xFFFFFFFF, ext, off % 2 ^ 32, off / 2 ^ 32, addr % 2 ^ 32, addr / 2 ^ 32]
/-- Count a request that met an uncorrectable word. -/
def State.memErr (s : State) : State := { s with ha := { s.ha with memErr := s.ha.memErr + 1 } }
/-- A request for an unmapped page. -/
def State.unmapped (s : State) : State := { s with ha := { s.ha with unmapped := s.ha.unmapped + 1 } }
/-- One word of a window read: 32 bytes, all ones where it cannot be corrected; the flag says it could. -/
def State.windowWord (s : State) (ext : Nat) (e : ExtEnt) (off addr : Nat) : State × List Byte × Bool :=
  match s.checkStore ext e off with
  | (s, none) => (s, s.peek ext e off 32, true)
  | (s, some _) => (s.windowFault ext e off addr, List.replicate 32 0xFF#8, false)
/-- WINDOW_READ (R315). -/
def doWindowRead (addr : Nat) (s : State) : State :=
  let a := addr / 64 * 64
  if s.ha.cxl = false ∨ s.ha.hdm = false then s
  else match s.windowAt (a / pageBytes) with
    | none => { s.unmapped with ha := { s.unmapped.ha with memResp := List.replicate 64 0xFF#8 } }
    | some (ext, e, l) =>
      let off := l * pageBytes + a % pageBytes
      let s := s.onSc (extSc ext) (Sc.spendLow e.ctx 1)
      let lo := s.windowWord ext e off a
      let hi := lo.1.windowWord ext e (off + 32) (a + 32)
      let s := if lo.2.2 ∧ hi.2.2 then hi.1 else hi.1.memErr
      { s with ha := { s.ha with memResp := lo.2.1 ++ hi.2.1 } }
/-- One word of a window write under its byte enables (R316): whole words without reading, partial ones merged; the flag says it was written or
needed no writing. -/
def State.windowMerge (s : State) (ext : Nat) (e : ExtEnt) (off addr enable : Nat) (data : List Byte) : State × Bool :=
  if enable = 0 then (s, true)
  else if enable = 2 ^ 32 - 1 then (s.writeExt ext e off data, true)
  else match s.checkStore ext e off with
    | (s, some _) => (s.windowFault ext e off addr, false)
    | (s, none) =>
      let old := s.peek ext e off 32
      (s.writeExt ext e off ((old.zip data).zipIdx.map (fun q => if bit enable q.2 then q.1.2 else q.1.1)), true)
/-- WINDOW_WRITE (R315, R316). -/
def doWindowWrite (addr enable : Nat) (data : List Byte) (s : State) : State :=
  let a := addr / 64 * 64
  if s.ha.cxl = false ∨ s.ha.hdm = false then s
  else match s.windowAt (a / pageBytes) with
    | none => s.unmapped
    | some (ext, e, l) =>
      let off := l * pageBytes + a % pageBytes
      let s := s.onSc (extSc ext) (Sc.spendLow e.ctx 1)
      let lo := s.windowMerge ext e off a (enable % 2 ^ 32) (data.take 32)
      let hi := lo.1.windowMerge ext e (off + 32) (a + 32) (enable / 2 ^ 32) (data.drop 32)
      if lo.2 ∧ hi.2 then hi.1 else hi.1.memErr
/-- HOST_LINK_RESET (R318): every ring disabled, HA_CTL and the ring descriptors cleared. -/
def doHostLinkReset (s : State) : State :=
  { s with ctxs := s.ctxs.mapV {} (fun _ x => { x with ring := { x.ring with desc := {}, st := .disabled, err := 0 } })
           ha := { s.ha with sren := false, srenAgain := false } }

/-! The meanings: one per command, each a frame around its effect. -/

/-- SYSTEM_RING_START (R300). -/
def execSystemRingStart (cprod qcons : Nat) (readable : Bool) (s : State) : Out :=
  guarded "SYSTEM_RING_START" (.systemRingStart cprod qcons readable) s (doSystemRingStart cprod qcons readable)
/-- SYSTEM_RING_STOP (R300). -/
def execSystemRingStop (s : State) : Out :=
  guarded "SYSTEM_RING_STOP" (.systemRingStop) s (doSystemRingStop)
/-- SYSTEM_RING_STOP_DONE (R300). -/
def execSystemRingStopDone (s : State) : Out :=
  guarded "SYSTEM_RING_STOP_DONE" (.systemRingStopDone) s (doSystemRingStopDone)
/-- REGISTER_WRITE (R299). -/
def execRegisterWrite (off len value : Nat) (s : State) : Out :=
  guarded "REGISTER_WRITE" (.registerWrite off len value) s (doRegisterWrite off len value)
/-- HEAD_LINE_SNOOP (R303). -/
def execHeadLineSnoop (ctx cyc cprod qcons : Nat) (readable : Bool) (undef : List (Nat × Hdr)) (s : State) : Out :=
  guarded "HEAD_LINE_SNOOP" (.headLineSnoop ctx cyc cprod qcons readable undef) s (doHeadLineSnoop ctx cyc cprod qcons readable undef)
/-- HEAD_LINE_REREAD (R303). -/
def execHeadLineReread (ctx cyc cprod qcons : Nat) (readable : Bool) (undef : List (Nat × Hdr)) (s : State) : Out :=
  guarded "HEAD_LINE_REREAD" (.headLineReread ctx cyc cprod qcons readable undef) s (doHeadLineReread ctx cyc cprod qcons readable undef)
/-- FAR_PAGE_REQUEST_REPOST (R312). -/
def execFarPageRequestRepost (ctx ext page : Nat) (s : State) : Out :=
  guarded "FAR_PAGE_REQUEST_REPOST" (.farPageRequestRepost ctx ext page) s (doFarPageRequestRepost ctx ext page)
/-- MSIX_UNMASK (R313). -/
def execMsixUnmask (vec : Nat) (s : State) : Out :=
  guarded "MSIX_UNMASK" (.msixUnmask vec) s (doMsixUnmask vec)
/-- HDM_DECODER_COMMIT (R314). -/
def execHdmDecoderCommit (ways : Nat) (s : State) : Out :=
  guarded "HDM_DECODER_COMMIT" (.hdmDecoderCommit ways) s (doHdmDecoderCommit ways)
/-- WINDOW_READ (R315). -/
def execWindowRead (addr : Nat) (s : State) : Out :=
  guarded "WINDOW_READ" (.windowRead addr) s (doWindowRead addr)
/-- WINDOW_WRITE (R316). -/
def execWindowWrite (addr enable : Nat) (data : List Byte) (s : State) : Out :=
  guarded "WINDOW_WRITE" (.windowWrite addr enable data) s (doWindowWrite addr enable data)
/-- HOST_LINK_RESET (R318). -/
def execHostLinkReset (s : State) : Out :=
  guarded "HOST_LINK_RESET" (.hostLinkReset) s (doHostLinkReset)

end Sys2Proof.Machine
end

