-- ==== Sys2Proof/Machine/StepCmd.lean ====
section
/-! DEFINITION. Step and evaluation commands, the beginning and the completion of a step (spec 09: R225 to R236; 10: R257, R266; 11: R289;
14: R352). -/

namespace Sys2Proof.Machine

/-- A positive finite FP32 code. -/
def lrOk (lr : Nat) : Bool := decide (0 < lr) && decide (lr < 0x7F800000)
/-- The step number a STEP_START may start next, but for a redo: the one after the step that runs, else after the last completed (R226). -/
def Ctx.nextStep (x : Ctx) : Nat := (match x.run with | some r => if r.kind = .step then r.step + 1 else x.last + 1 | none => x.last + 1) % 4294967296
/-- The step recorded last, where it ended without completion. -/
def Ctx.redoOf (x : Ctx) : Option StepNow := x.now.filter (fun n => n.ended && x.run.isNone)
/-- R226 for a step number, seed and token count. -/
def Ctx.stepAllowed (x : Ctx) (step seed tokens : Nat) : Bool :=
  match x.redoOf with
  | some n => decide (step = n.step) && decide (seed = n.seed) && (n.taken || decide (tokens = n.tokens))
  | none => decide (step = x.nextStep)
/-- The freeze digest a step will start with: changes that wait for it have been made (R232). -/
def Ctx.nextFreeze (x : Ctx) : Nat := (x.deferred.foldl (fun x d => x.applyDef d.1) x).freezeDigest
/-- STEP_START (R226, R232, R235): the step waits for its plan beat 0, or is queued behind the one that runs. -/
def doStepStart (h : Hdr) (step seed tokens lr handle : Nat) (s : State) : State :=
  packet 0x0501 [2] false h s (fun s =>
    let c := h.ctx
    let x := s.ctx c
    let lrBad := x.groups.any (fun g => decide (grLrs g.2 = 2)) && !lrOk lr
    match s.setFor c handle 1 with
    | none => refuse stBadParam s
    | some p =>
      check6 h s (x.stepAllowed step seed tokens && !lrBad && decide (p.freeze = x.nextFreeze))
        (if x.queued.isSome ∨ x.run.any (fun r => decide (r.kind ≠ .step)) then refuse stBusy s
         else .accept stAccepted .step c 0 (fun id s =>
          let att := match x.redoOf with | some n => (n.attempt + 1) % 256 | none => 0
          let r : Run := { kind := .step, handle := handle, step := step, seed := seed, tokens := tokens, lr := lr, attempt := att, long := id, cmdTag := h.tag }
          let s := s.onPart c Part.restarted
          if x.run.isSome then s.onCtx c (fun x => { x with queued := some r }) else (s.onCtx c (fun x => { x with run := some r })).sendStart c) s))
/-- A ledger record more; the last 4096 are kept (R353). -/
def Ctx.pushLedger (x : Ctx) (l : Ledger) : Ctx := let a := x.ledger ++ [l]; { x with ledger := a.drop (a.length - 4096) }
/-- The record of an evaluation run, written at its plan beat 0. -/
def Ctx.evalLedger (x : Ctx) (b : Nat) : Ctx :=
  match x.run with
  | some r => x.pushLedger { step := x.last, attempts := 1, eval := true, tokens := r.tokens, start := b * 4096 }
  | none => x
/-- The interval and the ledger record of a step at a plan beat 0: a redo goes on with them (R236). -/
def Ctx.openInterval (x : Ctx) (r : Run) (b : Nat) : Ctx :=
  let redo := x.isRedo r
  let n : StepNow := match x.now with
    | some n => if redo then { n with attempts := n.attempts + 1, attempt := r.attempt, tokens := r.tokens, ended := false, taken := false }
        else { step := r.step, seed := r.seed, tokens := r.tokens, attempts := 1, attempt := r.attempt, start := b * 4096 }
    | none => { step := r.step, seed := r.seed, tokens := r.tokens, attempts := 1, attempt := r.attempt, start := b * 4096 }
  let x := { x with now := some n }
  if x.ledger.getLast?.any (fun l => !l.eval && decide (l.step = r.step) && redo) then x.bookStep 0 false
  else x.pushLedger { step := r.step, attempts := sat 8 n.attempts, eval := false, tokens := r.tokens, start := b * 4096 }
/-- What a step's plan beat 0 changes in its context (R96, R232, R249, R266). -/
def Ctx.beginStep (x : Ctx) (r : Run) (b : Nat) : Ctx :=
  let redo := x.isRedo r
  let y := (x.atStart r).openInterval r b
  { y with opened := [], credits := [], closesSent := [], gathered := [], rowSent := [], withheld := [], stragglers := [], hostOut := []
           bumped := if redo then y.bumped else [], run := some { r with started := true } }
/-- Replace the order of a context for a beat. -/
def putOrder (o : BeatOrd) (l : List BeatOrd) : List BeatOrd := l.filter (fun q => ¬(q.ctx = o.ctx ∧ q.beat = o.beat)) ++ [o]
/-- The orders of a beat in which a plan begins: executed, with the first schedule. -/
def State.orderNow (s : State) (c : Nat) (steps : List Nat) : State :=
  let o : BeatOrd := ⟨c, s.clk.beat, true, schedAt steps 0⟩
  let s := (dedup (s.routeRegions c ++ s.working c)).foldl (fun s r => s.onRegion r (fun g => { g with orders := putOrder o g.orders })) s
  (s.scsOf c).foldl (fun s n => s.onSc n (fun k => { k with orders := putOrder o k.orders })) s
/-- DETAIL of a change that waited for a step start: a freeze set's digest (R355). -/
def Deferred.detail : Deferred → Nat
  | .freeze b => sha64 b
  | _ => 0
/-- Plan beat 0 of a step. -/
def State.beginStep (s : State) (c : Nat) (r : Run) (p : PlanSet) : State :=
  let b := s.clk.beat
  let ds := (s.ctx c).deferred
  let s := (s.freeBuffers c).onCtx c (fun x => x.beginStep r b)
  let s := ds.foldl (fun s d => s.finish d.2 stOk d.1.detail) s
  let s := (s.issueStart c r.handle (r.step % 2) b p).onPart c (fun q => { q with begun := true })
  s.orderNow c p.steps
/-- STEP_BEGIN (R289, R266): the first boundary at which every message is held, and for a redo no commit in flight, in a beat that is
executed. -/
def doStepBegin (ctx : Nat) (s : State) : State :=
  if s.clk.cycle ≠ 0 then s
  else
    let s := s.sendStart ctx
    let x := s.ctx ctx
    match x.waiting with
    | none => s
    | some r =>
      if x.ownStart.isNone ∨ x.missing s.myPos r ≠ [] ∨ (x.isRedo r ∧ x.commits.any (fun m => m.2.inf)) ∨ x.takeover.isSome ∨ x.part.held ∨
          (s.lead ctx).isNone then s
      else match s.setFor ctx r.handle 1 with
        | none => s.closeRun ctx stBadParam 0
        | some p => if p.freeze ≠ x.nextFreeze then s.closeRun ctx stBadParam 0 else s.beginStep ctx r p
/-- Every parcel the module owns is committed in a step, and every parcel its peers send has come (R236). -/
def Ctx.allThere (x : Ctx) (me step : Nat) : Bool :=
  x.pmap.zipIdx.all (fun q =>
    let p := q.2
    let e := q.1
    if e.owner = me then (e.fz && !x.newFz.contains p) || (decide ((x.commits.get {} p).step.toNat = step) && !(x.commits.get {} p).inf)
    else e.fz || !(x.members e).contains me || x.gathered.contains p)
/-- The module's own sum of n_p, in parcel order (R257). -/
def Ctx.ownNorm (x : Ctx) (me step : Nat) : W64 :=
  c64 ((x.ownedBy me).foldl (fun (a : Val) q => r64 (Val.add a (v64 (((x.statOf step q.1).map PStat.norm).getD 0)))) (.zero false))
/-- A step of a context is complete (R236, R257): update counts advance, the norm goes to every other position, the run closes with its final reply,
and a queued step takes its place. -/
def State.completed (s : State) (ctx : Nat) (r : Run) : State :=
  let x := s.ctx ctx
  let me := s.myPos
  let n := x.ownNorm me r.step
  let s := s.onCtx ctx (fun x => { x with
    last := r.step, newFz := [], bumped := [], counts := x.bumped.foldl (fun (t : Tab Nat) g => t.upd 0 g (· + 1)) x.counts })
  let s := (x.peersOf me).foldl (fun s q => s.fctl ctx q 3 (leBytes 2 ctx ++ leBytes 4 r.step ++ leBytes 8 n.toNat)) s
  let s := normIn ctx me r.step n s
  let now := (if s.clk.cycle = 0 then s.ctx ctx else (s.ctx ctx).countBeat).now
  let beats := (now.map StepNow.beats).getD 0
  let held := (now.map StepNow.held).getD 0
  let att := (now.map StepNow.attempts).getD 0
  let s := s.closeRun ctx stOk (sat 32 beats + sat 24 held * 2 ^ 32 + sat 8 att * 2 ^ 56)
  (s.onCtx ctx (fun x => { x with run := x.queued, queued := none })).sendStart ctx
/-- STEP_COMPLETE (R236): once every parcel is committed and every expected one has come. -/
def doStepComplete (ctx : Nat) (s : State) : State :=
  match (s.ctx ctx).run with
  | none => s
  | some r =>
    if r.kind ≠ .step ∨ r.started = false ∨ r.ending ≠ none ∨ (s.ctx ctx).st = .fenced ∨ (s.ctx ctx).allThere s.myPos r.step = false then s else s.completed ctx r
/-- EVAL_START (R235). -/
def doEvalStart (h : Hdr) (handle tokens seed : Nat) (s : State) : State :=
  packet 0x0502 [1] false h s (fun s =>
    let c := h.ctx
    let x := s.ctx c
    match s.setFor c handle 2 with
    | none => refuse stBadParam s
    | some p =>
      check6 h s true
        (if x.run.isSome ∨ x.now.any StepNow.ended ∨ s.planRuns c then refuse stBusy s
         else .accept stAccepted .eval handle 0 (fun id s =>
          let s := s.onCtx c (fun x => { x with run := some { kind := .eval, handle := handle, seed := seed, tokens := tokens, long := id, cmdTag := h.tag, started := true } })
          s.issueStart c handle ((x.last + 1) % 2) (s.startBeat c h.cyc) p) s))
/-- STATE and attempt of STEP_STATUS. -/
def Ctx.stepState (x : Ctx) : Nat × Nat :=
  let att := (x.now.map StepNow.attempt).getD 0
  match x.run with
  | some r => if r.kind = .eval then (4, att) else if r.kind = .step then (if r.started then 1 else 2, r.attempt) else (if x.redoOf.isSome then 3 else 0, att)
  | none => (if x.now.any StepNow.ended then 3 else 0, att)
/-- STEP_STATUS. -/
def doStepStatus (h : Hdr) (s : State) : State :=
  packet 0x0503 [1] false h s (fun s =>
    let x := s.ctx h.ctx
    check6 h s true (.done stOk (x.last + x.stepState.1 * 2 ^ 32 + x.stepState.2 * 2 ^ 40) s))

/-! The meanings: one per command, each a frame around its effect. -/

/-- STEP_START (R352). -/
def execStepStart (h : Hdr) (step seed tokens lr handle : Nat) (s : State) : Out :=
  guarded "STEP_START" (.stepStart h step seed tokens lr handle) s (doStepStart h step seed tokens lr handle)
/-- STEP_BEGIN (R227). -/
def execStepBegin (ctx : Nat) (s : State) : Out :=
  guarded "STEP_BEGIN" (.stepBegin ctx) s (doStepBegin ctx)
/-- STEP_COMPLETE (R236). -/
def execStepComplete (ctx : Nat) (s : State) : Out :=
  guarded "STEP_COMPLETE" (.stepComplete ctx) s (doStepComplete ctx)
/-- EVAL_START (R235). -/
def execEvalStart (h : Hdr) (handle tokens seed : Nat) (s : State) : Out :=
  guarded "EVAL_START" (.evalStart h handle tokens seed) s (doEvalStart h handle tokens seed)
/-- STEP_STATUS (R352). -/
def execStepStatus (h : Hdr) (s : State) : Out :=
  guarded "STEP_STATUS" (.stepStatus h) s (doStepStatus h)

end Sys2Proof.Machine
end

