-- ==== Sys2Proof/Machine/MatrixCmd.lean ====
section
/-! DEFINITION. A command of a tile stream: when the stream issues it, and what issuing it does; the matrix instructions (spec 02, 03, 05). -/

namespace Sys2Proof.Machine

/-- A tile's stream issues: its region computes, the tile is not fenced nor in a zero-fill (R164) and runs a plan, its partition executes the beat, and the stream is
neither idle nor at SWP or END (R27, R145, R146, R404). -/
def State.issues (s : State) (t : Nat) (exe : Bool) : Bool :=
  let x := s.tile t
  let st := (x.stream exe).st
  decide ((s.region (t / 64)).cd = .on) && !x.fenced && x.running && decide (x.scrubEnd ≤ s.now) && !(s.ctx (s.ptag t)).part.held &&
    (decide (st = .issuing) || decide (st = .waiting))
/-- The engine an instruction's trace records name: the matrix unit, the vector chain, or the stream itself. -/
def TI.engine (ti : TI) (exe : Bool) : Nat := if ti.waitsMatrix then 0x010 else if ti.waitsVector then 0x020 else if exe then 0x031 else 0x030
/-- The events an offered instruction gives its tile's traces: its issue, after the end of a wait, or the beginning of a wait (R358). -/
def State.traceIssue (s : State) (h : IHdr) (ti : TI) (was : SState) (done : Bool) : State :=
  let u := uidTile h.tile (ti.engine h.exe)
  let st := s.stamp h.cyc
  if s.tr.traces = [] then s
  else if done then (if was = .waiting then s.traceEvent u st h.tag 2 else s).traceEvent u st h.tag 0
  else if was = .issuing then s.traceEvent u st h.tag 1
  else s
/-- A stream that comes to a word with an undefined opcode is BAD_INSTR, with the word's TAG (*Tile program fault classes*). -/
def Tile.badWord (t : Tile) (exe : Bool) : TFault :=
  ⟨fcBadInstr, if exe then 0x031 else 0x030, [], bits (t.wordAt exe) 119 104, (t.stream exe).otag⟩
/-- What a tile has made of an instruction offered to it, as its machine takes it. -/
def State.issued (s : State) (h : IHdr) (ti : TI) (was : SState) : Tile × Option TFault × Bool → State
  | (t, none, done) => (s.setTile h.tile t).traceIssue h ti was done
  | (t, some f, done) => (if done then (s.setTile h.tile t).traceIssue h ti was true else s.setTile h.tile t).tileFault h.tile h.cyc f
/-- A tile instruction offered by its stream: issued where the stream can, a fault reported where it raises one. A stream that cannot issue, or
waits behind another instruction, leaves the machine as it was but for what the tile counts of the wait. -/
def tileStep (h : IHdr) (ti : TI) (s : State) : State :=
  let s := (s.at h.cyc).landTile h.tile
  if s.issues h.tile h.exe = false then s
  else
    let x := (s.tile h.tile).enter (s.stamp h.cyc)
    if opUndefined (x.wordAt h.exe) then s.tileFault h.tile h.cyc (x.badWord h.exe)
    else if offers x h ti = false then s
    else s.issued h ti (x.stream h.exe).st (issue x h ti)

/-- Write MU_CFG (R46). -/
def doMcf (h : IHdr) (gang : Nat) (sati : Bool) : State → State := tileStep h (.mcf gang sati)
/-- Load the shadow set (R50). -/
def doMld (h : IHdr) (f : MldF) : State → State := tileStep h (.mld f)
/-- Swap the sets (R56). -/
def doMsw (h : IHdr) : State → State := tileStep h .msw
/-- Stream rows through the active set (R57). -/
def doMst (h : IHdr) (f : MstF) (u : Option Upset) : State → State := tileStep h (.mst f u)
/-- Drain accumulator rows (R67). -/
def doMdr (h : IHdr) (f : MdrF) : State → State := tileStep h (.mdr f)
/-- Load a converter setting (R82). -/
def doCvl (h : IHdr) (setting : Nat) (pb : Bool) (ag : Nat) (word : BitVec 64) : State → State := tileStep h (.cvl setting pb ag word)

/-! The meanings: one per command, each a frame around its effect. -/

/-- MCF (R46). -/
def execMcf (h : IHdr) (gang : Nat) (sati : Bool) (s : State) : Out :=
  guarded "MCF" (.mcf h gang sati) s (doMcf h gang sati)
/-- MLD (R50). -/
def execMld (h : IHdr) (f : MldF) (s : State) : Out :=
  guarded "MLD" (.mld h f) s (doMld h f)
/-- MSW (R56). -/
def execMsw (h : IHdr) (s : State) : Out :=
  guarded "MSW" (.msw h) s (doMsw h)
/-- MST (R57). -/
def execMst (h : IHdr) (f : MstF) (u : Option Upset) (s : State) : Out :=
  guarded "MST" (.mst h f u) s (doMst h f u)
/-- MDR (R67). -/
def execMdr (h : IHdr) (f : MdrF) (s : State) : Out :=
  guarded "MDR" (.mdr h f) s (doMdr h f)
/-- CVL (R82). -/
def execCvl (h : IHdr) (setting : Nat) (pb : Bool) (ag : Nat) (word : BitVec 64) (s : State) : Out :=
  guarded "CVL" (.cvl h setting pb ag word) s (doCvl h setting pb ag word)

end Sys2Proof.Machine
end

