-- ==== Sys2Proof/Machine/TileEvent.lean ====
section
/-! DEFINITION. Page swaps, watches over waits that never end, plan start and end, patrol and write-back of a tile (spec 05: R141 to R148; 06:
R161, R163). -/

namespace Sys2Proof.Machine

/-- Slot k of plan bank b. -/
def Tile.slot (t : Tile) (b k : Nat) : Nat := t.bank.get 0 (4096 * b + k)
/-- The header of bank b. -/
def Tile.hdr (t : Tile) (b : Nat) : PageHdr := readHdr (t.slot b 0) (t.slot b 1)
/-- Make the page in bank b active at stamp `now` (R142): the n chain configurations of CSMASK are copied, and both streams begin at cycle 4n, at
their sections with no loop active. -/
def Tile.activate (t : Tile) (b now : Nat) : Tile :=
  let h := t.hdr b
  let named := (List.range 16).filter (fun k => bit h.csmask k)
  let chain := named.zipIdx.foldl (fun (m : Tab Nat) p =>
    m.set 0 p.1 ((List.range 8).foldl (fun a j => a + t.slot b (h.csoff + 8 * p.2 + j) * 2 ^ (128 * j)) 0)) t.chain
  let go (s : Stream) (pos : Nat) : Stream :=
    { s with st := .issuing, wait := .none, pos := pos, loops := [], calls := [], issued := false, idleBeats := 0, held := none, heldWf := none
             nextAt := 0, stuckAll := false, stuckLast := false }
  { t with actb := b = 1, pend := false, chain := chain, planId := h.planId, work := h.work, page := h.page, pages := h.pages,
           swapLimit := if h.swapLimit = 0 then 1024 else h.swapLimit, stallLimit := if h.stallLimit = 0 then 1024 else h.stallLimit,
           swpBeats := none, running := true, startAt := now + 4 * named.length, sa := go t.sa h.aoff, se := go t.se h.eoff }
/-- Raise a stream's flag at the swap it waited for; FLAG_OVERFLOW carries that stream's TAG (R125, R126). -/
def Tile.swapFlag (exe : Bool) (f : Option Nat) (r : Tile × Option TFault) : Tile × Option TFault :=
  match r.2, f with
  | none, some k => match r.1.raiseFlag k with
    | some x => (x, none)
    | none => (r.1, some ⟨fcFlagOverflow, 0, [k], (r.1.stream exe).tag, (r.1.stream exe).otag⟩)
  | _, _ => r
/-- The tile runs in an executed beat. -/
def State.beatRuns (s : State) (t : Nat) : Bool :=
  decide ((s.region (t / 64)).cd = .on) && !(s.tile t).fenced && (s.tile t).running && !(s.ctx (s.ptag t)).part.held
/-- The tags of both streams as detail words. -/
def Tile.bothTags (t : Tile) : List Nat := [t.sa.tag, t.se.tag]
/-- The streams are at SWP with every instruction complete, and a page is pending (R145). -/
def Tile.atSwap (t : Tile) : Bool :=
  decide (t.sa.st = .atSwp) && decide (t.se.st = .atSwp) && t.sa.ops.isEmpty && t.se.ops.isEmpty && t.pend
/-- At cycle 000 of an executed beat whose start finds both streams at SWP and a complete page pending, the banks swap (R145); a pending header
that does not continue the plan, or breaks R141, is PLAN_HEADER. The flags of both SWPs are raised. -/
def doPageSwap (tile : Nat) (s : State) : State :=
  let t := (s.tile tile).enter s.now
  if s.clk.cycle ≠ 0 ∨ s.beatRuns tile = false ∨ t.atSwap = false then s
  else
    let b := t.pendb
    let h := t.hdr b
    if h.planId ≠ t.planId ∨ h.page ≠ t.page + 1 ∨ hdrOk (t.slot b) = false then
      s.tileFault tile 0 ⟨fcPlanHeader, 0, [], t.sa.tag, t.sa.otag⟩
    else
      match Tile.swapFlag true t.se.swpSet (Tile.swapFlag false t.sa.swpSet (t.activate b s.now, none)) with
      | (t, none) => s.setTile tile t
      | (t, some f) => (s.setTile tile t).tileFault tile 0 f
/-- SWAP_LIMIT executed beats have passed since the beat in which the first stream reached SWP (R145). -/
def doSwapTimeout (tile cyc : Nat) (s : State) : State :=
  let s := s.at cyc
  let t := s.tile tile
  if s.beatRuns tile ∧ t.swpBeats.any (fun n => decide (t.swapLimit < n)) then
    s.tileFault tile cyc ⟨fcSwapTimeout, 0, t.bothTags, t.sa.tag, t.sa.otag⟩
  else s
/-- Waiting on a flag, a queue, SWP or END (R147). -/
def Stream.stuck (s : Stream) : Bool :=
  s.st = .atSwp || s.st = .atEnd || (s.st = .waiting && s.wait = .flag) || s.ops.any Op.blocked
/-- That wait is on a flag or a queue. -/
def Stream.onFlagOrQueue (s : Stream) : Bool := (s.st = .waiting && s.wait = .flag) || s.ops.any Op.blocked
/-- The conditions of cross-wait over the executed beat before (R147). -/
def Tile.crossed (t : Tile) : Bool :=
  decide (t.sa.idleBeats ≠ 0) && decide (t.se.idleBeats ≠ 0) && t.sa.stuckLast && t.se.stuckLast && (t.sa.onFlagOrQueue || t.se.onFlagOrQueue) &&
    (t.sa.ops ++ t.se.ops).all Op.blocked
/-- CROSS_WAIT at cycle 000 (R147). -/
def doCrossWait (tile : Nat) (s : State) : State :=
  let t := s.tile tile
  if s.clk.cycle = 0 ∧ s.beatRuns tile ∧ t.crossed then
    s.tileFault tile 0 ⟨fcCrossWait, 0, t.bothTags, t.sa.tag, t.sa.otag⟩
  else s
/-- STALL_LIMIT executed beats without an issue, neither at SWP nor at END (R148). -/
def doStreamStall (tile : Nat) (exe : Bool) (cyc : Nat) (s : State) : State :=
  let s := s.at cyc
  let t := s.tile tile
  let x := t.stream exe
  if s.beatRuns tile ∧ x.st ≠ .atSwp ∧ x.st ≠ .atEnd ∧ x.st ≠ .idle ∧ t.stallLimit ≤ x.idleBeats then
    s.tileFault tile cyc ⟨fcStreamStall, if exe then 0x031 else 0x030, [], x.tag, x.otag⟩
  else s
/-- A start order for a tile whose beat has come. -/
def WPkt.startsTile (tile beat : Nat) (p : WPkt) : Bool := match p.msg with | .planStart t _ b _ => decide (t = tile) && decide (b ≤ beat) | _ => false
/-- The bank a start order names. -/
def WPkt.startBank (p : WPkt) : Nat := match p.msg with | .planStart _ _ _ k => k | _ => 0
/-- A start order for a tile of a context. -/
def State.startsCtx (s : State) (c : Nat) (p : WPkt) : Bool := match p.msg with | .planStart t _ _ _ => decide (s.ptag t = c) | _ => false
/-- Page 0 of a plan becomes active: every flag is 0 and every queue empty (R126, R127). A page delivered to the other bank stays pending. -/
def Tile.begins (t : Tile) (b now : Nat) : Tile := { (t.enter now).activate b now with pend := t.pend, flags := [], queues := [] }
/-- At a step's or evaluation's beat 0 the region controller writes CV_SEED from the seed and the page's work index and clears CV_SRCNT and
VC_SRCNT (R90, R114, R235), after any write of a stream in that cycle (R140). -/
def Tile.seeded (t : Tile) (seed : Nat) : Tile :=
  ((t.writeBy 2 0x09 (mix64 (BitVec.ofNat 64 seed ^^^ BitVec.ofNat 64 t.work)).toNat).writeBy 2 0x0A 0).writeBy 2 0x13 0
/-- The region controller's start order (R142): at cycle 000 of the named beat, if the tile has no plan under way, the page 0 that the Keeper
delivered becomes active. -/
def doPlanStart (tile : Nat) (s : State) : State :=
  if s.clk.cycle ≠ 0 then s
  else match s.take (WPkt.startsTile tile s.clk.beat) with
  | none => s
  | some (p, s') =>
    let t := s'.tile tile
    let c := s'.ptag tile
    if t.running ∨ t.fenced ∨ (s'.region (tile / 64)).cd ≠ .on ∨ t.planOk = false then s'
    else if (s'.ctx c).part.held ∨ s.now < t.scrubEnd then s
    else
      let t := t.begins p.startBank s.now
      s'.setTile tile (((s'.ctx c).run.filter (fun r => decide (r.kind ≠ .plain))).elim t (fun r => t.seeded r.seed))
/-- A tile reports plan end to its region controller over the Waggle network, stamped with the later END (R146). -/
def State.reportEnd (s : State) (tile : Nat) : State :=
  let t := s.tile tile
  let u := s.sendPkt (uidTile tile 0) (uidRc (tile / 64)) (.planEnd tile (max t.sa.endAt t.se.endAt)) true
  if u.2 then u.1.onRegion (tile / 64) (fun g => { g with planEnds := if g.planEnds.contains (tile % 64) then g.planEnds else g.planEnds ++ [tile % 64] }) else u.1
/-- Both streams have reached END: the tile reports plan end. When every tile that runs the plan is at END, a plain plan or an evaluation is over,
with its final reply; a step waits for its completion. -/
def doPlanEnd (tile cyc : Nat) (s : State) : State :=
  let s := s.at cyc
  let t := s.tile tile
  if t.sa.st ≠ .atEnd ∨ t.se.st ≠ .atEnd ∨ t.fenced then s
  else
    let c := s.ptag tile
    let s := (s.setTile tile { t with running := false, sa := { t.sa with st := .idle }, se := { t.se with st := .idle } }).reportEnd tile
    let left := (tilesOf (s.working c)).any (fun t => (s.tile t).running) ||
      s.waggle.any (s.startsCtx c)
    let idle (s : State) : State := s.onPart c (fun p => { p with seq := [], startAt := none, begun := false })
    match (s.ctx c).run with
    | some x =>
      if left ∨ x.ending ≠ none then s
      else if x.started = false then idle s
      else if x.kind = .step then idle (s.onCtx c (fun y => { y with run := some { x with planDone := true } }))
      else s.closeRun c stOk (sat 32 ((s.ctx c).part.planBeat + 1))
    | none => if left then s else idle s
/-- Patrol reads one word of every bank (R163): single byte errors corrected and queued for write-back, an uncorrectable word fences the
tile. Its record names no master: all ones (R409). -/
def doSpPatrol (tile : Nat) (s : State) : State :=
  let t := s.tile tile
  if (s.region (tile / 64)).cd ≠ .on ∨ t.fenced ∨ (s.ctx (s.ptag tile)).part.held then s
  else
    let row := t.patrol % 8192
    let t := { t with patrol := (row + 1) % 8192 }
    match checkWords 0xFFFFFFFF t ((t.errs.keys).filter (fun w => (t.map.place (32 * w)).2 = row)) with
    | .ok t _ => s.setTile tile t
    | .wait _ => s.setTile tile t
    | .fault t cls sub det => (s.setTile tile t).tileFault tile s.clk.cycle ⟨cls, sub, det, 0, 0⟩
/-- A corrected word of a bank is written back in a cycle no master requests (R161): its error is gone. A held beat gates it (R166). -/
def doSpCorrectionWriteback (tile bank : Nat) (s : State) : State :=
  if (s.ctx (s.ptag tile)).part.held then s else s.onTile tile (fun t =>
    match t.wback.find? (fun w => (t.map.place (32 * w)).1 = bank) with
    | some w => { t with wback := t.wback.filter (· ≠ w), errs := t.errs.del w }
    | none => t)

/-! The meanings: one per command, each a frame around its effect. -/

/-- PAGE_SWAP (R145). -/
def execPageSwap (tile : Nat) (s : State) : Out :=
  guarded "PAGE_SWAP" (.pageSwap tile) s (doPageSwap tile)
/-- SWAP_TIMEOUT (R145). -/
def execSwapTimeout (tile cyc : Nat) (s : State) : Out :=
  guarded "SWAP_TIMEOUT" (.swapTimeout tile cyc) s (doSwapTimeout tile cyc)
/-- CROSS_WAIT (R147). -/
def execCrossWait (tile : Nat) (s : State) : Out :=
  guarded "CROSS_WAIT" (.crossWait tile) s (doCrossWait tile)
/-- STREAM_STALL (R148). -/
def execStreamStall (tile : Nat) (exe : Bool) (cyc : Nat) (s : State) : Out :=
  guarded "STREAM_STALL" (.streamStall tile exe cyc) s (doStreamStall tile exe cyc)
/-- PLAN_START (R142). -/
def execPlanStart (tile : Nat) (s : State) : Out :=
  guarded "PLAN_START" (.planStart tile) s (doPlanStart tile)
/-- PLAN_END (R146). -/
def execPlanEnd (tile cyc : Nat) (s : State) : Out :=
  guarded "PLAN_END" (.planEnd tile cyc) s (doPlanEnd tile cyc)
/-- SP_PATROL (R163). -/
def execSpPatrol (tile : Nat) (s : State) : Out :=
  guarded "SP_PATROL" (.spPatrol tile) s (doSpPatrol tile)
/-- SP_CORRECTION_WRITEBACK (R161). -/
def execSpCorrectionWriteback (tile bank : Nat) (s : State) : Out :=
  guarded "SP_CORRECTION_WRITEBACK" (.spCorrectionWriteback tile bank) s (doSpCorrectionWriteback tile bank)

end Sys2Proof.Machine
end

