-- ==== Sys2Proof/Machine/Boundary.lean ====
section
/-! DEFINITION. The wafer beat boundary: the beat number, region states, clock and voltages, holds and plan beats, contexts, recovery, rim,
links, policy, tests (spec 01: R14, R22 to R28; spec 13: R322, R327, R332; spec 16: R389 to R394; spec 17: R410, R416; spec 18: R433). -/

namespace Sys2Proof.Machine

/-! The end of a beat. -/

/-- What a stream of a tile counts over an executed beat (R147, R148). -/
def Stream.countBeat (x : Stream) : Stream :=
  { x with issued := false, idleBeats := if x.issued then 0 else x.idleBeats + 1, stuckLast := x.stuckAll && x.stuck, stuckAll := x.stuck }
/-- What a running tile counts over an executed beat (R145, R148). -/
def Tile.countBeat (t : Tile) : Tile := { t with sa := t.sa.countBeat, se := t.se.countBeat, swpBeats := t.swpBeats.map (· + 1) }
/-- A held beat from stamp `now` on gates a stream: what it still waits for at the boundary comes 4096 cycles later (R27). -/
def Stream.gate (now : Nat) (x : Stream) : Stream := { x with nextAt := if now < x.nextAt then x.nextAt + 4096 else x.nextAt }
/-- The same of a tile. -/
def Tile.gate (now : Nat) (t : Tile) : Tile :=
  { t with startAt := if now < t.startAt then t.startAt + 4096 else t.startAt, sa := t.sa.gate now, se := t.se.gate now }
/-- The tiles of held partitions in the beat that begins. -/
def State.gateTiles (s : State) : State :=
  { s with tiles := s.tiles.mapV {} (fun i t => if (s.ctx (s.ptag i)).part.held then t.gate s.now else t) }
/-- What flits have come to tiles in the beat that ends (R169). -/
def State.landAll (s : State) : State := (s.tiles.map Prod.fst).foldl State.landTile (s.at 0xFFF)
/-- The beat that ends is counted: by tiles whose plan ran in it, and into the interval of a step (R236). -/
def State.endBeat (s : State) : State :=
  { s with
    tiles := s.tiles.mapV {} (fun i t => if s.beatRuns i then t.countBeat else t)
    ctxs := s.ctxs.mapV {} (fun _ x => if x.run.any (fun r => decide (r.kind = .step) && r.started) then x.countBeat else x) }
/-- A link at the end of a beat that took `len` thirds of a nanosecond and ended at `wall`: bytes into the 10 ms slice, credits and time waited
for (R285, R400). -/
def Link.endBeat (len wall : Nat) (l : Link) : Link :=
  let n := l.slice + l.beatBytes.foldl (fun a p => a + p.2) 0
  let k := (wall - l.sliceAt) / thirds 10
  let wait (t : Tab Nat) (d : Nat) : Tab Nat := [0, 1, 2, 3].foldl (fun (t : Tab Nat) v => if l.queue.any (fun p => decide (p.vc = v)) then t.upd 0 v (· + d) else t.set 0 v 0) t
  { l with beatBytes := [], slice := if k = 0 then n else 0, slicePrev := if k = 0 then l.slicePrev else if k = 1 then n else 0, sliceAt := l.sliceAt + k * thirds 10
           starve := wait l.starve 1, waits := wait l.waits len }
/-- A stack controller at the boundary: RIM_CONFIG in force, the beat's grants counted anew, the last forecast's reservations over (R218, R220, R387). -/
def Sc.newBeat (b : Nat) (k : Sc) : Sc :=
  { k with rg := k.rgNext.getD k.rg, rgNext := none, rd := k.rdNext.getD k.rd, rdNext := none, beatGr := [], lowGr := 0, reserved := [], orders := k.orders.filter (fun o => decide (b ≤ o.beat)) }

/-! Clock and regions. -/

/-- What the spread has held the synthesiser back by at time `t`, in thirds of a nanosecond (R23): the integral of a triangle between 0 and 0.5 %
with the period of 31.5 kHz, which is 2,000,000 units of 1/21 of them. The phase is free (entry 4). -/
def spreadLag (t : Nat) : Nat :=
  let x := 21 * t + Config.spreadPhase
  let r := x % 2000000
  (5000 * (x / 2000000) + (if r ≤ 1000000 then r * r / 400000000 else 5000 - (2000000 - r) * (2000000 - r) / 400000000)) / 21
/-- The length of a beat of `base` that begins at time t under the spread: what the lag adds, and what it adds within that. -/
def spreadLen (t base : Nat) : Nat :=
  let x := spreadLag (t + base) - spreadLag t
  base + (spreadLag (t + base + x) - spreadLag t)
/-- How long the beat that ends has lasted, in thirds of a nanosecond (R22, R23). -/
def State.beatLen (s : State) : Nat := if s.clk.spread then spreadLen s.clk.wall (128 * s.clk.m) else 128 * s.clk.m
/-- The orders due at beat b: the longest period of them; a shorter one than now waits for the voltages (R25). -/
def State.dueStretch (s : State) (b : Nat) : Option Nat :=
  match s.clk.stretch.filter (fun o => decide (o.2 ≤ b)) with
  | [] => none
  | o :: os => let m := os.foldl (fun a q => max a q.1) o.1
    if m < s.clk.m ∧ s.voltReady m = false then none else some m
/-- Cycle 000 of the next beat. -/
def State.tickClock (s : State) : State :=
  let b := s.clk.beat + 1
  let due := s.dueStretch b
  { s with clk := { s.clk with
      beat := b, cycle := 0, wall := s.clk.wall + s.beatLen, m := due.getD s.clk.m
      stretch := if due.isSome then s.clk.stretch.filter (fun o => decide (b < o.2)) else s.clk.stretch
      spread := s.clk.spreadNext.getD s.clk.spread, spreadNext := none } }
/-- A region at the boundary: its next state, its domain off, a setpoint raised after a droop or set for a longer period, its controller back
from its reset (R14, R383, R392, R420). `old` is the period before. -/
def Region.newBeat (b old m r : Nat) (g : Region) : Region :=
  let st := (g.next.map Prod.fst).getD g.st
  let up := g.droopSeen && decide (g.vset < 900)
  let v := if old < m then Config.voltTable m r else g.vset
  { g with
    st := st, peer := (g.next.map Prod.snd).getD g.peer, next := none
    cd := if g.cd = .switchingOff then .off else g.cd
    vset := if up then v + 5 else v, droopSeen := false, win := if up ∨ v ≠ g.vset then { g.win with vsteps := g.win.vsteps + 1 } else g.win
    vready := if old = m then g.vready else m
    rcFenced := g.rcFenced && decide (st = .transitLost), grantor := if g.rcFenced ∧ st ≠ .transitLost then none else g.grantor
    orders := g.orders.filter (fun o => decide (b ≤ o.beat)) }
/-- The routers of regions in transit-lost state: their entries are lost (R183). -/
def State.loseRoutes (s : State) : State :=
  { s with routers := s.routers.mapV {} (fun i x => if (s.region (i / 64)).st = .transitLost then { x with routes := [] } else x) }
/-- A region at the boundary; the setpoint of one under test is its test's (R434). -/
def State.regionBeat (s : State) (old r : Nat) (g : Region) : Region :=
  let g' := g.newBeat s.clk.beat old s.clk.m r
  if s.regionTested r then { g' with vset := g.vset } else g'
/-- The regions at the boundary; one that a Waggle packet could not reach is lost (R421). -/
def State.tickRegions (s : State) (old : Nat) : State :=
  let s := (allRegions.foldl (fun (s1 : State) r => s1.onRegion r (s.regionBeat old r)) s).loseRoutes
  (allRegions.filter (fun r => (s.region r).unreached)).foldl (fun (s : State) r => (s.onRegion r (fun g => { g with unreached := false })).loseTransit r) s

/-! Contexts (R322, R327, R332). -/

/-- A context that opens: grant, generation and group block as they are, everything else new (R322, R387). -/
def Ctx.open_ (x : Ctx) : Ctx := { w0 := x.w0, w1 := x.w1, w2 := x.w2, w3 := x.w3, gen := x.gen, gblk := x.gblk, st := .opened }
/-- CTX_FENCE acts. -/
def State.fenceCtx (s : State) (c id : Nat) : State :=
  let s := s.onTiles (s.working c) (fun t => { t with fenced := true, sa := { t.sa with ops := [] }, se := { t.se with ops := [] } })
  let s := (s.abortStreams 6 (fun q => decide (q.ctx = c))).dropReds c
  let s := s.reclaim (fun l => decide (l.ctx = c))
  let s := s.onCtx c (fun x => { x with st := .fenced, fencing := none, part := { x.part with holds := x.part.holds ++ [⟨uidKeeper, .fence, s.clk.beat⟩], next := some true } })
  s.finish id stOk 0
/-- Changes of state of a context. -/
def State.tickCtx (s : State) (c : Nat) : State :=
  let s := s.onCtx c (fun x => { x with prioOld := none })
  let x := s.ctx c
  if x.st = .closing then (if s.binds.any (fun o => decide (o.ctx = c)) then s else s.endClose c)
  else match x.opening with
    | some (d, id) =>
      if x.st = .closed then (((s.onCtx c Ctx.open_).startFromMem c d).finish id stOk 0) else (s.onCtx c (fun x => { x with opening := none })).finish id stDenied 0
    | none => match x.fencing with
      | some id => if x.st = .opened then s.fenceCtx c id else s.onCtx c (fun x => { x with fencing := none })
      | none => s

/-! Partitions (R26 to R28, R173, R410). -/

/-- A hold message of a context is on its way. -/
def State.holdInFlight (s : State) (c : Nat) : Bool := s.waggle.any (fun p => match p.msg with | .hold k _ _ => decide (k = c) | _ => false)
/-- The partition of a context in the new beat: held or executed as decided, else by its requests; a partition whose lead is out is held. -/
def State.tickPart (s : State) (c : Nat) : State :=
  let b := s.clk.beat
  match s.lead c with
  | none => s.onPart c (fun p => { p with next := none })
  | some r =>
    let p := (s.ctx c).part
    let held := p.next.getD (s.rcOut r || p.holds.any (fun h => decide (h.beat ≤ b)))
    let quiet := p.holds.isEmpty && !s.holdInFlight c
    let begins := decide (held = false) && p.startAt.any (fun a => decide (a ≤ b))
    let s := s.onPart c (fun p => { p with
      held := held, next := none, heldBeats := if held then p.heldBeats + 1 else 0, timedOut := p.timedOut && held
      begun := p.begun || begins, planBeat := if begins ∧ p.begun then p.planBeat + 1 else p.planBeat
      first := match p.first with
        | some f => if held then some { f with heldAt := some (f.heldAt.getD b) } else if f.heldAt.isSome ∨ quiet then none else some f
        | none => none })
    if begins ∧ p.begun = false ∧ (s.ctx c).run.any (fun r => decide (r.kind = .eval)) then s.onCtx c (fun x => x.evalLedger b) else s

/-! Recovery (R378, R411, R414, R416). -/

/-- A fault of tile t waits for its repetition. -/
def State.repPending (s : State) (t : Nat) : Bool := s.log.reps.any (fun p => decide (uClass p.rep.unit = 1) && decide (uTile p.rep.unit = t))
/-- Tile t is fenced by a fault: not for a test. -/
def State.faulted (s : State) (t : Nat) : Bool := (s.tile t).fenced && !s.tr.tests.any (fun u => u.running && decide (u.unit = uidCluster (t / 64) (t / 16 % 4)))
/-- The site of tile t is to be shadowed: its cluster's remap takes the tile out of its fence. -/
def State.toRemap (s : State) (t : Nat) : Bool := (s.siteAt t).any (fun n => (s.region (t / 64)).badNext.contains n)
/-- Fenced tiles of a held partition that wait for nothing else are reset. -/
def State.resetFaulted (s : State) (c : Nat) : State :=
  let ts := (tilesOf (s.working c)).filter (fun t => s.faulted t && !s.repPending t && !s.toRemap t && !s.resets.any (fun o => s.covers o 0 t))
  ts.foldl (fun s t => s.orderReset 0 t [] true) s
/-- Tiles on new sites have the kept library and map (R416). -/
def State.refillMoved (s : State) (c : Nat) : State :=
  let x := s.ctx c
  { s with tiles := (tilesOf (s.working c)).foldl (fun (ts : Tab Tile) t => if (ts.get {} t).moved then ts.upd {} t x.refill else ts) s.tiles }
/-- What recovery does for a context at a boundary: resets of fenced tiles once the hold is in force; with no tile fenced any more, a run that
has ended has its final reply, PLAN_ABORT its own, and the fences' hold goes. -/
def State.recover (s : State) (c : Nat) : State :=
  let x := s.ctx c
  if x.st = .fenced then s
  else
    let ts := tilesOf (s.working c)
    let dirty := ts.any s.faulted || ts.any s.repPending
    if dirty then (if x.part.held then s.resetFaulted c else s)
    else match x.run with
      | some r => match r.ending with
        | some e =>
          if x.part.held ∨ (s.lead c).isNone then
            let s := (s.refillMoved c).closeEnded c e
            let ids := (s.long.filter (fun l => decide (l.job = .planAbort) && decide (l.a = c))).map Long.id
            s.finishAll ids stOk 0
          else s
        | none => if r.started then s else s.refillMoved c
      | none => (s.onPart c (fun p => { p with holds := p.holds.filter (fun h => decide (h.why ≠ .fence)) })).refillMoved c

/-! Policy and pod. -/

/-- POWER_POLICY and the pod allowance in force, and CLOCK_SETs whose setting now is (R22, R389, R394). -/
def State.tickGov (s : State) : State :=
  let g := s.gov
  let a := g.podNext.getD g.podAllow
  let g := { g with podAllow := a, podNext := none }
  let g : Gov := match g.policyNext with
    | some (cap, share) => { g with cmod := cap, share := share, podAllow := if share = g.share then a else share, policyNext := none }
    | none => g
  let s := { s with gov := g }
  if s.gov.mmin ≤ s.clk.m then ({ s with gov := { s.gov with clockSet := [] } }).finishAll g.clockSet stOk 0 else s
/-- A pod configuration is in force once every context has come to its step boundary (R282). -/
def State.tickPod (s : State) : State :=
  match s.pod.pending with
  | none => s
  | some (c, _) =>
    if s.ctxs.any (fun p => p.2.oldPod) then s
    else
      let ids := (s.long.filter (fun l => decide (l.job = .podConfig))).map Long.id
      ({ s with pod := { s.pod with cfg := some c, pending := none, peers := [] } }).finishAll ids stOk 0

/-- The final replies of commands whose zero-fill has ended (R330, R349). -/
def State.fillsOver (s : State) : State := s.finishAll ((s.long.filter (fun l => decide (l.job = .fill) && decide (l.a ≤ s.now))).map Long.id) stOk 0
/-- BEAT_BOUNDARY. While no wafer is powered no beat is counted: Keeper time alone goes on. -/
def doBeatBoundary (s : State) : State :=
  if s.tr.wafer = false then { s with clk := { s.clk with cycle := 0, wall := s.clk.wall + s.beatLen } }.helloLate
  else
    let old := s.clk.m
    let len := s.beatLen
    let s := s.landAll.endBeat.tickClock
    let b := s.clk.beat
    let s := { s with
      links := s.links.mapV {} (fun _ l => l.endBeat len s.clk.wall)
      scs := s.scs.mapV {} (fun _ k => k.newBeat b)
      hubs := s.hubs.mapV {} (fun _ h => { h with resends := [] })
      fly := s.fly.filter (fun f => decide (b ≤ f.beat)) }
    let s := s.tickRegions old
    let cs := s.ctxs.map Prod.fst
    let s := cs.foldl State.tickCtx s
    let us := (s.ctxs.map Prod.fst).filter isUser
    let s := (us.foldl State.tickPart s).gateTiles
    let s := us.foldl State.recover s
    let s := s.tickGov.tickPod.helloLate.fillsOver
    let s := ((s.abortTests).scanTests).closeTests
    if b % 1024 = 0 then s.epochs else s

/-! The meanings: one per command, each a frame around its effect. -/

/-- BEAT_BOUNDARY (R14). -/
def execBeatBoundary (s : State) : Out :=
  guarded "BEAT_BOUNDARY" (.beatBoundary) s (doBeatBoundary)

end Sys2Proof.Machine
end

