-- ==== Sys2Proof/Machine/CtxCmd.lean ====
section
/-! DEFINITION. Context commands and protection changes (spec 13: R322 to R327, R332; spec 14: R346, R359). -/

namespace Sys2Proof.Machine

/-- CTX_OPEN (R322, R302): in force at the next boundary, or queued behind a close. -/
def doCtxOpen (h : Hdr) (d : Words8) (s : State) : State :=
  packet 0x0101 [3] true h s (fun s =>
    let c := h.ctx
    let x := s.ctx c
    if c = 0 ∨ x.st = .ungranted then refuse stDenied s
    else check6 h s (ringDescOk s.ha.msixSize d)
      (if x.st = .opened ∨ x.st = .fenced ∨ x.queuedOpen.isSome ∨ x.opening.isSome then refuse stBusy s
       else if x.st = .closing then .accept stDeferred .ctxOpen c 0 (fun id s => s.onCtx c (fun x => { x with queuedOpen := some (d, id) })) s
       else .later .ctxOpen c 0 (fun id s => s.onCtx c (fun x => { x with opening := some (d, id) })) s))
/-- CTX_CLOSE (R322): revokes everything, or joins the close in progress. -/
def doCtxClose (h : Hdr) (s : State) : State :=
  packet 0x0102 [1] true h s (fun s =>
    let c := h.ctx
    let x := s.ctx c
    if c = 0 then refuse stDenied s
    else check6 h s true
      (if x.st = .closed ∨ x.st = .ungranted then refuse stBusy s
       else .accept stAccepted .ctxClose c 0 (fun _ s => if x.st = .closing then s else s.beginClose c false) s))
/-- CTX_FENCE (R332, R325): signatures, then GEN, then the state; it acts at the next boundary. -/
def doCtxFence (h : Hdr) (gen : Nat) (b : SigBlk) (s : State) : State :=
  packet 0x0103 [5] true h s (fun s =>
    let c := h.ctx
    let x := s.ctx c
    if c = 0 then refuse stDenied s
    else if s.tr.blocksOk none (s.tr.statement 2 c gen []) [b] = false then refuse stSignature s
    else if h.rsv = false then refuse stBadParam s
    else if gen ≠ x.gen.toNat then .done stBadParam x.gen.toNat s
    else if x.st ≠ .opened ∨ x.fencing.isSome then refuse stBusy s
    else .accept stAccepted .ctxFence c 0 (fun id s => s.onCtx c (fun x => { x with fencing := some id, gen := x.gen + 1 })) (s.protRec h 2 c (x.gen + 1).toNat [b] false []))
/-- CTX_READ (R323). -/
def doCtxRead (h : Hdr) (first count : Nat) (x : DRef) (s : State) : State :=
  packet 0x0104 [1] true h s (fun s =>
    writeOut h x s (decide (1 ≤ count) && decide (first + count ≤ 1024)) ((List.range count).flatMap (fun i => s.ctxRecord (first + i))))

/-! Protection changes (R325 to R327). -/

/-- The 32 bytes of new words 0 to 3. -/
def newWords (n0 n1 n2 n3 : BitVec 64) : List Byte := [n0, n1, n2, n3].flatMap (fun w => leBytes 8 w.toNat)
/-- STATE, GEN and the reserved bits of new words are 0. -/
def newWordsOk (n0 n2 : BitVec 64) : Bool := decide (bits n0.toNat 62 60 = 0) && decide (bits n0.toNat 51 0 = 0) && decide (bits n2.toNat 15 0 = 0)
/-- EXPORT is gone: HV is cleared on every extent of the context, and their window pages are unmapped. -/
def State.hideExtents (s : State) (c : Nat) : State :=
  (s.extents.filter (fun p => decide (p.2.ctx = c) && p.2.hv)).foldl (fun s p => (s.setExt p.1 { p.2 with hv := false }).setWin p.1 0) s
/-- The new grant, with GEN advanced; an ungranted context becomes closed by V, a closed one ungranted by its loss. -/
def State.applyGrant (s : State) (c : Nat) (n0 n1 n2 n3 : BitVec 64) : State :=
  let x := s.ctx c
  let s := s.onCtx c (fun x => { x with
    prioOld := if bits x.w0.toNat 59 57 = bits n0.toNat 59 57 then x.prioOld else some x.prio
    w0 := n0, w1 := n1, w2 := n2, w3 := n3, gen := x.gen + 1
    st := if bit n0.toNat 63 then (if x.st = .ungranted then .closed else x.st) else if x.st = .closed then .ungranted else x.st })
  if x.export_ ∧ bit n0.toNat 56 = false then s.hideExtents c else s
/-- The orders a narrowing of REGMASK or GQ gives, with its reply. -/
def State.narrowOrders (s : State) (c id : Nat) : List BindOrd :=
  let x := s.ctx c
  let o (kind idx : Nat) : BindOrd := ⟨some id, kind, idx, c, true, s.effectBeat kind s.clk.cycle, none⟩
  (allRegions.filter (fun r => decide (s.willHold 0 r = some c) && !x.mayHold r)).map (o 0) ++
    (if x.gq then [] else (s.groupToBe c).toList.map (o 3))
/-- PROT_CHANGE (R325 to R327). -/
def doProtChange (h : Hdr) (ctx gen : Nat) (n0 n1 n2 n3 : BitVec 64) (blks : List SigBlk) (s : State) : State :=
  packet 0x0B01 ([6, 10].filter (fun l => decide (l = 2 + 4 * blks.length))) true h s (fun s =>
    let x := s.ctx ctx
    let stmt := s.tr.statement 1 ctx gen (sha384 (newWords n0 n1 n2 n3))
    let widen := widening x.grant ⟨n0.toNat, n1.toNat, n2.toNat, n3.toNat⟩
    let need := if widen then 2 else 1
    if ctx = 0 ∨ h.mgmt then refuse stDenied s
    else if s.tr.blocksOk none stmt blks = false ∨ officersIn blks < need then refuse stSignature s
    else if h.rsv = false ∨ 1024 ≤ ctx ∨ newWordsOk n0 n2 = false then refuse stBadParam s
    else if gen ≠ x.gen.toNat then .done stBadParam x.gen.toNat s
    else
      let s := (s.applyGrant ctx n0 n1 n2 n3).protRec h 1 ctx (x.gen + 1).toNat blks widen (newWords n0 n1 n2 n3)
      if bit n0.toNat 63 = false ∧ (x.st = .opened ∨ x.st = .fenced ∨ x.st = .closing) then
        .accept stAccepted .protChange ctx 1 (fun _ s => if x.st = .closing then s.onCtx ctx (fun x => { x with toUngranted := true }) else s.beginClose ctx true) s
      else if s.narrowOrders ctx 0 = [] then .done stOk 0 s
      else .accept stAccepted .protChange ctx 0 (fun id s => { s with binds := s.binds ++ s.narrowOrders ctx id }) s)

/-! The meanings: one per command, each a frame around its effect. -/

/-- CTX_OPEN (R322). -/
def execCtxOpen (h : Hdr) (d : Words8) (s : State) : Out :=
  guarded "CTX_OPEN" (.ctxOpen h d) s (doCtxOpen h d)
/-- CTX_CLOSE (R322). -/
def execCtxClose (h : Hdr) (s : State) : Out :=
  guarded "CTX_CLOSE" (.ctxClose h) s (doCtxClose h)
/-- CTX_FENCE (R332). -/
def execCtxFence (h : Hdr) (gen : Nat) (b : SigBlk) (s : State) : Out :=
  guarded "CTX_FENCE" (.ctxFence h gen b) s (doCtxFence h gen b)
/-- CTX_READ (R346). -/
def execCtxRead (h : Hdr) (first count : Nat) (x : DRef) (s : State) : Out :=
  guarded "CTX_READ" (.ctxRead h first count x) s (doCtxRead h first count x)
/-- PROT_CHANGE (R325). -/
def execProtChange (h : Hdr) (ctx gen : Nat) (n0 n1 n2 n3 : BitVec 64) (blks : List SigBlk) (s : State) : Out :=
  guarded "PROT_CHANGE" (.protChange h ctx gen n0 n1 n2 n3 blks) s (doProtChange h ctx gen n0 n1 n2 n3 blks)

end Sys2Proof.Machine
end

