-- ==== Sys2Proof/Machine/Fabric.lean ====
section
/-! DEFINITION. Links in service and control messages: acknowledgements, retraining, narrowing, credit stalls, HELLO, beat epochs, capsules,
step starts and norms (spec 11: R279 to R294; spec 01: R39). -/

namespace Sys2Proof.Machine

/-- Bytes of a LINK packet: header, 12 bytes of payload, CRC (R283). -/
def linkPktBytes : Nat := 40
/-- BEAT_EPOCH in service: the region controllers run, so it is ignored and logged (R290); so is one from a position that is not the master's
once a pod configuration is in force (R39). A module still in its boot adopts the number. -/
def doBeatEpoch (f : FHdr) (beat : Nat) (s : State) : State :=
  s.fabricIn f 0 [f.len] (fun s =>
    let k := s.clk
    let fromMaster := s.pod.cfg.all (fun p => decide (p.master = f.spos))
    if k.mode.cable ∧ k.mode.master = false ∧ fromMaster ∧ k.adopted = false ∧ s.tr.boot ≠ .ready then
      { s with clk := { k with beat := beat, adopted := true } }.beatEvent 2 k.beat beat
    else s.beatEvent 3 k.beat beat)

/-! Capsule transfers (R283). -/

/-- CAPSULE: a unit of a transfer takes its place, and the units received are acknowledged. -/
def doCapsule (f : FHdr) (transfer off total : Nat) (data : List Byte) (s : State) : State :=
  s.fabricIn f 3 [2064] (fun s =>
    if total ≤ off then s
    else
      let old := s.pod.capIn.get [] transfer
      let new := fitBytes (max old.length (2048 * (off + 1))) (fitBytes (2048 * off) old ++ fitBytes 2048 data ++ old.drop (2048 * (off + 1)))
      let s := { s with pod := { s.pod with capIn := s.pod.capIn.set [] transfer new } }
      s.lsend f.link ⟨0, 8, f.ctx, f.spos, leBytes 4 transfer ++ leBytes 4 (new.length / 2048) ++ leBytes 1 0 ++ leBytes 7 0⟩)
/-- CAPSULE_ACK: the units a peer has of a transfer. -/
def doCapsuleAck (f : FHdr) (transfer units status : Nat) (s : State) : State :=
  s.fabricIn f 0 [16] (fun s =>
    if status = 0 then { s with pod := { s.pod with capOut := s.pod.capOut.upd 0 transfer (max units) } } else s)

/-! Acknowledgement, replay, retraining (R284 to R286, R292). -/

/-- A link that has taken in its peer's LINK packet: acknowledged packets leave the replay buffer, a NAK resends the rest, credits return. -/
def Link.linkIn (ack : Nat) (nak : Bool) (credits : List Nat) (wall : Nat) (l : Link) : Link :=
  let rest := l.replay.filter (fun p => decide (32768 ≤ (ack + 65536 - p.lseq) % 65536))
  let back := if nak then rest.foldl (fun a p => a + pktBytes p.p.body.length) 0 else 0
  let cs := credits.zipIdx
  { l with
    replay := if nak then rest.map (fun p => { p with resends := p.resends + 1 }) else rest
    replays := if nak then l.replays + BitVec.ofNat 32 rest.length else l.replays
    tx := l.tx + BitVec.ofNat 48 back
    credit := cs.foldl (fun (t : Tab Nat) q => t.upd 0 q.2 (· + q.1)) l.credit
    starve := cs.foldl (fun (t : Tab Nat) q => if q.1 = 0 then t else t.set 0 q.2 0) l.starve
    rx := l.rx + BitVec.ofNat 48 linkPktBytes, lastRx := wall
    beatBytes := l.beatBytes.upd 0 0 (· + linkPktBytes) }
/-- The module at a position of a pod is heard from, where the pod is the module's own. -/
def State.hearPeer (s : State) (pod pos : Nat) : State :=
  if pod = s.myPod ∧ pos < 65 then { s with pod := { s.pod with peers := s.pod.peers.upd {} pos (fun p => { p with lost := false }) } } else s
/-- LINK from the peer (R284, R285). -/
def doLink (n ack : Nat) (nak : Bool) (credits : List Nat) (bad : Bool) (s : State) : State :=
  let l := s.link n
  if l.st ≠ 3 ∨ l.narrowing.isSome ∨ bad then s
  else ((s.onLink n (Link.linkIn ack nak credits s.clk.wall)).hearPeer l.ppod l.ppos).pumpLink n
/-- The module's own LINK packet: what it has received, its NAK, and the credits its receiver buffers return (R284, R285); those of VC 1
to 3 wait for the end of a module warm reset (R382). -/
def doLinkAckSend (n : Nat) (s : State) : State :=
  let l := s.link n
  if l.st ≠ 3 ∨ l.narrowing.isSome then s
  else s.onLink n (fun l => { l with rxCredit := if s.ha.warm then l.rxCredit.filter (fun c => decide (c.1 ≠ 0)) else [], rxNak := false, tx := l.tx + BitVec.ofNat 48 linkPktBytes
                                     beatBytes := l.beatBytes.upd 0 0 (· + linkPktBytes) })
/-- A link that keeps failing retrains in place (R286). -/
def doLinkRetrainInService (n fecWindow : Nat) (s : State) : State :=
  let l := s.link n
  if l.st ≠ 3 then s
  else
    let s := s.onLink n (fun l => { l with fecUnc := l.fecUnc + BitVec.ofNat 32 fecWindow })
    if (l.replay.any (fun p => decide (8 ≤ p.resends)) ∨ 1024 < fecWindow) ∧ l.narrowing.isNone then
      (s.onLink n (fun l => { l with retrains := l.retrains + 1, replay := l.replay.map (fun p => { p with resends := 0 }) })).beginRetrain n
    else s
/-- A retraining ends (R286); a link under test stays as it is (R431). -/
def doLinkRetrainComplete (n : Nat) (t : Trained) (s : State) : State := if (s.link n).st = 4 ∧ (s.link n).hello.isNone ∧ s.tr.tests.all (fun x => !x.running || decide (x.unit ≠ uidLink n)) then s.endTraining n t else s
/-- A link whose narrowing has taken effect: the mode its caps give, or excluded where they leave none (R292). -/
def Link.narrow (l : Link) : Link :=
  if l.mode.1 = 0 then { l.exclude with widen := l.widen } else { l with width := l.mode.1, half := l.mode.2.1, lmask := l.mode.2.2, narrowing := none }
/-- A narrowing has taken effect; a widening that waited behind it begins (R292). -/
def doLinkNarrowingComplete (n : Nat) (s : State) : State :=
  let l := s.link n
  match l.narrowing with
  | none => s
  | some ids =>
    let s := (s.setLink n Link.narrow).finishAll ids stOk 0
    match l.widen with
    | none => s.pumpLink n
    | some w => (s.onLink n (fun l => { l with widen := none })).capLink n (fun l => { l with cfg := BitVec.ofNat 32 w.1 }) w.2
/-- A VC has had no credit for 65,536 beats with a packet waiting (R285). -/
def doFabricCreditStall (n vc : Nat) (s : State) : State :=
  let l := s.link n
  if l.st = 3 ∧ 65536 ≤ l.starve.get 0 vc ∧ l.queue.any (fun p => p.vc = vc) then
    (s.onLink n (fun l => { l with starve := l.starve.set 0 vc 0 })).keeperFault fcFabricCreditStall (uidLink n) 0 0 [vc]
  else s
/-- HELLO (R279, R288): a link that has waited for it in time comes up, with its peer in the topology record; one that is up has its entry
filled. -/
def doHello (n pod pos plink pidh : Nat) (s : State) : State :=
  let l := s.link n
  match l.hello with
  | some q => if q.2 < s.clk.wall then s else s.endTraining n { q.1 with hello := true, pod := pod, pos := pos, plink := plink, pidh := pidh }
  | none => if l.st = 3 ∨ l.st = 4 then s.setLink n (fun l => { l with ppod := pod, ppos := pos, plink := plink, pidh := pidh }) else s

/-! Steps and norms (R289). -/

/-- STEP_START from a position. -/
def doStepStartMessage (f : FHdr) (step attempt scale freeze : Nat) (s : State) : State :=
  s.fabricIn f 0 [f.len] (startIn f.ctx f.spos step attempt scale freeze)
/-- 65,536 beats after its own message a module still lacks another's (R289). -/
def doStepSyncTimeout (ctx : Nat) (s : State) : State :=
  let x := s.ctx ctx
  match x.waiting, x.ownStart with
  | some r, some o =>
    let miss := x.missing s.myPos r
    if o.1 + 65536 ≤ s.clk.beat ∧ miss ≠ [] then s.refuseStart ctx fcStepSyncTimeout miss else s
  | _, _ => s
/-- NORM from a position. -/
def doNorm (f : FHdr) (step : Nat) (v : BitVec 64) (s : State) : State := s.fabricIn f 0 [f.len] (normIn f.ctx f.spos step v)

/-! The meanings: one per command, each a frame around its effect. -/

/-- BEAT_EPOCH (R290). -/
def execBeatEpoch (f : FHdr) (beat : Nat) (s : State) : Out :=
  guarded "BEAT_EPOCH" (.beatEpoch f beat) s (doBeatEpoch f beat)
/-- CAPSULE (R283). -/
def execCapsule (f : FHdr) (transfer off total : Nat) (data : List Byte) (s : State) : Out :=
  guarded "CAPSULE" (.capsule f transfer off total data) s (doCapsule f transfer off total data)
/-- CAPSULE_ACK (R283). -/
def execCapsuleAck (f : FHdr) (transfer units status : Nat) (s : State) : Out :=
  guarded "CAPSULE_ACK" (.capsuleAck f transfer units status) s (doCapsuleAck f transfer units status)
/-- LINK (R284). -/
def execLink (n ack : Nat) (nak : Bool) (credits : List Nat) (bad : Bool) (s : State) : Out :=
  guarded "LINK" (.link n ack nak credits bad) s (doLink n ack nak credits bad)
/-- LINK_RETRAIN_IN_SERVICE (R286). -/
def execLinkRetrainInService (n fecWindow : Nat) (s : State) : Out :=
  guarded "LINK_RETRAIN_IN_SERVICE" (.linkRetrainInService n fecWindow) s (doLinkRetrainInService n fecWindow)
/-- LINK_RETRAIN_COMPLETE (R286). -/
def execLinkRetrainComplete (n : Nat) (t : Trained) (s : State) : Out :=
  guarded "LINK_RETRAIN_COMPLETE" (.linkRetrainComplete n t) s (doLinkRetrainComplete n t)
/-- FABRIC_CREDIT_STALL (R285). -/
def execFabricCreditStall (n vc : Nat) (s : State) : Out :=
  guarded "FABRIC_CREDIT_STALL" (.fabricCreditStall n vc) s (doFabricCreditStall n vc)
/-- HELLO (R279). -/
def execHello (n pod pos plink pidh : Nat) (s : State) : Out :=
  guarded "HELLO" (.hello n pod pos plink pidh) s (doHello n pod pos plink pidh)
/-- STEP_START_MESSAGE (R289). -/
def execStepStartMessage (f : FHdr) (step attempt scale freeze : Nat) (s : State) : Out :=
  guarded "STEP_START_MESSAGE" (.stepStartMessage f step attempt scale freeze) s (doStepStartMessage f step attempt scale freeze)
/-- STEP_SYNC_TIMEOUT (R289). -/
def execStepSyncTimeout (ctx : Nat) (s : State) : Out :=
  guarded "STEP_SYNC_TIMEOUT" (.stepSyncTimeout ctx) s (doStepSyncTimeout ctx)
/-- NORM (R257). -/
def execNorm (f : FHdr) (step : Nat) (v : BitVec 64) (s : State) : Out :=
  guarded "NORM" (.norm f step v) s (doNorm f step v)
/-- LINK_ACK_SEND (R284). -/
def execLinkAckSend (n : Nat) (s : State) : Out :=
  guarded "LINK_ACK_SEND" (.linkAckSend n) s (doLinkAckSend n)
/-- LINK_NARROWING_COMPLETE (R292). -/
def execLinkNarrowingComplete (n : Nat) (s : State) : Out :=
  guarded "LINK_NARROWING_COMPLETE" (.linkNarrowingComplete n) s (doLinkNarrowingComplete n)

end Sys2Proof.Machine
end

