-- ==== Sys2Proof/Machine/Governor.lean ====
section
/-! DEFINITION. The governor's commands: its beat, windows, overpower, and the pod share (spec 11: R291; spec 16: R386 to R401). -/

namespace Sys2Proof.Machine

/-- A link carried less than 1 % of its capacity in the last whole 10 ms (R400). -/
def Link.idle10 (l : Link) : Bool := l.st = 3 && decide (l.slicePrev * 100 < widthLanes l.width * (if l.half then 125000000 else 250000000))
/-- A packet of VC1, VC2 or VC3 has waited 1 ms. -/
def Link.waited (l : Link) : Bool := [1, 2, 3].any (fun v => decide (thirds 1 ≤ l.waits.get 0 v))
/-- Narrow idle links to ×2 at m = 192 with the draw `p`, in mW, above A; restore them below 0.95 A or where a packet waits (R400). -/
def State.governLinks (s : State) (p a : Nat) : State :=
  (List.range 64).foldl (fun s n =>
    let l := s.link n
    if l.govCap then
      if p < 950 * a ∨ l.waited then s.capLink n (fun l => { l with govCap := false }) [] else s
    else if s.clk.m = 192 ∧ 1000 * a < p ∧ l.idle10 ∧ 1 < l.width then s.capLink n (fun l => { l with govCap := true }) []
    else s) s
/-- The readings of the beat at the inputs, in the last 16 beats' history too (R389). -/
def State.inputsRead (ins : List (Nat × Nat)) (s : State) : State :=
  { s with pwr := { s.pwr with
    ins := (ins.zipIdx).foldl (fun (t : Tab PwrIn) q => t.upd {} q.2 (fun x => { x with v := q.1.1, i := q.1.2 })) s.pwr.ins
    hist := (s.pwr.hist ++ [(s.clk.beat, ins)]).drop (s.pwr.hist.length - 15) } }
/-- CAP, A and P of the beat, the beats over 21,000 W, the window's mean, and the beat's energy (R390, R401). -/
def State.beatGoverned (s : State) : State :=
  let mw := s.powerMw
  let g := s.gov
  State.meterBeat { s with gov := { g with
    cap := s.capNow, allow := s.allowNow, pin := mw / 1000, inLimit := inputLimit s.liveIns
    overBeats := if 21000000 < mw then g.overBeats + 1 else 0, winW := g.winW + mw, winBeats := g.winBeats + 1 } }
/-- The draw of the beat exceeds A. -/
def State.overA (s : State) : Bool := decide (1000 * s.allowNow < s.powerMw)
/-- The beat lengthened because of its draw, from the second beat on; not again before that (R390). -/
def State.lengthened (s u : State) : State :=
  let o := u.orderStretch (lengthenTo s.clk.m s.gov.mmin s.powerMw s.allowNow s.gov.pstat) (s.clk.beat + 2)
  { o with gov := { u.gov with noLengthen := s.clk.beat + 2 } }
/-- A link that was not held narrow before is held narrow now. -/
def State.narrowed (s u : State) : Bool := (List.range 64).any (fun n => (u.link n).govCap && !(s.link n).govCap)
/-- What the governor notes when neither lengthening nor narrowing is left: UNMET, with POWER_CAP_UNMET once in a window (R401). -/
def State.capUnmet (s : State) : State :=
  let u : State := { s with gov := { s.gov with unmet := true } }
  if u.gov.unmetWin = s.clk.beat / 1024 + 1 then u
  else ({ u with gov := { u.gov with unmetWin := s.clk.beat / 1024 + 1 } } : State).keeperFault fcPowerCapUnmet uidKeeper 0 0 []
/-- GOVERNOR_BEAT (R389, R390, R400, R401): the inputs' readings of the beat, CAP and A, the beat's energy, and a stretch order where the draw
exceeds A. -/
def doGovernorBeat (ins : List (Nat × Nat)) (cyc : Nat) (s : State) : State :=
  let s := (s.at cyc).inputsRead ins
  if s.tr.wafer = false then s
  else
    let u := s.beatGoverned
    let u := if s.overA ∧ s.clk.m < 192 ∧ s.gov.noLengthen ≤ s.clk.beat then s.lengthened u else u
    let v := u
    let u := v.governLinks s.powerMw s.allowNow
    if s.overA ∧ s.clk.m = 192 ∧ v.narrowed u = false then u.capUnmet else { u with gov := { u.gov with unmet := false } }
/-- The input power has exceeded 21,000 W for 8 consecutive beats (R401). -/
def doInputOverpower (s : State) : State :=
  if s.gov.overBeats < 8 ∨ s.gov.excess then s else ({ s with gov := { s.gov with excess := true } }).shutdown fcInputOverpower []

/-! Windows (R386, R391, R392, R395). -/

/-- The 32-bit words of a payload. -/
def words32 (b : List Byte) : List Nat := (List.range (b.length / 4)).map (fun i => ofLE ((b.drop (4 * i)).take 4))
/-- Samples of the window were lost: fewer than its 1024 beats gave one (R386). -/
def Region.lostSamples (g : Region) : Bool := decide (g.win.n < 1024)
/-- The region's energy in the window, in nJ, scaled to the whole window where samples were lost (R386). -/
def Region.winEnergy (g : Region) : Nat := if g.lostSamples then g.win.nj * 1024 / max 1 g.win.n else g.win.nj
/-- A region controller's telemetry payload for the window that begins at beat w. -/
def Region.teleWords (g : Region) (r w : Nat) : List Nat :=
  let e := g.winEnergy / 1000
  let t := min (Config.transitShare r w) e
  let mx := g.win.tmax.getD g.tmax
  words32 (leBytes 8 (w * 4096) ++ leBytes 4 (e - t) ++ leBytes 4 t ++ leBytes 2 (int16 mx) ++
    leBytes 2 (int16 (if g.win.n = 0 then 0 else g.win.tsum / (4 * g.win.n))) ++ leBytes 2 g.vset ++ leBytes 2 g.win.ipeak ++ leBytes 2 (g.droops.get 0 4) ++
    leBytes 2 g.win.vsteps ++ leBytes 2 (b2n (decide (380 ≤ mx)) + 2 * b2n g.high + 4 * b2n g.lostSamples) ++ leBytes 34 0)
/-- A rim unit's: its energy and its own reading. -/
def rimWords (w nj : Nat) (reading flags : Nat) : List Nat :=
  words32 (leBytes 8 (w * 4096) ++ leBytes 4 (nj / 1000) ++ leBytes 4 0 ++ leBytes 2 reading ++ leBytes 10 0 ++ leBytes 2 flags ++ leBytes 34 0)
/-- The region controllers at the window's end: DROOP_LIMIT, the setpoint one step down without a droop, counts anew (R392). -/
def State.closeRegion (s : State) (r : Nat) : State :=
  let g := s.region r
  let bad := (List.range 4).filter (fun k => decide (16 ≤ g.droops.get 0 k))
  let s := bad.foldl (fun s k =>
    let s := s.report ⟨fcDroopLimit, uidCluster r k, s.now, 0, 0, s.serves r, []⟩
    s.onRegion r (fun g => { g with suspect := (List.range 20).foldl (fun (t : Tab Nat) i => t.set 0 (20 * k + i) (s.clk.wall + thirds 86400000)) g.suspect })) s
  let down := !s.regionTested r && decide (g.droops.get 0 4 = 0) && decide (Config.voltFloor s.clk.m r < g.vset) && decide (600 < g.vset) && decide (g.cd = .on)
  s.onRegion r (fun g => { g with vset := if down then g.vset - 5 else g.vset, droops := [], win := { vsteps := b2n down } })
/-- The regions whose controllers close the window. -/
def State.liveRegions (s : State) : List Nat := allRegions.filter (fun r => decide ((s.region r).st ≠ .transitLost) && !(s.region r).rcFenced)
/-- TELEMETRY of every region, stack controller and rim side for the window that began at beat `w` leaves for the Keeper (R386). -/
def State.telemeter (s : State) (w : Nat) : State :=
  let s1 := s.liveRegions.foldl (fun s r => s.send (uidRc r) uidKeeper (.telemetry (uidRc r) ((s.region r).teleWords r w))) s
  let s1 := ((List.range 24).filter (fun n => (s.sc n).serving)).foldl (fun s n =>
    s.send (uidSc n) uidKeeper (.telemetry (uidSc n) (rimWords w (s.sc n).winNj (int16 (s.sc n).temp) (b2n (decide (95 ≤ (s.sc n).temp)))))) s1
  (List.range 4).foldl (fun s k =>
    s.send (uidLink (16 * k)) uidKeeper (.telemetry (uidLink (16 * k)) (rimWords w (s.link (16 * k)).winNj (Config.eyeMargin k (w / 1024 + 1)) 0))) s1
/-- The counts of the window begin anew: energies, voltages and droops of the regions `on`, meters, the mean power (R386, R388, R392). -/
def State.windowShut (s : State) (on : List Nat) (win : Nat) : State :=
  let s1 : State := { s with scs := s.scs.mapV {} (fun _ c => { c with winNj := 0 }), links := s.links.mapV {} (fun _ l => { l with winNj := 0 }) }
  let s1 := (on.foldl State.closeRegion s1).closeMeters
  let g := s1.gov
  { s1 with gov := { g with closedWin := win, winW := 0, winBeats := 0, lastMean := if g.winBeats = 0 then 0 else (g.winW + g.winBeats - 1) / g.winBeats } }
/-- The mean power of the window that ends, in mW. -/
def Gov.winMean (g : Gov) : Nat := if g.winBeats = 0 then 0 else g.winW / g.winBeats
/-- The setpoint raised to the table's value for setting `k`, and readiness reported (R392). -/
def Region.readyFor (v k : Nat) (g : Region) : Region :=
  { g with vset := max g.vset v, vready := k, win := if g.vset < v then { g.win with vsteps := g.win.vsteps + 1 } else g.win }
/-- The regions raise their voltages for the period `k`, which the next beat but one takes where they are ready (R391, R392). -/
def State.shortened (s : State) (on : List Nat) (k : Nat) : State :=
  (on.foldl (fun s r => s.onRegion r (fun g => g.readyFor (Config.voltTable k r) k)) s).orderStretch k (s.clk.beat + 1)
/-- AGGREGATION_WINDOW_END (R386): telemetry, voltages, shortening or heat's lengthening, energies. -/
def doAggregationWindowEnd (s : State) : State :=
  let b := s.clk.beat
  let win := b / 1024
  if b % 1024 ≠ 0 ∨ win = 0 ∨ win ≤ s.gov.closedWin ∨ s.tr.wafer = false then s
  else
    let on := s.liveRegions
    let t := s.telemeter (b - 1024)
    let s1 := t.windowShut on win
    if on.any (fun r => (s.region r).high) then (if s.clk.m < 192 then s1.orderStretch (min 192 (s.clk.m + 4)) (b + 1) else s1)
    else match shortenTo s.clk.m s.gov.mmin s.gov.winMean s1.allowNow s.gov.pstat with
      | none => s1
      | some k => s1.shortened on k

/-! Pod share (R291, R394). -/

/-- HEADROOM from a peer. -/
def doHeadroom (f : FHdr) (share power : Nat) (offer : Int) (s : State) : State :=
  s.fabricIn f 0 [f.len] (fun s =>
    let s := { s with pod := { s.pod with peers := s.pod.peers.upd {} f.spos (fun p => { p with share := share, power := power, offer := offer, heard := true, stale := false, headAt := s.clk.wall }) } }
    { s with gov := { s.gov with stale := s.pod.peers.any (fun p => p.2.stale) } })
/-- The body of HEADROOM (R288). -/
def State.headBody (s : State) (p : Nat) (h : Int) : List Byte :=
  leBytes 2 s.gov.share ++ leBytes 2 p ++ leBytes 4 (h % 2 ^ 32).toNat ++ leBytes 8 ((s.clk.beat / 1024 - 1) * 1024 * 4096) ++ leBytes 8 (s.clk.beat / 1024 * 1024 * 4096)
/-- The module's own offer: 98 % of its share less its mean power, rounded down; with no share it offers 0 (R394). -/
def State.ownOffer (s : State) : Int := if s.gov.share = 0 then 0 else (((980 * s.gov.share : Nat) : Int) - s.gov.lastMean) / 1000
/-- HEADROOM to every other module. -/
def State.tellPeers (s : State) : State := s.others.foldl (fun u q => u.fctl 0 q 5 (u.headBody (s.gov.lastMean / 1000) s.ownOffer)) s
/-- HEADROOM_SEND: the message to every other module, and the pod allowance from the next boundary; one that would rise because the own offer
fell is kept back for 10 ms (R394). -/
def doHeadroomSend (cyc : Nat) (s : State) : State :=
  let s := s.at cyc
  if s.pod.cfg.isNone ∨ s.ha.warm then s
  else
    let g := s.gov
    let h := s.ownOffer
    let s := s.tellPeers
    if g.share = 0 then { s with gov := { g with offer := 0, keep := none } }
    else
      let a := s.podShare h
      let cur := g.podNext.getD g.podAllow
      let g' := { g with offer := h }
      if cur < a ∧ h < g.offer then { s with gov := { g' with keep := some (a, s.clk.wall) } }
      else if cur < a then
        match g.keep with
        | some k => { s with gov := { g' with keep := some (a, k.2) } }
        | none => { s with gov := { g' with podNext := some a } }
      else { s with gov := { g' with podNext := some a, keep := none } }
/-- 10 ms after the falling offer the kept allowance applies. -/
def doPodAllowanceHoldEnd (s : State) : State :=
  match s.gov.keep with
  | some k => if s.clk.wall < k.2 + thirds 10 then s else { s with gov := { s.gov with podNext := some k.1, keep := none } }
  | none => s
/-- No HEADROOM from a peer for 30 ms (R291). -/
def doHeadroomTimeout (pos : Nat) (s : State) : State :=
  let p := s.pod.peers.get {} pos
  if pos = s.myPos ∨ s.clk.wall < p.headAt + thirds 30 then s
  else { s with pod := { s.pod with peers := s.pod.peers.upd {} pos (fun p => { p with stale := true }) }, gov := { s.gov with stale := true } }

/-! The meanings: one per command, each a frame around its effect. -/

/-- HEADROOM (R394). -/
def execHeadroom (f : FHdr) (share power : Nat) (offer : Int) (s : State) : Out :=
  guarded "HEADROOM" (.headroom f share power offer) s (doHeadroom f share power offer)
/-- HEADROOM_SEND (R394). -/
def execHeadroomSend (cyc : Nat) (s : State) : Out :=
  guarded "HEADROOM_SEND" (.headroomSend cyc) s (doHeadroomSend cyc)
/-- POD_ALLOWANCE_HOLD_END (R394). -/
def execPodAllowanceHoldEnd (s : State) : Out :=
  guarded "POD_ALLOWANCE_HOLD_END" (.podAllowanceHoldEnd) s (doPodAllowanceHoldEnd)
/-- HEADROOM_TIMEOUT (R291). -/
def execHeadroomTimeout (pos : Nat) (s : State) : Out :=
  guarded "HEADROOM_TIMEOUT" (.headroomTimeout pos) s (doHeadroomTimeout pos)
/-- GOVERNOR_BEAT (R390). -/
def execGovernorBeat (ins : List (Nat × Nat)) (cyc : Nat) (s : State) : Out :=
  guarded "GOVERNOR_BEAT" (.governorBeat ins cyc) s (doGovernorBeat ins cyc)
/-- INPUT_OVERPOWER (R401). -/
def execInputOverpower (s : State) : Out :=
  guarded "INPUT_OVERPOWER" (.inputOverpower) s (doInputOverpower)
/-- AGGREGATION_WINDOW_END (R386). -/
def execAggregationWindowEnd (s : State) : Out :=
  guarded "AGGREGATION_WINDOW_END" (.aggregationWindowEnd) s (doAggregationWindowEnd)

end Sys2Proof.Machine
end

