-- ==== Sys2Proof/Machine/Heat.lean ====
section
/-! DEFINITION. Heat: samples of regions, stacks and coolant, and what the limits do (spec 16: R392 to R399; spec 20: R466). -/

namespace Sys2Proof.Machine

/-- Regions with compute on. -/
def State.computeOn (s : State) : Nat := (allRegions.filter (fun r => (s.region r).cd = .on)).length
/-- The coolant inlet lies within the limits of R465: 15 °C to 40 °C. -/
def inletOk (i : Int) : Bool := decide (60 ≤ i) && decide (i ≤ 160)
/-- A region at its trip level switches its own compute off (R395); at the third trip in 24 hours with the inlet within limits it is shadowed
(R397). -/
def tripRegion (r : Nat) (s : State) : State :=
  let g := s.region r
  let now := s.clk.wall
  let ms := s.movesTo r
  let trips := g.trips.filter (fun t => decide (now < t + thirds 86400000)) ++ [now]
  let shadow := decide (3 ≤ trips.length) && inletOk s.gov.inlet
  let s := s.report ⟨fcThermalTrip, uidRc r, s.now, 0, 0, s.serves r, []⟩
  let s := if shadow then s.addDefect (uidComp r) 2 2 fcThermalTrip 0 else s
  let s := s.onRegion r (fun g => { g.goTo (if shadow then .shadowed else .heatOff) g.peer with trips := if shadow then [] else trips, heatTrip := true, coolBeats := 0 }.turnOff)
  (s.reclaim (fun l => decide (l.kind = 3 ∧ l.idx = r) || (decide (l.kind = 4) && decide (uRegion l.res = r)))).tryNext ms
/-- The hottest of a sample's four sensors, in quarters of a degree. -/
def Sample.hottest (x : Sample) : Int := max (max x.t0 x.t1) (max x.t2 x.t3)
/-- A region with a sample taken: the counts of beats in a row, the droop trips of each cluster at 900 mV and the beats with any trip (R392), and
what its aggregation window gathers at setting `m` (R386). `big` says whether the region's power lay above its limit (R393). -/
def Region.sampled (m : Nat) (smp : Sample) (hit : List Nat) (big : Bool) (g : Region) : Region :=
  let t := smp.hottest
  { g with
    sample := smp
    hotBeats := if 408 ≤ t then g.hotBeats + 1 else 0
    coolBeats := if g.st = .heatOff ∧ t < 360 then g.coolBeats + 1 else 0
    high := g.high && decide (392 ≤ t)
    overBeats := if big then g.overBeats + 1 else 0
    droops := (if g.vset = 900 then hit else []).foldl (fun (d : Tab Nat) k => d.upd 0 k (· + 1)) (if hit = [] then g.droops else g.droops.upd 0 4 (· + 1))
    droopSeen := g.droopSeen || decide (hit ≠ [])
    win := { g.win with tmax := some (match g.win.tmax with | some m => max m t | none => t), tsum := g.win.tsum + (smp.t0 + smp.t1 + smp.t2 + smp.t3)
                        nj := g.win.nj + beatNj m smp.mw, n := g.win.n + 1, ipeak := max g.win.ipeak (smp.ma / 100) } }
/-- A region's power lies above 1.3 times an even share of what the allowance leaves (R393). -/
def State.regionOver (s : State) (r : Nat) (smp : Sample) : Bool :=
  decide (13 * 1000 * ((s.allowNow : Int) - s.gov.pstat) < 10 * (smp.mw : Int) * s.computeOn) && decide ((s.region r).cd = .on)
/-- The work of a region at 95 °C moves to a standby region 15 °C cooler, where one can take it; the run under way then ends, for its saved layer
inputs are lost, and the partition is held (R395, R396). -/
def State.coolDown (s : State) (r : Nat) (t : Int) : State :=
  let c := s.serves r
  let m := s.moveWork r (fun q => decide ((s.region q).tmax + 60 ≤ t)) false
  if m.2 then (m.1.endRun c stFaulted noCause).askHold c (uidRc r) .plan else s
/-- REGION_SENSOR_SAMPLE (R392, R393, R395 to R397). -/
def doRegionSensorSample (region : Nat) (smp : Sample) (droops : List Nat) (s : State) : State :=
  let g := s.region region
  if g.gone then s
  else
    let t := smp.hottest
    let big := s.regionOver region smp
    let s := s.onRegion region (Region.sampled s.clk.m smp (dedup (droops.filter (· < 4))) big)
    let s := if big ∧ g.overBeats = 0 then s.report ⟨fcRegionPowerHigh, uidRc region, s.now, 0, 0, s.serves region, []⟩ else s
    if 440 ≤ t ∧ g.cd = .on then tripRegion region s
    else if 380 ≤ t ∧ (g.st = .active ∨ g.st = .hosting) ∧ g.cd = .on ∧ isUser (s.serves region) ∧ (s.ctx (s.serves region)).moving region = false then s.coolDown region t
    else s
/-- HEAT_HIGH (R395): 102 °C or more in 64 consecutive beats with no move possible; a test there stops (R444). -/
def doHeatHigh (region : Nat) (s : State) : State :=
  let g := s.region region
  if 64 ≤ g.hotBeats ∧ g.cd = .on ∧ allRegions.all (fun t => !s.canHost region t (fun q => decide ((s.region q).tmax + 60 ≤ g.tmax))) then
    (s.onRegion region (fun g => { g with high := true })).reclaim (fun l => decide (l.kind = 4) && decide (uRegion l.res = region))
  else s
/-- HEAT_OFF_RECOVERY (R397): 1024 consecutive beats below 90 °C bring a tripped region to standby. -/
def doHeatOffRecovery (region : Nat) (s : State) : State :=
  let g := s.region region
  if g.st = .heatOff ∧ g.heatTrip ∧ 1024 ≤ g.coolBeats then s.onRegion region (fun g => { g.goTo .standby noRegion with heatTrip := false, coolBeats := 0 }) else s
/-- STACK_SENSOR_SAMPLE (R398). -/
def doStackSensorSample (sc : Nat) (temp : Int) (s : State) : State :=
  let c := s.sc sc
  if c.serving = false then s
  else
    let lim := if 105 ≤ temp ∨ (c.limit = 2 ∧ 100 ≤ temp) then 2 else if 95 ≤ temp then 1 else 0
    let s := s.onSc sc (fun c => { c with temp := temp, limit := lim })
    if 105 ≤ temp ∧ c.limit ≠ 2 then s.report ⟨fcStackOvertemp, uidSc sc, s.now, 0, 0, 0, []⟩ else s
/-- COOLANT_SAMPLE (R399). -/
def doCoolantSample (inlet outlet : Int) (flow : Nat) (s : State) : State :=
  let s := { s with gov := { s.gov with inlet := inlet, outlet := outlet, flow := flow, derate := decide (160 < inlet) } }
  if (180 < inlet ∨ flow < 180 ∨ 260 < outlet) ∧ s.tr.wafer ∧ s.gov.coolOff = false then s.shutdown fcCoolantFault [] else s

/-! The meanings: one per command, each a frame around its effect. -/

/-- REGION_SENSOR_SAMPLE (R395). -/
def execRegionSensorSample (region : Nat) (smp : Sample) (droops : List Nat) (s : State) : Out :=
  guarded "REGION_SENSOR_SAMPLE" (.regionSensorSample region smp droops) s (doRegionSensorSample region smp droops)
/-- HEAT_HIGH (R395). -/
def execHeatHigh (region : Nat) (s : State) : Out :=
  guarded "HEAT_HIGH" (.heatHigh region) s (doHeatHigh region)
/-- HEAT_OFF_RECOVERY (R397). -/
def execHeatOffRecovery (region : Nat) (s : State) : Out :=
  guarded "HEAT_OFF_RECOVERY" (.heatOffRecovery region) s (doHeatOffRecovery region)
/-- STACK_SENSOR_SAMPLE (R398). -/
def execStackSensorSample (sc : Nat) (temp : Int) (s : State) : Out :=
  guarded "STACK_SENSOR_SAMPLE" (.stackSensorSample sc temp) s (doStackSensorSample sc temp)
/-- COOLANT_SAMPLE (R399). -/
def execCoolantSample (inlet outlet : Int) (flow : Nat) (s : State) : Out :=
  guarded "COOLANT_SAMPLE" (.coolantSample inlet outlet flow) s (doCoolantSample inlet outlet flow)

end Sys2Proof.Machine
end

