-- ==== Sys2Proof/Machine/Inputs.lean ====
section
/-! DEFINITION. The six 54 V inputs, the power connectors' sense contacts, the auxiliary supply (spec 20: R458 to R463, R482). -/

namespace Sys2Proof.Machine

/-- Change input i. -/
def State.onIn (s : State) (i : Nat) (f : PwrIn → PwrIn) : State := { s with pwr := { s.pwr with ins := s.pwr.ins.upd {} i f } }
/-- The stage closes. -/
def PwrIn.close (v : Nat) (x : PwrIn) : PwrIn := { x with v := v, live := true, opened := none, gone := none }
/-- The stage opens; a current trip in force stays the reason. -/
def PwrIn.open_ (why : InOpen) (x : PwrIn) : PwrIn := { x with i := 0, live := false, opened := some (if x.opened = some .current then .current else why) }
/-- What a change of the inputs leads to: a boot that has not come to step 4 stops (R482), and without any source the standby domain loses what
it holds in no memory (R463). -/
def State.supplied (s : State) : State :=
  let s := if s.tr.boot = .coolantWait ∧ s.allLive = false then s.goDark else s
  if s.pwr.standbyUp then s else { s with tr := { s.tr with sessions := [], armed := none, ip := none, alert := false } }
/-- PX_SENSE_BREAK: the connector's three inputs open. -/
def doPxSenseBreak (conn : Nat) (s : State) : State :=
  ([0, 1, 2].foldl (fun (s : State) k => s.onIn (3 * conn + k) (PwrIn.open_ .sense)) s).supplied
/-- INPUT_VALID: the stage closes, unless a trip keeps it open: an overvoltage until its second between 48 V and 58 V, a current trip until the
voltage has been away for 1 s. -/
def doInputValid (i v : Nat) (s : State) : State :=
  if v < 4600 ∨ 6000 < v then s
  else
    let x := s.pwr.ins.get {} i
    let ok := match x.opened with
      | some .excess => false
      | some .current => x.gone.any (fun t => decide (t + thirds 1000 ≤ s.clk.wall))
      | _ => true
    s.onIn i (fun x => if ok then x.close v else { x with v := v, gone := none })
/-- INPUT_OVERVOLTAGE: above 61 V the input opens. -/
def doInputOvervoltage (i v : Nat) (s : State) : State :=
  if v ≤ 6100 then s else (s.onIn i (fun x => { (x.open_ .excess) with v := v })).supplied
/-- INPUT_RECLOSE: after 1 s between 48 V and 58 V. -/
def doInputReclose (i v : Nat) (s : State) : State :=
  if (s.pwr.ins.get {} i).opened = some .excess ∧ 4800 ≤ v ∧ v ≤ 5800 then s.onIn i (PwrIn.close v) else s
/-- INPUT_OVERCURRENT: above 110 A at once, above 80 A after 5 ms; currents in 0.1 A, the time it has lasted in µs. -/
def doInputOvercurrent (i amps held : Nat) (s : State) : State :=
  if (s.pwr.ins.get {} i).live ∧ (1100 < amps ∨ (800 < amps ∧ 5000 ≤ held)) then (s.onIn i (PwrIn.open_ .current)).supplied else s
/-- INPUT_LOST: the voltage leaves its live range at its source. -/
def doInputLost (i v : Nat) (s : State) : State :=
  if 4600 ≤ v ∧ v ≤ 6000 then s
  else (s.onIn i (fun x => { x with v := v, i := 0, live := false, opened := x.opened.orElse (fun _ => some .fitted)
                                    gone := if x.opened = some .current ∧ v < 4600 then some (x.gone.getD s.clk.wall) else none })).supplied
/-- AUX_12V_CHANGE. -/
def doAux12vChange (present : Bool) (s : State) : State := ({ s with pwr := { s.pwr with aux := present } }).supplied

/-! The meanings: one per command, each a frame around its effect. -/

/-- PX_SENSE_BREAK (R458). -/
def execPxSenseBreak (conn : Nat) (s : State) : Out :=
  guarded "PX_SENSE_BREAK" (.pxSenseBreak conn) s (doPxSenseBreak conn)
/-- INPUT_VALID (R459). -/
def execInputValid (i v : Nat) (s : State) : Out :=
  guarded "INPUT_VALID" (.inputValid i v) s (doInputValid i v)
/-- INPUT_OVERVOLTAGE (R459). -/
def execInputOvervoltage (i v : Nat) (s : State) : Out :=
  guarded "INPUT_OVERVOLTAGE" (.inputOvervoltage i v) s (doInputOvervoltage i v)
/-- INPUT_RECLOSE (R459). -/
def execInputReclose (i v : Nat) (s : State) : Out :=
  guarded "INPUT_RECLOSE" (.inputReclose i v) s (doInputReclose i v)
/-- INPUT_OVERCURRENT (R460). -/
def execInputOvercurrent (i amps held : Nat) (s : State) : Out :=
  guarded "INPUT_OVERCURRENT" (.inputOvercurrent i amps held) s (doInputOvercurrent i amps held)
/-- INPUT_LOST (R461). -/
def execInputLost (i v : Nat) (s : State) : Out :=
  guarded "INPUT_LOST" (.inputLost i v) s (doInputLost i v)
/-- AUX_12V_CHANGE (R463). -/
def execAux12vChange (present : Bool) (s : State) : Out :=
  guarded "AUX_12V_CHANGE" (.aux12vChange present) s (doAux12vChange present)

end Sys2Proof.Machine
end

