-- ==== Sys2Proof/Machine/LeaseCmd.lean ====
section
/-! DEFINITION. Lease messages and expiry (spec 13: R334 to R337). -/

namespace Sys2Proof.Machine

/-- The kind of resource a lease names has its place in the unit RES names. -/
def Lease.kindOk (l : Lease) : Bool := decide (1 ≤ l.kind) && decide (l.kind ≤ 4)
/-- The lease table's entry for the resource of `l`. -/
def State.leaseOf (s : State) (l : Lease) : Option Lease := (s.region (leaseHome l)).leases.find? (fun x => x.same l)
/-- A context may hold a lease's resource: it is open, or the system's own (STATUS 3 otherwise). -/
def State.leaseAllowed (s : State) (l : Lease) : Bool := l.kindOk && (decide (l.ctx = 0) || decide ((s.ctx l.ctx).st = .opened))
/-- The grantor's answer (R335). -/
def State.answerLease (s : State) (l : Lease) (status : Nat) : State :=
  s.send (uidRc (s.grantorOf (leaseHome l))) l.holder (.lease { l with expiry := if status = 0 then ((s.leaseOf l).map Lease.expiry).getD 0 else l.expiry } status true)
/-- The answer to a lease request on its way to its holder. -/
def WPkt.answers (l : Lease) (p : WPkt) : Bool := decide (p.dst = l.holder) && (match p.msg with | .lease x _ true => x.same l | _ => false)
/-- An unrenewed lease lapses at its EXPIRY with LEASE_EXPIRED (R336). -/
def doLeaseExpired (l : Lease) (s : State) : State :=
  match s.leaseOf l with
  | none => s
  | some x => if s.now < x.expiry then s else (s.leaseEnds x).report ⟨fcLeaseExpired, x.holder, s.now, 0, 0, x.ctx, []⟩
/-- A request reaches the home region controller, where a lease that has reached its EXPIRY lapses first, or its answer the holder (R335, R336). -/
def doLeaseGrant (l : Lease) (reply : Bool) (s : State) : State :=
  if reply then
    match s.take (WPkt.answers l) with
    | some (_, s) => s
    | none => s
  else if s.leaseAllowed l = false then s.answerLease l 3
  else
    let r := (doLeaseExpired l s).leaseTake l
    r.1.answerLease l r.2
/-- A renewal: refused with STATUS 3 for a lease its sender does not hold, or at EXPIRY and later (R336, R338). -/
def doLeaseRenew (l : Lease) (reply : Bool) (s : State) : State :=
  if reply then doLeaseGrant l true s
  else match s.leaseOf l with
    | some x =>
      if x.holder = l.holder ∧ s.now < x.expiry then
        let s := s.onLeases (leaseHome l) (fun t => t.map (fun y => if y.same l then { y with expiry := min l.expiry ((s.clk.beat + 65536) * 4096) } else y))
        s.answerLease l 0
      else s.answerLease l 3
    | none => s.answerLease l 3
/-- The holder gives a lease up; one reclaimed before is ignored (R334, R338). -/
def doLeaseRelease (l : Lease) (s : State) : State := s.leaseDrop l
/-- The grantor reclaims a lease: the message goes to its holder and to the grantor's partner, and the resource is treated as its kind
prescribes (R334, R335). -/
def doLeaseReclaim (l : Lease) (s : State) : State :=
  match s.leaseOf l with
  | none => s
  | some x =>
    let g := s.grantorOf (leaseHome l)
    let s := (s.send (uidRc g) x.holder (.reclaim x)).send (uidRc g) (uidRc (partner g)) (.reclaim x)
    s.leaseEnds x
/-! The meanings: one per command, each a frame around its effect. -/

/-- LEASE_GRANT (R335). -/
def execLeaseGrant (l : Lease) (reply : Bool) (s : State) : Out :=
  guarded "LEASE_GRANT" (.leaseGrant l reply) s (doLeaseGrant l reply)
/-- LEASE_RENEW (R335). -/
def execLeaseRenew (l : Lease) (reply : Bool) (s : State) : Out :=
  guarded "LEASE_RENEW" (.leaseRenew l reply) s (doLeaseRenew l reply)
/-- LEASE_RELEASE (R334). -/
def execLeaseRelease (l : Lease) (s : State) : Out :=
  guarded "LEASE_RELEASE" (.leaseRelease l) s (doLeaseRelease l)
/-- LEASE_RECLAIM (R336). -/
def execLeaseReclaim (l : Lease) (s : State) : Out :=
  guarded "LEASE_RECLAIM" (.leaseReclaim l) s (doLeaseReclaim l)
/-- LEASE_EXPIRED (R336). -/
def execLeaseExpired (l : Lease) (s : State) : Out :=
  guarded "LEASE_EXPIRED" (.leaseExpired l) s (doLeaseExpired l)

end Sys2Proof.Machine
end

