-- ==== Sys2Proof/Machine/LogCmd.lean ====
section
/-! DEFINITION. Log and trace commands, the rate window, the power-fail comparator (spec 14: R358; spec 18: R439 to R443). -/

namespace Sys2Proof.Machine

/-- The bytes of a record as LOG_READ gives them: zero bytes for one that does not concern the context of a context ring, and for one that is
no longer kept. -/
def State.logBytes (s : State) (src : Src) (i : Nat) : List Byte :=
  match s.log.recs.find? (fun p => p.1 = i) with
  | some p => if (match src with | .ring c => decide (c = 0) || decide (p.2.ctx = c) | .mgmt _ => true) then p.2.bytes i else List.replicate 256 0#8
  | none => List.replicate 256 0#8
/-- LOG_READ. -/
def doLogRead (h : Hdr) (first count : Nat) (x : DRef) (s : State) : State :=
  packet 0x0A01 [1] false h s (fun s =>
    let ok := decide (s.log.oldest ≤ first) && decide (first + count ≤ s.log.next)
    let n := if ok then count else 0
    writeOut h x s ok ((List.range n).flatMap (fun i => s.logBytes h.src (first + i))))
/-- LOG_STATUS. -/
def doLogStatus (h : Hdr) (s : State) : State :=
  packet 0x0A02 [1] false h s (fun s => check6 h s true (.done stOk (s.log.next + s.log.oldest * 2 ^ 32) s))
/-- The traces a stop names: those of the unit that the context started. -/
def State.tracesOf (s : State) (h : Hdr) (u : Nat) : List Trace :=
  s.tr.traces.filter (fun t => decide (t.unit = u) && s.long.any (fun l => decide (l.id = t.long) && decide (l.ctx = h.ctx)))
/-- TRACE_CONFIG: a start opens a trace whose final reply follows its end; a stop ends the unit's traces. -/
def doTraceConfig (h : Hdr) (unit flags start stop : Nat) (x : DRef) (s : State) : State :=
  packet 0x0A03 [2] false h s (fun s =>
    let ok := uidOk unit && decide (flags < 2)
    if (s.ctx h.ctx).trace_ = false ∨ (uidOk unit ∧ h.sys = false ∧ s.telemOk h.ctx unit = false) then refuse stDenied s
    else if bit flags 0 then
      withRef h x s ok (.accept stAccepted .trace unit 0 (fun id s =>
        { s with tr := { s.tr with traces := s.tr.traces ++ [⟨id, unit, start, stop, x, h.src.dataCtx, 0, []⟩] } }) s)
    else check6 h s ok
      (.accept stAccepted .trace unit 0 (fun id s =>
        let ts := s.tracesOf h unit
        (ts.foldl (fun s t => s.endTrace t stOk t.n) s).finish id stOk (ts.foldl (fun a t => a + t.n) 0)) s))
/-- TRACE_WINDOW_END (R10): an event stamped at the end lies outside the window. -/
def doTraceWindowEnd (unit : Nat) (s : State) : State :=
  (s.tr.traces.filter (fun t => decide (t.unit = unit) && decide (t.stop ≤ s.now))).foldl (fun s t => s.endTrace t stOk t.n) s
/-- LOG_RATE_WINDOW_END: a summary record stands for the records dropped in the window, and its event goes to the system ring alone. -/
def doLogRateWindowEnd (s : State) : State :=
  let l := s.log
  if s.clk.wall < l.winStart + thirds 1 then s
  else
    let idx := l.next
    let s1 := if l.dropped = 0 then s
      else (s.logRec 3 2 0xFFFF 28 (leBytes 4 l.dropped ++ leBytes 2 l.dropCls ++ leBytes 2 0 ++ leBytes 4 l.dropUnit ++ leBytes 8 l.dropStamp ++ leBytes 8 l.winStamp)).postFault l.dropUnit l.dropCls idx 0
    { s1 with log := { s1.log with winStart := l.winStart + thirds 1, winStamp := s.now, winRecs := 0, dropped := 0, dropCls := 0, dropUnit := 0, dropStamp := 0 } }
/-- The mean of the six inputs lies below 44 V. -/
def State.inputsLow (s : State) : Bool := decide ((s.inputs.foldl (fun a x => a + x.v) 0) < 6 * 4400)
/-- POWER_FAIL_CAPTURE (R441): every compute domain goes off at once, the capture is written, and the wafer loses its supply: only the standby
domain runs on. -/
def doPowerFailCapture (s : State) : State :=
  if s.inputsLow = false ∨ s.tr.boot = .standby then s
  else
    let s := { s with regions := allRegions.foldl (fun (t : Tab Region) r => t.upd {} r (fun g => { g with cd := .off, cdQueued := false })) s.regions }
    let s := s.capture
    { s with ha := { s.ha with ready := false, warm := false, cxl := false, trained := false }, tr := { s.tr with boot := .standby, wafer := false } }

/-! The meanings: one per command, each a frame around its effect. -/

/-- LOG_READ (R358). -/
def execLogRead (h : Hdr) (first count : Nat) (x : DRef) (s : State) : Out :=
  guarded "LOG_READ" (.logRead h first count x) s (doLogRead h first count x)
/-- LOG_STATUS (R358). -/
def execLogStatus (h : Hdr) (s : State) : Out :=
  guarded "LOG_STATUS" (.logStatus h) s (doLogStatus h)
/-- TRACE_CONFIG (R358). -/
def execTraceConfig (h : Hdr) (unit flags start stop : Nat) (x : DRef) (s : State) : Out :=
  guarded "TRACE_CONFIG" (.traceConfig h unit flags start stop x) s (doTraceConfig h unit flags start stop x)
/-- TRACE_WINDOW_END (R358). -/
def execTraceWindowEnd (unit : Nat) (s : State) : Out :=
  guarded "TRACE_WINDOW_END" (.traceWindowEnd unit) s (doTraceWindowEnd unit)
/-- LOG_RATE_WINDOW_END (R440). -/
def execLogRateWindowEnd (s : State) : Out :=
  guarded "LOG_RATE_WINDOW_END" (.logRateWindowEnd) s (doLogRateWindowEnd)
/-- POWER_FAIL_CAPTURE (R441). -/
def execPowerFailCapture (s : State) : Out :=
  guarded "POWER_FAIL_CAPTURE" (.powerFailCapture) s (doPowerFailCapture)

end Sys2Proof.Machine
end

