-- ==== Sys2Proof/Machine/OptCmd.lean ====
section
/-! DEFINITION. Optimiser commands (spec 03: R96, R97; 10: R239 to R241, R255, R262, R269 to R274; 14: R355; 17: R426). -/

namespace Sys2Proof.Machine

/-- A change that applies now, or at the next step start while a step runs (R342). -/
def deferOr (c : Nat) (job : Job) (d : Deferred) (s : State) : Verdict :=
  if (s.ctx c).inStep then
    .accept stDeferred job c 0 (fun id s => s.onCtx c (fun x => { x with deferred := x.deferred ++ [(d, id)] })) s
  else .done stOk (match d with | .freeze b => sha64 b | _ => 0) (s.onCtx c (fun x => x.applyDef d))
/-- OPT_CONFIG (R97). -/
def doOptConfig (h : Hdr) (flags hr sat down : Nat) (s : State) : State :=
  packet 0x0701 [1] false h s (fun s =>
    check6 h s (decide (flags < 4) && decide (hr ≤ 3) && decide (1 ≤ sat) && decide (sat ≤ 4) && decide (1 ≤ down) && decide (down ≤ 4))
      (deferOr h.ctx .config (.config (flags + hr * 2 ^ 8 + sat * 2 ^ 16 + down * 2 ^ 24)) s))

/-! The parcel map (R239 to R241). -/

/-- Entries and masks of a map image. -/
def readMap (count : Nat) (b : List Byte) : List Nat × List PEnt :=
  let f (o n : Nat) : Nat := ofLE ((b.drop o).take n)
  ((List.range 16).map (fun i => f (16 * i) 16), (List.range count).map (fun i => ⟨BitVec.ofNat 64 (f (256 + 16 * i) 8), BitVec.ofNat 64 (f (264 + 16 * i) 8)⟩))
/-- A position lies in the pod: the module's own, or one its routes reach. -/
def State.inPod (s : State) (c p : Nat) : Bool := decide (p = s.myPos) || (decide (p < 65) && !(s.linksTo c p).isEmpty)
/-- An extent of a context and kind. -/
def State.isKind (s : State) (c e kind : Nat) : Bool := (s.ext e).any (fun x => decide (x.ctx = c) && decide (x.kind = kind))
/-- One entry of a map against R241. -/
def State.entryFine (s : State) (c : Nat) (sets : List Nat) (e : PEnt) : Bool :=
  let me := s.myPos
  let g := (s.ctx c).groupOf e
  let mask := sets.getD e.rset 0
  decide (bits e.w0.toNat 44 42 = 0) && decide (bits e.w1.toNat 15 15 = 0) && bit mask e.owner &&
    (!bit mask me || (s.isKind c e.wext 1 && decide ((s.sc (extSc e.wext)).pair.get 0 (extIdx e.wext) ≠ 0) &&
      (s.extD e.wext).holds e.woff (workBytes (grWfmt g)))) &&
    (if e.owner = me then
      s.isKind c e.mext 3 && s.isKind c e.vext 4 && decide (extSc e.mext = extSc e.wext) && decide (extSc e.vext = extSc e.wext) &&
        decide (e.slot < s.slotCount e (grBf g))
     else decide (e.w1 = 0))
/-- A whole map against R241. -/
def State.mapFine (s : State) (c : Nat) (m : List Nat × List PEnt) : Bool :=
  let own := m.2.filter (fun e => e.owner = s.myPos)
  m.1.all (fun k => decide (k ≠ 0) && decide (k < 2 ^ 65) && (membersOf k).all (s.inPod c)) && m.2.all (s.entryFine c m.1) && (own.map (fun e => (extSc e.wext, e.slot))).Nodup
/-- The context with a new map: home slots, no commit, no parcel frozen (R262). Both scale tables are emptied, so that every parcel's scale is
0x7F again (R96; that a map loaded anew does so too is a DESIGN CHOICE, entry 53). -/
def Ctx.withMap (x : Ctx) (me : Nat) (m : List Nat × List PEnt) : Ctx :=
  let x := { x with rsets := m.1, pmap := m.2.map (fun (e : PEnt) => e.setFz false), freeze := List.replicate ((m.2.length + 7) / 8) 0#8, newFz := [], repair := []
                    scaleCur := [], scaleNext := [], hxNext := 0 }
  { x with commits := (x.ownedBy me).foldl (fun (t : Tab Commit) (q : Nat × PEnt) => t.set {} q.1 ⟨0xFFFFFFFF#32, true, false, q.2.slot, 0⟩) [] }
/-- A parcel map that has been read (R241, R426): BAD_PARAM, or in force; on a module without commit entries the buddy is asked what it
mirrors, and a takeover may follow. The buddy reports on every BEXT (entry 65). -/
def State.takeMap (s : State) (c id : Nat) (m : List Nat × List PEnt) : State :=
  if s.mapFine c m = false ∨ m.2.any (fun e => decide (e.owner = s.myPos) && !Config.buddyHolds s.clk.beat c e.bext) then s.finish id stBadParam 0
  else
    let fresh := (s.ctx c).commits.all (fun p => !p.2.v)
    let s := s.onCtx c (fun x => x.withMap s.myPos m)
    if fresh ∧ !(s.linksTo c 65).isEmpty then
      (s.onCtx c (fun x => { x with takeover := some { long := id, wait := [] } })).fctl c 65 6 (restoreBody c s.myPos 1)
    else s.finish id stOk 0
/-- OPT_PARCEL_MAP; on a module without commit entries the buddy is asked what it mirrors, and a takeover may follow (R426). -/
def doOptParcelMap (h : Hdr) (count : Nat) (x : DRef) (s : State) : State :=
  packet 0x0702 [1] false h s (fun s =>
    let c := h.ctx
    withRef h x s (decide (count ≤ 2 ^ 24) && decide (256 + 16 * count ≤ x.dlen))
      (if (s.ctx c).busyRun then refuse stBusy s
       else .accept stAccepted .parcelMap c 0 (fun id s => s.readFor x c h.tag id (fun b s => s.takeMap c id (readMap count b))) s))
/-- Scale codes that have been read: BAD_PARAM where one lies beyond the format's, else entered into the tables named (R96). -/
def State.takeScales (s : State) (c first tables : Nat) (v : List Nat) : State × Nat × Nat :=
  if v.any (fun n => decide (wMax (s.ctx c).e4m3 < n)) then (s, stBadParam, 0)
  else
    let put (t : Tab Nat) : Tab Nat := v.zipIdx.foldl (fun (t : Tab Nat) q => t.set 0x7F (first + q.2) q.1) t
    (s.onCtx c (fun x => { x with scaleCur := if bit tables 0 then put x.scaleCur else x.scaleCur
                                  scaleNext := if bit tables 1 then put x.scaleNext else x.scaleNext }), stOk, 0)
/-- OPT_SCALE_LOAD (R96). -/
def doOptScaleLoad (h : Hdr) (first tables count : Nat) (x : DRef) (s : State) : State :=
  packet 0x0703 [1] false h s (fun s =>
    let c := h.ctx
    withRef h x s (decide (tables < 4) && decide (first + count ≤ (s.ctx c).pmap.length) && decide (count ≤ x.dlen))
      (if (s.ctx c).busyRun then refuse stBusy s
       else acceptNow s .config (fun s => s.readThen x c h.tag (fun b s => s.takeScales c first tables ((b.take count).map BitVec.toNat)))))

/-! Groups and freeze sets (R232, R255). -/

/-- A finite FP32 code. -/
def finite32 (w : W32) : Bool := !f32nonfinite w
/-- The values of a group record. -/
def groupForm (g : Words8) : Bool :=
  (decide (grRule g ≤ 6) || decide (grRule g = 15)) && decide (grWfmt g ≤ 2) && decide (grLrs g ≤ 2) && decide (g.fld 0 51 0 = 0) && decide (g.fld 7 47 0 = 0) &&
    [2, 3, 4, 5].all (fun i => finite32 (grConst g i true) && finite32 (grConst g i false)) && finite32 (grConst g 6 true) &&
    (decide (grLrs g ≠ 1) || decide (grWarm g ≤ grTotal g))
/-- A group with parcels keeps its formats. -/
def Ctx.groupKeeps (x : Ctx) (i : Nat) (g : Words8) : Bool :=
  x.pmap.all (fun e => decide (e.group ≠ i)) || (decide (grWfmt g = grWfmt (x.groups.get {} i)) && decide (grBf g = grBf (x.groups.get {} i)))
/-- OPT_GROUP. -/
def doOptGroup (h : Hdr) (group : Nat) (r : Words8) (s : State) : State :=
  packet 0x0704 [3] false h s (fun s =>
    let x := s.ctx h.ctx
    if grRule r = 15 ∧ x.hostAssist = false then refuse stDenied s
    else check6 h s (decide (group < 64) && groupForm r && x.groupKeeps group r)
      (if x.gblk.isNone then refuse stNoResource s else deferOr h.ctx .group (.group group r) s))
/-- OPT_FREEZE. -/
def doOptFreeze (h : Hdr) (count : Nat) (x : DRef) (s : State) : State :=
  packet 0x0705 [1] false h s (fun s =>
    let n := (count + 7) / 8
    withInput h x s (decide (count = (s.ctx h.ctx).pmap.length) && decide (n ≤ x.dlen)) (fun s b => deferOr h.ctx .freeze (.freeze (b.take n)) s))

/-! State (R241, R259, R355). -/

/-- The working copy of a parcel from its master with a step seed, into both banks. -/
def State.deriveBoth (s : State) (c p seed : Nat) (e : PEnt) (master : List Byte) : State :=
  let w := deriveWork ((s.ctx c).groupOf e) seed p (le32s master)
  (s.writeWork c e 0 w).writeWork c e 1 w
/-- Enter one parcel's state at its home slot, derive its working copies, and mirror it (R274, R355). -/
def State.putParcel (s : State) (c p step : Nat) (e : PEnt) (state : List Byte) : State :=
  let bf := grBf ((s.ctx c).groupOf e)
  let s := s.writeSlot c e bf e.slot state
  let s := s.onCtx c (fun x => { x with commits := x.commits.set {} p ⟨BitVec.ofNat 32 step, true, false, e.slot, 0⟩, repair := x.repair.filter (· ≠ p) })
  (s.deriveBoth c p 0 e (state.take 262144)).fly1 c p e e.slot step 0 0 false true
/-- Bytes of a parcel's state in a command's input. -/
def Ctx.stateBytes (x : Ctx) (e : PEnt) (moments : Bool) : Nat := 262144 + (if moments then momBytes (grBf (x.groupOf e)) else 0)
/-- The parcels of a range with their entries. -/
def Ctx.range (x : Ctx) (first count : Nat) : List (Nat × PEnt) := (((x.pmap.zipIdx).drop first).take count).map (fun q => (q.2, q.1))
/-- Parcels with state one after the other in an input. -/
def State.putParcels (s : State) (c : Nat) (moments : Bool) (ps : List (Nat × PEnt)) (b : List Byte) : State :=
  (ps.foldl (fun (a : State × List Byte) q =>
    let n := ((a.1.ctx c).stateBytes q.2 moments)
    let full := ((a.1.ctx c).stateBytes q.2 true)
    (a.1.putParcel c q.1 0xFFFFFFFF q.2 (fitBytes full (a.2.take n)), a.2.drop n)) (s, b)).1
/-- Wait for the mirrors of parcels written by command; without any the command is done. -/
def State.awaitMirrors (s : State) (c id : Nat) (ps : List Nat) : State :=
  if ps = [] then s.finish id stOk 0 else s.onCtx c (fun x => { x with initWait := x.initWait ++ [(id, ps)] })
/-- OPT_STATE_INIT. -/
def doOptStateInit (h : Hdr) (first flags count : Nat) (x : DRef) (s : State) : State :=
  packet 0x0706 [1] false h s (fun s =>
    let c := h.ctx
    let y := s.ctx c
    let ps := y.range first count
    let need := ps.foldl (fun a q => a + y.stateBytes q.2 (bit flags 0)) 0
    if first + count ≤ y.pmap.length ∧ ps.any (fun q => decide (q.2.owner ≠ s.myPos)) then refuse stDenied s
    else withRef h x s (decide (flags < 2) && decide (first + count ≤ y.pmap.length) && decide (need ≤ x.dlen))
      (if y.busyRun then refuse stBusy s
       else .accept stAccepted .stateInit count 0 (fun id s => s.readFor x c h.tag id (fun b s => (s.awaitMirrors c id (ps.map Prod.fst)).putParcels c (bit flags 0) ps b)) s))

/-! Norms and audits (R253, R257, R270, R271). -/

/-- The bytes OPT_NORMS writes. -/
def Ctx.normsOut (x : Ctx) (me : Nat) (r : StepRec) : List Byte :=
  let ps := (x.ownedBy me).map (fun q => (r.parcels.find? (fun p => p.parcel = q.1)).getD ⟨q.1, 0, 0, false, 0, 0⟩)
  leBytes 4 r.step ++ leBytes 4 r.updated ++ leBytes 4 r.skipped ++ leBytes 4 0 ++ leBytes 4 r.gnorm.toNat ++ leBytes 4 0 ++
    leBytes 8 (ps.foldl (fun a p => a + p.s) 0) ++ ps.flatMap (fun p => leBytes 4 (p.parcel + fld (b2n p.skipped) 1 24) ++ leBytes 4 p.a.toNat ++ leBytes 4 p.s)
/-- OPT_NORMS: the last 16 steps. -/
def doOptNorms (h : Hdr) (step : Nat) (x : DRef) (s : State) : State :=
  packet 0x0707 [1] false h s (fun s =>
    let y := s.ctx h.ctx
    let r := y.recs.find? (fun r => r.step = step)
    writeOut h x s r.isSome ((r.map (y.normsOut s.myPos)).getD []))
/-- The format of a working element. -/
def workElem (wfmt : Nat) : Fmt := if wfmt = 0 then e4m3 else if wfmt = 1 then bf16 else e2m1
/-- A working element breaks R270: code c under scale sc (in halvings) against a master value. -/
def driftBad (f : Fmt) (c : Nat) (scale : Val) (x θ : Val) : Bool :=
  let m := c % 2 ^ f.sb
  let gap := Val.mul (.fin false 1 (f.q0 + ((max (m / 2 ^ f.mb) 1 - 1 : Nat) : Int))) scale
  let near := Val.le (Val.add x θ.negate).abs gap
  let top := decide (m = f.maxc) && (x.neg? == θ.neg?) && Val.le x.abs θ.abs
  !(near || top)
/-- The elements of a working copy that break the bound: number, x and θ as FP32 codes. -/
def driftOf (wfmt : Nat) (work : List Byte) (master : List Nat) : List (Nat × Nat × Nat) :=
  let f := workElem wfmt
  master.zipIdx.filterMap (fun q =>
    let c := unpack (workFmt wfmt) work q.2
    let scale := if wfmt = 1 then vOne else e8m0 (work.getD (workElems wfmt + q.2 / 32) 0#8).toNat
    let x := Val.mul (f.dec c) scale
    if driftBad f c scale x (fp32.dec q.1) then some (q.2, (rn32 x).toNat, q.1) else none)
/-- Audit one owned parcel: faults are reported, their number added. -/
def auditParcel (c : Nat) (peers : Bool) (digests : List (Nat × Nat × Nat)) (a : State × Nat) (q : Nat × PEnt) : State × Nat :=
  let s := a.1
  let p := q.1
  let e := q.2
  let x := s.ctx c
  let g := x.groupOf e
  let sc := extSc e.wext
  let step := x.last
  afterRead (s.readPart c (e.mext, 262144 * (x.commits.get {} p).slot, 262144)) (fun s r => (s.stateError sc c p step 0 r, a.2 + 1)) (fun s b =>
    afterRead (s.readPart c (s.workPart e (grWfmt g) (step + 1))) (fun s r => (s.stateError sc c p step 0 r, a.2 + 1)) (fun s w =>
    let ds := driftOf (grWfmt g) w (le32s b)
    let s := ds.foldl (fun s d => s.report ⟨fcDriftExcess, uidRip sc, s.now, 0, 0, c, [p, d.1, d.2.1, d.2.2]⟩) s
    let own := sha64 w
    let ms := if peers then (digests.filter (fun d => decide (d.2.1 = p) && (x.members e).contains d.1 && decide (d.1 ≠ s.myPos) && decide (d.2.2 ≠ own))).map Prod.fst else []
    (ms.foldl (fun s m => s.report ⟨fcWorkingMismatch, uidRip sc, s.now, 0, 0, c, [m]⟩) s, a.2 + ds.length + ms.length)))
/-- OPT_AUDIT (R271): `digests` are the members' digests that come, by position and parcel. -/
def doOptAudit (h : Hdr) (first flags count : Nat) (digests : List (Nat × Nat × Nat)) (s : State) : State :=
  packet 0x0708 [1] false h s (fun s =>
    let c := h.ctx
    let y := s.ctx c
    check6 h s (decide (flags < 2) && decide (first + count ≤ y.pmap.length))
      (if y.busyRun then refuse stBusy s
       else acceptNow s .config (fun s =>
        let ps := (y.range first count).filter (fun q => q.2.owner = s.myPos)
        let r := ps.foldl (auditParcel c (bit flags 0) digests) (s, 0)
        (r.1, stOk, ps.length + sat 32 r.2 * 2 ^ 32))))
/-- OPT_HOST_DONE (R269): the new master is read and the commit goes on; a master that cannot be read leaves the update outstanding. -/
def doOptHostDone (h : Hdr) (parcel attempt step : Nat) (s : State) : State :=
  packet 0x0709 [1] false h s (fun s =>
    let c := h.ctx
    let x := s.ctx c
    if x.hostAssist = false then refuse stDenied s
    else check6 h s (x.hostOut.any (fun o => decide (o.1 = parcel ∧ o.2.1 = attempt)) && decide (x.stepOn = some (step, attempt)))
      (match x.pent parcel with
       | none => refuse stBadParam s
       | some e =>
        let n := (x.commits.get {} parcel).newslot
        afterRead (s.readPart c (e.mext, 262144 * n, 262144)) (fun s r => .done stOk 0 (s.stateError (extSc e.wext) c parcel step attempt r)) (fun s b =>
          let s := s.onCtx c (fun x => { x with hostOut := x.hostOut.filter (fun o => o.1 ≠ parcel) })
          .done stOk 0 (s.finishUpdate c parcel e n step attempt (le32s b) none))))

/-! Sealed capsules (R273, R274). -/

/-- Bytes of a capsule's payload for parcels. -/
def Ctx.payloadLen (x : Ctx) (ps : List (Nat × PEnt)) : Nat := 4608 + ps.foldl (fun a q => a + 16 + x.stateBytes q.2 true) 0
/-- Group records and counts, then the parcels' records and states; the 16-byte record is parcel, STEP, current and next scale entry, zeros. -/
def Ctx.payload (x : Ctx) (ps : List (Nat × List Byte)) : List Byte :=
  (List.range 64).flatMap (fun i => (x.groups.get {} i).bytes) ++ (List.range 64).flatMap (fun i => leBytes 8 (x.counts.get 0 i)) ++
    ps.flatMap (fun q => leBytes 4 q.1 ++ leBytes 4 (x.commits.get {} q.1).step.toNat ++ leBytes 1 (x.scale q.1) ++ leBytes 1 (x.scaleNext.get 0x7F q.1) ++
      leBytes 6 0 ++ q.2)
/-- Read the committed states of parcels one after the other. -/
def State.readStates (s : State) (c : Nat) : List (Nat × PEnt) → State × Except (Nat × PartErr) (List (Nat × List Byte))
  | [] => (s, .ok [])
  | q :: qs =>
    let x := s.ctx c
    afterRead (s.readParts c (slotParts q.2 (grBf (x.groupOf q.2)) (x.commits.get {} q.1).slot)) (fun s r => (s, .error (q.1, r))) (fun s bs =>
      afterRead (s.readStates c qs) (fun s r => (s, .error r)) (fun s l => (s, .ok ((q.1, bs.flatten) :: l))))
/-- The key-encryption key of a recipient: the first 32 bytes of SHA-384 over the shared x-coordinate and the recipient's digest (R273). -/
def kekOf (x devid : List Byte) : Nat := ofBE ((sha384 (x ++ devid)).take 32)
/-- A capsule: content key, IV and ephemeral private key are drawn, and the x-coordinate shared with a recipient, whose public key no command
carries, is drawn for each (entry 10); the rest as laid out. -/
def State.capsule (s : State) (c first count : Nat) (recips : List (List Byte)) (bf : Bool) (payload : List Byte) : State × List Byte :=
  let d0 := s.drawFree
  let d1 := d0.2.drawFree
  let d2 := d1.2.drawFree
  let d3 := d2.2.drawFree
  let key := Config.freeNat d0.1 % 2 ^ 256
  let iv := Config.freeNat d1.1 % 2 ^ 96
  let epk := keyOf (1 + Config.freeNat d2.1 % (ecN - 1))
  let shared := Config.freeBytes d3.1 (48 * recips.length)
  let kek (i : Nat) (devid : List Byte) : Nat := kekOf (fitBytes 48 (shared.drop (48 * i))) devid
  let head := leBytes 4 0x4C574350 ++ leBytes 2 1 ++ leBytes 2 recips.length ++ leBytes 8 (s.ctx c).last ++ leBytes 4 first ++ leBytes 4 count ++
    leBytes 4 (b2n bf) ++ leBytes 4 0 ++ epk ++ leBytes 15 0 ++ beBytes 12 iv ++ leBytes 4 0 ++
    fitBytes 768 (recips.zipIdx.flatMap (fun q => fitBytes 48 q.1 ++ fitBytes 40 (Config.keyWrap (kek q.2 (fitBytes 48 q.1)) key) ++ leBytes 8 0))
  let body := head ++ fitBytes (payload.length + 16) (Config.aesGcmSeal key iv payload [])
  (d3.2, body ++ s.tr.sign (sha384 body))
/-- CAPSULE_SEAL's work (R273, R454): the committed states read, the capsule written and after it the certificate chain; FAULTED with a record where a state cannot be read. -/
def State.sealCapsule (s : State) (c tag first count : Nat) (recips : List (List Byte)) (x : DRef) : State × Nat × Nat :=
  let y := s.ctx c
  let ps := y.range first count
  afterRead (s.readStates c ps) (fun s r =>
    (s.keeperFault fcStateUncorrectable (uidRip (extSc (((y.pent r.1).map PEnt.wext).getD 0))) c tag [r.1, y.last, 0], stFaulted, s.log.next)) (fun s l =>
    let k := s.capsule c first count recips (ps.any (fun q => grBf (y.groupOf q.2))) (y.payload l)
    let w := k.1.writeRef x (k.2 ++ k.1.tr.certs)
    (w.1, w.2.1, w.2.2))
/-- CAPSULE_SEAL. -/
def doCapsuleSeal (h : Hdr) (first count : Nat) (recips : List (List Byte)) (x : DRef) (s : State) : State :=
  packet 0x070A [1 + (3 * recips.length + 1) / 2] false h s (fun s =>
    let c := h.ctx
    let y := s.ctx c
    let ps := y.range first count
    let size := 928 + y.payloadLen ps + 16 + 96 + s.tr.certs.length
    if y.export_ = false ∨ (first + count ≤ y.pmap.length ∧ ps.any (fun q => decide (q.2.owner ≠ s.myPos))) then refuse stDenied s
    else withRef h x s (decide (1 ≤ recips.length) && decide (recips.length ≤ 8) && decide (first + count ≤ y.pmap.length))
      (if y.inStep then refuse stBusy s
       else if x.dlen < size then .done stNoResource size s
       else acceptNow s .config (fun s => s.sealCapsule c h.tag first count recips x)))
/-- The plaintext of a capsule for this module, where its signature is by the key of the certificate that follows it, which chains to the
root, it names the module, and its tag holds (R274, R454). -/
def Trust.openCapsule (t : Trust) (b chain : List Byte) : Option (List Byte) :=
  let f (o n : Nat) : Nat := ofLE ((b.drop o).take n)
  let n := b.length - 96
  let rs := (List.range (f 6 2)).filter (fun i => decide (i < 8) && decide ((b.drop (160 + 96 * i)).take 48 = t.devid))
  match rs with
  | [] => none
  | i :: _ =>
    if t.chained.any (fun k => !k.1.isEmpty && k.1.isPrefixOf chain && verify k.2 (b.take n) (b.drop n)) then
      (sharedX (ofBE t.idKey) ((b.drop 32).take 97)).bind (fun x =>
        (Config.keyUnwrap (kekOf x t.devid) ((b.drop (160 + 96 * i + 48)).take 40)).bind (fun k =>
          Config.aesGcmOpen k (ofBE ((b.drop 144).take 12)) ((b.take n).drop 928) []))
    else none
/-- A capsule's length as its header and the parcel map give it. -/
def Ctx.capsuleLen (x : Ctx) (b : List Byte) : Nat :=
  let f (o n : Nat) : Nat := ofLE ((b.drop o).take n)
  928 + x.payloadLen (x.range (f 16 4) (f 20 4)) + 16 + 96
/-- The header of a capsule fits the parcel map: the module owns every parcel, with these moments. -/
def Ctx.capsuleFits (x : Ctx) (me : Nat) (b : List Byte) : Bool :=
  let f (o n : Nat) : Nat := ofLE ((b.drop o).take n)
  let ps := x.range (f 16 4) (f 20 4)
  decide (f 0 4 = 0x4C574350) && decide (f 4 2 = 1) && decide (f 16 4 + f 20 4 ≤ x.pmap.length) && decide (x.capsuleLen b ≤ b.length) &&
    ps.all (fun q => decide (q.2.owner = me)) && decide (bit (f 24 4) 0 = ps.any (fun q => grBf (x.groupOf q.2)))
/-- Write the parcels of an opened payload. -/
def State.putCapsule (s : State) (c : Nat) (ps : List (Nat × PEnt)) (b : List Byte) : State :=
  (ps.foldl (fun (a : State × List Byte) q =>
    let n := (a.1.ctx c).stateBytes q.2 true
    (a.1.putParcel c q.1 (ofLE ((a.2.drop 4).take 4)) q.2 (fitBytes n ((a.2.drop 16).take n)), a.2.drop (16 + n))) (s, b.drop 4608)).1
/-- A capsule that has been read (R274): BAD_PARAM where it does not fit the map, DENIED where it does not open, else its parcels are written and
their mirrors awaited. -/
def State.takeCapsule (s : State) (c id : Nat) (b : List Byte) : State :=
  let y := s.ctx c
  if y.capsuleFits s.myPos b = false then s.finish id stBadParam 0
  else match s.tr.openCapsule (b.take (y.capsuleLen b)) (b.drop (y.capsuleLen b)) with
    | none => s.finish id stDenied 0
    | some p =>
      let ps := y.range (ofLE ((b.drop 16).take 4)) (ofLE ((b.drop 20).take 4))
      let s := { s with long := s.long.map (fun (l : Long) => if l.id = id then { l with a := ps.length } else l) }
      (s.awaitMirrors c id (ps.map Prod.fst)).putCapsule c ps p
/-- CAPSULE_OPEN. -/
def doCapsuleOpen (h : Hdr) (x : DRef) (s : State) : State :=
  packet 0x070B [1] false h s (fun s =>
    let c := h.ctx
    let y := s.ctx c
    if y.import_ = false then refuse stDenied s
    else withRef h x s true
      (.accept stAccepted .capsuleOpen 0 0 (fun id s => s.readFor x c h.tag id (fun b s => s.takeCapsule c id b)) s))

/-! The meanings: one per command, each a frame around its effect. -/

/-- OPT_CONFIG (R355). -/
def execOptConfig (h : Hdr) (flags hr sat down : Nat) (s : State) : Out :=
  guarded "OPT_CONFIG" (.optConfig h flags hr sat down) s (doOptConfig h flags hr sat down)
/-- OPT_PARCEL_MAP (R241). -/
def execOptParcelMap (h : Hdr) (count : Nat) (x : DRef) (s : State) : Out :=
  guarded "OPT_PARCEL_MAP" (.optParcelMap h count x) s (doOptParcelMap h count x)
/-- OPT_SCALE_LOAD (R355). -/
def execOptScaleLoad (h : Hdr) (first tables count : Nat) (x : DRef) (s : State) : Out :=
  guarded "OPT_SCALE_LOAD" (.optScaleLoad h first tables count x) s (doOptScaleLoad h first tables count x)
/-- OPT_GROUP (R255). -/
def execOptGroup (h : Hdr) (group : Nat) (r : Words8) (s : State) : Out :=
  guarded "OPT_GROUP" (.optGroup h group r) s (doOptGroup h group r)
/-- OPT_FREEZE (R232). -/
def execOptFreeze (h : Hdr) (count : Nat) (x : DRef) (s : State) : Out :=
  guarded "OPT_FREEZE" (.optFreeze h count x) s (doOptFreeze h count x)
/-- OPT_STATE_INIT (R355). -/
def execOptStateInit (h : Hdr) (first flags count : Nat) (x : DRef) (s : State) : Out :=
  guarded "OPT_STATE_INIT" (.optStateInit h first flags count x) s (doOptStateInit h first flags count x)
/-- OPT_NORMS (R355). -/
def execOptNorms (h : Hdr) (step : Nat) (x : DRef) (s : State) : Out :=
  guarded "OPT_NORMS" (.optNorms h step x) s (doOptNorms h step x)
/-- OPT_AUDIT (R271). -/
def execOptAudit (h : Hdr) (first flags count : Nat) (digests : List (Nat × Nat × Nat)) (s : State) : Out :=
  guarded "OPT_AUDIT" (.optAudit h first flags count digests) s (doOptAudit h first flags count digests)
/-- OPT_HOST_DONE (R269). -/
def execOptHostDone (h : Hdr) (parcel attempt step : Nat) (s : State) : Out :=
  guarded "OPT_HOST_DONE" (.optHostDone h parcel attempt step) s (doOptHostDone h parcel attempt step)
/-- CAPSULE_SEAL (R273). -/
def execCapsuleSeal (h : Hdr) (first count : Nat) (recips : List (List Byte)) (x : DRef) (s : State) : Out :=
  guarded "CAPSULE_SEAL" (.capsuleSeal h first count recips x) s (doCapsuleSeal h first count recips x)
/-- CAPSULE_OPEN (R274). -/
def execCapsuleOpen (h : Hdr) (x : DRef) (s : State) : Out :=
  guarded "CAPSULE_OPEN" (.capsuleOpen h x) s (doCapsuleOpen h x)

end Sys2Proof.Machine
end

