-- ==== Sys2Proof/Machine/Sideband.lean ====
section
/-! DEFINITION. The sideband: SMBus, MOD_RST_N, the management port (spec 18: R443; spec 19: R455; spec 20: R470 to R477, R484). `smbOut`
holds the bytes of the last SMBus read. -/

namespace Sys2Proof.Machine

/-- Give bytes to the reader on SMBus. -/
def State.smbus (s : State) (b : List Byte) : State := { s with tr := { s.tr with smbOut := b } }
/-- SMBus and the management port answer while the carrier has standby power (R443, R463); else nothing happens. -/
def State.onStandby (s : State) (f : State → State) : State := if s.pwr.standbyUp then f s else s
/-- SMBUS_READ_IDENTITY. -/
def doSmbusReadIdentity (s : State) : State :=
  s.onStandby (fun s => s.smbus (leBytes 1 s.ha.variant ++ leBytes 1 0 ++ leBytes 4 s.ha.fwver ++ leBytes 4 s.tr.serial.toNat ++ fitBytes 6 s.tr.mac))
/-- The status word of command 0x02. -/
def State.smbStatus (s : State) : Nat :=
  b2n s.ha.ready + 2 * b2n (decide (s.tr.boot ≠ .ready ∧ s.tr.boot ≠ .warm)) + 4 * b2n s.tr.wafer + 8 * b2n s.gov.unmet + 16 * b2n s.gov.derate +
    32 * b2n s.gov.excess + 64 * b2n s.tr.recsUnread + 128 * b2n s.ha.noVariant
/-- SMBUS_READ_STATUS: it releases SMB_ALERT_N. -/
def doSmbusReadStatus (s : State) : State :=
  s.onStandby (fun s =>
    let s := s.smbus (leBytes 2 s.smbStatus)
    { s with tr := { s.tr with recsUnread := false, alert := false } })
/-- SMBUS_RESET_ARM: for 1 s. -/
def doSmbusResetArm (v : Nat) (s : State) : State :=
  s.onStandby (fun s => if v = 0xA5 then { s with tr := { s.tr with armed := some (s.clk.wall + thirds 1000) } } else s)
/-- SMBUS_RESET_ARM_EXPIRY. -/
def doSmbusResetArmExpiry (s : State) : State :=
  if s.tr.armed.any (fun t => decide (t ≤ s.clk.wall)) then { s with tr := { s.tr with armed := none } } else s
/-- SMBUS_RESET_CONFIRM: within the armed second, a module warm reset (R374). -/
def doSmbusResetConfirm (v : Nat) (s : State) : State :=
  s.onStandby (fun s =>
    if v = 0x5A ∧ s.tr.armed.any (fun t => decide (s.clk.wall < t)) then ({ s with tr := { s.tr with armed := none } }).askWarm 5 0 [] else s)
/-- SMBUS_SET_IPV4: applied at the next link-up. -/
def doSmbusSetIpv4 (v : List Byte) (s : State) : State :=
  s.onStandby (fun s => { s with tr := { s.tr with ipNext := some v } })
/-- SMBUS_WRITE_SB_CFG: EDGE alone; a write of 3 is ignored. -/
def doSmbusWriteSbCfg (v : Nat) (s : State) : State :=
  s.onStandby (fun s => if v % 4 = 3 then s else { s with tr := { s.tr with sbCfg := BitVec.ofNat 32 (v % 4) } })
/-- SMBUS_ALERT_RESPONSE: the module's 7-bit address, above the bit that stands for none, where it asserts the signal. -/
def doSmbusAlertResponse (sa1 sa0 : Bool) (s : State) : State :=
  s.onStandby (fun s => if s.tr.alert then s.smbus (leBytes 1 (2 * (0x4C + 2 * b2n sa1 + b2n sa0))) else s.smbus [])
/-- SMBUS_LOG_INDICES. -/
def doSmbusLogIndices (s : State) : State := s.onStandby (fun s => s.smbus (leBytes 4 s.log.next ++ leBytes 4 s.log.oldest))
/-- SMBUS_LOG_SELECT. -/
def doSmbusLogSelect (v : Nat) (s : State) : State := s.onStandby (fun s => { s with log := { s.log with smbSel := v } })
/-- A half of the selected record; all ones outside the kept range. -/
def State.smbHalf (s : State) (high : Bool) : List Byte :=
  let i := s.log.smbSel
  if s.log.oldest ≤ i ∧ i < s.log.next then
    let b := s.logBytes (.ring 0) i
    if high then b.drop 128 else b.take 128
  else List.replicate 128 0xFF#8
/-- SMBUS_LOG_READ_LOW. -/
def doSmbusLogReadLow (s : State) : State := s.onStandby (fun s => s.smbus (s.smbHalf false))
/-- SMBUS_LOG_READ_HIGH: the selection advances. -/
def doSmbusLogReadHigh (s : State) : State :=
  s.onStandby (fun s =>
    let s := s.smbus (s.smbHalf true)
    { s with log := { s.log with smbSel := (s.log.smbSel + 1) % 4294967296 } })
/-- MOD_RST_N_RELEASE by the length of the pulse in ns: below 1 µs ignored, to 1 s a warm reset, beyond a cold boot; a reset armed on SMBus is
discarded (R474, R482). -/
def doModRstNRelease (ns : Nat) (s : State) : State :=
  if ns < 1000 then s
  else
    let s : State := { s with tr := { s.tr with armed := none } }
    if ns ≤ 1000000000 then s.askWarm 4 0 [] else { s with tr := { s.tr with coldAsked := true } }
/-- MGMT_PORT_LINK_UP: the static address set, or DHCP where it is all zero or none was set. -/
def doMgmtPortLinkUp (s : State) : State :=
  s.onStandby (fun s => { s with tr := { s.tr with ip := s.tr.ipNext.bind (fun b => if b.all (· = 0#8) then none else some b) } })
/-- MGMT_SESSION_OPEN: the client's key is an enrolled officer's, or none is enrolled (R455); its sequence starts at 0. -/
def doMgmtSessionOpen (id : Nat) (key : List Byte) (s : State) : State :=
  s.onStandby (fun s =>
    if s.tr.officers = [] ∨ s.tr.officers.any (fun p => decide (p.2 = key)) then
      { s with tr := { s.tr with sessions := s.tr.sessions.filter (fun x => decide (x.id ≠ id)) ++ [{ id := id }] } }
    else s)

/-! The meanings: one per command, each a frame around its effect. -/

/-- MGMT_SESSION_OPEN (R455). -/
def execMgmtSessionOpen (id : Nat) (key : List Byte) (s : State) : Out :=
  guarded "MGMT_SESSION_OPEN" (.mgmtSessionOpen id key) s (doMgmtSessionOpen id key)
/-- MOD_RST_N_RELEASE (R474). -/
def execModRstNRelease (ns : Nat) (s : State) : Out :=
  guarded "MOD_RST_N_RELEASE" (.modRstNRelease ns) s (doModRstNRelease ns)
/-- SMBUS_READ_IDENTITY (R473). -/
def execSmbusReadIdentity (s : State) : Out :=
  guarded "SMBUS_READ_IDENTITY" (.smbusReadIdentity) s (doSmbusReadIdentity)
/-- SMBUS_READ_STATUS (R473). -/
def execSmbusReadStatus (s : State) : Out :=
  guarded "SMBUS_READ_STATUS" (.smbusReadStatus) s (doSmbusReadStatus)
/-- SMBUS_RESET_ARM (R473). -/
def execSmbusResetArm (v : Nat) (s : State) : Out :=
  guarded "SMBUS_RESET_ARM" (.smbusResetArm v) s (doSmbusResetArm v)
/-- SMBUS_RESET_ARM_EXPIRY (R473). -/
def execSmbusResetArmExpiry (s : State) : Out :=
  guarded "SMBUS_RESET_ARM_EXPIRY" (.smbusResetArmExpiry) s (doSmbusResetArmExpiry)
/-- SMBUS_RESET_CONFIRM (R473). -/
def execSmbusResetConfirm (v : Nat) (s : State) : Out :=
  guarded "SMBUS_RESET_CONFIRM" (.smbusResetConfirm v) s (doSmbusResetConfirm v)
/-- SMBUS_SET_IPV4 (R473). -/
def execSmbusSetIpv4 (v : List Byte) (s : State) : Out :=
  guarded "SMBUS_SET_IPV4" (.smbusSetIpv4 v) s (doSmbusSetIpv4 v)
/-- SMBUS_WRITE_SB_CFG (R477). -/
def execSmbusWriteSbCfg (v : Nat) (s : State) : Out :=
  guarded "SMBUS_WRITE_SB_CFG" (.smbusWriteSbCfg v) s (doSmbusWriteSbCfg v)
/-- SMBUS_ALERT_RESPONSE (R473). -/
def execSmbusAlertResponse (sa1 sa0 : Bool) (s : State) : Out :=
  guarded "SMBUS_ALERT_RESPONSE" (.smbusAlertResponse sa1 sa0) s (doSmbusAlertResponse sa1 sa0)
/-- SMBUS_LOG_INDICES (R443). -/
def execSmbusLogIndices (s : State) : Out :=
  guarded "SMBUS_LOG_INDICES" (.smbusLogIndices) s (doSmbusLogIndices)
/-- SMBUS_LOG_SELECT (R443). -/
def execSmbusLogSelect (v : Nat) (s : State) : Out :=
  guarded "SMBUS_LOG_SELECT" (.smbusLogSelect v) s (doSmbusLogSelect v)
/-- SMBUS_LOG_READ_LOW (R443). -/
def execSmbusLogReadLow (s : State) : Out :=
  guarded "SMBUS_LOG_READ_LOW" (.smbusLogReadLow) s (doSmbusLogReadLow)
/-- SMBUS_LOG_READ_HIGH (R443). -/
def execSmbusLogReadHigh (s : State) : Out :=
  guarded "SMBUS_LOG_READ_HIGH" (.smbusLogReadHigh) s (doSmbusLogReadHigh)
/-- MGMT_PORT_LINK_UP (R473). -/
def execMgmtPortLinkUp (s : State) : Out :=
  guarded "MGMT_PORT_LINK_UP" (.mgmtPortLinkUp) s (doMgmtPortLinkUp)

end Sys2Proof.Machine
end

