-- ==== Sys2Proof/Machine/StoreCmd.lean ====
section
/-! DEFINITION. Memory, page and stream commands (spec 08: R204, R205, R221 to R223; spec 14: R348). -/

namespace Sys2Proof.Machine

/-- An extent held by the context a command acts on. -/
def State.ownExt (s : State) (h : Hdr) (e : Nat) : Bool := (s.ext e).all (fun x => decide (x.ctx = h.ctx))
/-- The extent has logical page l. -/
def State.hasPage (s : State) (e l : Nat) : Bool := (s.ext e).any (fun x => decide (l < x.pages))

/-- PAGE_MAP_FAR (R205): the address, then P; a page that has come answers its requests (R312). -/
def doPageMapFar (h : Hdr) (ext page flags addr : Nat) (s : State) : State :=
  packet 0x0301 [1] false h s (fun s =>
    let x := s.extD ext
    let w := s.pageEnt ext x page
    let p := bit flags 0
    let a := bit flags 1
    if (s.ctx h.ctx).farPg = false ∨ s.ownExt h ext = false then refuse stDenied s
    else check6 h s (decide (flags < 4) && s.hasPage ext page && pgFar w &&
        (if a then !pgP w && decide (addr % pageBytes = 0) && decide (addr < 2 ^ 52) else decide (addr = 0)))
      (let s := s.setPage ext x page (farPage (if a then addr / pageBytes else pgAddr w) p)
       let s := if p then { s with ha := { s.ha with far := s.ha.far.filter (fun f => ¬(f.ctx = h.ctx ∧ f.ext = ext ∧ f.page = page)) } } else s
       .done stOk 0 s))

/-- A running stream is at a page of an extent: its next flit or its index lies there. -/
def Slot.atPage (x : Slot) (ext page : Nat) : Bool :=
  decide (x.st = .running) &&
    ((decide (sdExt x.desc = ext) && !x.lacksIdx && decide ((sdOffset x.desc x.pos (x.idx.getD 0)).toNat / pageBytes = page)) ||
      (decide (sdMode x.desc = 1) && decide (sdIext x.desc = ext) && decide (sdIndexOff x.desc x.pos / pageBytes = page)))
/-- Move a store page to a spare one: correctable words corrected, uncorrectable ones zero, the old page retired (R204). -/
def State.retirePage (s : State) (ext page new : Nat) : State × Nat :=
  let x := s.extD ext
  let sc := extSc ext
  let s := s.touch ext x page
  let old := pgAddr (s.pageEnt ext x page)
  let k := s.sc sc
  let hit := k.errs.filter (fun p => decide (p.1 / 65536 = old))
  let bad := hit.filter (fun p => decide (p.2 ≠ 1))
  let bytes := (k.mem.filter (fun c => decide (c.1 / pageBytes = old) && !bad.any (fun p => decide (p.1 = c.1 / 32)))).map (fun c => (new * pageBytes + c.1 % pageBytes, c.2))
  let s := s.onSc sc (fun k => { k with
    mem := bytes.foldl (fun m c => m.wr c.1 c.2) ((k.mem.zero (old * pageBytes) pageBytes).zero (new * pageBytes) pageBytes)
    errs := k.errs.filter (fun p => decide (p.1 / 65536 ≠ old) && decide (p.1 / 65536 ≠ new))
    corr := k.corr + BitVec.ofNat 48 (hit.length - bad.length), uncorr := k.uncorr + BitVec.ofNat 32 bad.length
    retired := k.retired ++ [old] })
  ((s.setPage ext x page (storePage new false)).addDefect (uidSc sc) 3 4 (if bad = [] then 0 else fcStoreUncorrectable) old, bad.length)
/-- The lowest free one of a stack's spare pages (R196, R204). -/
def State.sparePage (s : State) (sc : Nat) : Option Nat :=
  ((List.range sparePages).map ((s.sc sc).pages - sparePages + ·)).find? (fun p => !(s.usedPages sc).contains p)
/-- PAGE_RETIRE (R204). -/
def doPageRetire (h : Hdr) (ext page : Nat) (s : State) : State :=
  packet 0x0302 [1] false h s (fun s =>
    let x := s.extD ext
    if s.ownExt h ext = false then refuse stDenied s
    else check6 h s (s.hasPage ext page && !pgFar (s.pageEnt ext x page))
      (if (s.sc (extSc ext)).slots.any (fun p => p.2.atPage ext page) then refuse stBusy s
       else match s.sparePage (extSc ext) with
         | none => refuse stNoResource s
         | some n => acceptNow s .bind (fun s => let r := s.retirePage ext page n; (r.1, stOk, r.2))))

/-- EXTENT_COPY's work: the source is read whole first; at the first word that cannot be read the units before it are written and the command
ends FAULTED (R344, R348). -/
def copyExtent (h : Hdr) (src dst soff doff len : Nat) (s : State) : State × Nat × Nat :=
  let x := s.extD src
  let y := s.extD dst
  match (s.spendIo src soff (64 * len)).readExt src x soff (64 * len) with
  | (s, .ok b) => ((s.spendIo dst doff (64 * len)).writeExt dst y doff b, stOk, len)
  | (s, .error e) =>
    let off := match e with | .bad o => o | .absent p => p * pageBytes
    let n := (off - soff) / 64
    let b := s.peek src x soff (64 * n)
    let s := s.writeExt dst y doff b
    let r := s.dataFault ⟨src, off, 64⟩ h.ctx h.tag e
    (r.1, stFaulted, r.2 + 2 ^ 32 * n)
/-- EXTENT_COPY. -/
def doExtentCopy (h : Hdr) (src dst soff doff len : Nat) (s : State) : State :=
  packet 0x0303 [1] false h s (fun s =>
    let x := s.extD src
    let y := s.extD dst
    let low (e : Nat) : Bool := (s.ext e).all (fun z => decide (z.kind < 3))
    if s.ownExt h src = false ∨ s.ownExt h dst = false ∨ low src = false ∨ low dst = false then refuse stDenied s
    else check6 h s ((s.ext src).isSome && (s.ext dst).isSome && decide (soff % 64 = 0) && decide (doff % 64 = 0) && x.holds soff (64 * len) &&
        y.holds doff (64 * len) && s.rangeHere src x soff (64 * len) && s.rangeHere dst y doff (64 * len))
      (if (y.kind = 1 ∨ y.kind = 2) ∧ (s.ctx h.ctx).run.any (fun r => decide (r.kind ≠ .plain)) then refuse stBusy s
       else acceptNow s .bind (copyExtent h src dst soff doff len)))

/-! Streams. -/

/-- A stream number names a slot of a fitted stack controller. -/
def State.streamThere (s : State) (n : Nat) : Bool := decide (n < 1536) && (s.sc (n / 64)).serving
/-- A stream's slot. -/
def State.streamSlot (s : State) (n : Nat) : Slot := (s.sc (n / 64)).slots.get {} (n % 64)
/-- A context holds a slot. -/
def State.ownSlot (s : State) (h : Hdr) (n : Nat) : Bool := decide ((s.streamSlot n).ctx = h.ctx)
/-- STREAM_ARM (R208, R211). -/
def doStreamArm (h : Hdr) (stream : Nat) (d : Words8) (s : State) : State :=
  packet 0x0304 [3] false h s (fun s =>
    if s.streamThere stream ∧ s.armRefusal h.ctx (stream / 64) (stream % 64) d = some stDenied then refuse stDenied s
    else check6 h s (s.streamThere stream)
      (match s.armRefusal h.ctx (stream / 64) (stream % 64) d with
       | some st => refuse st s
       | none => .done stOk 0 (s.arm h.ctx (stream / 64) (stream % 64) d 0)))
/-- STREAM_RESUME (R221, R223): the word or index is tried again. -/
def doStreamResume (h : Hdr) (stream : Nat) (s : State) : State :=
  packet 0x0305 [1] false h s (fun s =>
    if s.streamThere stream ∧ s.ownSlot h stream = false then refuse stDenied s
    else check6 h s (s.streamThere stream && decide ((s.streamSlot stream).st = .haltErr))
      (.done stOk 0 (s.onSlot (stream / 64) (stream % 64) (fun x => { x with st := .running, cause := 0 }))))
/-- STREAM_ABORT (R222): the partition stays held until its plan has ended. -/
def doStreamAbort (h : Hdr) (stream : Nat) (s : State) : State :=
  packet 0x0306 [1] false h s (fun s =>
    if s.streamThere stream ∧ s.ownSlot h stream = false then refuse stDenied s
    else check6 h s (s.streamThere stream && (s.streamSlot stream).live)
      (.done stOk 0 ((s.onSlot (stream / 64) (stream % 64) (Slot.abort 6)).askHold h.ctx (uidSc (stream / 64)) .plan)))
/-- OFFSET of a stream's status: where it halted, or where the next flit of its walk lies (R223). The spec gives none for a skip, behind the last
flit, or for a block whose index is not known yet: a free value (entry 59). -/
def State.slotOff (s : State) (n : Nat) (x : Slot) : Nat :=
  match x.st with
  | .idle => 0
  | .haltFar => x.offset
  | .haltErr => x.offset
  | _ =>
    if x.pos = sdTotal x.desc ∨ x.lacksIdx ∨ x.atSkip then Config.openOffset s.clk.beat n x.pos
    else (sdOffset x.desc x.pos (x.idx.getD 0)).toNat
/-- The two words of a stream's status (R223). -/
def State.slotStatus (s : State) (n : Nat) (x : Slot) : List Byte :=
  leBytes 8 (fld x.st.code 3 61 + fld x.cause 4 57 + fld x.buf.length 17 40 + fld x.done 40 0) ++ leBytes 8 (fld (s.slotOff n x) 37 27)
/-- STREAM_STATUS. -/
def doStreamStatus (h : Hdr) (first count : Nat) (x : DRef) (s : State) : State :=
  packet 0x0307 [1] false h s (fun s =>
    let ns := (List.range count).map (first + ·)
    if ns.all s.streamThere ∧ ns.any (fun n => !s.ownSlot h n) then refuse stDenied s
    else writeOut h x s (decide (1 ≤ count) && decide (count ≤ 64) && ns.all s.streamThere)
      (ns.flatMap (fun n => s.slotStatus n (s.streamSlot n))))

/-! The meanings: one per command, each a frame around its effect. -/

/-- PAGE_MAP_FAR (R348). -/
def execPageMapFar (h : Hdr) (ext page flags addr : Nat) (s : State) : Out :=
  guarded "PAGE_MAP_FAR" (.pageMapFar h ext page flags addr) s (doPageMapFar h ext page flags addr)
/-- PAGE_RETIRE (R204). -/
def execPageRetire (h : Hdr) (ext page : Nat) (s : State) : Out :=
  guarded "PAGE_RETIRE" (.pageRetire h ext page) s (doPageRetire h ext page)
/-- EXTENT_COPY (R348). -/
def execExtentCopy (h : Hdr) (src dst soff doff len : Nat) (s : State) : Out :=
  guarded "EXTENT_COPY" (.extentCopy h src dst soff doff len) s (doExtentCopy h src dst soff doff len)
/-- STREAM_ARM (R208). -/
def execStreamArm (h : Hdr) (stream : Nat) (d : Words8) (s : State) : Out :=
  guarded "STREAM_ARM" (.streamArm h stream d) s (doStreamArm h stream d)
/-- STREAM_RESUME (R223). -/
def execStreamResume (h : Hdr) (stream : Nat) (s : State) : Out :=
  guarded "STREAM_RESUME" (.streamResume h stream) s (doStreamResume h stream)
/-- STREAM_ABORT (R222). -/
def execStreamAbort (h : Hdr) (stream : Nat) (s : State) : Out :=
  guarded "STREAM_ABORT" (.streamAbort h stream) s (doStreamAbort h stream)
/-- STREAM_STATUS (R223). -/
def execStreamStatus (h : Hdr) (first count : Nat) (x : DRef) (s : State) : Out :=
  guarded "STREAM_STATUS" (.streamStatus h first count x) s (doStreamStatus h first count x)

end Sys2Proof.Machine
end

