-- ==== Sys2Proof/Machine/StreamCmd.lean ====
section
/-! DEFINITION. The control, address and transfer instructions of the streams (spec 05). -/

namespace Sys2Proof.Machine

/-- Wait CYC further cycles (R125). -/
def doNop (h : IHdr) (cyc : Nat) : State → State := tileStep h (.nop cyc)
/-- Wait for a cycle offset (R125). -/
def doWcy (h : IHdr) (offset : Nat) : State → State := tileStep h (.wcy offset)
/-- Enter a loop (R131). -/
def doLoop (h : IHdr) (f : LoopF) : State → State := tileStep h (.loop f)
/-- Call a routine (R133). -/
def doCall (h : IHdr) (routine : Nat) : State → State := tileStep h (.call routine)
/-- Return (R133). -/
def doRet (h : IHdr) : State → State := tileStep h .ret
/-- Swap point (R145). -/
def doSwp (h : IHdr) : State → State := tileStep h .swp
/-- End (R146). -/
def doEndI (h : IHdr) : State → State := tileStep h .endI
/-- Set a generator (R127). -/
def doAgs (h : IHdr) (f : AgsF) : State → State := tileStep h (.ags f)
/-- Set loop increments (R127). -/
def doAgi (h : IHdr) (f : AgiF) : State → State := tileStep h (.agi f)
/-- Store a tile register (R140). -/
def doSrd (h : IHdr) (reg ag : Nat) : State → State := tileStep h (.srd reg ag)
/-- Write a tile register (R140). -/
def doSwr (h : IHdr) (reg : Nat) (v : BitVec 64) : State → State := tileStep h (.swr reg v)
/-- Take flits (R135). -/
def doGet (h : IHdr) (ch ag flits : Nat) : State → State := tileStep h (.get ch ag flits)
/-- Place flits (R135). -/
def doPut (h : IHdr) (ch ag flits : Nat) : State → State := tileStep h (.put ch ag flits)
/-- Gather rows (R136). -/
def doGth (h : IHdr) (f : GthF) : State → State := tileStep h (.gth f)
/-- Scatter rows (R136). -/
def doSct (h : IHdr) (f : SctF) : State → State := tileStep h (.sct f)
/-- Write plan page flits (R144). -/
def doPgl (h : IHdr) (ch offset flits : Nat) (fin : Bool) : State → State := tileStep h (.pgl ch offset flits fin)

/-! The meanings: one per command, each a frame around its effect. -/

/-- NOP (R125). -/
def execNop (h : IHdr) (cyc : Nat) (s : State) : Out :=
  guarded "NOP" (.nop h cyc) s (doNop h cyc)
/-- WCY (R125). -/
def execWcy (h : IHdr) (offset : Nat) (s : State) : Out :=
  guarded "WCY" (.wcy h offset) s (doWcy h offset)
/-- LOOP (R131). -/
def execLoop (h : IHdr) (f : LoopF) (s : State) : Out :=
  guarded "LOOP" (.loop h f) s (doLoop h f)
/-- CALL (R133). -/
def execCall (h : IHdr) (routine : Nat) (s : State) : Out :=
  guarded "CALL" (.call h routine) s (doCall h routine)
/-- RET (R133). -/
def execRet (h : IHdr) (s : State) : Out :=
  guarded "RET" (.ret h) s (doRet h)
/-- SWP (R145). -/
def execSwp (h : IHdr) (s : State) : Out :=
  guarded "SWP" (.swp h) s (doSwp h)
/-- END (R146). -/
def execEndI (h : IHdr) (s : State) : Out :=
  guarded "END" (.endI h) s (doEndI h)
/-- AGS (R127). -/
def execAgs (h : IHdr) (f : AgsF) (s : State) : Out :=
  guarded "AGS" (.ags h f) s (doAgs h f)
/-- AGI (R127). -/
def execAgi (h : IHdr) (f : AgiF) (s : State) : Out :=
  guarded "AGI" (.agi h f) s (doAgi h f)
/-- SRD (R140). -/
def execSrd (h : IHdr) (reg ag : Nat) (s : State) : Out :=
  guarded "SRD" (.srd h reg ag) s (doSrd h reg ag)
/-- SWR (R140). -/
def execSwr (h : IHdr) (reg : Nat) (v : BitVec 64) (s : State) : Out :=
  guarded "SWR" (.swr h reg v) s (doSwr h reg v)
/-- GET (R135). -/
def execGet (h : IHdr) (ch ag flits : Nat) (s : State) : Out :=
  guarded "GET" (.get h ch ag flits) s (doGet h ch ag flits)
/-- PUT (R135). -/
def execPut (h : IHdr) (ch ag flits : Nat) (s : State) : Out :=
  guarded "PUT" (.put h ch ag flits) s (doPut h ch ag flits)
/-- GTH (R136). -/
def execGth (h : IHdr) (f : GthF) (s : State) : Out :=
  guarded "GTH" (.gth h f) s (doGth h f)
/-- SCT (R136). -/
def execSct (h : IHdr) (f : SctF) (s : State) : Out :=
  guarded "SCT" (.sct h f) s (doSct h f)
/-- PGL (R144). -/
def execPgl (h : IHdr) (ch offset flits : Nat) (fin : Bool) (s : State) : Out :=
  guarded "PGL" (.pgl h ch offset flits fin) s (doPgl h ch offset flits fin)

end Sys2Proof.Machine
end

