-- ==== Sys2Proof/Machine/Takeover.lean ====
section
/-! DEFINITION. Lost modules and takeovers (spec 17: R423, R425, R426). -/

namespace Sys2Proof.Machine

/-! What a position sends on RESTORE_REQUEST: every sending counts its units of 2 KiB. -/

/-- A machine with the units sent so far. -/
abbrev Sending := State × Nat
/-- Queue packets towards a sender's position: by its route entry in this pod, on the link its request came over for another. -/
def State.answerAll (s : State) (f : FHdr) (p : Nat) (ps : List FPkt) : State :=
  if f.spod = s.myPod then s.fsendAll p ps else (s.onLink f.link (fun l => { l with queue := l.queue ++ ps })).pumpLink f.link
/-- Answer with a transfer in units of 2 KiB. -/
def answerTransfer (f : FHdr) (parcel typ vc step attempt wnext flags : Nat) (data : List Byte) (a : Sending) : Sending :=
  let n := (data.length + 2047) / 2048
  (a.1.answerAll f parcel ((List.range n).map (fun i =>
    ⟨vc, typ, f.ctx, f.spos, prefixBytes parcel step attempt wnext i n flags ++ fitBytes 2048 ((data.drop (2048 * i)).take 2048)⟩)), a.2 + n)
/-- Bit 0: the mirrored state of every parcel that is the requester's, in reverse direction; of a mirror slot that cannot be read the owner is
asked to mirror its parcels anew (R423). -/
def sendMirrored (f : FHdr) (pos : Nat) (a : Sending) : Sending :=
  let x := a.1.ctx f.ctx
  (x.ownedBy pos).foldl (fun (a : Sending) q =>
    let m := x.mirrors.get {} q.1
    match (a.1.mirrorPlaces f.ctx)[m.slot]? with
    | none => a
    | some pl =>
      if m.v = false then a
      else
        let n := 262144 + momBytes (grBf (x.groupOf q.2))
        afterRead (a.1.readPart f.ctx (pl.1, pl.2, n)) (fun s _ =>
          let s := s.report ⟨fcStateUncorrectable, uidRip (extSc pl.1), s.now, 0, 0, f.ctx, [q.1, m.step.toNat, 0]⟩
          (s.answerAll f 0 [⟨0, 0x10, f.ctx, f.spos, ctlBody 6 (restoreBody f.ctx s.myPos 8)⟩], a.2))
          (fun s b => answerTransfer f q.1 5 3 m.step.toNat 0 (x.scaleNext.get 0x7F q.1) 0 b (s, a.2))) a
/-- The last step whose working copy of a parcel this module has. -/
def Ctx.workStep (x : Ctx) (me p : Nat) (e : PEnt) : Nat :=
  if e.owner = me then (if (x.commits.get {} p).step = 0xFFFFFFFF#32 then x.last else (x.commits.get {} p).step.toNat)
  else if x.gathered.contains p then (x.now.map StepNow.step).getD x.last else x.last
/-- Both banks of a working slot, the older first, each with its step in the prefix; a parcel no step has changed once for both. -/
def sendBanks (f : FHdr) (p : Nat) (e : PEnt) (a : Sending) : Sending :=
  let x := a.1.ctx f.ctx
  let n := x.workStep a.1.myPos p e
  let one (step b : Nat) (a : Sending) : Sending :=
    afterRead (a.1.readPart f.ctx (a.1.workPart e (grWfmt (x.groupOf e)) b)) (fun s r => (s.stateError (extSc e.wext) f.ctx p step 0 r, a.2))
      (fun s w => answerTransfer f p 4 2 step 0 (x.scaleNext.get 0x7F p) 0 w (s, a.2))
  if n = 0xFFFFFFFF then one 0xFFFFFFFF 0 a
  else one n (n + 1) (one ((n + 0xFFFFFFFF) % 4294967296) n a)
/-- Bit 1: the working banks of the parcels this module owns of the requester's sets, and of those the requester owns where this module is the
lowest-numbered other member. -/
def sendAllBanks (f : FHdr) (pos : Nat) (a : Sending) : Sending :=
  let x := a.1.ctx f.ctx
  let me := a.1.myPos
  (x.pmap.zipIdx).foldl (fun (a : Sending) q =>
    let ms := x.members q.1
    if ms.contains pos ∧ (q.1.owner = me ∨ (q.1.owner = pos ∧ (ms.filter (· ≠ pos)).head? = some me)) then sendBanks f q.2 q.1 a else a) a
/-- Bit 2: both scale tables, each padded to whole units, under parcel 0xFFFFFF with flag bit 1. -/
def sendScales (f : FHdr) (a : Sending) : Sending :=
  let x := a.1.ctx f.ctx
  let n := x.pmap.length
  let tab (t : Tab Nat) : List Byte := fitBytes ((n + 2047) / 2048 * 2048) ((List.range n).map (fun p => BitVec.ofNat 8 (t.get 0x7F p)))
  answerTransfer f 0xFFFFFF 5 3 x.last 0 0 2 (tab x.scaleCur ++ tab x.scaleNext) a
/-- Neither copy of a committed parcel can be read: reaction P, and the parcel waits for the host (R423). -/
def State.bothLost (s : State) (c parcel step sc : Nat) : State :=
  let i := s.log.next
  ((s.report ⟨fcStateUncorrectable, uidRip sc, s.now, 0, 0, c, [parcel, step, 0]⟩).endRun c stFaulted i).askHold c (uidRip sc) .plan
/-- Bit 3: every committed parcel this module owns goes to its buddy anew; the acknowledgement changes no STEP. A slot whose other copy was
found uncorrectable before ends the context's run (R423). -/
def sendRemirror (f : FHdr) (a : Sending) : Sending :=
  let c := f.ctx
  let x := a.1.ctx c
  (x.ownedBy a.1.myPos).foldl (fun (a : Sending) q =>
    let m := x.commits.get {} q.1
    if m.v = false then a
    else afterRead (a.1.readParts c (slotParts q.2 (grBf (x.groupOf q.2)) m.slot))
      (fun s r => (if x.repair.contains q.1 then s.bothLost c q.1 m.step.toNat (extSc q.2.wext) else s.stateError (extSc q.2.wext) c q.1 m.step.toNat 0 r, a.2))
      (fun s bs =>
        let s := s.onCtx c (fun x => { x with flight := if x.flight.any (fun g => g.parcel = q.1) then x.flight else x.flight ++ [⟨q.1, m.step.toNat, 0, s.clk.beat, true, 0, true⟩] })
        let d := bs.flatten
        (s.transfer c 65 q.1 5 3 m.step.toNat 0 (x.scaleNext.get 0x7F q.1) 0 d, a.2 + (d.length + 2047) / 2048))) a
/-- The body of RESTORE_DONE. -/
def doneBody (c pos : Nat) (x : Ctx) (units : Nat) : List Byte :=
  let n := x.now.filter (fun n => decide (n.step ≠ x.last))
  leBytes 2 c ++ leBytes 1 pos ++ leBytes 1 0 ++ leBytes 4 x.last ++ leBytes 4 ((n.map StepNow.step).getD 0xFFFFFFFF) ++
    leBytes 8 ((n.map StepNow.seed).getD 0) ++ leBytes 1 ((n.map StepNow.attempt).getD 0) ++ leBytes 3 0 ++ leBytes 4 (x.gnorm.get 0 x.last) ++
    leBytes 4 units ++ (List.range 64).flatMap (fun g => leBytes 4 (x.counts.get 0 g))
/-- What the mask of a RESTORE_REQUEST asks of this module, sent. The buddy answers bits 0 and 2, a position whose buddy is the requester
bit 3. -/
def restoreAnswer (f : FHdr) (pos mask : Nat) (s : State) : Sending :=
  let a : Sending := (s, 0)
  let a := if bit mask 0 then sendMirrored f pos a else a
  let a := if bit mask 1 then sendAllBanks f pos a else a
  let a := if bit mask 2 then sendScales f a else a
  if bit mask 3 ∧ s.pod.cfg.any (fun g => decide (g.buddy = f.spos ∧ g.buddyPod = f.spod)) then sendRemirror f a else a
/-- RESTORE_REQUEST (R426): what it asks, ended by RESTORE_DONE. -/
def doRestoreRequest (f : FHdr) (pos mask : Nat) (s : State) : State :=
  s.fabricIn f 0 [12] (fun s =>
    let a := restoreAnswer f pos mask s
    a.1.answerAll f 0 [⟨0, 0x10, f.ctx, f.spos, ctlBody 7 (doneBody f.ctx s.myPos (a.1.ctx f.ctx) a.2)⟩])

/-! The requester. -/

/-- The buddy has reported mirror entries: its step record and counts are taken, and every other position is asked, the buddy for the scale
tables too. -/
def State.askOthers (s : State) (f : FHdr) (last cur seed attempt gnorm units : Nat) (counts : List Nat) : State :=
  let c := f.ctx
  let me := s.myPos
  let key := s.senderKey f
  let peers := (s.ctx c).peersOf me
  let s := s.onCtx c (fun x => { x with
    last := last, counts := counts.zipIdx.foldl (fun (t : Tab Nat) q => t.set 0 q.2 q.1) [], gnorm := Tab.set 0 [] last gnorm
    now := if cur = 0xFFFFFFFF then none else some { step := cur, seed := seed, tokens := 0, attempts := attempt + 1, attempt := attempt, ended := true, taken := true }
    takeover := x.takeover.map (fun t => { t with asked := true, due := t.due.upd 0 key (· + units), wait := if peers.contains key then peers else key :: peers }) })
  let s := if peers.contains key then s else s.fctl c 65 6 (restoreBody c me 4)
  peers.foldl (fun s q => s.fctl c q 6 (restoreBody c me (if q = key then 14 else 10))) s
/-- RESTORE_DONE (R426): the buddy's first answer without units ends the takeover with nothing to take; else it starts the others, and each
sender's is the end of what it sends. -/
def doRestoreDone (f : FHdr) (pos last cur seed attempt gnorm units : Nat) (counts : List Nat) (s : State) : State :=
  s.fabricIn f 0 [296] (fun s =>
    let c := f.ctx
    match (s.ctx c).takeover with
    | none => s
    | some t =>
      if t.asked = false then
        if units = 0 then s.endTakeover c stOk 0
        else (s.askOthers f last cur seed attempt gnorm units counts).tryTakeover c
      else
        let key := if f.spod = s.myPod then pos else 65
        (s.onCtx c (fun x => { x with takeover := x.takeover.map (fun t => { t with wait := t.wait.filter (· ≠ key), due := t.due.upd 0 key (· + units) }) })).tryTakeover c)

/-! Lost modules (R425). -/

/-- No packet for 1 ms on any link of a position's route entry, or every such link excluded. -/
def State.silent (s : State) (pos : Nat) : Bool :=
  let ls := s.linksTo 0 pos
  !ls.isEmpty && (ls.all (fun n => (s.link n).st = 2) || ls.all (fun n => decide ((s.link n).lastRx + thirds 1 ≤ s.clk.wall)))
/-- The contexts a lost position affects. -/
def State.affected (s : State) (pos : Nat) : List Nat :=
  (s.ctxs.filter (fun p => isUser p.1 && decide (p.2.pmap ≠ []) &&
    ((membersOf (p.2.rsets.foldl (· ||| ·) 0)).contains pos || s.pod.cfg.any (fun g => decide (g.buddy = pos ∧ g.buddyPod = g.pod))))).map Prod.fst
/-- Commits in flight to a lost buddy are abandoned; mirrors of loaded state end their commands with the record as the cause (R264). -/
def State.dropFlight (s : State) (c cause : Nat) : State :=
  let x := s.ctx c
  x.flight.foldl (fun s fl =>
    if fl.initial then (s.onCtx c (fun x => { x with flight := x.flight.filter (fun g => g.parcel ≠ fl.parcel) })).initDone c fl.parcel (some cause)
    else
      let s := if fl.unch then s else s.dropSlotLease c (((x.pent fl.parcel).map (fun e => extSc e.wext)).getD 0) (x.commits.get {} fl.parcel).newslot
      s.abandonCommit c fl.parcel) s
/-- What a lost position does to one context: reaction P, and a takeover that needs it fails. -/
def State.lostFor (s : State) (pos c : Nat) : State :=
  let idx := s.log.next
  let s := s.keeperFault fcModuleLost uidKeeper c 0 [pos]
  let s := if s.pod.cfg.any (fun g => decide (g.buddy = pos ∧ g.buddyPod = g.pod)) then s.dropFlight c idx else s
  match (s.ctx c).takeover with
  | some t => if t.wait.contains pos ∨ t.due.any (fun d => decide (d.1 = pos ∧ t.got.get 0 pos ≠ d.2)) then s.endTakeover c stFaulted idx else s
  | none => s
/-- MODULE_LOST (R425). -/
def doModuleLost (pos : Nat) (s : State) : State :=
  if (s.pod.peers.get {} pos).lost ∨ s.silent pos = false ∨ pos = s.myPos then s
  else
    let s := { s with pod := { s.pod with peers := s.pod.peers.upd {} pos (fun p => { p with lost := true }) } }
    match s.affected pos with
    | [] => s.keeperFault fcModuleLost uidKeeper 0 0 [pos]
    | cs => cs.foldl (fun s c => s.lostFor pos c) s

/-! The meanings: one per command, each a frame around its effect. -/

/-- RESTORE_REQUEST (R426). -/
def execRestoreRequest (f : FHdr) (pos mask : Nat) (s : State) : Out :=
  guarded "RESTORE_REQUEST" (.restoreRequest f pos mask) s (doRestoreRequest f pos mask)
/-- RESTORE_DONE (R426). -/
def execRestoreDone (f : FHdr) (pos last cur seed attempt gnorm units : Nat) (counts : List Nat) (s : State) : Out :=
  guarded "RESTORE_DONE" (.restoreDone f pos last cur seed attempt gnorm units counts) s (doRestoreDone f pos last cur seed attempt gnorm units counts)
/-- MODULE_LOST (R425). -/
def execModuleLost (pos : Nat) (s : State) : Out :=
  guarded "MODULE_LOST" (.moduleLost pos) s (doModuleLost pos)

end Sys2Proof.Machine
end

