-- ==== Sys2Proof/Machine/TrustCmd.lean ====
section
/-! DEFINITION. Attestation, certificates and the officer table (spec 14: R359; spec 19: R446 to R453). -/

namespace Sys2Proof.Machine

/-- SHA-384 of a byte string; zero for an empty one. -/
def digestOr0 (b : List Byte) : List Byte := if b = [] then List.replicate 48 0#8 else sha384 b
/-- The image staged for the next reset. -/
def Trust.stagedImage (t : Trust) : List Byte := if t.staged then t.fw.get [] (1 - t.bootSlot) else []
/-- The defect-map digest (R370). -/
def Trust.defectDigest (t : Trust) : List Byte := sha384 (t.factory ++ t.refine.flatMap Refine.bytes)
/-- Bytes 0 to 511 of an attestation report. -/
def State.report512 (s : State) (nonce : List Byte) : List Byte :=
  let t := s.tr
  [leBytes 4 0x4C574154, leBytes 2 1, leBytes 1 s.ha.variant, leBytes 1 0, leBytes 8 s.now, leBytes 4 s.log.boot, leBytes 4 t.fwver,
    leBytes 4 t.svn, leBytes 4 t.minSvn, fitBytes 32 nonce, t.devid, fitBytes 48 t.mfw, fitBytes 48 t.mboot, digestOr0 t.stagedImage,
    digestOr0 t.varCert, t.defectDigest, s.protDigest, t.officerDigest, leBytes 4 t.certSeq, leBytes 4 t.ogen.toNat, leBytes 56 0].flatten
/-- ATTEST. -/
def doAttest (h : Hdr) (nonce : List Byte) (x : DRef) (s : State) : State :=
  packet 0x0B02 [2] false h s (fun s => writeOut h x s true (let r := s.report512 nonce; r ++ s.tr.sign (sha384 r)))
/-- CERT_READ (R446). -/
def doCertRead (h : Hdr) (x : DRef) (s : State) : State :=
  packet 0x0B05 [1] false h s (fun s => writeOut h x s true s.tr.certs)

/-- The form of a key to enrol (R452). -/
def Trust.newKeyOk (t : Trust) (key : List Byte) : Bool :=
  decide (key.headD 0#8 = 4#8) && (key.drop 97).all (· = 0#8) && keyOk (key.take 97) && !t.officers.any (fun p => decide (p.2 = key.take 97))
/-- The officers whose signatures a change needs. -/
def Trust.needed (t : Trust) : Nat := min 2 t.enrolled
/-- An officer change is applied: OGEN advances, and a record names who signed (R452). -/
def State.officerChange (s : State) (h : Hdr) (purpose slot : Nat) (bs : List SigBlk) (f : Tab (List Byte) → Tab (List Byte)) : State :=
  ({ s with tr := { s.tr with officers := f s.tr.officers, ogen := s.tr.ogen + 1 } }).protRec h purpose slot (s.tr.ogen + 1).toNat bs false []
/-- OFFICER_ENROL: the key is judged first, then the signatures, then the rest. -/
def doOfficerEnrol (h : Hdr) (slot : Nat) (key : List Byte) (blks : List SigBlk) (s : State) : State :=
  packet 0x0B03 ([9, 13, 17].filter (fun l => decide (l = 5 + 4 * blks.length))) true h s (fun s =>
    let t := s.tr
    let k := key.take 97
    if t.newKeyOk key = false then refuse stBadParam s
    else if (blks.head?.map SigBlk.slot) ≠ some 0xFF ∨ t.blocksOk (some k) (t.statement 3 slot t.ogen.toNat (sha384 k)) blks = false ∨
        officersIn blks < t.needed then refuse stSignature s
    else check6 h s (decide (slot < 8))
      (if t.officers.get [] slot ≠ [] then refuse stBusy s
       else .done stOk 0 (s.officerChange h 3 slot blks (fun o => o.set [] slot k))))
/-- OFFICER_RETIRE. -/
def doOfficerRetire (h : Hdr) (slot : Nat) (blks : List SigBlk) (s : State) : State :=
  packet 0x0B04 ([5, 9].filter (fun l => decide (l = 1 + 4 * blks.length))) true h s (fun s =>
    let t := s.tr
    if t.blocksOk none (t.statement 4 slot t.ogen.toNat []) blks = false ∨ officersIn blks < max 1 t.needed then refuse stSignature s
    else check6 h s (decide (slot < 8) && decide (t.officers.get [] slot ≠ []))
      (.done stOk 0 (s.officerChange h 4 slot blks (fun o => o.set [] slot []))))

/-! The meanings: one per command, each a frame around its effect. -/

/-- ATTEST (R453). -/
def execAttest (h : Hdr) (nonce : List Byte) (x : DRef) (s : State) : Out :=
  guarded "ATTEST" (.attest h nonce x) s (doAttest h nonce x)
/-- OFFICER_ENROL (R452). -/
def execOfficerEnrol (h : Hdr) (slot : Nat) (key : List Byte) (blks : List SigBlk) (s : State) : Out :=
  guarded "OFFICER_ENROL" (.officerEnrol h slot key blks) s (doOfficerEnrol h slot key blks)
/-- OFFICER_RETIRE (R452). -/
def execOfficerRetire (h : Hdr) (slot : Nat) (blks : List SigBlk) (s : State) : Out :=
  guarded "OFFICER_RETIRE" (.officerRetire h slot blks) s (doOfficerRetire h slot blks)
/-- CERT_READ (R446). -/
def execCertRead (h : Hdr) (x : DRef) (s : State) : Out :=
  guarded "CERT_READ" (.certRead h x) s (doCertRead h x)

end Sys2Proof.Machine
end

