-- ==== Sys2Proof/Machine/VectorCmd.lean ====
section
/-! DEFINITION. The vector chain's instructions (spec 04). -/

namespace Sys2Proof.Machine

/-- Load a chain slot (R101). -/
def doVcl (h : IHdr) (slot ag : Nat) : State → State := tileStep h (.vcl slot ag)
/-- Start a run (R116). -/
def doVrn (h : IHdr) (slot : Nat) (ovl : Bool) : State → State := tileStep h (.vrn slot ovl)
/-- Write VC_LEN (R116). -/
def doVsl (h : IHdr) (f : VslF) : State → State := tileStep h (.vsl f)
/-- Write VC_MASK (R116). -/
def doVsm (h : IHdr) (mask : BitVec 64) : State → State := tileStep h (.vsm mask)
/-- Store reduction-buffer entries (R112). -/
def doVrs (h : IHdr) (bank n ag : Nat) : State → State := tileStep h (.vrs bank n ag)
/-- Load reduction-buffer entries (R112). -/
def doVrl (h : IHdr) (bank n ag : Nat) : State → State := tileStep h (.vrl bank n ag)

/-! The meanings: one per command, each a frame around its effect. -/

/-- VCL (R101). -/
def execVcl (h : IHdr) (slot ag : Nat) (s : State) : Out :=
  guarded "VCL" (.vcl h slot ag) s (doVcl h slot ag)
/-- VRN (R116). -/
def execVrn (h : IHdr) (slot : Nat) (ovl : Bool) (s : State) : Out :=
  guarded "VRN" (.vrn h slot ovl) s (doVrn h slot ovl)
/-- VSL (R116). -/
def execVsl (h : IHdr) (f : VslF) (s : State) : Out :=
  guarded "VSL" (.vsl h f) s (doVsl h f)
/-- VSM (R116). -/
def execVsm (h : IHdr) (mask : BitVec 64) (s : State) : Out :=
  guarded "VSM" (.vsm h mask) s (doVsm h mask)
/-- VRS (R112). -/
def execVrs (h : IHdr) (bank n ag : Nat) (s : State) : Out :=
  guarded "VRS" (.vrs h bank n ag) s (doVrs h bank n ag)
/-- VRL (R112). -/
def execVrl (h : IHdr) (bank n ag : Nat) (s : State) : Out :=
  guarded "VRL" (.vrl h bank n ag) s (doVrl h bank n ag)

end Sys2Proof.Machine
end

