-- ==== Sys2Proof/Machine/Dispatch.lean ====
section
/-! DEFINITION. The commands to their meanings: one arm per constructor, in the order of the spec's opcode table. -/

namespace Sys2Proof.Machine

def exec (i : Instr) (s : State) : Host.Outcome State Fault Refusal :=
  match i with
  | .beatBoundary => Sys2Proof.Machine.execBeatBoundary s
  | .siteRemap region cluster => Sys2Proof.Machine.execSiteRemap region cluster s
  | .boundarySlip rx tx cyc => Sys2Proof.Machine.execBoundarySlip rx tx cyc s
  | .stretchOrder m beat cyc => Sys2Proof.Machine.execStretchOrder m beat cyc s
  | .holdRequest ctx src cyc => Sys2Proof.Machine.execHoldRequest ctx src cyc s
  | .holdDecision ctx => Sys2Proof.Machine.execHoldDecision ctx s
  | .holdTimeout ctx => Sys2Proof.Machine.execHoldTimeout ctx s
  | .ptpAnchor time locked => Sys2Proof.Machine.execPtpAnchor time locked s
  | .beatInLost => Sys2Proof.Machine.execBeatInLost s
  | .beatEpoch f beat => Sys2Proof.Machine.execBeatEpoch f beat s
  | .mcf h gang sati => Sys2Proof.Machine.execMcf h gang sati s
  | .mld h f => Sys2Proof.Machine.execMld h f s
  | .msw h => Sys2Proof.Machine.execMsw h s
  | .mst h f u => Sys2Proof.Machine.execMst h f u s
  | .mdr h f => Sys2Proof.Machine.execMdr h f s
  | .cvl h setting pb ag word => Sys2Proof.Machine.execCvl h setting pb ag word s
  | .vcl h slot ag => Sys2Proof.Machine.execVcl h slot ag s
  | .vrn h slot ovl => Sys2Proof.Machine.execVrn h slot ovl s
  | .vsl h f => Sys2Proof.Machine.execVsl h f s
  | .vsm h mask => Sys2Proof.Machine.execVsm h mask s
  | .vrs h bank n ag => Sys2Proof.Machine.execVrs h bank n ag s
  | .vrl h bank n ag => Sys2Proof.Machine.execVrl h bank n ag s
  | .nop h cyc => Sys2Proof.Machine.execNop h cyc s
  | .wcy h offset => Sys2Proof.Machine.execWcy h offset s
  | .loop h f => Sys2Proof.Machine.execLoop h f s
  | .call h routine => Sys2Proof.Machine.execCall h routine s
  | .ret h => Sys2Proof.Machine.execRet h s
  | .swp h => Sys2Proof.Machine.execSwp h s
  | .endI h => Sys2Proof.Machine.execEndI h s
  | .ags h f => Sys2Proof.Machine.execAgs h f s
  | .agi h f => Sys2Proof.Machine.execAgi h f s
  | .srd h reg ag => Sys2Proof.Machine.execSrd h reg ag s
  | .swr h reg v => Sys2Proof.Machine.execSwr h reg v s
  | .get h ch ag flits => Sys2Proof.Machine.execGet h ch ag flits s
  | .put h ch ag flits => Sys2Proof.Machine.execPut h ch ag flits s
  | .gth h f => Sys2Proof.Machine.execGth h f s
  | .sct h f => Sys2Proof.Machine.execSct h f s
  | .pgl h ch offset flits fin => Sys2Proof.Machine.execPgl h ch offset flits fin s
  | .pageSwap tile => Sys2Proof.Machine.execPageSwap tile s
  | .swapTimeout tile cyc => Sys2Proof.Machine.execSwapTimeout tile cyc s
  | .crossWait tile => Sys2Proof.Machine.execCrossWait tile s
  | .streamStall tile exe cyc => Sys2Proof.Machine.execStreamStall tile exe cyc s
  | .planStart tile => Sys2Proof.Machine.execPlanStart tile s
  | .planEnd tile cyc => Sys2Proof.Machine.execPlanEnd tile cyc s
  | .spPatrol tile => Sys2Proof.Machine.execSpPatrol tile s
  | .spCorrectionWriteback tile bank => Sys2Proof.Machine.execSpCorrectionWriteback tile bank s
  | .routerSlot pos entry cyc => Sys2Proof.Machine.execRouterSlot pos entry cyc s
  | .beatOrder dst ctx cyc => Sys2Proof.Machine.execBeatOrder dst ctx cyc s
  | .beatOrderLost dst ctx => Sys2Proof.Machine.execBeatOrderLost dst ctx s
  | .routeSwitch ctx => Sys2Proof.Machine.execRouteSwitch ctx s
  | .waggleResend hub next => Sys2Proof.Machine.execWaggleResend hub next s
  | .fenceOrder dst action ctx => Sys2Proof.Machine.execFenceOrder dst action ctx s
  | .faultReport unit cls stamp => Sys2Proof.Machine.execFaultReport unit cls stamp s
  | .telemetry unit => Sys2Proof.Machine.execTelemetry unit s
  | .spRead tile src addr => Sys2Proof.Machine.execSpRead tile src addr s
  | .spWrite tile src addr word => Sys2Proof.Machine.execSpWrite tile src addr word s
  | .spReply tile dst => Sys2Proof.Machine.execSpReply tile dst s
  | .regRead tile src reg => Sys2Proof.Machine.execRegRead tile src reg s
  | .regWrite tile src reg v => Sys2Proof.Machine.execRegWrite tile src reg v s
  | .regReply tile dst => Sys2Proof.Machine.execRegReply tile dst s
  | .shortMsg tile seq words => Sys2Proof.Machine.execShortMsg tile seq words s
  | .leaseGrant l reply => Sys2Proof.Machine.execLeaseGrant l reply s
  | .leaseRenew l reply => Sys2Proof.Machine.execLeaseRenew l reply s
  | .leaseRelease l => Sys2Proof.Machine.execLeaseRelease l s
  | .leaseReclaim l => Sys2Proof.Machine.execLeaseReclaim l s
  | .leaseExpired l => Sys2Proof.Machine.execLeaseExpired l s
  | .regulatorGrant sc => Sys2Proof.Machine.execRegulatorGrant sc s
  | .streamForecast sc ctx => Sys2Proof.Machine.execStreamForecast sc ctx s
  | .edgePortSlot sc port cyc outbound => Sys2Proof.Machine.execEdgePortSlot sc port cyc outbound s
  | .streamDeadline sc slot => Sys2Proof.Machine.execStreamDeadline sc slot s
  | .stackPatrol sc => Sys2Proof.Machine.execStackPatrol sc s
  | .reduceDeadline sc n => Sys2Proof.Machine.execReduceDeadline sc n s
  | .reductionForecast sc ctx => Sys2Proof.Machine.execReductionForecast sc ctx s
  | .gradEgressSend sc ctx parcel => Sys2Proof.Machine.execGradEgressSend sc ctx parcel s
  | .ownerBufferOpen sc ctx => Sys2Proof.Machine.execOwnerBufferOpen sc ctx s
  | .gradBlock f step attempt row b => Sys2Proof.Machine.execGradBlock f step attempt row b s
  | .gradClose f parcel step attempt dense nf rows => Sys2Proof.Machine.execGradClose f parcel step attempt dense nf rows s
  | .parcelCredit f step attempt sc ordinal => Sys2Proof.Machine.execParcelCredit f step attempt sc ordinal s
  | .ripenerUpdate sc ctx parcel => Sys2Proof.Machine.execRipenerUpdate sc ctx parcel s
  | .mirror f p data => Sys2Proof.Machine.execMirror f p data s
  | .mirrorAck f parcel step attempt status => Sys2Proof.Machine.execMirrorAck f parcel step attempt status s
  | .mirrorTimeout ctx parcel => Sys2Proof.Machine.execMirrorTimeout ctx parcel s
  | .allgather f p data => Sys2Proof.Machine.execAllgather f p data s
  | .hostUpdateTimeout ctx parcel => Sys2Proof.Machine.execHostUpdateTimeout ctx parcel s
  | .capsule f transfer off total data => Sys2Proof.Machine.execCapsule f transfer off total data s
  | .capsuleAck f transfer units status => Sys2Proof.Machine.execCapsuleAck f transfer units status s
  | .link n ack nak credits bad => Sys2Proof.Machine.execLink n ack nak credits bad s
  | .linkRetrainInService n fecWindow => Sys2Proof.Machine.execLinkRetrainInService n fecWindow s
  | .linkRetrainComplete n t => Sys2Proof.Machine.execLinkRetrainComplete n t s
  | .fabricCreditStall n vc => Sys2Proof.Machine.execFabricCreditStall n vc s
  | .hello n pod pos plink pidh => Sys2Proof.Machine.execHello n pod pos plink pidh s
  | .stepStartMessage f step attempt scale freeze => Sys2Proof.Machine.execStepStartMessage f step attempt scale freeze s
  | .stepSyncTimeout ctx => Sys2Proof.Machine.execStepSyncTimeout ctx s
  | .norm f step v => Sys2Proof.Machine.execNorm f step v s
  | .headroom f share power offer => Sys2Proof.Machine.execHeadroom f share power offer s
  | .headroomSend cyc => Sys2Proof.Machine.execHeadroomSend cyc s
  | .podAllowanceHoldEnd => Sys2Proof.Machine.execPodAllowanceHoldEnd s
  | .headroomTimeout pos => Sys2Proof.Machine.execHeadroomTimeout pos s
  | .restoreRequest f pos mask => Sys2Proof.Machine.execRestoreRequest f pos mask s
  | .restoreDone f pos last cur seed attempt gnorm units counts => Sys2Proof.Machine.execRestoreDone f pos last cur seed attempt gnorm units counts s
  | .moduleLost pos => Sys2Proof.Machine.execModuleLost pos s
  | .systemRingStart cprod qcons readable => Sys2Proof.Machine.execSystemRingStart cprod qcons readable s
  | .systemRingStop => Sys2Proof.Machine.execSystemRingStop s
  | .systemRingStopDone => Sys2Proof.Machine.execSystemRingStopDone s
  | .registerWrite off len value => Sys2Proof.Machine.execRegisterWrite off len value s
  | .headLineSnoop ctx cyc cprod qcons readable undef => Sys2Proof.Machine.execHeadLineSnoop ctx cyc cprod qcons readable undef s
  | .headLineReread ctx cyc cprod qcons readable undef => Sys2Proof.Machine.execHeadLineReread ctx cyc cprod qcons readable undef s
  | .farPageRequestRepost ctx ext page => Sys2Proof.Machine.execFarPageRequestRepost ctx ext page s
  | .msixUnmask vec => Sys2Proof.Machine.execMsixUnmask vec s
  | .hdmDecoderCommit ways => Sys2Proof.Machine.execHdmDecoderCommit ways s
  | .windowRead addr => Sys2Proof.Machine.execWindowRead addr s
  | .windowWrite addr enable data => Sys2Proof.Machine.execWindowWrite addr enable data s
  | .hostLinkReset => Sys2Proof.Machine.execHostLinkReset s
  | .ctxOpen h d => Sys2Proof.Machine.execCtxOpen h d s
  | .ctxClose h => Sys2Proof.Machine.execCtxClose h s
  | .ctxFence h gen b => Sys2Proof.Machine.execCtxFence h gen b s
  | .ctxRead h first count x => Sys2Proof.Machine.execCtxRead h first count x s
  | .regionBind h region flags => Sys2Proof.Machine.execRegionBind h region flags s
  | .extentCreate h sc kind flags pages pair => Sys2Proof.Machine.execExtentCreate h sc kind flags pages pair s
  | .extentBind h ext flags => Sys2Proof.Machine.execExtentBind h ext flags s
  | .slotBind h stream flags => Sys2Proof.Machine.execSlotBind h stream flags s
  | .groupBind h blk flags => Sys2Proof.Machine.execGroupBind h blk flags s
  | .bindingEffect kind idx => Sys2Proof.Machine.execBindingEffect kind idx s
  | .protChange h ctx gen n0 n1 n2 n3 blks => Sys2Proof.Machine.execProtChange h ctx gen n0 n1 n2 n3 blks s
  | .pageMapFar h ext page flags addr => Sys2Proof.Machine.execPageMapFar h ext page flags addr s
  | .pageRetire h ext page => Sys2Proof.Machine.execPageRetire h ext page s
  | .extentCopy h src dst soff doff len => Sys2Proof.Machine.execExtentCopy h src dst soff doff len s
  | .streamArm h stream d => Sys2Proof.Machine.execStreamArm h stream d s
  | .streamResume h stream => Sys2Proof.Machine.execStreamResume h stream s
  | .streamAbort h stream => Sys2Proof.Machine.execStreamAbort h stream s
  | .streamStatus h first count x => Sys2Proof.Machine.execStreamStatus h first count x s
  | .spMapLoad h m => Sys2Proof.Machine.execSpMapLoad h m s
  | .libLoad h x => Sys2Proof.Machine.execLibLoad h x s
  | .planLoad h x => Sys2Proof.Machine.execPlanLoad h x s
  | .planFree h handle => Sys2Proof.Machine.execPlanFree h handle s
  | .planRun h handle => Sys2Proof.Machine.execPlanRun h handle s
  | .planAbort h => Sys2Proof.Machine.execPlanAbort h s
  | .stepStart h step seed tokens lr handle => Sys2Proof.Machine.execStepStart h step seed tokens lr handle s
  | .stepBegin ctx => Sys2Proof.Machine.execStepBegin ctx s
  | .stepComplete ctx => Sys2Proof.Machine.execStepComplete ctx s
  | .evalStart h handle tokens seed => Sys2Proof.Machine.execEvalStart h handle tokens seed s
  | .stepStatus h => Sys2Proof.Machine.execStepStatus h s
  | .fabricTopology h x => Sys2Proof.Machine.execFabricTopology h x s
  | .podConfig h x => Sys2Proof.Machine.execPodConfig h x s
  | .linkWidth h n v => Sys2Proof.Machine.execLinkWidth h n v s
  | .linkRetrain h n => Sys2Proof.Machine.execLinkRetrain h n s
  | .optConfig h flags hr sat down => Sys2Proof.Machine.execOptConfig h flags hr sat down s
  | .optParcelMap h count x => Sys2Proof.Machine.execOptParcelMap h count x s
  | .optScaleLoad h first tables count x => Sys2Proof.Machine.execOptScaleLoad h first tables count x s
  | .optGroup h group r => Sys2Proof.Machine.execOptGroup h group r s
  | .optFreeze h count x => Sys2Proof.Machine.execOptFreeze h count x s
  | .optStateInit h first flags count x => Sys2Proof.Machine.execOptStateInit h first flags count x s
  | .optNorms h step x => Sys2Proof.Machine.execOptNorms h step x s
  | .optAudit h first flags count digests => Sys2Proof.Machine.execOptAudit h first flags count digests s
  | .optHostDone h parcel attempt step => Sys2Proof.Machine.execOptHostDone h parcel attempt step s
  | .capsuleSeal h first count recips x => Sys2Proof.Machine.execCapsuleSeal h first count recips x s
  | .capsuleOpen h x => Sys2Proof.Machine.execCapsuleOpen h x s
  | .telemRead h unit x => Sys2Proof.Machine.execTelemRead h unit x s
  | .ledgerRead h first count flags x => Sys2Proof.Machine.execLedgerRead h first count flags x s
  | .meterRead h => Sys2Proof.Machine.execMeterRead h s
  | .powerPolicy h cap share => Sys2Proof.Machine.execPowerPolicy h cap share s
  | .clockSet h mmin flags => Sys2Proof.Machine.execClockSet h mmin flags s
  | .patternLoad h slot x => Sys2Proof.Machine.execPatternLoad h slot x s
  | .testRun h unit slot corner x => Sys2Proof.Machine.execTestRun h unit slot corner x s
  | .testAbort h unit => Sys2Proof.Machine.execTestAbort h unit s
  | .testUnitDone unit t => Sys2Proof.Machine.execTestUnitDone unit t s
  | .testTimeLimit unit => Sys2Proof.Machine.execTestTimeLimit unit s
  | .logRead h first count x => Sys2Proof.Machine.execLogRead h first count x s
  | .logStatus h => Sys2Proof.Machine.execLogStatus h s
  | .traceConfig h unit flags start stop x => Sys2Proof.Machine.execTraceConfig h unit flags start stop x s
  | .traceWindowEnd unit => Sys2Proof.Machine.execTraceWindowEnd unit s
  | .attest h nonce x => Sys2Proof.Machine.execAttest h nonce x s
  | .officerEnrol h slot key blks => Sys2Proof.Machine.execOfficerEnrol h slot key blks s
  | .officerRetire h slot blks => Sys2Proof.Machine.execOfficerRetire h slot blks s
  | .certRead h x => Sys2Proof.Machine.execCertRead h x s
  | .reset h level unit => Sys2Proof.Machine.execReset h level unit s
  | .regionMapRead h x => Sys2Proof.Machine.execRegionMapRead h x s
  | .rimConfig h mask which rg rd => Sys2Proof.Machine.execRimConfig h mask which rg rd s
  | .beatMode h mode flags delay => Sys2Proof.Machine.execBeatMode h mode flags delay s
  | .fwStage h x => Sys2Proof.Machine.execFwStage h x s
  | .defectMapRead h x => Sys2Proof.Machine.execDefectMapRead h x s
  | .tileReset tile => Sys2Proof.Machine.execTileReset tile s
  | .clusterReset region cluster => Sys2Proof.Machine.execClusterReset region cluster s
  | .partitionReset ctx => Sys2Proof.Machine.execPartitionReset ctx s
  | .moduleWarmReset b => Sys2Proof.Machine.execModuleWarmReset b s
  | .coldBoot b => Sys2Proof.Machine.execColdBoot b s
  | .keeperWatchdog checkpoint pc lastFeed => Sys2Proof.Machine.execKeeperWatchdog checkpoint pc lastFeed s
  | .computeDomainOn region => Sys2Proof.Machine.execComputeDomainOn region s
  | .governorBeat ins cyc => Sys2Proof.Machine.execGovernorBeat ins cyc s
  | .inputOverpower => Sys2Proof.Machine.execInputOverpower s
  | .aggregationWindowEnd => Sys2Proof.Machine.execAggregationWindowEnd s
  | .regionSensorSample region smp droops => Sys2Proof.Machine.execRegionSensorSample region smp droops s
  | .heatHigh region => Sys2Proof.Machine.execHeatHigh region s
  | .heatOffRecovery region => Sys2Proof.Machine.execHeatOffRecovery region s
  | .stackSensorSample sc temp => Sys2Proof.Machine.execStackSensorSample sc temp s
  | .coolantSample inlet outlet flow => Sys2Proof.Machine.execCoolantSample inlet outlet flow s
  | .coolantWaitTimeout inlet flow => Sys2Proof.Machine.execCoolantWaitTimeout inlet flow s
  | .repetition idx r => Sys2Proof.Machine.execRepetition idx r s
  | .rcFault region resetOk => Sys2Proof.Machine.execRcFault region resetOk s
  | .rcSilent region resetOk => Sys2Proof.Machine.execRcSilent region resetOk s
  | .logRateWindowEnd => Sys2Proof.Machine.execLogRateWindowEnd s
  | .powerFailCapture => Sys2Proof.Machine.execPowerFailCapture s
  | .mgmtSessionOpen id key => Sys2Proof.Machine.execMgmtSessionOpen id key s
  | .modRstNRelease ns => Sys2Proof.Machine.execModRstNRelease ns s
  | .pxSenseBreak conn => Sys2Proof.Machine.execPxSenseBreak conn s
  | .inputValid inp v => Sys2Proof.Machine.execInputValid inp v s
  | .inputOvervoltage inp v => Sys2Proof.Machine.execInputOvervoltage inp v s
  | .inputReclose inp v => Sys2Proof.Machine.execInputReclose inp v s
  | .inputOvercurrent inp amps held => Sys2Proof.Machine.execInputOvercurrent inp amps held s
  | .smbusReadIdentity => Sys2Proof.Machine.execSmbusReadIdentity s
  | .smbusReadStatus => Sys2Proof.Machine.execSmbusReadStatus s
  | .smbusResetArm v => Sys2Proof.Machine.execSmbusResetArm v s
  | .smbusResetArmExpiry => Sys2Proof.Machine.execSmbusResetArmExpiry s
  | .smbusResetConfirm v => Sys2Proof.Machine.execSmbusResetConfirm v s
  | .smbusSetIpv4 v => Sys2Proof.Machine.execSmbusSetIpv4 v s
  | .smbusWriteSbCfg v => Sys2Proof.Machine.execSmbusWriteSbCfg v s
  | .smbusAlertResponse sa1 sa0 => Sys2Proof.Machine.execSmbusAlertResponse sa1 sa0 s
  | .smbusLogIndices => Sys2Proof.Machine.execSmbusLogIndices s
  | .smbusLogSelect v => Sys2Proof.Machine.execSmbusLogSelect v s
  | .smbusLogReadLow => Sys2Proof.Machine.execSmbusLogReadLow s
  | .smbusLogReadHigh => Sys2Proof.Machine.execSmbusLogReadHigh s
  | .inputLost inp v => Sys2Proof.Machine.execInputLost inp v s
  | .transitSupplyLoss region => Sys2Proof.Machine.execTransitSupplyLoss region s
  | .aux12vChange present => Sys2Proof.Machine.execAux12vChange present s
  | .linkAckSend n => Sys2Proof.Machine.execLinkAckSend n s
  | .linkNarrowingComplete n => Sys2Proof.Machine.execLinkNarrowingComplete n s
  | .mgmtPortLinkUp => Sys2Proof.Machine.execMgmtPortLinkUp s

end Sys2Proof.Machine
end

