-- ==== Sys2Proof/Safety.lean ====
section
/-! DEFINITION. What counts as a safe step and a safe run, in the terms the claims use: the machine goes on; a packet passes the checks that come
before its command's own; what a reply is. -/

namespace Sys2Proof

open Sys2Proof.Machine

/-- The step answers a next state. -/
def Goes (o : Host.Outcome State Fault Refusal) : Prop := ∃ s, o = .next s

/-- The command's operands fit their fields and name parts that exist. -/
abbrev Fits (c : Instr) : Prop := c.wf = true ∧ c.units = true

/-- Every command waiting is well formed and names parts that exist. -/
def QueueOk (s : State) : Prop := ∀ c ∈ s.pending, c.wf = true ∧ c.units = true

/-- The clock period is a setting of R22, and so is the period of every beat-stretch order on its way (R25). -/
def ClockOk (s : State) : Prop := 64 ≤ s.clk.m ∧ s.clk.m ≤ 192 ∧ ∀ o ∈ s.clk.stretch, 64 ≤ o.1 ∧ o.1 ≤ 192

/-- The machine after the ring's side has taken the packet with header `h` (R307): the cycle it names, CCONS, NSEQ and HA_PKTS. -/
def taken (s : State) (h : Hdr) : State := (s.at h.cyc).consume h

/-- The packet with header `h` is taken and passes checks 1 to 4 of R307 as a packet of opcode `op` whose row allows the lengths `lens`
(`sysOnly`: its row serves it on the system ring alone): the command's own checks come next. -/
def served (op : Nat) (lens : List Nat) (sysOnly : Bool) (h : Hdr) (s : State) : Bool :=
  decide (0 < h.len) && decide (h.len ≤ 128) && lens.contains h.len && (s.at h.cyc).takeable h && decide (h.flags < 4) && decide (h.ctx < 1024) &&
    decide (h.seq = (s.at h.cyc).nseq h) && (taken s h).permitted h op sysOnly && (!s.ha.noVariant || decide (opGroup op = 10 ∨ opGroup op = 11))

/-- `s` with the one and final reply to the packet `h` of opcode `op`: its status and DETAIL (R308, R309). -/
def replied (op : Nat) (h : Hdr) (status detail : Nat) (s : State) : State := s.replyTo h.src (h.entry s op status detail true)

/-- The packet `h` comes as a packet of opcode `op` with lengths `lens`: it is served, its reserved bits are 0 (R339), and the machine is `t`
once the ring's side has taken it. -/
abbrev Comes (op : Nat) (lens : List Nat) (sysOnly : Bool) (h : Hdr) (s t : State) : Prop := served op lens sysOnly h s = true ∧ taken s h = t ∧ h.rsv = true

/-- `s` with the output `out` of the packet `h` written to its data reference, and the reply that follows (R344, R345). -/
def answered (op : Nat) (h : Hdr) (x : DRef) (out : List Byte) (s : State) : State :=
  replied op h (s.writeRef x out).2.1 (s.writeRef x out).2.2 (s.writeRef x out).1

/-- The run of a step as STEP_START records it, waiting for its plan beat 0. -/
def stepRun (handle step seed tokens lr attempt id tag : Nat) : Run :=
  { kind := .step, handle := handle, step := step, seed := seed, tokens := tokens, lr := lr, attempt := attempt, long := id, cmdTag := tag }
/-- A run of a plan that is no step, as its command records it. -/
def otherRun (kind : RunKind) (handle seed tokens id tag : Nat) : Run :=
  { kind := kind, handle := handle, seed := seed, tokens := tokens, long := id, cmdTag := tag, started := true }
/-- `s` with this run of context `c`, its start order issued for bank `bank` (R142). -/
def startedRun (c : Nat) (r : Run) (bank cyc : Nat) (p : PlanSet) (s : State) : State :=
  (s.onCtx c (fun x => { x with run := some r })).issueStart c r.handle bank ((s.onCtx c (fun x => { x with run := some r })).startBeat c cyc) p

/-- The tests of a TEST_RUN as they are queued (R433). -/
def newTests (id slot corner : Nat) (x : DRef) (us : List Nat) : List TestUnit :=
  us.map (fun u => { long := id, unit := u, slot := slot, corner := corner, ref := x })
/-- `s` with these tests queued behind the others. -/
def withTests (ts : List TestUnit) (s : State) : State := { s with tr := { s.tr with tests := s.tr.tests ++ ts } }

/-- `s` with the second record of a repetition written, its result and the site used in it, and the repetition over (R414). -/
def repeated (idx : Nat) (p : Rep) (r : Repeat) (s : State) : State :=
  let u := (s.flagNear p.rep.unit p.rep.stamp).logRec 2 0 p.rep.ctx 96 (s.faultBody p.rep (repeatResult p.rep.cls r)
    (b2n (s.uncertain p.rep.unit p.rep.stamp) + 4 * b2n (s.suspectUnit p.rep.unit)) (repeatUnit p.rep.cls r) s.now idx)
  { u with log := { u.log with reps := u.log.reps.filter (fun q => q.idx ≠ idx) } }
/-- A region controller fenced by the order of the one that takes over, its orders lost, its failures noted, the repetitions of its region's
faults aborted (R414), and the partitions held that route through it (R420). -/
def rcFenced (r cause : Nat) (fails : List Nat) (s : State) : State :=
  (((s.send (uidRc (s.successor r)) (uidRc r) (.fence 3 (uidRc r) 0)).onRegion r (fun g =>
    { g with rcFenced := true, rcFails := fails, orders := [] })).abortReps r).stopCrossing r cause

/-- `s` with the packet `h` of opcode `op` accepted as a long-running command (R308, R342): its first reply, its entry in the table of
long-running commands, and what starting it does, given its number. -/
def longAccepted (op : Nat) (h : Hdr) (job : Job) (a b : Nat) (start : Nat → State → State) (s : State) : State :=
  Verdict.apply h op (.accept stAccepted job a b start s)
/-- `s` with the packet accepted and its work done in the same step: ACCEPTED, the work, and the final reply with the status and DETAIL the
work gives (entry 17). -/
def ranNow (op : Nat) (h : Hdr) (job : Job) (work : State → State × Nat × Nat) (s : State) : State := Verdict.apply h op (acceptNow s job work)

/-! Tile instructions (R124 to R126, R138): what an instruction finds and leaves in its tile around its own effect. -/

/-- The machine when a tile instruction comes: at its cycle, with the flits that have come to the tile by then (R169). -/
def inTile (h : IHdr) (s : State) : State := (s.at h.cyc).landTile h.tile
/-- The tile the instruction comes to. -/
def tileNow (h : IHdr) (s : State) : Tile := ((inTile h s).tile h.tile).enter ((inTile h s).stamp h.cyc)
/-- The tile when the instruction is issued: the flag it waited on is lowered (R126). -/
def lowered (h : IHdr) (t : Tile) : Tile := (h.wf.map t.lowerFlag).getD t
/-- The stream can issue the instruction now: it runs, stands at no undefined opcode and behind no other instruction, the cycles of the one before
are over, the opcode is one of its own and every field in range, the flag is up and the instruction is accepted. -/
def offered (h : IHdr) (ti : TI) (s : State) : Bool :=
  (inTile h s).issues h.tile h.exe && !opUndefined ((tileNow h s).wordAt h.exe) && offers (tileNow h s) h ti &&
    decide (ti.stream ≠ some (!h.exe)) && ti.ok && h.wf.all (flagFree (tileNow h s) h.exe) && accepted (tileNow h s) h ti
/-- No instruction of the tile is in flight, and no trace is taken. -/
def calm (h : IHdr) (s : State) : Bool := (tileNow h s).sa.ops.isEmpty && (tileNow h s).se.ops.isEmpty && (inTile h s).tr.traces.isEmpty
/-- The tile at the instruction's issue. -/
def atIssue (h : IHdr) (ti : TI) (s : State) : Tile := countIssue h ti (lowered h (tileNow h s))
/-- The flag the instruction raises on completion can rise (R126). -/
def canRise (h : IHdr) (t : Tile) : Bool := h.sfl.all (fun f => decide (t.flag f < 3))
/-- The flag the instruction raises on completion has risen. -/
def risen (h : IHdr) (t : Tile) : Tile := (h.sfl.bind t.raiseFlag).getD t
/-- An instruction of `n` units in flight alone: its record, and the tile whose stream has stepped past it. -/
def flying (h : IHdr) (ti : TI) (n : Nat) (s : State) : Tile × Op :=
  let o := mkOp (lowered h (tileNow h s)) h ti n
  (((atIssue h ti s).onStream h.exe Stream.stepPast).onStream h.exe (fun x => { x with ops := [o] }), o)
/-- All units of an instruction in flight alone find their operands and are done, which leaves the tile `u`; the sticky flags of before stand
beside meanwhile. -/
def unitsDone (h : IHdr) (ti : TI) (n : Nat) (s : State) (u : Tile) : Prop :=
  runOp (n + 1) (flying h ti n s).1.quiet (flying h ti n s).2 = .done u
/-- The tile once an instruction that was in flight alone is complete: `t` is the tile with it in flight, `u` what its units left. -/
def landed (h : IHdr) (t u : Tile) : Tile := t.noted ((risen h u).onStream h.exe (fun x => { x with ops := [] }))

/-! What the operands of an instruction in flight find, judged on the tile at its issue: the conditions for its units to run without a fault. -/

/-- The generator an instruction names, as it captures it at issue (R128). -/
def genNow (h : IHdr) (k : Nat) (s : State) : Snap := ((tileNow h s).stream h.exe).snap k
/-- A row, flit or word of n bytes can be accessed at address a: aligned, and every byte there (R130). -/
def rowThere (t : Tile) (a : Int) (n : Nat) : Bool := decide (a % 32 = 0) && t.map.rangeOk a n
/-- No word of the tile's scratchpad carries an error (R161). -/
def cleanPad (t : Tile) : Bool := t.errs.isEmpty
/-- The units of n bytes of a packed stream, `count` of them, are there, and the stream is not in queue mode. -/
def packThere (t : Tile) (p : Snap) (count n : Nat) : Bool := !p.qm && (List.range count).all (fun u => t.map.rangeOk (p.packAddr u n) n)
/-- The rows of a stream, `count` of them, are there, row u with `n u` bytes, and the stream is not in queue mode. -/
def rowsThere (t : Tile) (p : Snap) (count : Nat) (n : Nat → Nat) : Bool := !p.qm && (List.range count).all (fun u => rowThere t (p.rowAddr u) (n u))
/-- The words of a stream from its start on, `count` of them, are there, and the stream is not in queue mode. -/
def wordsThere (t : Tile) (p : Snap) (count : Nat) : Bool := !p.qm && (List.range count).all (fun u => rowThere t (p.start + 32 * u) 32)
/-- Index n of a list read through `p` (R136). -/
def indexAt (t : Tile) (p : Snap) (iw32 : Bool) (n : Nat) : Nat := ofLE (t.mem.rdBytes (p.packAddr n (if iw32 then 4 else 2)).toNat (if iw32 then 4 else 2))
/-- Index n is a skip, or below LIMIT with its row of `roww` words through `q` there (R136). -/
def indexedThere (t : Tile) (p q : Snap) (iw32 : Bool) (limit roww n : Nat) : Bool :=
  isSkip iw32 (indexAt t p iw32 n) || (decide (indexAt t p iw32 n < limit) && rowThere t (q.start + (indexAt t p iw32 n : Int) * q.step) (32 * roww))
/-- The chain configuration that VCL reads through `p` (R101). -/
def chainRead (t : Tile) (p : Snap) : Nat :=
  ((List.range 4).map (fun (k : Nat) => ofLE (t.mem.rdBytes (p.start + 32 * (k : Int)).toNat 32))).zipIdx.foldl (fun a q => a + q.1 * 2 ^ (256 * q.2)) 0
/-- The block scales of a stream, `n` of them from block u on (R62). -/
def scalesAt (t : Tile) (p : Snap) (u n : Nat) : List Nat := (List.range n).map (fun k => ofLE (t.mem.rdBytes (p.packAddr (u + k) 1).toNat 1))
/-- What the converter needs of setting k for `n` output rows of 64 elements: a format it writes (R82), the rows through DST, the row-block scales where the setting reads
them, the MX scales where it writes them (R84, R88). -/
def convThere (t : Tile) (dst ssag sdag : Snap) (k n : Nat) : Bool :=
  cvFmtUsed (bits (t.cv k) 63 60) && rowsThere t dst n (fun _ => fmtBytes (bits (t.cv k) 63 60) 64) && (decide (bits (t.cv k) 59 58 ≠ 3) || packThere t ssag (2 * n) 4) &&
    (!fmtMx (bits (t.cv k) 63 60) || packThere t sdag (2 * n) 1)
/-- The elements below `len` of a vector stream of format `fmt` can be accessed, `n` bytes at a time, and the stream is not in queue mode. -/
def elemsThere (t : Tile) (p : Snap) (fmt len n : Nat) : Bool :=
  !p.qm && elAligned p fmt && (List.range len).all (fun e => t.map.rangeOk (elAddr p fmt e) n)
/-- The stages of a chain are of the kinds of R101 and find the elements they load, and the places they store to; `packed` is the format that waits
for the next store. -/
def stagesThere (t : Tile) (g : Nat → Snap) (len : Nat) : Option Nat → List Stage → Bool
  | _, [] => true
  | packed, s :: ss =>
    match s.kind with
    | 1 => elemsThere t (g s.ag) s.fmt len (max 1 (fmtBits s.fmt / 8)) && (!fmtMx s.fmt || packThere t (g s.sag) (2 * ((len + 63) / 64)) 1) &&
        stagesThere t g len packed ss
    | 8 => (!fmtMx s.fmt || packThere t (g s.sag) (2 * ((len + 63) / 64)) 1) && stagesThere t g len (some s.fmt) ss
    | 9 => elemsThere t (g s.ag) (if packed = some 10 then 8 else packed.getD 5) len 1 && stagesThere t g len none ss
    | k => decide (2 ≤ k) && decide (k ≤ 7) && stagesThere t g len packed ss

/-- The instruction `c` comes, is offered to its stream with no other in flight and no trace taken, no word of the scratchpad carries an error, and
the flag it raises has room: what remains to ask of the state are its own operands. -/
abbrev Ready (c : Instr) (h : IHdr) (ti : TI) (s : State) : Prop :=
  Fits c ∧ offered h ti s = true ∧ calm h s = true ∧ cleanPad (tileNow h s) = true ∧ canRise h (lowered h (tileNow h s)) = true
/-- The instruction `c` of `n` units is issued and complete in the step, all its units done. -/
def Lands (c : Instr) (h : IHdr) (ti : TI) (n : Nat) (s : State) : Prop :=
  ∃ u, unitsDone h ti n s u ∧ exec c s = .next ((inTile h s).setTile h.tile (landed h (flying h ti n s).1 u))

/-- A flag risen by one where one is named (R126). -/
def raisedFlag (f : Option Nat) (t : Tile) : Tile := (f.bind t.raiseFlag).getD t
/-- The named flag can rise. -/
def flagRoom (f : Option Nat) (t : Tile) : Bool := f.all (fun k => decide (t.flag k < 3))
/-- The tile of a plan end noted: idle, no longer running, and reported to its region controller (R146). -/
def planEnded (tile cyc : Nat) (s : State) : State :=
  let t := s.tile tile
  ((s.at cyc).setTile tile { t with running := false, sa := { t.sa with st := .idle }, se := { t.se with st := .idle } }).reportEnd tile
/-- A tile of the context's partition still runs its plan, or will start. -/
def tilesLeft (c : Nat) (s : State) : Bool := (tilesOf (s.working c)).any (fun t => (s.tile t).running) || s.waggle.any (s.startsCtx c)

/-- A packet of the fabric passes every check on its link (R283, R284, R287): the link is in service, the packet intact and next in order, for
this module, on the virtual channel `vc` and of a length in `lens`, its context open on the link. -/
def fabricOk (f : FHdr) (vc : Nat) (lens : List Nat) (s : State) : Bool :=
  decide ((s.link f.link).st = 3) && (s.link f.link).narrowing.isNone && !f.bad && decide (f.lseq = (s.link f.link).rxSeq) && decide (f.dpod = s.myPod) &&
    decide (f.dpos = s.myPos) && decide (f.vc = vc) && lens.contains f.len && s.ctxOnLink f.ctx f.link

/-- The Ripener of stack controller `sc` may work on a parcel with entry `e` (R217, R258, R261, R420, R423): this module owns it, its extent is that
controller's, no test runs there, its stack gives granules, the partition is not fenced, no commit of the parcel is in flight and none waits for a
copy from the buddy. -/
def ripeFor (sc ctx parcel : Nat) (e : PEnt) (s : State) : Bool :=
  decide (e.owner = s.myPos) && decide (extSc e.wext = sc) && !(s.sc sc).underTest && !s.throttled sc && decide ((s.ctx ctx).st ≠ .fenced) &&
    !((s.ctx ctx).commits.get {} parcel).inf && !(s.ctx ctx).repair.contains parcel

/-! Numbers (R77, R85): the grid a value is rounded to, as rationals. -/

/-- The floating formats of *Element encodings*. -/
def elementFormats : List Fmt := [fp32, bf16, fp16, e5m2, e4m3, e2m1]
/-- The magnitude of a finite value. -/
def magnitude (m : Nat) (e : Int) : ℚ := (m : ℚ) * (2 : ℚ) ^ e
/-- The magnitude that code `k`, without its sign, stands for on the grid of a format taken as unbounded above: exponent and mantissa fields as
*Element encodings* has them, code 0 in the exponent field for the subnormals. -/
def gridAt (f : Fmt) (k : Nat) : ℚ :=
  if k / 2 ^ f.mb = 0 then magnitude k f.q0 else magnitude (2 ^ f.mb + k % 2 ^ f.mb) (f.q0 + (k / 2 ^ f.mb : Nat) - 1)

/-- The instructions of a tile's streams: the header, which names the tile and the stream (R124). -/
def tileHdr : Instr → Option IHdr
  | .mcf h _ _ => some h
  | .mld h _ => some h
  | .msw h => some h
  | .mst h _ _ => some h
  | .mdr h _ => some h
  | .cvl h _ _ _ _ => some h
  | .vcl h _ _ => some h
  | .vrn h _ _ => some h
  | .vsl h _ => some h
  | .vsm h _ => some h
  | .vrs h _ _ _ => some h
  | .vrl h _ _ _ => some h
  | .nop h _ => some h
  | .wcy h _ => some h
  | .loop h _ => some h
  | .call h _ => some h
  | .ret h => some h
  | .swp h => some h
  | .endI h => some h
  | .ags h _ => some h
  | .agi h _ => some h
  | .srd h _ _ => some h
  | .swr h _ _ => some h
  | .get h _ _ _ => some h
  | .put h _ _ _ => some h
  | .gth h _ => some h
  | .sct h _ => some h
  | .pgl h _ _ _ _ => some h
  | _ => none

/-- The commands that are packets (R306): the opcode, the lengths in units that the command's row allows (*Opcode groups* and the group tables of
chapter 14), whether the row serves it on the system ring alone, and the header. -/
def packetRow : Instr → Option (Nat × List Nat × Bool × Hdr)
  | .beatBoundary => none
  | .siteRemap _ _ => none
  | .boundarySlip _ _ _ => none
  | .stretchOrder _ _ _ => none
  | .holdRequest _ _ _ => none
  | .holdDecision _ => none
  | .holdTimeout _ => none
  | .ptpAnchor _ _ => none
  | .beatInLost => none
  | .beatEpoch _ _ => none
  | .mcf _ _ _ => none
  | .mld _ _ => none
  | .msw _ => none
  | .mst _ _ _ => none
  | .mdr _ _ => none
  | .cvl _ _ _ _ _ => none
  | .vcl _ _ _ => none
  | .vrn _ _ _ => none
  | .vsl _ _ => none
  | .vsm _ _ => none
  | .vrs _ _ _ _ => none
  | .vrl _ _ _ _ => none
  | .nop _ _ => none
  | .wcy _ _ => none
  | .loop _ _ => none
  | .call _ _ => none
  | .ret _ => none
  | .swp _ => none
  | .endI _ => none
  | .ags _ _ => none
  | .agi _ _ => none
  | .srd _ _ _ => none
  | .swr _ _ _ => none
  | .get _ _ _ _ => none
  | .put _ _ _ _ => none
  | .gth _ _ => none
  | .sct _ _ => none
  | .pgl _ _ _ _ _ => none
  | .pageSwap _ => none
  | .swapTimeout _ _ => none
  | .crossWait _ => none
  | .streamStall _ _ _ => none
  | .planStart _ => none
  | .planEnd _ _ => none
  | .spPatrol _ => none
  | .spCorrectionWriteback _ _ => none
  | .routerSlot _ _ _ => none
  | .beatOrder _ _ _ => none
  | .beatOrderLost _ _ => none
  | .routeSwitch _ => none
  | .waggleResend _ _ => none
  | .fenceOrder _ _ _ => none
  | .faultReport _ _ _ => none
  | .telemetry _ => none
  | .spRead _ _ _ => none
  | .spWrite _ _ _ _ => none
  | .spReply _ _ => none
  | .regRead _ _ _ => none
  | .regWrite _ _ _ _ => none
  | .regReply _ _ => none
  | .shortMsg _ _ _ => none
  | .leaseGrant _ _ => none
  | .leaseRenew _ _ => none
  | .leaseRelease _ => none
  | .leaseReclaim _ => none
  | .leaseExpired _ => none
  | .regulatorGrant _ => none
  | .streamForecast _ _ => none
  | .edgePortSlot _ _ _ _ => none
  | .streamDeadline _ _ => none
  | .stackPatrol _ => none
  | .reduceDeadline _ _ => none
  | .reductionForecast _ _ => none
  | .gradEgressSend _ _ _ => none
  | .ownerBufferOpen _ _ => none
  | .gradBlock _ _ _ _ _ => none
  | .gradClose _ _ _ _ _ _ _ => none
  | .parcelCredit _ _ _ _ _ => none
  | .ripenerUpdate _ _ _ => none
  | .mirror _ _ _ => none
  | .mirrorAck _ _ _ _ _ => none
  | .mirrorTimeout _ _ => none
  | .allgather _ _ _ => none
  | .hostUpdateTimeout _ _ => none
  | .capsule _ _ _ _ _ => none
  | .capsuleAck _ _ _ _ => none
  | .link _ _ _ _ _ => none
  | .linkRetrainInService _ _ => none
  | .linkRetrainComplete _ _ => none
  | .fabricCreditStall _ _ => none
  | .hello _ _ _ _ _ => none
  | .stepStartMessage _ _ _ _ _ => none
  | .stepSyncTimeout _ => none
  | .norm _ _ _ => none
  | .headroom _ _ _ _ => none
  | .headroomSend _ => none
  | .podAllowanceHoldEnd => none
  | .headroomTimeout _ => none
  | .restoreRequest _ _ _ => none
  | .restoreDone _ _ _ _ _ _ _ _ _ => none
  | .moduleLost _ => none
  | .systemRingStart _ _ _ => none
  | .systemRingStop => none
  | .systemRingStopDone => none
  | .registerWrite _ _ _ => none
  | .headLineSnoop _ _ _ _ _ _ => none
  | .headLineReread _ _ _ _ _ _ => none
  | .farPageRequestRepost _ _ _ => none
  | .msixUnmask _ => none
  | .hdmDecoderCommit _ => none
  | .windowRead _ => none
  | .windowWrite _ _ _ => none
  | .hostLinkReset => none
  | .ctxOpen h _ => some (0x0101, [3], true, h)
  | .ctxClose h => some (0x0102, [1], true, h)
  | .ctxFence h _ _ => some (0x0103, [5], true, h)
  | .ctxRead h _ _ _ => some (0x0104, [1], true, h)
  | .regionBind h _ _ => some (0x0201, [1], true, h)
  | .extentCreate h _ _ _ _ _ => some (0x0202, [1], false, h)
  | .extentBind h _ _ => some (0x0203, [1], false, h)
  | .slotBind h _ _ => some (0x0204, [1], false, h)
  | .groupBind h _ _ => some (0x0205, [1], true, h)
  | .bindingEffect _ _ => none
  | .protChange h _ _ _ _ _ _ blks => some (0x0B01, ([6, 10].filter (fun l => decide (l = 2 + 4 * blks.length))), true, h)
  | .pageMapFar h _ _ _ _ => some (0x0301, [1], false, h)
  | .pageRetire h _ _ => some (0x0302, [1], false, h)
  | .extentCopy h _ _ _ _ _ => some (0x0303, [1], false, h)
  | .streamArm h _ _ => some (0x0304, [3], false, h)
  | .streamResume h _ => some (0x0305, [1], false, h)
  | .streamAbort h _ => some (0x0306, [1], false, h)
  | .streamStatus h _ _ _ => some (0x0307, [1], false, h)
  | .spMapLoad h _ => some (0x0401, [3], false, h)
  | .libLoad h _ => some (0x0402, [1], false, h)
  | .planLoad h _ => some (0x0403, [1], false, h)
  | .planFree h _ => some (0x0404, [1], false, h)
  | .planRun h _ => some (0x0405, [1], false, h)
  | .planAbort h => some (0x0406, [1], false, h)
  | .stepStart h _ _ _ _ _ => some (0x0501, [2], false, h)
  | .stepBegin _ => none
  | .stepComplete _ => none
  | .evalStart h _ _ _ => some (0x0502, [1], false, h)
  | .stepStatus h => some (0x0503, [1], false, h)
  | .fabricTopology h _ => some (0x0601, [1], false, h)
  | .podConfig h _ => some (0x0602, [1], true, h)
  | .linkWidth h _ _ => some (0x0603, [1], true, h)
  | .linkRetrain h _ => some (0x0604, [1], true, h)
  | .optConfig h _ _ _ _ => some (0x0701, [1], false, h)
  | .optParcelMap h _ _ => some (0x0702, [1], false, h)
  | .optScaleLoad h _ _ _ _ => some (0x0703, [1], false, h)
  | .optGroup h _ _ => some (0x0704, [3], false, h)
  | .optFreeze h _ _ => some (0x0705, [1], false, h)
  | .optStateInit h _ _ _ _ => some (0x0706, [1], false, h)
  | .optNorms h _ _ => some (0x0707, [1], false, h)
  | .optAudit h _ _ _ _ => some (0x0708, [1], false, h)
  | .optHostDone h _ _ _ => some (0x0709, [1], false, h)
  | .capsuleSeal h _ _ recips _ => some (0x070A, [1 + (3 * recips.length + 1) / 2], false, h)
  | .capsuleOpen h _ => some (0x070B, [1], false, h)
  | .telemRead h _ _ => some (0x0801, [1], false, h)
  | .ledgerRead h _ _ _ _ => some (0x0802, [1], false, h)
  | .meterRead h => some (0x0803, [1], false, h)
  | .powerPolicy h _ _ => some (0x0804, [1], true, h)
  | .clockSet h _ _ => some (0x0805, [1], true, h)
  | .patternLoad h _ _ => some (0x0901, [1], true, h)
  | .testRun h _ _ _ _ => some (0x0902, [1], false, h)
  | .testAbort h _ => some (0x0903, [1], false, h)
  | .testUnitDone _ _ => none
  | .testTimeLimit _ => none
  | .logRead h _ _ _ => some (0x0A01, [1], false, h)
  | .logStatus h => some (0x0A02, [1], false, h)
  | .traceConfig h _ _ _ _ _ => some (0x0A03, [2], false, h)
  | .traceWindowEnd _ => none
  | .attest h _ _ => some (0x0B02, [2], false, h)
  | .officerEnrol h _ _ blks => some (0x0B03, ([9, 13, 17].filter (fun l => decide (l = 5 + 4 * blks.length))), true, h)
  | .officerRetire h _ blks => some (0x0B04, ([5, 9].filter (fun l => decide (l = 1 + 4 * blks.length))), true, h)
  | .certRead h _ => some (0x0B05, [1], false, h)
  | .reset h _ _ => some (0x0C01, [1], false, h)
  | .regionMapRead h _ => some (0x0C02, [1], true, h)
  | .rimConfig h _ _ _ _ => some (0x0C03, [1], true, h)
  | .beatMode h _ _ _ => some (0x0C04, [1], true, h)
  | .fwStage h _ => some (0x0C05, [1], true, h)
  | .defectMapRead h _ => some (0x0C06, [1], true, h)
  | .tileReset _ => none
  | .clusterReset _ _ => none
  | .partitionReset _ => none
  | .moduleWarmReset _ => none
  | .coldBoot _ => none
  | .keeperWatchdog _ _ _ => none
  | .computeDomainOn _ => none
  | .governorBeat _ _ => none
  | .inputOverpower => none
  | .aggregationWindowEnd => none
  | .regionSensorSample _ _ _ => none
  | .heatHigh _ => none
  | .heatOffRecovery _ => none
  | .stackSensorSample _ _ => none
  | .coolantSample _ _ _ => none
  | .coolantWaitTimeout _ _ => none
  | .repetition _ _ => none
  | .rcFault _ _ => none
  | .rcSilent _ _ => none
  | .logRateWindowEnd => none
  | .powerFailCapture => none
  | .mgmtSessionOpen _ _ => none
  | .modRstNRelease _ => none
  | .pxSenseBreak _ => none
  | .inputValid _ _ => none
  | .inputOvervoltage _ _ => none
  | .inputReclose _ _ => none
  | .inputOvercurrent _ _ _ => none
  | .smbusReadIdentity => none
  | .smbusReadStatus => none
  | .smbusResetArm _ => none
  | .smbusResetArmExpiry => none
  | .smbusResetConfirm _ => none
  | .smbusSetIpv4 _ => none
  | .smbusWriteSbCfg _ => none
  | .smbusAlertResponse _ _ => none
  | .smbusLogIndices => none
  | .smbusLogSelect _ => none
  | .smbusLogReadLow => none
  | .smbusLogReadHigh => none
  | .inputLost _ _ => none
  | .transitSupplyLoss _ => none
  | .aux12vChange _ => none
  | .linkAckSend _ => none
  | .linkNarrowingComplete _ => none
  | .mgmtPortLinkUp => none

end Sys2Proof
end

