-- ==== Sys2Proof/Certificates/Slice0/Obligations.lean ====
section
/-! DEFINITION. The statements about the module: one `def Obligations.<Name> : Prop` each, by the chapters of the spec. -/

open Sys2Proof Sys2Proof.Machine

/-! The machine as a whole. -/

/-- One step takes the command at the front of the queue and is that command's effect on the machine with the rest of the queue. -/
def Obligations.StepRunsTheFrontCommand : Prop :=
  ∀ (c : Instr) (cs : List Instr) (s : State), s.pending = c :: cs → step s = exec c { s with pending := cs }

/-- An empty queue idles: the model's own choice (log entry 14). -/
def Obligations.EmptyQueueIdles : Prop := ∀ s : State, s.pending = [] → step s = .next s

/-- A command stops only on an operand that fits no field or a part that does not exist, each by name; every other command, in every state, goes
on. The two stops are the model's (log entry 13). -/
def Obligations.OnlyIllFormedCommandsStop : Prop :=
  ∀ (c : Instr) (s : State),
    (c.wf = false → ∃ n, exec c s = .refused (.illFormed n)) ∧
    (c.wf = true → c.units = false → ∃ n, exec c s = .fault (.noSuchUnit n)) ∧
    (c.wf = true → c.units = true → ∃ t, exec c s = .next t ∧ t.pending = s.pending)

/-- A queue of well-formed commands runs to its end: each step goes on, and the commands that wait after it are the rest. -/
def Obligations.GoodQueueNeverStops : Prop :=
  ∀ s : State, QueueOk s → ∃ t, step s = .next t ∧ t.pending = s.pending.tail ∧ QueueOk t

/-- What every step keeps of the clock: the period is a setting of R22, and so is every period ordered (R25). -/
def Obligations.StepKeepsClockSetting : Prop :=
  ∀ s t : State, ClockOk s → step s = .next t → ClockOk t

/-- The clock setting after reset is one of R22's. -/
def Obligations.ResetClockSetting : Prop := ClockOk State.reset

/-- The wafer beat number advances by one with BEAT_BOUNDARY; an epoch message sets it while a module that follows a beat master has adopted none;
a cold boot clears it or adopts the number heard, and a module warm reset at most adopts one. No other command moves it. -/
def Obligations.OnlyBoundariesAndBootsMoveTheBeat : Prop :=
  ∀ (c : Instr) (s t : State), exec c s = .next t →
    t.clk.beat = s.clk.beat ∨ (c = .beatBoundary ∧ t.clk.beat = s.clk.beat + 1) ∨
      (∃ f n, c = .beatEpoch f n ∧ t.clk.beat = n ∧ s.clk.mode.cable = true ∧ s.clk.mode.master = false ∧ s.clk.adopted = false ∧ s.tr.boot ≠ .ready) ∨
      (∃ b, c = .coldBoot b ∧ (t.clk.beat = 0 ∨ ∃ n, b.master = some n ∧ t.clk.beat = n + 1)) ∨
      (∃ b, c = .moduleWarmReset b ∧ ∃ n, b.master = some n ∧ t.clk.beat = n + 1)

/-- The identity of the module never changes, the minimum SVN never falls and rises with COLD_BOOT alone, and the officer table changes with
OFFICER_ENROL and OFFICER_RETIRE alone (R448). -/
def Obligations.IdentityAndOfficersAreKept : Prop :=
  ∀ (c : Instr) (s t : State), exec c s = .next t →
    t.tr.idCert = s.tr.idCert ∧ t.tr.caCert = s.tr.caCert ∧ t.tr.idKey = s.tr.idKey ∧ t.tr.serial = s.tr.serial ∧ t.tr.mac = s.tr.mac ∧
    s.tr.minSvn ≤ t.tr.minSvn ∧ (t.tr.minSvn = s.tr.minSvn ∨ ∃ b, c = .coldBoot b) ∧
    ((t.tr.officers = s.tr.officers ∧ t.tr.ogen = s.tr.ogen) ∨ (∃ h k x b, c = .officerEnrol h k x b) ∨ (∃ h k b, c = .officerRetire h k b))

/-! Chapter 1: regions, clocks, the beat. -/

/-- SITE_REMAP, BOUNDARY_SLIP, STRETCH_ORDER, HOLD_REQUEST, HOLD_DECISION, HOLD_TIMEOUT, PTP_ANCHOR and BEAT_IN_LOST complete (R11, R12, R24 to R28, R37, R38). -/
def Obligations.BeatCommandsComplete : Prop :=
  -- SITE_REMAP at a boundary of a cluster that is still: a running step whose tiles move is lost (R228); the sites found bad are shadowed, and
  -- each tile whose site changes starts empty, its scratchpad in zero-fill
  (∀ region cluster (s u : State), region < 80 → cluster < 4 → s.clk.cycle = 0 → s.stillCluster region cluster = true →
    u = (if s.remapMoves region cluster then s.runLoses (s.serves region) region else s) →
    exec (.siteRemap region cluster) s =
      .next ((movedTiles (u.region region).bad (((u.region region).badNext.filter (fun n => decide (n / 20 = cluster))).filter (fun n => !(u.region region).bad.contains n)) cluster).foldl
        (fun v t => v.setTile (64 * region + 16 * cluster + t) { moved := true, scrubEnd := v.now + 8192 })
        (u.onRegion region (fun g => { g with
          bad := g.bad ++ ((u.region region).badNext.filter (fun n => decide (n / 20 = cluster))).filter (fun n => !(u.region region).bad.contains n)
          badNext := g.badNext.filter (fun n => decide (n / 20 ≠ cluster)) })))) ∧
  -- BOUNDARY_SLIP between neighbours whose buffer holds no flit: one fault with both region indices for each partition that uses it
  (∀ rx tx cyc d (s : State), rx < 80 → tx < 80 → cyc < 4096 → facing rx tx = some d →
    (∀ f ∈ s.fly, ¬(f.port = d ∧ f.dst / 64 = rx ∧ ∃ n, tileNext f.dst d = some n ∧ n / 64 = tx)) →
    exec (.boundarySlip rx tx cyc) s =
      .next ((if (s.at cyc).crossing rx d = [] then [0] else (s.at cyc).crossing rx d).foldl
        (fun s c => s.report ⟨fcBoundarySlip, uidRc rx, s.stamp cyc, 0, 0, c, [rx, tx]⟩) (s.at cyc))) ∧
  -- STRETCH_ORDER on its way: due at the beat it names, and not before the first boundary 1024 cycles ahead
  (∀ m beat cyc p (s u : State), 64 ≤ m → m ≤ 192 → cyc < 4096 → (s.at cyc).take (fun p => p.msg = .stretch m beat) = some (p, u) →
    exec (.stretchOrder m beat cyc) s =
      .next { u with clk := { u.clk with stretch := u.clk.stretch ++ [(m, max beat (s.clk.beat + (if cyc ≤ 3072 then 1 else 2)))] } }) ∧
  -- HOLD_REQUEST: by cycle 9FF it holds the next beat, later the one after
  (∀ ctx src cyc p w (s u : State), ctx < 1024 → cyc < 4096 → (s.lead ctx).isSome = true → w ≠ .plan →
    (s.at cyc).take (WPkt.isHold ctx src) = some (p, u) → p.holdWhy = w →
    (u.ctx ctx).part.holds.any (fun h => h.src = src && h.why = w) = false →
    exec (.holdRequest ctx src cyc) s =
      .next (u.onPart ctx (fun x => { x with holds := x.holds ++ [⟨src, w, s.clk.beat + (if cyc ≤ 0x9FF then 1 else 2)⟩] }))) ∧
  -- HOLD_DECISION: the next beat is held while a request for it is outstanding; the decision goes to every controller of the partition
  (∀ ctx r (s : State), ctx < 1024 → s.lead ctx = some r → (s.ctx ctx).part.next = none → (s.region r).rcFenced = false →
    ∃ t, exec (.holdDecision ctx) s = .next t ∧
      t.ctxs = (((s.at 0x9FF).onPart ctx (fun p => { p with
        next := some (decide (0 < ctx) && p.holds.any (fun h => decide (h.beat ≤ s.clk.beat + 1)))
        holds := p.holds.filter (fun h => h.why ≠ .forecast ∨ s.clk.beat + 1 < h.beat) })).ctxs) ∧
      t.clk.beat = s.clk.beat ∧ t.clk.m = s.clk.m) ∧
  -- HOLD_TIMEOUT: raised once, by the lead controller, when a held partition has passed the limit
  (∀ ctx r (s : State), ctx < 1024 → s.lead ctx = some r → (s.ctx ctx).part.held = true → (s.ctx ctx).part.limit < (s.ctx ctx).part.heldBeats →
    (s.ctx ctx).part.timedOut = false → (s.ctx ctx).run.any (fun r => r.started && r.ending.isNone) = true →
    exec (.holdTimeout ctx) s =
      .next ((s.onPart ctx (fun p => { p with timedOut := true })).report ⟨fcHoldTimeout, uidRc r, s.now, 0, 0, ctx, []⟩)) ∧
  -- PTP_ANCHOR in PTP mode, every 1024 beats: the beat, the time, and whether it was taken without lock
  (∀ time locked (s : State), s.clk.beat % 1024 = 0 → s.clk.mode.cable = false → (∀ a ∈ s.clk.anchors, a.beat ≠ s.clk.beat) →
    exec (.ptpAnchor time locked) s =
      .next { s with clk := { s.clk with anchors := s.clk.anchors ++ [⟨s.clk.beat, time, !locked⟩] } }) ∧
  -- BEAT_IN_LOST in cable mode on a module that is not the master: recorded; nothing else of the clock changes
  (∀ s : State, s.clk.mode.cable = true → s.clk.mode.master = false → s.clk.inLost = false →
    exec .beatInLost s = .next (({ s with clk := { s.clk with inLost := true } }).beatEvent 1 s.clk.beat s.clk.beat))

/-- BEAT_BOUNDARY on a powered wafer (R14, R22, R25): the next beat begins, at the longest period ordered for it by now or, with none due, at the period of
the beat before; the orders that came due are gone. On an unpowered wafer Keeper time alone goes on, and a
link whose HELLO is late by it goes down (R265). -/
def Obligations.BoundaryBeginsTheNextBeat : Prop :=
  ∀ s : State,
    (s.tr.wafer = true → ∃ t, exec .beatBoundary s = .next t ∧ t.clk.beat = s.clk.beat + 1 ∧ t.clk.m = (s.dueStretch (s.clk.beat + 1)).getD s.clk.m ∧
      ((s.dueStretch (s.clk.beat + 1)).isSome = true → t.clk.stretch = s.clk.stretch.filter (fun o => decide (s.clk.beat + 1 < o.2))) ∧
      ((s.dueStretch (s.clk.beat + 1)).isSome = false → t.clk.stretch = s.clk.stretch)) ∧
    (s.tr.wafer = false →
      exec .beatBoundary s = .next ({ s with clk := { s.clk with cycle := 0, wall := s.clk.wall + s.beatLen } } : State).helloLate)

/-- Each tile is served by the site that R11 gives it: in each column logical rows 3, 2, 1 and 0 take the good site rows in turn, from the northernmost
downwards, and a row left without a good site has none. -/
def Obligations.TilesTakeGoodSitesFromTheNorth : Prop :=
  ∀ (bad : List Nat) (k col : Nat), k < 4 → col < 4 →
    -- no defect in the column: row j uses site row j + 1
    ((∀ r, r < 5 → 20 * k + 4 * r + col ∉ bad) → ∀ j, j < 4 → siteOf bad k (4 * j + col) = some (4 * (j + 1) + col)) ∧
    -- one defect, in site row d: rows below d keep site row j, rows at or above d use j + 1
    (∀ d, d < 5 → 20 * k + 4 * d + col ∈ bad → (∀ r, r < 5 → r ≠ d → 20 * k + 4 * r + col ∉ bad) →
      ∀ j, j < 4 → siteOf bad k (4 * j + col) = some (4 * (if j < d then j else j + 1) + col)) ∧
    -- a row is left without a site where the column has two defects more than the rows below it: row 0 with two, rows 0 and 1 with three, and so on
    (∀ j, j < 4 → ((siteOf bad k (4 * j + col)).isNone = true ↔
      j + 2 ≤ ([0, 1, 2, 3, 4].filter (fun r => bad.contains (20 * k + 4 * r + col))).length))

/-- The edge ports are numbered clockwise from the north-west corner, and each port's tile and side lead back to the port (*The rim*). -/
def Obligations.EdgePortsRunClockwise : Prop :=
  (∀ x, x < 80 → edgeAt (tileAt x 63) 0 = x) ∧
  (∀ y, y < 64 → edgeAt (tileAt 79 y) 1 = 80 + (63 - y)) ∧
  (∀ x, x < 80 → edgeAt (tileAt x 0) 2 = 144 + (79 - x)) ∧
  (∀ y, y < 64 → edgeAt (tileAt 0 y) 3 = 224 + y) ∧
  (∀ p, p < 288 → edgeAt (edgeTile p).1 (edgeTile p).2 = p ∧ tileNext (edgeTile p).1 (edgeTile p).2 = none)

/-! Chapters 2 to 5: the tile's instructions. -/

/-- The instructions that complete when they are issued (NOP, WCY, LOOP, CALL, RET, SWP, END, AGS, AGI, SWR, MCF, VSL, VSM): the flag waited on is lowered, the issue counted,
the instruction's registers written, the stream steps to the next instruction, and the completion flag rises (R46, R116, R125 to R128, R131, R133, R140, R145, R146). Nothing
but the tile and the cycle noted changes. -/
def Obligations.RegisterInstructionsComplete : Prop :=
  -- NOP and WCY only step past
  (∀ h cyc (s : State), (Instr.nop h cyc).wf = true → (Instr.nop h cyc).units = true → offered h (.nop cyc) s = true → calm h s = true →
    canRise h (lowered h (tileNow h s)) = true →
    exec (.nop h cyc) s = .next ((inTile h s).setTile h.tile (risen h ((atIssue h (.nop cyc) s).onStream h.exe Stream.stepPast)))) ∧
  (∀ h off (s : State), (Instr.wcy h off).wf = true → (Instr.wcy h off).units = true → offered h (.wcy off) s = true → calm h s = true →
    canRise h (lowered h (tileNow h s)) = true →
    exec (.wcy h off) s = .next ((inTile h s).setTile h.tile (risen h ((atIssue h (.wcy off) s).onStream h.exe Stream.stepPast)))) ∧
  -- LOOP enters its body, or skips it when the count is 0
  (∀ h f (s : State), (Instr.loop h f).wf = true → (Instr.loop h f).units = true → offered h (.loop f) s = true → calm h s = true →
    canRise h (lowered h (tileNow h s)) = true →
    exec (.loop h f) s = .next ((inTile h s).setTile h.tile (risen h ((atIssue h (.loop f) s).onStream h.exe (fun x => x.enterLoop f))))) ∧
  -- CALL goes to the routine's slot and remembers its own slot and TAG; RET goes behind the CALL
  (∀ h r (s : State), (Instr.call h r).wf = true → (Instr.call h r).units = true → offered h (.call r) s = true → calm h s = true →
    canRise h (lowered h (tileNow h s)) = true →
    exec (.call h r) s = .next ((inTile h s).setTile h.tile (risen h ((atIssue h (.call r) s).onStream h.exe
      (fun x => { x with pos := ((tileNow h s).routines.get {} r).slot, calls := ⟨x.pos, h.tag⟩ :: x.calls }))))) ∧
  (∀ h (s : State), (Instr.ret h).wf = true → (Instr.ret h).units = true → offered h .ret s = true → calm h s = true →
    canRise h (lowered h (tileNow h s)) = true →
    exec (.ret h) s = .next ((inTile h s).setTile h.tile (risen h ((atIssue h .ret s).onStream h.exe Stream.doRet)))) ∧
  -- SWP waits for the swap, which raises its flag; END ends the stream, and the plan's run when both streams are at END
  (∀ h (s : State), (Instr.swp h).wf = true → (Instr.swp h).units = true → offered h .swp s = true → calm h s = true →
    exec (.swp h) s = .next ((inTile h s).setTile h.tile { ((atIssue h .swp s).onStream h.exe (fun x => { x with st := .atSwp, swpSet := h.sfl })) with
      swpBeats := if (tileNow h s).swpBeats = none then some 0 else (tileNow h s).swpBeats })) ∧
  (∀ h (s : State), (Instr.endI h).wf = true → (Instr.endI h).units = true → offered h .endI s = true → calm h s = true →
    canRise h (lowered h (tileNow h s)) = true →
    exec (.endI h) s = .next ((inTile h s).setTile h.tile (risen h { ((atIssue h .endI s).onStream h.exe (fun x => { x with st := .atEnd, endAt := s.stamp h.cyc })) with
      running := !decide (((tileNow h s).stream (!h.exe)).st = .atEnd) }))) ∧
  -- AGS and AGI write a generator of their own stream
  (∀ h f (s : State), (Instr.ags h f).wf = true → (Instr.ags h f).units = true → offered h (.ags f) s = true → calm h s = true →
    canRise h (lowered h (tileNow h s)) = true →
    exec (.ags h f) s = .next ((inTile h s).setTile h.tile (risen h (((atIssue h (.ags f) s).onStream h.exe (fun x => { x with
      ags := x.ags.upd {} f.ag (fun g => { g with base := f.base, step := f.step, period := f.period, ring := f.ring, qm := f.qm, q := f.q }) })).onStream h.exe Stream.stepPast)))) ∧
  (∀ h f (s : State), (Instr.agi h f).wf = true → (Instr.agi h f).units = true → offered h (.agi f) s = true → calm h s = true →
    canRise h (lowered h (tileNow h s)) = true →
    exec (.agi h f) s = .next ((inTile h s).setTile h.tile (risen h (((atIssue h (.agi f) s).onStream h.exe (fun x => { x with
      ags := x.ags.upd {} f.ag (fun g => { g with
        inc := ((List.range (max 1 (min f.n 3))).foldl (fun m k => m.set 0 (f.lv + k) ([f.inca, f.incb, f.incc].getD k 0)) g.inc) }) })).onStream h.exe Stream.stepPast)))) ∧
  -- SWR writes a register of the tile
  (∀ h reg v (s : State), (Instr.swr h reg v).wf = true → (Instr.swr h reg v).units = true → offered h (.swr reg v) s = true → calm h s = true →
    canRise h (lowered h (tileNow h s)) = true →
    exec (.swr h reg v) s = .next ((inTile h s).setTile h.tile (risen h (((atIssue h (.swr reg v) s).writeBy (b2n h.exe) reg v.toNat).onStream h.exe Stream.stepPast)))) ∧
  -- MCF writes MU_CFG, VSL VC_LEN, VSM VC_MASK
  (∀ h gang sati (s : State), (Instr.mcf h gang sati).wf = true → (Instr.mcf h gang sati).units = true → offered h (.mcf gang sati) s = true → calm h s = true →
    canRise h (lowered h (tileNow h s)) = true →
    exec (.mcf h gang sati) s =
      .next ((inTile h s).setTile h.tile (risen h (({ atIssue h (.mcf gang sati) s with gang := gang, sati := sati } : Tile).onStream h.exe Stream.stepPast)))) ∧
  (∀ h f (s : State), (Instr.vsl h f).wf = true → (Instr.vsl h f).units = true → offered h (.vsl f) s = true → calm h s = true →
    canRise h (lowered h (tileNow h s)) = true →
    exec (.vsl h f) s = .next ((inTile h s).setTile h.tile (risen h (((atIssue h (.vsl f) s).writeBy 1 0x11
      (f.len0 + (if f.lve then f.mult * (tileNow h s).se.idx f.lv else 0))).onStream h.exe Stream.stepPast)))) ∧
  (∀ h mask (s : State), (Instr.vsm h mask).wf = true → (Instr.vsm h mask).units = true → offered h (.vsm mask) s = true → calm h s = true →
    canRise h (lowered h (tileNow h s)) = true →
    exec (.vsm h mask) s = .next ((inTile h s).setTile h.tile (risen h (((atIssue h (.vsm mask) s).writeBy 1 0x12 mask.toNat).onStream h.exe Stream.stepPast))))

/-- The instructions that go into flight (MLD, MSW, MST, MDR, CVL, VCL, VRN, VRS, VRL, SRD, GET, PUT, GTH, SCT, PGL): with no other instruction in flight, one whose units all find
their operands is issued and complete in the step, with every unit's effect (R50, R56, R57, R67, R82, R101, R112, R116, R135, R136, R140, R144). -/
def Obligations.FlyingInstructionsComplete : Prop :=
  (∀ h f (s : State) u, (Instr.mld h f).wf = true → (Instr.mld h f).units = true → offered h (.mld f) s = true → calm h s = true →
    unitsDone h (.mld f) (f.rows + (if f.scl then 2 else 0)) s u → canRise h u = true →
    exec (.mld h f) s = .next ((inTile h s).setTile h.tile (landed h (flying h (.mld f) (f.rows + (if f.scl then 2 else 0)) s).1 u))) ∧
  (∀ h (s : State), (Instr.msw h).wf = true → (Instr.msw h).units = true → offered h .msw s = true → calm h s = true →
    canRise h (lowered h (tileNow h s)) = true →
    exec (.msw h) s = .next ((inTile h s).setTile h.tile (landed h (flying h .msw 1 s).1 (flying h .msw 1 s).1.quiet.swapSets))) ∧
  (∀ h f x (s : State) u, (Instr.mst h f x).wf = true → (Instr.mst h f x).units = true → offered h (.mst f x) s = true → calm h s = true →
    unitsDone h (.mst f x) f.rows s u → canRise h u = true →
    exec (.mst h f x) s = .next ((inTile h s).setTile h.tile (landed h (flying h (.mst f x) f.rows s).1 u))) ∧
  (∀ h f (s : State) u, (Instr.mdr h f).wf = true → (Instr.mdr h f).units = true → offered h (.mdr f) s = true → calm h s = true →
    unitsDone h (.mdr f) f.rows s u → canRise h u = true →
    exec (.mdr h f) s = .next ((inTile h s).setTile h.tile (landed h (flying h (.mdr f) f.rows s).1 u))) ∧
  (∀ h k pb ag w (s : State) u, (Instr.cvl h k pb ag w).wf = true → (Instr.cvl h k pb ag w).units = true → offered h (.cvl k pb ag w) s = true → calm h s = true →
    unitsDone h (.cvl k pb ag w) (if pb then 17 else 1) s u → canRise h u = true →
    exec (.cvl h k pb ag w) s = .next ((inTile h s).setTile h.tile (landed h (flying h (.cvl k pb ag w) (if pb then 17 else 1) s).1 u))) ∧
  (∀ h k ag (s : State) u, (Instr.vcl h k ag).wf = true → (Instr.vcl h k ag).units = true → offered h (.vcl k ag) s = true → calm h s = true →
    unitsDone h (.vcl k ag) 4 s u → canRise h u = true →
    exec (.vcl h k ag) s = .next ((inTile h s).setTile h.tile (landed h (flying h (.vcl k ag) 4 s).1 u))) ∧
  (∀ h k ovl (s : State) u, (Instr.vrn h k ovl).wf = true → (Instr.vrn h k ovl).units = true → offered h (.vrn k ovl) s = true → calm h s = true →
    chNstg ((tileNow h s).chain.get 0 k) ≠ 0 → unitsDone h (.vrn k ovl) (((tileNow h s).vcLen + 63) / 64) s u → canRise h u = true →
    exec (.vrn h k ovl) s = .next ((inTile h s).setTile h.tile (landed h (flying h (.vrn k ovl) (((tileNow h s).vcLen + 63) / 64) s).1 u))) ∧
  (∀ h b n ag (s : State) u, (Instr.vrs h b n ag).wf = true → (Instr.vrs h b n ag).units = true → offered h (.vrs b n ag) s = true → calm h s = true →
    unitsDone h (.vrs b n ag) ((n + 7) / 8) s u → canRise h u = true →
    exec (.vrs h b n ag) s = .next ((inTile h s).setTile h.tile (landed h (flying h (.vrs b n ag) ((n + 7) / 8) s).1 u))) ∧
  (∀ h b n ag (s : State) u, (Instr.vrl h b n ag).wf = true → (Instr.vrl h b n ag).units = true → offered h (.vrl b n ag) s = true → calm h s = true →
    unitsDone h (.vrl b n ag) ((n + 7) / 8) s u → canRise h u = true →
    exec (.vrl h b n ag) s = .next ((inTile h s).setTile h.tile (landed h (flying h (.vrl b n ag) ((n + 7) / 8) s).1 u))) ∧
  (∀ h r ag (s : State) u, (Instr.srd h r ag).wf = true → (Instr.srd h r ag).units = true → offered h (.srd r ag) s = true → calm h s = true →
    unitsDone h (.srd r ag) 1 s u → canRise h u = true →
    exec (.srd h r ag) s = .next ((inTile h s).setTile h.tile (landed h (flying h (.srd r ag) 1 s).1 u))) ∧
  (∀ h ch ag n (s : State) u, (Instr.get h ch ag n).wf = true → (Instr.get h ch ag n).units = true → offered h (.get ch ag n) s = true → calm h s = true →
    unitsDone h (.get ch ag n) n s u → canRise h u = true →
    exec (.get h ch ag n) s = .next ((inTile h s).setTile h.tile (landed h (flying h (.get ch ag n) n s).1 u))) ∧
  (∀ h ch ag n (s : State) u, (Instr.put h ch ag n).wf = true → (Instr.put h ch ag n).units = true → offered h (.put ch ag n) s = true → calm h s = true →
    unitsDone h (.put ch ag n) n s u → canRise h u = true →
    exec (.put h ch ag n) s = .next ((inTile h s).setTile h.tile (landed h (flying h (.put ch ag n) n s).1 u))) ∧
  (∀ h f (s : State) u, (Instr.gth h f).wf = true → (Instr.gth h f).units = true → offered h (.gth f) s = true → calm h s = true →
    unitsDone h (.gth f) (f.count * f.roww) s u → canRise h u = true →
    exec (.gth h f) s = .next ((inTile h s).setTile h.tile (landed h (flying h (.gth f) (f.count * f.roww) s).1 u))) ∧
  (∀ h f (s : State) u, (Instr.sct h f).wf = true → (Instr.sct h f).units = true → offered h (.sct f) s = true → calm h s = true →
    unitsDone h (.sct f) (f.count * f.roww) s u → canRise h u = true →
    exec (.sct h f) s = .next ((inTile h s).setTile h.tile (landed h (flying h (.sct f) (f.count * f.roww) s).1 u))) ∧
  (∀ h ch off n fin (s : State) u, (Instr.pgl h ch off n fin).wf = true → (Instr.pgl h ch off n fin).units = true → offered h (.pgl ch off n fin) s = true → calm h s = true →
    unitsDone h (.pgl ch off n fin) n s u → canRise h u = true →
    exec (.pgl h ch off n fin) s = .next ((inTile h s).setTile h.tile (landed h (flying h (.pgl ch off n fin) n s).1 u)))

/-- MLD, MSW, MST, MDR and CVL complete: issued alone, with rows, scales and parameters that the tile can access, no accumulator row in error and, for MST, no row that the
reflection check condemns, all their units are done in the step (R50, R56, R57, R67, R71, R82). -/
def Obligations.MatrixInstructionsLand : Prop :=
  (∀ h f (s : State), Ready (.mld h f) h (.mld f) s →
    rowsThere (tileNow h s) (genNow h f.src s) (f.rows + (if f.scl then 2 else 0)) (fun u => if u < f.rows then fmtBytes f.sfmt 64 else 64) = true →
    Lands (.mld h f) h (.mld f) (f.rows + (if f.scl then 2 else 0)) s) ∧
  (∀ h (s : State), Ready (.msw h) h .msw s → Lands (.msw h) h .msw 1 s) ∧
  -- an MST into the accumulator: the formats agree, and the rows, read from the scratchpad, pass their checks
  (∀ h f x (s : State), Ready (.mst h f x) h (.mst f x) s → f.mode < 2 → fmtGroup (mstEnter f 0 (tileNow h s)).active.fmt = fmtGroup f.afmt →
    fmtGroup f.afmt ≠ none → (tileNow h s).accBad = [] →
    rowsThere (tileNow h s) (genNow h f.src s) f.rows (fun _ => fmtBytes f.afmt (mstWidth (tileNow h s).gang)) = true →
    (f.afmt = 6 ∨ f.afmt = 7 → packThere (tileNow h s) (genNow h f.ssrc s) (f.rows * (mstWidth (tileNow h s).gang / 32)) 1 = true) →
    (∀ i < f.rows, Refl.fail ∉ mstChecks (mstEnter f 0 (tileNow h s)).active f (tileNow h s).gang x i
      ((tileNow h s).mem.rdBytes ((genNow h f.src s).rowAddr i).toNat (fmtBytes f.afmt (mstWidth (tileNow h s).gang)))
      (if f.afmt = 6 ∨ f.afmt = 7 then scalesAt (tileNow h s) (genNow h f.ssrc s) (i * (mstWidth (tileNow h s).gang / 32)) (mstWidth (tileNow h s).gang / 32) else [])) →
    Lands (.mst h f x) h (.mst f x) f.rows s) ∧
  (∀ h f (s : State), Ready (.mdr h f) h (.mdr f) s → (tileNow h s).accBad = [] →
    convThere (tileNow h s) (genNow h f.dst s) (genNow h (bits ((tileNow h s).cv f.cvt) 53 52) s) (genNow h (bits ((tileNow h s).cv f.cvt) 51 50) s) f.cvt f.rows = true →
    Lands (.mdr h f) h (.mdr f) f.rows s) ∧
  (∀ h k pb ag w (s : State), Ready (.cvl h k pb ag w) h (.cvl k pb ag w) s → (pb = true → wordsThere (tileNow h s) (genNow h ag s) 17 = true) →
    Lands (.cvl h k pb ag w) h (.cvl k pb ag w) (if pb then 17 else 1) s)

/-- VCL, VRN, VRS and VRL complete: issued alone, with a valid configuration to load, stages that find the elements they load and the places they store to, and words that the
tile can access, all their units are done in the step (R101, R103, R112, R115 to R118). -/
def Obligations.VectorInstructionsLand : Prop :=
  (∀ h k ag (s : State), Ready (.vcl h k ag) h (.vcl k ag) s → wordsThere (tileNow h s) (genNow h ag s) 4 = true →
    chainValid (chainRead (tileNow h s) (genNow h ag s)) = true → Lands (.vcl h k ag) h (.vcl k ag) 4 s) ∧
  (∀ h k ovl (s : State), Ready (.vrn h k ovl) h (.vrn k ovl) s → chNstg ((tileNow h s).chain.get 0 k) ≠ 0 →
    stagesThere (tileNow h s) (fun a => genNow h a s) (tileNow h s).vcLen none (chStages ((tileNow h s).chain.get 0 k)) = true →
    Lands (.vrn h k ovl) h (.vrn k ovl) (((tileNow h s).vcLen + 63) / 64) s) ∧
  (∀ h b n ag (s : State), Ready (.vrs h b n ag) h (.vrs b n ag) s → wordsThere (tileNow h s) (genNow h ag s) ((n + 7) / 8) = true →
    Lands (.vrs h b n ag) h (.vrs b n ag) ((n + 7) / 8) s) ∧
  (∀ h b n ag (s : State), Ready (.vrl h b n ag) h (.vrl b n ag) s → wordsThere (tileNow h s) (genNow h ag s) ((n + 7) / 8) = true →
    Lands (.vrl h b n ag) h (.vrl b n ag) ((n + 7) / 8) s)

/-- SRD, GET, PUT, GTH, SCT and PGL complete: issued alone, with rows, words and indices that the tile can access and flits, or room for flits, in their channel, all their units
are done in the step (R134 to R136, R140, R144). -/
def Obligations.TransfersLand : Prop :=
  (∀ h r ag (s : State), Ready (.srd h r ag) h (.srd r ag) s → rowThere (tileNow h s) (genNow h ag s).start 32 = true → Lands (.srd h r ag) h (.srd r ag) 1 s) ∧
  (∀ h ch ag n (s : State), Ready (.get h ch ag n) h (.get ch ag n) s → rowsThere (tileNow h s) (genNow h ag s) n (fun _ => 64) = true →
    n ≤ ((tileNow h s).ic.get [] ch).length → Lands (.get h ch ag n) h (.get ch ag n) n s) ∧
  (∀ h ch ag n (s : State), Ready (.put h ch ag n) h (.put ch ag n) s → rowsThere (tileNow h s) (genNow h ag s) n (fun _ => 64) = true →
    ((tileNow h s).oc.get [] ch).length + n ≤ 16 → Lands (.put h ch ag n) h (.put ch ag n) n s) ∧
  -- a gather into a channel, and a gather of one row into the scratchpad
  (∀ h f (s : State), Ready (.gth h f) h (.gth f) s → packThere (tileNow h s) (genNow h f.iag s) f.count (if f.iw32 then 4 else 2) = true →
    (∀ n < f.count, indexedThere (tileNow h s) (genNow h f.iag s) (genNow h f.sag s) f.iw32 f.limit f.roww n = true) →
    (∀ ch, f.chan = some ch → ((tileNow h s).oc.get [] ch).length + f.count * f.roww / 2 ≤ 16) →
    (f.chan = none → f.count = 1 ∧ (genNow h f.dag s).qm = false ∧ rowThere (tileNow h s) ((genNow h f.dag s).rowAddr 0) (32 * f.roww) = true) →
    Lands (.gth h f) h (.gth f) (f.count * f.roww) s) ∧
  -- a scatter of one row, from a channel or from the scratchpad
  (∀ h f (s : State), Ready (.sct h f) h (.sct f) s → f.count = 1 → packThere (tileNow h s) (genNow h f.iag s) 1 (if f.iw32 then 4 else 2) = true →
    indexedThere (tileNow h s) (genNow h f.iag s) (genNow h f.dag s) f.iw32 f.limit f.roww 0 = true →
    (∀ ch, f.chan = some ch → f.roww ≤ 2 * ((tileNow h s).ic.get [] ch).length) →
    (f.chan = none → (genNow h f.sag s).qm = false ∧ rowThere (tileNow h s) ((genNow h f.sag s).rowAddr 0) (32 * f.roww) = true) →
    Lands (.sct h f) h (.sct f) (f.count * f.roww) s) ∧
  (∀ h ch off n fin (s : State), Ready (.pgl h ch off n fin) h (.pgl ch off n fin) s → n ≤ ((tileNow h s).ic.get [] ch).length →
    Lands (.pgl h ch off n fin) h (.pgl ch off n fin) n s)

/-! Chapters 5 and 6: swaps, watches, plan start and end, patrol. -/

/-- PAGE_SWAP, SWAP_TIMEOUT, CROSS_WAIT, STREAM_STALL, PLAN_START, PLAN_END, SP_PATROL and SP_CORRECTION_WRITEBACK complete (R142, R145 to R148, R161, R163). -/
def Obligations.TileEventsComplete : Prop :=
  -- PAGE_SWAP: at cycle 000 of an executed beat, both streams at SWP with nothing in flight and the next page of the same plan pending: the banks swap and the flags of both
  -- SWPs rise
  (∀ tile (s : State) t, Fits (.pageSwap tile) → s.clk.cycle = 0 → s.beatRuns tile = true → (s.tile tile).enter s.now = t → t.atSwap = true →
    (t.hdr t.pendb).planId = t.planId → (t.hdr t.pendb).page = t.page + 1 → hdrOk (t.slot t.pendb) = true →
    flagRoom t.sa.swpSet (t.activate t.pendb s.now) = true → flagRoom t.se.swpSet (raisedFlag t.sa.swpSet (t.activate t.pendb s.now)) = true →
    exec (.pageSwap tile) s = .next (s.setTile tile (raisedFlag t.se.swpSet (raisedFlag t.sa.swpSet (t.activate t.pendb s.now))))) ∧
  -- a pending header that does not continue the plan is PLAN_HEADER; outside cycle 000 nothing swaps
  (∀ tile (s : State) t, Fits (.pageSwap tile) → s.clk.cycle = 0 → s.beatRuns tile = true → (s.tile tile).enter s.now = t → t.atSwap = true →
    (t.hdr t.pendb).page ≠ t.page + 1 → exec (.pageSwap tile) s = .next (s.tileFault tile 0 ⟨fcPlanHeader, 0, [], t.sa.tag, t.sa.otag⟩)) ∧
  (∀ tile (s : State), Fits (.pageSwap tile) → s.clk.cycle ≠ 0 → exec (.pageSwap tile) s = .next s) ∧
  -- SWAP_TIMEOUT: more executed beats than the limit since the first stream reached SWP
  (∀ tile cyc n (s : State), Fits (.swapTimeout tile cyc) → s.beatRuns tile = true → (s.tile tile).swpBeats = some n → (s.tile tile).swapLimit < n →
    exec (.swapTimeout tile cyc) s =
      .next ((s.at cyc).tileFault tile cyc ⟨fcSwapTimeout, 0, [(s.tile tile).sa.tag, (s.tile tile).se.tag], (s.tile tile).sa.tag, (s.tile tile).sa.otag⟩)) ∧
  -- CROSS_WAIT: at cycle 000, neither stream issued in the beat before, both waited all through it, one on a flag or queue, and nothing moves
  (∀ tile (s : State), Fits (.crossWait tile) → s.clk.cycle = 0 → s.beatRuns tile = true → (s.tile tile).sa.idleBeats ≠ 0 → (s.tile tile).se.idleBeats ≠ 0 →
    (s.tile tile).sa.stuckLast = true → (s.tile tile).se.stuckLast = true → ((s.tile tile).sa.onFlagOrQueue = true ∨ (s.tile tile).se.onFlagOrQueue = true) →
    (∀ o ∈ (s.tile tile).sa.ops ++ (s.tile tile).se.ops, o.blocked = true) →
    exec (.crossWait tile) s =
      .next (s.tileFault tile 0 ⟨fcCrossWait, 0, [(s.tile tile).sa.tag, (s.tile tile).se.tag], (s.tile tile).sa.tag, (s.tile tile).sa.otag⟩)) ∧
  -- STREAM_STALL: the limit of executed beats without an issue, neither at SWP nor at END
  (∀ tile exe cyc (s : State), Fits (.streamStall tile exe cyc) → s.beatRuns tile = true →
    (((s.tile tile).stream exe).st = .issuing ∨ ((s.tile tile).stream exe).st = .waiting) → (s.tile tile).stallLimit ≤ ((s.tile tile).stream exe).idleBeats →
    exec (.streamStall tile exe cyc) s =
      .next ((s.at cyc).tileFault tile cyc ⟨fcStreamStall, if exe then 0x031 else 0x030, [], ((s.tile tile).stream exe).tag, ((s.tile tile).stream exe).otag⟩)) ∧
  -- PLAN_START at cycle 000: page 0 in the bank named begins, with every flag 0 and every queue empty; of a step or an evaluation the tile's draws are seeded
  (∀ tile p (s u : State), Fits (.planStart tile) → s.clk.cycle = 0 → s.take (WPkt.startsTile tile s.clk.beat) = some (p, u) → (u.tile tile).running = false →
    (u.tile tile).fenced = false → (u.region (tile / 64)).cd = .on → (u.tile tile).planOk = true → (u.ctx (u.ptag tile)).part.held = false → (u.tile tile).scrubEnd ≤ s.now →
    (∀ r, (u.ctx (u.ptag tile)).run = some r → r.kind = .plain) →
    exec (.planStart tile) s = .next (u.setTile tile
      { ((u.tile tile).enter s.now).activate p.startBank s.now with pend := (u.tile tile).pend, flags := [], queues := [] })) ∧
  (∀ tile p r (s u : State), Fits (.planStart tile) → s.clk.cycle = 0 → s.take (WPkt.startsTile tile s.clk.beat) = some (p, u) → (u.tile tile).running = false →
    (u.tile tile).fenced = false → (u.region (tile / 64)).cd = .on → (u.tile tile).planOk = true → (u.ctx (u.ptag tile)).part.held = false → (u.tile tile).scrubEnd ≤ s.now →
    (u.ctx (u.ptag tile)).run = some r → r.kind ≠ .plain →
    exec (.planStart tile) s = .next (u.setTile tile
      ((({ ((u.tile tile).enter s.now).activate p.startBank s.now with pend := (u.tile tile).pend, flags := [], queues := [] } : Tile).writeBy 2 0x09
        (mix64 (BitVec.ofNat 64 r.seed ^^^ BitVec.ofNat 64 (((u.tile tile).enter s.now).activate p.startBank s.now).work)).toNat).writeBy 2 0x0A 0 |>.writeBy 2 0x13 0))) ∧
  -- PLAN_END: with tiles left, and as the last: a plain plan or an evaluation ends OK with the beats it took, a step waits for its completion
  (∀ tile cyc (s : State), Fits (.planEnd tile cyc) → (s.tile tile).sa.st = .atEnd → (s.tile tile).se.st = .atEnd → (s.tile tile).fenced = false →
    tilesLeft (s.ptag tile) (planEnded tile cyc s) = true → exec (.planEnd tile cyc) s = .next (planEnded tile cyc s)) ∧
  (∀ tile cyc x (s : State), Fits (.planEnd tile cyc) → (s.tile tile).sa.st = .atEnd → (s.tile tile).se.st = .atEnd → (s.tile tile).fenced = false →
    tilesLeft (s.ptag tile) (planEnded tile cyc s) = false → ((planEnded tile cyc s).ctx (s.ptag tile)).run = some x → x.started = true → x.ending = none →
    exec (.planEnd tile cyc) s = .next
      (if x.kind = .step then ((planEnded tile cyc s).onCtx (s.ptag tile) (fun y => { y with run := some { x with planDone := true } })).onPart (s.ptag tile)
          (fun p => { p with seq := [], startAt := none, begun := false })
        else (planEnded tile cyc s).closeRun (s.ptag tile) stOk (sat 32 (((planEnded tile cyc s).ctx (s.ptag tile)).part.planBeat + 1)))) ∧
  -- SP_PATROL steps to the next row; errors in the row are corrected and queued
  (∀ tile (s : State), Fits (.spPatrol tile) → (s.region (tile / 64)).cd = .on → (s.tile tile).fenced = false → (s.ctx (s.ptag tile)).part.held = false →
    (∀ w ∈ (s.tile tile).errs.keys, ((s.tile tile).map.place (32 * w)).2 ≠ (s.tile tile).patrol % 8192) →
    exec (.spPatrol tile) s = .next (s.setTile tile { s.tile tile with patrol := ((s.tile tile).patrol % 8192 + 1) % 8192 })) ∧
  -- SP_CORRECTION_WRITEBACK ends the error of a corrected word of the bank
  (∀ tile bank w (s : State), Fits (.spCorrectionWriteback tile bank) → (s.ctx (s.ptag tile)).part.held = false →
    (s.tile tile).wback.find? (fun w => ((s.tile tile).map.place (32 * w)).1 = bank) = some w →
    exec (.spCorrectionWriteback tile bank) s =
      .next (s.onTile tile (fun t => { t with wback := t.wback.filter (· ≠ w), errs := t.errs.del w })))

/-! Chapter 7: the mesh and the Waggle. -/

/-- ROUTER_SLOT, BEAT_ORDER, BEAT_ORDER_LOST and ROUTE_SWITCH complete (R169, R171, R174, R176, R208). -/
def Obligations.MeshCommandsComplete : Prop :=
  -- ROUTER_SLOT with OPM = 0 and one side as output: the good flit that arrives at its input leaves for the next router, 2 cycles away in a region and 6 across; the tile's own
  -- flits that have come by then are landed first
  (∀ pos entry cyc o n f (s u : State), Fits (.routerSlot pos entry cyc) → (s.at cyc).landTile pos = u → bit ((u.router pos).routes.get 0 entry) 63 = true →
    reSlot ((u.router pos).routes.get 0 entry) cyc = true → (u.region (pos / 64)).st ≠ .transitLost → reIn ((u.router pos).routes.get 0 entry) < 4 →
    reOpm ((u.router pos).routes.get 0 entry) = 0 →
    u.schedOn (pos / 64) (rePtag ((u.router pos).routes.get 0 entry)) (reSched ((u.router pos).routes.get 0 entry)) = true →
    u.fly.find? (fun f => f.dst = pos && f.port = reIn ((u.router pos).routes.get 0 entry) && f.beat = u.clk.beat && f.cyc = cyc) = some f →
    f.flit.v = true → f.flit.spBad = false → f.flit.e0 = 0 → f.flit.e1 = 0 → f.flit.ptag = rePtag ((u.router pos).routes.get 0 entry) →
    o < 4 → reOut ((u.router pos).routes.get 0 entry) = 2 ^ o → tileNext pos o = some n →
    exec (.routerSlot pos entry cyc) s = .next { u with
      fly := u.fly.erase f ++ [⟨n, (o + 2) % 4, u.clk.beat + (cyc + (if n / 64 = pos / 64 then 2 else 6)) / 4096,
        (cyc + (if n / 64 = pos / 64 then 2 else 6)) % 4096, f.flit⟩] }) ∧
  -- an entry that is not valid, or has no slot in this cycle, or whose schedule is not active, does nothing
  (∀ pos entry cyc (s u : State), Fits (.routerSlot pos entry cyc) → (s.at cyc).landTile pos = u →
    (bit ((u.router pos).routes.get 0 entry) 63 = false ∨ reSlot ((u.router pos).routes.get 0 entry) cyc = false ∨
      u.schedOn (pos / 64) (rePtag ((u.router pos).routes.get 0 entry)) (reSched ((u.router pos).routes.get 0 entry)) = false) →
    exec (.routerSlot pos entry cyc) s = .next u) ∧
  -- BEAT_ORDER for the next beat: its controller keeps it; one for another beat is dropped
  (∀ dst ctx cyc p o (s u : State), Fits (.beatOrder dst ctx cyc) → (s.at cyc).take (WPkt.isOrder dst ctx) = some (p, u) → p.order? = some o →
    exec (.beatOrder dst ctx cyc) s = .next (keepOrder dst o u)) ∧
  (∀ dst o (u : State), o.beat = u.clk.beat + 1 → uClass dst = 6 →
    keepOrder dst o u = u.onRegion (uRegion dst) (fun g => if g.rcFenced then g else { g with orders := addOrder u.clk.beat o g.orders })) ∧
  (∀ dst o (u : State), o.beat = u.clk.beat + 1 → uClass dst = 0x10 →
    keepOrder dst o u = u.onSc (uSub dst) (fun x => { x with orders := addOrder u.clk.beat o x.orders })) ∧
  (∀ dst o (u : State), o.beat ≠ u.clk.beat + 1 → keepOrder dst o u = u) ∧
  -- BEAT_ORDER_LOST: a controller without an order treats the next beat as held; a region controller raises the fault
  (∀ r ctx (s : State), Fits (.beatOrderLost (uidRc r) ctx) → r < 80 → orderAt (s.region r).orders ctx (s.clk.beat + 1) = none →
    (s.ptagsIn r).contains ctx = true →
    exec (.beatOrderLost (uidRc r) ctx) s = .next (((s.at 0xFFF).onRegion r (fun g => { g with orders := g.orders ++ [⟨ctx, s.clk.beat + 1, false, 64⟩] })).report
      ⟨fcBeatOrderLost, uidRc r, s.stamp 0xFFF, 0, 0, ctx, []⟩)) ∧
  (∀ n ctx (s : State), Fits (.beatOrderLost (uidSc n) ctx) → n < 24 → orderAt (s.sc n).orders ctx (s.clk.beat + 1) = none →
    exec (.beatOrderLost (uidSc n) ctx) s = .next ((s.at 0xFFF).onSc n (fun x =>
      if (orderAt x.orders ctx (s.clk.beat + 1)).isSome then x else { x with orders := x.orders ++ [⟨ctx, s.clk.beat + 1, false, 64⟩] }))) ∧
  -- ROUTE_SWITCH to a plan without the region: a run that loses the region's tiles ends, the sets stand as their substitute plans say, and the region leaves service
  (∀ ctx w (s : State), Fits (.routeSwitch ctx) → (s.ctx ctx).switch = some w → w.beat ≤ s.clk.beat → w.target = noRegion →
    exec (.routeSwitch ctx) s = .next (leaveWork w (switchSets ctx (workOf (s.region w.region) w.region) w
      (({ s with waggle := s.waggle.filter (fun p => !p.isSwitch ctx w) } : State).runLoses ctx w.region)))) ∧
  -- ROUTE_SWITCH to a standby region whose compute is on: that region hosts from the next boundary, for the region whose work it takes
  (∀ ctx w (s : State), Fits (.routeSwitch ctx) → (s.ctx ctx).switch = some w → w.beat ≤ s.clk.beat → w.target ≠ noRegion → (s.region w.target).cd = .on →
    exec (.routeSwitch ctx) s = .next (hostWork ctx w (workOf (s.region w.region) w.region) (leaveWork w (switchSets ctx (workOf (s.region w.region) w.region) w
      (({ s with waggle := s.waggle.filter (fun p => !p.isSwitch ctx w) } : State).runLoses ctx w.region))))) ∧
  -- before its beat, or while the standby region's compute is off, nothing switches
  (∀ ctx w (s : State), Fits (.routeSwitch ctx) → (s.ctx ctx).switch = some w → (s.clk.beat < w.beat ∨ (w.target ≠ noRegion ∧ (s.region w.target).cd ≠ .on)) →
    exec (.routeSwitch ctx) s = .next s)

/-- WAGGLE_RESEND, FENCE_ORDER, FAULT_REPORT, TELEMETRY, SP_READ, SP_WRITE, SP_REPLY, REG_READ, REG_WRITE, REG_REPLY and SHORT_MSG complete
(R186, R191, R386, R404, R405, R408). -/
def Obligations.WaggleCommandsComplete : Prop :=
  -- WAGGLE_RESEND between two hubs: three resends, then the link is down on both sides and the fault raised
  (∀ hub next (s : State), Fits (.waggleResend hub next) → next < 80 → (facing hub next).isSome = true → (s.hubs.get {} hub).down.contains next = false →
    ((s.hubs.get {} hub).resends.get 0 next < 3 →
      exec (.waggleResend hub next) s = .next (s.onHub hub (fun h => { h with resend := h.resend + 1, resends := h.resends.upd 0 next (· + 1) }))) ∧
    (3 ≤ (s.hubs.get {} hub).resends.get 0 next →
      exec (.waggleResend hub next) s =
        .next (((s.onHub hub (fun h => { h with resends := h.resends.set 0 next 0, down := if h.down.contains next then h.down else h.down ++ [next] })).onHub next
          (fun h => { h with resends := h.resends.set 0 hub 0, down := if h.down.contains hub then h.down else h.down ++ [hub] })).report
          ⟨fcWaggleLink, uidTransit hub, s.now, 0, 0, 0, [uidTransit next]⟩))) ∧
  -- on the link of a hub to a gateway or to a tile's agent the hub's side alone has the state
  (∀ hub next (s : State), Fits (.waggleResend hub next) → 80 ≤ next → waggleLink hub next = true → (s.hubs.get {} hub).down.contains next = false →
    3 ≤ (s.hubs.get {} hub).resends.get 0 next →
    exec (.waggleResend hub next) s =
      .next ((s.onHub hub (fun h => { h with resends := h.resends.set 0 next 0, down := if h.down.contains next then h.down else h.down ++ [next] })).report
        ⟨fcWaggleLink, uidTransit hub, s.now, 0, 0, 0, [uidNeighbour next]⟩)) ∧
  -- FENCE_ORDER: a tile, all tiles of a region that serves the context, a region controller
  (∀ dst p (s u : State), Fits (.fenceOrder dst 1 0) → s.take (WPkt.isFence dst 1 0) = some (p, u) → uClass dst = 1 → uRegion dst < 80 →
    exec (.fenceOrder dst 1 0) s = .next (u.onTile (uTile dst) Tile.fence)) ∧
  (∀ dst ctx p (s u : State), Fits (.fenceOrder dst 2 ctx) → s.take (WPkt.isFence dst 2 ctx) = some (p, u) → uClass dst = 6 → uRegion dst < 80 →
    exec (.fenceOrder dst 2 ctx) s = .next (if u.serves (uRegion dst) = ctx then u.onTiles [uRegion dst] Tile.fence else u)) ∧
  (∀ dst p (s u : State), Fits (.fenceOrder dst 3 0) → s.take (WPkt.isFence dst 3 0) = some (p, u) → uClass dst = 6 → uRegion dst < 80 →
    exec (.fenceOrder dst 3 0) s = .next (u.onRegion (uRegion dst) (fun g => { g with rcFenced := true }))) ∧
  -- FAULT_REPORT of a class that only records, from a unit neither traced nor under test: the Keeper's record
  (∀ unit cls stamp p r (s u : State), Fits (.faultReport unit cls stamp) → s.take (WPkt.isFault unit cls stamp) = some (p, u) → p.fault? = some r →
    uClass r.unit = 1 → u.unitUnderTest r.unit = false → 5 ≤ reaction r.cls →
    exec (.faultReport unit cls stamp) s = .next (u.record r)) ∧
  -- FAULT_REPORT of a tile whose class fences it: the fence order goes out, its leases are reclaimed, the partition's hold is asked for, the record written
  (∀ unit cls stamp p r (s u : State), Fits (.faultReport unit cls stamp) → s.take (WPkt.isFault unit cls stamp) = some (p, u) → p.fault? = some r →
    uClass r.unit = 1 → u.unitUnderTest r.unit = false → u.secondary r = none → reaction r.cls = 1 →
    exec (.faultReport unit cls stamp) s = .next (((((u.send (uidRc (unitHome r.unit)) (uidTile (uTile r.unit) 0)
      (.fence 1 (uidTile (uTile r.unit) 0) r.ctx)).reclaim (fun l => decide (l.holder = r.unit))).askHold r.ctx r.unit .fence)).record r)) ∧
  -- TELEMETRY: the window's words stand in the table, and of a region controller the window is noted
  (∀ r unit p w (s u : State), Fits (.telemetry unit) → r < 80 → unit = uidRc r → s.take (WPkt.isTele unit) = some (p, u) → p.tele? = some (unit, w) →
    exec (.telemetry unit) s = .next (({ u with tele := u.tele.set [] r w } : State).onRegion r (fun g => { g with teleWin := u.clk.beat / 1024 }))) ∧
  -- SP_READ, SP_WRITE that reach the agent of a tile with power: the word at an aligned address of the map, whatever the write replaced; elsewhere BAD_PARAM
  (∀ tile src addr (s u : State), Fits (.spRead tile src addr) → s.request src tile = (u, true) → u.tilePowered tile = true → addr % 32 = 0 →
    (u.tile tile).map.there addr = true → (u.tile tile).errs.get 0 (addr / 32) = 0 →
    exec (.spRead tile src addr) s = .next ((u.setTile tile (u.tile tile)).send (uidAgent tile) src (.spReply stOk ((u.tile tile).mem.rdLE addr 32)))) ∧
  (∀ tile src addr word (s u : State), Fits (.spWrite tile src addr word) → s.request src tile = (u, true) → u.tilePowered tile = true → addr % 32 = 0 →
    (u.tile tile).map.there addr = true →
    exec (.spWrite tile src addr word) s = .next ((u.setTile tile { u.tile tile with
      mem := (u.tile tile).mem.wrLE addr 32 word.toNat, errs := (u.tile tile).errs.del (addr / 32), wback := (u.tile tile).wback.filter (· ≠ addr / 32) }).send (uidAgent tile) src (.spReply stOk word.toNat))) ∧
  (∀ tile src addr word (s u : State), Fits (.spRead tile src addr) → Fits (.spWrite tile src addr word) → s.request src tile = (u, true) → u.tilePowered tile = true →
    (addr % 32 ≠ 0 ∨ (u.tile tile).map.there addr = false) →
    exec (.spRead tile src addr) s = .next (u.send (uidAgent tile) src (.spReply stBadParam 0)) ∧
    exec (.spWrite tile src addr word) s = .next (u.send (uidAgent tile) src (.spReply stBadParam 0))) ∧
  -- REG_READ, REG_WRITE: a register that can be read; the fields SWR may write; else BAD_PARAM
  (∀ tile src reg (s u : State), Fits (.regRead tile src reg) → s.request src tile = (u, true) → u.tilePowered tile = true →
    exec (.regRead tile src reg) s =
      .next (u.send (uidAgent tile) src (if regKnown reg then .regReply stOk ((u.tile tile).regAt u.now reg) else .regReply stBadParam 0))) ∧
  (∀ tile src reg v (s u : State), Fits (.regWrite tile src reg v) → s.request src tile = (u, true) → u.tilePowered tile = true → regWritable reg = true →
    exec (.regWrite tile src reg v) s = .next ((u.onTile tile (fun t => t.writeBy 2 reg v.toNat)).send (uidAgent tile) src
      (.regReply stOk (((u.onTile tile (fun t => t.writeBy 2 reg v.toNat)).tile tile).regAt u.now reg)))) ∧
  (∀ tile src reg v (s u : State), Fits (.regWrite tile src reg v) → s.request src tile = (u, true) → u.tilePowered tile = true → regWritable reg = false →
    exec (.regWrite tile src reg v) s = .next (u.send (uidAgent tile) src (.regReply stBadParam 0))) ∧
  -- a request that does not reach the agent changes nothing beyond what carrying it takes
  (∀ tile src addr reg word v (s u : State), s.request src tile = (u, false) → (Fits (.spRead tile src addr) → exec (.spRead tile src addr) s = .next u) ∧
    (Fits (.spWrite tile src addr word) → exec (.spWrite tile src addr word) s = .next u) ∧ (Fits (.regRead tile src reg) → exec (.regRead tile src reg) s = .next u) ∧
    (Fits (.regWrite tile src reg v) → exec (.regWrite tile src reg v) s = .next u)) ∧
  -- SP_REPLY, REG_REPLY reach their requester and leave the network
  (∀ tile dst p (s u : State), Fits (.spReply tile dst) → s.take (WPkt.isReply tile dst true) = some (p, u) → exec (.spReply tile dst) s = .next u) ∧
  (∀ tile dst p (s u : State), Fits (.regReply tile dst) → s.take (WPkt.isReply tile dst false) = some (p, u) → exec (.regReply tile dst) s = .next u) ∧
  -- SHORT_MSG: the next of the 64 entries of the mailbox ring, or a drop where the agent has no bank; without payload it is no packet of its type and is discarded
  (∀ tile seq words b (s u : State), Fits (.shortMsg tile seq words) → words ≠ [] → s.request (uidRc (tile / 64)) tile = (u, true) → u.tilePowered tile = true →
    (u.tile tile).map.agentBank = some b →
    exec (.shortMsg tile seq words) s = .next (u.setTile tile { mailWords (u.tile tile).map b
        ((if (u.tile tile).map.dual b then 4096 else 8192) - 128 + 2 * (u.tile tile).mbox)
        (bytesWords (fitBytes 64 (leBytes 4 (fld words.length 5 17 + fld seq 7 10) ++ words.flatMap (leBytes 4)))) (u.tile tile) with
      mbox := ((u.tile tile).mbox + 1) % 64 })) ∧
  (∀ tile seq words (s u : State), Fits (.shortMsg tile seq words) → words ≠ [] → s.request (uidRc (tile / 64)) tile = (u, true) → (u.tile tile).map.agentBank = none →
    exec (.shortMsg tile seq words) s = .next (u.onHub (tile / 64) (fun h => { h with drop := h.drop + 1 }))) ∧
  (∀ tile seq (s : State), Fits (.shortMsg tile seq []) → exec (.shortMsg tile seq []) s = .next (s.onHub (tile / 64) (fun h => { h with drop := h.drop + 1 })))

/-! Chapter 13: leases. -/

/-- LEASE_GRANT, LEASE_RENEW, LEASE_RELEASE, LEASE_RECLAIM and LEASE_EXPIRED complete (R334 to R336, R338). -/
def Obligations.LeaseCommandsComplete : Prop :=
  -- LEASE_GRANT: the grantor takes the lease where it can, and answers; a lease at its EXPIRY lapses first; a context that is not open is refused with STATUS 3
  (∀ l (s : State), Fits (.leaseGrant l false) → s.leaseAllowed l = true → (∀ x, s.leaseOf l = some x → s.now < x.expiry) →
    exec (.leaseGrant l false) s = .next ((s.leaseTake l).1.answerLease l (s.leaseTake l).2)) ∧
  (∀ l x (s u : State), Fits (.leaseGrant l false) → s.leaseAllowed l = true → s.leaseOf l = some x → x.expiry ≤ s.now →
    (s.leaseEnds x).report ⟨fcLeaseExpired, x.holder, s.now, 0, 0, x.ctx, []⟩ = u →
    exec (.leaseGrant l false) s = .next ((u.leaseTake l).1.answerLease l (u.leaseTake l).2)) ∧
  (∀ l (s : State), Fits (.leaseGrant l false) → s.leaseAllowed l = false → exec (.leaseGrant l false) s = .next (s.answerLease l 3)) ∧
  (∀ l p (s u : State), Fits (.leaseGrant l true) → s.take (WPkt.answers l) = some (p, u) → exec (.leaseGrant l true) s = .next u) ∧
  -- LEASE_RENEW: its holder, before EXPIRY, moves it on, by at most 65,536 beats from now; otherwise STATUS 3
  (∀ l x (s : State), Fits (.leaseRenew l false) → s.leaseOf l = some x → x.holder = l.holder → s.now < x.expiry →
    exec (.leaseRenew l false) s = .next ((s.onLeases (leaseHome l) (fun t => t.map (fun y =>
      if y.same l then { y with expiry := min l.expiry ((s.clk.beat + 65536) * 4096) } else y))).answerLease l 0)) ∧
  (∀ l (s : State), Fits (.leaseRenew l false) → (∀ x, s.leaseOf l = some x → x.holder ≠ l.holder ∨ x.expiry ≤ s.now) →
    exec (.leaseRenew l false) s = .next (s.answerLease l 3)) ∧
  -- LEASE_RELEASE: the holder's lease is gone from the table; no other is touched
  (∀ l (s : State), Fits (.leaseRelease l) → exec (.leaseRelease l) s = .next (s.leaseDrop l)) ∧
  -- LEASE_RECLAIM: the message to the holder and the partner, and what the end of the lease brings
  (∀ l x (s : State), Fits (.leaseReclaim l) → s.leaseOf l = some x →
    exec (.leaseReclaim l) s = .next (((s.send (uidRc (s.grantorOf (leaseHome l))) x.holder (.reclaim x)).send (uidRc (s.grantorOf (leaseHome l)))
      (uidRc (partner (s.grantorOf (leaseHome l)))) (.reclaim x)).leaseEnds x)) ∧
  -- LEASE_EXPIRED: at EXPIRY, not before
  (∀ l x (s : State), Fits (.leaseExpired l) → s.leaseOf l = some x → x.expiry ≤ s.now →
    exec (.leaseExpired l) s = .next ((s.leaseEnds x).report ⟨fcLeaseExpired, x.holder, s.now, 0, 0, x.ctx, []⟩)) ∧
  (∀ l x (s : State), Fits (.leaseExpired l) → s.leaseOf l = some x → s.now < x.expiry → exec (.leaseExpired l) s = .next s)


/-! Chapters 8 and 10: stack controllers, reduction, Ripener. -/

/-- REGULATOR_GRANT, STREAM_FORECAST, EDGE_PORT_SLOT, STREAM_DEADLINE and STACK_PATROL complete (R200, R203, R213 to R218, R221). -/
def Obligations.RimCommandsComplete : Prop :=
  -- REGULATOR_GRANT: one granule to the stream that is next, where no page waits for its zero-fill or the share of class 4 is not due
  (∀ sc k n (s : State), Fits (.regulatorGrant sc) → (s.sc sc).serving = true → s.throttled sc = false → s.grantee sc true = some (k, n) →
    (s.ztPage sc = none ∨ s.lowDue sc (k.headD 3) = false) → exec (.regulatorGrant sc) s = .next (s.serve sc n true)) ∧
  -- with no stream to serve, or that share due, one granule of a page waiting for its zero-fill is filled
  (∀ sc p (s : State), Fits (.regulatorGrant sc) → (s.sc sc).serving = true → s.throttled sc = false → s.ztPage sc = some p →
    (s.grantee sc true).all (fun k => s.lowDue sc (k.1.headD 3)) = true → exec (.regulatorGrant sc) s = .next (s.fillLow sc p)) ∧
  -- a stack at its thermal limit serves only a stream that needs no stack time
  (∀ sc k n (s : State), Fits (.regulatorGrant sc) → (s.sc sc).serving = true → s.throttled sc = true → s.grantee sc false = some (k, n) →
    exec (.regulatorGrant sc) s = .next (s.serve sc n false)) ∧
  (∀ sc (s : State), Fits (.regulatorGrant sc) → (s.sc sc).serving = true → s.throttled sc = true → s.grantee sc false = none →
    exec (.regulatorGrant sc) s = .next s) ∧
  -- STREAM_FORECAST: granules reserved; a stream that cannot get what it needs holds a user partition's beat
  (∀ sc ctx (s : State), Fits (.streamForecast sc ctx) → ((s.at 0x700).forecast sc ctx).2.2 = false →
    exec (.streamForecast sc ctx) s = .next ((s.at 0x700).onSc sc (fun c => { c with reserved := ((s.at 0x700).forecast sc ctx).2.1 }))) ∧
  (∀ sc ctx (s : State), Fits (.streamForecast sc ctx) → ((s.at 0x700).forecast sc ctx).2.2 = true → isUser ctx = true →
    exec (.streamForecast sc ctx) s = .next ((((s.at 0x700).onSc sc (fun c => { c with reserved := ((s.at 0x700).forecast sc ctx).2.1 })).onSc sc
      (fun c => { c with holdReq := c.holdReq + 1 })).askHold ctx (uidSc sc) .forecast)) ∧
  -- EDGE_PORT_SLOT inwards: the lowest port of a read stream's group takes its next flit and every port of the group presents it
  (∀ sc port cyc n x d ds (s : State), Fits (.edgePortSlot sc port cyc false) → (s.sc sc).serving = true → (s.at cyc).slotClaim sc port cyc false = some (n, x) →
    (portsOf (sdPorts x.desc)).head? = some port → x.done < sdTotal x.desc → x.buf = d :: ds →
    exec (.edgePortSlot sc port cyc false) s = .next { (s.at cyc).onSlot sc n (fun y => { y with
        buf := ds, done := y.done + 1, st := if x.done + 1 = sdTotal x.desc then .done else y.st
        doneAt := if x.done + 1 = sdTotal x.desc then s.clk.beat else y.doneAt }) with
      fly := s.fly ++ (portsOf (sdPorts x.desc)).map (fun q =>
        ⟨(edgeTile (12 * sc + q)).1, (edgeTile (12 * sc + q)).2, s.clk.beat, cyc, { w0 := d % 2 ^ 256, w1 := d / 2 ^ 256, ptag := x.ctx, v := true }⟩) }) ∧
  -- with the buffer empty: STREAM_UNDERRUN, and the stream is aborted
  (∀ sc port cyc n x (s : State), Fits (.edgePortSlot sc port cyc false) → (s.sc sc).serving = true → (s.at cyc).slotClaim sc port cyc false = some (n, x) →
    (portsOf (sdPorts x.desc)).head? = some port → x.done < sdTotal x.desc → x.buf = [] →
    exec (.edgePortSlot sc port cyc false) s =
      .next (((s.at cyc).onSlot sc n (Slot.abort 7)).edgeFault fcStreamUnderrun sc (12 * sc + port) x.ctx (64 * sc + n) cyc)) ∧
  -- outwards: the flit goes into the write stream's buffer; one that nothing claims raises EDGE_UNCLAIMED, one that cannot be read MESH_UNCORRECTABLE
  (∀ sc port cyc n x f (s : State), Fits (.edgePortSlot sc port cyc true) → (s.sc sc).serving = true →
    (s.at cyc).portsBefore sc port cyc = [] →
    s.fly.find? (fun f => f.port = 5 && f.dst = 12 * sc + port && f.beat = s.clk.beat && f.cyc = cyc) = some f → f.flit.unreadable = false →
    ({ s.at cyc with fly := s.fly.erase f } : State).slotClaim sc port cyc true = some (n, x) → x.buf.length < sdRoom x.desc →
    x.pos + x.buf.length < sdTotal x.desc →
    exec (.edgePortSlot sc port cyc true) s =
      .next (({ s.at cyc with fly := s.fly.erase f } : State).onSlot sc n (fun x => { x with buf := x.buf ++ [f.flit.w0 + 2 ^ 256 * f.flit.w1] }))) ∧
  (∀ sc port cyc f (s : State), Fits (.edgePortSlot sc port cyc true) → (s.sc sc).serving = true →
    (s.at cyc).portsBefore sc port cyc = [] →
    s.fly.find? (fun f => f.port = 5 && f.dst = 12 * sc + port && f.beat = s.clk.beat && f.cyc = cyc) = some f → f.flit.unreadable = false →
    ({ s.at cyc with fly := s.fly.erase f } : State).slotClaim sc port cyc true = none →
    ({ s.at cyc with fly := s.fly.erase f } : State).redClaim sc port cyc = none →
    exec (.edgePortSlot sc port cyc true) s =
      .next (({ s.at cyc with fly := s.fly.erase f } : State).edgeFault fcEdgeUnclaimed sc (12 * sc + port) f.flit.ptag 0xFFFFFFFF cyc)) ∧
  (∀ sc port cyc f (s : State), Fits (.edgePortSlot sc port cyc true) → (s.sc sc).serving = true → (s.at cyc).portsBefore sc port cyc = [] →
    s.fly.find? (fun f => f.port = 5 && f.dst = 12 * sc + port && f.beat = s.clk.beat && f.cyc = cyc) = some f → f.flit.unreadable = true →
    exec (.edgePortSlot sc port cyc true) s = .next (({ s.at cyc with fly := s.fly.erase f } : State).report
      ⟨fcMeshUncorrectable, uidSc sc, s.stamp cyc, 0, 0, f.flit.ptag, [12 * sc + port, f.flit.ptag]⟩)) ∧
  -- STREAM_DEADLINE: a stream with flits left at its deadline is aborted with its fault; before it nothing happens
  (∀ sc slot x (s : State), Fits (.streamDeadline sc slot) → (s.sc sc).slots.get {} slot = x → x.live = true → (s.ctx x.ctx).part.begun = true →
    sdDeadline x.desc ≤ (s.ctx x.ctx).part.planBeat → x.done < sdTotal x.desc →
    exec (.streamDeadline sc slot) s = .next ((s.onSlot sc slot (Slot.abort 4)).report
      ⟨fcStreamDeadline, uidSc sc, s.now, 0, 0, x.ctx, [64 * sc + slot, sdTotal x.desc - x.done]⟩)) ∧
  (∀ sc slot (s : State), Fits (.streamDeadline sc slot) →
    (s.ctx ((s.sc sc).slots.get {} slot).ctx).part.planBeat < sdDeadline ((s.sc sc).slots.get {} slot).desc →
    exec (.streamDeadline sc slot) s = .next s) ∧
  -- STACK_PATROL: the next page; correctable words are corrected; an uncorrectable one is recorded with all ones for the stream
  (∀ sc (s : State), Fits (.stackPatrol sc) → (s.sc sc).serving = true → s.throttled sc = false → (s.sc sc).pageUsed (s.sc sc).patrol = false →
    exec (.stackPatrol sc) s = .next (s.onSc sc Sc.patrolled)) ∧
  (∀ sc (s : State), Fits (.stackPatrol sc) → (s.sc sc).serving = true → s.throttled sc = false → (s.sc sc).pageUsed (s.sc sc).patrol = true →
    (s.sc sc).pageErrs (s.sc sc).patrol false = [] →
    exec (.stackPatrol sc) s = .next ((s.onSc sc Sc.patrolled).onSc sc (Sc.spendLow 0 1024))) ∧
  (∀ sc p w (s : State), Fits (.stackPatrol sc) → (s.sc sc).serving = true → s.throttled sc = false → (s.sc sc).pageUsed (s.sc sc).patrol = true →
    (s.sc sc).pageErrs (s.sc sc).patrol false = [p] →
    ((s.onSc sc Sc.patrolled).onSc sc (Sc.spendLow 0 1024)).pageUser sc (s.sc sc).patrol = some w →
    exec (.stackPatrol sc) s = .next (((s.onSc sc Sc.patrolled).onSc sc (Sc.spendLow 0 1024)).report ⟨fcStoreUncorrectable, uidSc sc, s.now, 0, 0, w.2.1.ctx,
      [0xFFFFFFFF, w.1, (w.2.2 * pageBytes + p.1 % 65536 * 32) % 2 ^ 32, (w.2.2 * pageBytes + p.1 % 65536 * 32) / 2 ^ 32]⟩))

/-- REDUCE_DEADLINE, REDUCTION_FORECAST, GRAD_EGRESS_SEND, OWNER_BUFFER_OPEN, GRAD_BLOCK, GRAD_CLOSE and PARCEL_CREDIT complete
(R242, R244, R245, R247 to R252). -/
def Obligations.ReductionCommandsComplete : Prop :=
  -- REDUCE_DEADLINE: a descriptor with flits to come stops, with its fault
  (∀ sc n r (s : State), Fits (.reduceDeadline sc n) → (s.sc sc).reds[n]? = some r → (s.ctx r.ctx).part.begun = true →
    r.claim.deadline ≤ (s.ctx r.ctx).part.planBeat → r.isDone = false → r.stopped = false →
    exec (.reduceDeadline sc n) s = .next ((s.onSc sc (fun k => { k with reds := k.reds.set n { r with stopped := true } })).report
      ⟨fcReduceDeadline, uidSc sc, s.now, 0, 0, r.ctx, [r.parcel]⟩)) ∧
  -- REDUCTION_FORECAST: too few egress buffers hold a user partition's beat
  (∀ sc ctx (s : State), Fits (.reductionForecast sc ctx) → (s.sc sc).egFree < (s.at 0x700).egressNeed sc ctx → isUser ctx = true →
    exec (.reductionForecast sc ctx) s =
      .next (((s.at 0x700).onSc sc (fun k => { k with holdReq := k.holdReq + 1 })).askHold ctx (uidSc sc) .forecast)) ∧
  (∀ sc ctx (s : State), Fits (.reductionForecast sc ctx) → (s.at 0x700).egressNeed sc ctx ≤ (s.sc sc).egFree →
    exec (.reductionForecast sc ctx) s = .next (s.at 0x700)) ∧
  -- GRAD_EGRESS_SEND: a complete contribution with credit is quantised and sent, its buffer freed; a parcel without SP is closed at once
  (∀ sc ctx parcel e b step attempt (s : State), Fits (.gradEgressSend sc ctx parcel) → (s.ctx ctx).pent parcel = some e →
    (s.sc sc).egress.find? (fun b => b.ctx = ctx && b.parcel = parcel) = some b → (s.ctx ctx).stepOn = some (step, attempt) → b.complete = true →
    (s.ctx ctx).admitted e parcel = true → (s.sc sc).underTest = false → (s.ctx ctx).st ≠ .fenced → b.errs.any (fun e => decide (2 ≤ e.2)) = false → e.sp = false →
    exec (.gradEgressSend sc ctx parcel) s = .next (State.sendClose
      ((s.sendDense sc ctx parcel e.owner step attempt b).onSc sc (fun k => { k with egress := k.egress.filter (fun b => ¬(b.ctx = ctx ∧ b.parcel = parcel)) }))
      ctx e.owner parcel step attempt true
      ((((s.sendDense sc ctx parcel e.owner step attempt b).onSc sc (fun k => { k with
        egress := k.egress.filter (fun b => ¬(b.ctx = ctx ∧ b.parcel = parcel)) })).ctx ctx).withheld.contains parcel) 0)) ∧
  (∀ sc ctx parcel e b step attempt (s : State), Fits (.gradEgressSend sc ctx parcel) → (s.ctx ctx).pent parcel = some e →
    (s.sc sc).egress.find? (fun b => b.ctx = ctx && b.parcel = parcel) = some b → (s.ctx ctx).stepOn = some (step, attempt) → b.complete = true →
    (s.ctx ctx).admitted e parcel = true → (s.sc sc).underTest = false → (s.ctx ctx).st ≠ .fenced → b.errs.any (fun e => decide (2 ≤ e.2)) = false → e.sp = true →
    exec (.gradEgressSend sc ctx parcel) s = .next (State.flushCloses
      ((s.sendDense sc ctx parcel e.owner step attempt b).onSc sc (fun k => { k with egress := k.egress.filter (fun b => ¬(b.ctx = ctx ∧ b.parcel = parcel)) })) ctx)) ∧
  -- a word of the buffer that cannot be corrected ends the attempt
  (∀ sc ctx parcel e b step attempt (s : State), Fits (.gradEgressSend sc ctx parcel) → (s.ctx ctx).pent parcel = some e →
    (s.sc sc).egress.find? (fun b => b.ctx = ctx && b.parcel = parcel) = some b → (s.ctx ctx).stepOn = some (step, attempt) → b.complete = true →
    (s.ctx ctx).admitted e parcel = true → (s.sc sc).underTest = false → (s.ctx ctx).st ≠ .fenced → b.errs.any (fun e => decide (2 ≤ e.2)) = true →
    exec (.gradEgressSend sc ctx parcel) s = .next (s.rsramFault sc ctx parcel)) ∧
  -- OWNER_BUFFER_OPEN: the next parcel in reduction order has its buffer while more than LOWMARK remain free
  (∀ sc ctx step attempt p (s : State), Fits (.ownerBufferOpen sc ctx) → (s.ctx ctx).stepOn = some (step, attempt) →
    (s.ownOrder sc ctx)[(s.ctx ctx).opened.get 0 sc]? = some p → (s.sc sc).lowmark < (s.sc sc).ownerFree →
    exec (.ownerBufferOpen sc ctx) s = .next (openOwner sc ctx p ((s.ctx ctx).opened.get 0 sc) step attempt s)) ∧
  (∀ sc ctx (s : State), Fits (.ownerBufferOpen sc ctx) → (s.sc sc).ownerFree ≤ (s.sc sc).lowmark → exec (.ownerBufferOpen sc ctx) s = .next s) ∧
  -- GRAD_BLOCK of the step and attempt that run, its buffer open: added and counted; a stale one is counted as stale
  (∀ f step attempt row b e (s : State), Fits (.gradBlock f step attempt row b) → fabricOk f 1 [272] s = true →
    (s.ctx f.ctx).pent b.parcel = some e → e.owner = s.myPos → (s.ctx f.ctx).stepOn = some (step, attempt) →
    ((s.sc (extSc e.wext)).owner? f.ctx b.parcel).isSome = true →
    exec (.gradBlock f step attempt row b) s = .next (acceptBlock (extSc e.wext) f.ctx f.spos step row b (s.rxCount f))) ∧
  (∀ f step attempt row b e (s : State), Fits (.gradBlock f step attempt row b) → fabricOk f 1 [272] s = true →
    (s.ctx f.ctx).pent b.parcel = some e → e.owner = s.myPos → (s.ctx f.ctx).stepOn ≠ some (step, attempt) →
    exec (.gradBlock f step attempt row b) s = .next ((s.rxCount f).onSc (extSc e.wext) (fun k => { k with stale := k.stale + 1 }))) ∧
  (∀ f step attempt row b e (s : State), Fits (.gradBlock f step attempt row b) → fabricOk f 1 [272] s = true →
    (s.ctx f.ctx).pent b.parcel = some e → e.owner = s.myPos → (s.ctx f.ctx).stepOn = some (step, attempt) →
    ((s.sc (extSc e.wext)).owner? f.ctx b.parcel).isNone = true →
    exec (.gradBlock f step attempt row b) s = .next ((s.rxCount f).onSc (extSc e.wext)
      (fun k => k.discarded (decide (((s.ctx f.ctx).commits.get {} b.parcel).step.toNat = step))))) ∧
  -- GRAD_CLOSE: what the member states is noted, and the parcel seen to be complete or not
  (∀ f parcel step attempt dense nf rows e (s : State), Fits (.gradClose f parcel step attempt dense nf rows) → fabricOk f 1 [16] s = true →
    (s.ctx f.ctx).pent parcel = some e → e.owner = s.myPos → (s.ctx f.ctx).stepOn = some (step, attempt) →
    ((s.sc (extSc e.wext)).owner? f.ctx parcel).isSome = true → ((s.ctx f.ctx).commits.get {} parcel).step.toNat ≠ step →
    exec (.gradClose f parcel step attempt dense nf rows) s =
      .next (((s.rxCount f).onOwner (extSc e.wext) f.ctx parcel (fun o => o.onMember f.spos (fun m =>
        { m with closed := true, cDense := dense, cRows := rows, nf := nf, stamp := s.now }))).checkComplete (extSc e.wext) f.ctx parcel)) ∧
  (∀ f parcel step attempt dense nf rows e (s : State), Fits (.gradClose f parcel step attempt dense nf rows) → fabricOk f 1 [16] s = true →
    (s.ctx f.ctx).pent parcel = some e → e.owner = s.myPos → (s.ctx f.ctx).stepOn = some (step, attempt) →
    ((s.sc (extSc e.wext)).owner? f.ctx parcel).isNone = true →
    exec (.gradClose f parcel step attempt dense nf rows) s = .next ((s.rxCount f).onSc (extSc e.wext)
      (fun k => k.discarded (decide (((s.ctx f.ctx).commits.get {} parcel).step.toNat = step))))) ∧
  (∀ f parcel step attempt dense nf rows e (s : State), Fits (.gradClose f parcel step attempt dense nf rows) → fabricOk f 1 [16] s = true →
    (s.ctx f.ctx).pent parcel = some e → e.owner = s.myPos → (s.ctx f.ctx).stepOn ≠ some (step, attempt) →
    exec (.gradClose f parcel step attempt dense nf rows) s = .next ((s.rxCount f).onSc (extSc e.wext) (fun k => { k with stale := k.stale + 1 }))) ∧
  -- PARCEL_CREDIT of the step and attempt that run: kept, and what waited for it goes; another is ignored
  (∀ f step attempt sc ordinal (s : State), Fits (.parcelCredit f step attempt sc ordinal) → fabricOk f 0 [16] s = true →
    (s.ctx f.ctx).stepOn = some (step, attempt) →
    exec (.parcelCredit f step attempt sc ordinal) s = .next ((((s.rxCount f).onCtx f.ctx (fun x =>
      { x with credits := x.credits.upd 0 (64 * f.spos + sc) (max (ordinal + 1)) })).flushRows f.ctx).flushCloses f.ctx)) ∧
  (∀ f step attempt sc ordinal (s : State), Fits (.parcelCredit f step attempt sc ordinal) → fabricOk f 0 [16] s = true →
    (s.ctx f.ctx).stepOn ≠ some (step, attempt) → exec (.parcelCredit f step attempt sc ordinal) s = .next (s.rxCount f))

/-- RIPENER_UPDATE, MIRROR, MIRROR_ACK, MIRROR_TIMEOUT, ALLGATHER and HOST_UPDATE_TIMEOUT complete (R252, R258, R260, R263, R264, R267 to R269). -/
def Obligations.RipenerCommandsComplete : Prop :=
  -- RIPENER_UPDATE of a parcel frozen since the last step: committed as unchanged
  (∀ sc ctx parcel e step attempt (s : State), Fits (.ripenerUpdate sc ctx parcel) → (s.ctx ctx).pent parcel = some e →
    (s.ctx ctx).stepOn = some (step, attempt) → ripeFor sc ctx parcel e s = true → (s.ctx ctx).newFz.contains parcel = true →
    ((s.ctx ctx).commits.get {} parcel).step.toNat ≠ step →
    exec (.ripenerUpdate sc ctx parcel) s = .next (s.commitUnchanged ctx parcel e step attempt ⟨parcel, 0, 0, false, 0, 0⟩)) ∧
  -- of a complete parcel that is skipped, or of a sparse group nothing reached: committed as unchanged with its statistics
  (∀ sc ctx parcel e step attempt o (s : State), Fits (.ripenerUpdate sc ctx parcel) → (s.ctx ctx).pent parcel = some e →
    (s.ctx ctx).stepOn = some (step, attempt) → ripeFor sc ctx parcel e s = true → (s.ctx ctx).newFz.contains parcel = false →
    (s.sc sc).owner? ctx parcel = some o → o.complete = true → s.ripeNow sc o = true → o.unreadable = false →
    ((s.ctx ctx).commits.get {} parcel).step.toNat ≠ step →
    (o.skipped = true ∨ (grSparse ((s.ctx ctx).groupOf e) = true ∧ o.touched = [])) →
    exec (.ripenerUpdate sc ctx parcel) s = .next (s.commitUnchanged ctx parcel e step attempt (o.stat 0))) ∧
  -- of a complete parcel whose slot reads and whose new elements are all finite: the new slot, the working copy, the mirror, the buffer free
  (∀ sc ctx parcel e step attempt o s1 bs s2 n (s : State), Fits (.ripenerUpdate sc ctx parcel) → (s.ctx ctx).pent parcel = some e →
    (s.ctx ctx).stepOn = some (step, attempt) → ripeFor sc ctx parcel e s = true → (s.ctx ctx).newFz.contains parcel = false →
    (s.sc sc).owner? ctx parcel = some o → o.complete = true → s.ripeNow sc o = true → o.unreadable = false →
    ((s.ctx ctx).commits.get {} parcel).step.toNat ≠ step → o.skipped = false →
    ¬(grSparse ((s.ctx ctx).groupOf e) = true ∧ o.touched = []) → grRule ((s.ctx ctx).groupOf e) ≠ 15 →
    s.updateStops ctx e step ((s.ctx ctx).commits.get {} parcel).slot = none →
    s.readParts ctx (wantParts e (grBf ((s.ctx ctx).groupOf e)) ((s.ctx ctx).hyper e step).rule ((s.ctx ctx).commits.get {} parcel).slot) = (s1, .ok bs) →
    s1.takeSlot ctx parcel e = some (s2, n) → (newElems (s.ctx ctx) e step o bs).2 = none →
    exec (.ripenerUpdate sc ctx parcel) s =
      .next (storeUpdate ctx parcel step attempt e o n (newElems (s.ctx ctx) e step o bs).1 (s.ctx ctx)
        (s2.onSc sc (fun k => { k with rpFl := k.rpFl.or (ripenFlags (s.ctx ctx) e step o bs) })))) ∧
  -- a word of the owner buffer that cannot be corrected ends the attempt
  (∀ sc ctx parcel e step attempt o (s : State), Fits (.ripenerUpdate sc ctx parcel) → (s.ctx ctx).pent parcel = some e →
    (s.ctx ctx).stepOn = some (step, attempt) → ripeFor sc ctx parcel e s = true → (s.ctx ctx).newFz.contains parcel = false →
    (s.sc sc).owner? ctx parcel = some o → o.complete = true → s.ripeNow sc o = true → o.unreadable = true →
    exec (.ripenerUpdate sc ctx parcel) s = .next (s.rsramFault sc ctx parcel)) ∧
  -- of a host-assisted parcel, and of one committed before in the step
  (∀ sc ctx parcel e step attempt o (s : State), Fits (.ripenerUpdate sc ctx parcel) → (s.ctx ctx).pent parcel = some e →
    (s.ctx ctx).stepOn = some (step, attempt) → ripeFor sc ctx parcel e s = true → (s.ctx ctx).newFz.contains parcel = false →
    (s.sc sc).owner? ctx parcel = some o → o.complete = true → s.ripeNow sc o = true → o.unreadable = false →
    ((s.ctx ctx).commits.get {} parcel).step.toNat ≠ step → o.skipped = false →
    ¬(grSparse ((s.ctx ctx).groupOf e) = true ∧ o.touched = []) → grRule ((s.ctx ctx).groupOf e) = 15 →
    exec (.ripenerUpdate sc ctx parcel) s = .next (ripenHost sc ctx parcel step attempt e o s)) ∧
  (∀ sc ctx parcel e step attempt o (s : State), Fits (.ripenerUpdate sc ctx parcel) → (s.ctx ctx).pent parcel = some e →
    (s.ctx ctx).stepOn = some (step, attempt) → ripeFor sc ctx parcel e s = true → (s.ctx ctx).newFz.contains parcel = false →
    (s.sc sc).owner? ctx parcel = some o → o.complete = true → s.ripeNow sc o = true → o.unreadable = false →
    ((s.ctx ctx).commits.get {} parcel).step.toNat = step →
    exec (.ripenerUpdate sc ctx parcel) s = .next (ripenAgain sc ctx parcel step attempt e o s)) ∧
  -- MIRROR at the buddy: into the lowest spare slot, the entry flipped, acknowledged with STATUS 0; with no spare slot STATUS 1
  (∀ f p data e n ext off (s : State), Fits (.mirror f p data) → fabricOk f 3 [2064, 16] s = true → p.scales = false → data.length = 2048 * p.frags →
    (s.ctx f.ctx).pent p.parcel = some e → e.owner ≠ s.myPos → p.unch = false → (s.rxCount f).spareMirror f.ctx = some (n, ext, off) →
    (s.rxCount f).rangeHere ext ((s.rxCount f).extD ext) off data.length = true →
    exec (.mirror f p data) s = .next (((((s.rxCount f).writeExt ext ((s.rxCount f).extD ext) off data).onCtx f.ctx (fun x => { x with
      mirrors := x.mirrors.set {} p.parcel ⟨BitVec.ofNat 32 p.step, true, false, n, 0⟩ })).ackMirror f.link f.ctx f.spos p 0).tookUnits f p.frags)) ∧
  (∀ f p data e (s : State), Fits (.mirror f p data) → fabricOk f 3 [2064, 16] s = true → p.scales = false → data.length = 2048 * p.frags →
    (s.ctx f.ctx).pent p.parcel = some e → e.owner ≠ s.myPos → p.unch = false → (s.rxCount f).spareMirror f.ctx = none →
    exec (.mirror f p data) s = .next ((s.rxCount f).ackMirror f.link f.ctx f.spos p 1)) ∧
  -- MIRROR_ACK of the update in flight: the parcel is committed as one write and its all-gather goes
  (∀ f parcel step attempt fl e (s : State), Fits (.mirrorAck f parcel step attempt 0) → fabricOk f 0 [16] s = true →
    (s.ctx f.ctx).flight.find? (fun q => decide (q.parcel = parcel ∧ q.step = step ∧ q.attempt = attempt)) = some fl →
    (s.ctx f.ctx).pent parcel = some e → fl.initial = false → fl.unch = false → ((s.ctx f.ctx).statOf fl.step fl.parcel).any PStat.skipped = false →
    exec (.mirrorAck f parcel step attempt 0) s = .next ((((((s.rxCount f).mirrored (extSc e.wext) f.ctx fl.parcel).dropSlotLease f.ctx (extSc e.wext)
      ((s.ctx f.ctx).commits.get {} fl.parcel).newslot).onCtx f.ctx (fun x => x.commitFlight fl e false)).onSc (extSc e.wext)
      (fun k => { k with parcels := k.parcels + 1 })).allGather f.ctx fl.parcel e fl.step fl.attempt fl.wnext)) ∧
  (∀ f parcel step attempt status (s : State), Fits (.mirrorAck f parcel step attempt status) → fabricOk f 0 [16] s = true →
    (s.ctx f.ctx).flight.find? (fun q => decide (q.parcel = parcel ∧ q.step = step ∧ q.attempt = attempt)) = none →
    exec (.mirrorAck f parcel step attempt status) s = .next (s.rxCount f)) ∧
  -- MIRROR_TIMEOUT: 65,536 beats after the transfer the commit is abandoned with its fault; not before
  (∀ ctx parcel fl e (s : State), Fits (.mirrorTimeout ctx parcel) → (s.ctx ctx).flight.find? (fun q => q.parcel = parcel) = some fl →
    (s.ctx ctx).pent parcel = some e → fl.beat + 65536 ≤ s.clk.beat → fl.initial = false → fl.unch = true →
    exec (.mirrorTimeout ctx parcel) s = .next ((s.report ⟨fcMirrorTimeout, uidRip (extSc e.wext), s.now, 0, 0, ctx,
      [(s.pod.cfg.map PodCfg.buddy).getD 0, parcel, fl.step, fl.attempt]⟩).abandonCommit ctx parcel)) ∧
  (∀ ctx parcel fl (s : State), Fits (.mirrorTimeout ctx parcel) → (s.ctx ctx).flight.find? (fun q => q.parcel = parcel) = some fl →
    s.clk.beat < fl.beat + 65536 → exec (.mirrorTimeout ctx parcel) s = .next s) ∧
  -- ALLGATHER of the step under way at a member: the slot into its bank, w_next into the next table
  (∀ f p data e (s : State), Fits (.allgather f p data) → fabricOk f 2 [2064] s = true → (s.ctx f.ctx).pent p.parcel = some e →
    ((s.ctx f.ctx).members e).contains s.myPos = true → e.owner ≠ s.myPos → p.step ≠ 0xFFFFFFFF → (s.ctx f.ctx).takeover = none →
    (s.ctx f.ctx).now.any (fun n => decide (n.step = p.step)) = true → data.length = workBytes (grWfmt ((s.ctx f.ctx).groupOf e)) →
    (s.rxCount f).workFits f.ctx e ((p.step + 1) % 2) = true →
    exec (.allgather f p data) s = .next ((((s.rxCount f).writeWork f.ctx e ((p.step + 1) % 2) data).onCtx f.ctx (fun y => { y with
      scaleNext := y.scaleNext.set 0x7F p.parcel p.wnext
      gathered := if y.gathered.contains p.parcel then y.gathered else y.gathered ++ [p.parcel] })).tookUnits f p.frags)) ∧
  -- HOST_UPDATE_TIMEOUT: at the group's limit the commit is abandoned with its fault; with no limit never
  (∀ ctx parcel h e (s : State), Fits (.hostUpdateTimeout ctx parcel) → (s.ctx ctx).hostOut.find? (fun h => h.1 = parcel) = some h →
    (s.ctx ctx).pent parcel = some e → grHlimit ((s.ctx ctx).groupOf e) ≠ 0 → h.2.2 + grHlimit ((s.ctx ctx).groupOf e) ≤ s.clk.beat →
    exec (.hostUpdateTimeout ctx parcel) s = .next ((((s.onCtx ctx (fun x => { x with hostOut := x.hostOut.filter (fun h => h.1 ≠ parcel) })).dropSlotLease ctx
      (extSc e.wext) ((s.ctx ctx).commits.get {} parcel).newslot).abandonCommit ctx parcel).report
        ⟨fcHostUpdateTimeout, uidRip (extSc e.wext), s.now, 0, 0, ctx, [parcel, ((s.ctx ctx).now.map StepNow.step).getD 0, h.2.1]⟩)) ∧
  (∀ ctx parcel e (s : State), Fits (.hostUpdateTimeout ctx parcel) → (s.ctx ctx).pent parcel = some e → grHlimit ((s.ctx ctx).groupOf e) = 0 →
    exec (.hostUpdateTimeout ctx parcel) s = .next s)

/-! Chapter 11: the fabric. -/

/-- BEAT_EPOCH, CAPSULE, CAPSULE_ACK, LINK, LINK_RETRAIN_IN_SERVICE, LINK_RETRAIN_COMPLETE, LINK_NARROWING_COMPLETE, LINK_ACK_SEND, FABRIC_CREDIT_STALL,
HELLO, STEP_START_MESSAGE, STEP_SYNC_TIMEOUT and NORM complete
(R39, R257, R279, R283 to R286, R289, R290, R292). -/
def Obligations.FabricCommandsComplete : Prop :=
  -- BEAT_EPOCH: a module in its boot that follows a beat master adopts the number once; a module in service ignores and logs it
  (∀ f beat (s : State), Fits (.beatEpoch f beat) → fabricOk f 0 [f.len] s = true → s.clk.mode.cable = true → s.clk.mode.master = false →
    s.pod.cfg.all (fun p => decide (p.master = f.spos)) = true → s.clk.adopted = false → s.tr.boot ≠ .ready →
    exec (.beatEpoch f beat) s = .next (({ s.rxCount f with clk := { s.clk with beat := beat, adopted := true } } : State).beatEvent 2 s.clk.beat beat)) ∧
  (∀ f beat (s : State), Fits (.beatEpoch f beat) → fabricOk f 0 [f.len] s = true → s.tr.boot = .ready →
    exec (.beatEpoch f beat) s = .next ((s.rxCount f).beatEvent 3 s.clk.beat beat)) ∧
  -- CAPSULE: the unit takes its place in the transfer, and the units received are acknowledged
  (∀ f transfer off total data old new (s : State), Fits (.capsule f transfer off total data) → fabricOk f 3 [2064] s = true → off < total →
    (s.rxCount f).pod.capIn.get [] transfer = old →
    fitBytes (max old.length (2048 * (off + 1))) (fitBytes (2048 * off) old ++ fitBytes 2048 data ++ old.drop (2048 * (off + 1))) = new →
    exec (.capsule f transfer off total data) s = .next (({ s.rxCount f with pod := { (s.rxCount f).pod with
      capIn := (s.rxCount f).pod.capIn.set [] transfer new } } : State).lsend f.link
        ⟨0, 8, f.ctx, f.spos, leBytes 4 transfer ++ leBytes 4 (new.length / 2048) ++ leBytes 1 0 ++ leBytes 7 0⟩)) ∧
  -- CAPSULE_ACK: the most units acknowledged of a transfer
  (∀ f transfer units (s : State), Fits (.capsuleAck f transfer units 0) → fabricOk f 0 [16] s = true →
    exec (.capsuleAck f transfer units 0) s = .next { s.rxCount f with pod := { (s.rxCount f).pod with
      capOut := (s.rxCount f).pod.capOut.upd 0 transfer (max units) } }) ∧
  -- LINK: acknowledged packets leave the replay buffer, a NAK resends the rest, credits return, and what may go goes
  (∀ n ack nak credits (s : State), Fits (.link n ack nak credits false) → (s.link n).st = 3 → (s.link n).narrowing = none →
    exec (.link n ack nak credits false) s =
      .next (((s.onLink n (Link.linkIn ack nak credits s.clk.wall)).hearPeer (s.link n).ppod (s.link n).ppos).pumpLink n)) ∧
  (∀ n ack nak credits (s : State), Fits (.link n ack nak credits true) → exec (.link n ack nak credits true) s = .next s) ∧
  -- LINK_ACK_SEND: the NAK and the credits due have gone; those of VCs 1 to 3 wait for the end of a module warm reset
  (∀ n (s : State), Fits (.linkAckSend n) → (s.link n).st = 3 → (s.link n).narrowing = none → s.ha.warm = false →
    exec (.linkAckSend n) s = .next (s.onLink n (fun l => { l with
      rxCredit := [], rxNak := false, tx := l.tx + 40#48, beatBytes := l.beatBytes.upd 0 0 (· + 40) }))) ∧
  (∀ n (s : State), Fits (.linkAckSend n) → (s.link n).st = 3 → (s.link n).narrowing = none → s.ha.warm = true →
    exec (.linkAckSend n) s = .next (s.onLink n (fun l => { l with
      rxCredit := l.rxCredit.filter (fun c => decide (c.1 ≠ 0)), rxNak := false, tx := l.tx + 40#48, beatBytes := l.beatBytes.upd 0 0 (· + 40) }))) ∧
  -- LINK_RETRAIN_IN_SERVICE: eight resends of one packet, or more than 1,024 uncorrected words in the window, retrain the link
  (∀ n w (s : State), Fits (.linkRetrainInService n w) → (s.link n).st = 3 → (s.link n).narrowing = none →
    ((s.link n).replay.any (fun p => decide (8 ≤ p.resends)) = true ∨ 1024 < w) →
    exec (.linkRetrainInService n w) s = .next (((s.onLink n (fun l => { l with fecUnc := l.fecUnc + BitVec.ofNat 32 w })).onLink n (fun l =>
      { l with retrains := l.retrains + 1, replay := l.replay.map (fun p => { p with resends := 0 }) })).beginRetrain n)) ∧
  (∀ n w (s : State), Fits (.linkRetrainInService n w) → (s.link n).st = 3 → (s.link n).replay.any (fun p => decide (8 ≤ p.resends)) = false → w ≤ 1024 →
    exec (.linkRetrainInService n w) s = .next (s.onLink n (fun l => { l with fecUnc := l.fecUnc + BitVec.ofNat 32 w }))) ∧
  -- LINK_RETRAIN_COMPLETE: what the training found becomes the link's state
  (∀ n t (s : State), Fits (.linkRetrainComplete n t) → (s.link n).st = 4 → (s.link n).hello = none → s.tr.tests = [] → exec (.linkRetrainComplete n t) s = .next (s.endTraining n t)) ∧
  -- LINK_NARROWING_COMPLETE: the narrower mode is in force, the commands it answers are done, and sending goes on
  (∀ n ids (s : State), Fits (.linkNarrowingComplete n) → (s.link n).narrowing = some ids → (s.link n).widen = none →
    exec (.linkNarrowingComplete n) s = .next (((s.setLink n Link.narrow).finishAll ids stOk 0).pumpLink n)) ∧
  (∀ l : Link, l.mode.1 ≠ 0 → l.narrow = { l with width := l.mode.1, half := l.mode.2.1, lmask := l.mode.2.2, narrowing := none }) ∧
  -- FABRIC_CREDIT_STALL: 65,536 beats without credit with a packet waiting
  (∀ n vc (s : State), Fits (.fabricCreditStall n vc) → (s.link n).st = 3 → 65536 ≤ (s.link n).starve.get 0 vc →
    (s.link n).queue.any (fun p => p.vc = vc) = true →
    exec (.fabricCreditStall n vc) s =
      .next ((s.onLink n (fun l => { l with starve := l.starve.set 0 vc 0 })).keeperFault fcFabricCreditStall (uidLink n) 0 0 [vc])) ∧
  (∀ n vc (s : State), Fits (.fabricCreditStall n vc) → (s.link n).starve.get 0 vc < 65536 → exec (.fabricCreditStall n vc) s = .next s) ∧
  -- HELLO: the peer's entry in the topology record
  (∀ n pod pos plink pidh (s : State), Fits (.hello n pod pos plink pidh) → (s.link n).hello = none → ((s.link n).st = 3 ∨ (s.link n).st = 4) →
    exec (.hello n pod pos plink pidh) s = .next (s.setLink n (fun l => { l with ppod := pod, ppos := pos, plink := plink, pidh := pidh }))) ∧
  -- a link whose training waits for it comes into service with what it says; one that is late changes nothing
  (∀ n pod pos plink pidh q (s : State), Fits (.hello n pod pos plink pidh) → (s.link n).hello = some q → s.clk.wall ≤ q.2 →
    exec (.hello n pod pos plink pidh) s = .next (s.endTraining n { q.1 with hello := true, pod := pod, pos := pos, plink := plink, pidh := pidh })) ∧
  (∀ n pod pos plink pidh q (s : State), Fits (.hello n pod pos plink pidh) → (s.link n).hello = some q → q.2 < s.clk.wall →
    exec (.hello n pod pos plink pidh) s = .next s) ∧
  -- STEP_START_MESSAGE: kept as its position's message; with the step waiting, the digests are compared; one that is older is ignored
  (∀ f step attempt scale freeze (s : State), Fits (.stepStartMessage f step attempt scale freeze) → fabricOk f 0 [f.len] s = true →
    (s.ctx f.ctx).starts = [] → (s.ctx f.ctx).run = none → ((s.ctx f.ctx).last = 0xFFFFFFFF ∨ (s.ctx f.ctx).last < step) →
    exec (.stepStartMessage f step attempt scale freeze) s =
      .next ((s.rxCount f).onCtx f.ctx (fun x => { x with starts := x.starts.filter (fun m => m.pos ≠ f.spos) ++ [⟨f.spos, step, attempt, scale, freeze⟩] }))) ∧
  (∀ f step attempt scale freeze r (s : State), Fits (.stepStartMessage f step attempt scale freeze) → fabricOk f 0 [f.len] s = true →
    (s.ctx f.ctx).starts = [] → (s.ctx f.ctx).run = some r → r.kind = .step → r.step = step → r.attempt = attempt → r.started = false →
    (s.ctx f.ctx).last = 0xFFFFFFFF →
    exec (.stepStartMessage f step attempt scale freeze) s = .next (((s.rxCount f).onCtx f.ctx (fun x => { x with
      starts := x.starts.filter (fun m => m.pos ≠ f.spos) ++ [⟨f.spos, step, attempt, scale, freeze⟩] })).compareStarts f.ctx)) ∧
  (∀ f step attempt scale freeze (s : State), Fits (.stepStartMessage f step attempt scale freeze) → fabricOk f 0 [f.len] s = true →
    (s.ctx f.ctx).last ≠ 0xFFFFFFFF → step ≤ (s.ctx f.ctx).last →
    exec (.stepStartMessage f step attempt scale freeze) s = .next (s.rxCount f)) ∧
  -- STEP_SYNC_TIMEOUT: 65,536 beats after the module's own message with another's missing, the step does not start
  (∀ ctx r o (s : State), Fits (.stepSyncTimeout ctx) → (s.ctx ctx).waiting = some r → (s.ctx ctx).ownStart = some o → o.1 + 65536 ≤ s.clk.beat →
    (s.ctx ctx).missing s.myPos r ≠ [] →
    exec (.stepSyncTimeout ctx) s = .next (s.refuseStart ctx fcStepSyncTimeout ((s.ctx ctx).missing s.myPos r))) ∧
  (∀ ctx o (s : State), Fits (.stepSyncTimeout ctx) → (s.ctx ctx).ownStart = some o → s.clk.beat < o.1 + 65536 → exec (.stepSyncTimeout ctx) s = .next s) ∧
  -- NORM: the position's sum takes its place, and the global norm follows once every position's is there
  (∀ f step v (s : State), Fits (.norm f step v) → fabricOk f 0 [f.len] s = true →
    exec (.norm f step v) s = .next (((s.rxCount f).onCtx f.ctx (fun x => { x with
      norms := x.norms.filter (fun n => ¬(n.1 = f.spos ∧ n.2.1 = step)) ++ [(f.spos, step, v)] })).tryNorm f.ctx step))


/-! Chapters 16 and 11: the governor and the pod share. -/

/-- GOVERNOR_BEAT, INPUT_OVERPOWER, AGGREGATION_WINDOW_END, HEADROOM, HEADROOM_SEND, POD_ALLOWANCE_HOLD_END and HEADROOM_TIMEOUT complete
(R288, R291, R386, R388 to R392, R394, R400, R401). -/
def Obligations.GovernorCommandsComplete : Prop :=
  -- GOVERNOR_BEAT on an unpowered wafer: the readings alone
  (∀ ins cyc (s : State), Fits (.governorBeat ins cyc) → s.tr.wafer = false → exec (.governorBeat ins cyc) s = .next ((s.at cyc).inputsRead ins)) ∧
  -- within A: the beat is accounted, the links governed, PFU down
  (∀ ins cyc (u s : State), Fits (.governorBeat ins cyc) → (s.at cyc).inputsRead ins = u → s.tr.wafer = true → u.overA = false →
    exec (.governorBeat ins cyc) s = .next { u.beatGoverned.governLinks u.powerMw u.allowNow with
      gov := { (u.beatGoverned.governLinks u.powerMw u.allowNow).gov with unmet := false } }) ∧
  -- above A with room to lengthen: a stretch order for the beat after next
  (∀ ins cyc (u s : State), Fits (.governorBeat ins cyc) → (s.at cyc).inputsRead ins = u → s.tr.wafer = true → u.overA = true → s.clk.m < 192 →
    s.gov.noLengthen ≤ s.clk.beat →
    exec (.governorBeat ins cyc) s = .next { (u.lengthened u.beatGoverned).governLinks u.powerMw u.allowNow with
      gov := { ((u.lengthened u.beatGoverned).governLinks u.powerMw u.allowNow).gov with unmet := false } }) ∧
  -- above A at m = 192 with no link narrowed for it: PFU, and POWER_CAP_UNMET once in a window; a link narrowed instead leaves PFU down
  (∀ ins cyc (u s : State), Fits (.governorBeat ins cyc) → (s.at cyc).inputsRead ins = u → s.tr.wafer = true → u.overA = true → s.clk.m = 192 →
    u.beatGoverned.narrowed (u.beatGoverned.governLinks u.powerMw u.allowNow) = true →
    exec (.governorBeat ins cyc) s = .next { u.beatGoverned.governLinks u.powerMw u.allowNow with
      gov := { (u.beatGoverned.governLinks u.powerMw u.allowNow).gov with unmet := false } }) ∧
  (∀ ins cyc (u s : State), Fits (.governorBeat ins cyc) → (s.at cyc).inputsRead ins = u → s.tr.wafer = true → u.overA = true → s.clk.m = 192 →
    u.beatGoverned.narrowed (u.beatGoverned.governLinks u.powerMw u.allowNow) = false →
    exec (.governorBeat ins cyc) s = .next (u.beatGoverned.governLinks u.powerMw u.allowNow).capUnmet) ∧
  -- INPUT_OVERPOWER: after 8 beats over 21,000 W the module shuts down, once; not before
  (∀ s : State, Fits .inputOverpower → 8 ≤ s.gov.overBeats → s.gov.excess = false →
    exec .inputOverpower s = .next (({ s with gov := { s.gov with excess := true } } : State).shutdown fcInputOverpower [])) ∧
  (∀ s : State, Fits .inputOverpower → s.gov.overBeats < 8 → exec .inputOverpower s = .next s) ∧
  -- AGGREGATION_WINDOW_END at the first beat of a window: telemetry and the window's closing; heat lengthens, or a low mean power shortens
  (∀ s : State, Fits .aggregationWindowEnd → s.clk.beat % 1024 ≠ 0 → exec .aggregationWindowEnd s = .next s) ∧
  (∀ s : State, Fits .aggregationWindowEnd → s.clk.beat % 1024 = 0 → 0 < s.clk.beat / 1024 → s.gov.closedWin < s.clk.beat / 1024 → s.tr.wafer = true →
    s.liveRegions.any (fun r => (s.region r).high) = true → s.clk.m < 192 →
    exec .aggregationWindowEnd s = .next (((s.telemeter (s.clk.beat - 1024)).windowShut s.liveRegions (s.clk.beat / 1024)).orderStretch
      (min 192 (s.clk.m + 4)) (s.clk.beat + 1))) ∧
  (∀ k (s : State), Fits .aggregationWindowEnd → s.clk.beat % 1024 = 0 → 0 < s.clk.beat / 1024 → s.gov.closedWin < s.clk.beat / 1024 → s.tr.wafer = true →
    s.liveRegions.any (fun r => (s.region r).high) = false →
    shortenTo s.clk.m s.gov.mmin s.gov.winMean ((s.telemeter (s.clk.beat - 1024)).windowShut s.liveRegions (s.clk.beat / 1024)).allowNow s.gov.pstat = k →
    exec .aggregationWindowEnd s = .next (k.elim ((s.telemeter (s.clk.beat - 1024)).windowShut s.liveRegions (s.clk.beat / 1024))
      (((s.telemeter (s.clk.beat - 1024)).windowShut s.liveRegions (s.clk.beat / 1024)).shortened s.liveRegions))) ∧
  -- HEADROOM: the peer's share, power and offer, and its time
  (∀ f share power offer (s u : State), Fits (.headroom f share power offer) → fabricOk f 0 [f.len] s = true →
    ({ s.rxCount f with pod := { (s.rxCount f).pod with peers := (s.rxCount f).pod.peers.upd {} f.spos (fun p =>
      { p with share := share, power := power, offer := offer, heard := true, stale := false, headAt := s.clk.wall }) } } : State) = u →
    exec (.headroom f share power offer) s = .next { u with gov := { u.gov with stale := u.pod.peers.any (fun p => p.2.stale) } }) ∧
  -- HEADROOM_SEND: every other module is told; a share of 0 offers 0; an allowance that does not rise applies from the next boundary
  (∀ cyc (s : State), Fits (.headroomSend cyc) → (s.pod.cfg = none ∨ s.ha.warm = true) → exec (.headroomSend cyc) s = .next (s.at cyc)) ∧
  (∀ cyc g (s : State), Fits (.headroomSend cyc) → s.pod.cfg = some g → s.ha.warm = false → s.gov.share = 0 →
    exec (.headroomSend cyc) s = .next { (s.at cyc).tellPeers with gov := { s.gov with offer := 0, keep := none } }) ∧
  (∀ cyc g a (s : State), Fits (.headroomSend cyc) → s.pod.cfg = some g → s.ha.warm = false → s.gov.share ≠ 0 →
    (s.at cyc).tellPeers.podShare s.ownOffer = a → a ≤ s.gov.podNext.getD s.gov.podAllow →
    exec (.headroomSend cyc) s = .next { (s.at cyc).tellPeers with gov := { s.gov with offer := s.ownOffer, podNext := some a, keep := none } }) ∧
  -- an allowance that would rise because the own offer fell is kept back
  (∀ cyc g a (s : State), Fits (.headroomSend cyc) → s.pod.cfg = some g → s.ha.warm = false → s.gov.share ≠ 0 →
    (s.at cyc).tellPeers.podShare s.ownOffer = a → s.gov.podNext.getD s.gov.podAllow < a → s.ownOffer < s.gov.offer →
    exec (.headroomSend cyc) s = .next { (s.at cyc).tellPeers with
      gov := { s.gov with offer := s.ownOffer, keep := some (a, (s.at cyc).tellPeers.clk.wall) } }) ∧
  -- POD_ALLOWANCE_HOLD_END: 10 ms after the offer fell the allowance kept back applies from the next boundary; not before
  (∀ k (s : State), Fits .podAllowanceHoldEnd → s.gov.keep = some k → k.2 + thirds 10 ≤ s.clk.wall →
    exec .podAllowanceHoldEnd s = .next { s with gov := { s.gov with podNext := some k.1, keep := none } }) ∧
  (∀ k (s : State), Fits .podAllowanceHoldEnd → s.gov.keep = some k → s.clk.wall < k.2 + thirds 10 → exec .podAllowanceHoldEnd s = .next s) ∧
  -- HEADROOM_TIMEOUT: 30 ms without a message make the peer stale
  (∀ pos (s : State), Fits (.headroomTimeout pos) → pos ≠ s.myPos → (s.pod.peers.get {} pos).headAt + thirds 30 ≤ s.clk.wall →
    exec (.headroomTimeout pos) s = .next { s with
      pod := { s.pod with peers := s.pod.peers.upd {} pos (fun p => { p with stale := true }) }, gov := { s.gov with stale := true } }) ∧
  (∀ pos (s : State), Fits (.headroomTimeout pos) → s.clk.wall < (s.pod.peers.get {} pos).headAt + thirds 30 → exec (.headroomTimeout pos) s = .next s)

/-! Chapter 17: lost modules and takeovers. -/

/-- RESTORE_REQUEST, RESTORE_DONE and MODULE_LOST complete (R425, R426). -/
def Obligations.TakeoverCommandsComplete : Prop :=
  -- RESTORE_REQUEST: what the mask asks is sent, then RESTORE_DONE with the units sent; a mask that asks nothing has 0 units
  (∀ f pos mask a (s : State), Fits (.restoreRequest f pos mask) → fabricOk f 0 [12] s = true → restoreAnswer f pos mask (s.rxCount f) = a →
    exec (.restoreRequest f pos mask) s =
      .next (a.1.answerAll f 0 [⟨0, 0x10, f.ctx, f.spos, ctlBody 7 (doneBody f.ctx s.myPos (a.1.ctx f.ctx) a.2)⟩])) ∧
  (∀ f pos (s : State), restoreAnswer f pos 0 s = (s, 0)) ∧
  -- RESTORE_DONE: the buddy's first, without units: nothing to take; with units the others are asked
  (∀ f pos last cur seed attempt gnorm counts t (s : State), Fits (.restoreDone f pos last cur seed attempt gnorm 0 counts) → fabricOk f 0 [296] s = true →
    (s.ctx f.ctx).takeover = some t → t.asked = false →
    exec (.restoreDone f pos last cur seed attempt gnorm 0 counts) s = .next ((s.rxCount f).endTakeover f.ctx stOk 0)) ∧
  (∀ f pos last cur seed attempt gnorm units counts t (s : State), Fits (.restoreDone f pos last cur seed attempt gnorm units counts) →
    fabricOk f 0 [296] s = true → (s.ctx f.ctx).takeover = some t → t.asked = false → 0 < units →
    exec (.restoreDone f pos last cur seed attempt gnorm units counts) s =
      .next (((s.rxCount f).askOthers f last cur seed attempt gnorm units counts).tryTakeover f.ctx)) ∧
  (∀ f pos last cur seed attempt gnorm units counts t (s : State), Fits (.restoreDone f pos last cur seed attempt gnorm units counts) →
    fabricOk f 0 [296] s = true → (s.ctx f.ctx).takeover = some t → t.asked = true → f.spod = s.myPod →
    exec (.restoreDone f pos last cur seed attempt gnorm units counts) s = .next (((s.rxCount f).onCtx f.ctx (fun x => { x with
      takeover := x.takeover.map (fun t => { t with wait := t.wait.filter (· ≠ pos), due := t.due.upd 0 pos (· + units) }) })).tryTakeover f.ctx)) ∧
  -- MODULE_LOST: the peer is lost; its record, of each context it affects, or of none
  (∀ pos (s u : State), Fits (.moduleLost pos) → (s.pod.peers.get {} pos).lost = false → s.silent pos = true → pos ≠ s.myPos →
    ({ s with pod := { s.pod with peers := s.pod.peers.upd {} pos (fun p => { p with lost := true }) } } : State) = u → u.affected pos = [] →
    exec (.moduleLost pos) s = .next (u.keeperFault fcModuleLost uidKeeper 0 0 [pos])) ∧
  (∀ pos c cs (s u : State), Fits (.moduleLost pos) → (s.pod.peers.get {} pos).lost = false → s.silent pos = true → pos ≠ s.myPos →
    ({ s with pod := { s.pod with peers := s.pod.peers.upd {} pos (fun p => { p with lost := true }) } } : State) = u → u.affected pos = c :: cs →
    exec (.moduleLost pos) s = .next ((c :: cs).foldl (fun s c => s.lostFor pos c) u)) ∧
  (∀ pos (s : State), Fits (.moduleLost pos) → s.silent pos = false → exec (.moduleLost pos) s = .next s)


/-! Chapter 12: the host attachment. -/

/-- SYSTEM_RING_START, SYSTEM_RING_STOP, SYSTEM_RING_STOP_DONE, REGISTER_WRITE, HEAD_LINE_SNOOP, HEAD_LINE_REREAD, FAR_PAGE_REQUEST_REPOST,
MSIX_UNMASK, HDM_DECODER_COMMIT, WINDOW_READ, WINDOW_WRITE and HOST_LINK_RESET complete (R299 to R303, R312 to R316, R318, R319). -/
def Obligations.HostCommandsComplete : Prop :=
  -- SYSTEM_RING_START: with the link up, from the descriptor where it passes its check, else STOPPED; while STOPPING it waits
  (∀ cprod qcons readable (s : State), Fits (.systemRingStart cprod qcons readable) → s.regsOpen = true → s.ha.sren = false →
    (s.ctx 0).ring.st ≠ .stopping → s.ha.cxl = true → ringDescOk s.ha.msixSize (s.ctx 0).ring.desc = true →
    exec (.systemRingStart cprod qcons readable) s =
      .next (({ s with ha := { s.ha with sren := true, srenAgain := false } } : State).startRing 0 (s.ctx 0).ring.desc cprod qcons readable)) ∧
  (∀ cprod qcons readable (s : State), Fits (.systemRingStart cprod qcons readable) → s.regsOpen = true → s.ha.sren = false →
    (s.ctx 0).ring.st ≠ .stopping → s.ha.cxl = true → ringDescOk s.ha.msixSize (s.ctx 0).ring.desc = false →
    exec (.systemRingStart cprod qcons readable) s =
      .next (({ s with ha := { s.ha with sren := true, srenAgain := false } } : State).onRing 0 (fun r => { r with st := .stopped }))) ∧
  (∀ cprod qcons readable (s : State), Fits (.systemRingStart cprod qcons readable) → s.regsOpen = true → s.ha.sren = false →
    (s.ctx 0).ring.st = .stopping →
    exec (.systemRingStart cprod qcons readable) s = .next { s with ha := { s.ha with sren := true, srenAgain := true } }) ∧
  -- SYSTEM_RING_STOP: STOPPING, with the status line; SYSTEM_RING_STOP_DONE once no long-running command of the ring is left: DISABLED
  (∀ s : State, Fits .systemRingStop → s.regsOpen = true → s.ha.sren = true → (s.ctx 0).ring.st = .running →
    exec .systemRingStop s =
      .next ((({ s with ha := { s.ha with sren := false, srenAgain := false } } : State).onRing 0 (fun r => { r with st := .stopping })).putStatus 0)) ∧
  (∀ s : State, Fits .systemRingStopDone → (s.ctx 0).ring.st = .stopping → s.long.any (fun l => decide (l.src = .ring 0)) = false →
    (s.ctx 0).ring.backlog = [] → (s.ctx 0).ring.err = 0 → ringDescOk s.ha.msixSize (s.ctx 0).ring.desc = true → s.ha.srenAgain = false →
    exec .systemRingStopDone s = .next ((s.onRing 0 (fun r => { r with st := .disabled })).putStatus 0)) ∧
  (∀ s : State, Fits .systemRingStopDone → s.long.any (fun l => decide (l.src = .ring 0)) = true → exec .systemRingStopDone s = .next s) ∧
  -- REGISTER_WRITE: SR_DESC is stored while the ring is disabled, by aligned accesses of 4 or 8 bytes; every other register ignores it
  (∀ off len value (s : State), Fits (.registerWrite off len value) → (len = 4 ∨ len = 8) → off % len = 0 → 0x40 ≤ off → off < 0x80 →
    (s.ctx 0).ring.st = .disabled → s.regsOpen = true →
    exec (.registerWrite off len value) s = .next (s.onRing 0 (fun r => { r with
      desc := r.desc.setW ((off - 0x40) / 8) (putBytes (r.desc.w ((off - 0x40) / 8)) (off % 8) len value) }))) ∧
  (∀ off len value (s : State), Fits (.registerWrite off len value) → (off < 0x40 ∨ 0x80 ≤ off ∨ (s.ctx 0).ring.st ≠ .disabled) →
    exec (.registerWrite off len value) s = .next s) ∧
  -- HEAD_LINE_SNOOP: counted, and the line read again; HEAD_LINE_REREAD: its values count, then packets of undefined opcodes are answered
  (∀ ctx cyc cprod qcons readable undef (s : State), Fits (.headLineSnoop ctx cyc cprod qcons readable undef) → (s.ctx ctx).ring.st = .running →
    s.ha.cxl = true →
    exec (.headLineSnoop ctx cyc cprod qcons readable undef) s =
      .next (({ s.at cyc with ha := { s.ha with snoop := s.ha.snoop + 1 } } : State).reread ctx cprod qcons readable undef)) ∧
  (∀ ctx cyc cprod qcons readable undef (s : State), Fits (.headLineReread ctx cyc cprod qcons readable undef) → s.watched = true →
    (s.ctx ctx).ring.st = .running →
    exec (.headLineReread ctx cyc cprod qcons readable undef) s =
      .next ((undef.filter (fun p => !opDefined p.1 && decide (p.2.src = .ring ctx))).foldl undefPacket ((s.at cyc).headLine ctx cprod qcons readable))) ∧
  -- a head line that cannot be read, or whose numbers cannot be, stops the ring; a good one counts
  (∀ ctx cprod qcons (s : State), s.headLine ctx cprod qcons false = s.stopRing ctx 4) ∧
  (∀ ctx cprod qcons (s : State), idxDiff cprod (s.ctx ctx).ring.ccons ≤ 2 ^ (s.ctx ctx).ring.csize →
    idxDiff (s.ctx ctx).ring.qprod qcons ≤ 2 ^ (s.ctx ctx).ring.qsize →
    s.headLine ctx cprod qcons true = (s.onRing ctx (fun r => { r with cprod := cprod, qcons := qcons })).flush ctx 66) ∧
  -- FAR_PAGE_REQUEST_REPOST: each request of the page that has waited 1,024 beats is posted again; before that none
  (∀ ctx ext page (s : State), Fits (.farPageRequestRepost ctx ext page) →
    exec (.farPageRequestRepost ctx ext page) s =
      .next ((s.ha.far.filter (fun f => decide (f.ctx = ctx ∧ f.ext = ext ∧ f.page = page ∧ f.at_ ≤ s.clk.beat))).foldl
        (fun s f => s.postFar ctx ext page f.stream) s)) ∧
  -- MSIX_UNMASK: the vector is sent where it was masked and pending
  (∀ vec (s : State), Fits (.msixUnmask vec) → s.ha.msixMask.testBit vec = true → s.ha.msixPend.testBit vec = true →
    exec (.msixUnmask vec) s = .next { s with ha := { s.ha with
      msixMask := setBit s.ha.msixMask vec false, msixPend := setBit s.ha.msixPend vec false, msixSent := s.ha.msixSent ++ [vec] } }) ∧
  -- HDM_DECODER_COMMIT: one-way interleave alone
  (∀ ways (s : State), Fits (.hdmDecoderCommit ways) → s.ha.cxl = true →
    exec (.hdmDecoderCommit ways) s = .next (if ways = 1 then { s with ha := { s.ha with hdm := true } } else s)) ∧
  -- WINDOW_READ: the line's two words, a memory error where one cannot be read; all ones, and a count, for an unmapped page
  (∀ addr ext e l (s u v : State) a b p q, Fits (.windowRead addr) → s.ha.cxl = true → s.ha.hdm = true →
    s.windowAt (addr / 64 * 64 / pageBytes) = some (ext, e, l) →
    (s.onSc (extSc ext) (Sc.spendLow e.ctx 1)).windowWord ext e (l * pageBytes + addr / 64 * 64 % pageBytes) (addr / 64 * 64) = (u, a, p) →
    u.windowWord ext e (l * pageBytes + addr / 64 * 64 % pageBytes + 32) (addr / 64 * 64 + 32) = (v, b, q) →
    exec (.windowRead addr) s = .next { (if p = true ∧ q = true then v else v.memErr) with
      ha := { (if p = true ∧ q = true then v else v.memErr).ha with memResp := a ++ b } }) ∧
  (∀ addr (s : State), Fits (.windowRead addr) → s.ha.cxl = true → s.ha.hdm = true → s.windowAt (addr / 64 * 64 / pageBytes) = none →
    exec (.windowRead addr) s = .next { s with ha := { s.ha with unmapped := s.ha.unmapped + 1, memResp := List.replicate 64 0xFF#8 } }) ∧
  -- WINDOW_WRITE: whole words are written without reading, partial ones merged under their byte enables; to an unmapped page only counted
  (∀ addr data ext e l (s : State), Fits (.windowWrite addr (2 ^ 64 - 1) data) → s.ha.cxl = true → s.ha.hdm = true →
    s.windowAt (addr / 64 * 64 / pageBytes) = some (ext, e, l) →
    exec (.windowWrite addr (2 ^ 64 - 1) data) s =
      .next (((s.onSc (extSc ext) (Sc.spendLow e.ctx 1)).writeExt ext e (l * pageBytes + addr / 64 * 64 % pageBytes) (data.take 32)).writeExt ext e
        (l * pageBytes + addr / 64 * 64 % pageBytes + 32) (data.drop 32))) ∧
  (∀ addr enable data ext e l (s u : State), Fits (.windowWrite addr enable data) → s.ha.cxl = true → s.ha.hdm = true →
    s.windowAt (addr / 64 * 64 / pageBytes) = some (ext, e, l) → 0 < enable → enable < 2 ^ 32 - 1 →
    (s.onSc (extSc ext) (Sc.spendLow e.ctx 1)).checkStore ext e (l * pageBytes + addr / 64 * 64 % pageBytes) = (u, none) →
    exec (.windowWrite addr enable data) s = .next (u.writeExt ext e (l * pageBytes + addr / 64 * 64 % pageBytes)
      (((u.peek ext e (l * pageBytes + addr / 64 * 64 % pageBytes) 32).zip (data.take 32)).zipIdx.map (fun q => if bit enable q.2 then q.1.2 else q.1.1)))) ∧
  (∀ addr enable data (s : State), Fits (.windowWrite addr enable data) → s.ha.cxl = true → s.ha.hdm = true →
    s.windowAt (addr / 64 * 64 / pageBytes) = none →
    exec (.windowWrite addr enable data) s = .next { s with ha := { s.ha with unmapped := s.ha.unmapped + 1 } }) ∧
  -- HOST_LINK_RESET: every ring disabled with its descriptor cleared, and HA_CTL cleared
  (∀ s : State, Fits .hostLinkReset → exec .hostLinkReset s = .next { s with
    ctxs := s.ctxs.mapV {} (fun _ x => { x with ring := { x.ring with desc := {}, st := .disabled, err := 0 } })
    ha := { s.ha with sren := false, srenAgain := false } })

/-! Chapter 13: contexts and bindings. -/

/-- CTX_OPEN, CTX_CLOSE, CTX_FENCE, CTX_READ and PROT_CHANGE complete (R302, R322 to R327, R332). -/
def Obligations.ContextCommandsComplete : Prop :=
  -- CTX_OPEN of a closed context: no reply before the boundary, at which it opens; behind a close it is DEFERRED and queued
  (∀ h d (s t : State), Fits (.ctxOpen h d) → served 0x0101 [3] true h s = true → taken s h = t → h.rsv = true → h.ctx ≠ 0 →
    ringDescOk t.ha.msixSize d = true → (t.ctx h.ctx).st = .closed → (t.ctx h.ctx).queuedOpen = none → (t.ctx h.ctx).opening = none →
    exec (.ctxOpen h d) s = .next (Verdict.apply h 0x0101 (.later .ctxOpen h.ctx 0
      (fun id s => s.onCtx h.ctx (fun x => { x with opening := some (d, id) })) t))) ∧
  (∀ h d (s t : State), Fits (.ctxOpen h d) → served 0x0101 [3] true h s = true → taken s h = t → h.rsv = true → h.ctx ≠ 0 →
    ringDescOk t.ha.msixSize d = true → (t.ctx h.ctx).st = .closing → (t.ctx h.ctx).queuedOpen = none → (t.ctx h.ctx).opening = none →
    exec (.ctxOpen h d) s = .next (Verdict.apply h 0x0101 (.accept stDeferred .ctxOpen h.ctx 0
      (fun id s => s.onCtx h.ctx (fun x => { x with queuedOpen := some (d, id) })) t))) ∧
  -- of an ungranted context, or of context 0: DENIED
  (∀ h d (s t : State), Fits (.ctxOpen h d) → served 0x0101 [3] true h s = true → taken s h = t → (h.ctx = 0 ∨ (t.ctx h.ctx).st = .ungranted) →
    exec (.ctxOpen h d) s = .next (replied 0x0101 h stDenied 0 t)) ∧
  -- CTX_CLOSE: the close begins
  (∀ h (s t : State), Fits (.ctxClose h) → served 0x0102 [1] true h s = true → taken s h = t → h.rsv = true → h.ctx ≠ 0 →
    ((t.ctx h.ctx).st = .opened ∨ (t.ctx h.ctx).st = .fenced) →
    exec (.ctxClose h) s = .next (longAccepted 0x0102 h .ctxClose h.ctx 0 (fun _ s => s.beginClose h.ctx false) t)) ∧
  (∀ h (s t : State), Fits (.ctxClose h) → served 0x0102 [1] true h s = true → taken s h = t → h.rsv = true → h.ctx ≠ 0 →
    ((t.ctx h.ctx).st = .closed ∨ (t.ctx h.ctx).st = .ungranted) →
    exec (.ctxClose h) s = .next (replied 0x0102 h stBusy 0 t)) ∧
  -- CTX_FENCE: an officer's signature over the statement, GEN as it stands, the context open; recorded, and GEN advanced
  (∀ h gen b (s t : State), Fits (.ctxFence h gen b) → served 0x0103 [5] true h s = true → taken s h = t → h.rsv = true → h.ctx ≠ 0 →
    t.tr.blocksOk none (t.tr.statement 2 h.ctx gen []) [b] = true → gen = (t.ctx h.ctx).gen.toNat → (t.ctx h.ctx).st = .opened →
    (t.ctx h.ctx).fencing = none →
    exec (.ctxFence h gen b) s = .next (longAccepted 0x0103 h .ctxFence h.ctx 0
      (fun id s => s.onCtx h.ctx (fun x => { x with fencing := some id, gen := x.gen + 1 }))
      (t.protRec h 2 h.ctx ((t.ctx h.ctx).gen + 1).toNat [b] false []))) ∧
  (∀ h gen b (s t : State), Fits (.ctxFence h gen b) → served 0x0103 [5] true h s = true → taken s h = t → h.ctx ≠ 0 →
    t.tr.blocksOk none (t.tr.statement 2 h.ctx gen []) [b] = false →
    exec (.ctxFence h gen b) s = .next (replied 0x0103 h stSignature 0 t)) ∧
  -- CTX_READ: the records' 64 bytes each, written to the output
  (∀ h first count x (s t : State), Fits (.ctxRead h first count x) → served 0x0104 [1] true h s = true → taken s h = t → h.rsv = true →
    t.refBad h.src x = none → t.ha.cxl = true → 1 ≤ count → first + count ≤ 1024 →
    exec (.ctxRead h first count x) s = .next (replied 0x0104 h (t.writeRef x ((List.range count).flatMap (fun i => t.ctxRecord (first + i)))).2.1
      (t.writeRef x ((List.range count).flatMap (fun i => t.ctxRecord (first + i)))).2.2
      (t.writeRef x ((List.range count).flatMap (fun i => t.ctxRecord (first + i)))).1)) ∧
  -- PROT_CHANGE with the signatures it needs, two officers' for a widening one: the grant, its record, GEN advanced
  (∀ h ctx gen n0 n1 n2 n3 blks (s t u : State), Fits (.protChange h ctx gen n0 n1 n2 n3 blks) →
    served 0x0B01 ([6, 10].filter (fun l => decide (l = 2 + 4 * blks.length))) true h s = true → taken s h = t → h.rsv = true → ctx ≠ 0 → ctx < 1024 →
    h.mgmt = false → t.tr.blocksOk none (t.tr.statement 1 ctx gen (sha384 (newWords n0 n1 n2 n3))) blks = true →
    (if widening (t.ctx ctx).grant ⟨n0.toNat, n1.toNat, n2.toNat, n3.toNat⟩ = true then 2 else 1) ≤ officersIn blks → newWordsOk n0 n2 = true →
    gen = (t.ctx ctx).gen.toNat →
    (t.applyGrant ctx n0 n1 n2 n3).protRec h 1 ctx ((t.ctx ctx).gen + 1).toNat blks
      (widening (t.ctx ctx).grant ⟨n0.toNat, n1.toNat, n2.toNat, n3.toNat⟩) (newWords n0 n1 n2 n3) = u →
    (bit n0.toNat 63 = true ∨ (t.ctx ctx).st = .closed) → u.narrowOrders ctx 0 = [] →
    exec (.protChange h ctx gen n0 n1 n2 n3 blks) s = .next (replied 0x0B01 h stOk 0 u)) ∧
  -- too few officers, or a signature that does not verify: SIGNATURE, and nothing changes but the ring
  (∀ h ctx gen n0 n1 n2 n3 blks (s t : State), Fits (.protChange h ctx gen n0 n1 n2 n3 blks) →
    served 0x0B01 ([6, 10].filter (fun l => decide (l = 2 + 4 * blks.length))) true h s = true → taken s h = t → ctx ≠ 0 → h.mgmt = false →
    (t.tr.blocksOk none (t.tr.statement 1 ctx gen (sha384 (newWords n0 n1 n2 n3))) blks = false ∨
      officersIn blks < if widening (t.ctx ctx).grant ⟨n0.toNat, n1.toNat, n2.toNat, n3.toNat⟩ = true then 2 else 1) →
    exec (.protChange h ctx gen n0 n1 n2 n3 blks) s = .next (replied 0x0B01 h stSignature 0 t))

/-- REGION_BIND, EXTENT_CREATE, EXTENT_BIND, SLOT_BIND, GROUP_BIND and BINDING_EFFECT complete (R328 to R330, R347). -/
def Obligations.BindingCommandsComplete : Prop :=
  -- a resource of context 0 that the command's context may hold: ACCEPTED, the order for its boundary taken
  (∀ h region (s t : State), Fits (.regionBind h region 0) → served 0x0201 [1] true h s = true → taken s h = t → h.rsv = true →
    (t.ctx h.ctx).mayHold region = true → region < 80 → (t.region region).st = .active → t.willHold 0 region = some 0 → h.ctx ≠ 0 →
    exec (.regionBind h region 0) s = .next (longAccepted 0x0201 h .bind 0 0
      (fun id s => { s with binds := s.binds ++ [⟨some id, 0, region, h.ctx, false, s.effectBeat 0 s.clk.cycle, none⟩] }) t)) ∧
  (∀ h region (s t : State), Fits (.regionBind h region 0) → served 0x0201 [1] true h s = true → taken s h = t → region < 80 →
    (t.ctx h.ctx).mayHold region = false →
    exec (.regionBind h region 0) s = .next (replied 0x0201 h stDenied 0 t)) ∧
  (∀ h ext e (s t : State), Fits (.extentBind h ext 0) → served 0x0203 [1] false h s = true → taken s h = t → h.rsv = true → h.sys = true →
    t.ext ext = some e → e.kind ≠ 6 → t.willHold 1 ext = some 0 → h.ctx ≠ 0 → t.pagesToBe h.ctx + t.storePages ext e ≤ (t.ctx h.ctx).pageQ →
    exec (.extentBind h ext 0) s = .next (longAccepted 0x0203 h .bind 0 0
      (fun id s => { s with binds := s.binds ++ [⟨some id, 1, ext, h.ctx, false, s.effectBeat 1 s.clk.cycle, none⟩] }) t)) ∧
  (∀ h stream (s t : State), Fits (.slotBind h stream 0) → served 0x0204 [1] false h s = true → taken s h = t → h.rsv = true → h.sys = true →
    stream < 1536 → (t.sc (stream / 64)).serving = true → t.willHold 2 stream = some 0 → h.ctx ≠ 0 → t.slotsToBe h.ctx + 1 ≤ (t.ctx h.ctx).slotQ →
    exec (.slotBind h stream 0) s = .next (longAccepted 0x0204 h .bind 0 0
      (fun id s => { s with binds := s.binds ++ [⟨some id, 2, stream, h.ctx, false, s.effectBeat 2 s.clk.cycle, none⟩] }) t)) ∧
  (∀ h blk (s t : State), Fits (.groupBind h blk 0) → served 0x0205 [1] true h s = true → taken s h = t → h.rsv = true →
    (t.ctx h.ctx).gq = true → blk < 32 → t.willHold 3 blk = some 0 → h.ctx ≠ 0 → t.groupToBe h.ctx = none →
    exec (.groupBind h blk 0) s = .next (longAccepted 0x0205 h .bind 0 0
      (fun id s => { s with binds := s.binds ++ [⟨some id, 3, blk, h.ctx, false, s.effectBeat 3 s.clk.cycle, none⟩] }) t)) ∧
  -- EXTENT_CREATE: what it sets aside, the lowest free index, map entries, pages and window pages, waits for its boundary
  (∀ h sc kind pages p (s t : State), Fits (.extentCreate h sc kind 0 pages 0) → served 0x0202 [1] false h s = true → taken s h = t → h.rsv = true →
    sc < 24 → (t.sc sc).serving = true → kind ≤ 5 → kind ≠ 2 → 1 ≤ pages → (t.freeIndex sc).isSome = true →
    (t.freeMap sc pages).isSome = true → t.planExtent h.ctx sc kind pages 0 false false = some p →
    exec (.extentCreate h sc kind 0 pages 0) s = .next (longAccepted 0x0202 h .bind 0 0
      (fun id s => { s with binds := s.binds ++ [⟨some id, 1, p.1, h.ctx, false, s.effectBeat 1 s.clk.cycle, some p.2⟩] }) t)) ∧
  -- no free index or no run of free map entries: BAD_PARAM; pages or window pages that are not to be had: NO_RESOURCE
  (∀ h sc kind pages (s t : State), Fits (.extentCreate h sc kind 0 pages 0) → served 0x0202 [1] false h s = true → taken s h = t →
    (t.freeIndex sc = none ∨ t.freeMap sc pages = none) →
    exec (.extentCreate h sc kind 0 pages 0) s = .next (replied 0x0202 h stBadParam 0 t)) ∧
  (∀ h sc kind pages (s t : State), Fits (.extentCreate h sc kind 0 pages 0) → served 0x0202 [1] false h s = true → taken s h = t → h.rsv = true →
    sc < 24 → (t.sc sc).serving = true → kind ≤ 5 → kind ≠ 2 → 1 ≤ pages → (t.freeIndex sc).isSome = true →
    (t.freeMap sc pages).isSome = true → t.planExtent h.ctx sc kind pages 0 false false = none →
    exec (.extentCreate h sc kind 0 pages 0) s = .next (replied 0x0202 h stNoResource 0 t)) ∧
  -- FREE of what the context holds is taken as an order too
  (∀ h stream (s t : State), Fits (.slotBind h stream 2) → served 0x0204 [1] false h s = true → taken s h = t → h.rsv = true →
    stream < 1536 → (t.sc (stream / 64)).serving = true → t.willHold 2 stream = some h.ctx →
    exec (.slotBind h stream 2) s = .next (longAccepted 0x0204 h .bind 0 0
      (fun id s => { s with binds := s.binds ++ [⟨some id, 2, stream, h.ctx, true, s.effectBeat 2 s.clk.cycle, none⟩] }) t)) ∧
  -- BINDING_EFFECT at a boundary the first order has reached: carried out, the next one waits, and with the command's last the final reply
  (∀ kind idx b bs id (s u : State), Fits (.bindingEffect kind idx) → s.ordersFor kind idx = b :: bs → s.clk.cycle = 0 → b.beat ≤ s.clk.beat →
    b.kind ≠ 0 → b.long = some id →
    ({ s.applyBind b with binds := ((s.applyBind b).binds.erase b).map (fun o =>
      if o.kind = kind ∧ o.idx = idx then { o with beat := max o.beat ((s.applyBind b).clk.beat + 1) } else o) } : State) = u →
    u.binds.any (fun o => decide (o.long = some id)) = false →
    exec (.bindingEffect kind idx) s = .next (u.finish id stOk (u.bindDetail b))) ∧
  -- a region's order: a test that runs in the region ends first; then it is carried out, the final reply after the zero-fill it begins
  (∀ idx b bs (s : State), Fits (.bindingEffect 0 idx) → s.ordersFor 0 idx = b :: bs → s.clk.cycle = 0 → b.beat ≤ s.clk.beat → b.kind = 0 →
    s.resetComes idx = false → s.tr.tests.any (fun t => t.running && decide (uClass t.unit = 3) && decide (uRegion t.unit = idx)) = true →
    exec (.bindingEffect 0 idx) s = .next (s.dropRegionTests idx)) ∧
  (∀ idx b bs id (s u : State), Fits (.bindingEffect 0 idx) → s.ordersFor 0 idx = b :: bs → s.clk.cycle = 0 → b.beat ≤ s.clk.beat →
    b.kind = 0 → b.long = some id → s.resetComes idx = false →
    s.tr.tests.any (fun t => t.running && decide (uClass t.unit = 3) && decide (uRegion t.unit = idx)) = false →
    ({ (s.dropRegionTests idx).applyBind b with binds := (((s.dropRegionTests idx).applyBind b).binds.erase b).map (fun o =>
      if o.kind = 0 ∧ o.idx = idx then { o with beat := max o.beat (((s.dropRegionTests idx).applyBind b).clk.beat + 1) } else o) } : State) = u →
    u.binds.any (fun o => decide (o.long = some id)) = false →
    exec (.bindingEffect 0 idx) s = .next (if u.filling idx = true then u.afterFill id idx else u.finish id stOk (u.bindDetail b))) ∧
  (∀ kind idx b bs (s : State), Fits (.bindingEffect kind idx) → s.ordersFor kind idx = b :: bs → s.clk.beat < b.beat →
    exec (.bindingEffect kind idx) s = .next s)


/-! Chapters 8, 9 and 14: pages, streams, plans and steps. -/

/-- PAGE_MAP_FAR, PAGE_RETIRE, EXTENT_COPY, STREAM_ARM, STREAM_RESUME, STREAM_ABORT and STREAM_STATUS complete (R204, R205, R208, R221 to R223,
R348). -/
def Obligations.StoreCommandsComplete : Prop :=
  -- PAGE_MAP_FAR: an absent page gets an address while it stays absent
  (∀ h ext page addr e (s t : State), Fits (.pageMapFar h ext page 2 addr) → Comes 0x0301 [1] false h s t → (t.ctx h.ctx).farPg = true →
    t.ext ext = some e → e.ctx = h.ctx → page < e.pages → pgFar (t.pageEnt ext e page) = true → pgP (t.pageEnt ext e page) = false →
    addr % pageBytes = 0 → addr < 2 ^ 52 →
    exec (.pageMapFar h ext page 2 addr) s = .next (replied 0x0301 h stOk 0 (t.setPage ext e page (farPage (addr / pageBytes) false)))) ∧
  -- P declares it present, and its outstanding requests are answered
  (∀ h ext page e (s t : State), Fits (.pageMapFar h ext page 1 0) → Comes 0x0301 [1] false h s t → (t.ctx h.ctx).farPg = true →
    t.ext ext = some e → e.ctx = h.ctx → page < e.pages → pgFar (t.pageEnt ext e page) = true →
    exec (.pageMapFar h ext page 1 0) s = .next (replied 0x0301 h stOk 0
      { t.setPage ext e page (farPage (pgAddr (t.pageEnt ext e page)) true) with
        ha := { t.ha with far := t.ha.far.filter (fun f => ¬(f.ctx = h.ctx ∧ f.ext = ext ∧ f.page = page)) } })) ∧
  -- PAGE_RETIRE: to the lowest spare page; DETAIL the words lost; BUSY while a running stream is at the page
  (∀ h ext page e n (s t : State), Fits (.pageRetire h ext page) → Comes 0x0302 [1] false h s t → t.ext ext = some e → e.ctx = h.ctx → page < e.pages →
    pgFar (t.pageEnt ext e page) = false → (t.sc (extSc ext)).slots.any (fun p => p.2.atPage ext page) = false → t.sparePage (extSc ext) = some n →
    exec (.pageRetire h ext page) s = .next (ranNow 0x0302 h .bind (fun u => ((u.retirePage ext page n).1, stOk, (u.retirePage ext page n).2)) t)) ∧
  (∀ h ext page e (s t : State), Fits (.pageRetire h ext page) → Comes 0x0302 [1] false h s t → t.ext ext = some e → e.ctx = h.ctx → page < e.pages →
    pgFar (t.pageEnt ext e page) = false → (t.sc (extSc ext)).slots.any (fun p => p.2.atPage ext page) = true →
    exec (.pageRetire h ext page) s = .next (replied 0x0302 h stBusy 0 t)) ∧
  -- EXTENT_COPY between store pages of the context's own extents of kinds 0 to 2
  (∀ h src dst soff doff len x y (s t : State), Fits (.extentCopy h src dst soff doff len) → Comes 0x0303 [1] false h s t → t.ext src = some x →
    t.ext dst = some y → x.ctx = h.ctx → y.ctx = h.ctx → x.kind < 3 → y.kind = 0 → soff % 64 = 0 → doff % 64 = 0 → x.holds soff (64 * len) = true →
    y.holds doff (64 * len) = true → t.rangeHere src x soff (64 * len) = true → t.rangeHere dst y doff (64 * len) = true →
    exec (.extentCopy h src dst soff doff len) s = .next (ranNow 0x0303 h .bind (copyExtent h src dst soff doff len) t)) ∧
  (∀ h src dst soff doff len b (s u : State), (s.spendIo src soff (64 * len)).readExt src (s.extD src) soff (64 * len) = (u, .ok b) →
    copyExtent h src dst soff doff len s = ((u.spendIo dst doff (64 * len)).writeExt dst (s.extD dst) doff b, stOk, len)) ∧
  -- STREAM_ARM: the descriptor passes its checks, the slot runs; where it does not, the reply carries the refusal's status
  (∀ h stream d (s t : State), Fits (.streamArm h stream d) → Comes 0x0304 [3] false h s t → t.streamThere stream = true →
    t.armRefusal h.ctx (stream / 64) (stream % 64) d = none →
    exec (.streamArm h stream d) s = .next (replied 0x0304 h stOk 0 (t.onSlot (stream / 64) (stream % 64) (fun _ =>
      { ctx := h.ctx, desc := d, st := .running, offset := sdBase d })))) ∧
  (∀ h stream d st (s t : State), Fits (.streamArm h stream d) → Comes 0x0304 [3] false h s t → t.streamThere stream = true →
    t.armRefusal h.ctx (stream / 64) (stream % 64) d = some st → exec (.streamArm h stream d) s = .next (replied 0x0304 h st 0 t)) ∧
  -- STREAM_RESUME of a stream halted on an error: it runs; of any other: BAD_PARAM
  (∀ h stream (s t : State), Fits (.streamResume h stream) → Comes 0x0305 [1] false h s t → t.streamThere stream = true → t.ownSlot h stream = true →
    (t.streamSlot stream).st = .haltErr →
    exec (.streamResume h stream) s = .next (replied 0x0305 h stOk 0 (t.onSlot (stream / 64) (stream % 64) (fun x => { x with st := .running, cause := 0 })))) ∧
  (∀ h stream (s t : State), Fits (.streamResume h stream) → Comes 0x0305 [1] false h s t → t.streamThere stream = true → t.ownSlot h stream = true →
    (t.streamSlot stream).st ≠ .haltErr → exec (.streamResume h stream) s = .next (replied 0x0305 h stBadParam 0 t)) ∧
  -- STREAM_ABORT of a live stream: aborted with cause 6, and the partition asked to hold
  (∀ h stream (s t : State), Fits (.streamAbort h stream) → Comes 0x0306 [1] false h s t → t.streamThere stream = true → t.ownSlot h stream = true →
    (t.streamSlot stream).live = true →
    exec (.streamAbort h stream) s = .next (replied 0x0306 h stOk 0
      ((t.onSlot (stream / 64) (stream % 64) (Slot.abort 6)).askHold h.ctx (uidSc (stream / 64)) .plan))) ∧
  -- STREAM_STATUS: 16 bytes for each slot asked for
  (∀ h first count x (s t : State), Fits (.streamStatus h first count x) → Comes 0x0307 [1] false h s t → 1 ≤ count → count ≤ 64 →
    (∀ n, n < count → t.streamThere (first + n) = true ∧ t.ownSlot h (first + n) = true) → t.refBad h.src x = none → t.ha.cxl = true →
    exec (.streamStatus h first count x) s = .next (answered 0x0307 h x ((List.range count).flatMap (fun n => t.slotStatus (first + n) (t.streamSlot (first + n)))) t)) ∧
  -- a slot or an extent of another context: DENIED
  (∀ h stream (s t : State), Fits (.streamAbort h stream) → Comes 0x0306 [1] false h s t → t.streamThere stream = true → t.ownSlot h stream = false →
    exec (.streamAbort h stream) s = .next (replied 0x0306 h stDenied 0 t)) ∧
  (∀ h ext page (s t : State), Fits (.pageRetire h ext page) → Comes 0x0302 [1] false h s t → t.ownExt h ext = false →
    exec (.pageRetire h ext page) s = .next (replied 0x0302 h stDenied 0 t))

/-- SP_MAP_LOAD, LIB_LOAD, PLAN_LOAD, PLAN_FREE, PLAN_RUN and PLAN_ABORT complete (R132, R142, R156, R349 to R351). -/
def Obligations.PlanCommandsComplete : Prop :=
  -- SP_MAP_LOAD: while no plan of the context runs; every tile of the partition zero-filled, with the map and no valid plan, every handle free;
  -- the final reply after the 8,192 cycles of the fill
  (∀ h m (s t : State), Fits (.spMapLoad h m) → Comes 0x0401 [3] false h s t → m.loadable = true → t.planRuns h.ctx = false →
    exec (.spMapLoad h m) s = .next (longAccepted 0x0401 h .fill (t.now + 8192) 0 (fun _ u =>
      ((u.onPartition h.ctx (fun k => { k.zeroFill u.now with map := m, planOk := false, pend := false })).freeAllSets h.ctx).onCtx h.ctx
        (fun x => { x with map := some m })) t)) ∧
  (∀ h m (s t : State), Fits (.spMapLoad h m) → Comes 0x0401 [3] false h s t → m.loadable = true → t.planRuns h.ctx = true →
    exec (.spMapLoad h m) s = .next (replied 0x0401 h stBusy 0 t)) ∧
  -- LIB_LOAD: the image read, checked and loaded in every tile of the partition
  (∀ h x (s t : State), Fits (.libLoad h x) → Comes 0x0402 [1] false h s t → t.refBad h.src x = none → t.ha.cxl = true → t.planRuns h.ctx = false →
    exec (.libLoad h x) s = .next (ranNow 0x0402 h .bind (fun u => u.readThen x h.ctx h.tag (loadLibrary h.ctx)) t)) ∧
  (∀ x c tag k b (s u : State), s.readRef x c tag = (u, .ok b) → s.readThen x c tag k = k b u) ∧
  (∀ x c tag k d (s u : State), s.readRef x c tag = (u, .error d) → s.readThen x c tag k = (u, stFaulted, d)) ∧
  (∀ c b (s : State), libFormOk b = true → libraryOk (loadLib b {}).routines ((loadLib b {}).lib.get 0) = true →
    loadLibrary c b s = (((s.onPartition c (fun t => { loadLib b t with planOk := false, pend := false })).freeAllSets c).onCtx c (fun x => { x with lib := b }),
      stOk, 0)) ∧
  -- PLAN_LOAD: the plan set read, checked, given the next handle, its routes written; a step set whose plans place a backward product before the
  -- last forward one is refused (which images do is a free value, entry 34)
  (∀ h x (s t : State), Fits (.planLoad h x) → Comes 0x0403 [1] false h s t → t.refBad h.src x = none → t.ha.cxl = true → t.planRuns h.ctx = false →
    exec (.planLoad h x) s = .next (ranNow 0x0403 h .bind (fun u => u.readThen x h.ctx h.tag (loadSet h.ctx)) t)) ∧
  (∀ c b p (s : State), readSet ((s.lead c).getD 0) b = some p →
    loadSet c b s = if p.kind = 1 ∧ Config.backwardFirst b = true then (s, stBadParam, 0) else s.takeSet c p) ∧
  (∀ c p (s : State), p.pages ≠ [] → s.setFine c p = true → (s.ctx c).sets.length < 64 → s.routesShort c p.allRoutes = false →
    s.takeSet c p = ((s.addRoutes p.allRoutes).onCtx c (fun x => { x with
      sets := x.sets.set none (s.ctx c).nextSet (some p), nextSet := ((s.ctx c).nextSet + 1) % 4294967296, part := x.part.planned }), stOk, (s.ctx c).nextSet)) ∧
  (∀ c b (s : State), readSet ((s.lead c).getD 0) b = none → loadSet c b s = (s, stBadParam, 0)) ∧
  -- PLAN_FREE: of a loaded set that no run names
  (∀ h handle (s t : State), Fits (.planFree h handle) → Comes 0x0404 [1] false h s t → ((t.ctx h.ctx).setOf handle).isSome = true →
    (t.ctx h.ctx).usesSet handle = false →
    exec (.planFree h handle) s = .next (replied 0x0404 h stOk 0 (t.freeSet h.ctx handle))) ∧
  (∀ h handle (s t : State), Fits (.planFree h handle) → Comes 0x0404 [1] false h s t → (t.ctx h.ctx).setOf handle = none →
    exec (.planFree h handle) s = .next (replied 0x0404 h stBadParam 0 t)) ∧
  -- PLAN_RUN: of a set of kind 0 with nothing running: ACCEPTED, the run recorded, the start order issued
  (∀ h handle p (s t : State), Fits (.planRun h handle) → Comes 0x0405 [1] false h s t → t.setFor h.ctx handle 0 = some p →
    (t.ctx h.ctx).run = none → t.planRuns h.ctx = false →
    exec (.planRun h handle) s = .next (longAccepted 0x0405 h .planRun handle 0 (fun id u =>
      startedRun h.ctx (otherRun .plain handle 0 0 id h.tag) 0 h.cyc p u) t)) ∧
  (∀ h handle (s t : State), Fits (.planRun h handle) → Comes 0x0405 [1] false h s t → t.setFor h.ctx handle 0 = none →
    exec (.planRun h handle) s = .next (replied 0x0405 h stBadParam 0 t)) ∧
  -- PLAN_ABORT: of a run under way, its streams aborted and its ending recorded; of one not begun, its end; with none, OK
  (∀ h r (s t : State), Fits (.planAbort h) → Comes 0x0406 [1] false h s t → (t.ctx h.ctx).run = some r → r.started = true →
    exec (.planAbort h) s = .next (longAccepted 0x0406 h .planAbort h.ctx 0 (fun _ u =>
      (((u.abortStreams 6 (fun q => q.ctx = h.ctx)).dropReds h.ctx).endRun h.ctx stAborted noCause).askHold h.ctx uidKeeper .plan) t)) ∧
  (∀ h r (s t : State), Fits (.planAbort h) → Comes 0x0406 [1] false h s t → (t.ctx h.ctx).run = some r → r.started = false →
    exec (.planAbort h) s = .next (ranNow 0x0406 h .planAbort (fun u => (u.closeRun h.ctx stAborted noCause, stOk, 0)) t)) ∧
  (∀ h (s t : State), Fits (.planAbort h) → Comes 0x0406 [1] false h s t → (t.ctx h.ctx).run = none →
    exec (.planAbort h) s = .next (ranNow 0x0406 h .planAbort (fun u => (u, stOk, 0)) t))

/-- STEP_START, STEP_BEGIN, STEP_COMPLETE, EVAL_START and STEP_STATUS complete (R226, R232, R235, R236, R257, R289, R352). -/
def Obligations.StepCommandsComplete : Prop :=
  -- STEP_START of the next step with a loaded step set of the context's freeze digest: ACCEPTED, recorded, the message sent
  (∀ h step seed tokens lr handle p (s t : State), Fits (.stepStart h step seed tokens lr handle) → Comes 0x0501 [2] false h s t →
    t.setFor h.ctx handle 1 = some p → p.freeze = (t.ctx h.ctx).nextFreeze → (t.ctx h.ctx).stepAllowed step seed tokens = true → lrOk lr = true →
    (t.ctx h.ctx).queued = none → (t.ctx h.ctx).run = none → (t.ctx h.ctx).redoOf = none →
    exec (.stepStart h step seed tokens lr handle) s = .next (longAccepted 0x0501 h .step h.ctx 0 (fun id u =>
      ((u.onPart h.ctx Part.restarted).onCtx h.ctx (fun x => { x with run := some (stepRun handle step seed tokens lr 0 id h.tag) })).sendStart h.ctx) t)) ∧
  -- a redo counts its attempt
  (∀ h step seed tokens lr handle p n (s t : State), Fits (.stepStart h step seed tokens lr handle) → Comes 0x0501 [2] false h s t →
    t.setFor h.ctx handle 1 = some p → p.freeze = (t.ctx h.ctx).nextFreeze → (t.ctx h.ctx).stepAllowed step seed tokens = true → lrOk lr = true →
    (t.ctx h.ctx).queued = none → (t.ctx h.ctx).run = none → (t.ctx h.ctx).redoOf = some n →
    exec (.stepStart h step seed tokens lr handle) s = .next (longAccepted 0x0501 h .step h.ctx 0 (fun id u =>
      ((u.onPart h.ctx Part.restarted).onCtx h.ctx (fun x => { x with
        run := some (stepRun handle step seed tokens lr ((n.attempt + 1) % 256) id h.tag) })).sendStart h.ctx) t)) ∧
  -- behind a running step it is queued; behind a queued one BUSY; out of turn BAD_PARAM
  (∀ h step seed tokens lr handle p r (s t : State), Fits (.stepStart h step seed tokens lr handle) → Comes 0x0501 [2] false h s t →
    t.setFor h.ctx handle 1 = some p → p.freeze = (t.ctx h.ctx).nextFreeze → (t.ctx h.ctx).stepAllowed step seed tokens = true → lrOk lr = true →
    (t.ctx h.ctx).queued = none → (t.ctx h.ctx).run = some r → r.kind = .step →
    exec (.stepStart h step seed tokens lr handle) s = .next (longAccepted 0x0501 h .step h.ctx 0 (fun id u =>
      (u.onPart h.ctx Part.restarted).onCtx h.ctx (fun x => { x with queued := some (stepRun handle step seed tokens lr 0 id h.tag) })) t)) ∧
  (∀ h step seed tokens lr handle (s t : State), Fits (.stepStart h step seed tokens lr handle) → Comes 0x0501 [2] false h s t →
    (t.ctx h.ctx).stepAllowed step seed tokens = false →
    exec (.stepStart h step seed tokens lr handle) s = .next (replied 0x0501 h stBadParam 0 t)) ∧
  -- STEP_BEGIN at a boundary that finds every start message: plan beat 0
  (∀ ctx r p (s t : State), Fits (.stepBegin ctx) → s.clk.cycle = 0 → s.sendStart ctx = t → (t.ctx ctx).waiting = some r → (t.ctx ctx).ownStart ≠ none →
    (t.ctx ctx).missing t.myPos r = [] → ((t.ctx ctx).isRedo r = false ∨ (t.ctx ctx).commits.any (fun m => m.2.inf) = false) →
    (t.ctx ctx).takeover = none → (t.ctx ctx).part.held = false →
    t.lead ctx ≠ none → t.setFor ctx r.handle 1 = some p → p.freeze = (t.ctx ctx).nextFreeze →
    exec (.stepBegin ctx) s = .next (t.beginStep ctx r p)) ∧
  (∀ ctx (s : State), Fits (.stepBegin ctx) → s.clk.cycle ≠ 0 → exec (.stepBegin ctx) s = .next s) ∧
  (∀ ctx r (s t : State), Fits (.stepBegin ctx) → s.clk.cycle = 0 → s.sendStart ctx = t → (t.ctx ctx).waiting = some r →
    (t.ctx ctx).missing t.myPos r ≠ [] → exec (.stepBegin ctx) s = .next t) ∧
  -- STEP_COMPLETE waits for every parcel
  (∀ ctx r (s : State), Fits (.stepComplete ctx) → (s.ctx ctx).run = some r → (s.ctx ctx).allThere s.myPos r.step = false →
    exec (.stepComplete ctx) s = .next s) ∧
  -- with all of them the step is complete
  (∀ ctx r (s : State), Fits (.stepComplete ctx) → (s.ctx ctx).run = some r → r.kind = .step → r.started = true → r.ending = none →
    (s.ctx ctx).st ≠ .fenced → (s.ctx ctx).allThere s.myPos r.step = true → exec (.stepComplete ctx) s = .next (s.completed ctx r)) ∧
  -- it is the last completed step, the norm goes out and in, the run closes OK with its beats, held beats and attempts, the queued one follows
  (∀ ctx r n (s t u : State), (s.ctx ctx).ownNorm s.myPos r.step = n →
    ((s.ctx ctx).peersOf s.myPos).foldl (fun s q => s.fctl ctx q 3 (leBytes 2 ctx ++ leBytes 4 r.step ++ leBytes 8 n.toNat)) (s.onCtx ctx (fun x => { x with
      last := r.step, newFz := [], bumped := [], counts := x.bumped.foldl (fun (t : Tab Nat) g => t.upd 0 g (· + 1)) x.counts })) = t →
    normIn ctx s.myPos r.step n t = u → u.clk.cycle = 0 →
    s.completed ctx r = ((u.closeRun ctx stOk (sat 32 (((u.ctx ctx).now.map StepNow.beats).getD 0) + sat 24 (((u.ctx ctx).now.map StepNow.held).getD 0) * 2 ^ 32 +
      sat 8 (((u.ctx ctx).now.map StepNow.attempts).getD 0) * 2 ^ 56)).onCtx ctx (fun x => { x with run := x.queued, queued := none })).sendStart ctx) ∧
  -- EVAL_START of a set of kind 2 with nothing running and no step to redo
  (∀ h handle tokens seed p (s t : State), Fits (.evalStart h handle tokens seed) → Comes 0x0502 [1] false h s t → t.setFor h.ctx handle 2 = some p →
    (t.ctx h.ctx).run = none → (t.ctx h.ctx).now.any StepNow.ended = false → t.planRuns h.ctx = false →
    exec (.evalStart h handle tokens seed) s = .next (longAccepted 0x0502 h .eval handle 0 (fun id u =>
      startedRun h.ctx (otherRun .eval handle seed tokens id h.tag) (((t.ctx h.ctx).last + 1) % 2) h.cyc p u) t)) ∧
  (∀ h handle tokens seed (s t : State), Fits (.evalStart h handle tokens seed) → Comes 0x0502 [1] false h s t → t.setFor h.ctx handle 2 = none →
    exec (.evalStart h handle tokens seed) s = .next (replied 0x0502 h stBadParam 0 t)) ∧
  -- STEP_STATUS: last completed step, state and attempt
  (∀ h (s t : State), Fits (.stepStatus h) → Comes 0x0503 [1] false h s t →
    exec (.stepStatus h) s = .next (replied 0x0503 h stOk ((t.ctx h.ctx).last + (t.ctx h.ctx).stepState.1 * 2 ^ 32 + (t.ctx h.ctx).stepState.2 * 2 ^ 40) t)) ∧
  (∀ x : Ctx, x.run = none → x.now.any StepNow.ended = false → x.stepState.1 = 0) ∧
  (∀ (x : Ctx) r, x.run = some r → r.kind = .step → r.started = true → x.stepState = (1, r.attempt)) ∧
  (∀ (x : Ctx) r, x.run = some r → r.kind = .step → r.started = false → x.stepState = (2, r.attempt)) ∧
  (∀ x : Ctx, x.run = none → x.now.any StepNow.ended = true → x.stepState.1 = 3) ∧
  (∀ (x : Ctx) r, x.run = some r → r.kind = .eval → x.stepState.1 = 4)


/-! Chapters 10, 11 and 14: fabric and optimiser commands. -/

/-- FABRIC_TOPOLOGY, POD_CONFIG, LINK_WIDTH and LINK_RETRAIN complete (R280, R282, R286, R292, R354). -/
def Obligations.LinkCommandsComplete : Prop :=
  -- FABRIC_TOPOLOGY: 16 bytes of header and 16 of each link
  (∀ h x (s t : State), Fits (.fabricTopology h x) → Comes 0x0601 [1] false h s t → t.refBad h.src x = none → t.ha.cxl = true →
    exec (.fabricTopology h x) s = .next (answered 0x0601 h x t.topology t)) ∧
  (∀ s : State, s.topology.length = 1040) ∧
  -- POD_CONFIG: read, then BAD_PARAM or pending; contexts with a run under way keep the old configuration
  (∀ h x (s t : State), Fits (.podConfig h x) → Comes 0x0602 [1] true h s t → t.refBad h.src x = none → t.ha.cxl = true →
    exec (.podConfig h x) s = .next (longAccepted 0x0602 h .podConfig 0 0 (fun id u => u.readFor x h.ctx h.tag id (fun b v => v.takePod id b)) t)) ∧
  (∀ id b (s : State), podForm b (readPod b) = true → s.podFine (readPod b) = true →
    s.takePod id b = { s with pod := { s.pod with pending := some (readPod b, id) }
                              ctxs := s.ctxs.mapV {} (fun _ y => { y with oldPod := y.oldPod || y.run.any (fun r => r.started) }) }) ∧
  (∀ id b (s : State), (podForm b (readPod b) = false ∨ s.podFine (readPod b) = false) → s.takePod id b = s.finish id stBadParam 0) ∧
  (∀ x c tag id k b (s u : State), s.readRef x c tag = (u, .ok b) → s.readFor x c tag id k = k b u) ∧
  (∀ x c tag id k d (s u : State), s.readRef x c tag = (u, .error d) → s.readFor x c tag id k = u.finish id stFaulted d) ∧
  -- LINK_WIDTH: the cap is set; one wider than the narrowing in progress is DEFERRED behind it
  (∀ h n v (s t : State), Fits (.linkWidth h n v) → Comes 0x0603 [1] true h s t → n < 64 → v < 16 → v % 2 = 0 → (t.link n).st ≠ 0 → (t.link n).widens v = false →
    exec (.linkWidth h n v) s = .next (longAccepted 0x0603 h .linkWidth n 0 (fun id u => u.capLink n (fun l => { l with cfg := BitVec.ofNat 32 v }) [id]) t)) ∧
  (∀ h n v (s t : State), Fits (.linkWidth h n v) → Comes 0x0603 [1] true h s t → n < 64 → v < 16 → v % 2 = 0 → (t.link n).st ≠ 0 → (t.link n).widens v = true →
    exec (.linkWidth h n v) s = .next (Verdict.apply h 0x0603 (.accept stDeferred .linkWidth n 0
      (fun id u => u.onLink n (fun l => { l with widen := some (v, (l.widen.map Prod.snd).getD [] ++ [id]) })) t))) ∧
  -- LINK_RETRAIN: the retraining begins and takes over what a narrowing in progress answers; of a retraining link: BUSY; of one not present: BAD_PARAM
  (∀ h n (s t : State), Fits (.linkRetrain h n) → Comes 0x0604 [1] true h s t → n < 64 → (t.link n).st ≠ 0 → (t.link n).st ≠ 4 →
    (t.link n).narrowing = none → (t.link n).widen = none →
    exec (.linkRetrain h n) s = .next (longAccepted 0x0604 h .linkRetrain n 0
      (fun id u => (u.onLink n (fun l => { l with retrain := l.retrain ++ l.narrowing.getD [] ++ (l.widen.map Prod.snd).getD [] ++ [id], narrowing := none
                                                  cfg := (l.widen.map (fun w => BitVec.ofNat 32 w.1)).getD l.cfg, widen := none })).beginRetrain n) t)) ∧
  (∀ h n (s t : State), Fits (.linkRetrain h n) → Comes 0x0604 [1] true h s t → n < 64 → (t.link n).st = 4 →
    exec (.linkRetrain h n) s = .next (replied 0x0604 h stBusy 0 t)) ∧
  (∀ h n (s t : State), Fits (.linkRetrain h n) → Comes 0x0604 [1] true h s t → (t.link n).st = 0 →
    exec (.linkRetrain h n) s = .next (replied 0x0604 h stBadParam 0 t))

/-- OPT_CONFIG, OPT_PARCEL_MAP, OPT_SCALE_LOAD, OPT_GROUP, OPT_FREEZE, OPT_STATE_INIT, OPT_NORMS, OPT_AUDIT, OPT_HOST_DONE, CAPSULE_SEAL and
CAPSULE_OPEN complete (R96, R97, R239 to R241, R255, R269 to R274, R342, R355, R426). -/
def Obligations.OptimiserCommandsComplete : Prop :=
  -- OPT_CONFIG applies now, or is DEFERRED to the next step start while a step runs
  (∀ h flags hr sat down (s t : State), Fits (.optConfig h flags hr sat down) → Comes 0x0701 [1] false h s t → flags < 4 → hr ≤ 3 → 1 ≤ sat → sat ≤ 4 →
    1 ≤ down → down ≤ 4 → (t.ctx h.ctx).inStep = false →
    exec (.optConfig h flags hr sat down) s =
      .next (replied 0x0701 h stOk 0 (t.onCtx h.ctx (fun x => x.applyDef (.config (flags + hr * 2 ^ 8 + sat * 2 ^ 16 + down * 2 ^ 24)))))) ∧
  (∀ h flags hr sat down (s t : State), Fits (.optConfig h flags hr sat down) → Comes 0x0701 [1] false h s t → flags < 4 → hr ≤ 3 → 1 ≤ sat → sat ≤ 4 →
    1 ≤ down → down ≤ 4 → (t.ctx h.ctx).inStep = true →
    exec (.optConfig h flags hr sat down) s = .next (Verdict.apply h 0x0701 (.accept stDeferred .config h.ctx 0
      (fun id u => u.onCtx h.ctx (fun x => { x with deferred := x.deferred ++ [(.config (flags + hr * 2 ^ 8 + sat * 2 ^ 16 + down * 2 ^ 24), id)] })) t))) ∧
  -- OPT_PARCEL_MAP: read, then in force; which extents the buddy holds is a free value (entry 65)
  (∀ h count x (s t : State), Fits (.optParcelMap h count x) → Comes 0x0702 [1] false h s t → t.refBad h.src x = none → t.ha.cxl = true → count ≤ 2 ^ 24 →
    256 + 16 * count ≤ x.dlen → (t.ctx h.ctx).busyRun = false →
    exec (.optParcelMap h count x) s = .next (longAccepted 0x0702 h .parcelMap h.ctx 0
      (fun id u => u.readFor x h.ctx h.tag id (fun b v => v.takeMap h.ctx id (readMap count b))) t)) ∧
  (∀ c id m (s : State), Tab.wf {} s.ctxs = true → s.mapFine c m = true → s.linksTo c 65 = [] → s.takeMap c id m =
    if m.2.any (fun e => decide (e.owner = s.myPos) && !Config.buddyHolds s.clk.beat c e.bext) = true then s.finish id stBadParam 0
    else (s.onCtx c (fun x => x.withMap s.myPos m)).finish id stOk 0) ∧
  -- OPT_SCALE_LOAD: codes the format has, into the tables named
  (∀ h first tables count x (s t : State), Fits (.optScaleLoad h first tables count x) → Comes 0x0703 [1] false h s t → t.refBad h.src x = none →
    t.ha.cxl = true → tables < 4 → first + count ≤ (t.ctx h.ctx).pmap.length → count ≤ x.dlen → (t.ctx h.ctx).busyRun = false →
    exec (.optScaleLoad h first tables count x) s = .next (ranNow 0x0703 h .config
      (fun u => u.readThen x h.ctx h.tag (fun b v => v.takeScales h.ctx first tables ((b.take count).map BitVec.toNat))) t)) ∧
  (∀ c first v (s : State), v.all (fun n => decide (n ≤ wMax (s.ctx c).e4m3)) = true →
    s.takeScales c first 1 v = (s.onCtx c (fun x => { x with scaleCur := v.zipIdx.foldl (fun (t : Tab Nat) q => t.set 0x7F (first + q.2) q.1) x.scaleCur }), stOk, 0)) ∧
  -- OPT_GROUP with a group block; without one NO_RESOURCE
  (∀ h group r (s t : State), Fits (.optGroup h group r) → Comes 0x0704 [3] false h s t → grRule r ≠ 15 → group < 64 → groupForm r = true →
    (t.ctx h.ctx).groupKeeps group r = true → (t.ctx h.ctx).gblk ≠ none → (t.ctx h.ctx).inStep = false →
    exec (.optGroup h group r) s = .next (replied 0x0704 h stOk 0 (t.onCtx h.ctx (fun x => x.applyDef (.group group r))))) ∧
  (∀ h group r (s t : State), Fits (.optGroup h group r) → Comes 0x0704 [3] false h s t → grRule r ≠ 15 → group < 64 → groupForm r = true →
    (t.ctx h.ctx).groupKeeps group r = true → (t.ctx h.ctx).gblk = none → exec (.optGroup h group r) s = .next (replied 0x0704 h stNoResource 0 t)) ∧
  -- OPT_FREEZE: one bit for each parcel; DETAIL is the set's digest
  (∀ h count x b (s t u : State), Fits (.optFreeze h count x) → Comes 0x0705 [1] false h s t → t.refBad h.src x = none → t.ha.cxl = true →
    count = (t.ctx h.ctx).pmap.length → (count + 7) / 8 ≤ x.dlen → t.readRef x h.ctx h.tag = (u, .ok b) → (u.ctx h.ctx).inStep = false →
    exec (.optFreeze h count x) s =
      .next (replied 0x0705 h stOk (sha64 (b.take ((count + 7) / 8))) (u.onCtx h.ctx (fun x => x.applyDef (.freeze (b.take ((count + 7) / 8))))))) ∧
  -- OPT_STATE_INIT of own parcels: their states entered, their mirrors awaited; a parcel of another owner: DENIED
  (∀ h first flags count x ps (s t : State), Fits (.optStateInit h first flags count x) → Comes 0x0706 [1] false h s t → (t.ctx h.ctx).range first count = ps →
    first + count ≤ (t.ctx h.ctx).pmap.length → ps.all (fun q => decide (q.2.owner = t.myPos)) = true → t.refBad h.src x = none → t.ha.cxl = true → flags < 2 →
    ps.foldl (fun a q => a + (t.ctx h.ctx).stateBytes q.2 (bit flags 0)) 0 ≤ x.dlen → (t.ctx h.ctx).busyRun = false →
    exec (.optStateInit h first flags count x) s = .next (longAccepted 0x0706 h .stateInit count 0 (fun id u =>
      u.readFor x h.ctx h.tag id (fun b v => (v.awaitMirrors h.ctx id (ps.map Prod.fst)).putParcels h.ctx (bit flags 0) ps b)) t)) ∧
  (∀ h first flags count x (s t : State), Fits (.optStateInit h first flags count x) → Comes 0x0706 [1] false h s t →
    first + count ≤ (t.ctx h.ctx).pmap.length → ((t.ctx h.ctx).range first count).any (fun q => decide (q.2.owner ≠ t.myPos)) = true →
    exec (.optStateInit h first flags count x) s = .next (replied 0x0706 h stDenied 0 t)) ∧
  -- OPT_NORMS of a step that is kept
  (∀ h step x r (s t : State), Fits (.optNorms h step x) → Comes 0x0707 [1] false h s t → t.refBad h.src x = none → t.ha.cxl = true →
    (t.ctx h.ctx).recs.find? (fun r => r.step = step) = some r →
    exec (.optNorms h step x) s = .next (answered 0x0707 h x ((t.ctx h.ctx).normsOut t.myPos r) t)) ∧
  -- OPT_AUDIT: the owned parcels of the range one after the other; DETAIL parcels and faults
  (∀ h first flags count ds (s t : State), Fits (.optAudit h first flags count ds) → Comes 0x0708 [1] false h s t → flags < 2 →
    first + count ≤ (t.ctx h.ctx).pmap.length → (t.ctx h.ctx).busyRun = false →
    exec (.optAudit h first flags count ds) s = .next (ranNow 0x0708 h .config (fun u => (fun ps : List (Nat × PEnt) =>
      ((ps.foldl (auditParcel h.ctx (bit flags 0) ds) (u, 0)).1, stOk, ps.length + sat 32 (ps.foldl (auditParcel h.ctx (bit flags 0) ds) (u, 0)).2 * 2 ^ 32))
      (((t.ctx h.ctx).range first count).filter (fun q => q.2.owner = u.myPos))) t)) ∧
  -- OPT_HOST_DONE of an update outstanding in the step: its new master is read, and the commit goes on
  (∀ h parcel attempt step e b (s t u : State), Fits (.optHostDone h parcel attempt step) → Comes 0x0709 [1] false h s t → (t.ctx h.ctx).hostAssist = true →
    (t.ctx h.ctx).hostOut.any (fun o => decide (o.1 = parcel ∧ o.2.1 = attempt)) = true → (t.ctx h.ctx).stepOn = some (step, attempt) →
    (t.ctx h.ctx).pent parcel = some e → t.readPart h.ctx (e.mext, 262144 * ((t.ctx h.ctx).commits.get {} parcel).newslot, 262144) = (u, .ok b) →
    exec (.optHostDone h parcel attempt step) s = .next (replied 0x0709 h stOk 0
      ((u.onCtx h.ctx (fun x => { x with hostOut := x.hostOut.filter (fun o => o.1 ≠ parcel) })).finishUpdate h.ctx parcel e
        ((t.ctx h.ctx).commits.get {} parcel).newslot step attempt (le32s b) none))) ∧
  (∀ h parcel attempt step (s t : State), Fits (.optHostDone h parcel attempt step) → Comes 0x0709 [1] false h s t → (t.ctx h.ctx).hostAssist = false →
    exec (.optHostDone h parcel attempt step) s = .next (replied 0x0709 h stDenied 0 t)) ∧
  -- CAPSULE_SEAL with EXPORT: sealed for its recipients; too short an output NO_RESOURCE with the size it needs; without EXPORT DENIED
  (∀ h first count recips x ps (s t : State), Fits (.capsuleSeal h first count recips x) → Comes 0x070A [1 + (3 * recips.length + 1) / 2] false h s t →
    (t.ctx h.ctx).export_ = true → (t.ctx h.ctx).range first count = ps → ps.all (fun q => decide (q.2.owner = t.myPos)) = true → t.refBad h.src x = none →
    t.ha.cxl = true → 1 ≤ recips.length → recips.length ≤ 8 → first + count ≤ (t.ctx h.ctx).pmap.length → (t.ctx h.ctx).inStep = false →
    928 + (t.ctx h.ctx).payloadLen ps + 16 + 96 + t.tr.certs.length ≤ x.dlen →
    exec (.capsuleSeal h first count recips x) s = .next (ranNow 0x070A h .config (fun u => u.sealCapsule h.ctx h.tag first count recips x) t)) ∧
  (∀ h first count recips x (s t : State), Fits (.capsuleSeal h first count recips x) → Comes 0x070A [1 + (3 * recips.length + 1) / 2] false h s t →
    (t.ctx h.ctx).export_ = false → exec (.capsuleSeal h first count recips x) s = .next (replied 0x070A h stDenied 0 t)) ∧
  (∀ c tag first count recips x l k (s u : State), s.readStates c ((s.ctx c).range first count) = (u, .ok l) →
    u.capsule c first count recips (((s.ctx c).range first count).any (fun q => grBf ((s.ctx c).groupOf q.2))) ((s.ctx c).payload l) = k →
    s.sealCapsule c tag first count recips x = ((k.1.writeRef x (k.2 ++ k.1.tr.certs)).1, (k.1.writeRef x (k.2 ++ k.1.tr.certs)).2.1,
      (k.1.writeRef x (k.2 ++ k.1.tr.certs)).2.2)) ∧
  -- CAPSULE_OPEN with IMPORT: read, opened, its parcels written; without IMPORT DENIED
  (∀ h x (s t : State), Fits (.capsuleOpen h x) → Comes 0x070B [1] false h s t → (t.ctx h.ctx).import_ = true → t.refBad h.src x = none → t.ha.cxl = true →
    exec (.capsuleOpen h x) s = .next (longAccepted 0x070B h .capsuleOpen 0 0
      (fun id u => u.readFor x h.ctx h.tag id (fun b v => v.takeCapsule h.ctx id b)) t)) ∧
  (∀ h x (s t : State), Fits (.capsuleOpen h x) → Comes 0x070B [1] false h s t → (t.ctx h.ctx).import_ = false →
    exec (.capsuleOpen h x) s = .next (replied 0x070B h stDenied 0 t)) ∧
  -- a capsule that does not fit the map, or does not open: BAD_PARAM, DENIED
  (∀ c id b (s : State), (s.ctx c).capsuleFits s.myPos b = false → s.takeCapsule c id b = s.finish id stBadParam 0) ∧
  (∀ c id b (s : State), (s.ctx c).capsuleFits s.myPos b = true → s.tr.openCapsule (b.take ((s.ctx c).capsuleLen b)) (b.drop ((s.ctx c).capsuleLen b)) = none →
    s.takeCapsule c id b = s.finish id stDenied 0)


/-! Chapters 14, 16 and 18: telemetry, power policy, tests, the log and traces. -/

/-- TELEM_READ, LEDGER_READ, METER_READ, POWER_POLICY and CLOCK_SET complete (R22, R23, R353, R356, R387, R389). -/
def Obligations.PowerCommandsComplete : Prop :=
  -- TELEM_READ: the unit's registers, eight bytes each; of a unit the context may not read: DENIED
  (∀ h unit x (s t : State), Fits (.telemRead h unit x) → Comes 0x0801 [1] false h s t → uidOk unit = true → (h.sys = true ∨ t.telemOk h.ctx unit = true) →
    t.refBad h.src x = none → t.ha.cxl = true →
    exec (.telemRead h unit x) s = .next (answered 0x0801 h x ((t.telemRegs unit).flatMap (leBytes 8)) t)) ∧
  (∀ h unit x (s t : State), Fits (.telemRead h unit x) → Comes 0x0801 [1] false h s t → uidOk unit = true → h.sys = false → t.telemOk h.ctx unit = false →
    exec (.telemRead h unit x) s = .next (replied 0x0801 h stDenied 0 t)) ∧
  (∀ s : State, s.telemRegs uidKeeper = [s.gvStat0, s.gvStat1, s.piStat]) ∧
  -- LEDGER_READ: the records from a step on in step order, evaluation records where asked for
  (∀ h first count flags x (s t : State), Fits (.ledgerRead h first count flags x) → Comes 0x0802 [1] false h s t → 1 ≤ count → count ≤ 4096 → flags < 2 →
    t.refBad h.src x = none → t.ha.cxl = true →
    exec (.ledgerRead h first count flags x) s = .next (answered 0x0802 h x
      (((((t.ctx h.ctx).ledger.filter (fun l => decide (first ≤ l.step) && (!l.eval || bit flags 0))).foldl (fun a l => ledgerIn l a) []).take count).flatMap
        (fun l => l.bytes h.ctx)) t)) ∧
  -- METER_READ: DETAIL is the energy in µJ
  (∀ h (s t : State), Fits (.meterRead h) → Comes 0x0803 [1] false h s t → exec (.meterRead h) s = .next (replied 0x0803 h stOk ((t.ctx h.ctx).meter / 1000) t)) ∧
  -- POWER_POLICY: 1 to 21,000 W, from the next boundary
  (∀ h cap share (s t : State), Fits (.powerPolicy h cap share) → Comes 0x0804 [1] true h s t → 1 ≤ cap → cap ≤ 21000 →
    exec (.powerPolicy h cap share) s = .next (replied 0x0804 h stOk 0 { t with gov := { t.gov with policyNext := some (cap, share) } })) ∧
  (∀ h cap share (s t : State), Fits (.powerPolicy h cap share) → Comes 0x0804 [1] true h s t → (cap = 0 ∨ 21000 < cap) →
    exec (.powerPolicy h cap share) s = .next (replied 0x0804 h stBadParam 0 t)) ∧
  -- CLOCK_SET: m_min at once, the spread setting from the next boundary, a stretch order where the setting is below m_min
  (∀ h mmin flags (s t : State), Fits (.clockSet h mmin flags) → Comes 0x0805 [1] true h s t → 64 ≤ mmin → mmin ≤ 192 → flags < 2 →
    exec (.clockSet h mmin flags) s = .next (longAccepted 0x0805 h .clockSet 0 0 (fun id u => (fun v : State =>
      if u.clk.m < mmin then v.orderStretch mmin (u.clk.beat + 1) else v)
        { u with gov := { u.gov with mmin := mmin, clockSet := u.gov.clockSet ++ [id] }, clk := { u.clk with spreadNext := some (!bit flags 0) } }) t))

/-- PATTERN_LOAD, TEST_RUN, TEST_ABORT, TEST_UNIT_DONE and TEST_TIME_LIMIT complete (R357, R429 to R438). -/
def Obligations.TestCommandsComplete : Prop :=
  -- PATTERN_LOAD: read, then SIGNATURE, BAD_PARAM or in its slot with a record; BUSY while a test names the slot
  (∀ h slot x (s t : State), Fits (.patternLoad h slot x) → Comes 0x0901 [1] true h s t → slot < 16 → t.refBad h.src x = none → t.ha.cxl = true →
    t.slotInTest slot = false →
    exec (.patternLoad h slot x) s = .next (ranNow 0x0901 h .bind (fun u => u.readThen x h.ctx h.tag (fun b v => v.takePack slot b)) t)) ∧
  (∀ h slot x (s t : State), Fits (.patternLoad h slot x) → Comes 0x0901 [1] true h s t → slot < 16 → t.refBad h.src x = none → t.ha.cxl = true →
    t.slotInTest slot = true → exec (.patternLoad h slot x) s = .next (replied 0x0901 h stBusy 0 t)) ∧
  (∀ slot b (s : State), (b.length < packEnd b + 96 ∨ verify s.tr.patternKey (b.take (packEnd b)) ((b.drop (packEnd b)).take 96) = false) →
    s.takePack slot b = (s, stSignature, 0)) ∧
  (∀ slot b (s : State), packEnd b + 96 ≤ b.length → verify s.tr.patternKey (b.take (packEnd b)) ((b.drop (packEnd b)).take 96) = true →
    s.packOk slot b = true →
    s.takePack slot b = (({ s with tr := { s.tr with packs := s.tr.packs.set none slot (some (packOf b)) } } : State).logRec 0x31 0 0xFFFF 6
      (leBytes 2 slot ++ leBytes 2 (packOf b).id ++ leBytes 2 (packOf b).ver), stOk, (packOf b).ver)) ∧
  -- TEST_RUN of a region or a cluster: its clusters are queued; of a stack controller or a link: it starts
  (∀ h unit slot corner x (s t : State), Fits (.testRun h unit slot corner x) → Comes 0x0902 [1] false h s t → uidOk unit = true →
    (uClass unit = 3 ∨ uClass unit = 4) → t.mayTest h unit = true → slot < 16 → corner < 8 → corner % 4 ≠ 3 → (t.region (uRegion unit)).st ≠ .closed →
    t.refBad h.src x = none → t.ha.cxl = true → t.tr.packs.get none slot ≠ none → 32 * (testUnits unit).length ≤ x.dlen → t.testBusy unit corner = false →
    exec (.testRun h unit slot corner x) s = .next (longAccepted 0x0902 h .testRun unit 0 (fun id u =>
      withTests (newTests id slot corner x (testUnits unit)) u) t)) ∧
  (∀ h unit slot corner x (s t : State), Fits (.testRun h unit slot corner x) → Comes 0x0902 [1] false h s t → uidOk unit = true → uClass unit = 0x10 →
    t.mayTest h unit = true → slot < 16 → corner < 8 → corner % 4 ≠ 3 → (t.sc (uSub unit)).serving = true →
    t.refBad h.src x = none → t.ha.cxl = true → t.tr.packs.get none slot ≠ none → 32 ≤ x.dlen → t.testBusy unit corner = false →
    exec (.testRun h unit slot corner x) s = .next (longAccepted 0x0902 h .testRun unit 0 (fun id u =>
      ((newTests id slot corner x [unit]).foldl State.tryTest (withTests (newTests id slot corner x [unit]) u)).closeTests) t)) ∧
  (∀ h unit slot corner x (s t : State), Fits (.testRun h unit slot corner x) → Comes 0x0902 [1] false h s t → uidOk unit = true → testClass unit = true →
    t.mayTest h unit = false → exec (.testRun h unit slot corner x) s = .next (replied 0x0902 h stDenied 0 t)) ∧
  -- TEST_ABORT of a test the context started: ACCEPTED, for the next boundary; of none: BAD_PARAM
  (∀ h unit (s t : State), Fits (.testAbort h unit) → Comes 0x0903 [1] false h s t → uidOk unit = true → t.tr.tests.any (t.abortsTest h.ctx unit) = true →
    exec (.testAbort h unit) s = .next (longAccepted 0x0903 h .testAbort unit h.ctx (fun _ u => u) t)) ∧
  (∀ h unit (s t : State), Fits (.testAbort h unit) → Comes 0x0903 [1] false h s t → t.tr.tests.any (t.abortsTest h.ctx unit) = false →
    exec (.testAbort h unit) s = .next (replied 0x0903 h stBadParam 0 t)) ∧
  -- TEST_UNIT_DONE of a cluster: back in service, its failed sites shadowed, its result kept
  (∀ unit f tu (s : State), Fits (.testUnitDone unit f) → s.testOn unit = some tu → uClass unit = 3 → (s.region (uRegion unit)).cd = .on →
    exec (.testUnitDone unit f) s = .next ((((s.testRelease tu).failSites unit f.cls (dedup (f.failed.filter (· < 20)))).testResult tu
      (b2n (decide (dedup (f.failed.filter (· < 20)) ≠ []))) (if dedup (f.failed.filter (· < 20)) = [] then 0 else f.cls) (mask32 (dedup (f.failed.filter (· < 20))))
      (20 - (dedup (f.failed.filter (· < 20))).length) (dedup (f.failed.filter (· < 20))).length).closeTests)) ∧
  -- of a link
  (∀ unit f tu (s : State), Fits (.testUnitDone unit f) → s.testOn unit = some tu → uClass unit = 0x12 → f.failed = [] →
    exec (.testUnitDone unit f) s = .next ((s.testResult { tu with volt := f.volt } 0 0 0 1 0).closeTests)) ∧
  (∀ unit f (s : State), Fits (.testUnitDone unit f) → s.testOn unit = none → exec (.testUnitDone unit f) s = .next s) ∧
  -- TEST_TIME_LIMIT: past its pack's TMAX_MS a test ends with RESULT 1; not before
  (∀ unit tu p (s : State), Fits (.testTimeLimit unit) → s.testOn unit = some tu → s.tr.packs.get none tu.slot = some p → tu.since + thirds p.tmax < s.clk.wall →
    exec (.testTimeLimit unit) s = .next (((s.testRelease tu).testResult tu 1 0 0 0 (if uClass unit = 3 then 20 else 1)).closeTests)) ∧
  (∀ unit tu p (s : State), Fits (.testTimeLimit unit) → s.testOn unit = some tu → s.tr.packs.get none tu.slot = some p → s.clk.wall ≤ tu.since + thirds p.tmax →
    exec (.testTimeLimit unit) s = .next s)

/-- LOG_READ, LOG_STATUS, TRACE_CONFIG, TRACE_WINDOW_END, LOG_RATE_WINDOW_END and POWER_FAIL_CAPTURE complete (R358, R439 to R441). -/
def Obligations.LogCommandsComplete : Prop :=
  -- LOG_READ of records that are kept: 256 bytes each, zero bytes for one that does not concern the ring's context
  (∀ h first count x (s t : State), Fits (.logRead h first count x) → Comes 0x0A01 [1] false h s t → t.log.oldest ≤ first → first + count ≤ t.log.next →
    t.refBad h.src x = none → t.ha.cxl = true →
    exec (.logRead h first count x) s = .next (answered 0x0A01 h x ((List.range count).flatMap (fun i => t.logBytes h.src (first + i))) t)) ∧
  (∀ h first count x (s t : State), Fits (.logRead h first count x) → Comes 0x0A01 [1] false h s t → (first < t.log.oldest ∨ t.log.next < first + count) →
    t.refBad h.src x = none → exec (.logRead h first count x) s = .next (replied 0x0A01 h stBadParam 0 t)) ∧
  (∀ c i r (s : State), s.log.recs.find? (fun p => p.1 = i) = some (i, r) → r.ctx ≠ c → c ≠ 0 → s.logBytes (.ring c) i = List.replicate 256 0#8) ∧
  (∀ i r (s : State), s.log.recs.find? (fun p => p.1 = i) = some (i, r) → s.logBytes (.ring 0) i = r.bytes i) ∧
  -- LOG_STATUS: next and oldest index
  (∀ h (s t : State), Fits (.logStatus h) → Comes 0x0A02 [1] false h s t →
    exec (.logStatus h) s = .next (replied 0x0A02 h stOk (t.log.next + t.log.oldest * 2 ^ 32) t)) ∧
  -- TRACE_CONFIG: a start opens a trace; a stop ends the context's traces of the unit; without TRACE: DENIED
  (∀ h unit start stop x (s t : State), Fits (.traceConfig h unit 1 start stop x) → Comes 0x0A03 [2] false h s t → (t.ctx h.ctx).trace_ = true →
    uidOk unit = true → (h.sys = true ∨ t.telemOk h.ctx unit = true) → t.refBad h.src x = none → t.ha.cxl = true →
    exec (.traceConfig h unit 1 start stop x) s = .next (longAccepted 0x0A03 h .trace unit 0 (fun id u =>
      { u with tr := { u.tr with traces := u.tr.traces ++ [⟨id, unit, start, stop, x, h.src.dataCtx, 0, []⟩] } }) t)) ∧
  (∀ h unit start stop x (s t : State), Fits (.traceConfig h unit 0 start stop x) → Comes 0x0A03 [2] false h s t → (t.ctx h.ctx).trace_ = true →
    uidOk unit = true → (h.sys = true ∨ t.telemOk h.ctx unit = true) →
    exec (.traceConfig h unit 0 start stop x) s = .next (longAccepted 0x0A03 h .trace unit 0 (fun id u =>
      ((u.tracesOf h unit).foldl (fun s t => s.endTrace t stOk t.n) u).finish id stOk ((u.tracesOf h unit).foldl (fun a t => a + t.n) 0)) t)) ∧
  (∀ h unit flags start stop x (s t : State), Fits (.traceConfig h unit flags start stop x) → Comes 0x0A03 [2] false h s t → (t.ctx h.ctx).trace_ = false →
    exec (.traceConfig h unit flags start stop x) s = .next (replied 0x0A03 h stDenied 0 t)) ∧
  -- TRACE_WINDOW_END: the unit's traces whose window is over end OK with the records written
  (∀ unit (s : State), Fits (.traceWindowEnd unit) → exec (.traceWindowEnd unit) s =
    .next ((s.tr.traces.filter (fun t => decide (t.unit = unit) && decide (t.stop ≤ s.now))).foldl (fun s t => s.endTrace t stOk t.n) s)) ∧
  -- LOG_RATE_WINDOW_END after 1 ms: a new window; a summary stands for what was dropped
  (∀ s : State, Fits .logRateWindowEnd → s.log.winStart + thirds 1 ≤ s.clk.wall → s.log.dropped = 0 → exec .logRateWindowEnd s = .next { s with
    log := { s.log with winStart := s.log.winStart + thirds 1, winStamp := s.now, winRecs := 0, dropped := 0, dropCls := 0, dropUnit := 0, dropStamp := 0 } }) ∧
  (∀ u s : State, Fits .logRateWindowEnd → s.log.winStart + thirds 1 ≤ s.clk.wall → s.log.dropped ≠ 0 →
    (s.logRec 3 2 0xFFFF 28 (leBytes 4 s.log.dropped ++ leBytes 2 s.log.dropCls ++ leBytes 2 0 ++ leBytes 4 s.log.dropUnit ++ leBytes 8 s.log.dropStamp ++
      leBytes 8 s.log.winStamp)).postFault s.log.dropUnit s.log.dropCls s.log.next 0 = u →
    exec .logRateWindowEnd s = .next { u with log := { u.log with
      winStart := s.log.winStart + thirds 1, winStamp := s.now, winRecs := 0, dropped := 0, dropCls := 0, dropUnit := 0, dropStamp := 0 } }) ∧
  (∀ s : State, Fits .logRateWindowEnd → s.clk.wall < s.log.winStart + thirds 1 → exec .logRateWindowEnd s = .next s) ∧
  -- POWER_FAIL_CAPTURE below a mean of 44 V: compute off, the capture written, and the wafer dark
  (∀ u v s : State, Fits .powerFailCapture → s.inputsLow = true → s.tr.boot ≠ .standby →
    ({ s with regions := allRegions.foldl (fun (t : Tab Region) r => t.upd {} r (fun g => { g with cd := .off, cdQueued := false })) s.regions } : State) = u →
    u.capture = v → exec .powerFailCapture s = .next { v with
      ha := { v.ha with ready := false, warm := false, cxl := false, trained := false }, tr := { v.tr with boot := .standby, wafer := false } }) ∧
  (∀ s : State, Fits .powerFailCapture → s.inputsLow = false → exec .powerFailCapture s = .next s)


/-! Chapters 14 and 19: trust and system commands. -/

/-- ATTEST, OFFICER_ENROL, OFFICER_RETIRE and CERT_READ complete (R359, R446, R449 to R453). -/
def Obligations.TrustCommandsComplete : Prop :=
  -- ATTEST: 512 bytes with the nonce, then the module's signature over their digest
  (∀ h nonce x (s t : State), Fits (.attest h nonce x) → Comes 0x0B02 [2] false h s t → t.refBad h.src x = none → t.ha.cxl = true →
    exec (.attest h nonce x) s = .next (answered 0x0B02 h x (t.report512 nonce ++ t.tr.sign (sha384 (t.report512 nonce))) t)) ∧
  -- CERT_READ: the identity certificate, then the device CA's
  (∀ h x (s t : State), Fits (.certRead h x) → Comes 0x0B05 [1] false h s t → t.refBad h.src x = none → t.ha.cxl = true →
    exec (.certRead h x) s = .next (answered 0x0B05 h x (t.tr.idCert ++ t.tr.caCert) t)) ∧
  -- OFFICER_ENROL: a good key whose holder signed, with the officers a change needs: in its slot, OGEN up by one, recorded
  (∀ h slot key blks (s t : State), Fits (.officerEnrol h slot key blks) → Comes 0x0B03 [h.len] true h s t → h.len = 5 + 4 * blks.length → blks.length ≤ 3 →
    t.tr.newKeyOk key = true → blks.head?.map SigBlk.slot = some 0xFF →
    t.tr.blocksOk (some (key.take 97)) (t.tr.statement 3 slot t.tr.ogen.toNat (sha384 (key.take 97))) blks = true → min 2 t.tr.officers.length ≤ officersIn blks →
    slot < 8 → t.tr.officers.get [] slot = [] →
    exec (.officerEnrol h slot key blks) s = .next (replied 0x0B03 h stOk 0
      (({ t with tr := { t.tr with officers := t.tr.officers.set [] slot (key.take 97), ogen := t.tr.ogen + 1 } } : State).protRec h 3 slot
        (t.tr.ogen + 1).toNat blks false []))) ∧
  (∀ h slot key blks (s t : State), Fits (.officerEnrol h slot key blks) → Comes 0x0B03 [h.len] true h s t → h.len = 5 + 4 * blks.length → 1 ≤ blks.length →
    blks.length ≤ 3 → t.tr.newKeyOk key = true →
    t.tr.blocksOk (some (key.take 97)) (t.tr.statement 3 slot t.tr.ogen.toNat (sha384 (key.take 97))) blks = false →
    exec (.officerEnrol h slot key blks) s = .next (replied 0x0B03 h stSignature 0 t)) ∧
  -- OFFICER_RETIRE: signed by at least one officer, by two where two are enrolled: the slot is empty, OGEN up by one, recorded
  (∀ h slot blks (s t : State), Fits (.officerRetire h slot blks) → Comes 0x0B04 [h.len] true h s t → h.len = 1 + 4 * blks.length → 1 ≤ blks.length →
    blks.length ≤ 2 → t.tr.blocksOk none (t.tr.statement 4 slot t.tr.ogen.toNat []) blks = true → max 1 (min 2 t.tr.officers.length) ≤ officersIn blks →
    slot < 8 → t.tr.officers.get [] slot ≠ [] →
    exec (.officerRetire h slot blks) s = .next (replied 0x0B04 h stOk 0
      (({ t with tr := { t.tr with officers := t.tr.officers.set [] slot [], ogen := t.tr.ogen + 1 } } : State).protRec h 4 slot
        (t.tr.ogen + 1).toNat blks false []))) ∧
  (∀ h slot blks (s t : State), Fits (.officerRetire h slot blks) → Comes 0x0B04 [h.len] true h s t → h.len = 1 + 4 * blks.length → 1 ≤ blks.length →
    blks.length ≤ 2 → t.tr.blocksOk none (t.tr.statement 4 slot t.tr.ogen.toNat []) blks = false →
    exec (.officerRetire h slot blks) s = .next (replied 0x0B04 h stSignature 0 t))

/-- RESET, REGION_MAP_READ, RIM_CONFIG, BEAT_MODE, FW_STAGE and DEFECT_MAP_READ complete (R15, R35, R220, R242, R360, R376, R384, R448). -/
def Obligations.SystemCommandsComplete : Prop :=
  -- RESET of a tile or a cluster, on the system ring: ordered for its boundary, or joined to an order that covers it
  (∀ h level unit (s t : State), Fits (.reset h level unit) → Comes 0x0C01 [1] false h s t → h.sys = true → h.mgmt = false → level ≤ 1 → uidOk unit = true →
    uClass unit = (if level = 0 then 1 else 3) →
    exec (.reset h level unit) s = .next (longAccepted 0x0C01 h .reset level 0
      (fun id u => u.orderReset level (if level = 0 then uTile unit else 4 * uRegion unit + uCluster unit) [id] false) t)) ∧
  -- of the context's partition
  (∀ h unit (s t : State), Fits (.reset h 2 unit) → Comes 0x0C01 [1] false h s t → h.mgmt = false →
    exec (.reset h 2 unit) s = .next (longAccepted 0x0C01 h .reset 2 0 (fun id u => u.orderReset 2 h.ctx [id] false) t)) ∧
  -- of the module: asked for, with the system ring or the management port as its trigger
  (∀ h unit (s t : State), Fits (.reset h 3 unit) → Comes 0x0C01 [1] false h s t → h.sys = true →
    exec (.reset h 3 unit) s = .next (longAccepted 0x0C01 h .reset 3 0 (fun id u => u.askWarm (if h.mgmt then 2 else 1) h.tag [id]) t)) ∧
  -- a context ring may reset its partition alone, the management port the module alone
  (∀ h level unit (s t : State), Fits (.reset h level unit) → Comes 0x0C01 [1] false h s t → ((h.sys = false ∧ level ≠ 2) ∨ (h.mgmt = true ∧ level ≠ 3)) →
    exec (.reset h level unit) s = .next (replied 0x0C01 h stDenied 0 t)) ∧
  (∀ level party ids byFault (s : State), s.resets.find? (fun o => s.covers o level party) = none →
    s.orderReset level party ids byFault = { s with resets := s.resets ++ [⟨level, party, s.clk.beat + reach s.clk.cycle, ids, byFault⟩] }) ∧
  -- REGION_MAP_READ and DEFECT_MAP_READ write their tables
  (∀ h x (s t : State), Fits (.regionMapRead h x) → Comes 0x0C02 [1] true h s t → t.refBad h.src x = none → t.ha.cxl = true →
    exec (.regionMapRead h x) s = .next (answered 0x0C02 h x (allRegions.flatMap (fun r => leBytes 8 (t.region r).entry)) t)) ∧
  (∀ h x (s t : State), Fits (.defectMapRead h x) → Comes 0x0C06 [1] true h s t → t.refBad h.src x = none → t.ha.cxl = true →
    exec (.defectMapRead h x) s = .next (answered 0x0C06 h x t.tr.defectOut t)) ∧
  -- RIM_CONFIG of a fitted stack controller: its regulator and its reduction SRAM from the next boundary
  (∀ h n rg rd (s t : State), Fits (.rimConfig h (2 ^ n) 3 rg rd) → Comes 0x0C03 [1] true h s t → n < 24 →
    (2 ^ n &&& (t.tr.variant.map Variant.scmask).getD 0) = 2 ^ n → rgOk rg = true → rdOk rd = true → (t.sc n).egress = [] → (t.sc n).owners = [] →
    exec (.rimConfig h (2 ^ n) 3 rg rd) s = .next (replied 0x0C03 h stOk 0
      (t.onSc n (fun k => { k with rgNext := some (BitVec.ofNat 32 rg), rdNext := some (BitVec.ofNat 32 rd) })))) ∧
  -- BUSY while it holds a buffer in use
  (∀ h n rg rd (s t : State), Fits (.rimConfig h (2 ^ n) 2 rg rd) → Comes 0x0C03 [1] true h s t → n < 24 →
    (2 ^ n &&& (t.tr.variant.map Variant.scmask).getD 0) = 2 ^ n → rdOk rd = true → ((t.sc n).egress ≠ [] ∨ (t.sc n).owners ≠ []) →
    exec (.rimConfig h (2 ^ n) 2 rg rd) s = .next (replied 0x0C03 h stBusy 0 t)) ∧
  -- BEAT_MODE: kept for the next warm reset; a follower's delay is 0 to 1,000 or found by measurement
  (∀ h mode flags delay (s t : State), Fits (.beatMode h mode flags delay) → Comes 0x0C04 [1] true h s t → mode ≤ 1 → flags < 2 → delay ≤ 1000 →
    ¬(mode = 1 ∧ bit flags 0 = true) →
    exec (.beatMode h mode flags delay) s = .next (replied 0x0C04 h stOk 0
      { t with clk := { t.clk with modeNext := some ⟨decide (mode = 1), bit flags 0, some delay⟩ } })) ∧
  (∀ h delay (s t : State), Fits (.beatMode h 1 1 delay) → Comes 0x0C04 [1] true h s t →
    exec (.beatMode h 1 1 delay) s = .next (replied 0x0C04 h stOk 0 { t with clk := { t.clk with modeNext := some ⟨true, true, none⟩ } })) ∧
  -- FW_STAGE: read, then SIGNATURE, BAD_PARAM, or into the slot that did not boot
  (∀ h x (s t : State), Fits (.fwStage h x) → Comes 0x0C05 [1] true h s t → t.refBad h.src x = none → t.ha.cxl = true →
    exec (.fwStage h x) s = .next (ranNow 0x0C05 h .bind (fun u => u.readThen x h.ctx h.tag (fun b v => v.stage b)) t)) ∧
  (∀ b (s : State), s.tr.fwOk b = false → s.stage b = (s, stSignature, 0)) ∧
  (∀ b (s : State), s.tr.fwOk b = true → fwSection b 4 = none →
    s.stage b = (({ s with tr := { s.tr with fw := s.tr.fw.set [] (1 - s.tr.bootSlot) (fwImage b), staged := true } } : State).logRec 0x13 0 0xFFFF 52
      (leBytes 4 (fwVer b) ++ sha384 (fwImage b)), stOk, fwVer b))


/-! Chapter 15: resets, domains, boots. -/

/-- TILE_RESET, CLUSTER_RESET, PARTITION_RESET and COMPUTE_DOMAIN_ON complete (R12, R376 to R379, R383). -/
def Obligations.ResetCommandsComplete : Prop :=
  -- what a tile keeps: its scratchpad words, with valid check codes, its library and its map, and the end of a zero-fill under way; all else is at its reset value,
  -- and the beat of the reset is noted, in which its mesh slots are still absorbed
  (∀ b (t : Tile), t.resetNow b = { mem := t.mem, lib := t.lib, routines := t.routines, map := t.map, moved := t.moved, scrubEnd := t.scrubEnd, resetAt := some b }) ∧
  -- TILE_RESET at the boundary it was ordered for; the fence of a tile in its zero-fill holds until the fill is done
  (∀ tile o (s : State), Fits (.tileReset tile) → s.clk.cycle = 0 → s.resets.find? (fun q => decide (q.level = 0) && decide (q.party = tile) && decide (q.beat ≤ s.clk.beat)) = some o →
    exec (.tileReset tile) s = .next (if s.fillsFenced tile then s else
      (((s.resetServes (tile / 64) o.byFault).onTile tile (Tile.resetNow (s.resetServes (tile / 64) o.byFault).clk.beat)).reclaim
        (fun l => decide (uClass l.holder = 1) && decide (uTile l.holder = tile))).endReset o)) ∧
  (∀ tile (s : State), Fits (.tileReset tile) → (s.clk.cycle ≠ 0 ∨ ∀ q ∈ s.resets, ¬(q.level = 0 ∧ q.party = tile ∧ q.beat ≤ s.clk.beat)) →
    exec (.tileReset tile) s = .next s) ∧
  -- the partition's step ends, FAULTED from fault recovery and ABORTED from RESET, and is held until the host starts a plan again
  (∀ r byFault u (s : State), (s.abortStreams 8 (fun q => decide (q.ctx = s.serves r))).dropReds (s.serves r) = u → isUser (s.serves r) = true →
    (u.ctx (s.serves r)).run.any Run.started = true →
    s.resetServes r byFault = ((u.endRun (s.serves r) (if byFault then stFaulted else stAborted) noCause).askHold (s.serves r) (uidRc r) .plan).askHold (s.serves r)
      (uidRc r) .restart) ∧
  -- CLUSTER_RESET: its sixteen tiles, and the remap that waited for it
  (∀ region cluster o (s : State), Fits (.clusterReset region cluster) → s.dueReset 1 (4 * region + cluster) = some o →
    exec (.clusterReset region cluster) s = .next (if (List.range 16).any (fun i => s.fillsFenced (64 * region + 16 * cluster + i)) then s else
      ((((List.range 16).foldl (fun u i => u.onTile (64 * region + 16 * cluster + i) (Tile.resetNow u.clk.beat)) (s.resetServes region o.byFault)).remapCluster region cluster).reclaim
        (fun l => decide (uClass l.holder = 1) && decide (uTile l.holder / 16 = 4 * region + cluster))).endReset o)) ∧
  (∀ region cluster (s : State), Fits (.clusterReset region cluster) → s.dueReset 1 (4 * region + cluster) = none → exec (.clusterReset region cluster) s = .next s) ∧
  -- PARTITION_RESET: runs ended, streams and descriptors aborted, buffers freed, leases reclaimed, every tile reset, the sequence cleared
  (∀ ctx o u v (s : State), Fits (.partitionReset ctx) → s.dueReset 2 ctx = some o →
    (((s.killRuns ctx (if o.byFault then stFaulted else stAborted) noCause).abortStreams 8 (fun q => decide (q.ctx = ctx))).dropReds ctx).freeBuffers ctx = u →
    u.reclaim (fun l => (decide (uClass l.holder ≤ 6) && (dedup (u.bound ctx ++ u.working ctx)).contains (uRegion l.holder)) ||
      (decide (l.kind = 4) && decide (l.ctx = ctx))) = v →
    exec (.partitionReset ctx) s = .next (if (tilesOf (s.working ctx)).any s.fillsFenced then s else
      ((v.onTiles (v.working ctx) (Tile.resetNow v.clk.beat)).onPart ctx (fun p =>
      { p with seq := [], startAt := none, begun := false, holds := p.holds.filter (fun h => h.why ≠ .plan ∧ h.why ≠ .fence) })).endReset o)) ∧
  (∀ ctx (s : State), Fits (.partitionReset ctx) → s.dueReset 2 ctx = none → exec (.partitionReset ctx) s = .next s) ∧
  -- the commands a reset answers get OK
  (∀ o (s : State), s.endReset o = ({ s with resets := s.resets.filter (· ≠ o) } : State).finishAll o.longs stOk 0) ∧
  -- COMPUTE_DOMAIN_ON: at a boundary, behind any switch-off, with every tile reset
  (∀ region (s : State), Fits (.computeDomainOn region) → s.clk.cycle = 0 → (s.region region).cdQueued = true → (s.region region).cd = .off →
    (s.region region).st ≠ .closed → (s.region region).st ≠ .transitLost →
    exec (.computeDomainOn region) s = .next ((s.onTiles [region] (fun t => { moved := t.moved })).onRegion region (fun g =>
      { g with cd := .on, cdQueued := false, vset := Config.voltTable s.clk.m region, vready := s.clk.m }))) ∧
  (∀ region (s : State), Fits (.computeDomainOn region) → (s.clk.cycle ≠ 0 ∨ (s.region region).cdQueued = false ∨ (s.region region).cd ≠ .off) →
    exec (.computeDomainOn region) s = .next s)

/-- COLD_BOOT, MODULE_WARM_RESET, KEEPER_WATCHDOG and COOLANT_WAIT_TIMEOUT complete (R318, R363, R366, R367, R380, R381, R448, R459, R466). -/
def Obligations.BootCommandsComplete : Prop :=
  -- COLD_BOOT from standby with every input live: step 1, then the rest where the coolant allows, else the wait
  (∀ b (s : State), Fits (.coldBoot b) → s.tr.boot = .standby → s.allLive = true → s.bootOpen.coolantFit = true →
    exec (.coldBoot b) s = .next (s.bootOpen.bootOn b)) ∧
  (∀ b (s : State), Fits (.coldBoot b) → s.tr.boot = .standby → s.allLive = true → s.bootOpen.coolantFit = false →
    exec (.coldBoot b) s = .next { s.bootOpen with tr := { s.bootOpen.tr with boot := .coolantWait } }) ∧
  -- no boot while an input is not live, and none of a module that runs and was not asked
  (∀ b (s : State), Fits (.coldBoot b) → s.tr.boot = .standby → s.tr.coldAsked = false → s.allLive = false → exec (.coldBoot b) s = .next s) ∧
  (∀ b (s : State), Fits (.coldBoot b) → s.tr.boot = .ready → s.tr.coldAsked = false → exec (.coldBoot b) s = .next s) ∧
  -- steps 2 to 9: no image that verifies: ROM recovery; no variant certificate that fits: no-variant mode; else the whole boot
  (∀ b (s : State), s.tr.tryFw = none → s.bootOn b = s.bootRom b) ∧
  (∀ b k (s : State), s.tr.tryFw = some k → (s.bootLoad k).tr.variantOk (s.bootLoad k).tr.varCert b.present = false →
    s.bootOn b = (s.bootLoad k).bootBare b k (decide (some k ≠ s.tr.slotOrder.head?))) ∧
  (∀ b k (s : State), s.tr.tryFw = some k → (s.bootLoad k).tr.variantOk (s.bootLoad k).tr.varCert b.present = true →
    s.bootOn b = (s.bootLoad k).bootFull b k (decide (some k ≠ s.tr.slotOrder.head?))) ∧
  -- ready raises the minimum SVN to the image's, and it never falls
  (∀ c (s : State), ∃ u : State, s.bootReady c = ((({ u with tr := { u.tr with warmLongs := [] } } : State).coldRec c).finishAll s.tr.warmLongs stOk 0) ∧
    u.ha.ready = true ∧ u.tr.boot = .ready ∧ u.tr.minSvn = max s.tr.minSvn s.tr.svn) ∧
  -- COOLANT_WAIT_TIMEOUT: stopped on the wait, with the readings and its record
  (∀ inlet flow (s : State), Fits (.coolantWaitTimeout inlet flow) → s.tr.boot = .coolantWait → ∃ u v : State, exec (.coolantWaitTimeout inlet flow) s = .next v ∧
    v = u.coldRec { phase := 4, times := [Config.freeNat s.free], fail := 2048 } ∧ u.tr.boot = .coolantStop ∧ u.gov.inlet = inlet ∧ u.gov.flow = flow) ∧
  (∀ inlet flow (s : State), Fits (.coolantWaitTimeout inlet flow) → s.tr.boot ≠ .coolantWait → exec (.coolantWaitTimeout inlet flow) s = .next s) ∧
  -- MODULE_WARM_RESET: step 1 at a boundary once asked for, then the bring-up
  (∀ b (s : State), Fits (.moduleWarmReset b) → s.tr.boot = .ready → s.tr.warmTrigger ≠ 0 → s.clk.cycle = 0 → exec (.moduleWarmReset b) s = .next s.warmStop) ∧
  (∀ b (s : State), Fits (.moduleWarmReset b) → s.tr.boot = .warm → exec (.moduleWarmReset b) s = .next (s.warmStart b)) ∧
  (∀ b (s : State), Fits (.moduleWarmReset b) → s.tr.boot = .ready → (s.tr.warmTrigger = 0 ∨ s.clk.cycle ≠ 0) → exec (.moduleWarmReset b) s = .next s) ∧
  -- a trigger asks for one; the first stands
  (∀ trigger tag ids (s : State), s.tr.boot = .ready → s.tr.wdCold = false → s.askWarm trigger tag ids =
    (if s.tr.warmTrigger = 0 then { s with tr := { s.tr with warmTrigger := trigger, warmTag := tag, warmLongs := s.tr.warmLongs ++ ids } }
      else { s with tr := { s.tr with warmLongs := s.tr.warmLongs ++ ids } })) ∧
  -- KEEPER_WATCHDOG: counted over 60 s, recorded, and a warm reset asked for; the third makes the next reset a cold boot
  (∀ checkpoint pc lastFeed (s : State), Fits (.keeperWatchdog checkpoint pc lastFeed) → ∃ u v : State,
    exec (.keeperWatchdog checkpoint pc lastFeed) s = .next { v with tr := { v.tr with wdCold := v.tr.wdCold || decide (3 ≤ u.tr.wdTimes.length) } } ∧
    u.tr.wdTimes = s.tr.wdTimes.filter (fun t => decide (s.clk.wall < t + thirds 60000)) ++ [s.clk.wall] ∧
    v = ((u.logRec 0x12 0 0xFFFF 40 (leBytes 4 s.tr.fwver ++ leBytes 4 checkpoint ++ leBytes 4 pc ++ leBytes 1 (min 255 u.tr.wdTimes.length) ++ leBytes 3 0 ++
      leBytes 8 lastFeed ++ leBytes 8 s.haStat ++ leBytes 8 s.gvStat0)).keeperFault fcKeeperWatchdog uidKeeper 0 0 []).askWarm 3 0 [])


/-! Chapters 16 and 17: heat, faults and recovery. -/

/-- REGION_SENSOR_SAMPLE, HEAT_HIGH, HEAT_OFF_RECOVERY, STACK_SENSOR_SAMPLE and COOLANT_SAMPLE complete (R392, R393, R395 to R399). -/
def Obligations.HeatCommandsComplete : Prop :=
  -- REGION_SENSOR_SAMPLE below 95 °C: taken, with REGION_POWER_HIGH in the first beat above the region's power limit
  (∀ region smp droops (s : State), Fits (.regionSensorSample region smp droops) → (s.region region).gone = false → smp.hottest < 380 →
    s.regionOver region smp = false →
    exec (.regionSensorSample region smp droops) s = .next (s.onRegion region (Region.sampled s.clk.m smp (dedup (droops.filter (· < 4))) false))) ∧
  (∀ region smp droops (s : State), Fits (.regionSensorSample region smp droops) → (s.region region).gone = false → smp.hottest < 380 →
    s.regionOver region smp = true → (s.region region).overBeats = 0 →
    exec (.regionSensorSample region smp droops) s = .next
      ((s.onRegion region (Region.sampled s.clk.m smp (dedup (droops.filter (· < 4))) true)).report
        ⟨fcRegionPowerHigh, uidRc region, (s.onRegion region (Region.sampled s.clk.m smp (dedup (droops.filter (· < 4))) true)).now, 0, 0,
          (s.onRegion region (Region.sampled s.clk.m smp (dedup (droops.filter (· < 4))) true)).serves region, []⟩)) ∧
  (∀ region smp droops (s : State), Fits (.regionSensorSample region smp droops) → (s.region region).gone = false → smp.hottest < 380 →
    s.regionOver region smp = true → (s.region region).overBeats ≠ 0 →
    exec (.regionSensorSample region smp droops) s = .next (s.onRegion region (Region.sampled s.clk.m smp (dedup (droops.filter (· < 4))) true))) ∧
  -- at 95 °C the work moves where it can
  (∀ region smp droops u (s : State), Fits (.regionSensorSample region smp droops) → (s.region region).gone = false → (s.region region).st = .active → (s.region region).cd = .on →
    380 ≤ smp.hottest → smp.hottest < 440 → s.regionOver region smp = false → s.onRegion region (Region.sampled s.clk.m smp (dedup (droops.filter (· < 4))) false) = u →
    isUser (u.serves region) = true → (u.ctx (u.serves region)).moving region = false →
    exec (.regionSensorSample region smp droops) s = .next (u.coolDown region smp.hottest)) ∧
  -- at 110 °C the region switches its own compute off
  (∀ region smp droops (s : State), Fits (.regionSensorSample region smp droops) → (s.region region).gone = false → (s.region region).cd = .on →
    440 ≤ smp.hottest → s.regionOver region smp = false →
    exec (.regionSensorSample region smp droops) s = .next (tripRegion region (s.onRegion region (Region.sampled s.clk.m smp (dedup (droops.filter (· < 4))) false)))) ∧
  -- heat-off at the next boundary, THERMAL_TRIP, leases reclaimed, up to the third trip within 24 hours
  (∀ r trips (s : State), (s.region r).trips.filter (fun t => decide (s.clk.wall < t + thirds 86400000)) = trips → trips.length < 2 →
    tripRegion r s = (((s.report ⟨fcThermalTrip, uidRc r, s.now, 0, 0, s.serves r, []⟩).onRegion r (fun g =>
      { g.goTo .heatOff g.peer with trips := trips ++ [s.clk.wall], heatTrip := true, coolBeats := 0 }.turnOff)).reclaim
        (fun l => decide (l.kind = 3 ∧ l.idx = r) || (decide (l.kind = 4) && decide (uRegion l.res = r)))).tryNext (s.movesTo r)) ∧
  -- then shadowed, with its defect map entry, the coolant inlet being within limits
  (∀ r (s : State), 2 ≤ ((s.region r).trips.filter (fun t => decide (s.clk.wall < t + thirds 86400000))).length → 60 ≤ s.gov.inlet → s.gov.inlet ≤ 160 →
    tripRegion r s = ((((s.report ⟨fcThermalTrip, uidRc r, s.now, 0, 0, s.serves r, []⟩).addDefect (uidComp r) 2 2 fcThermalTrip 0).onRegion r (fun g =>
      { g.goTo .shadowed g.peer with trips := [], heatTrip := true, coolBeats := 0 }.turnOff)).reclaim
        (fun l => decide (l.kind = 3 ∧ l.idx = r) || (decide (l.kind = 4) && decide (uRegion l.res = r)))).tryNext (s.movesTo r)) ∧
  (∀ region smp droops (s : State), Fits (.regionSensorSample region smp droops) → (s.region region).gone = true →
    exec (.regionSensorSample region smp droops) s = .next s) ∧
  -- HEAT_HIGH: 64 beats at 102 °C and no region to move to; a test in the region stops
  (∀ region (s : State), Fits (.heatHigh region) → 64 ≤ (s.region region).hotBeats → (s.region region).cd = .on →
    (∀ t ∈ allRegions, s.canHost region t (fun q => decide ((s.region q).tmax + 60 ≤ (s.region region).tmax)) = false) →
    exec (.heatHigh region) s = .next ((s.onRegion region (fun g => { g with high := true })).reclaim
      (fun l => decide (l.kind = 4) && decide (uRegion l.res = region)))) ∧
  (∀ region (s : State), Fits (.heatHigh region) → ((s.region region).hotBeats < 64 ∨ (s.region region).cd ≠ .on) → exec (.heatHigh region) s = .next s) ∧
  -- HEAT_OFF_RECOVERY: 1024 beats below 90 °C after a trip: standby at the next boundary
  (∀ region (s : State), Fits (.heatOffRecovery region) → (s.region region).st = .heatOff → (s.region region).heatTrip = true →
    1024 ≤ (s.region region).coolBeats →
    exec (.heatOffRecovery region) s = .next (s.onRegion region (fun g => { g.goTo .standby noRegion with heatTrip := false, coolBeats := 0 }))) ∧
  (∀ region (s : State), Fits (.heatOffRecovery region) → ((s.region region).heatTrip = false ∨ (s.region region).coolBeats < 1024) →
    exec (.heatOffRecovery region) s = .next s) ∧
  -- STACK_SENSOR_SAMPLE: half the granules from 95 °C, none from 105 °C until below 100 °C
  (∀ sc temp (s : State), Fits (.stackSensorSample sc temp) → (s.sc sc).serving = true → 105 ≤ temp → (s.sc sc).limit ≠ 2 →
    exec (.stackSensorSample sc temp) s = .next ((s.onSc sc (fun c => { c with temp := temp, limit := 2 })).report
      ⟨fcStackOvertemp, uidSc sc, (s.onSc sc (fun c => { c with temp := temp, limit := 2 })).now, 0, 0, 0, []⟩)) ∧
  (∀ sc temp (s : State), Fits (.stackSensorSample sc temp) → (s.sc sc).serving = true → (s.sc sc).limit = 2 → 100 ≤ temp →
    exec (.stackSensorSample sc temp) s = .next (s.onSc sc (fun c => { c with temp := temp, limit := 2 }))) ∧
  (∀ sc temp (s : State), Fits (.stackSensorSample sc temp) → (s.sc sc).serving = true → 95 ≤ temp → (temp < 100 ∨ ((s.sc sc).limit ≠ 2 ∧ temp < 105)) →
    exec (.stackSensorSample sc temp) s = .next (s.onSc sc (fun c => { c with temp := temp, limit := 1 }))) ∧
  (∀ sc temp (s : State), Fits (.stackSensorSample sc temp) → (s.sc sc).serving = true → temp < 95 →
    exec (.stackSensorSample sc temp) s = .next (s.onSc sc (fun c => { c with temp := temp, limit := 0 }))) ∧
  -- COOLANT_SAMPLE: the readings, derating above 40 °C, and outside the shutdown limits COOLANT_FAULT with every compute domain off
  (∀ inlet outlet flow (s : State), Fits (.coolantSample inlet outlet flow) → inlet ≤ 180 → 180 ≤ flow → outlet ≤ 260 →
    exec (.coolantSample inlet outlet flow) s = .next
      { s with gov := { s.gov with inlet := inlet, outlet := outlet, flow := flow, derate := decide (160 < inlet) } }) ∧
  (∀ inlet outlet flow u (s : State), Fits (.coolantSample inlet outlet flow) → (180 < inlet ∨ flow < 180 ∨ 260 < outlet) → s.tr.wafer = true →
    s.gov.coolOff = false → ({ s with gov := { s.gov with inlet := inlet, outlet := outlet, flow := flow, derate := decide (160 < inlet) } } : State) = u →
    exec (.coolantSample inlet outlet flow) s = .next (u.shutdown fcCoolantFault []))

/-- REPETITION, RC_FAULT, RC_SILENT and TRANSIT_SUPPLY_LOSS complete (R337, R413 to R415, R420, R421). -/
def Obligations.FaultCommandsComplete : Prop :=
  -- REPETITION of a fenced tile's fault, its partition held: the second record, then the site's loss, or the tile's reset
  (∀ idx r p (s : State), Fits (.repetition idx r) → s.log.reps.find? (fun p => p.idx = idx) = some p → (s.tile (uTile p.rep.unit)).fenced = true →
    r.aborted = false → (s.ctx p.rep.ctx).part.held = true → (repeatResult p.rep.cls r = 2 ∨ repeatResult p.rep.cls r = 6) →
    exec (.repetition idx r) s = .next ((repeated idx p r s).loseSite (uTile p.rep.unit) p.rep.cls idx)) ∧
  -- a site that passes again is suspect for 24 hours, and lost the second time
  (∀ idx r p (s : State), Fits (.repetition idx r) → s.log.reps.find? (fun p => p.idx = idx) = some p → (s.tile (uTile p.rep.unit)).fenced = true →
    r.aborted = false → (s.ctx p.rep.ctx).part.held = true → (repeatResult p.rep.cls r = 1 ∨ repeatResult p.rep.cls r = 4) →
    s.suspectUnit p.rep.unit = false → (s.ctx p.rep.ctx).st ≠ .fenced →
    exec (.repetition idx r) s = .next (((repeated idx p r s).markSuspect (uTile p.rep.unit)).orderReset 0 (uTile p.rep.unit) [] true)) ∧
  (∀ idx r p (s : State), Fits (.repetition idx r) → s.log.reps.find? (fun p => p.idx = idx) = some p → (s.tile (uTile p.rep.unit)).fenced = true →
    r.aborted = false → (s.ctx p.rep.ctx).part.held = true → (repeatResult p.rep.cls r = 1 ∨ repeatResult p.rep.cls r = 4) →
    s.suspectUnit p.rep.unit = true →
    exec (.repetition idx r) s = .next ((repeated idx p r s).loseSite (uTile p.rep.unit) p.rep.cls idx)) ∧
  -- where another site fails as well, the tile is reset alone
  (∀ idx r p (s : State), Fits (.repetition idx r) → s.log.reps.find? (fun p => p.idx = idx) = some p → (s.tile (uTile p.rep.unit)).fenced = true →
    r.aborted = false → (s.ctx p.rep.ctx).part.held = true → repeatResult p.rep.cls r = 3 → (s.ctx p.rep.ctx).st ≠ .fenced →
    exec (.repetition idx r) s = .next ((repeated idx p r s).orderReset 0 (uTile p.rep.unit) [] true)) ∧
  (∀ idx r p (s : State), Fits (.repetition idx r) → s.log.reps.find? (fun p => p.idx = idx) = some p → (s.tile (uTile p.rep.unit)).fenced = true →
    r.aborted = false → isUser p.rep.ctx = true → (s.ctx p.rep.ctx).part.held = false → exec (.repetition idx r) s = .next s) ∧
  (∀ idx r (s : State), Fits (.repetition idx r) → s.log.reps.find? (fun p => p.idx = idx) = none → exec (.repetition idx r) s = .next s) ∧
  -- RESULT: 5 aborted; of a reflection mismatch 4 not repeatable, 1 the same site passes, 2 or 3 another site passes or fails, 6 none was free; of
  -- the others 1 or 2
  (∀ cls able same other, repeatResult cls ⟨able, same, other, true⟩ = 5) ∧
  (∀ same other, repeatResult fcReflectMismatch ⟨false, same, other, false⟩ = 4) ∧
  (∀ other, repeatResult fcReflectMismatch ⟨true, true, other, false⟩ = 1) ∧
  (∀ n pass, repeatResult fcReflectMismatch ⟨true, false, some (n, pass), false⟩ = if pass then 2 else 3) ∧
  (repeatResult fcReflectMismatch ⟨true, false, none, false⟩ = 6) ∧
  (∀ cls able same other, cls ≠ fcReflectMismatch → repeatResult cls ⟨able, same, other, false⟩ = if same then 1 else 2) ∧
  -- RC_FAULT: the first within 24 hours: record, fence, its orders lost, partitions through it held, the next controller takes over
  (∀ region u (s : State), Fits (.rcFault region true) → (s.region region).gone = false →
    (s.region region).rcFails.filter (fun t => decide (s.clk.wall < t + thirds 86400000)) = [] → s.keeperFault fcRcFault (uidRc region) 0 0 [] = u →
    exec (.rcFault region true) s = .next ((rcFenced region s.log.next [s.clk.wall] u).takeOver region)) ∧
  -- a second failure, or one its reset does not end, loses the region
  (∀ region ok fails u (s : State), Fits (.rcFault region ok) → (s.region region).gone = false →
    (s.region region).rcFails.filter (fun t => decide (s.clk.wall < t + thirds 86400000)) = fails → (ok = false ∨ fails ≠ []) →
    s.keeperFault fcRcFault (uidRc region) 0 0 [] = u →
    exec (.rcFault region ok) s = .next (((rcFenced region s.log.next (fails ++ [s.clk.wall]) u).takeOver region).loseTransit region)) ∧
  -- RC_SILENT: two aggregation windows without telemetry, and then as a failure of its class
  (∀ region ok (s : State), Fits (.rcSilent region ok) → (s.region region).teleWin + 2 ≤ s.clk.beat / 1024 →
    exec (.rcSilent region ok) s = .next (s.rcFails fcRcSilent region ok)) ∧
  (∀ region ok (s : State), Fits (.rcSilent region ok) → s.clk.beat / 1024 < (s.region region).teleWin + 2 → exec (.rcSilent region ok) s = .next s) ∧
  -- TRANSIT_SUPPLY_LOSS: once
  (∀ region (s : State), Fits (.transitSupplyLoss region) → (s.region region).gone = false →
    exec (.transitSupplyLoss region) s = .next ((s.transitLost region).takeOver region)) ∧
  (∀ region (s : State), Fits (.transitSupplyLoss region) → (s.region region).gone = true → exec (.transitSupplyLoss region) s = .next s) ∧
  -- the controller that takes over is the next to the east, with wrap-around, that is not out itself
  (∀ r q (s : State), r < 80 → q < 10 → 0 < q → (∀ i, 0 < i → i < q → s.rcOut (r / 10 * 10 + (r % 10 + i) % 10) = true) →
    s.rcOut (r / 10 * 10 + (r % 10 + q) % 10) = false → s.successor r = r / 10 * 10 + (r % 10 + q) % 10)


/-! Chapters 18 to 20: the sideband and the inputs. -/

/-- SMBUS_READ_IDENTITY, SMBUS_READ_STATUS, SMBUS_RESET_ARM, SMBUS_RESET_ARM_EXPIRY, SMBUS_RESET_CONFIRM, SMBUS_SET_IPV4, SMBUS_WRITE_SB_CFG,
SMBUS_ALERT_RESPONSE, SMBUS_LOG_INDICES, SMBUS_LOG_SELECT, SMBUS_LOG_READ_LOW, SMBUS_LOG_READ_HIGH, MOD_RST_N_RELEASE, MGMT_PORT_LINK_UP and
MGMT_SESSION_OPEN complete (R443, R455, R463, R473, R474, R477, R482). -/
def Obligations.SidebandCommandsComplete : Prop :=
  -- reads: identity, status, log indices, halves of the selected record
  (∀ s : State, Fits .smbusReadIdentity → s.pwr.standbyUp = true → exec .smbusReadIdentity s = .next (s.smbus
    (leBytes 1 s.ha.variant ++ leBytes 1 0 ++ leBytes 4 s.ha.fwver ++ leBytes 4 s.tr.serial.toNat ++ fitBytes 6 s.tr.mac))) ∧
  (∀ u s : State, Fits .smbusReadStatus → s.pwr.standbyUp = true → s.smbus (leBytes 2 s.smbStatus) = u →
    exec .smbusReadStatus s = .next { u with tr := { u.tr with recsUnread := false, alert := false } }) ∧
  (∀ s : State, Fits .smbusLogIndices → s.pwr.standbyUp = true → exec .smbusLogIndices s = .next (s.smbus (leBytes 4 s.log.next ++ leBytes 4 s.log.oldest))) ∧
  (∀ v (s : State), Fits (.smbusLogSelect v) → s.pwr.standbyUp = true → exec (.smbusLogSelect v) s = .next { s with log := { s.log with smbSel := v } }) ∧
  (∀ s : State, Fits .smbusLogReadLow → s.pwr.standbyUp = true → exec .smbusLogReadLow s = .next (s.smbus (s.smbHalf false))) ∧
  (∀ u s : State, Fits .smbusLogReadHigh → s.pwr.standbyUp = true → s.smbus (s.smbHalf true) = u →
    exec .smbusLogReadHigh s = .next { u with log := { u.log with smbSel := (u.log.smbSel + 1) % 2 ^ 32 } }) ∧
  (∀ high (s : State), (s.log.smbSel < s.log.oldest ∨ s.log.next ≤ s.log.smbSel) → s.smbHalf high = List.replicate 128 0xFF#8) ∧
  -- the two-write reset: armed for 1 s by A5h, confirmed by 5Ah within it
  (∀ s : State, Fits (.smbusResetArm 0xA5) → s.pwr.standbyUp = true →
    exec (.smbusResetArm 0xA5) s = .next { s with tr := { s.tr with armed := some (s.clk.wall + thirds 1000) } }) ∧
  (∀ v (s : State), Fits (.smbusResetArm v) → v ≠ 0xA5 → exec (.smbusResetArm v) s = .next s) ∧
  (∀ t (s : State), Fits .smbusResetArmExpiry → s.tr.armed = some t → t ≤ s.clk.wall → exec .smbusResetArmExpiry s = .next { s with tr := { s.tr with armed := none } }) ∧
  (∀ s : State, Fits .smbusResetArmExpiry → (∀ t, s.tr.armed = some t → s.clk.wall < t) → exec .smbusResetArmExpiry s = .next s) ∧
  (∀ t (s : State), Fits (.smbusResetConfirm 0x5A) → s.pwr.standbyUp = true → s.tr.armed = some t → s.clk.wall < t →
    exec (.smbusResetConfirm 0x5A) s = .next (({ s with tr := { s.tr with armed := none } } : State).askWarm 5 0 [])) ∧
  (∀ v (s : State), Fits (.smbusResetConfirm v) → (v ≠ 0x5A ∨ ∀ t, s.tr.armed = some t → t ≤ s.clk.wall) → exec (.smbusResetConfirm v) s = .next s) ∧
  -- the static address from the next link-up, all zero for DHCP
  (∀ v (s : State), Fits (.smbusSetIpv4 v) → s.pwr.standbyUp = true → exec (.smbusSetIpv4 v) s = .next { s with tr := { s.tr with ipNext := some v } }) ∧
  (∀ v (s : State), Fits .mgmtPortLinkUp → s.pwr.standbyUp = true → s.tr.ipNext = some v → v ≠ List.replicate v.length 0#8 →
    exec .mgmtPortLinkUp s = .next { s with tr := { s.tr with ip := some v } }) ∧
  (∀ s : State, Fits .mgmtPortLinkUp → s.pwr.standbyUp = true → (s.tr.ipNext = none ∨ ∃ n, s.tr.ipNext = some (List.replicate n 0#8)) →
    exec .mgmtPortLinkUp s = .next { s with tr := { s.tr with ip := none } }) ∧
  -- SB_CFG's EDGE; 3 is ignored
  (∀ v (s : State), Fits (.smbusWriteSbCfg v) → s.pwr.standbyUp = true → v % 4 ≠ 3 →
    exec (.smbusWriteSbCfg v) s = .next { s with tr := { s.tr with sbCfg := BitVec.ofNat 32 (v % 4) } }) ∧
  (∀ v (s : State), Fits (.smbusWriteSbCfg v) → v % 4 = 3 → exec (.smbusWriteSbCfg v) s = .next s) ∧
  -- the alert response: the address that the strap pins select, from a module that asserts SMB_ALERT_N
  (∀ sa1 sa0 (s : State), Fits (.smbusAlertResponse sa1 sa0) → s.pwr.standbyUp = true → s.tr.alert = true →
    exec (.smbusAlertResponse sa1 sa0) s = .next (s.smbus (leBytes 1 (2 * (0x4C + 2 * b2n sa1 + b2n sa0))))) ∧
  (∀ sa1 sa0 (s : State), Fits (.smbusAlertResponse sa1 sa0) → s.pwr.standbyUp = true → s.tr.alert = false →
    exec (.smbusAlertResponse sa1 sa0) s = .next (s.smbus [])) ∧
  -- MOD_RST_N: ignored below 1 µs, a warm reset to 1 s, a cold boot beyond; an armed reset is discarded
  (∀ ns (s : State), Fits (.modRstNRelease ns) → ns < 1000 → exec (.modRstNRelease ns) s = .next s) ∧
  (∀ ns (s : State), Fits (.modRstNRelease ns) → 1000 ≤ ns → ns ≤ 10 ^ 9 →
    exec (.modRstNRelease ns) s = .next (({ s with tr := { s.tr with armed := none } } : State).askWarm 4 0 [])) ∧
  (∀ ns (s : State), Fits (.modRstNRelease ns) → 10 ^ 9 < ns →
    exec (.modRstNRelease ns) s = .next { s with tr := { s.tr with armed := none, coldAsked := true } }) ∧
  -- a management session: of an enrolled officer's key, or of any while none is enrolled; its sequence starts at 0
  (∀ id key (s : State), Fits (.mgmtSessionOpen id key) → s.pwr.standbyUp = true → (s.tr.officers = [] ∨ ∃ k, (k, key) ∈ s.tr.officers) →
    exec (.mgmtSessionOpen id key) s = .next { s with tr := { s.tr with sessions := s.tr.sessions.filter (fun x => decide (x.id ≠ id)) ++ [⟨id, 0, []⟩] } }) ∧
  (∀ id key (s : State), Fits (.mgmtSessionOpen id key) → s.tr.officers ≠ [] → (∀ k, (k, key) ∉ s.tr.officers) →
    exec (.mgmtSessionOpen id key) s = .next s) ∧
  -- without standby power none of them answers
  (∀ (c : Instr) (s : State), Fits c → s.pwr.standbyUp = false → c ∈ [Instr.smbusReadIdentity, .smbusReadStatus, .smbusLogIndices, .smbusLogReadLow,
      .smbusLogReadHigh, .mgmtPortLinkUp, .smbusResetArm 0xA5, .smbusResetConfirm 0x5A] → exec c s = .next s)

/-- PX_SENSE_BREAK, INPUT_VALID, INPUT_OVERVOLTAGE, INPUT_RECLOSE, INPUT_OVERCURRENT, INPUT_LOST and AUX_12V_CHANGE complete (R458 to R463, R482). -/
def Obligations.InputCommandsComplete : Prop :=
  -- a broken sense contact opens the connector's three inputs
  (∀ conn (s : State), Fits (.pxSenseBreak conn) → exec (.pxSenseBreak conn) s =
    .next ((((s.onIn (3 * conn) (PwrIn.open_ .sense)).onIn (3 * conn + 1) (PwrIn.open_ .sense)).onIn (3 * conn + 2) (PwrIn.open_ .sense)).supplied)) ∧
  -- a voltage in range closes the stage, unless a trip keeps it open
  (∀ i v (s : State), Fits (.inputValid i v) → 4600 ≤ v → v ≤ 6000 → (s.pwr.ins.get {} i).opened ≠ some .excess →
    ((s.pwr.ins.get {} i).opened = some .current → ∃ t, (s.pwr.ins.get {} i).gone = some t ∧ t + thirds 1000 ≤ s.clk.wall) →
    exec (.inputValid i v) s = .next (s.onIn i (fun x => { x with v := v, live := true, opened := none, gone := none }))) ∧
  (∀ i v (s : State), Fits (.inputValid i v) → 4600 ≤ v → v ≤ 6000 → ((s.pwr.ins.get {} i).opened = some .excess ∨
      (s.pwr.ins.get {} i).opened = some .current ∧ ∀ t, (s.pwr.ins.get {} i).gone = some t → s.clk.wall < t + thirds 1000) →
    exec (.inputValid i v) s = .next (s.onIn i (fun x => { x with v := v, gone := none }))) ∧
  (∀ i v (s : State), Fits (.inputValid i v) → (v < 4600 ∨ 6000 < v) → exec (.inputValid i v) s = .next s) ∧
  -- above 61 V it opens, and closes after a second between 48 V and 58 V
  (∀ i v (s : State), Fits (.inputOvervoltage i v) → 6100 < v →
    exec (.inputOvervoltage i v) s = .next ((s.onIn i (fun x => { x.open_ .excess with v := v })).supplied)) ∧
  (∀ i v (s : State), Fits (.inputOvervoltage i v) → v ≤ 6100 → exec (.inputOvervoltage i v) s = .next s) ∧
  (∀ i v (s : State), Fits (.inputReclose i v) → (s.pwr.ins.get {} i).opened = some .excess → 4800 ≤ v → v ≤ 5800 →
    exec (.inputReclose i v) s = .next (s.onIn i (fun x => { x with v := v, live := true, opened := none, gone := none }))) ∧
  (∀ i v (s : State), Fits (.inputReclose i v) → ((s.pwr.ins.get {} i).opened ≠ some .excess ∨ v < 4800 ∨ 5800 < v) → exec (.inputReclose i v) s = .next s) ∧
  -- above 110 A at once, above 80 A after 5 ms
  (∀ i amps held (s : State), Fits (.inputOvercurrent i amps held) → (s.pwr.ins.get {} i).live = true → (1100 < amps ∨ (800 < amps ∧ 5000 ≤ held)) →
    exec (.inputOvercurrent i amps held) s = .next ((s.onIn i (PwrIn.open_ .current)).supplied)) ∧
  (∀ i amps held (s : State), Fits (.inputOvercurrent i amps held) → amps ≤ 1100 → (amps ≤ 800 ∨ held < 5000) →
    exec (.inputOvercurrent i amps held) s = .next s) ∧
  -- out of range at its source it is no longer live; a current trip notes when the voltage went away
  (∀ i v (s : State), Fits (.inputLost i v) → (v < 4600 ∨ 6000 < v) →
    exec (.inputLost i v) s = .next ((s.onIn i (fun x => { x with v := v, i := 0, live := false, opened := x.opened.orElse (fun _ => some .fitted)
                                                                  gone := if x.opened = some .current ∧ v < 4600 then some (x.gone.getD s.clk.wall) else none })).supplied)) ∧
  (∀ i v (s : State), Fits (.inputLost i v) → 4600 ≤ v → v ≤ 6000 → exec (.inputLost i v) s = .next s) ∧
  -- the auxiliary supply
  (∀ present (s : State), Fits (.aux12vChange present) →
    exec (.aux12vChange present) s = .next (({ s with pwr := { s.pwr with aux := present } } : State).supplied)) ∧
  -- a boot that waits for its coolant stops with any input; without a source the standby domain loses what it holds in no memory
  (∀ s : State, s.tr.boot = .coolantWait → s.allLive = false → s.goDark.pwr.standbyUp = true → s.supplied = s.goDark) ∧
  (∀ s : State, s.tr.boot ≠ .coolantWait → s.pwr.standbyUp = true → s.supplied = s) ∧
  (∀ s : State, s.tr.boot ≠ .coolantWait → s.pwr.standbyUp = false →
    s.supplied = { s with tr := { s.tr with sessions := [], armed := none, ip := none, alert := false } })

/-! Rules over several commands: empty flits, officer signatures, images, packets, formats, frames, memories, reset values. -/

/-- A router slot with nothing to send sends nothing (R178): a merge whose inputs do not both carry data, or carry different tags, gives an empty flit, and
an empty flit, merged or not, goes to every output the entry names as an empty one: no link or channel gets data, and each tile or edge port
named counts an absorbed slot; and a slot that delivers into a tile that absorbs, being fenced, without its compute domain or just reset (R181), is
empty on all its outputs. -/
def Obligations.EmptyFlitsGoOutEmpty : Prop :=
  (∀ opm a b, (a.v = false ∨ b.v = false ∨ a.ptag ≠ b.ptag) → (mergeFlits opm a b).1 = MFlit.empty) ∧
  (∀ opm a b, a.v = true → b.v = true → a.ptag = b.ptag → (mergeFlits opm a b).1.v = true ∧ (mergeFlits opm a b).1.ptag = a.ptag) ∧
  (∀ pos entry cyc w (s x u v : State) (a b : MFlit), Fits (.routerSlot pos entry cyc) → (s.at cyc).landTile pos = x → (x.router pos).routes.get 0 entry = w →
    bit w 63 = true → reSlot w cyc = true → (x.region (pos / 64)).st ≠ .transitLost → reIn w ≤ 4 → reOpm w ≤ 2 → (reOpm w ≠ 0 → reIn2 w ≤ 4) →
    x.schedOn (pos / 64) (rePtag w) (reSched w) = true → (bit (reOut w) 4 = true → x.absorbs pos = false) → takeInput pos cyc w (reIn w) x = (u, a) →
    (if reOpm w = 0 then a.v = false ∧ v = u
     else takeInput pos cyc w (reIn2 w) u = (v, b) ∧ (a.v = false ∨ b.v = false ∨ a.ptag ≠ b.ptag)) →
    exec (.routerSlot pos entry cyc) s =
      .next (([0, 1, 2, 3, 4].filter (fun o => bit (reOut w) o && (decide (o = 4) || (tileNext pos o).isNone))).foldl (fun s _ => s.absorb pos) v)) ∧
  (∀ pos entry cyc w (s x v : State), Fits (.routerSlot pos entry cyc) → (s.at cyc).landTile pos = x → (x.router pos).routes.get 0 entry = w →
    bit w 63 = true → reSlot w cyc = true → (x.region (pos / 64)).st ≠ .transitLost → reIn w ≤ 4 → reOpm w ≤ 2 → (reOpm w ≠ 0 → reIn2 w ≤ 4) →
    x.schedOn (pos / 64) (rePtag w) (reSched w) = true → bit (reOut w) 4 = true → x.absorbs pos = true →
    v = (if reIn w = 4 ∨ (reOpm w ≠ 0 ∧ reIn2 w = 4) then x.absorb pos else x) →
    exec (.routerSlot pos entry cyc) s =
      .next (([0, 1, 2, 3, 4].filter (fun o => bit (reOut w) o && (decide (o = 4) || (tileNext pos o).isNone))).foldl (fun s _ => s.absorb pos) v))

/-- Signature blocks are accepted only as a whole (R451): every block verifies against the key in its slot, its reserved bytes are 0, and no two name one
slot; an empty slot verifies nothing, nor does the slot of a retired officer; a command whose blocks are not accepted, or count too few
officers, is refused with SIGNATURE_REQUIRED, and nothing changes but what taking the packet does. -/
def Obligations.SignatureBlocksAreAcceptedWhole : Prop :=
  (∀ (t : Trust) new stmt bs, t.blocksOk new stmt bs = true ↔
    (∀ b ∈ bs, b.rsv = true ∧ verify (t.blockKey new b.slot) stmt b.sig = true) ∧ (bs.map SigBlk.slot).Nodup) ∧
  (∀ (t : Trust) new stmt b bs, b ∈ bs → t.blockKey new b.slot = [] → t.blocksOk new stmt bs = false) ∧
  (∀ (t : Trust) new stmt k b bs, Tab.wf [] t.officers = true → b ∈ bs → b.slot = k → k < 8 →
    ({ t with officers := t.officers.set [] k [] } : Trust).blocksOk new stmt bs = false) ∧
  (∀ h gen b (s t : State), Fits (.ctxFence h gen b) → Comes 0x0103 [5] true h s t → h.ctx ≠ 0 →
    t.tr.blocksOk none (t.tr.statement 2 h.ctx gen []) [b] = false → exec (.ctxFence h gen b) s = .next (replied 0x0103 h stSignature 0 t)) ∧
  (∀ h ctx gen n0 n1 n2 n3 blks (s t : State), Fits (.protChange h ctx gen n0 n1 n2 n3 blks) →
    Comes 0x0B01 ([6, 10].filter (fun l => decide (l = 2 + 4 * blks.length))) true h s t → h.mgmt = false → ctx ≠ 0 →
    (t.tr.blocksOk none (t.tr.statement 1 ctx gen (sha384 (newWords n0 n1 n2 n3))) blks = false ∨
      officersIn blks < (if widening (t.ctx ctx).grant ⟨n0.toNat, n1.toNat, n2.toNat, n3.toNat⟩ then 2 else 1)) →
    exec (.protChange h ctx gen n0 n1 n2 n3 blks) s = .next (replied 0x0B01 h stSignature 0 t)) ∧
  (∀ h slot key blks (s t : State), Fits (.officerEnrol h slot key blks) →
    Comes 0x0B03 ([9, 13, 17].filter (fun l => decide (l = 5 + 4 * blks.length))) true h s t → t.tr.newKeyOk key = true →
    (blks.head?.map SigBlk.slot ≠ some 0xFF ∨ t.tr.blocksOk (some (key.take 97)) (t.tr.statement 3 slot t.tr.ogen.toNat (sha384 (key.take 97))) blks = false ∨
      officersIn blks < t.tr.needed) →
    exec (.officerEnrol h slot key blks) s = .next (replied 0x0B03 h stSignature 0 t)) ∧
  (∀ h slot blks (s t : State), Fits (.officerRetire h slot blks) →
    Comes 0x0B04 ([5, 9].filter (fun l => decide (l = 1 + 4 * blks.length))) true h s t →
    (t.tr.blocksOk none (t.tr.statement 4 slot t.tr.ogen.toNat []) blks = false ∨ officersIn blks < max 1 t.tr.needed) →
    exec (.officerRetire h slot blks) s = .next (replied 0x0B04 h stSignature 0 t))

/-- The image that booted, and the minimum SVN (R448). Staging an image leaves the booted one and the minimum alone, whatever it answers; an image that is not accepted is
answered SIGNATURE_REQUIRED and stages nothing; no command lowers the minimum, and a cold boot that ends ready with an image leaves it at least that image's SVN. -/
def Obligations.TheBootedImageStands : Prop :=
  (∀ h x (s t : State), Tab.wf [] s.tr.fw = true → exec (.fwStage h x) s = .next t →
    t.tr.bootSlot = s.tr.bootSlot ∧ t.tr.fw.get [] s.tr.bootSlot = s.tr.fw.get [] s.tr.bootSlot ∧ t.tr.minSvn = s.tr.minSvn) ∧
  (∀ h x (s t : State), Fits (.fwStage h x) → Comes 0x0C05 [1] true h s t → t.refBad h.src x = none → t.ha.cxl = true →
    exec (.fwStage h x) s = .next (ranNow 0x0C05 h .bind (fun u => u.readThen x h.ctx h.tag (fun b v => v.stage b)) t)) ∧
  (∀ b (s : State), s.tr.fwOk b = false → s.stage b = (s, stSignature, 0)) ∧
  (∀ b (s : State), s.tr.fwOk b = true → (fwSection b 4).all (fun c => decide (s.tr.certSeq ≤ (readVariant c).certseq)) = true → Tab.wf [] s.tr.fw = true →
    (s.stage b).1.tr.fw.get [] (1 - s.tr.bootSlot) = fwImage b ∧ (s.stage b).1.tr.staged = true ∧ (s.stage b).2 = (stOk, fwVer b)) ∧
  (∀ b (t : Trust), t.fwOk b = true → ((t.chainKey (fwCert b)).any (fun k => verify k (b.take (fwLen b)) ((b.drop (fwLen b)).take 96))) = true ∧
    (∀ i, i < fwNsec b → (sha384 (fwSec b i).2).take 40 = (b.drop (64 + 64 * i + 24)).take 40) ∧ t.minSvn ≤ fwSvn b) ∧
  (∀ (c : Instr) (s t : State), exec c s = .next t → s.tr.minSvn ≤ t.tr.minSvn) ∧
  (∀ b (s t : State), exec (.coldBoot b) s = .next t → (s.tr.boot = .ready → s.tr.coldAsked = true) → t.tr.boot = .ready → t.tr.minSvn = max s.tr.minSvn t.tr.svn)

/-- Every command packet is handled alike before its own checks (R305, R307, R308, R363): a length of 0 or above 128 units stops its ring with BAD_LENGTH, and on a
management session is answered so; a packet that cannot be taken waits; one that is taken leaves the ring and is answered by the first check it fails: BAD_LENGTH
for a length its row does not allow, BAD_PARAM, with the number expected in DETAIL, for set reserved flags, a context above 1023 or a number
out of sequence, DENIED for what its ring or context may not do, NO_RESOURCE for what a module without a variant does not serve. -/
def Obligations.PacketsAreCheckedInOrder : Prop :=
  ∀ (c : Instr) op lens sys h (s : State), packetRow c = some (op, lens, sys, h) → Fits c →
    (∀ k, h.src = .ring k → (h.len = 0 ∨ 128 < h.len) →
      exec c s = .next (if (s.at h.cyc).watched = true ∧ ((s.at h.cyc).ctx k).ring.st = .running then
        ((s.at h.cyc).stopRing k 2).replyTo h.src (h.entry (s.at h.cyc) op stBadLength 0 true) else s.at h.cyc)) ∧
    (∀ n, h.src = .mgmt n → (h.len = 0 ∨ 128 < h.len) → exec c s = .next (replied op h stBadLength 0 (s.at h.cyc))) ∧
    (0 < h.len → h.len ≤ 128 → (s.at h.cyc).takeable h = false → exec c s = .next (s.at h.cyc)) ∧
    (0 < h.len → h.len ≤ 128 → (s.at h.cyc).takeable h = true →
      (lens.contains h.len = false → exec c s = .next (replied op h stBadLength 0 (taken s h))) ∧
      (lens.contains h.len = true →
        ((4 ≤ h.flags ∨ 1024 ≤ h.ctx ∨ h.seq ≠ (s.at h.cyc).nseq h) → exec c s = .next (replied op h stBadParam ((s.at h.cyc).nseq h) (taken s h))) ∧
        (h.flags < 4 → h.ctx < 1024 → h.seq = (s.at h.cyc).nseq h →
          ((taken s h).permitted h op sys = false → exec c s = .next (replied op h stDenied 0 (taken s h))) ∧
          ((taken s h).permitted h op sys = true → s.ha.noVariant = true → opGroup op ≠ 10 → opGroup op ≠ 11 →
            exec c s = .next (replied op h stNoResource 0 (taken s h))))))

/-- What a packet may not do by the ring it came on and the state of its context (R331, R333, R340, R341, R455, R471): each is answered DENIED and nothing else happens. A
context ring's packet for another context, or of a row the system ring alone serves; groups 2 to 7 and 9 for a context that is not open; every
group but 8 and 10 from the ring of a fenced context; on a management session everything but groups 10 and 11 and RESET. -/
def Obligations.WhatARingMayNotDo : Prop :=
  ∀ (c : Instr) op lens sys h (s : State), packetRow c = some (op, lens, sys, h) → Fits c → Tab.wf {} s.ctxs = true →
    0 < h.len → h.len ≤ 128 → lens.contains h.len = true → (s.at h.cyc).takeable h = true → h.flags < 4 → h.ctx < 1024 → h.seq = (s.at h.cyc).nseq h →
    ((∃ k, h.src = .ring k ∧ k ≠ 0 ∧ (h.ctx ≠ k ∨ sys = true)) ∨
      (((2 ≤ opGroup op ∧ opGroup op ≤ 7) ∨ opGroup op = 9) ∧ (s.ctx h.ctx).st ≠ .opened) ∨
      (∃ k, h.src = .ring k ∧ k ≠ 0 ∧ (s.ctx k).st = .fenced ∧ opGroup op ≠ 8 ∧ opGroup op ≠ 10) ∨
      (∃ n, h.src = .mgmt n ∧ opGroup op ≠ 10 ∧ opGroup op ≠ 11 ∧ op ≠ 0x0C01)) →
    exec c s = .next (replied op h stDenied 0 (taken s h))

/-- Every code of every format of *Element encodings* survives decoding and converting back (R77, R85): a finite code comes back as it is, exactly, under either
rounding, draws nothing and sets no flag, an infinity comes back under OVF = 1, and every other code is a NaN. -/
def Obligations.ElementCodesRoundTrip : Prop :=
  ∀ f ∈ elementFormats, ∀ c, c < 2 ^ (f.sb + 1) →
    (c % 2 ^ f.sb ≤ f.maxc → (f.dec c).isNan = false ∧ f.onGrid (f.dec c) = true ∧ ∀ r ovf, f.conv r ovf (f.dec c) = ⟨c, Flags.none, false⟩) ∧
    (f.infc = some (c % 2 ^ f.sb) → f.dec c = .inf (c.testBit f.sb) ∧ ∀ r, f.conv r true (f.dec c) = ⟨c, Flags.none, false⟩) ∧
    (f.maxc < c % 2 ^ f.sb → f.infc ≠ some (c % 2 ^ f.sb) → f.dec c = .nan)

/-- convert rounds onto the grid (R85): between neighbouring grid points, to the nearer one with ties to the even code, or up exactly where the fraction and the
draw reach 65,536; a value on the grid stays and draws nothing; the sign is kept, of a zero too; a magnitude above the largest finite value has
overflowed and saturates, or under OVF = 1 becomes infinity or the NaN of a format without one (R86). -/
def Obligations.ConvertRoundsToTheGrid : Prop :=
  ∀ f ∈ elementFormats, ∀ (m : Nat) (e : Int), ∃ lo, gridAt f lo ≤ magnitude m e ∧ magnitude m e < gridAt f (lo + 1) ∧
    (magnitude m e = gridAt f lo → ∀ r, f.roundMag r m e = (lo, true)) ∧
    (magnitude m e ≠ gridAt f lo →
      f.roundMag .nearest m e = (if magnitude m e - gridAt f lo < gridAt f (lo + 1) - magnitude m e ∨
        (magnitude m e - gridAt f lo = gridAt f (lo + 1) - magnitude m e ∧ lo % 2 = 0) then lo else lo + 1, false) ∧
      ∀ u, u < 65536 → f.roundMag (.stoch u) m e =
        (if 65536 ≤ ⌊(magnitude m e - gridAt f lo) / (gridAt f (lo + 1) - gridAt f lo) * 65536⌋ + (u : Int) then lo + 1 else lo, false)) ∧
    (∀ neg, f.onGrid (.fin neg m e) = true ↔ magnitude m e = gridAt f lo) ∧
    (∀ neg r ovf k x, f.roundMag r m e = (k, x) →
      (k ≤ f.maxc → (f.conv r ovf (.fin neg m e)).code = (if neg then 2 ^ f.sb else 0) + k ∧ (f.conv r ovf (.fin neg m e)).sat = false ∧
        (f.conv r ovf (.fin neg m e)).fl.of = false ∧ (f.conv r ovf (.fin neg m e)).fl.ix = !x) ∧
      (f.maxc < k → f.conv r false (.fin neg m e) = ⟨(if neg then 2 ^ f.sb else 0) + f.maxc, { of := true, ix := true }, true⟩) ∧
      (f.maxc < k → ∀ i, f.infc = some i → f.conv r true (.fin neg m e) = ⟨(if neg then 2 ^ f.sb else 0) + i, { of := true, ix := true }, true⟩) ∧
      (f.maxc < k → f = e4m3 → f.conv r true (.fin neg m e) = ⟨0x7F, { of := true, ix := true }, true⟩))

/-- The frame of every tile instruction (R124, R404). Whatever it does, with no trace under way: no tile but its own changes, nor any region, stack, link, context, ring, memory, log record,
power or trust state; what leaves the tile is at most one fault report on the order network, with the tile fenced by then. -/
def Obligations.TileInstructionsStayInTheirTile : Prop :=
  ∀ (c : Instr) h (s t : State), tileHdr c = some h → s.tr.traces = [] → Tab.wf {} s.tiles = true → exec c s = .next t →
    t = { s with
      clk := t.clk
      tiles := t.tiles
      hubs := t.hubs
      regions := t.regions
      waggle := t.waggle
      wgSeq := t.wgSeq
      log := { s.log with evbuf := t.log.evbuf } } ∧
    t.clk = { s.clk with cycle := t.clk.cycle } ∧
    (∀ k, k ≠ h.tile → t.tile k = s.tile k) ∧
    ((t.hubs = s.hubs ∧ t.regions = s.regions ∧ t.waggle = s.waggle ∧ t.wgSeq = s.wgSeq ∧ t.log.evbuf = s.log.evbuf) ∨
      ∃ r q, (t.tile h.tile).fenced = true ∧ (s.waggle = t.waggle ∨ t.waggle = s.waggle ++ [⟨r.unit, uidRc (h.tile / 64), .fault r, q⟩]))

/-- Byte memories (scratchpads, stacks, host memory): every operation keeps the one canonical form; what is written reads back, one byte, many bytes and little-endian
numbers (R78), and no byte outside what is written changes; zeroed bytes read as zero; memories that read alike are the same data. -/
def Obligations.MemoriesReadWhatWasWritten : Prop :=
  ∀ m : Mem, Memory.wf m = true →
    (∀ a b, Memory.wf (m.wr a b) = true ∧ (m.wr a b).rd a = b ∧ ∀ k, k ≠ a → (m.wr a b).rd k = m.rd k) ∧
    (∀ a bs, Memory.wf (m.wrBytes a bs) = true ∧ (m.wrBytes a bs).rdBytes a bs.length = bs ∧
      ∀ k, (k < a ∨ a + bs.length ≤ k) → (m.wrBytes a bs).rd k = m.rd k) ∧
    (∀ a n v, v < 256 ^ n → (m.wrLE a n v).rdLE a n = v) ∧
    (∀ a n, Memory.wf (m.zero a n) = true ∧ ∀ k, (m.zero a n).rd k = if a ≤ k ∧ k < a + n then Mem.fill else m.rd k) ∧
    (∀ m' : Mem, Memory.wf m' = true → (∀ k, m.rd k = m'.rd k) → m = m')

/-- Registers at reset, as the *Reset* columns give them: context 0's record (R323) and those of the others; the registers, settings and flags of every tile (R45, R82,
R140, R156), the routers and hubs (R192), the stack controllers (R220, R242), HA_STAT, GV_STAT0, GV_STAT1 and SB_CFG. -/
def Obligations.RegistersAtReset : Prop :=
  (State.reset.ctx 0).word0 = 0xAFF0000000000000 ∧ (State.reset.ctx 0).pageQ = 0xFFFFF ∧ (State.reset.ctx 0).slotQ = 1536 ∧
  (State.reset.ctx 0).gq = true ∧ (∀ r, r < 80 → (State.reset.ctx 0).mayHold r = true) ∧ (State.reset.ctx 0).w3 = 0xFFFFFFFFFFFFFFFF#64 ∧
  (∀ c, c ≠ 0 → (State.reset.ctx c).word0 = 0 ∧ (State.reset.ctx c).w1 = 0 ∧ (State.reset.ctx c).w2 = 0 ∧ (State.reset.ctx c).w3 = 0 ∧
    State.reset.bound c = [] ∧ (State.reset.ctx c).gblk = none) ∧
  (∀ t, (State.reset.tile t).reg 0 = 4 ∧ (State.reset.tile t).reg 1 = 0xFF00 ∧ (State.reset.tile t).reg 0x12 = 2 ^ 64 - 1 ∧ (State.reset.tile t).reg 0x20 = 4 * 2 ^ 24 + 4 * 2 ^ 21 ∧
    (State.reset.tile t).reg 0x28 = 0 ∧ (State.reset.tile t).reg 0x29 = 0x0202020202020202 ∧ (State.reset.tile t).reg 0x2A = 0x0403030301010101 ∧
    (State.reset.tile t).reg 0x2B = 0xD9D9D9D9D9D9D9D9 ∧ (State.reset.tile t).reg 0x2C = 0xF3F3F3F3F3F3F3F3 ∧
    (State.reset.tile t).reg 0x2D = 0x00005151A2A2A2A2 ∧
    (∀ n, n ∉ [0, 1, 0x12, 0x20, 0x28, 0x29, 0x2A, 0x2B, 0x2C, 0x2D] → (State.reset.tile t).reg n = 0) ∧
    (∀ k, (State.reset.tile t).cv k = 5 * 2 ^ 60) ∧ (∀ f, (State.reset.tile t).flag f = 0) ∧ (∀ q, (State.reset.tile t).queue q = []) ∧
    (∀ w, (State.reset.tile t).mem.rd w = 0#8)) ∧
  (∀ t k, (State.reset.router t).routes.get 0 k = 0) ∧
  (∀ r, (State.reset.hubs.get {} r).pkts = 0 ∧ (State.reset.hubs.get {} r).drop = 0 ∧ (State.reset.hubs.get {} r).resend = 0) ∧
  (∀ n, (State.reset.sc n).rg = 0x42#32 ∧ (State.reset.sc n).rd = 0x40080#32 ∧ (State.reset.sc n).grant = 0 ∧ (State.reset.sc n).uncorr = 0) ∧
  State.reset.haStat = 0 ∧ State.reset.gvStat0 = 64 * 2 ^ 56 + 64 * 2 ^ 48 + 21000 * 2 ^ 32 + 21000 * 2 ^ 16 ∧ State.reset.gvStat1 = 0 ∧
  State.reset.tr.sbCfg = 2#32
end

