-- ==== Sys2Proof/Laws/State.lean ====
section
/-! SUPPORT. Each field of the state under each of the shared updates: what an update leaves alone, and what it writes. -/

namespace Sys2Proof.Machine

variable (s : State)

/-! onRegion writes `regions` alone. -/

@[simp] theorem State.onRegion_pending (r : Nat) (f : Region → Region) : (s.onRegion r f).pending = s.pending := rfl
@[simp] theorem State.onRegion_clk (r : Nat) (f : Region → Region) : (s.onRegion r f).clk = s.clk := rfl
@[simp] theorem State.onRegion_tiles (r : Nat) (f : Region → Region) : (s.onRegion r f).tiles = s.tiles := rfl
@[simp] theorem State.onRegion_routers (r : Nat) (f : Region → Region) : (s.onRegion r f).routers = s.routers := rfl
@[simp] theorem State.onRegion_hubs (r : Nat) (f : Region → Region) : (s.onRegion r f).hubs = s.hubs := rfl
@[simp] theorem State.onRegion_fly (r : Nat) (f : Region → Region) : (s.onRegion r f).fly = s.fly := rfl
@[simp] theorem State.onRegion_waggle (r : Nat) (f : Region → Region) : (s.onRegion r f).waggle = s.waggle := rfl
@[simp] theorem State.onRegion_wgSeq (r : Nat) (f : Region → Region) : (s.onRegion r f).wgSeq = s.wgSeq := rfl
@[simp] theorem State.onRegion_scs (r : Nat) (f : Region → Region) : (s.onRegion r f).scs = s.scs := rfl
@[simp] theorem State.onRegion_links (r : Nat) (f : Region → Region) : (s.onRegion r f).links = s.links := rfl
@[simp] theorem State.onRegion_pod (r : Nat) (f : Region → Region) : (s.onRegion r f).pod = s.pod := rfl
@[simp] theorem State.onRegion_ctxs (r : Nat) (f : Region → Region) : (s.onRegion r f).ctxs = s.ctxs := rfl
@[simp] theorem State.onRegion_ha (r : Nat) (f : Region → Region) : (s.onRegion r f).ha = s.ha := rfl
@[simp] theorem State.onRegion_gov (r : Nat) (f : Region → Region) : (s.onRegion r f).gov = s.gov := rfl
@[simp] theorem State.onRegion_pwr (r : Nat) (f : Region → Region) : (s.onRegion r f).pwr = s.pwr := rfl
@[simp] theorem State.onRegion_log (r : Nat) (f : Region → Region) : (s.onRegion r f).log = s.log := rfl
@[simp] theorem State.onRegion_tr (r : Nat) (f : Region → Region) : (s.onRegion r f).tr = s.tr := rfl
@[simp] theorem State.onRegion_long (r : Nat) (f : Region → Region) : (s.onRegion r f).long = s.long := rfl
@[simp] theorem State.onRegion_nextId (r : Nat) (f : Region → Region) : (s.onRegion r f).nextId = s.nextId := rfl
@[simp] theorem State.onRegion_tele (r : Nat) (f : Region → Region) : (s.onRegion r f).tele = s.tele := rfl
@[simp] theorem State.onRegion_binds (r : Nat) (f : Region → Region) : (s.onRegion r f).binds = s.binds := rfl
@[simp] theorem State.onRegion_resets (r : Nat) (f : Region → Region) : (s.onRegion r f).resets = s.resets := rfl
@[simp] theorem State.onRegion_hostMem (r : Nat) (f : Region → Region) : (s.onRegion r f).hostMem = s.hostMem := rfl
@[simp] theorem State.onRegion_free (r : Nat) (f : Region → Region) : (s.onRegion r f).free = s.free := rfl

/-! setTile writes `tiles` alone. -/

@[simp] theorem State.setTile_pending (n : Nat) (x : Tile) : (s.setTile n x).pending = s.pending := rfl
@[simp] theorem State.setTile_clk (n : Nat) (x : Tile) : (s.setTile n x).clk = s.clk := rfl
@[simp] theorem State.setTile_regions (n : Nat) (x : Tile) : (s.setTile n x).regions = s.regions := rfl
@[simp] theorem State.setTile_routers (n : Nat) (x : Tile) : (s.setTile n x).routers = s.routers := rfl
@[simp] theorem State.setTile_hubs (n : Nat) (x : Tile) : (s.setTile n x).hubs = s.hubs := rfl
@[simp] theorem State.setTile_fly (n : Nat) (x : Tile) : (s.setTile n x).fly = s.fly := rfl
@[simp] theorem State.setTile_waggle (n : Nat) (x : Tile) : (s.setTile n x).waggle = s.waggle := rfl
@[simp] theorem State.setTile_wgSeq (n : Nat) (x : Tile) : (s.setTile n x).wgSeq = s.wgSeq := rfl
@[simp] theorem State.setTile_scs (n : Nat) (x : Tile) : (s.setTile n x).scs = s.scs := rfl
@[simp] theorem State.setTile_links (n : Nat) (x : Tile) : (s.setTile n x).links = s.links := rfl
@[simp] theorem State.setTile_pod (n : Nat) (x : Tile) : (s.setTile n x).pod = s.pod := rfl
@[simp] theorem State.setTile_ctxs (n : Nat) (x : Tile) : (s.setTile n x).ctxs = s.ctxs := rfl
@[simp] theorem State.setTile_ha (n : Nat) (x : Tile) : (s.setTile n x).ha = s.ha := rfl
@[simp] theorem State.setTile_gov (n : Nat) (x : Tile) : (s.setTile n x).gov = s.gov := rfl
@[simp] theorem State.setTile_pwr (n : Nat) (x : Tile) : (s.setTile n x).pwr = s.pwr := rfl
@[simp] theorem State.setTile_log (n : Nat) (x : Tile) : (s.setTile n x).log = s.log := rfl
@[simp] theorem State.setTile_tr (n : Nat) (x : Tile) : (s.setTile n x).tr = s.tr := rfl
@[simp] theorem State.setTile_long (n : Nat) (x : Tile) : (s.setTile n x).long = s.long := rfl
@[simp] theorem State.setTile_nextId (n : Nat) (x : Tile) : (s.setTile n x).nextId = s.nextId := rfl
@[simp] theorem State.setTile_tele (n : Nat) (x : Tile) : (s.setTile n x).tele = s.tele := rfl
@[simp] theorem State.setTile_binds (n : Nat) (x : Tile) : (s.setTile n x).binds = s.binds := rfl
@[simp] theorem State.setTile_resets (n : Nat) (x : Tile) : (s.setTile n x).resets = s.resets := rfl
@[simp] theorem State.setTile_hostMem (n : Nat) (x : Tile) : (s.setTile n x).hostMem = s.hostMem := rfl
@[simp] theorem State.setTile_free (n : Nat) (x : Tile) : (s.setTile n x).free = s.free := rfl

/-! onTile writes `tiles` alone. -/

@[simp] theorem State.onTile_pending (n : Nat) (f : Tile → Tile) : (s.onTile n f).pending = s.pending := rfl
@[simp] theorem State.onTile_clk (n : Nat) (f : Tile → Tile) : (s.onTile n f).clk = s.clk := rfl
@[simp] theorem State.onTile_regions (n : Nat) (f : Tile → Tile) : (s.onTile n f).regions = s.regions := rfl
@[simp] theorem State.onTile_routers (n : Nat) (f : Tile → Tile) : (s.onTile n f).routers = s.routers := rfl
@[simp] theorem State.onTile_hubs (n : Nat) (f : Tile → Tile) : (s.onTile n f).hubs = s.hubs := rfl
@[simp] theorem State.onTile_fly (n : Nat) (f : Tile → Tile) : (s.onTile n f).fly = s.fly := rfl
@[simp] theorem State.onTile_waggle (n : Nat) (f : Tile → Tile) : (s.onTile n f).waggle = s.waggle := rfl
@[simp] theorem State.onTile_wgSeq (n : Nat) (f : Tile → Tile) : (s.onTile n f).wgSeq = s.wgSeq := rfl
@[simp] theorem State.onTile_scs (n : Nat) (f : Tile → Tile) : (s.onTile n f).scs = s.scs := rfl
@[simp] theorem State.onTile_links (n : Nat) (f : Tile → Tile) : (s.onTile n f).links = s.links := rfl
@[simp] theorem State.onTile_pod (n : Nat) (f : Tile → Tile) : (s.onTile n f).pod = s.pod := rfl
@[simp] theorem State.onTile_ctxs (n : Nat) (f : Tile → Tile) : (s.onTile n f).ctxs = s.ctxs := rfl
@[simp] theorem State.onTile_ha (n : Nat) (f : Tile → Tile) : (s.onTile n f).ha = s.ha := rfl
@[simp] theorem State.onTile_gov (n : Nat) (f : Tile → Tile) : (s.onTile n f).gov = s.gov := rfl
@[simp] theorem State.onTile_pwr (n : Nat) (f : Tile → Tile) : (s.onTile n f).pwr = s.pwr := rfl
@[simp] theorem State.onTile_log (n : Nat) (f : Tile → Tile) : (s.onTile n f).log = s.log := rfl
@[simp] theorem State.onTile_tr (n : Nat) (f : Tile → Tile) : (s.onTile n f).tr = s.tr := rfl
@[simp] theorem State.onTile_long (n : Nat) (f : Tile → Tile) : (s.onTile n f).long = s.long := rfl
@[simp] theorem State.onTile_nextId (n : Nat) (f : Tile → Tile) : (s.onTile n f).nextId = s.nextId := rfl
@[simp] theorem State.onTile_tele (n : Nat) (f : Tile → Tile) : (s.onTile n f).tele = s.tele := rfl
@[simp] theorem State.onTile_binds (n : Nat) (f : Tile → Tile) : (s.onTile n f).binds = s.binds := rfl
@[simp] theorem State.onTile_resets (n : Nat) (f : Tile → Tile) : (s.onTile n f).resets = s.resets := rfl
@[simp] theorem State.onTile_hostMem (n : Nat) (f : Tile → Tile) : (s.onTile n f).hostMem = s.hostMem := rfl
@[simp] theorem State.onTile_free (n : Nat) (f : Tile → Tile) : (s.onTile n f).free = s.free := rfl

/-! onTiles writes `tiles` alone. -/

@[simp] theorem State.onTiles_pending (rs : List Nat) (f : Tile → Tile) : (s.onTiles rs f).pending = s.pending := rfl
@[simp] theorem State.onTiles_clk (rs : List Nat) (f : Tile → Tile) : (s.onTiles rs f).clk = s.clk := rfl
@[simp] theorem State.onTiles_regions (rs : List Nat) (f : Tile → Tile) : (s.onTiles rs f).regions = s.regions := rfl
@[simp] theorem State.onTiles_routers (rs : List Nat) (f : Tile → Tile) : (s.onTiles rs f).routers = s.routers := rfl
@[simp] theorem State.onTiles_hubs (rs : List Nat) (f : Tile → Tile) : (s.onTiles rs f).hubs = s.hubs := rfl
@[simp] theorem State.onTiles_fly (rs : List Nat) (f : Tile → Tile) : (s.onTiles rs f).fly = s.fly := rfl
@[simp] theorem State.onTiles_waggle (rs : List Nat) (f : Tile → Tile) : (s.onTiles rs f).waggle = s.waggle := rfl
@[simp] theorem State.onTiles_wgSeq (rs : List Nat) (f : Tile → Tile) : (s.onTiles rs f).wgSeq = s.wgSeq := rfl
@[simp] theorem State.onTiles_scs (rs : List Nat) (f : Tile → Tile) : (s.onTiles rs f).scs = s.scs := rfl
@[simp] theorem State.onTiles_links (rs : List Nat) (f : Tile → Tile) : (s.onTiles rs f).links = s.links := rfl
@[simp] theorem State.onTiles_pod (rs : List Nat) (f : Tile → Tile) : (s.onTiles rs f).pod = s.pod := rfl
@[simp] theorem State.onTiles_ctxs (rs : List Nat) (f : Tile → Tile) : (s.onTiles rs f).ctxs = s.ctxs := rfl
@[simp] theorem State.onTiles_ha (rs : List Nat) (f : Tile → Tile) : (s.onTiles rs f).ha = s.ha := rfl
@[simp] theorem State.onTiles_gov (rs : List Nat) (f : Tile → Tile) : (s.onTiles rs f).gov = s.gov := rfl
@[simp] theorem State.onTiles_pwr (rs : List Nat) (f : Tile → Tile) : (s.onTiles rs f).pwr = s.pwr := rfl
@[simp] theorem State.onTiles_log (rs : List Nat) (f : Tile → Tile) : (s.onTiles rs f).log = s.log := rfl
@[simp] theorem State.onTiles_tr (rs : List Nat) (f : Tile → Tile) : (s.onTiles rs f).tr = s.tr := rfl
@[simp] theorem State.onTiles_long (rs : List Nat) (f : Tile → Tile) : (s.onTiles rs f).long = s.long := rfl
@[simp] theorem State.onTiles_nextId (rs : List Nat) (f : Tile → Tile) : (s.onTiles rs f).nextId = s.nextId := rfl
@[simp] theorem State.onTiles_tele (rs : List Nat) (f : Tile → Tile) : (s.onTiles rs f).tele = s.tele := rfl
@[simp] theorem State.onTiles_binds (rs : List Nat) (f : Tile → Tile) : (s.onTiles rs f).binds = s.binds := rfl
@[simp] theorem State.onTiles_resets (rs : List Nat) (f : Tile → Tile) : (s.onTiles rs f).resets = s.resets := rfl
@[simp] theorem State.onTiles_hostMem (rs : List Nat) (f : Tile → Tile) : (s.onTiles rs f).hostMem = s.hostMem := rfl
@[simp] theorem State.onTiles_free (rs : List Nat) (f : Tile → Tile) : (s.onTiles rs f).free = s.free := rfl

/-! onRouter writes `routers` alone. -/

@[simp] theorem State.onRouter_pending (n : Nat) (f : Router → Router) : (s.onRouter n f).pending = s.pending := rfl
@[simp] theorem State.onRouter_clk (n : Nat) (f : Router → Router) : (s.onRouter n f).clk = s.clk := rfl
@[simp] theorem State.onRouter_regions (n : Nat) (f : Router → Router) : (s.onRouter n f).regions = s.regions := rfl
@[simp] theorem State.onRouter_tiles (n : Nat) (f : Router → Router) : (s.onRouter n f).tiles = s.tiles := rfl
@[simp] theorem State.onRouter_hubs (n : Nat) (f : Router → Router) : (s.onRouter n f).hubs = s.hubs := rfl
@[simp] theorem State.onRouter_fly (n : Nat) (f : Router → Router) : (s.onRouter n f).fly = s.fly := rfl
@[simp] theorem State.onRouter_waggle (n : Nat) (f : Router → Router) : (s.onRouter n f).waggle = s.waggle := rfl
@[simp] theorem State.onRouter_wgSeq (n : Nat) (f : Router → Router) : (s.onRouter n f).wgSeq = s.wgSeq := rfl
@[simp] theorem State.onRouter_scs (n : Nat) (f : Router → Router) : (s.onRouter n f).scs = s.scs := rfl
@[simp] theorem State.onRouter_links (n : Nat) (f : Router → Router) : (s.onRouter n f).links = s.links := rfl
@[simp] theorem State.onRouter_pod (n : Nat) (f : Router → Router) : (s.onRouter n f).pod = s.pod := rfl
@[simp] theorem State.onRouter_ctxs (n : Nat) (f : Router → Router) : (s.onRouter n f).ctxs = s.ctxs := rfl
@[simp] theorem State.onRouter_ha (n : Nat) (f : Router → Router) : (s.onRouter n f).ha = s.ha := rfl
@[simp] theorem State.onRouter_gov (n : Nat) (f : Router → Router) : (s.onRouter n f).gov = s.gov := rfl
@[simp] theorem State.onRouter_pwr (n : Nat) (f : Router → Router) : (s.onRouter n f).pwr = s.pwr := rfl
@[simp] theorem State.onRouter_log (n : Nat) (f : Router → Router) : (s.onRouter n f).log = s.log := rfl
@[simp] theorem State.onRouter_tr (n : Nat) (f : Router → Router) : (s.onRouter n f).tr = s.tr := rfl
@[simp] theorem State.onRouter_long (n : Nat) (f : Router → Router) : (s.onRouter n f).long = s.long := rfl
@[simp] theorem State.onRouter_nextId (n : Nat) (f : Router → Router) : (s.onRouter n f).nextId = s.nextId := rfl
@[simp] theorem State.onRouter_tele (n : Nat) (f : Router → Router) : (s.onRouter n f).tele = s.tele := rfl
@[simp] theorem State.onRouter_binds (n : Nat) (f : Router → Router) : (s.onRouter n f).binds = s.binds := rfl
@[simp] theorem State.onRouter_resets (n : Nat) (f : Router → Router) : (s.onRouter n f).resets = s.resets := rfl
@[simp] theorem State.onRouter_hostMem (n : Nat) (f : Router → Router) : (s.onRouter n f).hostMem = s.hostMem := rfl
@[simp] theorem State.onRouter_free (n : Nat) (f : Router → Router) : (s.onRouter n f).free = s.free := rfl

/-! onHub writes `hubs` alone. -/

@[simp] theorem State.onHub_pending (r : Nat) (f : Hub → Hub) : (s.onHub r f).pending = s.pending := rfl
@[simp] theorem State.onHub_clk (r : Nat) (f : Hub → Hub) : (s.onHub r f).clk = s.clk := rfl
@[simp] theorem State.onHub_regions (r : Nat) (f : Hub → Hub) : (s.onHub r f).regions = s.regions := rfl
@[simp] theorem State.onHub_tiles (r : Nat) (f : Hub → Hub) : (s.onHub r f).tiles = s.tiles := rfl
@[simp] theorem State.onHub_routers (r : Nat) (f : Hub → Hub) : (s.onHub r f).routers = s.routers := rfl
@[simp] theorem State.onHub_fly (r : Nat) (f : Hub → Hub) : (s.onHub r f).fly = s.fly := rfl
@[simp] theorem State.onHub_waggle (r : Nat) (f : Hub → Hub) : (s.onHub r f).waggle = s.waggle := rfl
@[simp] theorem State.onHub_wgSeq (r : Nat) (f : Hub → Hub) : (s.onHub r f).wgSeq = s.wgSeq := rfl
@[simp] theorem State.onHub_scs (r : Nat) (f : Hub → Hub) : (s.onHub r f).scs = s.scs := rfl
@[simp] theorem State.onHub_links (r : Nat) (f : Hub → Hub) : (s.onHub r f).links = s.links := rfl
@[simp] theorem State.onHub_pod (r : Nat) (f : Hub → Hub) : (s.onHub r f).pod = s.pod := rfl
@[simp] theorem State.onHub_ctxs (r : Nat) (f : Hub → Hub) : (s.onHub r f).ctxs = s.ctxs := rfl
@[simp] theorem State.onHub_ha (r : Nat) (f : Hub → Hub) : (s.onHub r f).ha = s.ha := rfl
@[simp] theorem State.onHub_gov (r : Nat) (f : Hub → Hub) : (s.onHub r f).gov = s.gov := rfl
@[simp] theorem State.onHub_pwr (r : Nat) (f : Hub → Hub) : (s.onHub r f).pwr = s.pwr := rfl
@[simp] theorem State.onHub_log (r : Nat) (f : Hub → Hub) : (s.onHub r f).log = s.log := rfl
@[simp] theorem State.onHub_tr (r : Nat) (f : Hub → Hub) : (s.onHub r f).tr = s.tr := rfl
@[simp] theorem State.onHub_long (r : Nat) (f : Hub → Hub) : (s.onHub r f).long = s.long := rfl
@[simp] theorem State.onHub_nextId (r : Nat) (f : Hub → Hub) : (s.onHub r f).nextId = s.nextId := rfl
@[simp] theorem State.onHub_tele (r : Nat) (f : Hub → Hub) : (s.onHub r f).tele = s.tele := rfl
@[simp] theorem State.onHub_binds (r : Nat) (f : Hub → Hub) : (s.onHub r f).binds = s.binds := rfl
@[simp] theorem State.onHub_resets (r : Nat) (f : Hub → Hub) : (s.onHub r f).resets = s.resets := rfl
@[simp] theorem State.onHub_hostMem (r : Nat) (f : Hub → Hub) : (s.onHub r f).hostMem = s.hostMem := rfl
@[simp] theorem State.onHub_free (r : Nat) (f : Hub → Hub) : (s.onHub r f).free = s.free := rfl

/-! onSc writes `scs` alone. -/

@[simp] theorem State.onSc_pending (n : Nat) (f : Sc → Sc) : (s.onSc n f).pending = s.pending := rfl
@[simp] theorem State.onSc_clk (n : Nat) (f : Sc → Sc) : (s.onSc n f).clk = s.clk := rfl
@[simp] theorem State.onSc_regions (n : Nat) (f : Sc → Sc) : (s.onSc n f).regions = s.regions := rfl
@[simp] theorem State.onSc_tiles (n : Nat) (f : Sc → Sc) : (s.onSc n f).tiles = s.tiles := rfl
@[simp] theorem State.onSc_routers (n : Nat) (f : Sc → Sc) : (s.onSc n f).routers = s.routers := rfl
@[simp] theorem State.onSc_hubs (n : Nat) (f : Sc → Sc) : (s.onSc n f).hubs = s.hubs := rfl
@[simp] theorem State.onSc_fly (n : Nat) (f : Sc → Sc) : (s.onSc n f).fly = s.fly := rfl
@[simp] theorem State.onSc_waggle (n : Nat) (f : Sc → Sc) : (s.onSc n f).waggle = s.waggle := rfl
@[simp] theorem State.onSc_wgSeq (n : Nat) (f : Sc → Sc) : (s.onSc n f).wgSeq = s.wgSeq := rfl
@[simp] theorem State.onSc_links (n : Nat) (f : Sc → Sc) : (s.onSc n f).links = s.links := rfl
@[simp] theorem State.onSc_pod (n : Nat) (f : Sc → Sc) : (s.onSc n f).pod = s.pod := rfl
@[simp] theorem State.onSc_ctxs (n : Nat) (f : Sc → Sc) : (s.onSc n f).ctxs = s.ctxs := rfl
@[simp] theorem State.onSc_ha (n : Nat) (f : Sc → Sc) : (s.onSc n f).ha = s.ha := rfl
@[simp] theorem State.onSc_gov (n : Nat) (f : Sc → Sc) : (s.onSc n f).gov = s.gov := rfl
@[simp] theorem State.onSc_pwr (n : Nat) (f : Sc → Sc) : (s.onSc n f).pwr = s.pwr := rfl
@[simp] theorem State.onSc_log (n : Nat) (f : Sc → Sc) : (s.onSc n f).log = s.log := rfl
@[simp] theorem State.onSc_tr (n : Nat) (f : Sc → Sc) : (s.onSc n f).tr = s.tr := rfl
@[simp] theorem State.onSc_long (n : Nat) (f : Sc → Sc) : (s.onSc n f).long = s.long := rfl
@[simp] theorem State.onSc_nextId (n : Nat) (f : Sc → Sc) : (s.onSc n f).nextId = s.nextId := rfl
@[simp] theorem State.onSc_tele (n : Nat) (f : Sc → Sc) : (s.onSc n f).tele = s.tele := rfl
@[simp] theorem State.onSc_binds (n : Nat) (f : Sc → Sc) : (s.onSc n f).binds = s.binds := rfl
@[simp] theorem State.onSc_resets (n : Nat) (f : Sc → Sc) : (s.onSc n f).resets = s.resets := rfl
@[simp] theorem State.onSc_hostMem (n : Nat) (f : Sc → Sc) : (s.onSc n f).hostMem = s.hostMem := rfl
@[simp] theorem State.onSc_free (n : Nat) (f : Sc → Sc) : (s.onSc n f).free = s.free := rfl

/-! onLink writes `links` alone. -/

@[simp] theorem State.onLink_pending (n : Nat) (f : Link → Link) : (s.onLink n f).pending = s.pending := rfl
@[simp] theorem State.onLink_clk (n : Nat) (f : Link → Link) : (s.onLink n f).clk = s.clk := rfl
@[simp] theorem State.onLink_regions (n : Nat) (f : Link → Link) : (s.onLink n f).regions = s.regions := rfl
@[simp] theorem State.onLink_tiles (n : Nat) (f : Link → Link) : (s.onLink n f).tiles = s.tiles := rfl
@[simp] theorem State.onLink_routers (n : Nat) (f : Link → Link) : (s.onLink n f).routers = s.routers := rfl
@[simp] theorem State.onLink_hubs (n : Nat) (f : Link → Link) : (s.onLink n f).hubs = s.hubs := rfl
@[simp] theorem State.onLink_fly (n : Nat) (f : Link → Link) : (s.onLink n f).fly = s.fly := rfl
@[simp] theorem State.onLink_waggle (n : Nat) (f : Link → Link) : (s.onLink n f).waggle = s.waggle := rfl
@[simp] theorem State.onLink_wgSeq (n : Nat) (f : Link → Link) : (s.onLink n f).wgSeq = s.wgSeq := rfl
@[simp] theorem State.onLink_scs (n : Nat) (f : Link → Link) : (s.onLink n f).scs = s.scs := rfl
@[simp] theorem State.onLink_pod (n : Nat) (f : Link → Link) : (s.onLink n f).pod = s.pod := rfl
@[simp] theorem State.onLink_ctxs (n : Nat) (f : Link → Link) : (s.onLink n f).ctxs = s.ctxs := rfl
@[simp] theorem State.onLink_ha (n : Nat) (f : Link → Link) : (s.onLink n f).ha = s.ha := rfl
@[simp] theorem State.onLink_gov (n : Nat) (f : Link → Link) : (s.onLink n f).gov = s.gov := rfl
@[simp] theorem State.onLink_pwr (n : Nat) (f : Link → Link) : (s.onLink n f).pwr = s.pwr := rfl
@[simp] theorem State.onLink_log (n : Nat) (f : Link → Link) : (s.onLink n f).log = s.log := rfl
@[simp] theorem State.onLink_tr (n : Nat) (f : Link → Link) : (s.onLink n f).tr = s.tr := rfl
@[simp] theorem State.onLink_long (n : Nat) (f : Link → Link) : (s.onLink n f).long = s.long := rfl
@[simp] theorem State.onLink_nextId (n : Nat) (f : Link → Link) : (s.onLink n f).nextId = s.nextId := rfl
@[simp] theorem State.onLink_tele (n : Nat) (f : Link → Link) : (s.onLink n f).tele = s.tele := rfl
@[simp] theorem State.onLink_binds (n : Nat) (f : Link → Link) : (s.onLink n f).binds = s.binds := rfl
@[simp] theorem State.onLink_resets (n : Nat) (f : Link → Link) : (s.onLink n f).resets = s.resets := rfl
@[simp] theorem State.onLink_hostMem (n : Nat) (f : Link → Link) : (s.onLink n f).hostMem = s.hostMem := rfl
@[simp] theorem State.onLink_free (n : Nat) (f : Link → Link) : (s.onLink n f).free = s.free := rfl

/-! onCtx writes `ctxs` alone. -/

@[simp] theorem State.onCtx_pending (c : Nat) (f : Ctx → Ctx) : (s.onCtx c f).pending = s.pending := rfl
@[simp] theorem State.onCtx_clk (c : Nat) (f : Ctx → Ctx) : (s.onCtx c f).clk = s.clk := rfl
@[simp] theorem State.onCtx_regions (c : Nat) (f : Ctx → Ctx) : (s.onCtx c f).regions = s.regions := rfl
@[simp] theorem State.onCtx_tiles (c : Nat) (f : Ctx → Ctx) : (s.onCtx c f).tiles = s.tiles := rfl
@[simp] theorem State.onCtx_routers (c : Nat) (f : Ctx → Ctx) : (s.onCtx c f).routers = s.routers := rfl
@[simp] theorem State.onCtx_hubs (c : Nat) (f : Ctx → Ctx) : (s.onCtx c f).hubs = s.hubs := rfl
@[simp] theorem State.onCtx_fly (c : Nat) (f : Ctx → Ctx) : (s.onCtx c f).fly = s.fly := rfl
@[simp] theorem State.onCtx_waggle (c : Nat) (f : Ctx → Ctx) : (s.onCtx c f).waggle = s.waggle := rfl
@[simp] theorem State.onCtx_wgSeq (c : Nat) (f : Ctx → Ctx) : (s.onCtx c f).wgSeq = s.wgSeq := rfl
@[simp] theorem State.onCtx_scs (c : Nat) (f : Ctx → Ctx) : (s.onCtx c f).scs = s.scs := rfl
@[simp] theorem State.onCtx_links (c : Nat) (f : Ctx → Ctx) : (s.onCtx c f).links = s.links := rfl
@[simp] theorem State.onCtx_pod (c : Nat) (f : Ctx → Ctx) : (s.onCtx c f).pod = s.pod := rfl
@[simp] theorem State.onCtx_ha (c : Nat) (f : Ctx → Ctx) : (s.onCtx c f).ha = s.ha := rfl
@[simp] theorem State.onCtx_gov (c : Nat) (f : Ctx → Ctx) : (s.onCtx c f).gov = s.gov := rfl
@[simp] theorem State.onCtx_pwr (c : Nat) (f : Ctx → Ctx) : (s.onCtx c f).pwr = s.pwr := rfl
@[simp] theorem State.onCtx_log (c : Nat) (f : Ctx → Ctx) : (s.onCtx c f).log = s.log := rfl
@[simp] theorem State.onCtx_tr (c : Nat) (f : Ctx → Ctx) : (s.onCtx c f).tr = s.tr := rfl
@[simp] theorem State.onCtx_long (c : Nat) (f : Ctx → Ctx) : (s.onCtx c f).long = s.long := rfl
@[simp] theorem State.onCtx_nextId (c : Nat) (f : Ctx → Ctx) : (s.onCtx c f).nextId = s.nextId := rfl
@[simp] theorem State.onCtx_tele (c : Nat) (f : Ctx → Ctx) : (s.onCtx c f).tele = s.tele := rfl
@[simp] theorem State.onCtx_binds (c : Nat) (f : Ctx → Ctx) : (s.onCtx c f).binds = s.binds := rfl
@[simp] theorem State.onCtx_resets (c : Nat) (f : Ctx → Ctx) : (s.onCtx c f).resets = s.resets := rfl
@[simp] theorem State.onCtx_hostMem (c : Nat) (f : Ctx → Ctx) : (s.onCtx c f).hostMem = s.hostMem := rfl
@[simp] theorem State.onCtx_free (c : Nat) (f : Ctx → Ctx) : (s.onCtx c f).free = s.free := rfl

/-! onPart writes `ctxs` alone. -/

@[simp] theorem State.onPart_pending (c : Nat) (f : Part → Part) : (s.onPart c f).pending = s.pending := rfl
@[simp] theorem State.onPart_clk (c : Nat) (f : Part → Part) : (s.onPart c f).clk = s.clk := rfl
@[simp] theorem State.onPart_regions (c : Nat) (f : Part → Part) : (s.onPart c f).regions = s.regions := rfl
@[simp] theorem State.onPart_tiles (c : Nat) (f : Part → Part) : (s.onPart c f).tiles = s.tiles := rfl
@[simp] theorem State.onPart_routers (c : Nat) (f : Part → Part) : (s.onPart c f).routers = s.routers := rfl
@[simp] theorem State.onPart_hubs (c : Nat) (f : Part → Part) : (s.onPart c f).hubs = s.hubs := rfl
@[simp] theorem State.onPart_fly (c : Nat) (f : Part → Part) : (s.onPart c f).fly = s.fly := rfl
@[simp] theorem State.onPart_waggle (c : Nat) (f : Part → Part) : (s.onPart c f).waggle = s.waggle := rfl
@[simp] theorem State.onPart_wgSeq (c : Nat) (f : Part → Part) : (s.onPart c f).wgSeq = s.wgSeq := rfl
@[simp] theorem State.onPart_scs (c : Nat) (f : Part → Part) : (s.onPart c f).scs = s.scs := rfl
@[simp] theorem State.onPart_links (c : Nat) (f : Part → Part) : (s.onPart c f).links = s.links := rfl
@[simp] theorem State.onPart_pod (c : Nat) (f : Part → Part) : (s.onPart c f).pod = s.pod := rfl
@[simp] theorem State.onPart_ha (c : Nat) (f : Part → Part) : (s.onPart c f).ha = s.ha := rfl
@[simp] theorem State.onPart_gov (c : Nat) (f : Part → Part) : (s.onPart c f).gov = s.gov := rfl
@[simp] theorem State.onPart_pwr (c : Nat) (f : Part → Part) : (s.onPart c f).pwr = s.pwr := rfl
@[simp] theorem State.onPart_log (c : Nat) (f : Part → Part) : (s.onPart c f).log = s.log := rfl
@[simp] theorem State.onPart_tr (c : Nat) (f : Part → Part) : (s.onPart c f).tr = s.tr := rfl
@[simp] theorem State.onPart_long (c : Nat) (f : Part → Part) : (s.onPart c f).long = s.long := rfl
@[simp] theorem State.onPart_nextId (c : Nat) (f : Part → Part) : (s.onPart c f).nextId = s.nextId := rfl
@[simp] theorem State.onPart_tele (c : Nat) (f : Part → Part) : (s.onPart c f).tele = s.tele := rfl
@[simp] theorem State.onPart_binds (c : Nat) (f : Part → Part) : (s.onPart c f).binds = s.binds := rfl
@[simp] theorem State.onPart_resets (c : Nat) (f : Part → Part) : (s.onPart c f).resets = s.resets := rfl
@[simp] theorem State.onPart_hostMem (c : Nat) (f : Part → Part) : (s.onPart c f).hostMem = s.hostMem := rfl
@[simp] theorem State.onPart_free (c : Nat) (f : Part → Part) : (s.onPart c f).free = s.free := rfl

/-! onRing writes `ctxs` alone. -/

@[simp] theorem State.onRing_pending (c : Nat) (f : Ring → Ring) : (s.onRing c f).pending = s.pending := rfl
@[simp] theorem State.onRing_clk (c : Nat) (f : Ring → Ring) : (s.onRing c f).clk = s.clk := rfl
@[simp] theorem State.onRing_regions (c : Nat) (f : Ring → Ring) : (s.onRing c f).regions = s.regions := rfl
@[simp] theorem State.onRing_tiles (c : Nat) (f : Ring → Ring) : (s.onRing c f).tiles = s.tiles := rfl
@[simp] theorem State.onRing_routers (c : Nat) (f : Ring → Ring) : (s.onRing c f).routers = s.routers := rfl
@[simp] theorem State.onRing_hubs (c : Nat) (f : Ring → Ring) : (s.onRing c f).hubs = s.hubs := rfl
@[simp] theorem State.onRing_fly (c : Nat) (f : Ring → Ring) : (s.onRing c f).fly = s.fly := rfl
@[simp] theorem State.onRing_waggle (c : Nat) (f : Ring → Ring) : (s.onRing c f).waggle = s.waggle := rfl
@[simp] theorem State.onRing_wgSeq (c : Nat) (f : Ring → Ring) : (s.onRing c f).wgSeq = s.wgSeq := rfl
@[simp] theorem State.onRing_scs (c : Nat) (f : Ring → Ring) : (s.onRing c f).scs = s.scs := rfl
@[simp] theorem State.onRing_links (c : Nat) (f : Ring → Ring) : (s.onRing c f).links = s.links := rfl
@[simp] theorem State.onRing_pod (c : Nat) (f : Ring → Ring) : (s.onRing c f).pod = s.pod := rfl
@[simp] theorem State.onRing_ha (c : Nat) (f : Ring → Ring) : (s.onRing c f).ha = s.ha := rfl
@[simp] theorem State.onRing_gov (c : Nat) (f : Ring → Ring) : (s.onRing c f).gov = s.gov := rfl
@[simp] theorem State.onRing_pwr (c : Nat) (f : Ring → Ring) : (s.onRing c f).pwr = s.pwr := rfl
@[simp] theorem State.onRing_log (c : Nat) (f : Ring → Ring) : (s.onRing c f).log = s.log := rfl
@[simp] theorem State.onRing_tr (c : Nat) (f : Ring → Ring) : (s.onRing c f).tr = s.tr := rfl
@[simp] theorem State.onRing_long (c : Nat) (f : Ring → Ring) : (s.onRing c f).long = s.long := rfl
@[simp] theorem State.onRing_nextId (c : Nat) (f : Ring → Ring) : (s.onRing c f).nextId = s.nextId := rfl
@[simp] theorem State.onRing_tele (c : Nat) (f : Ring → Ring) : (s.onRing c f).tele = s.tele := rfl
@[simp] theorem State.onRing_binds (c : Nat) (f : Ring → Ring) : (s.onRing c f).binds = s.binds := rfl
@[simp] theorem State.onRing_resets (c : Nat) (f : Ring → Ring) : (s.onRing c f).resets = s.resets := rfl
@[simp] theorem State.onRing_hostMem (c : Nat) (f : Ring → Ring) : (s.onRing c f).hostMem = s.hostMem := rfl
@[simp] theorem State.onRing_free (c : Nat) (f : Ring → Ring) : (s.onRing c f).free = s.free := rfl

/-! at writes `clk` alone. -/

@[simp] theorem State.at_pending (cyc : Nat) : (s.at cyc).pending = s.pending := rfl
@[simp] theorem State.at_regions (cyc : Nat) : (s.at cyc).regions = s.regions := rfl
@[simp] theorem State.at_tiles (cyc : Nat) : (s.at cyc).tiles = s.tiles := rfl
@[simp] theorem State.at_routers (cyc : Nat) : (s.at cyc).routers = s.routers := rfl
@[simp] theorem State.at_hubs (cyc : Nat) : (s.at cyc).hubs = s.hubs := rfl
@[simp] theorem State.at_fly (cyc : Nat) : (s.at cyc).fly = s.fly := rfl
@[simp] theorem State.at_waggle (cyc : Nat) : (s.at cyc).waggle = s.waggle := rfl
@[simp] theorem State.at_wgSeq (cyc : Nat) : (s.at cyc).wgSeq = s.wgSeq := rfl
@[simp] theorem State.at_scs (cyc : Nat) : (s.at cyc).scs = s.scs := rfl
@[simp] theorem State.at_links (cyc : Nat) : (s.at cyc).links = s.links := rfl
@[simp] theorem State.at_pod (cyc : Nat) : (s.at cyc).pod = s.pod := rfl
@[simp] theorem State.at_ctxs (cyc : Nat) : (s.at cyc).ctxs = s.ctxs := rfl
@[simp] theorem State.at_ha (cyc : Nat) : (s.at cyc).ha = s.ha := rfl
@[simp] theorem State.at_gov (cyc : Nat) : (s.at cyc).gov = s.gov := rfl
@[simp] theorem State.at_pwr (cyc : Nat) : (s.at cyc).pwr = s.pwr := rfl
@[simp] theorem State.at_log (cyc : Nat) : (s.at cyc).log = s.log := rfl
@[simp] theorem State.at_tr (cyc : Nat) : (s.at cyc).tr = s.tr := rfl
@[simp] theorem State.at_long (cyc : Nat) : (s.at cyc).long = s.long := rfl
@[simp] theorem State.at_nextId (cyc : Nat) : (s.at cyc).nextId = s.nextId := rfl
@[simp] theorem State.at_tele (cyc : Nat) : (s.at cyc).tele = s.tele := rfl
@[simp] theorem State.at_binds (cyc : Nat) : (s.at cyc).binds = s.binds := rfl
@[simp] theorem State.at_resets (cyc : Nat) : (s.at cyc).resets = s.resets := rfl
@[simp] theorem State.at_hostMem (cyc : Nat) : (s.at cyc).hostMem = s.hostMem := rfl
@[simp] theorem State.at_free (cyc : Nat) : (s.at cyc).free = s.free := rfl

@[simp] theorem State.at_beat (cyc : Nat) : (s.at cyc).clk.beat = s.clk.beat := rfl
@[simp] theorem State.at_m (cyc : Nat) : (s.at cyc).clk.m = s.clk.m := rfl
@[simp] theorem State.at_stretch (cyc : Nat) : (s.at cyc).clk.stretch = s.clk.stretch := rfl
@[simp] theorem State.at_mode (cyc : Nat) : (s.at cyc).clk.mode = s.clk.mode := rfl
@[simp] theorem State.at_wall (cyc : Nat) : (s.at cyc).clk.wall = s.clk.wall := rfl
@[simp] theorem State.at_cycle (cyc : Nat) : (s.at cyc).clk.cycle = max s.clk.cycle cyc := rfl

@[simp] theorem State.at_region_get (cyc k : Nat) : (s.at cyc).region k = s.region k := rfl
@[simp] theorem State.at_tile_get (cyc k : Nat) : (s.at cyc).tile k = s.tile k := rfl
@[simp] theorem State.at_router_get (cyc k : Nat) : (s.at cyc).router k = s.router k := rfl
@[simp] theorem State.at_sc_get (cyc k : Nat) : (s.at cyc).sc k = s.sc k := rfl
@[simp] theorem State.at_link_get (cyc k : Nat) : (s.at cyc).link k = s.link k := rfl
@[simp] theorem State.at_ctx_get (cyc k : Nat) : (s.at cyc).ctx k = s.ctx k := rfl

/-! Packets of the Waggle network. -/

/-- All that putting a packet on its way can change: a destination's `unreached`, the hubs' counters, the network with its senders' sequence
numbers, and the Keeper's event buffer. -/
theorem State.send_shape (src dst : Nat) (m : WMsg) : ∃ r h w q l, s.send src dst m = { s with regions := r, hubs := h, waggle := w, wgSeq := q, log := l } := by
  have hubs : ∀ (p : List Nat) (t : State), ∃ h, p.foldl (fun s n => s.onHub n (fun x => { x with pkts := x.pkts + 1 })) t = { t with hubs := h } := by
    intro p
    induction p with
    | nil => exact fun t => ⟨t.hubs, rfl⟩
    | cons n p ih =>
      intro t
      obtain ⟨h, e⟩ := ih (t.onHub n (fun x => { x with pkts := x.pkts + 1 }))
      exact ⟨h, by rw [List.foldl_cons, e]; rfl⟩
  have carry : ∃ r h, (s.carry src dst).1 = { s with regions := r, hubs := h } := by
    unfold State.carry
    split
    · dsimp only
      split
      · exact ⟨_, _, rfl⟩
      · exact ⟨s.regions, _, rfl⟩
    · obtain ⟨h, e⟩ := hubs _ s
      exact ⟨s.regions, h, e⟩
  obtain ⟨r, h, e⟩ := carry
  unfold State.send State.sendPkt
  dsimp only
  split
  · simp only [State.noteEvent, State.countSeq, e, Bool.false_eq_true, if_false]
    split
    · exact ⟨_, _, _, _, _, rfl⟩
    · exact ⟨_, _, _, _, s.log, rfl⟩
  · exact ⟨r, h, s.waggle, s.wgSeq, s.log, e⟩
@[simp] theorem State.send_pending (src dst : Nat) (m : WMsg) : (s.send src dst m).pending = s.pending := by obtain ⟨_, _, _, _, _, h⟩ := s.send_shape src dst m; rw [h]
@[simp] theorem State.send_clk (src dst : Nat) (m : WMsg) : (s.send src dst m).clk = s.clk := by obtain ⟨_, _, _, _, _, h⟩ := s.send_shape src dst m; rw [h]
@[simp] theorem State.send_tiles (src dst : Nat) (m : WMsg) : (s.send src dst m).tiles = s.tiles := by obtain ⟨_, _, _, _, _, h⟩ := s.send_shape src dst m; rw [h]
@[simp] theorem State.send_routers (src dst : Nat) (m : WMsg) : (s.send src dst m).routers = s.routers := by obtain ⟨_, _, _, _, _, h⟩ := s.send_shape src dst m; rw [h]
@[simp] theorem State.send_fly (src dst : Nat) (m : WMsg) : (s.send src dst m).fly = s.fly := by obtain ⟨_, _, _, _, _, h⟩ := s.send_shape src dst m; rw [h]
@[simp] theorem State.send_scs (src dst : Nat) (m : WMsg) : (s.send src dst m).scs = s.scs := by obtain ⟨_, _, _, _, _, h⟩ := s.send_shape src dst m; rw [h]
@[simp] theorem State.send_links (src dst : Nat) (m : WMsg) : (s.send src dst m).links = s.links := by obtain ⟨_, _, _, _, _, h⟩ := s.send_shape src dst m; rw [h]
@[simp] theorem State.send_pod (src dst : Nat) (m : WMsg) : (s.send src dst m).pod = s.pod := by obtain ⟨_, _, _, _, _, h⟩ := s.send_shape src dst m; rw [h]
@[simp] theorem State.send_ctxs (src dst : Nat) (m : WMsg) : (s.send src dst m).ctxs = s.ctxs := by obtain ⟨_, _, _, _, _, h⟩ := s.send_shape src dst m; rw [h]
@[simp] theorem State.send_ha (src dst : Nat) (m : WMsg) : (s.send src dst m).ha = s.ha := by obtain ⟨_, _, _, _, _, h⟩ := s.send_shape src dst m; rw [h]
@[simp] theorem State.send_gov (src dst : Nat) (m : WMsg) : (s.send src dst m).gov = s.gov := by obtain ⟨_, _, _, _, _, h⟩ := s.send_shape src dst m; rw [h]
@[simp] theorem State.send_pwr (src dst : Nat) (m : WMsg) : (s.send src dst m).pwr = s.pwr := by obtain ⟨_, _, _, _, _, h⟩ := s.send_shape src dst m; rw [h]
@[simp] theorem State.send_tr (src dst : Nat) (m : WMsg) : (s.send src dst m).tr = s.tr := by obtain ⟨_, _, _, _, _, h⟩ := s.send_shape src dst m; rw [h]
@[simp] theorem State.send_long (src dst : Nat) (m : WMsg) : (s.send src dst m).long = s.long := by obtain ⟨_, _, _, _, _, h⟩ := s.send_shape src dst m; rw [h]
@[simp] theorem State.send_nextId (src dst : Nat) (m : WMsg) : (s.send src dst m).nextId = s.nextId := by obtain ⟨_, _, _, _, _, h⟩ := s.send_shape src dst m; rw [h]
@[simp] theorem State.send_tele (src dst : Nat) (m : WMsg) : (s.send src dst m).tele = s.tele := by obtain ⟨_, _, _, _, _, h⟩ := s.send_shape src dst m; rw [h]
@[simp] theorem State.send_binds (src dst : Nat) (m : WMsg) : (s.send src dst m).binds = s.binds := by obtain ⟨_, _, _, _, _, h⟩ := s.send_shape src dst m; rw [h]
@[simp] theorem State.send_resets (src dst : Nat) (m : WMsg) : (s.send src dst m).resets = s.resets := by obtain ⟨_, _, _, _, _, h⟩ := s.send_shape src dst m; rw [h]
@[simp] theorem State.send_hostMem (src dst : Nat) (m : WMsg) : (s.send src dst m).hostMem = s.hostMem := by obtain ⟨_, _, _, _, _, h⟩ := s.send_shape src dst m; rw [h]
@[simp] theorem State.send_free (src dst : Nat) (m : WMsg) : (s.send src dst m).free = s.free := by obtain ⟨_, _, _, _, _, h⟩ := s.send_shape src dst m; rw [h]
/-- Taking a packet off the network changes the network alone. -/
theorem State.take_shape {s u : State} {q : WPkt → Bool} {p : WPkt} (h : s.take q = some (p, u)) : u = { s with waggle := s.waggle.erase p } := by
  unfold State.take at h
  rw [Option.map_eq_some_iff] at h
  obtain ⟨x, -, hx⟩ := h
  injection hx with h1 h2
  rw [← h1, ← h2]
/-- What a fold of sends keeps. -/
theorem State.foldl_keeps {α β : Type} (k : State → β) (f : State → α → State) (h : ∀ s a, k (f s a) = k s) (l : List α) (s : State) : k (l.foldl f s) = k s := by
  induction l generalizing s with
  | nil => rfl
  | cons a l ih => rw [List.foldl_cons, ih, h]

end Sys2Proof.Machine
end

