-- ==== Sys2Proof/Laws/Kept.lean ====
section
/-! SUPPORT. What the operations and the commands leave alone: the queue, the beat number, the clock period and the orders for it, the module's
identity, the minimum SVN and the officer table change in a few places alone; every other function keeps them. -/

namespace Sys2Proof.Machine

set_option linter.unusedTactic false
set_option linter.unreachableTactic false
set_option linter.unusedSimpArgs false
set_option linter.unnecessarySeqFocus false

/-- What only a few commands change: the queue, the beat number, the clock period with the orders for it, the identity of the module, the
minimum SVN and the officer table. -/
structure Kept where
  pending : List Instr
  beat : Nat
  m : Nat
  stretch : List (Nat × Nat)
  idCert : List Byte
  caCert : List Byte
  idKey : List Byte
  serial : W32
  mac : List Byte
  chained : List (List Byte × List Byte)
  minSvn : Nat
  officers : Tab (List Byte)
  ogen : W32
/-- Those parts of a machine. -/
def State.kept (s : State) : Kept := ⟨s.pending, s.clk.beat, s.clk.m, s.clk.stretch, s.tr.idCert, s.tr.caCert, s.tr.idKey, s.tr.serial, s.tr.mac, s.tr.chained, s.tr.minSvn, s.tr.officers, s.tr.ogen⟩
@[simp] theorem State.kept_mk (a b c d e f g h i w0 j k l m n o p q r u v w x y z) :
  State.kept ⟨a,b,c,d,e,f,g,h,i,w0,j,k,l,m,n,o,p,q,r,u,v,w,x,y,z⟩ = ⟨a, b.beat, b.m, b.stretch, q.idCert, q.caCert, q.idKey, q.serial, q.mac, q.chained, q.minSvn, q.officers, q.ogen⟩ := rfl
@[simp] theorem Kept.eta (s : State) : (⟨s.pending, s.clk.beat, s.clk.m, s.clk.stretch, s.tr.idCert, s.tr.caCert, s.tr.idKey, s.tr.serial, s.tr.mac, s.tr.chained, s.tr.minSvn, s.tr.officers, s.tr.ogen⟩ : Kept) = s.kept := rfl
@[simp] theorem kept_ite {P : Prop} [Decidable P] (a b : State) : (if P then a else b).kept = if P then a.kept else b.kept := by split <;> rfl
@[simp] theorem kept_foldl {β : Type} (f : State → β → State) (h : ∀ s x, (f s x).kept = s.kept) (l : List β) (s : State) : (l.foldl f s).kept = s.kept := by
  induction l generalizing s with
  | nil => rfl
  | cons a l ih => rw [List.foldl_cons, ih, h]
@[simp] theorem kept_foldl1 {β γ : Type} (f : State × γ → β → State × γ) (h : ∀ s x, (f s x).1.kept = s.1.kept) (l : List β) (s : State × γ) : (l.foldl f s).1.kept = s.1.kept := by
  induction l generalizing s with
  | nil => rfl
  | cons a l ih => rw [List.foldl_cons, ih, h]
theorem kept_fst {α : Type} {x : State × α} {t : State} {a : α} (h : x = (t, a)) : t.kept = x.1.kept := by rw [h]
theorem State.take_kept {s s' : State} {q : WPkt → Bool} {p : WPkt} (h : s.take q = some (p, s')) : s'.kept = s.kept := by
  unfold State.take at h
  simp only [Option.map_eq_some_iff, Prod.mk.injEq] at h
  obtain ⟨_, _, _, rfl⟩ := h
  rfl


/-! Machine/Ops.lean -/

@[simp] theorem State.onRegion_kept (s : State) (r1 : ℕ) (f2 : Region → Region) : (State.onRegion s r1 f2).kept = s.kept := by
  rfl
@[simp] theorem State.setTile_kept (s : State) (t1 : ℕ) (x2 : Tile) : (State.setTile s t1 x2).kept = s.kept := by
  rfl
@[simp] theorem State.onTile_kept (s : State) (t1 : ℕ) (f2 : Tile → Tile) : (State.onTile s t1 f2).kept = s.kept := by
  rfl
@[simp] theorem State.onRouter_kept (s : State) (t1 : ℕ) (f2 : Router → Router) : (State.onRouter s t1 f2).kept = s.kept := by
  rfl
@[simp] theorem State.onHub_kept (s : State) (r1 : ℕ) (f2 : Hub → Hub) : (State.onHub s r1 f2).kept = s.kept := by
  rfl
@[simp] theorem State.onSc_kept (s : State) (n1 : ℕ) (f2 : Sc → Sc) : (State.onSc s n1 f2).kept = s.kept := by
  rfl
@[simp] theorem State.onLink_kept (s : State) (n1 : ℕ) (f2 : Link → Link) : (State.onLink s n1 f2).kept = s.kept := by
  rfl
@[simp] theorem State.onCtx_kept (s : State) (c1 : ℕ) (f2 : Ctx → Ctx) : (State.onCtx s c1 f2).kept = s.kept := by
  rfl
@[simp] theorem State.onPart_kept (s : State) (c1 : ℕ) (f2 : Part → Part) : (State.onPart s c1 f2).kept = s.kept := by
  rfl
@[simp] theorem State.onRing_kept (s : State) (c1 : ℕ) (f2 : Ring → Ring) : (State.onRing s c1 f2).kept = s.kept := by
  rfl
@[simp] theorem State.drawFree_kept (s : State) : (State.drawFree s).2.kept = s.kept := by
  rfl
@[simp] theorem State.at_kept (s : State) (cyc1 : ℕ) : (State.at s cyc1).kept = s.kept := by
  rfl
@[simp] theorem State.onTiles_kept (s : State) (rs1 : List ℕ) (f2 : Tile → Tile) : (State.onTiles s rs1 f2).kept = s.kept := by
  rfl
@[simp] theorem State.carry_kept (s : State) (src1 : ℕ) (dst2 : ℕ) : (State.carry s src1 dst2).1.kept = s.kept := by
  (unfold State.carry; (repeat' split) <;> simp [*])
@[simp] theorem State.countSeq_kept (s : State) (src1 : ℕ) : (State.countSeq s src1).kept = s.kept := by
  rfl
@[simp] theorem State.noteEvent_kept (s : State) (p1 : WPkt) : (State.noteEvent s p1).kept = s.kept := by
  unfold State.noteEvent; split
  · simp only [State.kept]
  · rfl
@[simp] theorem State.sendPkt_kept (s : State) (src1 : ℕ) (dst2 : ℕ) (m3 : WMsg) (now4 : Bool) : (State.sendPkt s src1 dst2 m3 now4).1.kept = s.kept := by
  unfold State.sendPkt
  dsimp only
  split
  · simp only [State.noteEvent_kept, State.countSeq_kept]
    exact State.carry_kept s src1 dst2
  · exact State.carry_kept s src1 dst2
@[simp] theorem State.send_kept (s : State) (src1 : ℕ) (dst2 : ℕ) (m3 : WMsg) : (State.send s src1 dst2 m3).kept = s.kept := by
  (unfold State.send; (repeat' split) <;> simp [*])
@[simp] theorem State.askHold_kept (s : State) (c1 : ℕ) (src2 : ℕ) (why3 : HoldWhy) : (State.askHold s c1 src2 why3).kept = s.kept := by
  (unfold State.askHold; (repeat' split) <;> simp [*])
@[simp] theorem State.logRec_kept (s : State) (typ1 : ℕ) (flags2 : ℕ) (ctx3 : ℕ) (len4 : ℕ) (body5 : List Byte) : (State.logRec s typ1 flags2 ctx3 len4 body5).kept = s.kept := by
  simp [State.logRec]
@[simp] theorem State.putStatus_kept (s : State) (c1 : ℕ) : (State.putStatus s c1).kept = s.kept := by
  unfold State.putStatus; exact State.kept_mk ..
@[simp] theorem State.raiseVec_kept (s : State) (v1 : ℕ) : (State.raiseVec s v1).kept = s.kept := by
  simp [State.raiseVec]
@[simp] theorem State.writeEntry_kept (s : State) (c1 : ℕ) (e2 : CEntry) : (State.writeEntry s c1 e2).kept = s.kept := by
  simp [State.writeEntry]
@[simp] theorem State.flush_kept (s : State) (c1 : ℕ) (x2 : ℕ) : (State.flush s c1 x2).kept = s.kept := by
  induction x2 generalizing s with
  | zero => rfl
  | succ n ih => unfold State.flush; simp only; (repeat' split) <;> simp [ih]
@[simp] theorem State.putEntry_kept (s : State) (c1 : ℕ) (e2 : CEntry) : (State.putEntry s c1 e2).kept = s.kept := by
  simp [State.putEntry]
@[simp] theorem State.post_kept (s : State) (c1 : ℕ) (code2 : ℕ) (data3 : ℕ) (about4 : ℕ) : (State.post s c1 code2 data3 about4).kept = s.kept := by
  simp [State.post]
@[simp] theorem State.postSys_kept (s : State) (code1 : ℕ) (data2 : ℕ) (about3 : ℕ) : (State.postSys s code1 data2 about3).kept = s.kept := by
  simp [State.postSys]
@[simp] theorem State.replyTo_kept (s : State) (src1 : Src) (e2 : CEntry) : (State.replyTo s src1 e2).kept = s.kept := by
  (unfold State.replyTo; (repeat' split) <;> simp [*])
@[simp] theorem State.finish_kept (s : State) (id1 : ℕ) (status2 : ℕ) (detail3 : ℕ) : (State.finish s id1 status2 detail3).kept = s.kept := by
  (unfold State.finish; (repeat' split) <;> simp [*])
@[simp] theorem State.finishAll_kept (s : State) (ids1 : List ℕ) (status2 : ℕ) (detail3 : ℕ) : (State.finishAll s ids1 status2 detail3).kept = s.kept := by
  simp [State.finishAll]

/-! Machine/Faults.lean -/

@[simp] theorem State.flagNear_kept (s : State) (u1 : ℕ) (stamp2 : ℕ) : (State.flagNear s u1 stamp2).kept = s.kept := by
  (unfold State.flagNear; (repeat' split) <;> simp [*])
@[simp] theorem State.postFault_kept (s : State) (unit1 : ℕ) (cls2 : ℕ) (idx3 : ℕ) (ctx4 : ℕ) : (State.postFault s unit1 cls2 idx3 ctx4).kept = s.kept := by
  simp [State.postFault]
@[simp] theorem State.endRun_kept (s : State) (c1 : ℕ) (status2 : ℕ) (cause3 : ℕ) : (State.endRun s c1 status2 cause3).kept = s.kept := by
  rfl
@[simp] theorem State.firstFault_kept (s : State) (c1 : ℕ) (idx2 : ℕ) (stamp3 : ℕ) : (State.firstFault s c1 idx2 stamp3).kept = s.kept := by
  (unfold State.firstFault; (repeat' split) <;> simp [*])
@[simp] theorem State.record_kept (s : State) (r1 : FReport) : (State.record s r1).kept = s.kept := by
  simp [State.record]
@[simp] theorem State.keeperFault_kept (s : State) (cls1 : ℕ) (unit2 : ℕ) (ctx3 : ℕ) (tag4 : ℕ) (det5 : List ℕ) : (State.keeperFault s cls1 unit2 ctx3 tag4 det5).kept = s.kept := by
  (unfold State.keeperFault; (try dsimp only); (repeat' split) <;> simp [*])
@[simp] theorem State.report_kept (s : State) (r1 : FReport) : (State.report s r1).kept = s.kept := by
  simp [State.report]
@[simp] theorem State.beatEvent_kept (s : State) (kind1 : ℕ) (old2 : ℕ) (new3 : ℕ) : (State.beatEvent s kind1 old2 new3).kept = s.kept := by
  rfl

/-! Machine/Extents.lean -/

@[simp] theorem State.setExt_kept (s : State) (e1 : ℕ) (x2 : ExtEnt) : (State.setExt s e1 x2).kept = s.kept := by
  rfl
@[simp] theorem State.setPage_kept (s : State) (e1 : ℕ) (x2 : ExtEnt) (l3 : ℕ) (w4 : ℕ) : (State.setPage s e1 x2 l3 w4).kept = s.kept := by
  rfl
@[simp] theorem State.touch_kept (s : State) (e1 : ℕ) (x2 : ExtEnt) (l3 : ℕ) : (State.touch s e1 x2 l3).kept = s.kept := by
  simp [State.touch]
@[simp] theorem State.checkStore_kept (s : State) (e1 : ℕ) (x2 : ExtEnt) (off3 : ℕ) : (State.checkStore s e1 x2 off3).1.kept = s.kept := by
  (unfold State.checkStore; (try dsimp only); (repeat' split) <;> simp [*])
@[simp] theorem State.checkRange_kept (s : State) (e1 : ℕ) (x2 : ExtEnt) (off3 : ℕ) (last4 : ℕ) (x5 : ℕ) : (State.checkRange s e1 x2 off3 last4 x5).1.kept = s.kept := by
  induction x5 generalizing s off3 with
  | zero => rfl
  | succ n ih =>
    unfold State.checkRange
    (repeat' split)
    · rfl
    · next heq => rw [ih]; have hk := congrArg (fun p => (Prod.fst p).kept) heq; simpa using hk.symm
    · exact State.checkStore_kept ..
@[simp] theorem State.readExt_kept (s : State) (e1 : ℕ) (x2 : ExtEnt) (off3 : ℕ) (n4 : ℕ) : (State.readExt s e1 x2 off3 n4).1.kept = s.kept := by
  (unfold State.readExt; (try dsimp only); (repeat' split) <;> first | (simp [*]; done) | (have hk := kept_fst ‹_›; simp at hk; simp [hk]) | (have hk := State.take_kept ‹_›; simp at hk; simp [*]))
@[simp] theorem State.writeExt_kept (s : State) (e1 : ℕ) (x2 : ExtEnt) (off3 : ℕ) (x4 : List Byte) : (State.writeExt s e1 x2 off3 x4).kept = s.kept := by
  induction x4 generalizing s off3 with
  | nil => rfl
  | cons b bs ih => unfold State.writeExt; simp only [ih]; split <;> simp
@[simp] theorem State.dataFault_kept (s : State) (x1 : DRef) (ctx2 : ℕ) (tag3 : ℕ) (err4 : ExtErr) : (State.dataFault s x1 ctx2 tag3 err4).1.kept = s.kept := by
  (unfold State.dataFault; (try dsimp only); (repeat' split) <;> simp [*])
@[simp] theorem State.spendIo_kept (s : State) (e1 : ℕ) (off2 : ℕ) (n3 : ℕ) : (State.spendIo s e1 off2 n3).kept = s.kept := by
  (unfold State.spendIo; (repeat' split) <;> simp [*])
@[simp] theorem State.readRef_kept (s : State) (x1 : DRef) (ctx2 : ℕ) (tag3 : ℕ) : (State.readRef s x1 ctx2 tag3).1.kept = s.kept := by
  (unfold State.readRef; (try dsimp only); (repeat' split) <;> first | (simp [*]; done) | (have hk := kept_fst ‹_›; simp at hk; simp [hk]) | (have hk := State.take_kept ‹_›; simp at hk; simp [*]))
@[simp] theorem State.writeRef_kept (s : State) (x1 : DRef) (out2 : List Byte) : (State.writeRef s x1 out2).1.kept = s.kept := by
  (unfold State.writeRef; (try dsimp only); (repeat' split) <;> simp [*])

/-! Machine/Packets.lean -/

@[simp] theorem State.stopRing_kept (s : State) (c1 : ℕ) (err2 : ℕ) : (State.stopRing s c1 err2).kept = s.kept := by
  simp [State.stopRing]
@[simp] theorem State.consume_kept (s : State) (h1 : Hdr) : (State.consume s h1).kept = s.kept := by
  (unfold State.consume; (try dsimp only); (repeat' split) <;> simp [*])
@[simp] theorem State.nextId_long_kept (s : State) (l : List Long) (n : Nat) : ({ s with long := l, nextId := n } : State).kept = s.kept := rfl
/-- A verdict whose machines keep them. -/
def Verdict.okFor (k : Kept) : Verdict → Prop
  | .done _ _ s => s.kept = k
  | .accept _ _ _ _ start s => s.kept = k ∧ ∀ id t, t.kept = k → (start id t).kept = k
  | .later _ _ _ start s => s.kept = k ∧ ∀ id t, t.kept = k → (start id t).kept = k
@[simp] theorem okFor_done (k : Kept) (a b) (s : State) : (Verdict.done a b s).okFor k ↔ s.kept = k := Iff.rfl
@[simp] theorem okFor_accept (k : Kept) (a j b c) (f) (s : State) : (Verdict.accept a j b c f s).okFor k ↔ s.kept = k ∧ ∀ id t, t.kept = k → (f id t).kept = k := Iff.rfl
@[simp] theorem okFor_later (k : Kept) (j b c) (f) (s : State) : (Verdict.later j b c f s).okFor k ↔ s.kept = k ∧ ∀ id t, t.kept = k → (f id t).kept = k := Iff.rfl
theorem Verdict.apply_kept {k : Kept} (h : Hdr) (op : Nat) : ∀ {v : Verdict}, v.okFor k → (v.apply h op).kept = k
  | .done a b s, e => by simpa [Verdict.apply] using e
  | .accept _ _ _ _ start s, e => by
    unfold Verdict.apply
    exact e.2 _ _ (by simp [e.1])
  | .later _ _ _ start s, e => by
    unfold Verdict.apply
    exact e.2 _ _ (by simp [e.1])
theorem packet_kept (op : Nat) (lens : List Nat) (sysOnly : Bool) (h : Hdr) (s : State) (body : State → Verdict)
    (hb : ∀ t, t.kept = s.kept → (body t).okFor s.kept) : (packet op lens sysOnly h s body).kept = s.kept := by
  unfold packet
  dsimp only
  (repeat' split) <;> first | (simp; done) | (refine Verdict.apply_kept _ _ ?_; first | (simp; done) | exact hb _ (by simp))
@[simp] theorem okFor_refuse (k : Kept) (st) (s : State) : (refuse st s).okFor k ↔ s.kept = k := Iff.rfl
@[simp] theorem okFor_ite (k : Kept) {P : Prop} [Decidable P] (a b : Verdict) : (if P then a else b).okFor k ↔ if P then a.okFor k else b.okFor k := by split <;> rfl
theorem okFor_check6 (k : Kept) (h : Hdr) (s : State) (ok : Bool) (v : Verdict) (hs : s.kept = k) (hv : v.okFor k) : (check6 h s ok v).okFor k := by
  unfold check6; split <;> simp [*]
theorem okFor_acceptNow (k : Kept) (s : State) (j : Job) (f : State → State × Nat × Nat) (hs : s.kept = k) (hf : ∀ t, t.kept = k → (f t).1.kept = k) :
    (acceptNow s j f).okFor k := by
  unfold acceptNow; simp [hs]; exact fun t ht => hf t ht
theorem okFor_withRef (k : Kept) (h : Hdr) (x : DRef) (s : State) (ok : Bool) (v : Verdict) (hs : s.kept = k) (hv : v.okFor k) : (withRef h x s ok v).okFor k := by
  unfold withRef; (repeat' split) <;> first | (simp [*]; done) | exact okFor_check6 _ _ _ _ _ hs hv
theorem okFor_writeOut (k : Kept) (h : Hdr) (x : DRef) (s : State) (ok : Bool) (out : List Byte) (hs : s.kept = k) : (writeOut h x s ok out).okFor k := by
  unfold writeOut; exact okFor_withRef _ _ _ _ _ _ hs (by simp [hs])
theorem okFor_withInput (k : Kept) (h : Hdr) (x : DRef) (s : State) (ok : Bool) (f : State → List Byte → Verdict) (hs : s.kept = k)
    (hf : ∀ t b, t.kept = k → (f t b).okFor k) : (withInput h x s ok f).okFor k := by
  unfold withInput
  refine okFor_withRef _ _ _ _ _ _ hs ?_
  split
  · next heq => have hk := kept_fst heq; simp [hs] at hk; exact hf _ _ hk
  · next heq => have hk := kept_fst heq; simp [hs] at hk; simp [hk]
@[simp] theorem undefPacket_kept (s : State) (p1 : ℕ × Hdr) : (undefPacket s p1).kept = s.kept := by
  unfold undefPacket
  split
  · exact Verdict.apply_kept _ _ (by simp)
  · rfl
theorem State.readThen_kept (s : State) (x : DRef) (c tag : Nat) (k : List Byte → State → State × Nat × Nat) (hk : ∀ b u, (k b u).1.kept = u.kept) :
    (s.readThen x c tag k).1.kept = s.kept := by
  have e := State.readRef_kept s x c tag
  unfold State.readThen
  cases h : s.readRef x c tag with
  | mk u r => rw [h] at e; cases r with
    | ok b => exact (hk b u).trans e
    | error d => exact e
theorem State.readFor_kept (s : State) (x : DRef) (c tag id : Nat) (k : List Byte → State → State) (hk : ∀ b u, (k b u).kept = u.kept) :
    (s.readFor x c tag id k).kept = s.kept := by
  have e := State.readRef_kept s x c tag
  unfold State.readFor
  cases h : s.readRef x c tag with
  | mk u r => rw [h] at e; cases r with
    | ok b => exact (hk b u).trans e
    | error d => simpa using e

/-! Machine/Traces.lean -/

@[simp] theorem State.endTrace_kept (s : State) (t1 : Trace) (status2 : ℕ) (detail3 : ℕ) : (State.endTrace s t1 status2 detail3).kept = s.kept := by
  simp [State.endTrace]
@[simp] theorem State.onTraces_kept (s : State) (f1 : Trace → Trace) : (State.onTraces s f1).kept = s.kept := by
  rfl
@[simp] theorem State.traceOne.lost_kept (t0 : Trace) (s : State) (off2 : ℕ) : (State.traceOne.lost t0 s off2).kept = s.kept := by
  simp [State.traceOne.lost]
@[simp] theorem State.traceOne_kept (s : State) (t1 : Trace) (r2 : TRec) : (State.traceOne s t1 r2).kept = s.kept := by
  unfold State.traceOne
  dsimp only
  split
  · rfl
  · split
    · split
      · simp
      · rw [State.onTraces_kept]
        exact kept_foldl _ (fun s q => by simp) _ _
    · simp
@[simp] theorem State.traceEvent_kept (s : State) (u1 : ℕ) (stamp2 : ℕ) (tag3 : ℕ) (ev4 : ℕ) : (State.traceEvent s u1 stamp2 tag3 ev4).kept = s.kept := by
  simp [State.traceEvent]

/-! Machine/Runs.lean -/

@[simp] theorem State.tileFault_kept (s : State) (t1 : ℕ) (cyc2 : ℕ) (f3 : TFault) : (State.tileFault s t1 cyc2 f3).kept = s.kept := by
  simp [State.tileFault]
@[simp] theorem State.tileGoes_kept (s : State) (t1 : ℕ) (cyc2 : ℕ) : (State.tileGoes s t1 cyc2).kept = s.kept := by
  (unfold State.tileGoes; (try dsimp only); (repeat' split) <;> simp [*])
@[simp] theorem State.landFlit_kept (t0 : ℕ) (s : State) (f2 : InFlit) : (State.landFlit t0 s f2).kept = s.kept := by
  (unfold State.landFlit; (repeat' split) <;> simp [*])
@[simp] theorem State.landTile_kept (s : State) (t1 : ℕ) : (State.landTile s t1).kept = s.kept := by
  (unfold State.landTile; (repeat' split) <;> simp [*])
@[simp] theorem State.abortStreams_kept (s : State) (cause1 : ℕ) (q2 : Slot → Bool) : (State.abortStreams s cause1 q2).kept = s.kept := by
  rfl
@[simp] theorem State.dropReds_kept (s : State) (c1 : ℕ) : (State.dropReds s c1).kept = s.kept := by
  rfl
@[simp] theorem State.freeBuffers_kept (s : State) (c1 : ℕ) : (State.freeBuffers s c1).kept = s.kept := by
  rfl
@[simp] theorem State.planOver_kept (s : State) (c1 : ℕ) : (State.planOver s c1).kept = s.kept := by
  rfl
@[simp] theorem State.dropQueued_kept (s : State) (c1 : ℕ) (status2 : ℕ) (cause3 : ℕ) : (State.dropQueued s c1 status2 cause3).kept = s.kept := by
  (unfold State.dropQueued; (try dsimp only); (repeat' split) <;> simp [*])
@[simp] theorem State.closeRun_kept (s : State) (c1 : ℕ) (status2 : ℕ) (detail3 : ℕ) : (State.closeRun s c1 status2 detail3).kept = s.kept := by
  (unfold State.closeRun; (try dsimp only); (repeat' split) <;> simp [*])
@[simp] theorem State.closeEnded_kept (s : State) (c1 : ℕ) (e2 : Ending) : (State.closeEnded s c1 e2).kept = s.kept := by
  simp [State.closeEnded]
@[simp] theorem State.killRuns_kept (s : State) (c1 : ℕ) (status2 : ℕ) (cause3 : ℕ) : (State.killRuns s c1 status2 cause3).kept = s.kept := by
  (unfold State.killRuns; (try dsimp only); (repeat' split) <;> simp [*])
@[simp] theorem State.onLeases_kept (s : State) (r1 : ℕ) (f2 : List Lease → List Lease) : (State.onLeases s r1 f2).kept = s.kept := by
  rfl
@[simp] theorem State.leaseTake_kept (s : State) (l1 : Lease) : (State.leaseTake s l1).1.kept = s.kept := by
  (unfold State.leaseTake; (try dsimp only); (repeat' split) <;> simp [*])
@[simp] theorem State.leaseDrop_kept (s : State) (l1 : Lease) : (State.leaseDrop s l1).kept = s.kept := by
  rfl
@[simp] theorem State.abandonCommit_kept (s : State) (c1 : ℕ) (parcel2 : ℕ) : (State.abandonCommit s c1 parcel2).kept = s.kept := by
  rfl
@[simp] theorem State.testResult_kept (s : State) (t1 : TestUnit) (res2 : ℕ) (cls3 : ℕ) (sites4 : ℕ) (passed5 : ℕ) (failed6 : ℕ) : (State.testResult s t1 res2 cls3 sites4 passed5 failed6).kept = s.kept := by
  rfl
@[simp] theorem State.reinitCluster_kept (s : State) (r1 : ℕ) (k2 : ℕ) (c3 : ℕ) (powered4 : Bool) : (State.reinitCluster s r1 k2 c3 powered4).kept = s.kept := by
  simp [State.reinitCluster]
@[simp] theorem State.stopTest_kept (s : State) (r1 : ℕ) (k2 : ℕ) (c3 : ℕ) : (State.stopTest s r1 k2 c3).kept = s.kept := by
  (unfold State.stopTest; (try dsimp only); (repeat' split) <;> simp [*])
@[simp] theorem State.dropTests_kept (s : State) (q1 : TestUnit → Bool) : (State.dropTests s q1).kept = s.kept := by
  simp [State.dropTests]
@[simp] theorem State.leaseEnds_kept (s : State) (l1 : Lease) : (State.leaseEnds s l1).kept = s.kept := by
  (unfold State.leaseEnds; (try dsimp only); (repeat' split) <;> simp [*])
@[simp] theorem State.reclaim_kept (s : State) (q1 : Lease → Bool) : (State.reclaim s q1).kept = s.kept := by
  simp [State.reclaim]

/-! Machine/Beats.lean -/

@[simp] theorem State.remapCluster_kept (s : State) (region1 : ℕ) (cluster2 : ℕ) : (State.remapCluster s region1 cluster2).kept = s.kept := by
  simp [State.remapCluster]
@[simp] theorem State.runLoses_kept (s : State) (c1 : ℕ) (r2 : ℕ) : (State.runLoses s c1 r2).kept = s.kept := by
  (unfold State.runLoses; (repeat' split) <;> simp [*])
@[simp] theorem doSiteRemap_kept (region0 : ℕ) (cluster1 : ℕ) (s : State) : (doSiteRemap region0 cluster1 s).kept = s.kept := by
  simp [doSiteRemap]
@[simp] theorem doBoundarySlip_kept (rx0 : ℕ) (tx1 : ℕ) (cyc2 : ℕ) (s : State) : (doBoundarySlip rx0 tx1 cyc2 s).kept = s.kept := by
  (unfold doBoundarySlip; (try dsimp only); (repeat' split) <;> simp [*])
@[simp] theorem doHoldRequest_kept (ctx0 : ℕ) (src1 : ℕ) (cyc2 : ℕ) (s : State) : (doHoldRequest ctx0 src1 cyc2 s).kept = s.kept := by
  (unfold doHoldRequest; (try dsimp only); (repeat' split) <;> first | (simp [*]; done) | (have hk := kept_fst ‹_›; simp at hk; simp [hk]) | (have hk := State.take_kept ‹_›; simp at hk; simp [*]))
@[simp] theorem doHoldDecision_kept (ctx0 : ℕ) (s : State) : (doHoldDecision ctx0 s).kept = s.kept := by
  (unfold doHoldDecision; (try dsimp only); (repeat' split) <;> simp [*])
@[simp] theorem doHoldTimeout_kept (ctx0 : ℕ) (s : State) : (doHoldTimeout ctx0 s).kept = s.kept := by
  (unfold doHoldTimeout; (try dsimp only); (repeat' split) <;> simp [*])
@[simp] theorem doPtpAnchor_kept (time0 : ℕ) (locked1 : Bool) (s : State) : (doPtpAnchor time0 locked1 s).kept = s.kept := by
  simp [doPtpAnchor]
@[simp] theorem doBeatInLost_kept (s : State) : (doBeatInLost s).kept = s.kept := by
  simp [doBeatInLost]

/-! Machine/TrustOps.lean -/

@[simp] theorem State.protRec_kept (s : State) (h1 : Hdr) (purpose2 : ℕ) (target3 : ℕ) (gen4 : ℕ) (bs5 : List SigBlk) (widen6 : Bool) (words7 : List Byte) : (State.protRec s h1 purpose2 target3 gen4 bs5 widen6 words7).kept = s.kept := by
  rfl

/-! Machine/Moves.lean -/

@[simp] theorem State.addDefect_kept (s : State) (unit1 : ℕ) (kind2 : ℕ) (source3 : ℕ) (cls4 : ℕ) (index5 : ℕ) : (State.addDefect s unit1 kind2 source3 cls4 index5).kept = s.kept := by
  simp [State.addDefect]
@[simp] theorem State.shadowSite_kept (s : State) (r1 : ℕ) (k2 : ℕ) (site3 : ℕ) (source4 : ℕ) (cls5 : ℕ) : (State.shadowSite s r1 k2 site3 source4 cls5).kept = s.kept := by
  simp [State.shadowSite]
@[simp] theorem State.orderSwitch_kept (s : State) (c1 : ℕ) (r2 : ℕ) (target3 : ℕ) : (State.orderSwitch s c1 r2 target3).kept = s.kept := by
  unfold State.orderSwitch
  dsimp only
  split
  · rw [kept_foldl _ (fun s q => by simp), State.onCtx_kept]
  · rw [State.onCtx_kept]
@[simp] theorem State.moveWork_kept (s : State) (r1 : ℕ) (ok2 : ℕ → Bool) (without3 : Bool) : (State.moveWork s r1 ok2 without3).1.kept = s.kept := by
  (unfold State.moveWork; (try dsimp only); (repeat' split) <;> simp [*])
@[simp] theorem State.moveOrHold_kept (s : State) (r1 : ℕ) (cause2 : ℕ) : (State.moveOrHold s r1 cause2).kept = s.kept := by
  simp [State.moveOrHold]
@[simp] theorem State.tryNext_kept (s : State) (ms1 : List (ℕ × ℕ)) : (State.tryNext s ms1).kept = s.kept := by
  (unfold State.tryNext; (repeat' split) <;> simp [*])
@[simp] theorem State.shutdown_kept (s : State) (cls1 : ℕ) (det2 : List ℕ) : (State.shutdown s cls1 det2).kept = s.kept := by
  simp [State.shutdown]
@[simp] theorem State.stopCrossing_kept (s : State) (r1 : ℕ) (cause2 : ℕ) : (State.stopCrossing s r1 cause2).kept = s.kept := by
  simp [State.stopCrossing]
@[simp] theorem State.dropTag_kept (s : State) (c1 : ℕ) : (State.dropTag s c1).kept = s.kept := by
  rfl
@[simp] theorem State.freeAllSets_kept (s : State) (c1 : ℕ) : (State.freeAllSets s c1).kept = s.kept := by
  rfl
@[simp] theorem State.revokeRegion_kept (s : State) (r1 : ℕ) : (State.revokeRegion s r1).kept = s.kept := by
  simp [State.revokeRegion]
@[simp] theorem State.transitLost_kept (s : State) (r1 : ℕ) : (State.transitLost s r1).kept = s.kept := by
  simp [State.transitLost]

/-! Machine/Mesh.lean -/

@[simp] theorem checkFlit_kept (t0 : ℕ) (port1 : ℕ) (cyc2 : ℕ) (s : State) (f4 : MFlit) : (checkFlit t0 port1 cyc2 s f4).1.kept = s.kept := by
  (unfold checkFlit; (try dsimp only); (repeat' split) <;> simp [*])
@[simp] theorem checkTag_kept (t0 : ℕ) (cyc1 : ℕ) (w2 : ℕ) (s : State) (f4 : MFlit) : (checkTag t0 cyc1 w2 s f4).1.kept = s.kept := by
  (unfold checkTag; (try dsimp only); (repeat' split) <;> simp [*])
@[simp] theorem State.absorb_kept (s : State) (t1 : ℕ) : (State.absorb s t1).kept = s.kept := by
  rfl
@[simp] theorem takeInput_kept (t0 : ℕ) (cyc1 : ℕ) (w2 : ℕ) (port3 : ℕ) (s : State) : (takeInput t0 cyc1 w2 port3 s).1.kept = s.kept := by
  (unfold takeInput; (try dsimp only); (repeat' split) <;> simp [*])
@[simp] theorem deliverTile_kept (t0 : ℕ) (cyc1 : ℕ) (ch2 : ℕ) (extra3 : ℕ) (f4 : MFlit) (s : State) : (deliverTile t0 cyc1 ch2 extra3 f4 s).kept = s.kept := by
  simp [deliverTile]
@[simp] theorem sendSide_kept (t0 : ℕ) (cyc1 : ℕ) (d2 : ℕ) (extra3 : ℕ) (f4 : MFlit) (s : State) : (sendSide t0 cyc1 d2 extra3 f4 s).kept = s.kept := by
  (unfold sendSide; (try dsimp only); (repeat' split) <;> simp [*])
@[simp] theorem sendOut_kept (t0 : ℕ) (cyc1 : ℕ) (w2 : ℕ) (extra3 : ℕ) (f4 : MFlit) (s : State) (o6 : ℕ) : (sendOut t0 cyc1 w2 extra3 f4 s o6).kept = s.kept := by
  simp [sendOut]
@[simp] theorem doRouterSlot_kept (pos0 : ℕ) (entry1 : ℕ) (cyc2 : ℕ) (s : State) : (doRouterSlot pos0 entry1 cyc2 s).kept = s.kept := by
  (unfold doRouterSlot; (try dsimp only); (repeat' split) <;> simp [*])
theorem elim_kept {α : Type} (o : Option α) (s : State) (f : α → State) (h : ∀ a, (f a).kept = s.kept) : (o.elim s f).kept = s.kept := by
  cases o with
  | none => rfl
  | some a => exact h a
@[simp] theorem keepOrder_kept (dst0 : ℕ) (o1 : BeatOrd) (s : State) : (keepOrder dst0 o1 s).kept = s.kept := by
  unfold keepOrder; (repeat' split) <;> simp
@[simp] theorem doBeatOrder_kept (dst0 : ℕ) (ctx1 : ℕ) (cyc2 : ℕ) (s : State) : (doBeatOrder dst0 ctx1 cyc2 s).kept = s.kept := by
  unfold doBeatOrder; dsimp only; split
  · next e => exact (elim_kept _ _ _ (fun _ => keepOrder_kept _ _ _)).trans ((State.take_kept e).trans (by simp))
  · simp
@[simp] theorem doBeatOrderLost_kept (dst0 : ℕ) (ctx1 : ℕ) (s : State) : (doBeatOrderLost dst0 ctx1 s).kept = s.kept := by
  simp [doBeatOrderLost]
@[simp] theorem switchSets_kept (ctx0 : ℕ) (work1 : ℕ) (w2 : Switch) (s : State) : (switchSets ctx0 work1 w2 s).kept = s.kept := by simp [switchSets]
@[simp] theorem leaveWork_kept (w : Switch) (s : State) : (leaveWork w s).kept = s.kept := by simp [leaveWork]
@[simp] theorem hostWork_kept (ctx0 : ℕ) (w1 : Switch) (src2 : ℕ) (s : State) : (hostWork ctx0 w1 src2 s).kept = s.kept := by simp [hostWork]
@[simp] theorem doRouteSwitch_kept (ctx0 : ℕ) (s : State) : (doRouteSwitch ctx0 s).kept = s.kept := by
  unfold doRouteSwitch; dsimp only; (repeat' split) <;> simp

/-! Machine/Streams.lean -/

@[simp] theorem State.postFar_kept (s : State) (c1 : ℕ) (ext2 : ℕ) (page3 : ℕ) (stream4 : ℕ) : (State.postFar s c1 ext2 page3 stream4).kept = s.kept := by
  simp [State.postFar]
@[simp] theorem State.onSlot_kept (s : State) (sc1 : ℕ) (n2 : ℕ) (f3 : Slot → Slot) : (State.onSlot s sc1 n2 f3).kept = s.kept := by
  rfl
@[simp] theorem State.haltStream_kept (s : State) (sc1 : ℕ) (n2 : ℕ) (ext3 : ℕ) (x4 : Slot) (off5 : ℕ) (err6 : ExtErr) : (State.haltStream s sc1 n2 ext3 x4 off5 err6).kept = s.kept := by
  (unfold State.haltStream; (try dsimp only); (repeat' split) <;> simp [*])
@[simp] theorem State.needIndex_kept (s : State) (sc1 : ℕ) (n2 : ℕ) : (State.needIndex s sc1 n2).1.kept = s.kept := by
  (unfold State.needIndex; (try dsimp only); (repeat' split) <;> first | (simp [*]; done) | (have hk := kept_fst ‹_›; simp at hk; simp [hk]) | (have hk := State.take_kept ‹_›; simp at hk; simp [*]))
@[simp] theorem State.fetchFlit_kept (s : State) (sc1 : ℕ) (n2 : ℕ) : (State.fetchFlit s sc1 n2).1.kept = s.kept := by
  unfold State.fetchFlit
  dsimp only
  split
  · simp
  · split <;> (have hk := kept_fst ‹_›; simp at hk; simp [hk])
@[simp] theorem State.storeFlit_kept (s : State) (sc1 : ℕ) (n2 : ℕ) : (State.storeFlit s sc1 n2).1.kept = s.kept := by
  (unfold State.storeFlit; (try dsimp only); (repeat' split) <;> simp [*])
@[simp] theorem State.fillOne_kept (s : State) (e1 : ℕ) (x2 : ExtEnt) (l3 : ℕ) : (State.fillOne s e1 x2 l3).kept = s.kept := by
  (unfold State.fillOne; (repeat' split) <;> simp [*])
@[simp] theorem State.advance_kept (s : State) (sc1 : ℕ) (n2 : ℕ) (x3 : Slot) : (State.advance s sc1 n2 x3).1.kept = s.kept := by
  (unfold State.advance; (repeat' split) <;> simp [*])
@[simp] theorem State.granule_kept (s : State) (sc1 : ℕ) (n2 : ℕ) (grant3 : Bool) (x4 : ℕ) (x5 : ℕ) (x6 : Option Acc) : (State.granule s sc1 n2 grant3 x4 x5 x6).kept = s.kept := by
  induction x4 generalizing s x5 x6 with
  | zero => rfl
  | succ k ih =>
    unfold State.granule
    dsimp only
    split
    · rfl
    · split
      · simp
      · simp
      · split
        · have hk := kept_fst ‹_›
          rw [ih, hk]
          simp only [State.advance_kept]
          split <;> simp
        · have hk := kept_fst ‹_›
          rw [hk]
          simp only [State.advance_kept]
          split <;> simp
@[simp] theorem State.serve_kept (s : State) (sc1 : ℕ) (n2 : ℕ) (grant3 : Bool) : (State.serve s sc1 n2 grant3).kept = s.kept := by
  (unfold State.serve; (repeat' split) <;> simp [*])

/-! Machine/Rim.lean -/

@[simp] theorem State.fillLow_kept (s : State) (sc1 : ℕ) (p2 : ℕ × ExtEnt × ℕ) : (State.fillLow s sc1 p2).kept = s.kept := by
  (unfold State.fillLow; (repeat' split) <;> simp [*])
@[simp] theorem doRegulatorGrant_kept (sc0 : ℕ) (s : State) : (doRegulatorGrant sc0 s).kept = s.kept := by
  (unfold doRegulatorGrant; (try dsimp only); (repeat' split) <;> simp [*])
@[simp] theorem doStreamForecast_kept (sc0 : ℕ) (ctx1 : ℕ) (s : State) : (doStreamForecast sc0 ctx1 s).kept = s.kept := by
  simp [doStreamForecast]
@[simp] theorem doStreamDeadline_kept (sc0 : ℕ) (slot1 : ℕ) (s : State) : (doStreamDeadline sc0 slot1 s).kept = s.kept := by
  simp [doStreamDeadline]
@[simp] theorem doStackPatrol_kept (sc0 : ℕ) (s : State) : (doStackPatrol sc0 s).kept = s.kept := by
  simp [doStackPatrol]

/-! Machine/FabricOps.lean -/

@[simp] theorem State.pumpLink_kept (s : State) (n1 : ℕ) : (State.pumpLink s n1).kept = s.kept := by
  rfl
@[simp] theorem State.fsendAll_kept (s : State) (p1 : ℕ) (ps2 : List FPkt) : (State.fsendAll s p1 ps2).kept = s.kept := by
  (unfold State.fsendAll; (try dsimp only); (repeat' split) <;> simp [*])
@[simp] theorem State.fsend_kept (s : State) (c1 : ℕ) (dst2 : ℕ) (p3 : ℕ) (typ4 : ℕ) (vc5 : ℕ) (body6 : List Byte) : (State.fsend s c1 dst2 p3 typ4 vc5 body6).kept = s.kept := by
  simp [State.fsend]
@[simp] theorem State.fctl_kept (s : State) (c1 : ℕ) (dst2 : ℕ) (sub3 : ℕ) (b4 : List Byte) : (State.fctl s c1 dst2 sub3 b4).kept = s.kept := by
  simp [State.fctl]
@[simp] theorem State.rxCount_kept (s : State) (f : FHdr) : (s.rxCount f).kept = s.kept := by
  unfold State.rxCount; dsimp only; split <;> rfl
theorem State.fabricIn_kept (s : State) (f : FHdr) (vc : Nat) (lens : List Nat) (g : State → State) (hg : ∀ t, t.kept = s.kept → (g t).kept = s.kept) :
    (s.fabricIn f vc lens g).kept = s.kept := by
  unfold State.fabricIn
  extract_lets l n
  split
  · rfl
  split
  · rfl
  split
  · split <;> rfl
  rename_i s2 _ _ _
  have e : s2.kept = s.kept := State.rxCount_kept s f
  split
  · exact e
  split
  · exact e
  split
  · simp only [State.keeperFault_kept, State.onLink_kept]; exact e
  exact hg _ e

/-! Machine/Reduce.lean -/

@[simp] theorem State.onOwner_kept (s : State) (sc1 : ℕ) (c2 : ℕ) (p3 : ℕ) (f4 : Owner → Owner) : (State.onOwner s sc1 c2 p3 f4).kept = s.kept := by
  rfl
@[simp] theorem State.noteLags_kept (s : State) (sc1 : ℕ) (c2 : ℕ) (o3 : Owner) : (State.noteLags s sc1 c2 o3).kept = s.kept := by
  simp [State.noteLags]
@[simp] theorem State.rsramFault_kept (s : State) (sc1 : ℕ) (c2 : ℕ) (p3 : ℕ) : (State.rsramFault s sc1 c2 p3).kept = s.kept := by
  (unfold State.rsramFault; (repeat' split) <;> simp [*])
@[simp] theorem State.checkComplete_kept (s : State) (sc1 : ℕ) (c2 : ℕ) (p3 : ℕ) : (State.checkComplete s sc1 c2 p3).kept = s.kept := by
  (unfold State.checkComplete; (try dsimp only); (repeat' split) <;> simp [*])
@[simp] theorem acceptBlock_kept (sc0 : ℕ) (c1 : ℕ) (pos2 : ℕ) (step3 : ℕ) (row4 : Bool) (b5 : WireBlk) (s : State) : (acceptBlock sc0 c1 pos2 step3 row4 b5 s).kept = s.kept := by
  simp [acceptBlock]
@[simp] theorem ownerBlock_kept (c0 : ℕ) (pos1 : ℕ) (step2 : ℕ) (attempt3 : ℕ) (row4 : Bool) (b5 : WireBlk) (s : State) : (ownerBlock c0 pos1 step2 attempt3 row4 b5 s).kept = s.kept := by
  (unfold ownerBlock; (try dsimp only); (repeat' split) <;> simp [*])
@[simp] theorem ownerClose_kept (c0 : ℕ) (pos1 : ℕ) (parcel2 : ℕ) (step3 : ℕ) (attempt4 : ℕ) (dense5 : Bool) (nf6 : Bool) (rows7 : ℕ) (s : State) : (ownerClose c0 pos1 parcel2 step3 attempt4 dense5 nf6 rows7 s).kept = s.kept := by
  (unfold ownerClose; (try dsimp only); (repeat' split) <;> simp [*])
@[simp] theorem State.sendBlock_kept (s : State) (c1 : ℕ) (owner2 : ℕ) (step3 : ℕ) (attempt4 : ℕ) (row5 : Bool) (b6 : WireBlk) : (State.sendBlock s c1 owner2 step3 attempt4 row5 b6).kept = s.kept := by
  simp [State.sendBlock]
@[simp] theorem State.sendClose_kept (s : State) (c1 : ℕ) (owner2 : ℕ) (parcel3 : ℕ) (step4 : ℕ) (attempt5 : ℕ) (dense6 : Bool) (nf7 : Bool) (rows8 : ℕ) : (State.sendClose s c1 owner2 parcel3 step4 attempt5 dense6 nf7 rows8).kept = s.kept := by
  simp [State.sendClose]
@[simp] theorem State.flushCloses_kept (s : State) (c1 : ℕ) : (State.flushCloses s c1).kept = s.kept := by
  (unfold State.flushCloses; (try dsimp only); (repeat' split) <;> simp [*])
@[simp] theorem State.flushRows_kept (s : State) (c1 : ℕ) : (State.flushRows s c1).kept = s.kept := by
  unfold State.flushRows
  split
  · rfl
  · refine kept_foldl _ (fun _ _ => kept_foldl _ (fun _ _ => ?_) _ _) _ _
    dsimp only
    (repeat' split) <;> simp
@[simp] theorem takeCredit_kept (c0 : ℕ) (pos1 : ℕ) (step2 : ℕ) (attempt3 : ℕ) (sc4 : ℕ) (ordinal5 : ℕ) (s : State) : (takeCredit c0 pos1 step2 attempt3 sc4 ordinal5 s).kept = s.kept := by
  simp [takeCredit]
@[simp] theorem State.sendDense_kept (s : State) (sc1 : ℕ) (c2 : ℕ) (p3 : ℕ) (owner4 : ℕ) (step5 : ℕ) (attempt6 : ℕ) (b7 : Egress) : (State.sendDense s sc1 c2 p3 owner4 step5 attempt6 b7).kept = s.kept := by
  unfold State.sendDense
  refine kept_foldl _ (fun _ _ => ?_) _ _
  dsimp only
  split <;> simp
@[simp] theorem doGradEgressSend_kept (sc0 : ℕ) (ctx1 : ℕ) (parcel2 : ℕ) (s : State) : (doGradEgressSend sc0 ctx1 parcel2 s).kept = s.kept := by
  (unfold doGradEgressSend; (try dsimp only); (repeat' split) <;> simp [*])
@[simp] theorem openOwner_kept (sc0 : ℕ) (ctx1 : ℕ) (p2 : ℕ) (n3 : ℕ) (step4 : ℕ) (attempt5 : ℕ) (s : State) : (openOwner sc0 ctx1 p2 n3 step4 attempt5 s).kept = s.kept := by
  simp [openOwner]
@[simp] theorem doOwnerBufferOpen_kept (sc0 : ℕ) (ctx1 : ℕ) (s : State) : (doOwnerBufferOpen sc0 ctx1 s).kept = s.kept := by
  (unfold doOwnerBufferOpen; (try dsimp only); (repeat' split) <;> simp [*])
@[simp] theorem doGradBlock_kept (f0 : FHdr) (step1 : ℕ) (attempt2 : ℕ) (row3 : Bool) (b4 : WireBlk) (s : State) : (doGradBlock f0 step1 attempt2 row3 b4 s).kept = s.kept := by
  (unfold doGradBlock; refine State.fabricIn_kept _ _ _ _ _ (fun t ht => ?_); simp [ht])
@[simp] theorem doGradClose_kept (f0 : FHdr) (parcel1 : ℕ) (step2 : ℕ) (attempt3 : ℕ) (dense4 : Bool) (nf5 : Bool) (rows6 : ℕ) (s : State) : (doGradClose f0 parcel1 step2 attempt3 dense4 nf5 rows6 s).kept = s.kept := by
  (unfold doGradClose; refine State.fabricIn_kept _ _ _ _ _ (fun t ht => ?_); simp [ht])
@[simp] theorem doParcelCredit_kept (f0 : FHdr) (step1 : ℕ) (attempt2 : ℕ) (sc3 : ℕ) (ordinal4 : ℕ) (s : State) : (doParcelCredit f0 step1 attempt2 sc3 ordinal4 s).kept = s.kept := by
  (unfold doParcelCredit; refine State.fabricIn_kept _ _ _ _ _ (fun t ht => ?_); simp [ht])
@[simp] theorem doReduceDeadline_kept (sc0 : ℕ) (n1 : ℕ) (s : State) : (doReduceDeadline sc0 n1 s).kept = s.kept := by
  (unfold doReduceDeadline; (try dsimp only); (repeat' split) <;> simp [*])
@[simp] theorem doReductionForecast_kept (sc0 : ℕ) (ctx1 : ℕ) (s : State) : (doReductionForecast sc0 ctx1 s).kept = s.kept := by
  unfold doReductionForecast; dsimp only; split <;> simp
@[simp] theorem State.closeEgress_kept (s : State) (sc1 : ℕ) (c2 : ℕ) (p3 : ℕ) : (State.closeEgress s sc1 c2 p3).kept = s.kept := by
  simp [State.closeEgress]
@[simp] theorem takeDense_kept (sc n : Nat) (r : RedRun) (flit : Nat) (g : State → State) (s : State) (hg : ∀ t, (g t).kept = t.kept) :
    (takeDense sc n r flit g s).kept = s.kept := by
  have hc : ∀ (t : State) a b c, (t.closeEgress a b c).kept = t.kept := by
    intro t a b c; unfold State.closeEgress; (try dsimp only); (repeat' split) <;> simp
  unfold takeDense
  dsimp only
  split
  · exact hg s
  · split
    · simp
    · rw [hc]; split <;> simp
@[simp] theorem takeRowBlock_kept (sc0 : ℕ) (r1 : RedRun) (v2 : ℕ) (j3 : ℕ) (flits4 : List ℕ) (s : State) : (takeRowBlock sc0 r1 v2 j3 flits4 s).kept = s.kept := by
  (unfold takeRowBlock; (try dsimp only); (repeat' split) <;> simp [*])
@[simp] theorem takeRows_kept (sc0 : ℕ) (n1 : ℕ) (r2 : RedRun) (flit3 : ℕ) (s : State) : (takeRows sc0 n1 r2 flit3 s).kept = s.kept := by
  (unfold takeRows; (try dsimp only); (repeat' split) <;> first | (simp [*]; done) | (have hk := kept_fst ‹_›; simp at hk; simp [hk]) | (have hk := State.take_kept ‹_›; simp at hk; simp [*]))
@[simp] theorem State.edgeFault_kept (s : State) (cls1 : ℕ) (sc2 : ℕ) (port3 : ℕ) (c4 : ℕ) (stream5 : ℕ) (cyc6 : ℕ) : (State.edgeFault s cls1 sc2 port3 c4 stream5 cyc6).kept = s.kept := by
  simp [State.edgeFault]
@[simp] theorem inboundSlot_kept (sc0 : ℕ) (port1 : ℕ) (cyc2 : ℕ) (s : State) : (inboundSlot sc0 port1 cyc2 s).kept = s.kept := by
  (unfold inboundSlot; (try dsimp only); (repeat' split) <;> simp [*])
@[simp] theorem outboundSlot_kept (sc0 : ℕ) (port1 : ℕ) (cyc2 : ℕ) (s : State) : (outboundSlot sc0 port1 cyc2 s).kept = s.kept := by
  (unfold outboundSlot; (try dsimp only); (repeat' split) <;> simp [*])
@[simp] theorem doEdgePortSlot_kept (sc0 : ℕ) (port1 : ℕ) (cyc2 : ℕ) (outbound3 : Bool) (s : State) : (doEdgePortSlot sc0 port1 cyc2 outbound3 s).kept = s.kept := by
  (unfold doEdgePortSlot; (try dsimp only); (repeat' split) <;> simp [*])

/-! Machine/Update.lean -/

@[simp] theorem State.spendPart_kept (s : State) (c1 : ℕ) (q2 : ℕ × ℕ × ℕ) : (State.spendPart s c1 q2).kept = s.kept := by
  (unfold State.spendPart; (repeat' split) <;> simp [*])
@[simp] theorem State.readPart_kept (s : State) (c1 : ℕ) (q2 : ℕ × ℕ × ℕ) : (State.readPart s c1 q2).1.kept = s.kept := by
  (unfold State.readPart; (try dsimp only); (repeat' split) <;> first | (simp [*]; done) | (have hk := kept_fst ‹_›; simp at hk; simp [hk]) | (have hk := State.take_kept ‹_›; simp at hk; simp [*]))
@[simp] theorem State.readParts_kept (s : State) (c1 : ℕ) (x2 : List (ℕ × ℕ × ℕ)) : (State.readParts s c1 x2).1.kept = s.kept := by
  induction x2 generalizing s with
  | nil => rfl
  | cons q qs ih =>
    unfold State.readParts
    split
    · next heq => have hk := congrArg (fun p => (Prod.fst p).kept) heq; simpa using hk.symm
    · next heq =>
      have hk := congrArg (fun p => (Prod.fst p).kept) heq
      simp at hk
      split
      · next h2 => have h3 := congrArg (fun p => (Prod.fst p).kept) h2; simp [ih] at h3; simp [← h3, hk]
      · next h2 => have h3 := congrArg (fun p => (Prod.fst p).kept) h2; simp [ih] at h3; simp [← h3, hk]
theorem afterRead_kept {ε α : Type} (r : State × Except ε α) (bad : State → ε → State) (good : State → α → State) (hb : ∀ t e, (bad t e).kept = t.kept)
    (hg : ∀ t x, (good t x).kept = t.kept) : (afterRead r bad good).kept = r.1.kept := by
  obtain ⟨t, _ | _⟩ := r
  · exact hb _ _
  · exact hg _ _
theorem afterRead_kept1 {ε α γ : Type} (r : State × Except ε α) (bad : State → ε → State × γ) (good : State → α → State × γ)
    (hb : ∀ t e, (bad t e).1.kept = t.kept) (hg : ∀ t x, (good t x).1.kept = t.kept) : (afterRead r bad good).1.kept = r.1.kept := by
  obtain ⟨t, _ | _⟩ := r
  · exact hb _ _
  · exact hg _ _
theorem afterRead_okFor {ε α : Type} (r : State × Except ε α) (bad : State → ε → Verdict) (good : State → α → Verdict) (k : Kept) (hr : r.1.kept = k)
    (hb : ∀ t e, t.kept = k → (bad t e).okFor k) (hg : ∀ t x, t.kept = k → (good t x).okFor k) : (afterRead r bad good).okFor k := by
  obtain ⟨t, _ | _⟩ := r
  · exact hb _ _ hr
  · exact hg _ _ hr
@[simp] theorem State.writePart_kept (s : State) (c1 : ℕ) (q2 : ℕ × ℕ × ℕ) (b3 : List Byte) : (State.writePart s c1 q2 b3).kept = s.kept := by
  simp [State.writePart]
@[simp] theorem State.writeWork_kept (s : State) (c1 : ℕ) (e2 : PEnt) (b3 : ℕ) (w4 : List Byte) : (State.writeWork s c1 e2 b3 w4).kept = s.kept := by
  simp [State.writeWork]
@[simp] theorem State.writeSlot_kept (s : State) (c1 : ℕ) (e2 : PEnt) (bf3 : Bool) (slot4 : ℕ) (b5 : List Byte) : (State.writeSlot s c1 e2 bf3 slot4 b5).kept = s.kept := by
  simp [State.writeSlot]
@[simp] theorem State.stateError_kept (s : State) (sc1 : ℕ) (c2 : ℕ) (parcel3 : ℕ) (step4 : ℕ) (attempt5 : ℕ) (e6 : PartErr) : (State.stateError s sc1 c2 parcel3 step4 attempt5 e6).kept = s.kept := by
  (unfold State.stateError; (try dsimp only); (repeat' split) <;> simp [*])
@[simp] theorem State.transfer_kept (s : State) (c1 : ℕ) (dst2 : ℕ) (parcel3 : ℕ) (typ4 : ℕ) (vc5 : ℕ) (step6 : ℕ) (attempt7 : ℕ) (wnext8 : ℕ) (flags9 : ℕ) (data10 : List Byte) : (State.transfer s c1 dst2 parcel3 typ4 vc5 step6 attempt7 wnext8 flags9 data10).kept = s.kept := by
  simp [State.transfer]
@[simp] theorem State.sendMirror_kept (s : State) (c1 : ℕ) (dst2 : ℕ) (parcel3 : ℕ) (e4 : PEnt) (slot5 : ℕ) (step6 : ℕ) (attempt7 : ℕ) (wnext8 : ℕ) (unch9 : Bool) : (State.sendMirror s c1 dst2 parcel3 e4 slot5 step6 attempt7 wnext8 unch9).kept = s.kept := by
  unfold State.sendMirror
  split
  · simp
  · exact (afterRead_kept _ _ _ (fun t r => by simp) (fun t b => by first | (simp; done) | (dsimp only; simp))).trans (by simp)
@[simp] theorem State.sendWork_kept (s : State) (c1 : ℕ) (parcel2 : ℕ) (e3 : PEnt) (b4 : ℕ) (step5 : ℕ) (attempt6 : ℕ) (wnext7 : ℕ) (dsts8 : List ℕ) : (State.sendWork s c1 parcel2 e3 b4 step5 attempt6 wnext7 dsts8).kept = s.kept := by
  unfold State.sendWork
  exact (afterRead_kept _ _ _ (fun t r => by simp) (fun t b => kept_foldl _ (fun s q => by simp) _ _)).trans (by simp)
@[simp] theorem State.allGather_kept (s : State) (c1 : ℕ) (parcel2 : ℕ) (e3 : PEnt) (step4 : ℕ) (attempt5 : ℕ) (wnext6 : ℕ) : (State.allGather s c1 parcel2 e3 step4 attempt5 wnext6).kept = s.kept := by
  simp [State.allGather]
@[simp] theorem State.dropSlotLease_kept (s : State) (c1 : ℕ) (sc2 : ℕ) (slot3 : ℕ) : (State.dropSlotLease s c1 sc2 slot3).kept = s.kept := by
  rfl
@[simp] theorem State.fly1_kept (s : State) (c1 : ℕ) (parcel2 : ℕ) (e3 : PEnt) (slot4 : ℕ) (step5 : ℕ) (attempt6 : ℕ) (wnext7 : ℕ) (unch8 : Bool) (initial9 : Bool) : (State.fly1 s c1 parcel2 e3 slot4 step5 attempt6 wnext7 unch8 initial9).kept = s.kept := by
  simp [State.fly1]
@[simp] theorem State.freeOwner_kept (s : State) (sc1 : ℕ) (c2 : ℕ) (parcel3 : ℕ) : (State.freeOwner s sc1 c2 parcel3).kept = s.kept := by
  rfl
@[simp] theorem State.commitUnchanged_kept (s : State) (c1 : ℕ) (parcel2 : ℕ) (e3 : PEnt) (step4 : ℕ) (attempt5 : ℕ) (stat6 : PStat) : (State.commitUnchanged s c1 parcel2 e3 step4 attempt5 stat6).kept = s.kept := by
  unfold State.commitUnchanged
  dsimp only
  exact (afterRead_kept _ _ _ (fun t r => by simp) (fun t b => by first | (simp; done) | (dsimp only; simp))).trans (by simp)
@[simp] theorem State.readOld_kept (s : State) (c1 : ℕ) (e2 : PEnt) (wfmt3 : ℕ) (step4 : ℕ) (touched5 : Option (List ℕ)) : (State.readOld s c1 e2 wfmt3 step4 touched5).1.kept = s.kept := by
  (unfold State.readOld; (repeat' split) <;> simp [*])
@[simp] theorem State.finishUpdate_kept (s : State) (c1 : ℕ) (parcel2 : ℕ) (e3 : PEnt) (slot4 : ℕ) (step5 : ℕ) (attempt6 : ℕ) (master7 : List ℕ) (touched8 : Option (List ℕ)) : (State.finishUpdate s c1 parcel2 e3 slot4 step5 attempt6 master7 touched8).kept = s.kept := by
  unfold State.finishUpdate
  dsimp only
  exact (afterRead_kept _ _ _ (fun t r => by simp) (fun t b => by first | (simp; done) | (dsimp only; simp))).trans (by simp)

/-! Machine/BindOps.lean -/

@[simp] theorem State.setWin_kept (s : State) (e1 : ℕ) (w2 : ℕ) : (State.setWin s e1 w2).kept = s.kept := by
  rfl
@[simp] theorem State.endUsers_kept (s : State) (c1 : ℕ) (e2 : ℕ) : (State.endUsers s c1 e2).kept = s.kept := by
  simp [State.endUsers]
@[simp] theorem State.endTraces_kept (s : State) (e1 : ℕ) : (State.endTraces s e1).kept = s.kept := by
  simp [State.endTraces]
@[simp] theorem State.dropExtent_kept (s : State) (e1 : ℕ) (x2 : ExtEnt) : (State.dropExtent s e1 x2).kept = s.kept := by
  simp [State.dropExtent]
@[simp] theorem State.freeExtent_kept (s : State) (e1 : ℕ) (x2 : ExtEnt) : (State.freeExtent s e1 x2).kept = s.kept := by
  simp [State.freeExtent]
@[simp] theorem State.moveExtent_kept (s : State) (e1 : ℕ) (x2 : ExtEnt) (c3 : ℕ) : (State.moveExtent s e1 x2 c3).kept = s.kept := by
  simp [State.moveExtent]
@[simp] theorem State.makeExtent_kept (s : State) (e1 : ℕ) (c2 : ℕ) (m3 : ExtMake) : (State.makeExtent s e1 c2 m3).kept = s.kept := by
  simp [State.makeExtent]
@[simp] theorem State.bindRegion_kept (s : State) (r1 : ℕ) (c2 : ℕ) : (State.bindRegion s r1 c2).kept = s.kept := by
  simp [State.bindRegion]
@[simp] theorem State.dropGroup_kept (s : State) (k1 : ℕ) : (State.dropGroup s k1).kept = s.kept := by
  (unfold State.dropGroup; (try dsimp only); (repeat' split) <;> simp [*])
@[simp] theorem State.applyBind_kept (s : State) (b1 : BindOrd) : (State.applyBind s b1).kept = s.kept := by
  (unfold State.applyBind; (try dsimp only); (repeat' split) <;> simp [*])
@[simp] theorem State.revokeAll_kept (s : State) (c1 : ℕ) : (State.revokeAll s c1).kept = s.kept := by
  rfl
@[simp] theorem State.beginClose_kept (s : State) (c1 : ℕ) (toUngranted2 : Bool) : (State.beginClose s c1 toUngranted2).kept = s.kept := by
  simp [State.beginClose]
@[simp] theorem State.endClose_kept (s : State) (c1 : ℕ) : (State.endClose s c1).kept = s.kept := by
  (unfold State.endClose; (try dsimp only); (repeat' split) <;> simp [*])
theorem okFor_takeBind (k : Kept) (a b c d e) (s : State) (hs : s.kept = k) : (takeBind a b c d e s).okFor k := by
  unfold takeBind; exact ⟨by simpa using hs, fun _ t ht => by simpa using ht⟩
theorem okFor_bindIt (k : Kept) (h a b c d e) (s : State) (hs : s.kept = k) : (bindIt h a b c d e s).okFor k := by
  unfold bindIt
  dsimp only
  (repeat' split) <;> first | (simp [hs]; done) | exact okFor_takeBind _ _ _ _ _ _ _ hs | (refine okFor_acceptNow _ _ _ _ hs (fun _ ht => ?_); exact ht)

/-! Machine/BindCmd.lean -/

@[simp] theorem doRegionBind_kept (h0 : Hdr) (region1 : ℕ) (flags2 : ℕ) (s : State) : (doRegionBind h0 region1 flags2 s).kept = s.kept := by
  (unfold doRegionBind; refine packet_kept _ _ _ _ _ _ (fun t ht => ?_); (try dsimp only); repeat' (first | (simp [*]; done) | (refine okFor_check6 _ _ _ _ _ (by simp [*]) ?_) | (refine okFor_bindIt _ _ _ _ _ _ _ _ (by simp [*])) | (refine okFor_writeOut _ _ _ _ _ _ (by simp [*])) | (refine okFor_withRef _ _ _ _ _ _ (by simp [*]) ?_) | (refine okFor_acceptNow _ _ _ _ (by simp [*]) (fun _ _ => ?_)) | (refine okFor_withInput _ _ _ _ _ _ (by simp [*]) (fun _ _ _ => ?_)) | (refine ⟨by simp [*], fun _ _ _ => ?_⟩) | (simp [*]; done) | (have hk := kept_fst ‹_›; simp [*] at hk; simp [*]; done) | split))
@[simp] theorem doExtentCreate_kept (h0 : Hdr) (sc1 : ℕ) (kind2 : ℕ) (flags3 : ℕ) (pages4 : ℕ) (pair5 : ℕ) (s : State) : (doExtentCreate h0 sc1 kind2 flags3 pages4 pair5 s).kept = s.kept := by
  unfold doExtentCreate
  refine packet_kept _ _ _ _ _ _ (fun t ht => ?_)
  dsimp only
  split
  · simpa using ht
  · refine okFor_check6 _ _ _ _ _ ht ?_
    split
    · exact okFor_takeBind _ _ _ _ _ _ _ ht
    · simpa using ht
@[simp] theorem doExtentBind_kept (h0 : Hdr) (ext1 : ℕ) (flags2 : ℕ) (s : State) : (doExtentBind h0 ext1 flags2 s).kept = s.kept := by
  (unfold doExtentBind; refine packet_kept _ _ _ _ _ _ (fun t ht => ?_); (try dsimp only); repeat' (first | (simp [*]; done) | (refine okFor_check6 _ _ _ _ _ (by simp [*]) ?_) | (refine okFor_bindIt _ _ _ _ _ _ _ _ (by simp [*])) | (refine okFor_writeOut _ _ _ _ _ _ (by simp [*])) | (refine okFor_withRef _ _ _ _ _ _ (by simp [*]) ?_) | (refine okFor_acceptNow _ _ _ _ (by simp [*]) (fun _ _ => ?_)) | (refine okFor_withInput _ _ _ _ _ _ (by simp [*]) (fun _ _ _ => ?_)) | (refine ⟨by simp [*], fun _ _ _ => ?_⟩) | (simp [*]; done) | (have hk := kept_fst ‹_›; simp [*] at hk; simp [*]; done) | split))
@[simp] theorem doSlotBind_kept (h0 : Hdr) (stream1 : ℕ) (flags2 : ℕ) (s : State) : (doSlotBind h0 stream1 flags2 s).kept = s.kept := by
  (unfold doSlotBind; refine packet_kept _ _ _ _ _ _ (fun t ht => ?_); (try dsimp only); repeat' (first | (simp [*]; done) | (refine okFor_check6 _ _ _ _ _ (by simp [*]) ?_) | (refine okFor_bindIt _ _ _ _ _ _ _ _ (by simp [*])) | (refine okFor_writeOut _ _ _ _ _ _ (by simp [*])) | (refine okFor_withRef _ _ _ _ _ _ (by simp [*]) ?_) | (refine okFor_acceptNow _ _ _ _ (by simp [*]) (fun _ _ => ?_)) | (refine okFor_withInput _ _ _ _ _ _ (by simp [*]) (fun _ _ _ => ?_)) | (refine ⟨by simp [*], fun _ _ _ => ?_⟩) | (simp [*]; done) | (have hk := kept_fst ‹_›; simp [*] at hk; simp [*]; done) | split))
@[simp] theorem doGroupBind_kept (h0 : Hdr) (blk1 : ℕ) (flags2 : ℕ) (s : State) : (doGroupBind h0 blk1 flags2 s).kept = s.kept := by
  (unfold doGroupBind; refine packet_kept _ _ _ _ _ _ (fun t ht => ?_); (try dsimp only); repeat' (first | (simp [*]; done) | (refine okFor_check6 _ _ _ _ _ (by simp [*]) ?_) | (refine okFor_bindIt _ _ _ _ _ _ _ _ (by simp [*])) | (refine okFor_writeOut _ _ _ _ _ _ (by simp [*])) | (refine okFor_withRef _ _ _ _ _ _ (by simp [*]) ?_) | (refine okFor_acceptNow _ _ _ _ (by simp [*]) (fun _ _ => ?_)) | (refine okFor_withInput _ _ _ _ _ _ (by simp [*]) (fun _ _ _ => ?_)) | (refine ⟨by simp [*], fun _ _ _ => ?_⟩) | (simp [*]; done) | (have hk := kept_fst ‹_›; simp [*] at hk; simp [*]; done) | split))
@[simp] theorem State.dropRegionTests_kept (s : State) (r1 : ℕ) : (State.dropRegionTests s r1).kept = s.kept := by
  simp [State.dropRegionTests]
@[simp] theorem State.afterFill_kept (s : State) (id1 : ℕ) (r2 : ℕ) : (State.afterFill s id1 r2).kept = s.kept := by
  (unfold State.afterFill; (repeat' split) <;> simp [*])
@[simp] theorem doBindingEffect_kept (kind0 : ℕ) (idx1 : ℕ) (s : State) : (doBindingEffect kind0 idx1 s).kept = s.kept := by
  (unfold doBindingEffect; (try dsimp only); (repeat' split) <;> simp [*])

/-! Machine/LinkOps.lean -/

@[simp] theorem State.setLink_kept (s : State) (n1 : ℕ) (f2 : Link → Link) : (State.setLink s n1 f2).kept = s.kept := by
  simp [State.setLink]
@[simp] theorem State.lsend_kept (s : State) (n1 : ℕ) (p2 : FPkt) : (State.lsend s n1 p2).kept = s.kept := by
  rfl
@[simp] theorem State.sendEpoch_kept (s : State) (n1 : ℕ) : (State.sendEpoch s n1).kept = s.kept := by
  rfl
@[simp] theorem State.greet_kept (s : State) (n1 : ℕ) : (State.greet s n1).kept = s.kept := by
  simp [State.greet]
@[simp] theorem State.endRetrain_kept (s : State) (n1 : ℕ) : (State.endRetrain s n1).kept = s.kept := by
  simp [State.endRetrain]
@[simp] theorem State.trainingOver_kept (s : State) (n1 : ℕ) (f2 : Link → Link) (other3 : Bool) : (State.trainingOver s n1 f2 other3).kept = s.kept := by
  (unfold State.trainingOver; (repeat' split) <;> simp [*])
@[simp] theorem State.endTraining_kept (s : State) (n1 : ℕ) (t2 : Trained) : (State.endTraining s n1 t2).kept = s.kept := by
  simp [State.endTraining]
@[simp] theorem State.helloLate_kept (s : State) : (State.helloLate s).kept = s.kept := by
  (unfold State.helloLate; (repeat' split) <;> simp [*])
@[simp] theorem State.beginRetrain_kept (s : State) (n1 : ℕ) : (State.beginRetrain s n1).kept = s.kept := by
  simp [State.beginRetrain]
@[simp] theorem State.capLink_kept (s : State) (n1 : ℕ) (f2 : Link → Link) (ids3 : List ℕ) : (State.capLink s n1 f2 ids3).kept = s.kept := by
  simp [State.capLink]

/-! Machine/GovOps.lean -/

@[simp] theorem State.orderStretch_kept (s : State) (m1 : ℕ) (beat2 : ℕ) : (State.orderStretch s m1 beat2).kept = s.kept := by
  simp [State.orderStretch]
@[simp] theorem State.meterBeat_kept (s : State) : (State.meterBeat s).kept = s.kept := by
  simp [State.meterBeat]
@[simp] theorem State.closeMeters_kept (s : State) : (State.closeMeters s).kept = s.kept := by
  rfl

/-! Machine/PowerCmd.lean -/

@[simp] theorem doTelemRead_kept (h0 : Hdr) (unit1 : ℕ) (x2 : DRef) (s : State) : (doTelemRead h0 unit1 x2 s).kept = s.kept := by
  (unfold doTelemRead; refine packet_kept _ _ _ _ _ _ (fun t ht => ?_); (try dsimp only); repeat' (first | (simp [*]; done) | (refine okFor_check6 _ _ _ _ _ (by simp [*]) ?_) | (refine okFor_writeOut _ _ _ _ _ _ (by simp [*])) | (refine okFor_withRef _ _ _ _ _ _ (by simp [*]) ?_) | (refine okFor_acceptNow _ _ _ _ (by simp [*]) (fun _ _ => ?_)) | (refine okFor_withInput _ _ _ _ _ _ (by simp [*]) (fun _ _ _ => ?_)) | (refine ⟨by simp [*], fun _ _ _ => ?_⟩) | (simp [*]; done) | (have hk := kept_fst ‹_›; simp [*] at hk; simp [*]; done) | split))
@[simp] theorem doLedgerRead_kept (h0 : Hdr) (first1 : ℕ) (count2 : ℕ) (flags3 : ℕ) (x4 : DRef) (s : State) : (doLedgerRead h0 first1 count2 flags3 x4 s).kept = s.kept := by
  (unfold doLedgerRead; refine packet_kept _ _ _ _ _ _ (fun t ht => ?_); (try dsimp only); repeat' (first | (simp [*]; done) | (refine okFor_check6 _ _ _ _ _ (by simp [*]) ?_) | (refine okFor_writeOut _ _ _ _ _ _ (by simp [*])) | (refine okFor_withRef _ _ _ _ _ _ (by simp [*]) ?_) | (refine okFor_acceptNow _ _ _ _ (by simp [*]) (fun _ _ => ?_)) | (refine okFor_withInput _ _ _ _ _ _ (by simp [*]) (fun _ _ _ => ?_)) | (refine ⟨by simp [*], fun _ _ _ => ?_⟩) | (simp [*]; done) | (have hk := kept_fst ‹_›; simp [*] at hk; simp [*]; done) | split))
@[simp] theorem doMeterRead_kept (h0 : Hdr) (s : State) : (doMeterRead h0 s).kept = s.kept := by
  (unfold doMeterRead; refine packet_kept _ _ _ _ _ _ (fun t ht => ?_); (try dsimp only); repeat' (first | (simp [*]; done) | (refine okFor_check6 _ _ _ _ _ (by simp [*]) ?_) | (refine okFor_writeOut _ _ _ _ _ _ (by simp [*])) | (refine okFor_withRef _ _ _ _ _ _ (by simp [*]) ?_) | (refine okFor_acceptNow _ _ _ _ (by simp [*]) (fun _ _ => ?_)) | (refine okFor_withInput _ _ _ _ _ _ (by simp [*]) (fun _ _ _ => ?_)) | (refine ⟨by simp [*], fun _ _ _ => ?_⟩) | (simp [*]; done) | (have hk := kept_fst ‹_›; simp [*] at hk; simp [*]; done) | split))
@[simp] theorem doPowerPolicy_kept (h0 : Hdr) (cap1 : ℕ) (share2 : ℕ) (s : State) : (doPowerPolicy h0 cap1 share2 s).kept = s.kept := by
  (unfold doPowerPolicy; refine packet_kept _ _ _ _ _ _ (fun t ht => ?_); (try dsimp only); repeat' (first | (simp [*]; done) | (refine okFor_check6 _ _ _ _ _ (by simp [*]) ?_) | (refine okFor_writeOut _ _ _ _ _ _ (by simp [*])) | (refine okFor_withRef _ _ _ _ _ _ (by simp [*]) ?_) | (refine okFor_acceptNow _ _ _ _ (by simp [*]) (fun _ _ => ?_)) | (refine okFor_withInput _ _ _ _ _ _ (by simp [*]) (fun _ _ _ => ?_)) | (refine ⟨by simp [*], fun _ _ _ => ?_⟩) | (simp [*]; done) | (have hk := kept_fst ‹_›; simp [*] at hk; simp [*]; done) | split))
@[simp] theorem doClockSet_kept (h0 : Hdr) (mmin1 : ℕ) (flags2 : ℕ) (s : State) : (doClockSet h0 mmin1 flags2 s).kept = s.kept := by
  (unfold doClockSet; refine packet_kept _ _ _ _ _ _ (fun t ht => ?_); (try dsimp only); repeat' (first | (simp [*]; done) | (refine okFor_check6 _ _ _ _ _ (by simp [*]) ?_) | (refine okFor_writeOut _ _ _ _ _ _ (by simp [*])) | (refine okFor_withRef _ _ _ _ _ _ (by simp [*]) ?_) | (refine okFor_acceptNow _ _ _ _ (by simp [*]) (fun _ _ => ?_)) | (refine okFor_withInput _ _ _ _ _ _ (by simp [*]) (fun _ _ _ => ?_)) | (refine ⟨by simp [*], fun _ _ _ => ?_⟩) | (simp [*]; done) | (have hk := kept_fst ‹_›; simp [*] at hk; simp [*]; done) | split))

/-! Machine/FabricCmd.lean -/

@[simp] theorem doFabricTopology_kept (h0 : Hdr) (x1 : DRef) (s : State) : (doFabricTopology h0 x1 s).kept = s.kept := by
  (unfold doFabricTopology; refine packet_kept _ _ _ _ _ _ (fun t ht => ?_); (try dsimp only); repeat' (first | (simp [*]; done) | (refine okFor_check6 _ _ _ _ _ (by simp [*]) ?_) | (refine okFor_writeOut _ _ _ _ _ _ (by simp [*])) | (refine okFor_withRef _ _ _ _ _ _ (by simp [*]) ?_) | (refine okFor_acceptNow _ _ _ _ (by simp [*]) (fun _ _ => ?_)) | (refine okFor_withInput _ _ _ _ _ _ (by simp [*]) (fun _ _ _ => ?_)) | (refine ⟨by simp [*], fun _ _ _ => ?_⟩) | (simp [*]; done) | (have hk := kept_fst ‹_›; simp [*] at hk; simp [*]; done) | split))
@[simp] theorem State.takePod_kept (s : State) (id : ℕ) (b : List Byte) : (s.takePod id b).kept = s.kept := by
  unfold State.takePod; (try dsimp only); (repeat' split) <;> simp [*]
@[simp] theorem doPodConfig_kept (h0 : Hdr) (x1 : DRef) (s : State) : (doPodConfig h0 x1 s).kept = s.kept := by
  (unfold doPodConfig; refine packet_kept _ _ _ _ _ _ (fun t ht => ?_); (try dsimp only); repeat' (first | (simp [*]; done) | (rw [State.readFor_kept _ _ _ _ _ _ (fun _ _ => State.takePod_kept _ _ _)]; simp [*]; done) | (refine okFor_check6 _ _ _ _ _ (by simp [*]) ?_) | (refine okFor_writeOut _ _ _ _ _ _ (by simp [*])) | (refine okFor_withRef _ _ _ _ _ _ (by simp [*]) ?_) | (refine okFor_acceptNow _ _ _ _ (by simp [*]) (fun _ _ => ?_); (try dsimp only)) | (refine okFor_withInput _ _ _ _ _ _ (by simp [*]) (fun _ _ _ => ?_); (try dsimp only)) | (refine ⟨by simp [*], fun _ _ _ => ?_⟩; (try dsimp only)) | (simp [*]; done) | (rw [State.readFor_kept _ _ _ _ _ _ (fun _ _ => State.takePod_kept _ _ _)]; simp [*]; done) | (have hk := kept_fst ‹_›; simp at hk; simp [hk, *]; done) | split))
@[simp] theorem doLinkWidth_kept (h0 : Hdr) (n1 : ℕ) (v2 : ℕ) (s : State) : (doLinkWidth h0 n1 v2 s).kept = s.kept := by
  (unfold doLinkWidth; refine packet_kept _ _ _ _ _ _ (fun t ht => ?_); (try dsimp only); repeat' (first | (simp [*]; done) | (refine okFor_check6 _ _ _ _ _ (by simp [*]) ?_) | (refine okFor_writeOut _ _ _ _ _ _ (by simp [*])) | (refine okFor_withRef _ _ _ _ _ _ (by simp [*]) ?_) | (refine okFor_acceptNow _ _ _ _ (by simp [*]) (fun _ _ => ?_)) | (refine okFor_withInput _ _ _ _ _ _ (by simp [*]) (fun _ _ _ => ?_)) | (refine ⟨by simp [*], fun _ _ _ => ?_⟩) | (simp [*]; done) | (have hk := kept_fst ‹_›; simp [*] at hk; simp [*]; done) | split))
@[simp] theorem doLinkRetrain_kept (h0 : Hdr) (n1 : ℕ) (s : State) : (doLinkRetrain h0 n1 s).kept = s.kept := by
  (unfold doLinkRetrain; refine packet_kept _ _ _ _ _ _ (fun t ht => ?_); (try dsimp only); repeat' (first | (simp [*]; done) | (refine okFor_check6 _ _ _ _ _ (by simp [*]) ?_) | (refine okFor_writeOut _ _ _ _ _ _ (by simp [*])) | (refine okFor_withRef _ _ _ _ _ _ (by simp [*]) ?_) | (refine okFor_acceptNow _ _ _ _ (by simp [*]) (fun _ _ => ?_)) | (refine okFor_withInput _ _ _ _ _ _ (by simp [*]) (fun _ _ _ => ?_)) | (refine ⟨by simp [*], fun _ _ _ => ?_⟩) | (simp [*]; done) | (have hk := kept_fst ‹_›; simp [*] at hk; simp [*]; done) | split))

/-! Machine/Capture.lean -/

@[simp] theorem State.capture_kept (s : State) : (State.capture s).kept = s.kept := by
  simp [State.capture]

/-! Machine/SysCmd.lean -/

@[simp] theorem State.orderReset_kept (s : State) (level1 : ℕ) (party2 : ℕ) (ids3 : List ℕ) (byFault4 : Bool) : (State.orderReset s level1 party2 ids3 byFault4).kept = s.kept := by
  (unfold State.orderReset; (try dsimp only); (repeat' split) <;> simp [*])
@[simp] theorem State.askWarm_kept (s : State) (trigger1 : ℕ) (tag2 : ℕ) (ids3 : List ℕ) : (State.askWarm s trigger1 tag2 ids3).kept = s.kept := by
  rfl
@[simp] theorem doReset_kept (h0 : Hdr) (level1 : ℕ) (unit2 : ℕ) (s : State) : (doReset h0 level1 unit2 s).kept = s.kept := by
  (unfold doReset; refine packet_kept _ _ _ _ _ _ (fun t ht => ?_); (try dsimp only); repeat' (first | (simp [*]; done) | (refine okFor_check6 _ _ _ _ _ (by simp [*]) ?_) | (refine okFor_writeOut _ _ _ _ _ _ (by simp [*])) | (refine okFor_withRef _ _ _ _ _ _ (by simp [*]) ?_) | (refine okFor_acceptNow _ _ _ _ (by simp [*]) (fun _ _ => ?_); (try dsimp only)) | (refine okFor_withInput _ _ _ _ _ _ (by simp [*]) (fun _ _ _ => ?_); (try dsimp only)) | (refine ⟨by simp [*], fun _ _ _ => ?_⟩; (try dsimp only)) | (simp [*]; done) | (have hk := kept_fst ‹_›; simp at hk; simp [hk, *]; done) | split))
@[simp] theorem doRegionMapRead_kept (h0 : Hdr) (x1 : DRef) (s : State) : (doRegionMapRead h0 x1 s).kept = s.kept := by
  (unfold doRegionMapRead; refine packet_kept _ _ _ _ _ _ (fun t ht => ?_); (try dsimp only); repeat' (first | (simp [*]; done) | (refine okFor_check6 _ _ _ _ _ (by simp [*]) ?_) | (refine okFor_writeOut _ _ _ _ _ _ (by simp [*])) | (refine okFor_withRef _ _ _ _ _ _ (by simp [*]) ?_) | (refine okFor_acceptNow _ _ _ _ (by simp [*]) (fun _ _ => ?_); (try dsimp only)) | (refine okFor_withInput _ _ _ _ _ _ (by simp [*]) (fun _ _ _ => ?_); (try dsimp only)) | (refine ⟨by simp [*], fun _ _ _ => ?_⟩; (try dsimp only)) | (simp [*]; done) | (have hk := kept_fst ‹_›; simp at hk; simp [hk, *]; done) | split))
@[simp] theorem doDefectMapRead_kept (h0 : Hdr) (x1 : DRef) (s : State) : (doDefectMapRead h0 x1 s).kept = s.kept := by
  (unfold doDefectMapRead; refine packet_kept _ _ _ _ _ _ (fun t ht => ?_); (try dsimp only); repeat' (first | (simp [*]; done) | (refine okFor_check6 _ _ _ _ _ (by simp [*]) ?_) | (refine okFor_writeOut _ _ _ _ _ _ (by simp [*])) | (refine okFor_withRef _ _ _ _ _ _ (by simp [*]) ?_) | (refine okFor_acceptNow _ _ _ _ (by simp [*]) (fun _ _ => ?_); (try dsimp only)) | (refine okFor_withInput _ _ _ _ _ _ (by simp [*]) (fun _ _ _ => ?_); (try dsimp only)) | (refine ⟨by simp [*], fun _ _ _ => ?_⟩; (try dsimp only)) | (simp [*]; done) | (have hk := kept_fst ‹_›; simp at hk; simp [hk, *]; done) | split))
@[simp] theorem doRimConfig_kept (h0 : Hdr) (mask1 : ℕ) (which2 : ℕ) (rg3 : ℕ) (rd4 : ℕ) (s : State) : (doRimConfig h0 mask1 which2 rg3 rd4 s).kept = s.kept := by
  (unfold doRimConfig; refine packet_kept _ _ _ _ _ _ (fun t ht => ?_); (try dsimp only); repeat' (first | (simp [*]; done) | (refine okFor_check6 _ _ _ _ _ (by simp [*]) ?_) | (refine okFor_writeOut _ _ _ _ _ _ (by simp [*])) | (refine okFor_withRef _ _ _ _ _ _ (by simp [*]) ?_) | (refine okFor_acceptNow _ _ _ _ (by simp [*]) (fun _ _ => ?_); (try dsimp only)) | (refine okFor_withInput _ _ _ _ _ _ (by simp [*]) (fun _ _ _ => ?_); (try dsimp only)) | (refine ⟨by simp [*], fun _ _ _ => ?_⟩; (try dsimp only)) | (simp [*]; done) | (have hk := kept_fst ‹_›; simp at hk; simp [hk, *]; done) | split))
@[simp] theorem doBeatMode_kept (h0 : Hdr) (mode1 : ℕ) (flags2 : ℕ) (delay3 : ℕ) (s : State) : (doBeatMode h0 mode1 flags2 delay3 s).kept = s.kept := by
  (unfold doBeatMode; refine packet_kept _ _ _ _ _ _ (fun t ht => ?_); (try dsimp only); repeat' (first | (simp [*]; done) | (refine okFor_check6 _ _ _ _ _ (by simp [*]) ?_) | (refine okFor_writeOut _ _ _ _ _ _ (by simp [*])) | (refine okFor_withRef _ _ _ _ _ _ (by simp [*]) ?_) | (refine okFor_acceptNow _ _ _ _ (by simp [*]) (fun _ _ => ?_); (try dsimp only)) | (refine okFor_withInput _ _ _ _ _ _ (by simp [*]) (fun _ _ _ => ?_); (try dsimp only)) | (refine ⟨by simp [*], fun _ _ _ => ?_⟩; (try dsimp only)) | (simp [*]; done) | (have hk := kept_fst ‹_›; simp at hk; simp [hk, *]; done) | split))
@[simp] theorem State.stage_kept (s : State) (b1 : List Byte) : (State.stage s b1).1.kept = s.kept := by
  (unfold State.stage; (try dsimp only); (repeat' split) <;> simp [*])
@[simp] theorem doFwStage_kept (h0 : Hdr) (x1 : DRef) (s : State) : (doFwStage h0 x1 s).kept = s.kept := by
  (unfold doFwStage; refine packet_kept _ _ _ _ _ _ (fun t ht => ?_); (try dsimp only); repeat' (first | (simp [*]; done) | (rw [State.readThen_kept _ _ _ _ _ (fun _ _ => State.stage_kept _ _)]; simp [*]; done) | (refine okFor_check6 _ _ _ _ _ (by simp [*]) ?_) | (refine okFor_writeOut _ _ _ _ _ _ (by simp [*])) | (refine okFor_withRef _ _ _ _ _ _ (by simp [*]) ?_) | (refine okFor_acceptNow _ _ _ _ (by simp [*]) (fun _ _ => ?_); (try dsimp only)) | (refine okFor_withInput _ _ _ _ _ _ (by simp [*]) (fun _ _ _ => ?_); (try dsimp only)) | (refine ⟨by simp [*], fun _ _ _ => ?_⟩; (try dsimp only)) | (simp [*]; done) | (rw [State.readThen_kept _ _ _ _ _ (fun _ _ => State.stage_kept _ _)]; simp [*]; done) | (have hk := kept_fst ‹_›; simp at hk; simp [hk, *]; done) | split))

/-! Machine/ResetCmd.lean -/

@[simp] theorem State.endReset_kept (s : State) (o1 : RstOrd) : (State.endReset s o1).kept = s.kept := by
  simp [State.endReset]
@[simp] theorem State.resetServes_kept (s : State) (r1 : ℕ) (byFault2 : Bool) : (State.resetServes s r1 byFault2).kept = s.kept := by
  simp [State.resetServes]
@[simp] theorem doTileReset_kept (tile0 : ℕ) (s : State) : (doTileReset tile0 s).kept = s.kept := by
  (unfold doTileReset; (try dsimp only); (repeat' split) <;> simp [*])
@[simp] theorem doClusterReset_kept (region0 : ℕ) (cluster1 : ℕ) (s : State) : (doClusterReset region0 cluster1 s).kept = s.kept := by
  (unfold doClusterReset; (try dsimp only); (repeat' split) <;> simp [*])
@[simp] theorem doPartitionReset_kept (ctx0 : ℕ) (s : State) : (doPartitionReset ctx0 s).kept = s.kept := by
  (unfold doPartitionReset; (try dsimp only); (repeat' split) <;> simp [*])
@[simp] theorem doComputeDomainOn_kept (region0 : ℕ) (s : State) : (doComputeDomainOn region0 s).kept = s.kept := by
  simp [doComputeDomainOn]

/-! Machine/Arming.lean -/

@[simp] theorem State.arm_kept (s : State) (c1 : ℕ) (sc2 : ℕ) (n3 : ℕ) (d4 : Words8) (plan5 : ℕ) : (State.arm s c1 sc2 n3 d4 plan5).kept = s.kept := by
  rfl

/-! Machine/Ripener.lean -/

@[simp] theorem writeElems_kept (c0 : ℕ) (e1 : PEnt) (bf2 : Bool) (rule3 : ℕ) (n4 : ℕ) (r5 : List (ℕ × ℕ × ℕ)) (s : State) : (writeElems c0 e1 bf2 rule3 n4 r5 s).kept = s.kept := by
  unfold writeElems; dsimp only; split <;> split <;> simp
@[simp] theorem storeUpdate_kept (c0 : ℕ) (parcel1 : ℕ) (step2 : ℕ) (attempt3 : ℕ) (e4 : PEnt) (o5 : Owner) (n6 : ℕ) (r7 : List (ℕ × ℕ × ℕ)) (x8 : Ctx) (s : State) : (storeUpdate c0 parcel1 step2 attempt3 e4 o5 n6 r7 x8 s).kept = s.kept := by
  simp [storeUpdate]
theorem unlessStopped_kept (sc c parcel step attempt : Nat) (stop : Option PartErr) (go : State → State) (s : State) (h : ∀ t, (go t).kept = t.kept) :
    (unlessStopped sc c parcel step attempt stop go s).kept = s.kept := by
  unfold unlessStopped
  split
  · exact h s
  · simp
theorem takeSlot_kept {s t : State} {c p n : Nat} {e : PEnt} (h : s.takeSlot c p e = some (t, n)) : t.kept = s.kept := by
  unfold State.takeSlot at h
  dsimp only at h
  split at h
  · exact absurd h (by simp)
  · split at h
    · exact absurd h (by simp)
    · simp only [Option.some.injEq, Prod.mk.injEq] at h
      rw [← h.1]; simp
@[simp] theorem ripen_kept (sc0 : ℕ) (c1 : ℕ) (parcel2 : ℕ) (step3 : ℕ) (attempt4 : ℕ) (e5 : PEnt) (o6 : Owner) (s : State) : (ripen sc0 c1 parcel2 step3 attempt4 e5 o6 s).kept = s.kept := by
  unfold ripen
  extract_lets x bf rule slot
  refine unlessStopped_kept _ _ _ _ _ _ _ _ (fun s => ?_)
  refine (afterRead_kept _ _ _ (fun t r => by simp) (fun t b => ?_)).trans (by simp)
  split
  · rfl
  · have h2 := takeSlot_kept ‹_›
    split <;> simp [h2]
@[simp] theorem ripenHost_kept (sc0 : ℕ) (c1 : ℕ) (parcel2 : ℕ) (step3 : ℕ) (attempt4 : ℕ) (e5 : PEnt) (o6 : Owner) (s : State) : (ripenHost sc0 c1 parcel2 step3 attempt4 e5 o6 s).kept = s.kept := by
  unfold ripenHost
  extract_lets x g h hx n k q
  refine unlessStopped_kept _ _ _ _ _ _ _ _ (fun s => ?_)
  split
  · rfl
  · have h2 := takeSlot_kept ‹_›
    simp [h2]
@[simp] theorem ripenAgain_kept (sc0 : ℕ) (c1 : ℕ) (parcel2 : ℕ) (step3 : ℕ) (attempt4 : ℕ) (e5 : PEnt) (o6 : Owner) (s : State) : (ripenAgain sc0 c1 parcel2 step3 attempt4 e5 o6 s).kept = s.kept := by
  unfold ripenAgain
  extract_lets x g cm kept q old
  refine unlessStopped_kept _ _ _ _ _ _ _ _ (fun s => ?_)
  exact (afterRead_kept _ _ _ (fun t r => by simp) (fun t b => by simp)).trans (by simp)
@[simp] theorem doRipenerUpdate_kept (sc0 : ℕ) (ctx1 : ℕ) (parcel2 : ℕ) (s : State) : (doRipenerUpdate sc0 ctx1 parcel2 s).kept = s.kept := by
  (unfold doRipenerUpdate; (try dsimp only); (repeat' split) <;> simp [*])
@[simp] theorem State.ackMirror_kept (s : State) (link1 : ℕ) (c2 : ℕ) (dst3 : ℕ) (p4 : Prefix) (status5 : ℕ) : (State.ackMirror s link1 c2 dst3 p4 status5).kept = s.kept := by
  rfl
@[simp] theorem State.endTakeover_kept (s : State) (c1 : ℕ) (status2 : ℕ) (detail3 : ℕ) : (State.endTakeover s c1 status2 detail3).kept = s.kept := by
  (unfold State.endTakeover; (try dsimp only); (repeat' split) <;> simp [*])
@[simp] theorem State.tryTakeover_kept (s : State) (c1 : ℕ) : (State.tryTakeover s c1).kept = s.kept := by
  (unfold State.tryTakeover; (try dsimp only); (repeat' split) <;> simp [*])
@[simp] theorem State.tookUnits_kept (s : State) (f1 : FHdr) (n2 : ℕ) : (State.tookUnits s f1 n2).kept = s.kept := by
  simp [State.tookUnits]
@[simp] theorem mirrorBack_kept (f0 : FHdr) (p1 : Prefix) (e2 : PEnt) (data3 : List Byte) (s : State) : (mirrorBack f0 p1 e2 data3 s).kept = s.kept := by
  (unfold mirrorBack; (try dsimp only); (repeat' split) <;> simp [*])
@[simp] theorem mirrorIn_kept (f0 : FHdr) (p1 : Prefix) (data2 : List Byte) (s : State) : (mirrorIn f0 p1 data2 s).kept = s.kept := by
  (unfold mirrorIn; (try dsimp only); (repeat' split) <;> simp [*])
@[simp] theorem scalesIn_kept (f0 : FHdr) (p1 : Prefix) (data2 : List Byte) (s : State) : (scalesIn f0 p1 data2 s).kept = s.kept := by
  simp [scalesIn]
@[simp] theorem doMirror_kept (f0 : FHdr) (p1 : Prefix) (data2 : List Byte) (s : State) : (doMirror f0 p1 data2 s).kept = s.kept := by
  (unfold doMirror; refine State.fabricIn_kept _ _ _ _ _ (fun t ht => ?_); (repeat' split) <;> simp [*])
@[simp] theorem State.initDone_kept (s : State) (c1 : ℕ) (parcel2 : ℕ) (cause3 : Option ℕ) : (State.initDone s c1 parcel2 cause3).kept = s.kept := by
  (unfold State.initDone; (try dsimp only); (repeat' split) <;> simp [*])
@[simp] theorem State.mirrored_kept (s : State) (sc1 : ℕ) (c2 : ℕ) (parcel3 : ℕ) : (State.mirrored s sc1 c2 parcel3).kept = s.kept := rfl
@[simp] theorem ackIn_kept (c0 : ℕ) (fl1 : InFlight) (e2 : PEnt) (s : State) : (ackIn c0 fl1 e2 s).kept = s.kept := by
  simp [ackIn]
@[simp] theorem doMirrorAck_kept (f0 : FHdr) (parcel1 : ℕ) (step2 : ℕ) (attempt3 : ℕ) (status4 : ℕ) (s : State) : (doMirrorAck f0 parcel1 step2 attempt3 status4 s).kept = s.kept := by
  (unfold doMirrorAck; refine State.fabricIn_kept _ _ _ _ _ (fun t ht => ?_); simp [ht]; (repeat' split) <;> simp [*])
@[simp] theorem doMirrorTimeout_kept (ctx0 : ℕ) (parcel1 : ℕ) (s : State) : (doMirrorTimeout ctx0 parcel1 s).kept = s.kept := by
  (unfold doMirrorTimeout; (try dsimp only); (repeat' split) <;> simp [*])
@[simp] theorem doAllgather_kept (f0 : FHdr) (p1 : Prefix) (data2 : List Byte) (s : State) : (doAllgather f0 p1 data2 s).kept = s.kept := by
  (unfold doAllgather; refine State.fabricIn_kept _ _ _ _ _ (fun t ht => ?_); simp [ht]; (repeat' split) <;> simp [*])
@[simp] theorem doHostUpdateTimeout_kept (ctx0 : ℕ) (parcel1 : ℕ) (s : State) : (doHostUpdateTimeout ctx0 parcel1 s).kept = s.kept := by
  (unfold doHostUpdateTimeout; (try dsimp only); (repeat' split) <;> simp [*])

/-! Machine/StepOps.lean -/

@[simp] theorem State.refuseStart_kept (s : State) (c1 : ℕ) (cls2 : ℕ) (det3 : List ℕ) : (State.refuseStart s c1 cls2 det3).kept = s.kept := by
  simp [State.refuseStart]
@[simp] theorem State.compareStarts_kept (s : State) (c1 : ℕ) : (State.compareStarts s c1).kept = s.kept := by
  unfold State.compareStarts; (try dsimp only); (repeat' split) <;> simp [*]
@[simp] theorem State.sendStart_kept (s : State) (c1 : ℕ) : (State.sendStart s c1).kept = s.kept := by
  unfold State.sendStart; (try dsimp only); (repeat' split) <;> simp [*]
@[simp] theorem startIn_kept (c0 : ℕ) (pos1 : ℕ) (step2 : ℕ) (attempt3 : ℕ) (scale4 : ℕ) (freeze5 : ℕ) (s : State) : (startIn c0 pos1 step2 attempt3 scale4 freeze5 s).kept = s.kept := by
  unfold startIn; (try dsimp only); (repeat' split) <;> simp [*]
@[simp] theorem State.tryNorm_kept (s : State) (c1 : ℕ) (step2 : ℕ) : (State.tryNorm s c1 step2).kept = s.kept := by
  simp [State.tryNorm]
@[simp] theorem normIn_kept (c0 : ℕ) (pos1 : ℕ) (step2 : ℕ) (v3 : W64) (s : State) : (normIn c0 pos1 step2 v3 s).kept = s.kept := by
  simp [normIn]

/-! Machine/PlanCheck.lean -/

@[simp] theorem State.addRoutes_kept (s : State) (l1 : List (ℕ × ℕ)) : (State.addRoutes s l1).kept = s.kept := by
  simp [State.addRoutes]
@[simp] theorem State.dropRoutes_kept (s : State) (l1 : List (ℕ × ℕ)) : (State.dropRoutes s l1).kept = s.kept := by
  simp [State.dropRoutes]
@[simp] theorem State.freeSet_kept (s : State) (c1 : ℕ) (handle2 : ℕ) : (State.freeSet s c1 handle2).kept = s.kept := by
  unfold State.freeSet; (try dsimp only); (repeat' split) <;> simp [*]

/-! Machine/PlanCmd.lean -/

@[simp] theorem State.deliverPages_kept (s : State) (pages1 : List (ℕ × ℕ × List ℕ)) : (State.deliverPages s pages1).kept = s.kept := by
  simp [State.deliverPages]
@[simp] theorem State.armPlan_kept (s : State) (c1 : ℕ) (handle2 : ℕ) (bank3 : ℕ) (l4 : List (ℕ × ℕ × Words8)) : (State.armPlan s c1 handle2 bank3 l4).kept = s.kept := by
  simp [State.armPlan]
@[simp] theorem State.issueStart_kept (s : State) (c1 : ℕ) (handle2 : ℕ) (bank3 : ℕ) (b4 : ℕ) (p5 : PlanSet) : (State.issueStart s c1 handle2 bank3 b4 p5).kept = s.kept := by
  simp [State.issueStart]
@[simp] theorem State.onPartition_kept (s : State) (c1 : ℕ) (f2 : Tile → Tile) : (State.onPartition s c1 f2).kept = s.kept := by
  rfl
@[simp] theorem doSpMapLoad_kept (h0 : Hdr) (m1 : SpMap) (s : State) : (doSpMapLoad h0 m1 s).kept = s.kept := by
  unfold doSpMapLoad; refine packet_kept _ _ _ _ _ _ (fun t ht => ?_); (try dsimp only); repeat' (first | (simp [*]; done) | (refine okFor_check6 _ _ _ _ _ (by simp [*]) ?_) | (refine okFor_writeOut _ _ _ _ _ _ (by simp [*])) | (refine okFor_withRef _ _ _ _ _ _ (by simp [*]) ?_) | (refine okFor_acceptNow _ _ _ _ (by simp [*]) (fun _ _ => ?_); (try dsimp only)) | (refine okFor_withInput _ _ _ _ _ _ (by simp [*]) (fun _ _ _ => ?_); (try dsimp only)) | (refine ⟨by simp [*], fun _ _ _ => ?_⟩; (try dsimp only)) | (simp [*]; done) | (have hk := kept_fst ‹_›; simp at hk; simp [hk, *]; done) | split)
@[simp] theorem loadLibrary_kept (c0 : ℕ) (b1 : List Byte) (s : State) : (loadLibrary c0 b1 s).1.kept = s.kept := by
  unfold loadLibrary; (try dsimp only); (repeat' split) <;> simp [*]
@[simp] theorem doLibLoad_kept (h0 : Hdr) (x1 : DRef) (s : State) : (doLibLoad h0 x1 s).kept = s.kept := by
  unfold doLibLoad; refine packet_kept _ _ _ _ _ _ (fun t ht => ?_); (try dsimp only); repeat' (first | (simp [*]; done) | (rw [State.readThen_kept _ _ _ _ _ (fun _ _ => loadLibrary_kept _ _ _)]; simp [*]; done) | (refine okFor_check6 _ _ _ _ _ (by simp [*]) ?_) | (refine okFor_writeOut _ _ _ _ _ _ (by simp [*])) | (refine okFor_withRef _ _ _ _ _ _ (by simp [*]) ?_) | (refine okFor_acceptNow _ _ _ _ (by simp [*]) (fun _ _ => ?_); (try dsimp only)) | (refine okFor_withInput _ _ _ _ _ _ (by simp [*]) (fun _ _ _ => ?_); (try dsimp only)) | (refine ⟨by simp [*], fun _ _ _ => ?_⟩; (try dsimp only)) | (simp [*]; done) | (rw [readThen_kept _ _ _ _ _ (fun _ _ => loadLibrary_kept _ _ _)]; simp [*]; done) | (have hk := kept_fst ‹_›; simp at hk; simp [hk, *]; done) | split)
@[simp] theorem State.takeSet_kept (s : State) (c : ℕ) (p : PlanSet) : (s.takeSet c p).1.kept = s.kept := by
  unfold State.takeSet; (try dsimp only); (repeat' split) <;> simp [*]
@[simp] theorem loadSet_kept (c0 : ℕ) (b1 : List Byte) (s : State) : (loadSet c0 b1 s).1.kept = s.kept := by
  unfold loadSet; (try dsimp only); (repeat' split) <;> simp [*]
@[simp] theorem doPlanLoad_kept (h0 : Hdr) (x1 : DRef) (s : State) : (doPlanLoad h0 x1 s).kept = s.kept := by
  unfold doPlanLoad; refine packet_kept _ _ _ _ _ _ (fun t ht => ?_); (try dsimp only); repeat' (first | (simp [*]; done) | (rw [State.readThen_kept _ _ _ _ _ (fun _ _ => loadSet_kept _ _ _)]; simp [*]; done) | (refine okFor_check6 _ _ _ _ _ (by simp [*]) ?_) | (refine okFor_writeOut _ _ _ _ _ _ (by simp [*])) | (refine okFor_withRef _ _ _ _ _ _ (by simp [*]) ?_) | (refine okFor_acceptNow _ _ _ _ (by simp [*]) (fun _ _ => ?_); (try dsimp only)) | (refine okFor_withInput _ _ _ _ _ _ (by simp [*]) (fun _ _ _ => ?_); (try dsimp only)) | (refine ⟨by simp [*], fun _ _ _ => ?_⟩; (try dsimp only)) | (simp [*]; done) | (rw [readThen_kept _ _ _ _ _ (fun _ _ => loadSet_kept _ _ _)]; simp [*]; done) | (have hk := kept_fst ‹_›; simp at hk; simp [hk, *]; done) | split)
@[simp] theorem doPlanFree_kept (h0 : Hdr) (handle1 : ℕ) (s : State) : (doPlanFree h0 handle1 s).kept = s.kept := by
  unfold doPlanFree; refine packet_kept _ _ _ _ _ _ (fun t ht => ?_); (try dsimp only); repeat' (first | (simp [*]; done) | (refine okFor_check6 _ _ _ _ _ (by simp [*]) ?_) | (refine okFor_writeOut _ _ _ _ _ _ (by simp [*])) | (refine okFor_withRef _ _ _ _ _ _ (by simp [*]) ?_) | (refine okFor_acceptNow _ _ _ _ (by simp [*]) (fun _ _ => ?_); (try dsimp only)) | (refine okFor_withInput _ _ _ _ _ _ (by simp [*]) (fun _ _ _ => ?_); (try dsimp only)) | (refine ⟨by simp [*], fun _ _ _ => ?_⟩; (try dsimp only)) | (simp [*]; done) | (have hk := kept_fst ‹_›; simp at hk; simp [hk, *]; done) | split)
@[simp] theorem doPlanRun_kept (h0 : Hdr) (handle1 : ℕ) (s : State) : (doPlanRun h0 handle1 s).kept = s.kept := by
  unfold doPlanRun; refine packet_kept _ _ _ _ _ _ (fun t ht => ?_); (try dsimp only); repeat' (first | (simp [*]; done) | (refine okFor_check6 _ _ _ _ _ (by simp [*]) ?_) | (refine okFor_writeOut _ _ _ _ _ _ (by simp [*])) | (refine okFor_withRef _ _ _ _ _ _ (by simp [*]) ?_) | (refine okFor_acceptNow _ _ _ _ (by simp [*]) (fun _ _ => ?_); (try dsimp only)) | (refine okFor_withInput _ _ _ _ _ _ (by simp [*]) (fun _ _ _ => ?_); (try dsimp only)) | (refine ⟨by simp [*], fun _ _ _ => ?_⟩; (try dsimp only)) | (simp [*]; done) | (have hk := kept_fst ‹_›; simp at hk; simp [hk, *]; done) | split)
@[simp] theorem doPlanAbort_kept (h0 : Hdr) (s : State) : (doPlanAbort h0 s).kept = s.kept := by
  unfold doPlanAbort; refine packet_kept _ _ _ _ _ _ (fun t ht => ?_); (try dsimp only); repeat' (first | (simp [*]; done) | (refine okFor_check6 _ _ _ _ _ (by simp [*]) ?_) | (refine okFor_writeOut _ _ _ _ _ _ (by simp [*])) | (refine okFor_withRef _ _ _ _ _ _ (by simp [*]) ?_) | (refine okFor_acceptNow _ _ _ _ (by simp [*]) (fun _ _ => ?_); (try dsimp only)) | (refine okFor_withInput _ _ _ _ _ _ (by simp [*]) (fun _ _ _ => ?_); (try dsimp only)) | (refine ⟨by simp [*], fun _ _ _ => ?_⟩; (try dsimp only)) | (simp [*]; done) | (have hk := kept_fst ‹_›; simp at hk; simp [hk, *]; done) | split)

/-! Machine/TestCmd.lean -/

@[simp] theorem State.takePack_kept (s : State) (slot : ℕ) (b : List Byte) : (s.takePack slot b).1.kept = s.kept := by
  unfold State.takePack; (try dsimp only); (repeat' split) <;> simp [*]
@[simp] theorem doPatternLoad_kept (h0 : Hdr) (slot1 : ℕ) (x2 : DRef) (s : State) : (doPatternLoad h0 slot1 x2 s).kept = s.kept := by
  (unfold doPatternLoad; refine packet_kept _ _ _ _ _ _ (fun t ht => ?_); (try dsimp only); repeat' (first | (simp [*]; done) | (rw [State.readThen_kept _ _ _ _ _ (fun _ _ => State.takePack_kept _ _ _)]; simp [*]; done) | (refine okFor_check6 _ _ _ _ _ (by simp [*]) ?_) | (refine okFor_writeOut _ _ _ _ _ _ (by simp [*])) | (refine okFor_withRef _ _ _ _ _ _ (by simp [*]) ?_) | (refine okFor_acceptNow _ _ _ _ (by simp [*]) (fun _ _ => ?_); (try dsimp only)) | (refine okFor_withInput _ _ _ _ _ _ (by simp [*]) (fun _ _ _ => ?_); (try dsimp only)) | (refine ⟨by simp [*], fun _ _ _ => ?_⟩; (try dsimp only)) | (simp [*]; done) | (rw [State.readThen_kept _ _ _ _ _ (fun _ _ => State.takePack_kept _ _ _)]; simp [*]; done) | (have hk := kept_fst ‹_›; simp at hk; simp [hk, *]; done) | split))
@[simp] theorem State.onTest_kept (s : State) (t1 : TestUnit) (f2 : TestUnit → TestUnit) : (State.onTest s t1 f2).kept = s.kept := by
  rfl
@[simp] theorem State.startTest_kept (s : State) (t1 : TestUnit) : (State.startTest s t1).kept = s.kept := by
  simp [State.startTest]
@[simp] theorem State.tryTest_kept (s : State) (t1 : TestUnit) : (State.tryTest s t1).kept = s.kept := by
  (unfold State.tryTest; (try dsimp only); (repeat' split) <;> simp [*])
@[simp] theorem State.writeResults_kept (s : State) (l1 : Long) (x2 : DRef) (out3 : List Byte) : (State.writeResults s l1 x2 out3).1.kept = s.kept := by
  (unfold State.writeResults; (try dsimp only); (repeat' split) <;> simp [*])
@[simp] theorem State.closeTests_kept (s : State) : (State.closeTests s).kept = s.kept := by
  (unfold State.closeTests; (try dsimp only); (repeat' split) <;> (try simp [*]) <;> (refine kept_foldl _ (fun _ _ => ?_) _ _) <;> (repeat' split) <;> simp [*])
@[simp] theorem doTestRun_kept (h0 : Hdr) (unit1 : ℕ) (slot2 : ℕ) (corner3 : ℕ) (x4 : DRef) (s : State) : (doTestRun h0 unit1 slot2 corner3 x4 s).kept = s.kept := by
  (unfold doTestRun; refine packet_kept _ _ _ _ _ _ (fun t ht => ?_); (try dsimp only); repeat' (first | (simp [*]; done) | (refine okFor_check6 _ _ _ _ _ (by simp [*]) ?_) | (refine okFor_writeOut _ _ _ _ _ _ (by simp [*])) | (refine okFor_withRef _ _ _ _ _ _ (by simp [*]) ?_) | (refine okFor_acceptNow _ _ _ _ (by simp [*]) (fun _ _ => ?_); (try dsimp only)) | (refine okFor_withInput _ _ _ _ _ _ (by simp [*]) (fun _ _ _ => ?_); (try dsimp only)) | (refine ⟨by simp [*], fun _ _ _ => ?_⟩; (try dsimp only)) | (simp [*]; done) | (have hk := kept_fst ‹_›; simp at hk; simp [hk, *]; done) | split))
@[simp] theorem State.scanTest_kept (a : State × Nat × Bool) (t : TestUnit) : (State.scanTest a t).1.kept = a.1.kept := by
  unfold State.scanTest
  (try dsimp only)
  (repeat' split) <;> simp
@[simp] theorem State.scanTests_kept (s : State) : (State.scanTests s).kept = s.kept := by
  simp [State.scanTests]
@[simp] theorem State.testRelease_kept (s : State) (t1 : TestUnit) : (State.testRelease s t1).kept = s.kept := by
  simp [State.testRelease]
@[simp] theorem State.failSites_kept (s : State) (u1 : ℕ) (cls2 : ℕ) (sites3 : List ℕ) : (State.failSites s u1 cls2 sites3).kept = s.kept := by
  simp [State.failSites]
@[simp] theorem State.failSc_kept (s : State) (u1 : ℕ) (f2 : TestFinds) : (State.failSc s u1 f2).kept = s.kept := by
  simp [State.failSc]
@[simp] theorem doTestUnitDone_kept (unit0 : ℕ) (f1 : TestFinds) (s : State) : (doTestUnitDone unit0 f1 s).kept = s.kept := by
  (unfold doTestUnitDone; (try dsimp only); (repeat' split) <;> simp [*])
@[simp] theorem doTestTimeLimit_kept (unit0 : ℕ) (s : State) : (doTestTimeLimit unit0 s).kept = s.kept := by
  (unfold doTestTimeLimit; (try dsimp only); (repeat' split) <;> simp [*])
@[simp] theorem doTestAbort_kept (h0 : Hdr) (unit1 : ℕ) (s : State) : (doTestAbort h0 unit1 s).kept = s.kept := by
  (unfold doTestAbort; refine packet_kept _ _ _ _ _ _ (fun t ht => ?_); (try dsimp only); repeat' (first | (simp [*]; done) | (refine okFor_check6 _ _ _ _ _ (by simp [*]) ?_) | (refine okFor_writeOut _ _ _ _ _ _ (by simp [*])) | (refine okFor_withRef _ _ _ _ _ _ (by simp [*]) ?_) | (refine okFor_acceptNow _ _ _ _ (by simp [*]) (fun _ _ => ?_); (try dsimp only)) | (refine okFor_withInput _ _ _ _ _ _ (by simp [*]) (fun _ _ _ => ?_); (try dsimp only)) | (refine ⟨by simp [*], fun _ _ _ => ?_⟩; (try dsimp only)) | (simp [*]; done) | (have hk := kept_fst ‹_›; simp at hk; simp [hk, *]; done) | split))
@[simp] theorem State.abortTests_kept (s : State) : (State.abortTests s).kept = s.kept := by
  simp [State.abortTests]

/-! Machine/BootCmd.lean -/

@[simp] theorem State.bringUp_kept (s : State) (v1 : Variant) (b2 : BootFinds) (on3 : Bool) : (State.bringUp s v1 b2 on3).kept = s.kept := by
  simp [State.bringUp]
@[simp] theorem State.epochs_kept (s : State) : (State.epochs s).kept = s.kept := by
  simp [State.epochs]
@[simp] theorem State.freshWindow_kept (s : State) : (State.freshWindow s).kept = s.kept := by
  rfl
@[simp] theorem State.goDark_kept (s : State) : (State.goDark s).kept = s.kept := by
  rfl
@[simp] theorem State.copyRec_kept (s : State) (r1 : Rec) : (State.copyRec s r1).kept = s.kept := by
  rfl
@[simp] theorem State.coldRec_kept (s : State) (c1 : ColdRep) : (State.coldRec s c1).kept = s.kept := by
  rfl
@[simp] theorem State.bootStacks_kept (s : State) (v1 : Variant) (b2 : BootFinds) : (State.bootStacks s v1 b2).kept = s.kept := by
  simp [State.bootStacks]
@[simp] theorem State.bootLinks_kept (s : State) (v1 : Variant) (b2 : BootFinds) : (State.bootLinks s v1 b2).kept = s.kept := by
  (unfold State.bootLinks; refine kept_foldl _ (fun _ _ => ?_) _ _; (repeat' split) <;> simp [*])
@[simp] theorem State.bootHost_kept (s : State) (b1 : BootFinds) : (State.bootHost s b1).kept = s.kept := by
  rfl
@[simp] theorem State.bootLoad_kept (s : State) (k : ℕ) : (s.bootLoad k).kept = s.kept := rfl
@[simp] theorem State.powerWafer_kept (s : State) (v : Variant) : (s.powerWafer v).kept = s.kept := rfl
@[simp] theorem State.bootRom_kept (s : State) (b : BootFinds) : (s.bootRom b).kept = s.kept := by
  simp only [State.bootRom, State.coldRec_kept]; rfl
@[simp] theorem doCoolantWaitTimeout_kept (inlet0 : ℤ) (flow1 : ℕ) (s : State) : (doCoolantWaitTimeout inlet0 flow1 s).kept = s.kept := by
  simp [doCoolantWaitTimeout]
@[simp] theorem State.warmRec_kept (s : State) (phase1 : ℕ) (fwver2 : ℕ) (times3 : List ℕ) (fail4 : ℕ) (rgshad5 : ℕ) (nsites6 : ℕ) : (State.warmRec s phase1 fwver2 times3 fail4 rgshad5 nsites6).kept = s.kept := by
  rfl
@[simp] theorem State.endReps_kept (s : State) : (State.endReps s).kept = s.kept := by
  simp [State.endReps]
@[simp] theorem State.warmStop_kept (s : State) : (State.warmStop s).kept = s.kept := by
  simp [State.warmStop]
@[simp] theorem State.dropShadowed_kept (s : State) : (State.dropShadowed s).kept = s.kept := by
  simp [State.dropShadowed]
@[simp] theorem doKeeperWatchdog_kept (checkpoint0 : ℕ) (pc1 : ℕ) (lastFeed2 : ℕ) (s : State) : (doKeeperWatchdog checkpoint0 pc1 lastFeed2 s).kept = s.kept := by
  simp [doKeeperWatchdog]

/-! Machine/Waggle.lean -/

@[simp] theorem doWaggleResend_kept (hub0 : ℕ) (next1 : ℕ) (s : State) : (doWaggleResend hub0 next1 s).kept = s.kept := by
  simp [doWaggleResend]
@[simp] theorem doFenceOrder_kept (dst0 : ℕ) (action1 : ℕ) (ctx2 : ℕ) (s : State) : (doFenceOrder dst0 action1 ctx2 s).kept = s.kept := by
  unfold doFenceOrder; (try dsimp only); (repeat' split) <;> first | (simp [*]; done) | (have hk := kept_fst ‹_›; simp at hk; simp [hk]) | (have hk := State.take_kept ‹_›; (try simp at hk); simp [hk])
@[simp] theorem State.recordOnly_kept (s : State) (r1 : FReport) : (State.recordOnly s r1).kept = s.kept := by
  simp [State.recordOnly]
@[simp] theorem faultArrives_kept (r : FReport) (s : State) : (faultArrives r s).kept = s.kept := by
  unfold faultArrives; dsimp only; (repeat' split) <;> simp
@[simp] theorem doFaultReport_kept (unit0 : ℕ) (cls1 : ℕ) (stamp2 : ℕ) (s : State) : (doFaultReport unit0 cls1 stamp2 s).kept = s.kept := by
  unfold doFaultReport; split
  · rfl
  · next e => exact (elim_kept _ _ _ (fun _ => faultArrives_kept _ _)).trans (State.take_kept e)
@[simp] theorem keepTele_kept (u0 : ℕ) (w1 : List ℕ) (s : State) : (keepTele u0 w1 s).kept = s.kept := by
  unfold keepTele; dsimp only; (repeat' split) <;> simp
@[simp] theorem doTelemetry_kept (unit0 : ℕ) (s : State) : (doTelemetry unit0 s).kept = s.kept := by
  unfold doTelemetry; split
  · rfl
  · next e => exact (elim_kept _ _ _ (fun _ => keepTele_kept _ _ _)).trans (State.take_kept e)
@[simp] theorem State.request_kept (s : State) (src1 : ℕ) (tile2 : ℕ) : (State.request s src1 tile2).1.kept = s.kept := by
  (unfold State.request; (repeat' split) <;> simp [*])
@[simp] theorem State.spAnswer_kept (s : State) (tile1 : ℕ) (dst2 : ℕ) (status3 : ℕ) (value4 : ℕ) : (State.spAnswer s tile1 dst2 status3 value4).kept = s.kept := by
  (unfold State.spAnswer; (repeat' split) <;> simp [*])
@[simp] theorem State.regAnswer_kept (s : State) (tile1 : ℕ) (dst2 : ℕ) (status3 : ℕ) (value4 : ℕ) : (State.regAnswer s tile1 dst2 status3 value4).kept = s.kept := by
  (unfold State.regAnswer; (repeat' split) <;> simp [*])
@[simp] theorem agentRead_kept (tile0 : ℕ) (src1 : ℕ) (addr2 : ℕ) (s : State) : (agentRead tile0 src1 addr2 s).kept = s.kept := by
  unfold agentRead
  extract_lets t
  split
  · simp
  · split
    · simp
    · split <;> simp
@[simp] theorem doSpRead_kept (tile0 : ℕ) (src1 : ℕ) (addr2 : ℕ) (s : State) : (doSpRead tile0 src1 addr2 s).kept = s.kept := by
  (unfold doSpRead; (try dsimp only); (repeat' split) <;> simp [*])
@[simp] theorem agentWrite_kept (tile0 : ℕ) (src1 : ℕ) (addr2 : ℕ) (word3 : Line) (s : State) : (agentWrite tile0 src1 addr2 word3 s).kept = s.kept := by
  (unfold agentWrite; (repeat' split) <;> simp [*])
@[simp] theorem doSpWrite_kept (tile0 : ℕ) (src1 : ℕ) (addr2 : ℕ) (word3 : Line) (s : State) : (doSpWrite tile0 src1 addr2 word3 s).kept = s.kept := by
  simp [doSpWrite]
@[simp] theorem takeReply_kept (tile0 : ℕ) (dst1 : ℕ) (sp2 : Bool) (s : State) : (takeReply tile0 dst1 sp2 s).kept = s.kept := by
  unfold takeReply; (try dsimp only); (repeat' split) <;> first | (simp [*]; done) | (have hk := kept_fst ‹_›; simp at hk; simp [hk]) | (have hk := State.take_kept ‹_›; (try simp at hk); simp [hk])
@[simp] theorem doSpReply_kept (tile0 : ℕ) (dst1 : ℕ) (s : State) : (doSpReply tile0 dst1 s).kept = s.kept := by
  simp [doSpReply]
@[simp] theorem agentRegRead_kept (tile0 : ℕ) (src1 : ℕ) (reg2 : ℕ) (s : State) : (agentRegRead tile0 src1 reg2 s).kept = s.kept := by
  (unfold agentRegRead; (repeat' split) <;> simp [*])
@[simp] theorem doRegRead_kept (tile0 : ℕ) (src1 : ℕ) (reg2 : ℕ) (s : State) : (doRegRead tile0 src1 reg2 s).kept = s.kept := by
  simp [doRegRead]
@[simp] theorem agentRegWrite_kept (tile0 : ℕ) (src1 : ℕ) (reg2 : ℕ) (v3 : BitVec 64) (s : State) : (agentRegWrite tile0 src1 reg2 v3 s).kept = s.kept := by
  (unfold agentRegWrite; (repeat' split) <;> simp [*])
@[simp] theorem doRegWrite_kept (tile0 : ℕ) (src1 : ℕ) (reg2 : ℕ) (v3 : BitVec 64) (s : State) : (doRegWrite tile0 src1 reg2 v3 s).kept = s.kept := by
  simp [doRegWrite]
@[simp] theorem doRegReply_kept (tile0 : ℕ) (dst1 : ℕ) (s : State) : (doRegReply tile0 dst1 s).kept = s.kept := by
  simp [doRegReply]
@[simp] theorem State.dropAt_kept (s : State) (hub1 : ℕ) : (State.dropAt s hub1).kept = s.kept := by
  (unfold State.dropAt; (repeat' split) <;> simp [*])
@[simp] theorem doShortMsg_kept (tile0 : ℕ) (seq1 : ℕ) (words2 : List ℕ) (s : State) : (doShortMsg tile0 seq1 words2 s).kept = s.kept := by
  (unfold doShortMsg; (try dsimp only); (repeat' split) <;> simp [*])

/-! Machine/FaultCmd.lean -/

@[simp] theorem State.markSuspect_kept (s : State) (t1 : ℕ) : (State.markSuspect s t1).kept = s.kept := by
  unfold State.markSuspect; (try dsimp only); (repeat' split) <;> simp [*]
@[simp] theorem State.loseSite_kept (s : State) (t1 : ℕ) (cls2 : ℕ) (idx3 : ℕ) : (State.loseSite s t1 cls2 idx3).kept = s.kept := by
  unfold State.loseSite; (try dsimp only); (repeat' split) <;> simp [*]
@[simp] theorem doRepetition_kept (idx0 : ℕ) (r1 : Repeat) (s : State) : (doRepetition idx0 r1 s).kept = s.kept := by
  unfold doRepetition; (try dsimp only); (repeat' split) <;> simp [*]
@[simp] theorem State.abortReps_kept (s : State) (r1 : ℕ) : (State.abortReps s r1).kept = s.kept := by
  (unfold State.abortReps; (repeat' split) <;> simp [*])
@[simp] theorem State.takeOver_kept (s : State) (r1 : ℕ) : (State.takeOver s r1).kept = s.kept := by
  simp [State.takeOver]
@[simp] theorem State.loseTransit_kept (s : State) (r1 : ℕ) : (State.loseTransit s r1).kept = s.kept := by
  simp [State.loseTransit]
@[simp] theorem State.rcFails_kept (s : State) (cls1 : ℕ) (r2 : ℕ) (resetOk3 : Bool) : (State.rcFails s cls1 r2 resetOk3).kept = s.kept := by
  simp [State.rcFails]
@[simp] theorem doRcFault_kept (region0 : ℕ) (resetOk1 : Bool) (s : State) : (doRcFault region0 resetOk1 s).kept = s.kept := by
  simp [doRcFault]
@[simp] theorem doRcSilent_kept (region0 : ℕ) (resetOk1 : Bool) (s : State) : (doRcSilent region0 resetOk1 s).kept = s.kept := by
  simp [doRcSilent]
@[simp] theorem doTransitSupplyLoss_kept (region0 : ℕ) (s : State) : (doTransitSupplyLoss region0 s).kept = s.kept := by
  simp [doTransitSupplyLoss]

/-! Machine/HostCmd.lean -/

@[simp] theorem State.headLine_kept (s : State) (c1 : ℕ) (cprod2 : ℕ) (qcons3 : ℕ) (readable4 : Bool) : (State.headLine s c1 cprod2 qcons3 readable4).kept = s.kept := by
  simp [State.headLine]
@[simp] theorem State.startRing_kept (s : State) (c1 : ℕ) (d2 : Words8) (cprod3 : ℕ) (qcons4 : ℕ) (readable5 : Bool) : (State.startRing s c1 d2 cprod3 qcons4 readable5).kept = s.kept := by
  simp [State.startRing]
@[simp] theorem State.startFromMem_kept (s : State) (c1 : ℕ) (d2 : Words8) : (State.startFromMem s c1 d2).kept = s.kept := by
  simp [State.startFromMem]
@[simp] theorem State.srStart_kept (s : State) (cprod1 : ℕ) (qcons2 : ℕ) (readable3 : Bool) : (State.srStart s cprod1 qcons2 readable3).kept = s.kept := by
  simp [State.srStart]
@[simp] theorem doSystemRingStart_kept (cprod0 : ℕ) (qcons1 : ℕ) (readable2 : Bool) (s : State) : (doSystemRingStart cprod0 qcons1 readable2 s).kept = s.kept := by
  simp [doSystemRingStart]
@[simp] theorem doSystemRingStop_kept (s : State) : (doSystemRingStop s).kept = s.kept := by
  simp [doSystemRingStop]
@[simp] theorem doSystemRingStopDone_kept (s : State) : (doSystemRingStopDone s).kept = s.kept := by
  unfold doSystemRingStopDone; (try dsimp only); (repeat' split) <;> simp [*]
@[simp] theorem doRegisterWrite_kept (off0 : ℕ) (len1 : ℕ) (value2 : ℕ) (s : State) : (doRegisterWrite off0 len1 value2 s).kept = s.kept := by
  simp [doRegisterWrite]
@[simp] theorem State.reread_kept (s : State) (ctx1 : ℕ) (cprod2 : ℕ) (qcons3 : ℕ) (readable4 : Bool) (undef5 : List (ℕ × Hdr)) : (State.reread s ctx1 cprod2 qcons3 readable4 undef5).kept = s.kept := by
  simp [State.reread]
@[simp] theorem doHeadLineSnoop_kept (ctx0 : ℕ) (cyc1 : ℕ) (cprod2 : ℕ) (qcons3 : ℕ) (readable4 : Bool) (undef5 : List (ℕ × Hdr)) (s : State) : (doHeadLineSnoop ctx0 cyc1 cprod2 qcons3 readable4 undef5 s).kept = s.kept := by
  unfold doHeadLineSnoop; (try dsimp only); (repeat' split) <;> simp [*]
@[simp] theorem doHeadLineReread_kept (ctx0 : ℕ) (cyc1 : ℕ) (cprod2 : ℕ) (qcons3 : ℕ) (readable4 : Bool) (undef5 : List (ℕ × Hdr)) (s : State) : (doHeadLineReread ctx0 cyc1 cprod2 qcons3 readable4 undef5 s).kept = s.kept := by
  simp [doHeadLineReread]
@[simp] theorem doFarPageRequestRepost_kept (ctx0 : ℕ) (ext1 : ℕ) (page2 : ℕ) (s : State) : (doFarPageRequestRepost ctx0 ext1 page2 s).kept = s.kept := by
  simp [doFarPageRequestRepost]
@[simp] theorem doMsixUnmask_kept (vec0 : ℕ) (s : State) : (doMsixUnmask vec0 s).kept = s.kept := by
  rfl
@[simp] theorem doHdmDecoderCommit_kept (ways0 : ℕ) (s : State) : (doHdmDecoderCommit ways0 s).kept = s.kept := by
  simp [doHdmDecoderCommit]
@[simp] theorem State.windowFault_kept (s : State) (ext1 : ℕ) (e2 : ExtEnt) (off3 : ℕ) (addr4 : ℕ) : (State.windowFault s ext1 e2 off3 addr4).kept = s.kept := by
  simp [State.windowFault]
@[simp] theorem State.memErr_kept (s : State) : (State.memErr s).kept = s.kept := by
  rfl
@[simp] theorem State.unmapped_kept (s : State) : (State.unmapped s).kept = s.kept := by
  rfl
@[simp] theorem State.windowWord_kept (s : State) (ext1 : ℕ) (e2 : ExtEnt) (off3 : ℕ) (addr4 : ℕ) : (State.windowWord s ext1 e2 off3 addr4).1.kept = s.kept := by
  unfold State.windowWord; (try dsimp only); (repeat' split) <;> first | (simp [*]; done) | (have hk := kept_fst ‹_›; simp at hk; simp [hk]) | (have hk := State.take_kept ‹_›; (try simp at hk); simp [hk])
@[simp] theorem doWindowRead_kept (addr0 : ℕ) (s : State) : (doWindowRead addr0 s).kept = s.kept := by
  unfold doWindowRead; (try dsimp only); (repeat' split) <;> simp [*]
@[simp] theorem State.windowMerge_kept (s : State) (ext1 : ℕ) (e2 : ExtEnt) (off3 : ℕ) (addr4 : ℕ) (enable5 : ℕ) (data6 : List Byte) : (State.windowMerge s ext1 e2 off3 addr4 enable5 data6).1.kept = s.kept := by
  unfold State.windowMerge; (try dsimp only); (repeat' split) <;> first | (simp [*]; done) | (have hk := kept_fst ‹_›; simp at hk; simp [hk]) | (have hk := State.take_kept ‹_›; (try simp at hk); simp [hk])
@[simp] theorem doWindowWrite_kept (addr0 : ℕ) (enable1 : ℕ) (data2 : List Byte) (s : State) : (doWindowWrite addr0 enable1 data2 s).kept = s.kept := by
  unfold doWindowWrite; (try dsimp only); (repeat' split) <;> simp [*]
@[simp] theorem doHostLinkReset_kept (s : State) : (doHostLinkReset s).kept = s.kept := by
  rfl

/-! Machine/StepCmd.lean -/

@[simp] theorem doStepStart_kept (h0 : Hdr) (step1 : ℕ) (seed2 : ℕ) (tokens3 : ℕ) (lr4 : ℕ) (handle5 : ℕ) (s : State) : (doStepStart h0 step1 seed2 tokens3 lr4 handle5 s).kept = s.kept := by
  unfold doStepStart; refine packet_kept _ _ _ _ _ _ (fun t ht => ?_); (try dsimp only); repeat' (first | (simp [*]; done) | (refine okFor_check6 _ _ _ _ _ (by simp [*]) ?_) | (refine okFor_writeOut _ _ _ _ _ _ (by simp [*])) | (refine okFor_withRef _ _ _ _ _ _ (by simp [*]) ?_) | (refine okFor_acceptNow _ _ _ _ (by simp [*]) (fun _ _ => ?_); (try dsimp only)) | (refine okFor_withInput _ _ _ _ _ _ (by simp [*]) (fun _ _ _ => ?_); (try dsimp only)) | (refine ⟨by simp [*], fun _ _ _ => ?_⟩; (try dsimp only)) | (simp [*]; done) | (have hk := kept_fst ‹_›; simp at hk; simp [hk, *]; done) | split)
@[simp] theorem State.orderNow_kept (s : State) (c1 : ℕ) (steps2 : List ℕ) : (State.orderNow s c1 steps2).kept = s.kept := by
  simp [State.orderNow]
@[simp] theorem State.beginStep_kept (s : State) (c1 : ℕ) (r2 : Run) (p3 : PlanSet) : (State.beginStep s c1 r2 p3).kept = s.kept := by
  simp [State.beginStep]
@[simp] theorem doStepBegin_kept (ctx0 : ℕ) (s : State) : (doStepBegin ctx0 s).kept = s.kept := by
  unfold doStepBegin; (try dsimp only); (repeat' split) <;> simp [*]
@[simp] theorem State.completed_kept (s : State) (ctx1 : ℕ) (r2 : Run) : (State.completed s ctx1 r2).kept = s.kept := by
  (unfold State.completed; (repeat' split) <;> simp [*])
@[simp] theorem completed_kept (s : State) (c : ℕ) (r : Run) : (s.completed c r).kept = s.kept := by
  unfold State.completed; (try dsimp only); simp [*]
@[simp] theorem doStepComplete_kept (ctx0 : ℕ) (s : State) : (doStepComplete ctx0 s).kept = s.kept := by
  unfold doStepComplete; (try dsimp only); (repeat' split) <;> first | rfl | simp [*]
@[simp] theorem doEvalStart_kept (h0 : Hdr) (handle1 : ℕ) (tokens2 : ℕ) (seed3 : ℕ) (s : State) : (doEvalStart h0 handle1 tokens2 seed3 s).kept = s.kept := by
  unfold doEvalStart; refine packet_kept _ _ _ _ _ _ (fun t ht => ?_); (try dsimp only); repeat' (first | (simp [*]; done) | (refine okFor_check6 _ _ _ _ _ (by simp [*]) ?_) | (refine okFor_writeOut _ _ _ _ _ _ (by simp [*])) | (refine okFor_withRef _ _ _ _ _ _ (by simp [*]) ?_) | (refine okFor_acceptNow _ _ _ _ (by simp [*]) (fun _ _ => ?_); (try dsimp only)) | (refine okFor_withInput _ _ _ _ _ _ (by simp [*]) (fun _ _ _ => ?_); (try dsimp only)) | (refine ⟨by simp [*], fun _ _ _ => ?_⟩; (try dsimp only)) | (simp [*]; done) | (have hk := kept_fst ‹_›; simp at hk; simp [hk, *]; done) | split)
@[simp] theorem doStepStatus_kept (h0 : Hdr) (s : State) : (doStepStatus h0 s).kept = s.kept := by
  unfold doStepStatus; refine packet_kept _ _ _ _ _ _ (fun t ht => ?_); (try dsimp only); repeat' (first | (simp [*]; done) | (refine okFor_check6 _ _ _ _ _ (by simp [*]) ?_) | (refine okFor_writeOut _ _ _ _ _ _ (by simp [*])) | (refine okFor_withRef _ _ _ _ _ _ (by simp [*]) ?_) | (refine okFor_acceptNow _ _ _ _ (by simp [*]) (fun _ _ => ?_); (try dsimp only)) | (refine okFor_withInput _ _ _ _ _ _ (by simp [*]) (fun _ _ _ => ?_); (try dsimp only)) | (refine ⟨by simp [*], fun _ _ _ => ?_⟩; (try dsimp only)) | (simp [*]; done) | (have hk := kept_fst ‹_›; simp at hk; simp [hk, *]; done) | split)

/-! Machine/MatrixCmd.lean -/

@[simp] theorem State.traceIssue_kept (s : State) (h1 : IHdr) (ti2 : TI) (was3 : SState) (done4 : Bool) : (State.traceIssue s h1 ti2 was3 done4).kept = s.kept := by
  simp [State.traceIssue]
@[simp] theorem State.issued_kept (s : State) (h1 : IHdr) (ti2 : TI) (was3 : SState) (x4 : Tile × Option TFault × Bool) : (State.issued s h1 ti2 was3 x4).kept = s.kept := by
  (unfold State.issued; (repeat' split) <;> simp [*])
@[simp] theorem tileStep_kept (h0 : IHdr) (ti1 : TI) (s : State) : (tileStep h0 ti1 s).kept = s.kept := by
  unfold tileStep; (try dsimp only); (repeat' split) <;> simp [*]
@[simp] theorem doMcf_kept (h0 : IHdr) (gang1 : ℕ) (sati2 : Bool) (s : State) : (doMcf h0 gang1 sati2 s).kept = s.kept := by
  simp [doMcf]
@[simp] theorem doMld_kept (h0 : IHdr) (f1 : MldF) (s : State) : (doMld h0 f1 s).kept = s.kept := by
  simp [doMld]
@[simp] theorem doMsw_kept (h0 : IHdr) (s : State) : (doMsw h0 s).kept = s.kept := by
  simp [doMsw]
@[simp] theorem doMst_kept (h0 : IHdr) (f1 : MstF) (u2 : Option Upset) (s : State) : (doMst h0 f1 u2 s).kept = s.kept := by
  simp [doMst]
@[simp] theorem doMdr_kept (h0 : IHdr) (f1 : MdrF) (s : State) : (doMdr h0 f1 s).kept = s.kept := by
  simp [doMdr]
@[simp] theorem doCvl_kept (h0 : IHdr) (setting1 : ℕ) (pb2 : Bool) (ag3 : ℕ) (word4 : BitVec 64) (s : State) : (doCvl h0 setting1 pb2 ag3 word4 s).kept = s.kept := by
  simp [doCvl]

/-! Machine/TileEvent.lean -/

@[simp] theorem doPageSwap_kept (tile0 : ℕ) (s : State) : (doPageSwap tile0 s).kept = s.kept := by
  unfold doPageSwap; (try dsimp only); (repeat' split) <;> simp [*]
@[simp] theorem doSwapTimeout_kept (tile0 : ℕ) (cyc1 : ℕ) (s : State) : (doSwapTimeout tile0 cyc1 s).kept = s.kept := by
  unfold doSwapTimeout; (try dsimp only); (repeat' split) <;> simp [*]
@[simp] theorem doCrossWait_kept (tile0 : ℕ) (s : State) : (doCrossWait tile0 s).kept = s.kept := by
  simp [doCrossWait]
@[simp] theorem doStreamStall_kept (tile0 : ℕ) (exe1 : Bool) (cyc2 : ℕ) (s : State) : (doStreamStall tile0 exe1 cyc2 s).kept = s.kept := by
  unfold doStreamStall; (try dsimp only); (repeat' split) <;> simp [*]
@[simp] theorem doPlanStart_kept (tile0 : ℕ) (s : State) : (doPlanStart tile0 s).kept = s.kept := by
  unfold doPlanStart; (try dsimp only); (repeat' split) <;> first | (simp [*]; done) | (have hk := kept_fst ‹_›; simp at hk; simp [hk]) | (have hk := State.take_kept ‹_›; (try simp at hk); simp [hk])
@[simp] theorem State.reportEnd_kept (s : State) (tile1 : ℕ) : (State.reportEnd s tile1).kept = s.kept := by
  (unfold State.reportEnd; (repeat' split) <;> simp [*])
@[simp] theorem doPlanEnd_kept (tile0 : ℕ) (cyc1 : ℕ) (s : State) : (doPlanEnd tile0 cyc1 s).kept = s.kept := by
  unfold doPlanEnd; (try dsimp only); (repeat' split) <;> simp [*]
@[simp] theorem doSpPatrol_kept (tile0 : ℕ) (s : State) : (doSpPatrol tile0 s).kept = s.kept := by
  unfold doSpPatrol; (try dsimp only); (repeat' split) <;> simp [*]
@[simp] theorem doSpCorrectionWriteback_kept (tile0 : ℕ) (bank1 : ℕ) (s : State) : (doSpCorrectionWriteback tile0 bank1 s).kept = s.kept := by
  unfold doSpCorrectionWriteback; split <;> rfl

/-! Machine/Boundary.lean -/

@[simp] theorem State.gateTiles_kept (s : State) : (State.gateTiles s).kept = s.kept := by
  (unfold State.gateTiles; (repeat' split) <;> simp [*])
@[simp] theorem State.landAll_kept (s : State) : (State.landAll s).kept = s.kept := by
  (unfold State.landAll; (repeat' split) <;> simp [*])
@[simp] theorem State.endBeat_kept (s : State) : (State.endBeat s).kept = s.kept := by
  rfl
@[simp] theorem State.loseRoutes_kept (s : State) : (State.loseRoutes s).kept = s.kept := by
  (unfold State.loseRoutes; (repeat' split) <;> simp [*])
@[simp] theorem State.tickRegions_kept (s : State) (old1 : ℕ) : (State.tickRegions s old1).kept = s.kept := by
  unfold State.tickRegions
  simp only []
  rw [kept_foldl _ (fun _ _ => by simp)]
  exact kept_foldl _ (fun _ _ => by simp) _ _
@[simp] theorem State.fenceCtx_kept (s : State) (c1 : ℕ) (id2 : ℕ) : (State.fenceCtx s c1 id2).kept = s.kept := by
  simp [State.fenceCtx]
@[simp] theorem State.tickCtx_kept (s : State) (c1 : ℕ) : (State.tickCtx s c1).kept = s.kept := by
  (unfold State.tickCtx; (try dsimp only); (repeat' split) <;> simp [*])
@[simp] theorem State.tickPart_kept (s : State) (c1 : ℕ) : (State.tickPart s c1).kept = s.kept := by
  (unfold State.tickPart; (try dsimp only); (repeat' split) <;> simp [*])
@[simp] theorem State.resetFaulted_kept (s : State) (c1 : ℕ) : (State.resetFaulted s c1).kept = s.kept := by
  simp [State.resetFaulted]
@[simp] theorem State.refillMoved_kept (s : State) (c1 : ℕ) : (State.refillMoved s c1).kept = s.kept := by
  rfl
@[simp] theorem State.recover_kept (s : State) (c1 : ℕ) : (State.recover s c1).kept = s.kept := by
  (unfold State.recover; (try dsimp only); (repeat' split) <;> simp [*])
@[simp] theorem State.tickGov_kept (s : State) : (State.tickGov s).kept = s.kept := by
  simp [State.tickGov]
@[simp] theorem State.tickPod_kept (s : State) : (State.tickPod s).kept = s.kept := by
  (unfold State.tickPod; (try dsimp only); (repeat' split) <;> simp [*])
@[simp] theorem State.fillsOver_kept (s : State) : (State.fillsOver s).kept = s.kept := by
  (unfold State.fillsOver; (repeat' split) <;> simp [*])

/-! Machine/CtxCmd.lean -/

@[simp] theorem doCtxOpen_kept (h0 : Hdr) (d1 : Words8) (s : State) : (doCtxOpen h0 d1 s).kept = s.kept := by
  unfold doCtxOpen; refine packet_kept _ _ _ _ _ _ (fun t ht => ?_); (try dsimp only); repeat' (first | (simp [*]; done) | (refine okFor_check6 _ _ _ _ _ (by simp [*]) ?_) | (refine okFor_writeOut _ _ _ _ _ _ (by simp [*])) | (refine okFor_withRef _ _ _ _ _ _ (by simp [*]) ?_) | (refine okFor_acceptNow _ _ _ _ (by simp [*]) (fun _ _ => ?_); (try dsimp only)) | (refine okFor_withInput _ _ _ _ _ _ (by simp [*]) (fun _ _ _ => ?_); (try dsimp only)) | (refine ⟨by simp [*], fun _ _ _ => ?_⟩; (try dsimp only)) | (simp [*]; done) | (have hk := kept_fst ‹_›; simp at hk; simp [hk, *]; done) | split)
@[simp] theorem doCtxClose_kept (h0 : Hdr) (s : State) : (doCtxClose h0 s).kept = s.kept := by
  unfold doCtxClose; refine packet_kept _ _ _ _ _ _ (fun t ht => ?_); (try dsimp only); repeat' (first | (simp [*]; done) | (refine okFor_check6 _ _ _ _ _ (by simp [*]) ?_) | (refine okFor_writeOut _ _ _ _ _ _ (by simp [*])) | (refine okFor_withRef _ _ _ _ _ _ (by simp [*]) ?_) | (refine okFor_acceptNow _ _ _ _ (by simp [*]) (fun _ _ => ?_); (try dsimp only)) | (refine okFor_withInput _ _ _ _ _ _ (by simp [*]) (fun _ _ _ => ?_); (try dsimp only)) | (refine ⟨by simp [*], fun _ _ _ => ?_⟩; (try dsimp only)) | (simp [*]; done) | (have hk := kept_fst ‹_›; simp at hk; simp [hk, *]; done) | split)
@[simp] theorem doCtxFence_kept (h0 : Hdr) (gen1 : ℕ) (b2 : SigBlk) (s : State) : (doCtxFence h0 gen1 b2 s).kept = s.kept := by
  unfold doCtxFence; refine packet_kept _ _ _ _ _ _ (fun t ht => ?_); (try dsimp only); repeat' (first | (simp [*]; done) | (refine okFor_check6 _ _ _ _ _ (by simp [*]) ?_) | (refine okFor_writeOut _ _ _ _ _ _ (by simp [*])) | (refine okFor_withRef _ _ _ _ _ _ (by simp [*]) ?_) | (refine okFor_acceptNow _ _ _ _ (by simp [*]) (fun _ _ => ?_); (try dsimp only)) | (refine okFor_withInput _ _ _ _ _ _ (by simp [*]) (fun _ _ _ => ?_); (try dsimp only)) | (refine ⟨by simp [*], fun _ _ _ => ?_⟩; (try dsimp only)) | (simp [*]; done) | (have hk := kept_fst ‹_›; simp at hk; simp [hk, *]; done) | split)
@[simp] theorem doCtxRead_kept (h0 : Hdr) (first1 : ℕ) (count2 : ℕ) (x3 : DRef) (s : State) : (doCtxRead h0 first1 count2 x3 s).kept = s.kept := by
  unfold doCtxRead; refine packet_kept _ _ _ _ _ _ (fun t ht => ?_); (try dsimp only); repeat' (first | (simp [*]; done) | (refine okFor_check6 _ _ _ _ _ (by simp [*]) ?_) | (refine okFor_writeOut _ _ _ _ _ _ (by simp [*])) | (refine okFor_withRef _ _ _ _ _ _ (by simp [*]) ?_) | (refine okFor_acceptNow _ _ _ _ (by simp [*]) (fun _ _ => ?_); (try dsimp only)) | (refine okFor_withInput _ _ _ _ _ _ (by simp [*]) (fun _ _ _ => ?_); (try dsimp only)) | (refine ⟨by simp [*], fun _ _ _ => ?_⟩; (try dsimp only)) | (simp [*]; done) | (have hk := kept_fst ‹_›; simp at hk; simp [hk, *]; done) | split)
@[simp] theorem State.hideExtents_kept (s : State) (c1 : ℕ) : (State.hideExtents s c1).kept = s.kept := by
  simp [State.hideExtents]
@[simp] theorem State.applyGrant_kept (s : State) (c1 : ℕ) (n02 : BitVec 64) (n13 : BitVec 64) (n24 : BitVec 64) (n35 : BitVec 64) : (State.applyGrant s c1 n02 n13 n24 n35).kept = s.kept := by
  simp [State.applyGrant]
@[simp] theorem doProtChange_kept (h0 : Hdr) (ctx1 : ℕ) (gen2 : ℕ) (n03 : BitVec 64) (n14 : BitVec 64) (n25 : BitVec 64) (n36 : BitVec 64) (blks7 : List SigBlk) (s : State) : (doProtChange h0 ctx1 gen2 n03 n14 n25 n36 blks7 s).kept = s.kept := by
  unfold doProtChange; refine packet_kept _ _ _ _ _ _ (fun t ht => ?_); (try dsimp only); repeat' (first | (simp [*]; done) | (refine okFor_check6 _ _ _ _ _ (by simp [*]) ?_) | (refine okFor_writeOut _ _ _ _ _ _ (by simp [*])) | (refine okFor_withRef _ _ _ _ _ _ (by simp [*]) ?_) | (refine okFor_acceptNow _ _ _ _ (by simp [*]) (fun _ _ => ?_); (try dsimp only)) | (refine okFor_withInput _ _ _ _ _ _ (by simp [*]) (fun _ _ _ => ?_); (try dsimp only)) | (refine ⟨by simp [*], fun _ _ _ => ?_⟩; (try dsimp only)) | (simp [*]; done) | (have hk := kept_fst ‹_›; simp at hk; simp [hk, *]; done) | split)

/-! Machine/Fabric.lean -/

@[simp] theorem doCapsule_kept (f0 : FHdr) (transfer1 : ℕ) (off2 : ℕ) (total3 : ℕ) (data4 : List Byte) (s : State) : (doCapsule f0 transfer1 off2 total3 data4 s).kept = s.kept := by
  unfold doCapsule; refine State.fabricIn_kept _ _ _ _ _ (fun t ht => ?_); simp [ht]
@[simp] theorem doCapsuleAck_kept (f0 : FHdr) (transfer1 : ℕ) (units2 : ℕ) (status3 : ℕ) (s : State) : (doCapsuleAck f0 transfer1 units2 status3 s).kept = s.kept := by
  unfold doCapsuleAck; refine State.fabricIn_kept _ _ _ _ _ (fun t ht => ?_); simp [ht]
@[simp] theorem State.hearPeer_kept (s : State) (pod1 : ℕ) (pos2 : ℕ) : (State.hearPeer s pod1 pos2).kept = s.kept := by
  unfold State.hearPeer; split <;> rfl
@[simp] theorem doLink_kept (n0 : ℕ) (ack1 : ℕ) (nak2 : Bool) (credits3 : List ℕ) (bad4 : Bool) (s : State) : (doLink n0 ack1 nak2 credits3 bad4 s).kept = s.kept := by
  simp [doLink]
@[simp] theorem doLinkAckSend_kept (n0 : ℕ) (s : State) : (doLinkAckSend n0 s).kept = s.kept := by
  simp [doLinkAckSend]
@[simp] theorem doLinkRetrainInService_kept (n0 : ℕ) (fecWindow1 : ℕ) (s : State) : (doLinkRetrainInService n0 fecWindow1 s).kept = s.kept := by
  simp [doLinkRetrainInService]
@[simp] theorem doLinkRetrainComplete_kept (n0 : ℕ) (t1 : Trained) (s : State) : (doLinkRetrainComplete n0 t1 s).kept = s.kept := by
  simp [doLinkRetrainComplete]
@[simp] theorem doLinkNarrowingComplete_kept (n0 : ℕ) (s : State) : (doLinkNarrowingComplete n0 s).kept = s.kept := by
  unfold doLinkNarrowingComplete; (try dsimp only); (repeat' split) <;> simp [*]
@[simp] theorem doFabricCreditStall_kept (n0 : ℕ) (vc1 : ℕ) (s : State) : (doFabricCreditStall n0 vc1 s).kept = s.kept := by
  simp [doFabricCreditStall]
@[simp] theorem doHello_kept (n0 : ℕ) (pod1 : ℕ) (pos2 : ℕ) (plink3 : ℕ) (pidh4 : ℕ) (s : State) : (doHello n0 pod1 pos2 plink3 pidh4 s).kept = s.kept := by
  (unfold doHello; dsimp only; (repeat' split) <;> simp)
@[simp] theorem doStepStartMessage_kept (f0 : FHdr) (step1 : ℕ) (attempt2 : ℕ) (scale3 : ℕ) (freeze4 : ℕ) (s : State) : (doStepStartMessage f0 step1 attempt2 scale3 freeze4 s).kept = s.kept := by
  unfold doStepStartMessage; refine State.fabricIn_kept _ _ _ _ _ (fun t ht => ?_); simp [ht]
@[simp] theorem doStepSyncTimeout_kept (ctx0 : ℕ) (s : State) : (doStepSyncTimeout ctx0 s).kept = s.kept := by
  unfold doStepSyncTimeout; (try dsimp only); (repeat' split) <;> simp [*]
@[simp] theorem doNorm_kept (f0 : FHdr) (step1 : ℕ) (v2 : BitVec 64) (s : State) : (doNorm f0 step1 v2 s).kept = s.kept := by
  unfold doNorm; refine State.fabricIn_kept _ _ _ _ _ (fun t ht => ?_); simp [ht]

/-! Machine/Governor.lean -/

@[simp] theorem State.governLinks_kept (s : State) (p1 : ℕ) (a2 : ℕ) : (State.governLinks s p1 a2).kept = s.kept := by
  unfold State.governLinks
  simp only []
  refine kept_foldl _ (fun _ _ => ?_) _ _
  (repeat' split) <;> simp
@[simp] theorem State.inputsRead_kept (ins : List (ℕ × ℕ)) (s : State) : (s.inputsRead ins).kept = s.kept := rfl
@[simp] theorem State.beatGoverned_kept (s : State) : s.beatGoverned.kept = s.kept := by simp [State.beatGoverned]
@[simp] theorem State.lengthened_kept (s u : State) : (s.lengthened u).kept = u.kept := by
  unfold State.lengthened
  exact State.orderStretch_kept u _ _
@[simp] theorem State.capUnmet_kept (s : State) : s.capUnmet.kept = s.kept := by simp [State.capUnmet]
@[simp] theorem doGovernorBeat_kept (ins0 : List (ℕ × ℕ)) (cyc1 : ℕ) (s : State) : (doGovernorBeat ins0 cyc1 s).kept = s.kept := by
  (unfold doGovernorBeat; (try dsimp only); (repeat' split) <;> simp [*])
@[simp] theorem doInputOverpower_kept (s : State) : (doInputOverpower s).kept = s.kept := by
  simp [doInputOverpower]
@[simp] theorem State.closeRegion_kept (s : State) (r1 : ℕ) : (State.closeRegion s r1).kept = s.kept := by
  simp [State.closeRegion]
@[simp] theorem State.telemeter_kept (s : State) (w : ℕ) : (s.telemeter w).kept = s.kept := by simp [State.telemeter]
@[simp] theorem State.windowShut_kept (s : State) (on : List ℕ) (w : ℕ) : (s.windowShut on w).kept = s.kept := by simp [State.windowShut]
@[simp] theorem State.shortened_kept (s : State) (on : List ℕ) (k : ℕ) : (s.shortened on k).kept = s.kept := by simp [State.shortened]
@[simp] theorem doAggregationWindowEnd_kept (s : State) : (doAggregationWindowEnd s).kept = s.kept := by
  (unfold doAggregationWindowEnd; (try dsimp only); (repeat' split) <;> simp [*])
@[simp] theorem doHeadroom_kept (f0 : FHdr) (share1 : ℕ) (power2 : ℕ) (offer3 : ℤ) (s : State) : (doHeadroom f0 share1 power2 offer3 s).kept = s.kept := by
  (unfold doHeadroom; refine State.fabricIn_kept _ _ _ _ _ (fun t ht => ?_); simp [ht])
@[simp] theorem State.tellPeers_kept (s : State) : s.tellPeers.kept = s.kept := by simp [State.tellPeers]
@[simp] theorem doHeadroomSend_kept (cyc0 : ℕ) (s : State) : (doHeadroomSend cyc0 s).kept = s.kept := by
  (unfold doHeadroomSend; (try dsimp only); (repeat' split) <;> simp [*])
@[simp] theorem doPodAllowanceHoldEnd_kept (s : State) : (doPodAllowanceHoldEnd s).kept = s.kept := by
  (unfold doPodAllowanceHoldEnd; (try dsimp only); (repeat' split) <;> simp [*])
@[simp] theorem doHeadroomTimeout_kept (pos0 : ℕ) (s : State) : (doHeadroomTimeout pos0 s).kept = s.kept := by
  simp [doHeadroomTimeout]

/-! Machine/Heat.lean -/

@[simp] theorem tripRegion_kept (r0 : ℕ) (s : State) : (tripRegion r0 s).kept = s.kept := by
  simp [tripRegion]
@[simp] theorem State.coolDown_kept (s : State) (r : ℕ) (t : ℤ) : (s.coolDown r t).kept = s.kept := by
  simp only [State.coolDown]; split <;> simp
@[simp] theorem doRegionSensorSample_kept (region0 : ℕ) (smp1 : Sample) (droops2 : List ℕ) (s : State) : (doRegionSensorSample region0 smp1 droops2 s).kept = s.kept := by
  simp [doRegionSensorSample]
@[simp] theorem doHeatHigh_kept (region0 : ℕ) (s : State) : (doHeatHigh region0 s).kept = s.kept := by
  simp [doHeatHigh]
@[simp] theorem doHeatOffRecovery_kept (region0 : ℕ) (s : State) : (doHeatOffRecovery region0 s).kept = s.kept := by
  simp [doHeatOffRecovery]
@[simp] theorem doStackSensorSample_kept (sc0 : ℕ) (temp1 : ℤ) (s : State) : (doStackSensorSample sc0 temp1 s).kept = s.kept := by
  simp [doStackSensorSample]
@[simp] theorem doCoolantSample_kept (inlet0 : ℤ) (outlet1 : ℤ) (flow2 : ℕ) (s : State) : (doCoolantSample inlet0 outlet1 flow2 s).kept = s.kept := by
  simp [doCoolantSample]

/-! Machine/Inputs.lean -/

@[simp] theorem State.onIn_kept (s : State) (i1 : ℕ) (f2 : PwrIn → PwrIn) : (State.onIn s i1 f2).kept = s.kept := by
  rfl
@[simp] theorem State.supplied_kept (s : State) : (State.supplied s).kept = s.kept := by
  simp [State.supplied]
@[simp] theorem doPxSenseBreak_kept (conn0 : ℕ) (s : State) : (doPxSenseBreak conn0 s).kept = s.kept := by
  simp [doPxSenseBreak]
@[simp] theorem doInputValid_kept (i0 : ℕ) (v1 : ℕ) (s : State) : (doInputValid i0 v1 s).kept = s.kept := by
  simp [doInputValid]
@[simp] theorem doInputOvervoltage_kept (i0 : ℕ) (v1 : ℕ) (s : State) : (doInputOvervoltage i0 v1 s).kept = s.kept := by
  simp [doInputOvervoltage]
@[simp] theorem doInputReclose_kept (i0 : ℕ) (v1 : ℕ) (s : State) : (doInputReclose i0 v1 s).kept = s.kept := by
  simp [doInputReclose]
@[simp] theorem doInputOvercurrent_kept (i0 : ℕ) (amps1 : ℕ) (held2 : ℕ) (s : State) : (doInputOvercurrent i0 amps1 held2 s).kept = s.kept := by
  simp [doInputOvercurrent]
@[simp] theorem doInputLost_kept (i0 : ℕ) (v1 : ℕ) (s : State) : (doInputLost i0 v1 s).kept = s.kept := by
  simp [doInputLost]
@[simp] theorem doAux12vChange_kept (present0 : Bool) (s : State) : (doAux12vChange present0 s).kept = s.kept := by
  simp [doAux12vChange]

/-! Machine/LeaseCmd.lean -/

@[simp] theorem State.answerLease_kept (s : State) (l1 : Lease) (status2 : ℕ) : (State.answerLease s l1 status2).kept = s.kept := by
  simp [State.answerLease]
@[simp] theorem doLeaseExpired_kept (l0 : Lease) (s : State) : (doLeaseExpired l0 s).kept = s.kept := by
  unfold doLeaseExpired; (try dsimp only); (repeat' split) <;> simp [*]
@[simp] theorem doLeaseGrant_kept (l0 : Lease) (reply1 : Bool) (s : State) : (doLeaseGrant l0 reply1 s).kept = s.kept := by
  unfold doLeaseGrant; (try dsimp only); (repeat' split) <;> first | (simp [*]; done) | (have hk := kept_fst ‹_›; simp at hk; simp [hk]) | (have hk := State.take_kept ‹_›; (try simp at hk); simp [hk])
@[simp] theorem doLeaseRenew_kept (l0 : Lease) (reply1 : Bool) (s : State) : (doLeaseRenew l0 reply1 s).kept = s.kept := by
  unfold doLeaseRenew; (try dsimp only); (repeat' split) <;> simp [*]
@[simp] theorem doLeaseRelease_kept (l0 : Lease) (s : State) : (doLeaseRelease l0 s).kept = s.kept := by
  rfl
@[simp] theorem doLeaseReclaim_kept (l0 : Lease) (s : State) : (doLeaseReclaim l0 s).kept = s.kept := by
  unfold doLeaseReclaim; (try dsimp only); (repeat' split) <;> simp [*]

/-! Machine/LogCmd.lean -/

@[simp] theorem doLogRead_kept (h0 : Hdr) (first1 : ℕ) (count2 : ℕ) (x3 : DRef) (s : State) : (doLogRead h0 first1 count2 x3 s).kept = s.kept := by
  unfold doLogRead; refine packet_kept _ _ _ _ _ _ (fun t ht => ?_); (try dsimp only); repeat' (first | (simp [*]; done) | (refine okFor_check6 _ _ _ _ _ (by simp [*]) ?_) | (refine okFor_writeOut _ _ _ _ _ _ (by simp [*])) | (refine okFor_withRef _ _ _ _ _ _ (by simp [*]) ?_) | (refine okFor_acceptNow _ _ _ _ (by simp [*]) (fun _ _ => ?_); (try dsimp only)) | (refine okFor_withInput _ _ _ _ _ _ (by simp [*]) (fun _ _ _ => ?_); (try dsimp only)) | (refine ⟨by simp [*], fun _ _ _ => ?_⟩; (try dsimp only)) | (simp [*]; done) | (have hk := kept_fst ‹_›; simp at hk; simp [hk, *]; done) | split)
@[simp] theorem doLogStatus_kept (h0 : Hdr) (s : State) : (doLogStatus h0 s).kept = s.kept := by
  unfold doLogStatus; refine packet_kept _ _ _ _ _ _ (fun t ht => ?_); (try dsimp only); repeat' (first | (simp [*]; done) | (refine okFor_check6 _ _ _ _ _ (by simp [*]) ?_) | (refine okFor_writeOut _ _ _ _ _ _ (by simp [*])) | (refine okFor_withRef _ _ _ _ _ _ (by simp [*]) ?_) | (refine okFor_acceptNow _ _ _ _ (by simp [*]) (fun _ _ => ?_); (try dsimp only)) | (refine okFor_withInput _ _ _ _ _ _ (by simp [*]) (fun _ _ _ => ?_); (try dsimp only)) | (refine ⟨by simp [*], fun _ _ _ => ?_⟩; (try dsimp only)) | (simp [*]; done) | (have hk := kept_fst ‹_›; simp at hk; simp [hk, *]; done) | split)
@[simp] theorem doTraceConfig_kept (h0 : Hdr) (unit1 : ℕ) (flags2 : ℕ) (start3 : ℕ) (stop4 : ℕ) (x5 : DRef) (s : State) : (doTraceConfig h0 unit1 flags2 start3 stop4 x5 s).kept = s.kept := by
  unfold doTraceConfig; refine packet_kept _ _ _ _ _ _ (fun t ht => ?_); (try dsimp only); repeat' (first | (simp [*]; done) | (refine okFor_check6 _ _ _ _ _ (by simp [*]) ?_) | (refine okFor_writeOut _ _ _ _ _ _ (by simp [*])) | (refine okFor_withRef _ _ _ _ _ _ (by simp [*]) ?_) | (refine okFor_acceptNow _ _ _ _ (by simp [*]) (fun _ _ => ?_); (try dsimp only)) | (refine okFor_withInput _ _ _ _ _ _ (by simp [*]) (fun _ _ _ => ?_); (try dsimp only)) | (refine ⟨by simp [*], fun _ _ _ => ?_⟩; (try dsimp only)) | (simp [*]; done) | (have hk := kept_fst ‹_›; simp at hk; simp [hk, *]; done) | split)
@[simp] theorem doTraceWindowEnd_kept (unit0 : ℕ) (s : State) : (doTraceWindowEnd unit0 s).kept = s.kept := by
  simp [doTraceWindowEnd]
@[simp] theorem doLogRateWindowEnd_kept (s : State) : (doLogRateWindowEnd s).kept = s.kept := by
  simp [doLogRateWindowEnd]
@[simp] theorem doPowerFailCapture_kept (s : State) : (doPowerFailCapture s).kept = s.kept := by
  simp [doPowerFailCapture]
theorem okFor_deferOr (k : Kept) (c j d) (s : State) (hs : s.kept = k) : (deferOr c j d s).okFor k := by
  unfold deferOr
  split
  · exact ⟨hs, fun _ t ht => by simpa using ht⟩
  · simpa using hs

/-! Machine/OptCmd.lean -/

@[simp] theorem doOptConfig_kept (h0 : Hdr) (flags1 : ℕ) (hr2 : ℕ) (sat3 : ℕ) (down4 : ℕ) (s : State) : (doOptConfig h0 flags1 hr2 sat3 down4 s).kept = s.kept := by
  unfold doOptConfig; refine packet_kept _ _ _ _ _ _ (fun t ht => ?_); (try dsimp only); repeat' (first | (simp [*]; done) | (refine okFor_check6 _ _ _ _ _ (by simp [*]) ?_) | (refine okFor_deferOr _ _ _ _ _ (by simp [*])) | (refine okFor_writeOut _ _ _ _ _ _ (by simp [*])) | (refine okFor_withRef _ _ _ _ _ _ (by simp [*]) ?_) | (refine okFor_acceptNow _ _ _ _ (by simp [*]) (fun _ _ => ?_); (try dsimp only)) | (refine okFor_withInput _ _ _ _ _ _ (by simp [*]) (fun _ _ _ => ?_); (try dsimp only)) | (refine ⟨by simp [*], fun _ _ _ => ?_⟩; (try dsimp only)) | (simp [*]; done) | (have hk := kept_fst ‹_›; simp at hk; simp [hk, *]; done) | split)
@[simp] theorem State.takeMap_kept (s : State) (c1 : ℕ) (id2 : ℕ) (m3 : List ℕ × List PEnt) : (State.takeMap s c1 id2 m3).kept = s.kept := by
  unfold State.takeMap; (try dsimp only); (repeat' split) <;> simp [*]
@[simp] theorem doOptParcelMap_kept (h0 : Hdr) (count1 : ℕ) (x2 : DRef) (s : State) : (doOptParcelMap h0 count1 x2 s).kept = s.kept := by
  (unfold doOptParcelMap; refine packet_kept _ _ _ _ _ _ (fun t ht => ?_); (try dsimp only); repeat' (first | (simp [*]; done) | (rw [State.readFor_kept _ _ _ _ _ _ (fun _ _ => State.takeMap_kept _ _ _ _)]; simp [*]; done) | (refine okFor_check6 _ _ _ _ _ (by simp [*]) ?_) | (refine okFor_writeOut _ _ _ _ _ _ (by simp [*])) | (refine okFor_withRef _ _ _ _ _ _ (by simp [*]) ?_) | (refine okFor_acceptNow _ _ _ _ (by simp [*]) (fun _ _ => ?_); (try dsimp only)) | (refine okFor_withInput _ _ _ _ _ _ (by simp [*]) (fun _ _ _ => ?_); (try dsimp only)) | (refine ⟨by simp [*], fun _ _ _ => ?_⟩; (try dsimp only)) | (simp [*]; done) | (rw [State.readFor_kept _ _ _ _ _ _ (fun _ _ => State.takeMap_kept _ _ _ _)]; simp [*]; done) | (have hk := kept_fst ‹_›; simp at hk; simp [hk, *]; done) | split))
@[simp] theorem State.takeScales_kept (s : State) (c1 : ℕ) (first2 : ℕ) (tables3 : ℕ) (v4 : List ℕ) : (State.takeScales s c1 first2 tables3 v4).1.kept = s.kept := by
  unfold State.takeScales; (try dsimp only); (repeat' split) <;> simp [*]
@[simp] theorem doOptScaleLoad_kept (h0 : Hdr) (first1 : ℕ) (tables2 : ℕ) (count3 : ℕ) (x4 : DRef) (s : State) : (doOptScaleLoad h0 first1 tables2 count3 x4 s).kept = s.kept := by
  (unfold doOptScaleLoad; refine packet_kept _ _ _ _ _ _ (fun t ht => ?_); (try dsimp only); repeat' (first | (simp [*]; done) | (rw [State.readThen_kept _ _ _ _ _ (fun _ _ => State.takeScales_kept _ _ _ _ _)]; simp [*]; done) | (refine okFor_check6 _ _ _ _ _ (by simp [*]) ?_) | (refine okFor_writeOut _ _ _ _ _ _ (by simp [*])) | (refine okFor_withRef _ _ _ _ _ _ (by simp [*]) ?_) | (refine okFor_acceptNow _ _ _ _ (by simp [*]) (fun _ _ => ?_); (try dsimp only)) | (refine okFor_withInput _ _ _ _ _ _ (by simp [*]) (fun _ _ _ => ?_); (try dsimp only)) | (refine ⟨by simp [*], fun _ _ _ => ?_⟩; (try dsimp only)) | (simp [*]; done) | (rw [State.readThen_kept _ _ _ _ _ (fun _ _ => State.takeScales_kept _ _ _ _ _)]; simp [*]; done) | (have hk := kept_fst ‹_›; simp at hk; simp [hk, *]; done) | split))
@[simp] theorem doOptGroup_kept (h0 : Hdr) (group1 : ℕ) (r2 : Words8) (s : State) : (doOptGroup h0 group1 r2 s).kept = s.kept := by
  unfold doOptGroup; refine packet_kept _ _ _ _ _ _ (fun t ht => ?_); (try dsimp only); repeat' (first | (simp [*]; done) | (refine okFor_check6 _ _ _ _ _ (by simp [*]) ?_) | (refine okFor_deferOr _ _ _ _ _ (by simp [*])) | (refine okFor_writeOut _ _ _ _ _ _ (by simp [*])) | (refine okFor_withRef _ _ _ _ _ _ (by simp [*]) ?_) | (refine okFor_acceptNow _ _ _ _ (by simp [*]) (fun _ _ => ?_); (try dsimp only)) | (refine okFor_withInput _ _ _ _ _ _ (by simp [*]) (fun _ _ _ => ?_); (try dsimp only)) | (refine ⟨by simp [*], fun _ _ _ => ?_⟩; (try dsimp only)) | (simp [*]; done) | (have hk := kept_fst ‹_›; simp at hk; simp [hk, *]; done) | split)
@[simp] theorem doOptFreeze_kept (h0 : Hdr) (count1 : ℕ) (x2 : DRef) (s : State) : (doOptFreeze h0 count1 x2 s).kept = s.kept := by
  unfold doOptFreeze
  refine packet_kept _ _ _ _ _ _ (fun t ht => ?_)
  exact okFor_withInput _ _ _ _ _ _ ht (fun u b hu => okFor_deferOr _ _ _ _ _ hu)
@[simp] theorem State.deriveBoth_kept (s : State) (c1 : ℕ) (p2 : ℕ) (seed3 : ℕ) (e4 : PEnt) (master5 : List Byte) : (State.deriveBoth s c1 p2 seed3 e4 master5).kept = s.kept := by
  simp [State.deriveBoth]
@[simp] theorem State.putParcel_kept (s : State) (c1 : ℕ) (p2 : ℕ) (step3 : ℕ) (e4 : PEnt) (state5 : List Byte) : (State.putParcel s c1 p2 step3 e4 state5).kept = s.kept := by
  simp [State.putParcel]
@[simp] theorem State.putParcels_kept (s : State) (c1 : ℕ) (moments2 : Bool) (ps3 : List (ℕ × PEnt)) (b4 : List Byte) : (State.putParcels s c1 moments2 ps3 b4).kept = s.kept := by
  simp [State.putParcels]
@[simp] theorem State.awaitMirrors_kept (s : State) (c1 : ℕ) (id2 : ℕ) (ps3 : List ℕ) : (State.awaitMirrors s c1 id2 ps3).kept = s.kept := by
  simp [State.awaitMirrors]
@[simp] theorem doOptStateInit_kept (h0 : Hdr) (first1 : ℕ) (flags2 : ℕ) (count3 : ℕ) (x4 : DRef) (s : State) : (doOptStateInit h0 first1 flags2 count3 x4 s).kept = s.kept := by
  (unfold doOptStateInit; refine packet_kept _ _ _ _ _ _ (fun t ht => ?_); (try dsimp only); repeat' (first | (simp [*]; done) | (rw [State.readFor_kept _ _ _ _ _ _ (fun _ _ => by simp)]; simp [*]; done) | (refine okFor_check6 _ _ _ _ _ (by simp [*]) ?_) | (refine okFor_writeOut _ _ _ _ _ _ (by simp [*])) | (refine okFor_withRef _ _ _ _ _ _ (by simp [*]) ?_) | (refine okFor_acceptNow _ _ _ _ (by simp [*]) (fun _ _ => ?_); (try dsimp only)) | (refine okFor_withInput _ _ _ _ _ _ (by simp [*]) (fun _ _ _ => ?_); (try dsimp only)) | (refine ⟨by simp [*], fun _ _ _ => ?_⟩; (try dsimp only)) | (simp [*]; done) | (rw [State.readFor_kept _ _ _ _ _ _ (fun _ _ => by simp)]; simp [*]; done) | (have hk := kept_fst ‹_›; simp at hk; simp [hk, *]; done) | split))
@[simp] theorem doOptNorms_kept (h0 : Hdr) (step1 : ℕ) (x2 : DRef) (s : State) : (doOptNorms h0 step1 x2 s).kept = s.kept := by
  (unfold doOptNorms; refine packet_kept _ _ _ _ _ _ (fun t ht => ?_); (try dsimp only); repeat' (first | (simp [*]; done) | (refine okFor_check6 _ _ _ _ _ (by simp [*]) ?_) | (refine okFor_writeOut _ _ _ _ _ _ (by simp [*])) | (refine okFor_withRef _ _ _ _ _ _ (by simp [*]) ?_) | (refine okFor_acceptNow _ _ _ _ (by simp [*]) (fun _ _ => ?_); (try dsimp only)) | (refine okFor_withInput _ _ _ _ _ _ (by simp [*]) (fun _ _ _ => ?_); (try dsimp only)) | (refine ⟨by simp [*], fun _ _ _ => ?_⟩; (try dsimp only)) | (simp [*]; done) | (have hk := kept_fst ‹_›; simp at hk; simp [hk, *]; done) | split))
@[simp] theorem auditParcel_kept (c : Nat) (p : Bool) (d : List (Nat × Nat × Nat)) (a : State × Nat) (q : Nat × PEnt) : (auditParcel c p d a q).1.kept = a.1.kept := by
  unfold auditParcel
  extract_lets s p e x g sc step
  refine (afterRead_kept1 _ _ _ (fun t r => by simp) (fun t b => ?_)).trans (by simp [s])
  refine (afterRead_kept1 _ _ _ (fun t r => by simp) (fun t b => ?_)).trans (by simp)
  dsimp only
  rw [kept_foldl _ (fun s m => by simp), kept_foldl _ (fun s m => by simp)]
@[simp] theorem doOptAudit_kept (h0 : Hdr) (first1 : ℕ) (flags2 : ℕ) (count3 : ℕ) (digests4 : List (ℕ × ℕ × ℕ)) (s : State) : (doOptAudit h0 first1 flags2 count3 digests4 s).kept = s.kept := by
  unfold doOptAudit
  refine packet_kept _ _ _ _ _ _ (fun t ht => ?_)
  extract_lets x
  refine okFor_check6 _ _ _ _ _ ht ?_
  split
  · simpa using ht
  · refine okFor_acceptNow _ _ _ _ ht (fun u hu => ?_)
    simp [hu]
@[simp] theorem doOptHostDone_kept (h0 : Hdr) (parcel1 : ℕ) (attempt2 : ℕ) (step3 : ℕ) (s : State) : (doOptHostDone h0 parcel1 attempt2 step3 s).kept = s.kept := by
  unfold doOptHostDone
  refine packet_kept _ _ _ _ _ _ (fun t ht => ?_)
  extract_lets c x
  split
  · simpa using ht
  · refine okFor_check6 _ _ _ _ _ ht ?_
    split
    · simpa using ht
    · exact afterRead_okFor _ _ _ _ (by simpa using ht) (fun t e h => by simp [h]) (fun t b h => by simp [h])
@[simp] theorem State.readStates_kept (s : State) (c1 : ℕ) (x2 : List (ℕ × PEnt)) : (State.readStates s c1 x2).1.kept = s.kept := by
  induction x2 generalizing s with
  | nil => rfl
  | cons q qs ih =>
    unfold State.readStates
    extract_lets x
    exact (afterRead_kept1 _ _ _ (fun t r => rfl) (fun t b => (afterRead_kept1 _ _ _ (fun t r => rfl) (fun t b => rfl)).trans (ih t))).trans (by simp)
@[simp] theorem State.capsule_kept (s : State) (c1 : ℕ) (first2 : ℕ) (count3 : ℕ) (recips4 : List (List Byte)) (bf5 : Bool) (payload6 : List Byte) : (State.capsule s c1 first2 count3 recips4 bf5 payload6).1.kept = s.kept := by
  rfl
@[simp] theorem State.sealCapsule_kept (s : State) (c1 : ℕ) (tag2 : ℕ) (first3 : ℕ) (count4 : ℕ) (recips5 : List (List Byte)) (x6 : DRef) : (State.sealCapsule s c1 tag2 first3 count4 recips5 x6).1.kept = s.kept := by
  unfold State.sealCapsule; (try dsimp only)
  exact (afterRead_kept1 _ _ _ (fun t r => by simp) (fun t b => by simp)).trans (by simp)
@[simp] theorem doCapsuleSeal_kept (h0 : Hdr) (first1 : ℕ) (count2 : ℕ) (recips3 : List (List Byte)) (x4 : DRef) (s : State) : (doCapsuleSeal h0 first1 count2 recips3 x4 s).kept = s.kept := by
  (unfold doCapsuleSeal; refine packet_kept _ _ _ _ _ _ (fun t ht => ?_); (try dsimp only); repeat' (first | (simp [*]; done) | (refine okFor_check6 _ _ _ _ _ (by simp [*]) ?_) | (refine okFor_writeOut _ _ _ _ _ _ (by simp [*])) | (refine okFor_withRef _ _ _ _ _ _ (by simp [*]) ?_) | (refine okFor_acceptNow _ _ _ _ (by simp [*]) (fun _ _ => ?_); (try dsimp only)) | (refine okFor_withInput _ _ _ _ _ _ (by simp [*]) (fun _ _ _ => ?_); (try dsimp only)) | (refine ⟨by simp [*], fun _ _ _ => ?_⟩; (try dsimp only)) | (simp [*]; done) | (have hk := kept_fst ‹_›; simp at hk; simp [hk, *]; done) | split))
@[simp] theorem State.putCapsule_kept (s : State) (c1 : ℕ) (ps2 : List (ℕ × PEnt)) (b3 : List Byte) : (State.putCapsule s c1 ps2 b3).kept = s.kept := by
  simp [State.putCapsule]
@[simp] theorem State.takeCapsule_kept (s : State) (c1 : ℕ) (id2 : ℕ) (b3 : List Byte) : (State.takeCapsule s c1 id2 b3).kept = s.kept := by
  unfold State.takeCapsule; (try dsimp only); (repeat' split) <;> simp [*]
@[simp] theorem doCapsuleOpen_kept (h0 : Hdr) (x1 : DRef) (s : State) : (doCapsuleOpen h0 x1 s).kept = s.kept := by
  (unfold doCapsuleOpen; refine packet_kept _ _ _ _ _ _ (fun t ht => ?_); (try dsimp only); repeat' (first | (simp [*]; done) | (rw [State.readFor_kept _ _ _ _ _ _ (fun _ _ => State.takeCapsule_kept _ _ _ _)]; simp [*]; done) | (refine okFor_check6 _ _ _ _ _ (by simp [*]) ?_) | (refine okFor_writeOut _ _ _ _ _ _ (by simp [*])) | (refine okFor_withRef _ _ _ _ _ _ (by simp [*]) ?_) | (refine okFor_acceptNow _ _ _ _ (by simp [*]) (fun _ _ => ?_); (try dsimp only)) | (refine okFor_withInput _ _ _ _ _ _ (by simp [*]) (fun _ _ _ => ?_); (try dsimp only)) | (refine ⟨by simp [*], fun _ _ _ => ?_⟩; (try dsimp only)) | (simp [*]; done) | (rw [State.readFor_kept _ _ _ _ _ _ (fun _ _ => State.takeCapsule_kept _ _ _ _)]; simp [*]; done) | (have hk := kept_fst ‹_›; simp at hk; simp [hk, *]; done) | split))

/-! Machine/Sideband.lean -/

@[simp] theorem State.smbus_kept (s : State) (b1 : List Byte) : (State.smbus s b1).kept = s.kept := by
  rfl
@[simp] theorem doSmbusReadIdentity_kept (s : State) : (doSmbusReadIdentity s).kept = s.kept := by
  (unfold doSmbusReadIdentity State.onStandby; (repeat' split) <;> simp [*])
@[simp] theorem doSmbusReadStatus_kept (s : State) : (doSmbusReadStatus s).kept = s.kept := by
  (unfold doSmbusReadStatus State.onStandby; (repeat' split) <;> simp [*])
@[simp] theorem doSmbusResetArm_kept (v0 : ℕ) (s : State) : (doSmbusResetArm v0 s).kept = s.kept := by
  (unfold doSmbusResetArm State.onStandby; (repeat' split) <;> simp [*])
@[simp] theorem doSmbusResetArmExpiry_kept (s : State) : (doSmbusResetArmExpiry s).kept = s.kept := by
  simp [doSmbusResetArmExpiry]
@[simp] theorem doSmbusResetConfirm_kept (v0 : ℕ) (s : State) : (doSmbusResetConfirm v0 s).kept = s.kept := by
  (unfold doSmbusResetConfirm State.onStandby; (repeat' split) <;> simp [*])
@[simp] theorem doSmbusSetIpv4_kept (v0 : List Byte) (s : State) : (doSmbusSetIpv4 v0 s).kept = s.kept := by
  (unfold doSmbusSetIpv4 State.onStandby; (repeat' split) <;> simp [*])
@[simp] theorem doSmbusWriteSbCfg_kept (v0 : ℕ) (s : State) : (doSmbusWriteSbCfg v0 s).kept = s.kept := by
  (unfold doSmbusWriteSbCfg State.onStandby; (repeat' split) <;> simp [*])
@[simp] theorem doSmbusAlertResponse_kept (sa10 : Bool) (sa01 : Bool) (s : State) : (doSmbusAlertResponse sa10 sa01 s).kept = s.kept := by
  (unfold doSmbusAlertResponse State.onStandby; (repeat' split) <;> simp [*])
@[simp] theorem doSmbusLogIndices_kept (s : State) : (doSmbusLogIndices s).kept = s.kept := by
  (unfold doSmbusLogIndices State.onStandby; (repeat' split) <;> simp [*])
@[simp] theorem doSmbusLogSelect_kept (v0 : ℕ) (s : State) : (doSmbusLogSelect v0 s).kept = s.kept := by
  (unfold doSmbusLogSelect State.onStandby; (repeat' split) <;> simp [*])
@[simp] theorem doSmbusLogReadLow_kept (s : State) : (doSmbusLogReadLow s).kept = s.kept := by
  (unfold doSmbusLogReadLow State.onStandby; (repeat' split) <;> simp [*])
theorem State.log_kept (s : State) (l : Log) : ({ s with log := l } : State).kept = s.kept := rfl
@[simp] theorem doSmbusLogReadHigh_kept (s : State) : (doSmbusLogReadHigh s).kept = s.kept := by
  unfold doSmbusLogReadHigh State.onStandby
  split
  · exact (State.log_kept _ _).trans (State.smbus_kept _ _)
  · rfl
@[simp] theorem doModRstNRelease_kept (ns0 : ℕ) (s : State) : (doModRstNRelease ns0 s).kept = s.kept := by
  simp [doModRstNRelease]
@[simp] theorem doMgmtPortLinkUp_kept (s : State) : (doMgmtPortLinkUp s).kept = s.kept := by
  (unfold doMgmtPortLinkUp State.onStandby; (repeat' split) <;> simp [*])
@[simp] theorem doMgmtSessionOpen_kept (id0 : ℕ) (key1 : List Byte) (s : State) : (doMgmtSessionOpen id0 key1 s).kept = s.kept := by
  (unfold doMgmtSessionOpen State.onStandby; (repeat' split) <;> simp [*])

/-! Machine/StoreCmd.lean -/

@[simp] theorem doPageMapFar_kept (h0 : Hdr) (ext1 : ℕ) (page2 : ℕ) (flags3 : ℕ) (addr4 : ℕ) (s : State) : (doPageMapFar h0 ext1 page2 flags3 addr4 s).kept = s.kept := by
  unfold doPageMapFar; refine packet_kept _ _ _ _ _ _ (fun t ht => ?_); (try dsimp only); repeat' (first | (simp [*]; done) | (refine okFor_check6 _ _ _ _ _ (by simp [*]) ?_) | (refine okFor_writeOut _ _ _ _ _ _ (by simp [*])) | (refine okFor_withRef _ _ _ _ _ _ (by simp [*]) ?_) | (refine okFor_acceptNow _ _ _ _ (by simp [*]) (fun _ _ => ?_); (try dsimp only)) | (refine okFor_withInput _ _ _ _ _ _ (by simp [*]) (fun _ _ _ => ?_); (try dsimp only)) | (refine ⟨by simp [*], fun _ _ _ => ?_⟩; (try dsimp only)) | (simp [*]; done) | (have hk := kept_fst ‹_›; simp at hk; simp [hk, *]; done) | split)
@[simp] theorem State.retirePage_kept (s : State) (ext1 : ℕ) (page2 : ℕ) (new3 : ℕ) : (State.retirePage s ext1 page2 new3).1.kept = s.kept := by
  simp [State.retirePage]
@[simp] theorem doPageRetire_kept (h0 : Hdr) (ext1 : ℕ) (page2 : ℕ) (s : State) : (doPageRetire h0 ext1 page2 s).kept = s.kept := by
  unfold doPageRetire; refine packet_kept _ _ _ _ _ _ (fun t ht => ?_); (try dsimp only); repeat' (first | (simp [*]; done) | (refine okFor_check6 _ _ _ _ _ (by simp [*]) ?_) | (refine okFor_writeOut _ _ _ _ _ _ (by simp [*])) | (refine okFor_withRef _ _ _ _ _ _ (by simp [*]) ?_) | (refine okFor_acceptNow _ _ _ _ (by simp [*]) (fun _ _ => ?_); (try dsimp only)) | (refine okFor_withInput _ _ _ _ _ _ (by simp [*]) (fun _ _ _ => ?_); (try dsimp only)) | (refine ⟨by simp [*], fun _ _ _ => ?_⟩; (try dsimp only)) | (simp [*]; done) | (have hk := kept_fst ‹_›; simp at hk; simp [hk, *]; done) | split)
@[simp] theorem copyExtent_kept (h0 : Hdr) (src1 : ℕ) (dst2 : ℕ) (soff3 : ℕ) (doff4 : ℕ) (len5 : ℕ) (s : State) : (copyExtent h0 src1 dst2 soff3 doff4 len5 s).1.kept = s.kept := by
  unfold copyExtent; (try dsimp only); (repeat' split) <;> first | (simp [*]; done) | (have hk := kept_fst ‹_›; simp at hk; simp [hk]) | (have hk := State.take_kept ‹_›; (try simp at hk); simp [hk])
@[simp] theorem doExtentCopy_kept (h0 : Hdr) (src1 : ℕ) (dst2 : ℕ) (soff3 : ℕ) (doff4 : ℕ) (len5 : ℕ) (s : State) : (doExtentCopy h0 src1 dst2 soff3 doff4 len5 s).kept = s.kept := by
  unfold doExtentCopy; refine packet_kept _ _ _ _ _ _ (fun t ht => ?_); (try dsimp only); repeat' (first | (simp [*]; done) | (refine okFor_check6 _ _ _ _ _ (by simp [*]) ?_) | (refine okFor_writeOut _ _ _ _ _ _ (by simp [*])) | (refine okFor_withRef _ _ _ _ _ _ (by simp [*]) ?_) | (refine okFor_acceptNow _ _ _ _ (by simp [*]) (fun _ _ => ?_); (try dsimp only)) | (refine okFor_withInput _ _ _ _ _ _ (by simp [*]) (fun _ _ _ => ?_); (try dsimp only)) | (refine ⟨by simp [*], fun _ _ _ => ?_⟩; (try dsimp only)) | (simp [*]; done) | (have hk := kept_fst ‹_›; simp at hk; simp [hk, *]; done) | split)
@[simp] theorem doStreamArm_kept (h0 : Hdr) (stream1 : ℕ) (d2 : Words8) (s : State) : (doStreamArm h0 stream1 d2 s).kept = s.kept := by
  unfold doStreamArm; refine packet_kept _ _ _ _ _ _ (fun t ht => ?_); (try dsimp only); repeat' (first | (simp [*]; done) | (refine okFor_check6 _ _ _ _ _ (by simp [*]) ?_) | (refine okFor_writeOut _ _ _ _ _ _ (by simp [*])) | (refine okFor_withRef _ _ _ _ _ _ (by simp [*]) ?_) | (refine okFor_acceptNow _ _ _ _ (by simp [*]) (fun _ _ => ?_); (try dsimp only)) | (refine okFor_withInput _ _ _ _ _ _ (by simp [*]) (fun _ _ _ => ?_); (try dsimp only)) | (refine ⟨by simp [*], fun _ _ _ => ?_⟩; (try dsimp only)) | (simp [*]; done) | (have hk := kept_fst ‹_›; simp at hk; simp [hk, *]; done) | split)
@[simp] theorem doStreamResume_kept (h0 : Hdr) (stream1 : ℕ) (s : State) : (doStreamResume h0 stream1 s).kept = s.kept := by
  unfold doStreamResume; refine packet_kept _ _ _ _ _ _ (fun t ht => ?_); (try dsimp only); repeat' (first | (simp [*]; done) | (refine okFor_check6 _ _ _ _ _ (by simp [*]) ?_) | (refine okFor_writeOut _ _ _ _ _ _ (by simp [*])) | (refine okFor_withRef _ _ _ _ _ _ (by simp [*]) ?_) | (refine okFor_acceptNow _ _ _ _ (by simp [*]) (fun _ _ => ?_); (try dsimp only)) | (refine okFor_withInput _ _ _ _ _ _ (by simp [*]) (fun _ _ _ => ?_); (try dsimp only)) | (refine ⟨by simp [*], fun _ _ _ => ?_⟩; (try dsimp only)) | (simp [*]; done) | (have hk := kept_fst ‹_›; simp at hk; simp [hk, *]; done) | split)
@[simp] theorem doStreamAbort_kept (h0 : Hdr) (stream1 : ℕ) (s : State) : (doStreamAbort h0 stream1 s).kept = s.kept := by
  unfold doStreamAbort; refine packet_kept _ _ _ _ _ _ (fun t ht => ?_); (try dsimp only); repeat' (first | (simp [*]; done) | (refine okFor_check6 _ _ _ _ _ (by simp [*]) ?_) | (refine okFor_writeOut _ _ _ _ _ _ (by simp [*])) | (refine okFor_withRef _ _ _ _ _ _ (by simp [*]) ?_) | (refine okFor_acceptNow _ _ _ _ (by simp [*]) (fun _ _ => ?_); (try dsimp only)) | (refine okFor_withInput _ _ _ _ _ _ (by simp [*]) (fun _ _ _ => ?_); (try dsimp only)) | (refine ⟨by simp [*], fun _ _ _ => ?_⟩; (try dsimp only)) | (simp [*]; done) | (have hk := kept_fst ‹_›; simp at hk; simp [hk, *]; done) | split)
@[simp] theorem doStreamStatus_kept (h0 : Hdr) (first1 : ℕ) (count2 : ℕ) (x3 : DRef) (s : State) : (doStreamStatus h0 first1 count2 x3 s).kept = s.kept := by
  unfold doStreamStatus; refine packet_kept _ _ _ _ _ _ (fun t ht => ?_); (try dsimp only); repeat' (first | (simp [*]; done) | (refine okFor_check6 _ _ _ _ _ (by simp [*]) ?_) | (refine okFor_writeOut _ _ _ _ _ _ (by simp [*])) | (refine okFor_withRef _ _ _ _ _ _ (by simp [*]) ?_) | (refine okFor_acceptNow _ _ _ _ (by simp [*]) (fun _ _ => ?_); (try dsimp only)) | (refine okFor_withInput _ _ _ _ _ _ (by simp [*]) (fun _ _ _ => ?_); (try dsimp only)) | (refine ⟨by simp [*], fun _ _ _ => ?_⟩; (try dsimp only)) | (simp [*]; done) | (have hk := kept_fst ‹_›; simp at hk; simp [hk, *]; done) | split)

/-! Machine/StreamCmd.lean -/

@[simp] theorem doNop_kept (h0 : IHdr) (cyc1 : ℕ) (s : State) : (doNop h0 cyc1 s).kept = s.kept := by
  simp [doNop]
@[simp] theorem doWcy_kept (h0 : IHdr) (offset1 : ℕ) (s : State) : (doWcy h0 offset1 s).kept = s.kept := by
  simp [doWcy]
@[simp] theorem doLoop_kept (h0 : IHdr) (f1 : LoopF) (s : State) : (doLoop h0 f1 s).kept = s.kept := by
  simp [doLoop]
@[simp] theorem doCall_kept (h0 : IHdr) (routine1 : ℕ) (s : State) : (doCall h0 routine1 s).kept = s.kept := by
  simp [doCall]
@[simp] theorem doRet_kept (h0 : IHdr) (s : State) : (doRet h0 s).kept = s.kept := by
  simp [doRet]
@[simp] theorem doSwp_kept (h0 : IHdr) (s : State) : (doSwp h0 s).kept = s.kept := by
  simp [doSwp]
@[simp] theorem doEndI_kept (h0 : IHdr) (s : State) : (doEndI h0 s).kept = s.kept := by
  simp [doEndI]
@[simp] theorem doAgs_kept (h0 : IHdr) (f1 : AgsF) (s : State) : (doAgs h0 f1 s).kept = s.kept := by
  simp [doAgs]
@[simp] theorem doAgi_kept (h0 : IHdr) (f1 : AgiF) (s : State) : (doAgi h0 f1 s).kept = s.kept := by
  simp [doAgi]
@[simp] theorem doSrd_kept (h0 : IHdr) (reg1 : ℕ) (ag2 : ℕ) (s : State) : (doSrd h0 reg1 ag2 s).kept = s.kept := by
  simp [doSrd]
@[simp] theorem doSwr_kept (h0 : IHdr) (reg1 : ℕ) (v2 : BitVec 64) (s : State) : (doSwr h0 reg1 v2 s).kept = s.kept := by
  simp [doSwr]
@[simp] theorem doGet_kept (h0 : IHdr) (ch1 : ℕ) (ag2 : ℕ) (flits3 : ℕ) (s : State) : (doGet h0 ch1 ag2 flits3 s).kept = s.kept := by
  simp [doGet]
@[simp] theorem doPut_kept (h0 : IHdr) (ch1 : ℕ) (ag2 : ℕ) (flits3 : ℕ) (s : State) : (doPut h0 ch1 ag2 flits3 s).kept = s.kept := by
  simp [doPut]
@[simp] theorem doGth_kept (h0 : IHdr) (f1 : GthF) (s : State) : (doGth h0 f1 s).kept = s.kept := by
  simp [doGth]
@[simp] theorem doSct_kept (h0 : IHdr) (f1 : SctF) (s : State) : (doSct h0 f1 s).kept = s.kept := by
  simp [doSct]
@[simp] theorem doPgl_kept (h0 : IHdr) (ch1 : ℕ) (offset2 : ℕ) (flits3 : ℕ) (fin4 : Bool) (s : State) : (doPgl h0 ch1 offset2 flits3 fin4 s).kept = s.kept := by
  simp [doPgl]

/-! Machine/Takeover.lean -/

@[simp] theorem State.answerAll_kept (s : State) (f1 : FHdr) (p2 : ℕ) (ps3 : List FPkt) : (State.answerAll s f1 p2 ps3).kept = s.kept := by
  simp [State.answerAll]
@[simp] theorem State.bothLost_kept (s : State) (c1 : ℕ) (parcel2 : ℕ) (step3 : ℕ) (sc4 : ℕ) : (State.bothLost s c1 parcel2 step3 sc4).kept = s.kept := by
  (unfold State.bothLost; (repeat' split) <;> simp [*])
@[simp] theorem answerTransfer_kept (f a b c d e g h i) (a' : Sending) : (answerTransfer f a b c d e g h i a').1.kept = a'.1.kept := by
  unfold answerTransfer; simp
theorem sendMirrored_kept (f pos) (a : Sending) : (sendMirrored f pos a).1.kept = a.1.kept := by
  unfold sendMirrored
  refine kept_foldl1 _ (fun a q => ?_) _ _
  extract_lets m
  split
  · rfl
  · split
    · rfl
    · exact (afterRead_kept1 _ _ _ (fun t r => by simp) (fun t b => by simp)).trans (by simp)
theorem sendBanks_kept (f p e) (a : Sending) : (sendBanks f p e a).1.kept = a.1.kept := by
  unfold sendBanks
  extract_lets x n one
  have h : ∀ i j b, (one i j b).1.kept = b.1.kept := fun i j b =>
    (afterRead_kept1 _ _ _ (fun t r => by simp) (fun t b => by simp)).trans (by simp)
  split
  · exact h ..
  · rw [h, h]
theorem sendAllBanks_kept (f pos) (a : Sending) : (sendAllBanks f pos a).1.kept = a.1.kept := by
  unfold sendAllBanks
  refine kept_foldl1 _ (fun a q => ?_) _ _
  (try dsimp only); split
  · exact sendBanks_kept ..
  · rfl
theorem sendScales_kept (f) (a : Sending) : (sendScales f a).1.kept = a.1.kept := by
  unfold sendScales; simp
theorem sendRemirror_kept (f) (a : Sending) : (sendRemirror f a).1.kept = a.1.kept := by
  unfold sendRemirror
  refine kept_foldl1 _ (fun a q => ?_) _ _
  extract_lets m
  split
  · rfl
  · exact (afterRead_kept1 _ _ _ (fun t r => by simp) (fun t b => by simp)).trans (by simp)
@[simp] theorem restoreAnswer_kept (f0 : FHdr) (pos1 : ℕ) (mask2 : ℕ) (s : State) : (restoreAnswer f0 pos1 mask2 s).1.kept = s.kept := by
  unfold restoreAnswer
  extract_lets a0 a1 a2 a3
  have h0 : a0.1.kept = s.kept := rfl
  have h1 : a1.1.kept = s.kept := by simp only [a1]; split; exact (sendMirrored_kept ..).trans h0; exact h0
  have h2 : a2.1.kept = s.kept := by simp only [a2]; split; exact (sendAllBanks_kept ..).trans h1; exact h1
  have h3 : a3.1.kept = s.kept := by simp only [a3]; split; exact (sendScales_kept ..).trans h2; exact h2
  split
  · exact (sendRemirror_kept ..).trans h3
  · exact h3
@[simp] theorem doRestoreRequest_kept (f0 : FHdr) (pos1 : ℕ) (mask2 : ℕ) (s : State) : (doRestoreRequest f0 pos1 mask2 s).kept = s.kept := by
  unfold doRestoreRequest
  refine State.fabricIn_kept _ _ _ _ _ (fun t ht => ?_)
  rw [← ht]
  simp
@[simp] theorem State.askOthers_kept (s : State) (f1 : FHdr) (last2 : ℕ) (cur3 : ℕ) (seed4 : ℕ) (attempt5 : ℕ) (gnorm6 : ℕ) (units7 : ℕ) (counts8 : List ℕ) : (State.askOthers s f1 last2 cur3 seed4 attempt5 gnorm6 units7 counts8).kept = s.kept := by
  simp [State.askOthers]
@[simp] theorem doRestoreDone_kept (f0 : FHdr) (pos1 : ℕ) (last2 : ℕ) (cur3 : ℕ) (seed4 : ℕ) (attempt5 : ℕ) (gnorm6 : ℕ) (units7 : ℕ) (counts8 : List ℕ) (s : State) : (doRestoreDone f0 pos1 last2 cur3 seed4 attempt5 gnorm6 units7 counts8 s).kept = s.kept := by
  (unfold doRestoreDone; refine State.fabricIn_kept _ _ _ _ _ (fun t ht => ?_); simp [ht]; (repeat' split) <;> simp [*])
@[simp] theorem State.dropFlight_kept (s : State) (c1 : ℕ) (cause2 : ℕ) : (State.dropFlight s c1 cause2).kept = s.kept := by
  simp [State.dropFlight]
@[simp] theorem State.lostFor_kept (s : State) (pos1 : ℕ) (c2 : ℕ) : (State.lostFor s pos1 c2).kept = s.kept := by
  (unfold State.lostFor; (try dsimp only); (repeat' split) <;> simp [*])
@[simp] theorem doModuleLost_kept (pos0 : ℕ) (s : State) : (doModuleLost pos0 s).kept = s.kept := by
  (unfold doModuleLost; (try dsimp only); (repeat' split) <;> simp [*])

/-! Machine/TrustCmd.lean -/

@[simp] theorem doAttest_kept (h0 : Hdr) (nonce1 : List Byte) (x2 : DRef) (s : State) : (doAttest h0 nonce1 x2 s).kept = s.kept := by
  (unfold doAttest; refine packet_kept _ _ _ _ _ _ (fun t ht => ?_); (try dsimp only); repeat' (first | (simp [*]; done) | (refine okFor_check6 _ _ _ _ _ (by simp [*]) ?_) | (refine okFor_writeOut _ _ _ _ _ _ (by simp [*])) | (refine okFor_withRef _ _ _ _ _ _ (by simp [*]) ?_) | (refine okFor_acceptNow _ _ _ _ (by simp [*]) (fun _ _ => ?_); (try dsimp only)) | (refine okFor_withInput _ _ _ _ _ _ (by simp [*]) (fun _ _ _ => ?_); (try dsimp only)) | (refine ⟨by simp [*], fun _ _ _ => ?_⟩; (try dsimp only)) | (simp [*]; done) | (have hk := kept_fst ‹_›; simp at hk; simp [hk, *]; done) | split))
@[simp] theorem doCertRead_kept (h0 : Hdr) (x1 : DRef) (s : State) : (doCertRead h0 x1 s).kept = s.kept := by
  (unfold doCertRead; refine packet_kept _ _ _ _ _ _ (fun t ht => ?_); (try dsimp only); repeat' (first | (simp [*]; done) | (refine okFor_check6 _ _ _ _ _ (by simp [*]) ?_) | (refine okFor_writeOut _ _ _ _ _ _ (by simp [*])) | (refine okFor_withRef _ _ _ _ _ _ (by simp [*]) ?_) | (refine okFor_acceptNow _ _ _ _ (by simp [*]) (fun _ _ => ?_); (try dsimp only)) | (refine okFor_withInput _ _ _ _ _ _ (by simp [*]) (fun _ _ _ => ?_); (try dsimp only)) | (refine ⟨by simp [*], fun _ _ _ => ?_⟩; (try dsimp only)) | (simp [*]; done) | (have hk := kept_fst ‹_›; simp at hk; simp [hk, *]; done) | split))

/-! Machine/VectorCmd.lean -/

@[simp] theorem doVcl_kept (h0 : IHdr) (slot1 : ℕ) (ag2 : ℕ) (s : State) : (doVcl h0 slot1 ag2 s).kept = s.kept := by
  simp [doVcl]
@[simp] theorem doVrn_kept (h0 : IHdr) (slot1 : ℕ) (ovl2 : Bool) (s : State) : (doVrn h0 slot1 ovl2 s).kept = s.kept := by
  simp [doVrn]
@[simp] theorem doVsl_kept (h0 : IHdr) (f1 : VslF) (s : State) : (doVsl h0 f1 s).kept = s.kept := by
  simp [doVsl]
@[simp] theorem doVsm_kept (h0 : IHdr) (mask1 : BitVec 64) (s : State) : (doVsm h0 mask1 s).kept = s.kept := by
  simp [doVsm]
@[simp] theorem doVrs_kept (h0 : IHdr) (bank1 : ℕ) (n2 : ℕ) (ag3 : ℕ) (s : State) : (doVrs h0 bank1 n2 ag3 s).kept = s.kept := by
  simp [doVrs]
@[simp] theorem doVrl_kept (h0 : IHdr) (bank1 : ℕ) (n2 : ℕ) (ag3 : ℕ) (s : State) : (doVrl h0 bank1 n2 ag3 s).kept = s.kept := by
  simp [doVrl]

/-! Machine/Step.lean -/

@[simp] theorem State.withFetchWord_kept (s : State) (nbits1 : ℕ) (w2 : ℕ) : (State.withFetchWord s nbits1 w2).kept = s.kept := by
  rfl

end Sys2Proof.Machine
end

