-- ==== Sys2Proof/Laws/Exec.lean ====
section
/-! SUPPORT. What a command can do to the parts that few commands change: one theorem over all commands, from the `_kept` lemma of each
effect. -/

namespace Sys2Proof.Machine

/-- The commands that can change a part of `Kept`. -/
def movesKept : Instr → Bool
  | .beatBoundary => true
  | .stretchOrder _ _ _ => true
  | .beatEpoch _ _ => true
  | .officerEnrol _ _ _ _ => true
  | .officerRetire _ _ _ => true
  | .moduleWarmReset _ => true
  | .coldBoot _ => true
  | _ => false
/-- A wait begun at `t` and over at `w` is reached. -/
theorem any_reached {x : Option Nat} {t w k : Nat} (a : x = some t) (b : t + k ≤ w) : (x.any fun t => decide (t + k ≤ w)) = true := by simp [a, b]
/-- A wait not begun, or begun too late, is not reached. -/
theorem any_not_reached {x : Option Nat} {w k : Nat} (b : ∀ t, x = some t → w < t + k) : (x.any fun t => decide (t + k ≤ w)) = false := by
  cases x with
  | none => rfl
  | some t => simp [Nat.not_le.mpr (b t rfl)]
/-- A command that goes on has its effect, and is well formed. -/
theorem guarded_next {n : String} {i : Instr} {s t : State} {f : State → State} (h : guarded n i s f = .next t) :
    i.wf = true ∧ i.units = true ∧ t = f s := by
  unfold guarded at h
  split at h
  · split at h
    · cases h; exact ⟨‹_›, ‹_›, rfl⟩
    · cases h
  · cases h
/-- A well-formed command that names existing parts has its effect. -/
theorem guarded_ok {n : String} {i : Instr} {s : State} {f : State → State} (hw : i.wf = true) (hu : i.units = true) :
    guarded n i s f = .next (f s) := by simp [guarded, hw, hu]
/-! Each command is its effect in the frame all share. -/

theorem exec_beatBoundary (s : State) : exec (.beatBoundary) s = guarded "BEAT_BOUNDARY" (.beatBoundary) s (doBeatBoundary) := rfl
theorem exec_siteRemap (region cluster : Nat) (s : State) : exec (.siteRemap region cluster) s = guarded "SITE_REMAP" (.siteRemap region cluster) s (doSiteRemap region cluster) := rfl
theorem exec_boundarySlip (rx tx cyc : Nat) (s : State) : exec (.boundarySlip rx tx cyc) s = guarded "BOUNDARY_SLIP" (.boundarySlip rx tx cyc) s (doBoundarySlip rx tx cyc) := rfl
theorem exec_stretchOrder (m beat cyc : Nat) (s : State) : exec (.stretchOrder m beat cyc) s = guarded "STRETCH_ORDER" (.stretchOrder m beat cyc) s (doStretchOrder m beat cyc) := rfl
theorem exec_holdRequest (ctx src cyc : Nat) (s : State) : exec (.holdRequest ctx src cyc) s = guarded "HOLD_REQUEST" (.holdRequest ctx src cyc) s (doHoldRequest ctx src cyc) := rfl
theorem exec_holdDecision (ctx : Nat) (s : State) : exec (.holdDecision ctx) s = guarded "HOLD_DECISION" (.holdDecision ctx) s (doHoldDecision ctx) := rfl
theorem exec_holdTimeout (ctx : Nat) (s : State) : exec (.holdTimeout ctx) s = guarded "HOLD_TIMEOUT" (.holdTimeout ctx) s (doHoldTimeout ctx) := rfl
theorem exec_ptpAnchor (time : Nat) (locked : Bool) (s : State) : exec (.ptpAnchor time locked) s = guarded "PTP_ANCHOR" (.ptpAnchor time locked) s (doPtpAnchor time locked) := rfl
theorem exec_beatInLost (s : State) : exec (.beatInLost) s = guarded "BEAT_IN_LOST" (.beatInLost) s (doBeatInLost) := rfl
theorem exec_beatEpoch (f : FHdr) (beat : Nat) (s : State) : exec (.beatEpoch f beat) s = guarded "BEAT_EPOCH" (.beatEpoch f beat) s (doBeatEpoch f beat) := rfl
theorem exec_mcf (h : IHdr) (gang : Nat) (sati : Bool) (s : State) : exec (.mcf h gang sati) s = guarded "MCF" (.mcf h gang sati) s (doMcf h gang sati) := rfl
theorem exec_mld (h : IHdr) (f : MldF) (s : State) : exec (.mld h f) s = guarded "MLD" (.mld h f) s (doMld h f) := rfl
theorem exec_msw (h : IHdr) (s : State) : exec (.msw h) s = guarded "MSW" (.msw h) s (doMsw h) := rfl
theorem exec_mst (h : IHdr) (f : MstF) (u : Option Upset) (s : State) : exec (.mst h f u) s = guarded "MST" (.mst h f u) s (doMst h f u) := rfl
theorem exec_mdr (h : IHdr) (f : MdrF) (s : State) : exec (.mdr h f) s = guarded "MDR" (.mdr h f) s (doMdr h f) := rfl
theorem exec_cvl (h : IHdr) (setting : Nat) (pb : Bool) (ag : Nat) (word : BitVec 64) (s : State) : exec (.cvl h setting pb ag word) s = guarded "CVL" (.cvl h setting pb ag word) s (doCvl h setting pb ag word) := rfl
theorem exec_vcl (h : IHdr) (slot ag : Nat) (s : State) : exec (.vcl h slot ag) s = guarded "VCL" (.vcl h slot ag) s (doVcl h slot ag) := rfl
theorem exec_vrn (h : IHdr) (slot : Nat) (ovl : Bool) (s : State) : exec (.vrn h slot ovl) s = guarded "VRN" (.vrn h slot ovl) s (doVrn h slot ovl) := rfl
theorem exec_vsl (h : IHdr) (f : VslF) (s : State) : exec (.vsl h f) s = guarded "VSL" (.vsl h f) s (doVsl h f) := rfl
theorem exec_vsm (h : IHdr) (mask : BitVec 64) (s : State) : exec (.vsm h mask) s = guarded "VSM" (.vsm h mask) s (doVsm h mask) := rfl
theorem exec_vrs (h : IHdr) (bank n ag : Nat) (s : State) : exec (.vrs h bank n ag) s = guarded "VRS" (.vrs h bank n ag) s (doVrs h bank n ag) := rfl
theorem exec_vrl (h : IHdr) (bank n ag : Nat) (s : State) : exec (.vrl h bank n ag) s = guarded "VRL" (.vrl h bank n ag) s (doVrl h bank n ag) := rfl
theorem exec_nop (h : IHdr) (cyc : Nat) (s : State) : exec (.nop h cyc) s = guarded "NOP" (.nop h cyc) s (doNop h cyc) := rfl
theorem exec_wcy (h : IHdr) (offset : Nat) (s : State) : exec (.wcy h offset) s = guarded "WCY" (.wcy h offset) s (doWcy h offset) := rfl
theorem exec_loop (h : IHdr) (f : LoopF) (s : State) : exec (.loop h f) s = guarded "LOOP" (.loop h f) s (doLoop h f) := rfl
theorem exec_call (h : IHdr) (routine : Nat) (s : State) : exec (.call h routine) s = guarded "CALL" (.call h routine) s (doCall h routine) := rfl
theorem exec_ret (h : IHdr) (s : State) : exec (.ret h) s = guarded "RET" (.ret h) s (doRet h) := rfl
theorem exec_swp (h : IHdr) (s : State) : exec (.swp h) s = guarded "SWP" (.swp h) s (doSwp h) := rfl
theorem exec_endI (h : IHdr) (s : State) : exec (.endI h) s = guarded "END" (.endI h) s (doEndI h) := rfl
theorem exec_ags (h : IHdr) (f : AgsF) (s : State) : exec (.ags h f) s = guarded "AGS" (.ags h f) s (doAgs h f) := rfl
theorem exec_agi (h : IHdr) (f : AgiF) (s : State) : exec (.agi h f) s = guarded "AGI" (.agi h f) s (doAgi h f) := rfl
theorem exec_srd (h : IHdr) (reg ag : Nat) (s : State) : exec (.srd h reg ag) s = guarded "SRD" (.srd h reg ag) s (doSrd h reg ag) := rfl
theorem exec_swr (h : IHdr) (reg : Nat) (v : BitVec 64) (s : State) : exec (.swr h reg v) s = guarded "SWR" (.swr h reg v) s (doSwr h reg v) := rfl
theorem exec_get (h : IHdr) (ch ag flits : Nat) (s : State) : exec (.get h ch ag flits) s = guarded "GET" (.get h ch ag flits) s (doGet h ch ag flits) := rfl
theorem exec_put (h : IHdr) (ch ag flits : Nat) (s : State) : exec (.put h ch ag flits) s = guarded "PUT" (.put h ch ag flits) s (doPut h ch ag flits) := rfl
theorem exec_gth (h : IHdr) (f : GthF) (s : State) : exec (.gth h f) s = guarded "GTH" (.gth h f) s (doGth h f) := rfl
theorem exec_sct (h : IHdr) (f : SctF) (s : State) : exec (.sct h f) s = guarded "SCT" (.sct h f) s (doSct h f) := rfl
theorem exec_pgl (h : IHdr) (ch offset flits : Nat) (fin : Bool) (s : State) : exec (.pgl h ch offset flits fin) s = guarded "PGL" (.pgl h ch offset flits fin) s (doPgl h ch offset flits fin) := rfl
theorem exec_pageSwap (tile : Nat) (s : State) : exec (.pageSwap tile) s = guarded "PAGE_SWAP" (.pageSwap tile) s (doPageSwap tile) := rfl
theorem exec_swapTimeout (tile cyc : Nat) (s : State) : exec (.swapTimeout tile cyc) s = guarded "SWAP_TIMEOUT" (.swapTimeout tile cyc) s (doSwapTimeout tile cyc) := rfl
theorem exec_crossWait (tile : Nat) (s : State) : exec (.crossWait tile) s = guarded "CROSS_WAIT" (.crossWait tile) s (doCrossWait tile) := rfl
theorem exec_streamStall (tile : Nat) (exe : Bool) (cyc : Nat) (s : State) : exec (.streamStall tile exe cyc) s = guarded "STREAM_STALL" (.streamStall tile exe cyc) s (doStreamStall tile exe cyc) := rfl
theorem exec_planStart (tile : Nat) (s : State) : exec (.planStart tile) s = guarded "PLAN_START" (.planStart tile) s (doPlanStart tile) := rfl
theorem exec_planEnd (tile cyc : Nat) (s : State) : exec (.planEnd tile cyc) s = guarded "PLAN_END" (.planEnd tile cyc) s (doPlanEnd tile cyc) := rfl
theorem exec_spPatrol (tile : Nat) (s : State) : exec (.spPatrol tile) s = guarded "SP_PATROL" (.spPatrol tile) s (doSpPatrol tile) := rfl
theorem exec_spCorrectionWriteback (tile bank : Nat) (s : State) : exec (.spCorrectionWriteback tile bank) s = guarded "SP_CORRECTION_WRITEBACK" (.spCorrectionWriteback tile bank) s (doSpCorrectionWriteback tile bank) := rfl
theorem exec_routerSlot (pos entry cyc : Nat) (s : State) : exec (.routerSlot pos entry cyc) s = guarded "ROUTER_SLOT" (.routerSlot pos entry cyc) s (doRouterSlot pos entry cyc) := rfl
theorem exec_beatOrder (dst ctx cyc : Nat) (s : State) : exec (.beatOrder dst ctx cyc) s = guarded "BEAT_ORDER" (.beatOrder dst ctx cyc) s (doBeatOrder dst ctx cyc) := rfl
theorem exec_beatOrderLost (dst ctx : Nat) (s : State) : exec (.beatOrderLost dst ctx) s = guarded "BEAT_ORDER_LOST" (.beatOrderLost dst ctx) s (doBeatOrderLost dst ctx) := rfl
theorem exec_routeSwitch (ctx : Nat) (s : State) : exec (.routeSwitch ctx) s = guarded "ROUTE_SWITCH" (.routeSwitch ctx) s (doRouteSwitch ctx) := rfl
theorem exec_waggleResend (hub next : Nat) (s : State) : exec (.waggleResend hub next) s = guarded "WAGGLE_RESEND" (.waggleResend hub next) s (doWaggleResend hub next) := rfl
theorem exec_fenceOrder (dst action ctx : Nat) (s : State) : exec (.fenceOrder dst action ctx) s = guarded "FENCE_ORDER" (.fenceOrder dst action ctx) s (doFenceOrder dst action ctx) := rfl
theorem exec_faultReport (unit cls stamp : Nat) (s : State) : exec (.faultReport unit cls stamp) s = guarded "FAULT_REPORT" (.faultReport unit cls stamp) s (doFaultReport unit cls stamp) := rfl
theorem exec_telemetry (unit : Nat) (s : State) : exec (.telemetry unit) s = guarded "TELEMETRY" (.telemetry unit) s (doTelemetry unit) := rfl
theorem exec_spRead (tile src addr : Nat) (s : State) : exec (.spRead tile src addr) s = guarded "SP_READ" (.spRead tile src addr) s (doSpRead tile src addr) := rfl
theorem exec_spWrite (tile src addr : Nat) (word : Line) (s : State) : exec (.spWrite tile src addr word) s = guarded "SP_WRITE" (.spWrite tile src addr word) s (doSpWrite tile src addr word) := rfl
theorem exec_spReply (tile dst : Nat) (s : State) : exec (.spReply tile dst) s = guarded "SP_REPLY" (.spReply tile dst) s (doSpReply tile dst) := rfl
theorem exec_regRead (tile src reg : Nat) (s : State) : exec (.regRead tile src reg) s = guarded "REG_READ" (.regRead tile src reg) s (doRegRead tile src reg) := rfl
theorem exec_regWrite (tile src reg : Nat) (v : BitVec 64) (s : State) : exec (.regWrite tile src reg v) s = guarded "REG_WRITE" (.regWrite tile src reg v) s (doRegWrite tile src reg v) := rfl
theorem exec_regReply (tile dst : Nat) (s : State) : exec (.regReply tile dst) s = guarded "REG_REPLY" (.regReply tile dst) s (doRegReply tile dst) := rfl
theorem exec_shortMsg (tile seq : Nat) (words : List Nat) (s : State) : exec (.shortMsg tile seq words) s = guarded "SHORT_MSG" (.shortMsg tile seq words) s (doShortMsg tile seq words) := rfl
theorem exec_leaseGrant (l : Lease) (reply : Bool) (s : State) : exec (.leaseGrant l reply) s = guarded "LEASE_GRANT" (.leaseGrant l reply) s (doLeaseGrant l reply) := rfl
theorem exec_leaseRenew (l : Lease) (reply : Bool) (s : State) : exec (.leaseRenew l reply) s = guarded "LEASE_RENEW" (.leaseRenew l reply) s (doLeaseRenew l reply) := rfl
theorem exec_leaseRelease (l : Lease) (s : State) : exec (.leaseRelease l) s = guarded "LEASE_RELEASE" (.leaseRelease l) s (doLeaseRelease l) := rfl
theorem exec_leaseReclaim (l : Lease) (s : State) : exec (.leaseReclaim l) s = guarded "LEASE_RECLAIM" (.leaseReclaim l) s (doLeaseReclaim l) := rfl
theorem exec_leaseExpired (l : Lease) (s : State) : exec (.leaseExpired l) s = guarded "LEASE_EXPIRED" (.leaseExpired l) s (doLeaseExpired l) := rfl
theorem exec_regulatorGrant (sc : Nat) (s : State) : exec (.regulatorGrant sc) s = guarded "REGULATOR_GRANT" (.regulatorGrant sc) s (doRegulatorGrant sc) := rfl
theorem exec_streamForecast (sc ctx : Nat) (s : State) : exec (.streamForecast sc ctx) s = guarded "STREAM_FORECAST" (.streamForecast sc ctx) s (doStreamForecast sc ctx) := rfl
theorem exec_edgePortSlot (sc port cyc : Nat) (outbound : Bool) (s : State) : exec (.edgePortSlot sc port cyc outbound) s = guarded "EDGE_PORT_SLOT" (.edgePortSlot sc port cyc outbound) s (doEdgePortSlot sc port cyc outbound) := rfl
theorem exec_streamDeadline (sc slot : Nat) (s : State) : exec (.streamDeadline sc slot) s = guarded "STREAM_DEADLINE" (.streamDeadline sc slot) s (doStreamDeadline sc slot) := rfl
theorem exec_stackPatrol (sc : Nat) (s : State) : exec (.stackPatrol sc) s = guarded "STACK_PATROL" (.stackPatrol sc) s (doStackPatrol sc) := rfl
theorem exec_reduceDeadline (sc n : Nat) (s : State) : exec (.reduceDeadline sc n) s = guarded "REDUCE_DEADLINE" (.reduceDeadline sc n) s (doReduceDeadline sc n) := rfl
theorem exec_reductionForecast (sc ctx : Nat) (s : State) : exec (.reductionForecast sc ctx) s = guarded "REDUCTION_FORECAST" (.reductionForecast sc ctx) s (doReductionForecast sc ctx) := rfl
theorem exec_gradEgressSend (sc ctx parcel : Nat) (s : State) : exec (.gradEgressSend sc ctx parcel) s = guarded "GRAD_EGRESS_SEND" (.gradEgressSend sc ctx parcel) s (doGradEgressSend sc ctx parcel) := rfl
theorem exec_ownerBufferOpen (sc ctx : Nat) (s : State) : exec (.ownerBufferOpen sc ctx) s = guarded "OWNER_BUFFER_OPEN" (.ownerBufferOpen sc ctx) s (doOwnerBufferOpen sc ctx) := rfl
theorem exec_gradBlock (f : FHdr) (step attempt : Nat) (row : Bool) (b : WireBlk) (s : State) : exec (.gradBlock f step attempt row b) s = guarded "GRAD_BLOCK" (.gradBlock f step attempt row b) s (doGradBlock f step attempt row b) := rfl
theorem exec_gradClose (f : FHdr) (parcel step attempt : Nat) (dense nf : Bool) (rows : Nat) (s : State) : exec (.gradClose f parcel step attempt dense nf rows) s = guarded "GRAD_CLOSE" (.gradClose f parcel step attempt dense nf rows) s (doGradClose f parcel step attempt dense nf rows) := rfl
theorem exec_parcelCredit (f : FHdr) (step attempt sc ordinal : Nat) (s : State) : exec (.parcelCredit f step attempt sc ordinal) s = guarded "PARCEL_CREDIT" (.parcelCredit f step attempt sc ordinal) s (doParcelCredit f step attempt sc ordinal) := rfl
theorem exec_ripenerUpdate (sc ctx parcel : Nat) (s : State) : exec (.ripenerUpdate sc ctx parcel) s = guarded "RIPENER_UPDATE" (.ripenerUpdate sc ctx parcel) s (doRipenerUpdate sc ctx parcel) := rfl
theorem exec_mirror (f : FHdr) (p : Prefix) (data : List Byte) (s : State) : exec (.mirror f p data) s = guarded "MIRROR" (.mirror f p data) s (doMirror f p data) := rfl
theorem exec_mirrorAck (f : FHdr) (parcel step attempt status : Nat) (s : State) : exec (.mirrorAck f parcel step attempt status) s = guarded "MIRROR_ACK" (.mirrorAck f parcel step attempt status) s (doMirrorAck f parcel step attempt status) := rfl
theorem exec_mirrorTimeout (ctx parcel : Nat) (s : State) : exec (.mirrorTimeout ctx parcel) s = guarded "MIRROR_TIMEOUT" (.mirrorTimeout ctx parcel) s (doMirrorTimeout ctx parcel) := rfl
theorem exec_allgather (f : FHdr) (p : Prefix) (data : List Byte) (s : State) : exec (.allgather f p data) s = guarded "ALLGATHER" (.allgather f p data) s (doAllgather f p data) := rfl
theorem exec_hostUpdateTimeout (ctx parcel : Nat) (s : State) : exec (.hostUpdateTimeout ctx parcel) s = guarded "HOST_UPDATE_TIMEOUT" (.hostUpdateTimeout ctx parcel) s (doHostUpdateTimeout ctx parcel) := rfl
theorem exec_capsule (f : FHdr) (transfer off total : Nat) (data : List Byte) (s : State) : exec (.capsule f transfer off total data) s = guarded "CAPSULE" (.capsule f transfer off total data) s (doCapsule f transfer off total data) := rfl
theorem exec_capsuleAck (f : FHdr) (transfer units status : Nat) (s : State) : exec (.capsuleAck f transfer units status) s = guarded "CAPSULE_ACK" (.capsuleAck f transfer units status) s (doCapsuleAck f transfer units status) := rfl
theorem exec_link (n ack : Nat) (nak : Bool) (credits : List Nat) (bad : Bool) (s : State) : exec (.link n ack nak credits bad) s = guarded "LINK" (.link n ack nak credits bad) s (doLink n ack nak credits bad) := rfl
theorem exec_linkRetrainInService (n fecWindow : Nat) (s : State) : exec (.linkRetrainInService n fecWindow) s = guarded "LINK_RETRAIN_IN_SERVICE" (.linkRetrainInService n fecWindow) s (doLinkRetrainInService n fecWindow) := rfl
theorem exec_linkRetrainComplete (n : Nat) (t : Trained) (s : State) : exec (.linkRetrainComplete n t) s = guarded "LINK_RETRAIN_COMPLETE" (.linkRetrainComplete n t) s (doLinkRetrainComplete n t) := rfl
theorem exec_fabricCreditStall (n vc : Nat) (s : State) : exec (.fabricCreditStall n vc) s = guarded "FABRIC_CREDIT_STALL" (.fabricCreditStall n vc) s (doFabricCreditStall n vc) := rfl
theorem exec_hello (n pod pos plink pidh : Nat) (s : State) : exec (.hello n pod pos plink pidh) s = guarded "HELLO" (.hello n pod pos plink pidh) s (doHello n pod pos plink pidh) := rfl
theorem exec_stepStartMessage (f : FHdr) (step attempt scale freeze : Nat) (s : State) : exec (.stepStartMessage f step attempt scale freeze) s = guarded "STEP_START_MESSAGE" (.stepStartMessage f step attempt scale freeze) s (doStepStartMessage f step attempt scale freeze) := rfl
theorem exec_stepSyncTimeout (ctx : Nat) (s : State) : exec (.stepSyncTimeout ctx) s = guarded "STEP_SYNC_TIMEOUT" (.stepSyncTimeout ctx) s (doStepSyncTimeout ctx) := rfl
theorem exec_norm (f : FHdr) (step : Nat) (v : BitVec 64) (s : State) : exec (.norm f step v) s = guarded "NORM" (.norm f step v) s (doNorm f step v) := rfl
theorem exec_headroom (f : FHdr) (share power : Nat) (offer : Int) (s : State) : exec (.headroom f share power offer) s = guarded "HEADROOM" (.headroom f share power offer) s (doHeadroom f share power offer) := rfl
theorem exec_headroomSend (cyc : Nat) (s : State) : exec (.headroomSend cyc) s = guarded "HEADROOM_SEND" (.headroomSend cyc) s (doHeadroomSend cyc) := rfl
theorem exec_podAllowanceHoldEnd (s : State) : exec (.podAllowanceHoldEnd) s = guarded "POD_ALLOWANCE_HOLD_END" (.podAllowanceHoldEnd) s (doPodAllowanceHoldEnd) := rfl
theorem exec_headroomTimeout (pos : Nat) (s : State) : exec (.headroomTimeout pos) s = guarded "HEADROOM_TIMEOUT" (.headroomTimeout pos) s (doHeadroomTimeout pos) := rfl
theorem exec_restoreRequest (f : FHdr) (pos mask : Nat) (s : State) : exec (.restoreRequest f pos mask) s = guarded "RESTORE_REQUEST" (.restoreRequest f pos mask) s (doRestoreRequest f pos mask) := rfl
theorem exec_restoreDone (f : FHdr) (pos last cur seed attempt gnorm units : Nat) (counts : List Nat) (s : State) : exec (.restoreDone f pos last cur seed attempt gnorm units counts) s = guarded "RESTORE_DONE" (.restoreDone f pos last cur seed attempt gnorm units counts) s (doRestoreDone f pos last cur seed attempt gnorm units counts) := rfl
theorem exec_moduleLost (pos : Nat) (s : State) : exec (.moduleLost pos) s = guarded "MODULE_LOST" (.moduleLost pos) s (doModuleLost pos) := rfl
theorem exec_systemRingStart (cprod qcons : Nat) (readable : Bool) (s : State) : exec (.systemRingStart cprod qcons readable) s = guarded "SYSTEM_RING_START" (.systemRingStart cprod qcons readable) s (doSystemRingStart cprod qcons readable) := rfl
theorem exec_systemRingStop (s : State) : exec (.systemRingStop) s = guarded "SYSTEM_RING_STOP" (.systemRingStop) s (doSystemRingStop) := rfl
theorem exec_systemRingStopDone (s : State) : exec (.systemRingStopDone) s = guarded "SYSTEM_RING_STOP_DONE" (.systemRingStopDone) s (doSystemRingStopDone) := rfl
theorem exec_registerWrite (off len value : Nat) (s : State) : exec (.registerWrite off len value) s = guarded "REGISTER_WRITE" (.registerWrite off len value) s (doRegisterWrite off len value) := rfl
theorem exec_headLineSnoop (ctx cyc cprod qcons : Nat) (readable : Bool) (undef : List (Nat × Hdr)) (s : State) : exec (.headLineSnoop ctx cyc cprod qcons readable undef) s = guarded "HEAD_LINE_SNOOP" (.headLineSnoop ctx cyc cprod qcons readable undef) s (doHeadLineSnoop ctx cyc cprod qcons readable undef) := rfl
theorem exec_headLineReread (ctx cyc cprod qcons : Nat) (readable : Bool) (undef : List (Nat × Hdr)) (s : State) : exec (.headLineReread ctx cyc cprod qcons readable undef) s = guarded "HEAD_LINE_REREAD" (.headLineReread ctx cyc cprod qcons readable undef) s (doHeadLineReread ctx cyc cprod qcons readable undef) := rfl
theorem exec_farPageRequestRepost (ctx ext page : Nat) (s : State) : exec (.farPageRequestRepost ctx ext page) s = guarded "FAR_PAGE_REQUEST_REPOST" (.farPageRequestRepost ctx ext page) s (doFarPageRequestRepost ctx ext page) := rfl
theorem exec_msixUnmask (vec : Nat) (s : State) : exec (.msixUnmask vec) s = guarded "MSIX_UNMASK" (.msixUnmask vec) s (doMsixUnmask vec) := rfl
theorem exec_hdmDecoderCommit (ways : Nat) (s : State) : exec (.hdmDecoderCommit ways) s = guarded "HDM_DECODER_COMMIT" (.hdmDecoderCommit ways) s (doHdmDecoderCommit ways) := rfl
theorem exec_windowRead (addr : Nat) (s : State) : exec (.windowRead addr) s = guarded "WINDOW_READ" (.windowRead addr) s (doWindowRead addr) := rfl
theorem exec_windowWrite (addr enable : Nat) (data : List Byte) (s : State) : exec (.windowWrite addr enable data) s = guarded "WINDOW_WRITE" (.windowWrite addr enable data) s (doWindowWrite addr enable data) := rfl
theorem exec_hostLinkReset (s : State) : exec (.hostLinkReset) s = guarded "HOST_LINK_RESET" (.hostLinkReset) s (doHostLinkReset) := rfl
theorem exec_ctxOpen (h : Hdr) (d : Words8) (s : State) : exec (.ctxOpen h d) s = guarded "CTX_OPEN" (.ctxOpen h d) s (doCtxOpen h d) := rfl
theorem exec_ctxClose (h : Hdr) (s : State) : exec (.ctxClose h) s = guarded "CTX_CLOSE" (.ctxClose h) s (doCtxClose h) := rfl
theorem exec_ctxFence (h : Hdr) (gen : Nat) (b : SigBlk) (s : State) : exec (.ctxFence h gen b) s = guarded "CTX_FENCE" (.ctxFence h gen b) s (doCtxFence h gen b) := rfl
theorem exec_ctxRead (h : Hdr) (first count : Nat) (x : DRef) (s : State) : exec (.ctxRead h first count x) s = guarded "CTX_READ" (.ctxRead h first count x) s (doCtxRead h first count x) := rfl
theorem exec_regionBind (h : Hdr) (region flags : Nat) (s : State) : exec (.regionBind h region flags) s = guarded "REGION_BIND" (.regionBind h region flags) s (doRegionBind h region flags) := rfl
theorem exec_extentCreate (h : Hdr) (sc kind flags pages pair : Nat) (s : State) : exec (.extentCreate h sc kind flags pages pair) s = guarded "EXTENT_CREATE" (.extentCreate h sc kind flags pages pair) s (doExtentCreate h sc kind flags pages pair) := rfl
theorem exec_extentBind (h : Hdr) (ext flags : Nat) (s : State) : exec (.extentBind h ext flags) s = guarded "EXTENT_BIND" (.extentBind h ext flags) s (doExtentBind h ext flags) := rfl
theorem exec_slotBind (h : Hdr) (stream flags : Nat) (s : State) : exec (.slotBind h stream flags) s = guarded "SLOT_BIND" (.slotBind h stream flags) s (doSlotBind h stream flags) := rfl
theorem exec_groupBind (h : Hdr) (blk flags : Nat) (s : State) : exec (.groupBind h blk flags) s = guarded "GROUP_BIND" (.groupBind h blk flags) s (doGroupBind h blk flags) := rfl
theorem exec_bindingEffect (kind idx : Nat) (s : State) : exec (.bindingEffect kind idx) s = guarded "BINDING_EFFECT" (.bindingEffect kind idx) s (doBindingEffect kind idx) := rfl
theorem exec_protChange (h : Hdr) (ctx gen : Nat) (n0 n1 n2 n3 : BitVec 64) (blks : List SigBlk) (s : State) : exec (.protChange h ctx gen n0 n1 n2 n3 blks) s = guarded "PROT_CHANGE" (.protChange h ctx gen n0 n1 n2 n3 blks) s (doProtChange h ctx gen n0 n1 n2 n3 blks) := rfl
theorem exec_pageMapFar (h : Hdr) (ext page flags addr : Nat) (s : State) : exec (.pageMapFar h ext page flags addr) s = guarded "PAGE_MAP_FAR" (.pageMapFar h ext page flags addr) s (doPageMapFar h ext page flags addr) := rfl
theorem exec_pageRetire (h : Hdr) (ext page : Nat) (s : State) : exec (.pageRetire h ext page) s = guarded "PAGE_RETIRE" (.pageRetire h ext page) s (doPageRetire h ext page) := rfl
theorem exec_extentCopy (h : Hdr) (src dst soff doff len : Nat) (s : State) : exec (.extentCopy h src dst soff doff len) s = guarded "EXTENT_COPY" (.extentCopy h src dst soff doff len) s (doExtentCopy h src dst soff doff len) := rfl
theorem exec_streamArm (h : Hdr) (stream : Nat) (d : Words8) (s : State) : exec (.streamArm h stream d) s = guarded "STREAM_ARM" (.streamArm h stream d) s (doStreamArm h stream d) := rfl
theorem exec_streamResume (h : Hdr) (stream : Nat) (s : State) : exec (.streamResume h stream) s = guarded "STREAM_RESUME" (.streamResume h stream) s (doStreamResume h stream) := rfl
theorem exec_streamAbort (h : Hdr) (stream : Nat) (s : State) : exec (.streamAbort h stream) s = guarded "STREAM_ABORT" (.streamAbort h stream) s (doStreamAbort h stream) := rfl
theorem exec_streamStatus (h : Hdr) (first count : Nat) (x : DRef) (s : State) : exec (.streamStatus h first count x) s = guarded "STREAM_STATUS" (.streamStatus h first count x) s (doStreamStatus h first count x) := rfl
theorem exec_spMapLoad (h : Hdr) (m : SpMap) (s : State) : exec (.spMapLoad h m) s = guarded "SP_MAP_LOAD" (.spMapLoad h m) s (doSpMapLoad h m) := rfl
theorem exec_libLoad (h : Hdr) (x : DRef) (s : State) : exec (.libLoad h x) s = guarded "LIB_LOAD" (.libLoad h x) s (doLibLoad h x) := rfl
theorem exec_planLoad (h : Hdr) (x : DRef) (s : State) : exec (.planLoad h x) s = guarded "PLAN_LOAD" (.planLoad h x) s (doPlanLoad h x) := rfl
theorem exec_planFree (h : Hdr) (handle : Nat) (s : State) : exec (.planFree h handle) s = guarded "PLAN_FREE" (.planFree h handle) s (doPlanFree h handle) := rfl
theorem exec_planRun (h : Hdr) (handle : Nat) (s : State) : exec (.planRun h handle) s = guarded "PLAN_RUN" (.planRun h handle) s (doPlanRun h handle) := rfl
theorem exec_planAbort (h : Hdr) (s : State) : exec (.planAbort h) s = guarded "PLAN_ABORT" (.planAbort h) s (doPlanAbort h) := rfl
theorem exec_stepStart (h : Hdr) (step seed tokens lr handle : Nat) (s : State) : exec (.stepStart h step seed tokens lr handle) s = guarded "STEP_START" (.stepStart h step seed tokens lr handle) s (doStepStart h step seed tokens lr handle) := rfl
theorem exec_stepBegin (ctx : Nat) (s : State) : exec (.stepBegin ctx) s = guarded "STEP_BEGIN" (.stepBegin ctx) s (doStepBegin ctx) := rfl
theorem exec_stepComplete (ctx : Nat) (s : State) : exec (.stepComplete ctx) s = guarded "STEP_COMPLETE" (.stepComplete ctx) s (doStepComplete ctx) := rfl
theorem exec_evalStart (h : Hdr) (handle tokens seed : Nat) (s : State) : exec (.evalStart h handle tokens seed) s = guarded "EVAL_START" (.evalStart h handle tokens seed) s (doEvalStart h handle tokens seed) := rfl
theorem exec_stepStatus (h : Hdr) (s : State) : exec (.stepStatus h) s = guarded "STEP_STATUS" (.stepStatus h) s (doStepStatus h) := rfl
theorem exec_fabricTopology (h : Hdr) (x : DRef) (s : State) : exec (.fabricTopology h x) s = guarded "FABRIC_TOPOLOGY" (.fabricTopology h x) s (doFabricTopology h x) := rfl
theorem exec_podConfig (h : Hdr) (x : DRef) (s : State) : exec (.podConfig h x) s = guarded "POD_CONFIG" (.podConfig h x) s (doPodConfig h x) := rfl
theorem exec_linkWidth (h : Hdr) (n v : Nat) (s : State) : exec (.linkWidth h n v) s = guarded "LINK_WIDTH" (.linkWidth h n v) s (doLinkWidth h n v) := rfl
theorem exec_linkRetrain (h : Hdr) (n : Nat) (s : State) : exec (.linkRetrain h n) s = guarded "LINK_RETRAIN" (.linkRetrain h n) s (doLinkRetrain h n) := rfl
theorem exec_optConfig (h : Hdr) (flags hr sat down : Nat) (s : State) : exec (.optConfig h flags hr sat down) s = guarded "OPT_CONFIG" (.optConfig h flags hr sat down) s (doOptConfig h flags hr sat down) := rfl
theorem exec_optParcelMap (h : Hdr) (count : Nat) (x : DRef) (s : State) : exec (.optParcelMap h count x) s = guarded "OPT_PARCEL_MAP" (.optParcelMap h count x) s (doOptParcelMap h count x) := rfl
theorem exec_optScaleLoad (h : Hdr) (first tables count : Nat) (x : DRef) (s : State) : exec (.optScaleLoad h first tables count x) s = guarded "OPT_SCALE_LOAD" (.optScaleLoad h first tables count x) s (doOptScaleLoad h first tables count x) := rfl
theorem exec_optGroup (h : Hdr) (group : Nat) (r : Words8) (s : State) : exec (.optGroup h group r) s = guarded "OPT_GROUP" (.optGroup h group r) s (doOptGroup h group r) := rfl
theorem exec_optFreeze (h : Hdr) (count : Nat) (x : DRef) (s : State) : exec (.optFreeze h count x) s = guarded "OPT_FREEZE" (.optFreeze h count x) s (doOptFreeze h count x) := rfl
theorem exec_optStateInit (h : Hdr) (first flags count : Nat) (x : DRef) (s : State) : exec (.optStateInit h first flags count x) s = guarded "OPT_STATE_INIT" (.optStateInit h first flags count x) s (doOptStateInit h first flags count x) := rfl
theorem exec_optNorms (h : Hdr) (step : Nat) (x : DRef) (s : State) : exec (.optNorms h step x) s = guarded "OPT_NORMS" (.optNorms h step x) s (doOptNorms h step x) := rfl
theorem exec_optAudit (h : Hdr) (first flags count : Nat) (digests : List (Nat × Nat × Nat)) (s : State) : exec (.optAudit h first flags count digests) s = guarded "OPT_AUDIT" (.optAudit h first flags count digests) s (doOptAudit h first flags count digests) := rfl
theorem exec_optHostDone (h : Hdr) (parcel attempt step : Nat) (s : State) : exec (.optHostDone h parcel attempt step) s = guarded "OPT_HOST_DONE" (.optHostDone h parcel attempt step) s (doOptHostDone h parcel attempt step) := rfl
theorem exec_capsuleSeal (h : Hdr) (first count : Nat) (recips : List (List Byte)) (x : DRef) (s : State) : exec (.capsuleSeal h first count recips x) s = guarded "CAPSULE_SEAL" (.capsuleSeal h first count recips x) s (doCapsuleSeal h first count recips x) := rfl
theorem exec_capsuleOpen (h : Hdr) (x : DRef) (s : State) : exec (.capsuleOpen h x) s = guarded "CAPSULE_OPEN" (.capsuleOpen h x) s (doCapsuleOpen h x) := rfl
theorem exec_telemRead (h : Hdr) (unit : Nat) (x : DRef) (s : State) : exec (.telemRead h unit x) s = guarded "TELEM_READ" (.telemRead h unit x) s (doTelemRead h unit x) := rfl
theorem exec_ledgerRead (h : Hdr) (first count flags : Nat) (x : DRef) (s : State) : exec (.ledgerRead h first count flags x) s = guarded "LEDGER_READ" (.ledgerRead h first count flags x) s (doLedgerRead h first count flags x) := rfl
theorem exec_meterRead (h : Hdr) (s : State) : exec (.meterRead h) s = guarded "METER_READ" (.meterRead h) s (doMeterRead h) := rfl
theorem exec_powerPolicy (h : Hdr) (cap share : Nat) (s : State) : exec (.powerPolicy h cap share) s = guarded "POWER_POLICY" (.powerPolicy h cap share) s (doPowerPolicy h cap share) := rfl
theorem exec_clockSet (h : Hdr) (mmin flags : Nat) (s : State) : exec (.clockSet h mmin flags) s = guarded "CLOCK_SET" (.clockSet h mmin flags) s (doClockSet h mmin flags) := rfl
theorem exec_patternLoad (h : Hdr) (slot : Nat) (x : DRef) (s : State) : exec (.patternLoad h slot x) s = guarded "PATTERN_LOAD" (.patternLoad h slot x) s (doPatternLoad h slot x) := rfl
theorem exec_testRun (h : Hdr) (unit slot corner : Nat) (x : DRef) (s : State) : exec (.testRun h unit slot corner x) s = guarded "TEST_RUN" (.testRun h unit slot corner x) s (doTestRun h unit slot corner x) := rfl
theorem exec_testAbort (h : Hdr) (unit : Nat) (s : State) : exec (.testAbort h unit) s = guarded "TEST_ABORT" (.testAbort h unit) s (doTestAbort h unit) := rfl
theorem exec_testUnitDone (unit : Nat) (t : TestFinds) (s : State) : exec (.testUnitDone unit t) s = guarded "TEST_UNIT_DONE" (.testUnitDone unit t) s (doTestUnitDone unit t) := rfl
theorem exec_testTimeLimit (unit : Nat) (s : State) : exec (.testTimeLimit unit) s = guarded "TEST_TIME_LIMIT" (.testTimeLimit unit) s (doTestTimeLimit unit) := rfl
theorem exec_logRead (h : Hdr) (first count : Nat) (x : DRef) (s : State) : exec (.logRead h first count x) s = guarded "LOG_READ" (.logRead h first count x) s (doLogRead h first count x) := rfl
theorem exec_logStatus (h : Hdr) (s : State) : exec (.logStatus h) s = guarded "LOG_STATUS" (.logStatus h) s (doLogStatus h) := rfl
theorem exec_traceConfig (h : Hdr) (unit flags start stop : Nat) (x : DRef) (s : State) : exec (.traceConfig h unit flags start stop x) s = guarded "TRACE_CONFIG" (.traceConfig h unit flags start stop x) s (doTraceConfig h unit flags start stop x) := rfl
theorem exec_traceWindowEnd (unit : Nat) (s : State) : exec (.traceWindowEnd unit) s = guarded "TRACE_WINDOW_END" (.traceWindowEnd unit) s (doTraceWindowEnd unit) := rfl
theorem exec_attest (h : Hdr) (nonce : List Byte) (x : DRef) (s : State) : exec (.attest h nonce x) s = guarded "ATTEST" (.attest h nonce x) s (doAttest h nonce x) := rfl
theorem exec_officerEnrol (h : Hdr) (slot : Nat) (key : List Byte) (blks : List SigBlk) (s : State) : exec (.officerEnrol h slot key blks) s = guarded "OFFICER_ENROL" (.officerEnrol h slot key blks) s (doOfficerEnrol h slot key blks) := rfl
theorem exec_officerRetire (h : Hdr) (slot : Nat) (blks : List SigBlk) (s : State) : exec (.officerRetire h slot blks) s = guarded "OFFICER_RETIRE" (.officerRetire h slot blks) s (doOfficerRetire h slot blks) := rfl
theorem exec_certRead (h : Hdr) (x : DRef) (s : State) : exec (.certRead h x) s = guarded "CERT_READ" (.certRead h x) s (doCertRead h x) := rfl
theorem exec_reset (h : Hdr) (level unit : Nat) (s : State) : exec (.reset h level unit) s = guarded "RESET" (.reset h level unit) s (doReset h level unit) := rfl
theorem exec_regionMapRead (h : Hdr) (x : DRef) (s : State) : exec (.regionMapRead h x) s = guarded "REGION_MAP_READ" (.regionMapRead h x) s (doRegionMapRead h x) := rfl
theorem exec_rimConfig (h : Hdr) (mask which rg rd : Nat) (s : State) : exec (.rimConfig h mask which rg rd) s = guarded "RIM_CONFIG" (.rimConfig h mask which rg rd) s (doRimConfig h mask which rg rd) := rfl
theorem exec_beatMode (h : Hdr) (mode flags delay : Nat) (s : State) : exec (.beatMode h mode flags delay) s = guarded "BEAT_MODE" (.beatMode h mode flags delay) s (doBeatMode h mode flags delay) := rfl
theorem exec_fwStage (h : Hdr) (x : DRef) (s : State) : exec (.fwStage h x) s = guarded "FW_STAGE" (.fwStage h x) s (doFwStage h x) := rfl
theorem exec_defectMapRead (h : Hdr) (x : DRef) (s : State) : exec (.defectMapRead h x) s = guarded "DEFECT_MAP_READ" (.defectMapRead h x) s (doDefectMapRead h x) := rfl
theorem exec_tileReset (tile : Nat) (s : State) : exec (.tileReset tile) s = guarded "TILE_RESET" (.tileReset tile) s (doTileReset tile) := rfl
theorem exec_clusterReset (region cluster : Nat) (s : State) : exec (.clusterReset region cluster) s = guarded "CLUSTER_RESET" (.clusterReset region cluster) s (doClusterReset region cluster) := rfl
theorem exec_partitionReset (ctx : Nat) (s : State) : exec (.partitionReset ctx) s = guarded "PARTITION_RESET" (.partitionReset ctx) s (doPartitionReset ctx) := rfl
theorem exec_moduleWarmReset (b : BootFinds) (s : State) : exec (.moduleWarmReset b) s = guarded "MODULE_WARM_RESET" (.moduleWarmReset b) s (doModuleWarmReset b) := rfl
theorem exec_coldBoot (b : BootFinds) (s : State) : exec (.coldBoot b) s = guarded "COLD_BOOT" (.coldBoot b) s (doColdBoot b) := rfl
theorem exec_keeperWatchdog (checkpoint pc lastFeed : Nat) (s : State) : exec (.keeperWatchdog checkpoint pc lastFeed) s = guarded "KEEPER_WATCHDOG" (.keeperWatchdog checkpoint pc lastFeed) s (doKeeperWatchdog checkpoint pc lastFeed) := rfl
theorem exec_computeDomainOn (region : Nat) (s : State) : exec (.computeDomainOn region) s = guarded "COMPUTE_DOMAIN_ON" (.computeDomainOn region) s (doComputeDomainOn region) := rfl
theorem exec_governorBeat (ins : List (Nat × Nat)) (cyc : Nat) (s : State) : exec (.governorBeat ins cyc) s = guarded "GOVERNOR_BEAT" (.governorBeat ins cyc) s (doGovernorBeat ins cyc) := rfl
theorem exec_inputOverpower (s : State) : exec (.inputOverpower) s = guarded "INPUT_OVERPOWER" (.inputOverpower) s (doInputOverpower) := rfl
theorem exec_aggregationWindowEnd (s : State) : exec (.aggregationWindowEnd) s = guarded "AGGREGATION_WINDOW_END" (.aggregationWindowEnd) s (doAggregationWindowEnd) := rfl
theorem exec_regionSensorSample (region : Nat) (smp : Sample) (droops : List Nat) (s : State) : exec (.regionSensorSample region smp droops) s = guarded "REGION_SENSOR_SAMPLE" (.regionSensorSample region smp droops) s (doRegionSensorSample region smp droops) := rfl
theorem exec_heatHigh (region : Nat) (s : State) : exec (.heatHigh region) s = guarded "HEAT_HIGH" (.heatHigh region) s (doHeatHigh region) := rfl
theorem exec_heatOffRecovery (region : Nat) (s : State) : exec (.heatOffRecovery region) s = guarded "HEAT_OFF_RECOVERY" (.heatOffRecovery region) s (doHeatOffRecovery region) := rfl
theorem exec_stackSensorSample (sc : Nat) (temp : Int) (s : State) : exec (.stackSensorSample sc temp) s = guarded "STACK_SENSOR_SAMPLE" (.stackSensorSample sc temp) s (doStackSensorSample sc temp) := rfl
theorem exec_coolantSample (inlet outlet : Int) (flow : Nat) (s : State) : exec (.coolantSample inlet outlet flow) s = guarded "COOLANT_SAMPLE" (.coolantSample inlet outlet flow) s (doCoolantSample inlet outlet flow) := rfl
theorem exec_coolantWaitTimeout (inlet : Int) (flow : Nat) (s : State) : exec (.coolantWaitTimeout inlet flow) s = guarded "COOLANT_WAIT_TIMEOUT" (.coolantWaitTimeout inlet flow) s (doCoolantWaitTimeout inlet flow) := rfl
theorem exec_repetition (idx : Nat) (r : Repeat) (s : State) : exec (.repetition idx r) s = guarded "REPETITION" (.repetition idx r) s (doRepetition idx r) := rfl
theorem exec_rcFault (region : Nat) (resetOk : Bool) (s : State) : exec (.rcFault region resetOk) s = guarded "RC_FAULT" (.rcFault region resetOk) s (doRcFault region resetOk) := rfl
theorem exec_rcSilent (region : Nat) (resetOk : Bool) (s : State) : exec (.rcSilent region resetOk) s = guarded "RC_SILENT" (.rcSilent region resetOk) s (doRcSilent region resetOk) := rfl
theorem exec_logRateWindowEnd (s : State) : exec (.logRateWindowEnd) s = guarded "LOG_RATE_WINDOW_END" (.logRateWindowEnd) s (doLogRateWindowEnd) := rfl
theorem exec_powerFailCapture (s : State) : exec (.powerFailCapture) s = guarded "POWER_FAIL_CAPTURE" (.powerFailCapture) s (doPowerFailCapture) := rfl
theorem exec_mgmtSessionOpen (id : Nat) (key : List Byte) (s : State) : exec (.mgmtSessionOpen id key) s = guarded "MGMT_SESSION_OPEN" (.mgmtSessionOpen id key) s (doMgmtSessionOpen id key) := rfl
theorem exec_modRstNRelease (ns : Nat) (s : State) : exec (.modRstNRelease ns) s = guarded "MOD_RST_N_RELEASE" (.modRstNRelease ns) s (doModRstNRelease ns) := rfl
theorem exec_pxSenseBreak (conn : Nat) (s : State) : exec (.pxSenseBreak conn) s = guarded "PX_SENSE_BREAK" (.pxSenseBreak conn) s (doPxSenseBreak conn) := rfl
theorem exec_inputValid (i v : Nat) (s : State) : exec (.inputValid i v) s = guarded "INPUT_VALID" (.inputValid i v) s (doInputValid i v) := rfl
theorem exec_inputOvervoltage (i v : Nat) (s : State) : exec (.inputOvervoltage i v) s = guarded "INPUT_OVERVOLTAGE" (.inputOvervoltage i v) s (doInputOvervoltage i v) := rfl
theorem exec_inputReclose (i v : Nat) (s : State) : exec (.inputReclose i v) s = guarded "INPUT_RECLOSE" (.inputReclose i v) s (doInputReclose i v) := rfl
theorem exec_inputOvercurrent (i amps held : Nat) (s : State) : exec (.inputOvercurrent i amps held) s = guarded "INPUT_OVERCURRENT" (.inputOvercurrent i amps held) s (doInputOvercurrent i amps held) := rfl
theorem exec_smbusReadIdentity (s : State) : exec (.smbusReadIdentity) s = guarded "SMBUS_READ_IDENTITY" (.smbusReadIdentity) s (doSmbusReadIdentity) := rfl
theorem exec_smbusReadStatus (s : State) : exec (.smbusReadStatus) s = guarded "SMBUS_READ_STATUS" (.smbusReadStatus) s (doSmbusReadStatus) := rfl
theorem exec_smbusResetArm (v : Nat) (s : State) : exec (.smbusResetArm v) s = guarded "SMBUS_RESET_ARM" (.smbusResetArm v) s (doSmbusResetArm v) := rfl
theorem exec_smbusResetArmExpiry (s : State) : exec (.smbusResetArmExpiry) s = guarded "SMBUS_RESET_ARM_EXPIRY" (.smbusResetArmExpiry) s (doSmbusResetArmExpiry) := rfl
theorem exec_smbusResetConfirm (v : Nat) (s : State) : exec (.smbusResetConfirm v) s = guarded "SMBUS_RESET_CONFIRM" (.smbusResetConfirm v) s (doSmbusResetConfirm v) := rfl
theorem exec_smbusSetIpv4 (v : List Byte) (s : State) : exec (.smbusSetIpv4 v) s = guarded "SMBUS_SET_IPV4" (.smbusSetIpv4 v) s (doSmbusSetIpv4 v) := rfl
theorem exec_smbusWriteSbCfg (v : Nat) (s : State) : exec (.smbusWriteSbCfg v) s = guarded "SMBUS_WRITE_SB_CFG" (.smbusWriteSbCfg v) s (doSmbusWriteSbCfg v) := rfl
theorem exec_smbusAlertResponse (sa1 sa0 : Bool) (s : State) : exec (.smbusAlertResponse sa1 sa0) s = guarded "SMBUS_ALERT_RESPONSE" (.smbusAlertResponse sa1 sa0) s (doSmbusAlertResponse sa1 sa0) := rfl
theorem exec_smbusLogIndices (s : State) : exec (.smbusLogIndices) s = guarded "SMBUS_LOG_INDICES" (.smbusLogIndices) s (doSmbusLogIndices) := rfl
theorem exec_smbusLogSelect (v : Nat) (s : State) : exec (.smbusLogSelect v) s = guarded "SMBUS_LOG_SELECT" (.smbusLogSelect v) s (doSmbusLogSelect v) := rfl
theorem exec_smbusLogReadLow (s : State) : exec (.smbusLogReadLow) s = guarded "SMBUS_LOG_READ_LOW" (.smbusLogReadLow) s (doSmbusLogReadLow) := rfl
theorem exec_smbusLogReadHigh (s : State) : exec (.smbusLogReadHigh) s = guarded "SMBUS_LOG_READ_HIGH" (.smbusLogReadHigh) s (doSmbusLogReadHigh) := rfl
theorem exec_inputLost (i v : Nat) (s : State) : exec (.inputLost i v) s = guarded "INPUT_LOST" (.inputLost i v) s (doInputLost i v) := rfl
theorem exec_transitSupplyLoss (region : Nat) (s : State) : exec (.transitSupplyLoss region) s = guarded "TRANSIT_SUPPLY_LOSS" (.transitSupplyLoss region) s (doTransitSupplyLoss region) := rfl
theorem exec_aux12vChange (present : Bool) (s : State) : exec (.aux12vChange present) s = guarded "AUX_12V_CHANGE" (.aux12vChange present) s (doAux12vChange present) := rfl
theorem exec_linkAckSend (n : Nat) (s : State) : exec (.linkAckSend n) s = guarded "LINK_ACK_SEND" (.linkAckSend n) s (doLinkAckSend n) := rfl
theorem exec_linkNarrowingComplete (n : Nat) (s : State) : exec (.linkNarrowingComplete n) s = guarded "LINK_NARROWING_COMPLETE" (.linkNarrowingComplete n) s (doLinkNarrowingComplete n) := rfl
theorem exec_mgmtPortLinkUp (s : State) : exec (.mgmtPortLinkUp) s = guarded "MGMT_PORT_LINK_UP" (.mgmtPortLinkUp) s (doMgmtPortLinkUp) := rfl

/-- A command is one effect in the frame that all share. -/
theorem exec_frame (c : Instr) : ∃ n f, ∀ s, exec c s = guarded n c s f := by
  cases c with
  | beatBoundary => exact ⟨_, _, exec_beatBoundary⟩
  | siteRemap region cluster => exact ⟨_, _, exec_siteRemap region cluster⟩
  | boundarySlip rx tx cyc => exact ⟨_, _, exec_boundarySlip rx tx cyc⟩
  | stretchOrder m beat cyc => exact ⟨_, _, exec_stretchOrder m beat cyc⟩
  | holdRequest ctx src cyc => exact ⟨_, _, exec_holdRequest ctx src cyc⟩
  | holdDecision ctx => exact ⟨_, _, exec_holdDecision ctx⟩
  | holdTimeout ctx => exact ⟨_, _, exec_holdTimeout ctx⟩
  | ptpAnchor time locked => exact ⟨_, _, exec_ptpAnchor time locked⟩
  | beatInLost => exact ⟨_, _, exec_beatInLost⟩
  | beatEpoch f beat => exact ⟨_, _, exec_beatEpoch f beat⟩
  | mcf h gang sati => exact ⟨_, _, exec_mcf h gang sati⟩
  | mld h f => exact ⟨_, _, exec_mld h f⟩
  | msw h => exact ⟨_, _, exec_msw h⟩
  | mst h f u => exact ⟨_, _, exec_mst h f u⟩
  | mdr h f => exact ⟨_, _, exec_mdr h f⟩
  | cvl h setting pb ag word => exact ⟨_, _, exec_cvl h setting pb ag word⟩
  | vcl h slot ag => exact ⟨_, _, exec_vcl h slot ag⟩
  | vrn h slot ovl => exact ⟨_, _, exec_vrn h slot ovl⟩
  | vsl h f => exact ⟨_, _, exec_vsl h f⟩
  | vsm h mask => exact ⟨_, _, exec_vsm h mask⟩
  | vrs h bank n ag => exact ⟨_, _, exec_vrs h bank n ag⟩
  | vrl h bank n ag => exact ⟨_, _, exec_vrl h bank n ag⟩
  | nop h cyc => exact ⟨_, _, exec_nop h cyc⟩
  | wcy h offset => exact ⟨_, _, exec_wcy h offset⟩
  | loop h f => exact ⟨_, _, exec_loop h f⟩
  | call h routine => exact ⟨_, _, exec_call h routine⟩
  | ret h => exact ⟨_, _, exec_ret h⟩
  | swp h => exact ⟨_, _, exec_swp h⟩
  | endI h => exact ⟨_, _, exec_endI h⟩
  | ags h f => exact ⟨_, _, exec_ags h f⟩
  | agi h f => exact ⟨_, _, exec_agi h f⟩
  | srd h reg ag => exact ⟨_, _, exec_srd h reg ag⟩
  | swr h reg v => exact ⟨_, _, exec_swr h reg v⟩
  | get h ch ag flits => exact ⟨_, _, exec_get h ch ag flits⟩
  | put h ch ag flits => exact ⟨_, _, exec_put h ch ag flits⟩
  | gth h f => exact ⟨_, _, exec_gth h f⟩
  | sct h f => exact ⟨_, _, exec_sct h f⟩
  | pgl h ch offset flits fin => exact ⟨_, _, exec_pgl h ch offset flits fin⟩
  | pageSwap tile => exact ⟨_, _, exec_pageSwap tile⟩
  | swapTimeout tile cyc => exact ⟨_, _, exec_swapTimeout tile cyc⟩
  | crossWait tile => exact ⟨_, _, exec_crossWait tile⟩
  | streamStall tile exe cyc => exact ⟨_, _, exec_streamStall tile exe cyc⟩
  | planStart tile => exact ⟨_, _, exec_planStart tile⟩
  | planEnd tile cyc => exact ⟨_, _, exec_planEnd tile cyc⟩
  | spPatrol tile => exact ⟨_, _, exec_spPatrol tile⟩
  | spCorrectionWriteback tile bank => exact ⟨_, _, exec_spCorrectionWriteback tile bank⟩
  | routerSlot pos entry cyc => exact ⟨_, _, exec_routerSlot pos entry cyc⟩
  | beatOrder dst ctx cyc => exact ⟨_, _, exec_beatOrder dst ctx cyc⟩
  | beatOrderLost dst ctx => exact ⟨_, _, exec_beatOrderLost dst ctx⟩
  | routeSwitch ctx => exact ⟨_, _, exec_routeSwitch ctx⟩
  | waggleResend hub next => exact ⟨_, _, exec_waggleResend hub next⟩
  | fenceOrder dst action ctx => exact ⟨_, _, exec_fenceOrder dst action ctx⟩
  | faultReport unit cls stamp => exact ⟨_, _, exec_faultReport unit cls stamp⟩
  | telemetry unit => exact ⟨_, _, exec_telemetry unit⟩
  | spRead tile src addr => exact ⟨_, _, exec_spRead tile src addr⟩
  | spWrite tile src addr word => exact ⟨_, _, exec_spWrite tile src addr word⟩
  | spReply tile dst => exact ⟨_, _, exec_spReply tile dst⟩
  | regRead tile src reg => exact ⟨_, _, exec_regRead tile src reg⟩
  | regWrite tile src reg v => exact ⟨_, _, exec_regWrite tile src reg v⟩
  | regReply tile dst => exact ⟨_, _, exec_regReply tile dst⟩
  | shortMsg tile seq words => exact ⟨_, _, exec_shortMsg tile seq words⟩
  | leaseGrant l reply => exact ⟨_, _, exec_leaseGrant l reply⟩
  | leaseRenew l reply => exact ⟨_, _, exec_leaseRenew l reply⟩
  | leaseRelease l => exact ⟨_, _, exec_leaseRelease l⟩
  | leaseReclaim l => exact ⟨_, _, exec_leaseReclaim l⟩
  | leaseExpired l => exact ⟨_, _, exec_leaseExpired l⟩
  | regulatorGrant sc => exact ⟨_, _, exec_regulatorGrant sc⟩
  | streamForecast sc ctx => exact ⟨_, _, exec_streamForecast sc ctx⟩
  | edgePortSlot sc port cyc outbound => exact ⟨_, _, exec_edgePortSlot sc port cyc outbound⟩
  | streamDeadline sc slot => exact ⟨_, _, exec_streamDeadline sc slot⟩
  | stackPatrol sc => exact ⟨_, _, exec_stackPatrol sc⟩
  | reduceDeadline sc n => exact ⟨_, _, exec_reduceDeadline sc n⟩
  | reductionForecast sc ctx => exact ⟨_, _, exec_reductionForecast sc ctx⟩
  | gradEgressSend sc ctx parcel => exact ⟨_, _, exec_gradEgressSend sc ctx parcel⟩
  | ownerBufferOpen sc ctx => exact ⟨_, _, exec_ownerBufferOpen sc ctx⟩
  | gradBlock f step attempt row b => exact ⟨_, _, exec_gradBlock f step attempt row b⟩
  | gradClose f parcel step attempt dense nf rows => exact ⟨_, _, exec_gradClose f parcel step attempt dense nf rows⟩
  | parcelCredit f step attempt sc ordinal => exact ⟨_, _, exec_parcelCredit f step attempt sc ordinal⟩
  | ripenerUpdate sc ctx parcel => exact ⟨_, _, exec_ripenerUpdate sc ctx parcel⟩
  | mirror f p data => exact ⟨_, _, exec_mirror f p data⟩
  | mirrorAck f parcel step attempt status => exact ⟨_, _, exec_mirrorAck f parcel step attempt status⟩
  | mirrorTimeout ctx parcel => exact ⟨_, _, exec_mirrorTimeout ctx parcel⟩
  | allgather f p data => exact ⟨_, _, exec_allgather f p data⟩
  | hostUpdateTimeout ctx parcel => exact ⟨_, _, exec_hostUpdateTimeout ctx parcel⟩
  | capsule f transfer off total data => exact ⟨_, _, exec_capsule f transfer off total data⟩
  | capsuleAck f transfer units status => exact ⟨_, _, exec_capsuleAck f transfer units status⟩
  | link n ack nak credits bad => exact ⟨_, _, exec_link n ack nak credits bad⟩
  | linkRetrainInService n fecWindow => exact ⟨_, _, exec_linkRetrainInService n fecWindow⟩
  | linkRetrainComplete n t => exact ⟨_, _, exec_linkRetrainComplete n t⟩
  | fabricCreditStall n vc => exact ⟨_, _, exec_fabricCreditStall n vc⟩
  | hello n pod pos plink pidh => exact ⟨_, _, exec_hello n pod pos plink pidh⟩
  | stepStartMessage f step attempt scale freeze => exact ⟨_, _, exec_stepStartMessage f step attempt scale freeze⟩
  | stepSyncTimeout ctx => exact ⟨_, _, exec_stepSyncTimeout ctx⟩
  | norm f step v => exact ⟨_, _, exec_norm f step v⟩
  | headroom f share power offer => exact ⟨_, _, exec_headroom f share power offer⟩
  | headroomSend cyc => exact ⟨_, _, exec_headroomSend cyc⟩
  | podAllowanceHoldEnd => exact ⟨_, _, exec_podAllowanceHoldEnd⟩
  | headroomTimeout pos => exact ⟨_, _, exec_headroomTimeout pos⟩
  | restoreRequest f pos mask => exact ⟨_, _, exec_restoreRequest f pos mask⟩
  | restoreDone f pos last cur seed attempt gnorm units counts => exact ⟨_, _, exec_restoreDone f pos last cur seed attempt gnorm units counts⟩
  | moduleLost pos => exact ⟨_, _, exec_moduleLost pos⟩
  | systemRingStart cprod qcons readable => exact ⟨_, _, exec_systemRingStart cprod qcons readable⟩
  | systemRingStop => exact ⟨_, _, exec_systemRingStop⟩
  | systemRingStopDone => exact ⟨_, _, exec_systemRingStopDone⟩
  | registerWrite off len value => exact ⟨_, _, exec_registerWrite off len value⟩
  | headLineSnoop ctx cyc cprod qcons readable undef => exact ⟨_, _, exec_headLineSnoop ctx cyc cprod qcons readable undef⟩
  | headLineReread ctx cyc cprod qcons readable undef => exact ⟨_, _, exec_headLineReread ctx cyc cprod qcons readable undef⟩
  | farPageRequestRepost ctx ext page => exact ⟨_, _, exec_farPageRequestRepost ctx ext page⟩
  | msixUnmask vec => exact ⟨_, _, exec_msixUnmask vec⟩
  | hdmDecoderCommit ways => exact ⟨_, _, exec_hdmDecoderCommit ways⟩
  | windowRead addr => exact ⟨_, _, exec_windowRead addr⟩
  | windowWrite addr enable data => exact ⟨_, _, exec_windowWrite addr enable data⟩
  | hostLinkReset => exact ⟨_, _, exec_hostLinkReset⟩
  | ctxOpen h d => exact ⟨_, _, exec_ctxOpen h d⟩
  | ctxClose h => exact ⟨_, _, exec_ctxClose h⟩
  | ctxFence h gen b => exact ⟨_, _, exec_ctxFence h gen b⟩
  | ctxRead h first count x => exact ⟨_, _, exec_ctxRead h first count x⟩
  | regionBind h region flags => exact ⟨_, _, exec_regionBind h region flags⟩
  | extentCreate h sc kind flags pages pair => exact ⟨_, _, exec_extentCreate h sc kind flags pages pair⟩
  | extentBind h ext flags => exact ⟨_, _, exec_extentBind h ext flags⟩
  | slotBind h stream flags => exact ⟨_, _, exec_slotBind h stream flags⟩
  | groupBind h blk flags => exact ⟨_, _, exec_groupBind h blk flags⟩
  | bindingEffect kind idx => exact ⟨_, _, exec_bindingEffect kind idx⟩
  | protChange h ctx gen n0 n1 n2 n3 blks => exact ⟨_, _, exec_protChange h ctx gen n0 n1 n2 n3 blks⟩
  | pageMapFar h ext page flags addr => exact ⟨_, _, exec_pageMapFar h ext page flags addr⟩
  | pageRetire h ext page => exact ⟨_, _, exec_pageRetire h ext page⟩
  | extentCopy h src dst soff doff len => exact ⟨_, _, exec_extentCopy h src dst soff doff len⟩
  | streamArm h stream d => exact ⟨_, _, exec_streamArm h stream d⟩
  | streamResume h stream => exact ⟨_, _, exec_streamResume h stream⟩
  | streamAbort h stream => exact ⟨_, _, exec_streamAbort h stream⟩
  | streamStatus h first count x => exact ⟨_, _, exec_streamStatus h first count x⟩
  | spMapLoad h m => exact ⟨_, _, exec_spMapLoad h m⟩
  | libLoad h x => exact ⟨_, _, exec_libLoad h x⟩
  | planLoad h x => exact ⟨_, _, exec_planLoad h x⟩
  | planFree h handle => exact ⟨_, _, exec_planFree h handle⟩
  | planRun h handle => exact ⟨_, _, exec_planRun h handle⟩
  | planAbort h => exact ⟨_, _, exec_planAbort h⟩
  | stepStart h step seed tokens lr handle => exact ⟨_, _, exec_stepStart h step seed tokens lr handle⟩
  | stepBegin ctx => exact ⟨_, _, exec_stepBegin ctx⟩
  | stepComplete ctx => exact ⟨_, _, exec_stepComplete ctx⟩
  | evalStart h handle tokens seed => exact ⟨_, _, exec_evalStart h handle tokens seed⟩
  | stepStatus h => exact ⟨_, _, exec_stepStatus h⟩
  | fabricTopology h x => exact ⟨_, _, exec_fabricTopology h x⟩
  | podConfig h x => exact ⟨_, _, exec_podConfig h x⟩
  | linkWidth h n v => exact ⟨_, _, exec_linkWidth h n v⟩
  | linkRetrain h n => exact ⟨_, _, exec_linkRetrain h n⟩
  | optConfig h flags hr sat down => exact ⟨_, _, exec_optConfig h flags hr sat down⟩
  | optParcelMap h count x => exact ⟨_, _, exec_optParcelMap h count x⟩
  | optScaleLoad h first tables count x => exact ⟨_, _, exec_optScaleLoad h first tables count x⟩
  | optGroup h group r => exact ⟨_, _, exec_optGroup h group r⟩
  | optFreeze h count x => exact ⟨_, _, exec_optFreeze h count x⟩
  | optStateInit h first flags count x => exact ⟨_, _, exec_optStateInit h first flags count x⟩
  | optNorms h step x => exact ⟨_, _, exec_optNorms h step x⟩
  | optAudit h first flags count digests => exact ⟨_, _, exec_optAudit h first flags count digests⟩
  | optHostDone h parcel attempt step => exact ⟨_, _, exec_optHostDone h parcel attempt step⟩
  | capsuleSeal h first count recips x => exact ⟨_, _, exec_capsuleSeal h first count recips x⟩
  | capsuleOpen h x => exact ⟨_, _, exec_capsuleOpen h x⟩
  | telemRead h unit x => exact ⟨_, _, exec_telemRead h unit x⟩
  | ledgerRead h first count flags x => exact ⟨_, _, exec_ledgerRead h first count flags x⟩
  | meterRead h => exact ⟨_, _, exec_meterRead h⟩
  | powerPolicy h cap share => exact ⟨_, _, exec_powerPolicy h cap share⟩
  | clockSet h mmin flags => exact ⟨_, _, exec_clockSet h mmin flags⟩
  | patternLoad h slot x => exact ⟨_, _, exec_patternLoad h slot x⟩
  | testRun h unit slot corner x => exact ⟨_, _, exec_testRun h unit slot corner x⟩
  | testAbort h unit => exact ⟨_, _, exec_testAbort h unit⟩
  | testUnitDone unit t => exact ⟨_, _, exec_testUnitDone unit t⟩
  | testTimeLimit unit => exact ⟨_, _, exec_testTimeLimit unit⟩
  | logRead h first count x => exact ⟨_, _, exec_logRead h first count x⟩
  | logStatus h => exact ⟨_, _, exec_logStatus h⟩
  | traceConfig h unit flags start stop x => exact ⟨_, _, exec_traceConfig h unit flags start stop x⟩
  | traceWindowEnd unit => exact ⟨_, _, exec_traceWindowEnd unit⟩
  | attest h nonce x => exact ⟨_, _, exec_attest h nonce x⟩
  | officerEnrol h slot key blks => exact ⟨_, _, exec_officerEnrol h slot key blks⟩
  | officerRetire h slot blks => exact ⟨_, _, exec_officerRetire h slot blks⟩
  | certRead h x => exact ⟨_, _, exec_certRead h x⟩
  | reset h level unit => exact ⟨_, _, exec_reset h level unit⟩
  | regionMapRead h x => exact ⟨_, _, exec_regionMapRead h x⟩
  | rimConfig h mask which rg rd => exact ⟨_, _, exec_rimConfig h mask which rg rd⟩
  | beatMode h mode flags delay => exact ⟨_, _, exec_beatMode h mode flags delay⟩
  | fwStage h x => exact ⟨_, _, exec_fwStage h x⟩
  | defectMapRead h x => exact ⟨_, _, exec_defectMapRead h x⟩
  | tileReset tile => exact ⟨_, _, exec_tileReset tile⟩
  | clusterReset region cluster => exact ⟨_, _, exec_clusterReset region cluster⟩
  | partitionReset ctx => exact ⟨_, _, exec_partitionReset ctx⟩
  | moduleWarmReset b => exact ⟨_, _, exec_moduleWarmReset b⟩
  | coldBoot b => exact ⟨_, _, exec_coldBoot b⟩
  | keeperWatchdog checkpoint pc lastFeed => exact ⟨_, _, exec_keeperWatchdog checkpoint pc lastFeed⟩
  | computeDomainOn region => exact ⟨_, _, exec_computeDomainOn region⟩
  | governorBeat ins cyc => exact ⟨_, _, exec_governorBeat ins cyc⟩
  | inputOverpower => exact ⟨_, _, exec_inputOverpower⟩
  | aggregationWindowEnd => exact ⟨_, _, exec_aggregationWindowEnd⟩
  | regionSensorSample region smp droops => exact ⟨_, _, exec_regionSensorSample region smp droops⟩
  | heatHigh region => exact ⟨_, _, exec_heatHigh region⟩
  | heatOffRecovery region => exact ⟨_, _, exec_heatOffRecovery region⟩
  | stackSensorSample sc temp => exact ⟨_, _, exec_stackSensorSample sc temp⟩
  | coolantSample inlet outlet flow => exact ⟨_, _, exec_coolantSample inlet outlet flow⟩
  | coolantWaitTimeout inlet flow => exact ⟨_, _, exec_coolantWaitTimeout inlet flow⟩
  | repetition idx r => exact ⟨_, _, exec_repetition idx r⟩
  | rcFault region resetOk => exact ⟨_, _, exec_rcFault region resetOk⟩
  | rcSilent region resetOk => exact ⟨_, _, exec_rcSilent region resetOk⟩
  | logRateWindowEnd => exact ⟨_, _, exec_logRateWindowEnd⟩
  | powerFailCapture => exact ⟨_, _, exec_powerFailCapture⟩
  | mgmtSessionOpen id key => exact ⟨_, _, exec_mgmtSessionOpen id key⟩
  | modRstNRelease ns => exact ⟨_, _, exec_modRstNRelease ns⟩
  | pxSenseBreak conn => exact ⟨_, _, exec_pxSenseBreak conn⟩
  | inputValid inp v => exact ⟨_, _, exec_inputValid inp v⟩
  | inputOvervoltage inp v => exact ⟨_, _, exec_inputOvervoltage inp v⟩
  | inputReclose inp v => exact ⟨_, _, exec_inputReclose inp v⟩
  | inputOvercurrent inp amps held => exact ⟨_, _, exec_inputOvercurrent inp amps held⟩
  | smbusReadIdentity => exact ⟨_, _, exec_smbusReadIdentity⟩
  | smbusReadStatus => exact ⟨_, _, exec_smbusReadStatus⟩
  | smbusResetArm v => exact ⟨_, _, exec_smbusResetArm v⟩
  | smbusResetArmExpiry => exact ⟨_, _, exec_smbusResetArmExpiry⟩
  | smbusResetConfirm v => exact ⟨_, _, exec_smbusResetConfirm v⟩
  | smbusSetIpv4 v => exact ⟨_, _, exec_smbusSetIpv4 v⟩
  | smbusWriteSbCfg v => exact ⟨_, _, exec_smbusWriteSbCfg v⟩
  | smbusAlertResponse sa1 sa0 => exact ⟨_, _, exec_smbusAlertResponse sa1 sa0⟩
  | smbusLogIndices => exact ⟨_, _, exec_smbusLogIndices⟩
  | smbusLogSelect v => exact ⟨_, _, exec_smbusLogSelect v⟩
  | smbusLogReadLow => exact ⟨_, _, exec_smbusLogReadLow⟩
  | smbusLogReadHigh => exact ⟨_, _, exec_smbusLogReadHigh⟩
  | inputLost inp v => exact ⟨_, _, exec_inputLost inp v⟩
  | transitSupplyLoss region => exact ⟨_, _, exec_transitSupplyLoss region⟩
  | aux12vChange present => exact ⟨_, _, exec_aux12vChange present⟩
  | linkAckSend n => exact ⟨_, _, exec_linkAckSend n⟩
  | linkNarrowingComplete n => exact ⟨_, _, exec_linkNarrowingComplete n⟩
  | mgmtPortLinkUp => exact ⟨_, _, exec_mgmtPortLinkUp⟩
/-- Every other command keeps the queue, the beat number, the clock period, the identity, the minimum SVN and the officers. -/
theorem exec_kept {c : Instr} {s t : State} (hc : movesKept c = false) (h : exec c s = .next t) : t.kept = s.kept := by
  cases c with
  | beatBoundary => simp [movesKept] at hc
  | siteRemap region cluster => rw [exec_siteRemap] at h; obtain ⟨-, -, rfl⟩ := guarded_next h; simp
  | boundarySlip rx tx cyc => rw [exec_boundarySlip] at h; obtain ⟨-, -, rfl⟩ := guarded_next h; simp
  | stretchOrder m beat cyc => simp [movesKept] at hc
  | holdRequest ctx src cyc => rw [exec_holdRequest] at h; obtain ⟨-, -, rfl⟩ := guarded_next h; simp
  | holdDecision ctx => rw [exec_holdDecision] at h; obtain ⟨-, -, rfl⟩ := guarded_next h; simp
  | holdTimeout ctx => rw [exec_holdTimeout] at h; obtain ⟨-, -, rfl⟩ := guarded_next h; simp
  | ptpAnchor time locked => rw [exec_ptpAnchor] at h; obtain ⟨-, -, rfl⟩ := guarded_next h; simp
  | beatInLost => rw [exec_beatInLost] at h; obtain ⟨-, -, rfl⟩ := guarded_next h; simp
  | beatEpoch f beat => simp [movesKept] at hc
  | mcf h gang sati => rw [exec_mcf] at h; obtain ⟨-, -, rfl⟩ := guarded_next h; simp
  | mld h f => rw [exec_mld] at h; obtain ⟨-, -, rfl⟩ := guarded_next h; simp
  | msw h => rw [exec_msw] at h; obtain ⟨-, -, rfl⟩ := guarded_next h; simp
  | mst h f u => rw [exec_mst] at h; obtain ⟨-, -, rfl⟩ := guarded_next h; simp
  | mdr h f => rw [exec_mdr] at h; obtain ⟨-, -, rfl⟩ := guarded_next h; simp
  | cvl h setting pb ag word => rw [exec_cvl] at h; obtain ⟨-, -, rfl⟩ := guarded_next h; simp
  | vcl h slot ag => rw [exec_vcl] at h; obtain ⟨-, -, rfl⟩ := guarded_next h; simp
  | vrn h slot ovl => rw [exec_vrn] at h; obtain ⟨-, -, rfl⟩ := guarded_next h; simp
  | vsl h f => rw [exec_vsl] at h; obtain ⟨-, -, rfl⟩ := guarded_next h; simp
  | vsm h mask => rw [exec_vsm] at h; obtain ⟨-, -, rfl⟩ := guarded_next h; simp
  | vrs h bank n ag => rw [exec_vrs] at h; obtain ⟨-, -, rfl⟩ := guarded_next h; simp
  | vrl h bank n ag => rw [exec_vrl] at h; obtain ⟨-, -, rfl⟩ := guarded_next h; simp
  | nop h cyc => rw [exec_nop] at h; obtain ⟨-, -, rfl⟩ := guarded_next h; simp
  | wcy h offset => rw [exec_wcy] at h; obtain ⟨-, -, rfl⟩ := guarded_next h; simp
  | loop h f => rw [exec_loop] at h; obtain ⟨-, -, rfl⟩ := guarded_next h; simp
  | call h routine => rw [exec_call] at h; obtain ⟨-, -, rfl⟩ := guarded_next h; simp
  | ret h => rw [exec_ret] at h; obtain ⟨-, -, rfl⟩ := guarded_next h; simp
  | swp h => rw [exec_swp] at h; obtain ⟨-, -, rfl⟩ := guarded_next h; simp
  | endI h => rw [exec_endI] at h; obtain ⟨-, -, rfl⟩ := guarded_next h; simp
  | ags h f => rw [exec_ags] at h; obtain ⟨-, -, rfl⟩ := guarded_next h; simp
  | agi h f => rw [exec_agi] at h; obtain ⟨-, -, rfl⟩ := guarded_next h; simp
  | srd h reg ag => rw [exec_srd] at h; obtain ⟨-, -, rfl⟩ := guarded_next h; simp
  | swr h reg v => rw [exec_swr] at h; obtain ⟨-, -, rfl⟩ := guarded_next h; simp
  | get h ch ag flits => rw [exec_get] at h; obtain ⟨-, -, rfl⟩ := guarded_next h; simp
  | put h ch ag flits => rw [exec_put] at h; obtain ⟨-, -, rfl⟩ := guarded_next h; simp
  | gth h f => rw [exec_gth] at h; obtain ⟨-, -, rfl⟩ := guarded_next h; simp
  | sct h f => rw [exec_sct] at h; obtain ⟨-, -, rfl⟩ := guarded_next h; simp
  | pgl h ch offset flits fin => rw [exec_pgl] at h; obtain ⟨-, -, rfl⟩ := guarded_next h; simp
  | pageSwap tile => rw [exec_pageSwap] at h; obtain ⟨-, -, rfl⟩ := guarded_next h; simp
  | swapTimeout tile cyc => rw [exec_swapTimeout] at h; obtain ⟨-, -, rfl⟩ := guarded_next h; simp
  | crossWait tile => rw [exec_crossWait] at h; obtain ⟨-, -, rfl⟩ := guarded_next h; simp
  | streamStall tile exe cyc => rw [exec_streamStall] at h; obtain ⟨-, -, rfl⟩ := guarded_next h; simp
  | planStart tile => rw [exec_planStart] at h; obtain ⟨-, -, rfl⟩ := guarded_next h; simp
  | planEnd tile cyc => rw [exec_planEnd] at h; obtain ⟨-, -, rfl⟩ := guarded_next h; simp
  | spPatrol tile => rw [exec_spPatrol] at h; obtain ⟨-, -, rfl⟩ := guarded_next h; simp
  | spCorrectionWriteback tile bank => rw [exec_spCorrectionWriteback] at h; obtain ⟨-, -, rfl⟩ := guarded_next h; simp
  | routerSlot pos entry cyc => rw [exec_routerSlot] at h; obtain ⟨-, -, rfl⟩ := guarded_next h; simp
  | beatOrder dst ctx cyc => rw [exec_beatOrder] at h; obtain ⟨-, -, rfl⟩ := guarded_next h; simp
  | beatOrderLost dst ctx => rw [exec_beatOrderLost] at h; obtain ⟨-, -, rfl⟩ := guarded_next h; simp
  | routeSwitch ctx => rw [exec_routeSwitch] at h; obtain ⟨-, -, rfl⟩ := guarded_next h; simp
  | waggleResend hub next => rw [exec_waggleResend] at h; obtain ⟨-, -, rfl⟩ := guarded_next h; simp
  | fenceOrder dst action ctx => rw [exec_fenceOrder] at h; obtain ⟨-, -, rfl⟩ := guarded_next h; simp
  | faultReport unit cls stamp => rw [exec_faultReport] at h; obtain ⟨-, -, rfl⟩ := guarded_next h; simp
  | telemetry unit => rw [exec_telemetry] at h; obtain ⟨-, -, rfl⟩ := guarded_next h; simp
  | spRead tile src addr => rw [exec_spRead] at h; obtain ⟨-, -, rfl⟩ := guarded_next h; simp
  | spWrite tile src addr word => rw [exec_spWrite] at h; obtain ⟨-, -, rfl⟩ := guarded_next h; simp
  | spReply tile dst => rw [exec_spReply] at h; obtain ⟨-, -, rfl⟩ := guarded_next h; simp
  | regRead tile src reg => rw [exec_regRead] at h; obtain ⟨-, -, rfl⟩ := guarded_next h; simp
  | regWrite tile src reg v => rw [exec_regWrite] at h; obtain ⟨-, -, rfl⟩ := guarded_next h; simp
  | regReply tile dst => rw [exec_regReply] at h; obtain ⟨-, -, rfl⟩ := guarded_next h; simp
  | shortMsg tile seq words => rw [exec_shortMsg] at h; obtain ⟨-, -, rfl⟩ := guarded_next h; simp
  | leaseGrant l reply => rw [exec_leaseGrant] at h; obtain ⟨-, -, rfl⟩ := guarded_next h; simp
  | leaseRenew l reply => rw [exec_leaseRenew] at h; obtain ⟨-, -, rfl⟩ := guarded_next h; simp
  | leaseRelease l => rw [exec_leaseRelease] at h; obtain ⟨-, -, rfl⟩ := guarded_next h; simp
  | leaseReclaim l => rw [exec_leaseReclaim] at h; obtain ⟨-, -, rfl⟩ := guarded_next h; simp
  | leaseExpired l => rw [exec_leaseExpired] at h; obtain ⟨-, -, rfl⟩ := guarded_next h; simp
  | regulatorGrant sc => rw [exec_regulatorGrant] at h; obtain ⟨-, -, rfl⟩ := guarded_next h; simp
  | streamForecast sc ctx => rw [exec_streamForecast] at h; obtain ⟨-, -, rfl⟩ := guarded_next h; simp
  | edgePortSlot sc port cyc outbound => rw [exec_edgePortSlot] at h; obtain ⟨-, -, rfl⟩ := guarded_next h; simp
  | streamDeadline sc slot => rw [exec_streamDeadline] at h; obtain ⟨-, -, rfl⟩ := guarded_next h; simp
  | stackPatrol sc => rw [exec_stackPatrol] at h; obtain ⟨-, -, rfl⟩ := guarded_next h; simp
  | reduceDeadline sc n => rw [exec_reduceDeadline] at h; obtain ⟨-, -, rfl⟩ := guarded_next h; simp
  | reductionForecast sc ctx => rw [exec_reductionForecast] at h; obtain ⟨-, -, rfl⟩ := guarded_next h; simp
  | gradEgressSend sc ctx parcel => rw [exec_gradEgressSend] at h; obtain ⟨-, -, rfl⟩ := guarded_next h; simp
  | ownerBufferOpen sc ctx => rw [exec_ownerBufferOpen] at h; obtain ⟨-, -, rfl⟩ := guarded_next h; simp
  | gradBlock f step attempt row b => rw [exec_gradBlock] at h; obtain ⟨-, -, rfl⟩ := guarded_next h; simp
  | gradClose f parcel step attempt dense nf rows => rw [exec_gradClose] at h; obtain ⟨-, -, rfl⟩ := guarded_next h; simp
  | parcelCredit f step attempt sc ordinal => rw [exec_parcelCredit] at h; obtain ⟨-, -, rfl⟩ := guarded_next h; simp
  | ripenerUpdate sc ctx parcel => rw [exec_ripenerUpdate] at h; obtain ⟨-, -, rfl⟩ := guarded_next h; simp
  | mirror f p data => rw [exec_mirror] at h; obtain ⟨-, -, rfl⟩ := guarded_next h; simp
  | mirrorAck f parcel step attempt status => rw [exec_mirrorAck] at h; obtain ⟨-, -, rfl⟩ := guarded_next h; simp
  | mirrorTimeout ctx parcel => rw [exec_mirrorTimeout] at h; obtain ⟨-, -, rfl⟩ := guarded_next h; simp
  | allgather f p data => rw [exec_allgather] at h; obtain ⟨-, -, rfl⟩ := guarded_next h; simp
  | hostUpdateTimeout ctx parcel => rw [exec_hostUpdateTimeout] at h; obtain ⟨-, -, rfl⟩ := guarded_next h; simp
  | capsule f transfer off total data => rw [exec_capsule] at h; obtain ⟨-, -, rfl⟩ := guarded_next h; simp
  | capsuleAck f transfer units status => rw [exec_capsuleAck] at h; obtain ⟨-, -, rfl⟩ := guarded_next h; simp
  | link n ack nak credits bad => rw [exec_link] at h; obtain ⟨-, -, rfl⟩ := guarded_next h; simp
  | linkRetrainInService n fecWindow => rw [exec_linkRetrainInService] at h; obtain ⟨-, -, rfl⟩ := guarded_next h; simp
  | linkRetrainComplete n t => rw [exec_linkRetrainComplete] at h; obtain ⟨-, -, rfl⟩ := guarded_next h; simp
  | fabricCreditStall n vc => rw [exec_fabricCreditStall] at h; obtain ⟨-, -, rfl⟩ := guarded_next h; simp
  | hello n pod pos plink pidh => rw [exec_hello] at h; obtain ⟨-, -, rfl⟩ := guarded_next h; simp
  | stepStartMessage f step attempt scale freeze => rw [exec_stepStartMessage] at h; obtain ⟨-, -, rfl⟩ := guarded_next h; simp
  | stepSyncTimeout ctx => rw [exec_stepSyncTimeout] at h; obtain ⟨-, -, rfl⟩ := guarded_next h; simp
  | norm f step v => rw [exec_norm] at h; obtain ⟨-, -, rfl⟩ := guarded_next h; simp
  | headroom f share power offer => rw [exec_headroom] at h; obtain ⟨-, -, rfl⟩ := guarded_next h; simp
  | headroomSend cyc => rw [exec_headroomSend] at h; obtain ⟨-, -, rfl⟩ := guarded_next h; simp
  | podAllowanceHoldEnd => rw [exec_podAllowanceHoldEnd] at h; obtain ⟨-, -, rfl⟩ := guarded_next h; simp
  | headroomTimeout pos => rw [exec_headroomTimeout] at h; obtain ⟨-, -, rfl⟩ := guarded_next h; simp
  | restoreRequest f pos mask => rw [exec_restoreRequest] at h; obtain ⟨-, -, rfl⟩ := guarded_next h; simp
  | restoreDone f pos last cur seed attempt gnorm units counts => rw [exec_restoreDone] at h; obtain ⟨-, -, rfl⟩ := guarded_next h; simp
  | moduleLost pos => rw [exec_moduleLost] at h; obtain ⟨-, -, rfl⟩ := guarded_next h; simp
  | systemRingStart cprod qcons readable => rw [exec_systemRingStart] at h; obtain ⟨-, -, rfl⟩ := guarded_next h; simp
  | systemRingStop => rw [exec_systemRingStop] at h; obtain ⟨-, -, rfl⟩ := guarded_next h; simp
  | systemRingStopDone => rw [exec_systemRingStopDone] at h; obtain ⟨-, -, rfl⟩ := guarded_next h; simp
  | registerWrite off len value => rw [exec_registerWrite] at h; obtain ⟨-, -, rfl⟩ := guarded_next h; simp
  | headLineSnoop ctx cyc cprod qcons readable undef => rw [exec_headLineSnoop] at h; obtain ⟨-, -, rfl⟩ := guarded_next h; simp
  | headLineReread ctx cyc cprod qcons readable undef => rw [exec_headLineReread] at h; obtain ⟨-, -, rfl⟩ := guarded_next h; simp
  | farPageRequestRepost ctx ext page => rw [exec_farPageRequestRepost] at h; obtain ⟨-, -, rfl⟩ := guarded_next h; simp
  | msixUnmask vec => rw [exec_msixUnmask] at h; obtain ⟨-, -, rfl⟩ := guarded_next h; simp
  | hdmDecoderCommit ways => rw [exec_hdmDecoderCommit] at h; obtain ⟨-, -, rfl⟩ := guarded_next h; simp
  | windowRead addr => rw [exec_windowRead] at h; obtain ⟨-, -, rfl⟩ := guarded_next h; simp
  | windowWrite addr enable data => rw [exec_windowWrite] at h; obtain ⟨-, -, rfl⟩ := guarded_next h; simp
  | hostLinkReset => rw [exec_hostLinkReset] at h; obtain ⟨-, -, rfl⟩ := guarded_next h; simp
  | ctxOpen h d => rw [exec_ctxOpen] at h; obtain ⟨-, -, rfl⟩ := guarded_next h; simp
  | ctxClose h => rw [exec_ctxClose] at h; obtain ⟨-, -, rfl⟩ := guarded_next h; simp
  | ctxFence h gen b => rw [exec_ctxFence] at h; obtain ⟨-, -, rfl⟩ := guarded_next h; simp
  | ctxRead h first count x => rw [exec_ctxRead] at h; obtain ⟨-, -, rfl⟩ := guarded_next h; simp
  | regionBind h region flags => rw [exec_regionBind] at h; obtain ⟨-, -, rfl⟩ := guarded_next h; simp
  | extentCreate h sc kind flags pages pair => rw [exec_extentCreate] at h; obtain ⟨-, -, rfl⟩ := guarded_next h; simp
  | extentBind h ext flags => rw [exec_extentBind] at h; obtain ⟨-, -, rfl⟩ := guarded_next h; simp
  | slotBind h stream flags => rw [exec_slotBind] at h; obtain ⟨-, -, rfl⟩ := guarded_next h; simp
  | groupBind h blk flags => rw [exec_groupBind] at h; obtain ⟨-, -, rfl⟩ := guarded_next h; simp
  | bindingEffect kind idx => rw [exec_bindingEffect] at h; obtain ⟨-, -, rfl⟩ := guarded_next h; simp
  | protChange h ctx gen n0 n1 n2 n3 blks => rw [exec_protChange] at h; obtain ⟨-, -, rfl⟩ := guarded_next h; simp
  | pageMapFar h ext page flags addr => rw [exec_pageMapFar] at h; obtain ⟨-, -, rfl⟩ := guarded_next h; simp
  | pageRetire h ext page => rw [exec_pageRetire] at h; obtain ⟨-, -, rfl⟩ := guarded_next h; simp
  | extentCopy h src dst soff doff len => rw [exec_extentCopy] at h; obtain ⟨-, -, rfl⟩ := guarded_next h; simp
  | streamArm h stream d => rw [exec_streamArm] at h; obtain ⟨-, -, rfl⟩ := guarded_next h; simp
  | streamResume h stream => rw [exec_streamResume] at h; obtain ⟨-, -, rfl⟩ := guarded_next h; simp
  | streamAbort h stream => rw [exec_streamAbort] at h; obtain ⟨-, -, rfl⟩ := guarded_next h; simp
  | streamStatus h first count x => rw [exec_streamStatus] at h; obtain ⟨-, -, rfl⟩ := guarded_next h; simp
  | spMapLoad h m => rw [exec_spMapLoad] at h; obtain ⟨-, -, rfl⟩ := guarded_next h; simp
  | libLoad h x => rw [exec_libLoad] at h; obtain ⟨-, -, rfl⟩ := guarded_next h; simp
  | planLoad h x => rw [exec_planLoad] at h; obtain ⟨-, -, rfl⟩ := guarded_next h; simp
  | planFree h handle => rw [exec_planFree] at h; obtain ⟨-, -, rfl⟩ := guarded_next h; simp
  | planRun h handle => rw [exec_planRun] at h; obtain ⟨-, -, rfl⟩ := guarded_next h; simp
  | planAbort h => rw [exec_planAbort] at h; obtain ⟨-, -, rfl⟩ := guarded_next h; simp
  | stepStart h step seed tokens lr handle => rw [exec_stepStart] at h; obtain ⟨-, -, rfl⟩ := guarded_next h; simp
  | stepBegin ctx => rw [exec_stepBegin] at h; obtain ⟨-, -, rfl⟩ := guarded_next h; simp
  | stepComplete ctx => rw [exec_stepComplete] at h; obtain ⟨-, -, rfl⟩ := guarded_next h; simp
  | evalStart h handle tokens seed => rw [exec_evalStart] at h; obtain ⟨-, -, rfl⟩ := guarded_next h; simp
  | stepStatus h => rw [exec_stepStatus] at h; obtain ⟨-, -, rfl⟩ := guarded_next h; simp
  | fabricTopology h x => rw [exec_fabricTopology] at h; obtain ⟨-, -, rfl⟩ := guarded_next h; simp
  | podConfig h x => rw [exec_podConfig] at h; obtain ⟨-, -, rfl⟩ := guarded_next h; simp
  | linkWidth h n v => rw [exec_linkWidth] at h; obtain ⟨-, -, rfl⟩ := guarded_next h; simp
  | linkRetrain h n => rw [exec_linkRetrain] at h; obtain ⟨-, -, rfl⟩ := guarded_next h; simp
  | optConfig h flags hr sat down => rw [exec_optConfig] at h; obtain ⟨-, -, rfl⟩ := guarded_next h; simp
  | optParcelMap h count x => rw [exec_optParcelMap] at h; obtain ⟨-, -, rfl⟩ := guarded_next h; simp
  | optScaleLoad h first tables count x => rw [exec_optScaleLoad] at h; obtain ⟨-, -, rfl⟩ := guarded_next h; simp
  | optGroup h group r => rw [exec_optGroup] at h; obtain ⟨-, -, rfl⟩ := guarded_next h; simp
  | optFreeze h count x => rw [exec_optFreeze] at h; obtain ⟨-, -, rfl⟩ := guarded_next h; simp
  | optStateInit h first flags count x => rw [exec_optStateInit] at h; obtain ⟨-, -, rfl⟩ := guarded_next h; simp
  | optNorms h step x => rw [exec_optNorms] at h; obtain ⟨-, -, rfl⟩ := guarded_next h; simp
  | optAudit h first flags count digests => rw [exec_optAudit] at h; obtain ⟨-, -, rfl⟩ := guarded_next h; simp
  | optHostDone h parcel attempt step => rw [exec_optHostDone] at h; obtain ⟨-, -, rfl⟩ := guarded_next h; simp
  | capsuleSeal h first count recips x => rw [exec_capsuleSeal] at h; obtain ⟨-, -, rfl⟩ := guarded_next h; simp
  | capsuleOpen h x => rw [exec_capsuleOpen] at h; obtain ⟨-, -, rfl⟩ := guarded_next h; simp
  | telemRead h unit x => rw [exec_telemRead] at h; obtain ⟨-, -, rfl⟩ := guarded_next h; simp
  | ledgerRead h first count flags x => rw [exec_ledgerRead] at h; obtain ⟨-, -, rfl⟩ := guarded_next h; simp
  | meterRead h => rw [exec_meterRead] at h; obtain ⟨-, -, rfl⟩ := guarded_next h; simp
  | powerPolicy h cap share => rw [exec_powerPolicy] at h; obtain ⟨-, -, rfl⟩ := guarded_next h; simp
  | clockSet h mmin flags => rw [exec_clockSet] at h; obtain ⟨-, -, rfl⟩ := guarded_next h; simp
  | patternLoad h slot x => rw [exec_patternLoad] at h; obtain ⟨-, -, rfl⟩ := guarded_next h; simp
  | testRun h unit slot corner x => rw [exec_testRun] at h; obtain ⟨-, -, rfl⟩ := guarded_next h; simp
  | testAbort h unit => rw [exec_testAbort] at h; obtain ⟨-, -, rfl⟩ := guarded_next h; simp
  | testUnitDone unit t => rw [exec_testUnitDone] at h; obtain ⟨-, -, rfl⟩ := guarded_next h; simp
  | testTimeLimit unit => rw [exec_testTimeLimit] at h; obtain ⟨-, -, rfl⟩ := guarded_next h; simp
  | logRead h first count x => rw [exec_logRead] at h; obtain ⟨-, -, rfl⟩ := guarded_next h; simp
  | logStatus h => rw [exec_logStatus] at h; obtain ⟨-, -, rfl⟩ := guarded_next h; simp
  | traceConfig h unit flags start stop x => rw [exec_traceConfig] at h; obtain ⟨-, -, rfl⟩ := guarded_next h; simp
  | traceWindowEnd unit => rw [exec_traceWindowEnd] at h; obtain ⟨-, -, rfl⟩ := guarded_next h; simp
  | attest h nonce x => rw [exec_attest] at h; obtain ⟨-, -, rfl⟩ := guarded_next h; simp
  | officerEnrol h slot key blks => simp [movesKept] at hc
  | officerRetire h slot blks => simp [movesKept] at hc
  | certRead h x => rw [exec_certRead] at h; obtain ⟨-, -, rfl⟩ := guarded_next h; simp
  | reset h level unit => rw [exec_reset] at h; obtain ⟨-, -, rfl⟩ := guarded_next h; simp
  | regionMapRead h x => rw [exec_regionMapRead] at h; obtain ⟨-, -, rfl⟩ := guarded_next h; simp
  | rimConfig h mask which rg rd => rw [exec_rimConfig] at h; obtain ⟨-, -, rfl⟩ := guarded_next h; simp
  | beatMode h mode flags delay => rw [exec_beatMode] at h; obtain ⟨-, -, rfl⟩ := guarded_next h; simp
  | fwStage h x => rw [exec_fwStage] at h; obtain ⟨-, -, rfl⟩ := guarded_next h; simp
  | defectMapRead h x => rw [exec_defectMapRead] at h; obtain ⟨-, -, rfl⟩ := guarded_next h; simp
  | tileReset tile => rw [exec_tileReset] at h; obtain ⟨-, -, rfl⟩ := guarded_next h; simp
  | clusterReset region cluster => rw [exec_clusterReset] at h; obtain ⟨-, -, rfl⟩ := guarded_next h; simp
  | partitionReset ctx => rw [exec_partitionReset] at h; obtain ⟨-, -, rfl⟩ := guarded_next h; simp
  | moduleWarmReset b => simp [movesKept] at hc
  | coldBoot b => simp [movesKept] at hc
  | keeperWatchdog checkpoint pc lastFeed => rw [exec_keeperWatchdog] at h; obtain ⟨-, -, rfl⟩ := guarded_next h; simp
  | computeDomainOn region => rw [exec_computeDomainOn] at h; obtain ⟨-, -, rfl⟩ := guarded_next h; simp
  | governorBeat ins cyc => rw [exec_governorBeat] at h; obtain ⟨-, -, rfl⟩ := guarded_next h; simp
  | inputOverpower => rw [exec_inputOverpower] at h; obtain ⟨-, -, rfl⟩ := guarded_next h; simp
  | aggregationWindowEnd => rw [exec_aggregationWindowEnd] at h; obtain ⟨-, -, rfl⟩ := guarded_next h; simp
  | regionSensorSample region smp droops => rw [exec_regionSensorSample] at h; obtain ⟨-, -, rfl⟩ := guarded_next h; simp
  | heatHigh region => rw [exec_heatHigh] at h; obtain ⟨-, -, rfl⟩ := guarded_next h; simp
  | heatOffRecovery region => rw [exec_heatOffRecovery] at h; obtain ⟨-, -, rfl⟩ := guarded_next h; simp
  | stackSensorSample sc temp => rw [exec_stackSensorSample] at h; obtain ⟨-, -, rfl⟩ := guarded_next h; simp
  | coolantSample inlet outlet flow => rw [exec_coolantSample] at h; obtain ⟨-, -, rfl⟩ := guarded_next h; simp
  | coolantWaitTimeout inlet flow => rw [exec_coolantWaitTimeout] at h; obtain ⟨-, -, rfl⟩ := guarded_next h; simp
  | repetition idx r => rw [exec_repetition] at h; obtain ⟨-, -, rfl⟩ := guarded_next h; simp
  | rcFault region resetOk => rw [exec_rcFault] at h; obtain ⟨-, -, rfl⟩ := guarded_next h; simp
  | rcSilent region resetOk => rw [exec_rcSilent] at h; obtain ⟨-, -, rfl⟩ := guarded_next h; simp
  | logRateWindowEnd => rw [exec_logRateWindowEnd] at h; obtain ⟨-, -, rfl⟩ := guarded_next h; simp
  | powerFailCapture => rw [exec_powerFailCapture] at h; obtain ⟨-, -, rfl⟩ := guarded_next h; simp
  | mgmtSessionOpen id key => rw [exec_mgmtSessionOpen] at h; obtain ⟨-, -, rfl⟩ := guarded_next h; simp
  | modRstNRelease ns => rw [exec_modRstNRelease] at h; obtain ⟨-, -, rfl⟩ := guarded_next h; simp
  | pxSenseBreak conn => rw [exec_pxSenseBreak] at h; obtain ⟨-, -, rfl⟩ := guarded_next h; simp
  | inputValid inp v => rw [exec_inputValid] at h; obtain ⟨-, -, rfl⟩ := guarded_next h; simp
  | inputOvervoltage inp v => rw [exec_inputOvervoltage] at h; obtain ⟨-, -, rfl⟩ := guarded_next h; simp
  | inputReclose inp v => rw [exec_inputReclose] at h; obtain ⟨-, -, rfl⟩ := guarded_next h; simp
  | inputOvercurrent inp amps held => rw [exec_inputOvercurrent] at h; obtain ⟨-, -, rfl⟩ := guarded_next h; simp
  | smbusReadIdentity => rw [exec_smbusReadIdentity] at h; obtain ⟨-, -, rfl⟩ := guarded_next h; simp
  | smbusReadStatus => rw [exec_smbusReadStatus] at h; obtain ⟨-, -, rfl⟩ := guarded_next h; simp
  | smbusResetArm v => rw [exec_smbusResetArm] at h; obtain ⟨-, -, rfl⟩ := guarded_next h; simp
  | smbusResetArmExpiry => rw [exec_smbusResetArmExpiry] at h; obtain ⟨-, -, rfl⟩ := guarded_next h; simp
  | smbusResetConfirm v => rw [exec_smbusResetConfirm] at h; obtain ⟨-, -, rfl⟩ := guarded_next h; simp
  | smbusSetIpv4 v => rw [exec_smbusSetIpv4] at h; obtain ⟨-, -, rfl⟩ := guarded_next h; simp
  | smbusWriteSbCfg v => rw [exec_smbusWriteSbCfg] at h; obtain ⟨-, -, rfl⟩ := guarded_next h; simp
  | smbusAlertResponse sa1 sa0 => rw [exec_smbusAlertResponse] at h; obtain ⟨-, -, rfl⟩ := guarded_next h; simp
  | smbusLogIndices => rw [exec_smbusLogIndices] at h; obtain ⟨-, -, rfl⟩ := guarded_next h; simp
  | smbusLogSelect v => rw [exec_smbusLogSelect] at h; obtain ⟨-, -, rfl⟩ := guarded_next h; simp
  | smbusLogReadLow => rw [exec_smbusLogReadLow] at h; obtain ⟨-, -, rfl⟩ := guarded_next h; simp
  | smbusLogReadHigh => rw [exec_smbusLogReadHigh] at h; obtain ⟨-, -, rfl⟩ := guarded_next h; simp
  | inputLost inp v => rw [exec_inputLost] at h; obtain ⟨-, -, rfl⟩ := guarded_next h; simp
  | transitSupplyLoss region => rw [exec_transitSupplyLoss] at h; obtain ⟨-, -, rfl⟩ := guarded_next h; simp
  | aux12vChange present => rw [exec_aux12vChange] at h; obtain ⟨-, -, rfl⟩ := guarded_next h; simp
  | linkAckSend n => rw [exec_linkAckSend] at h; obtain ⟨-, -, rfl⟩ := guarded_next h; simp
  | linkNarrowingComplete n => rw [exec_linkNarrowingComplete] at h; obtain ⟨-, -, rfl⟩ := guarded_next h; simp
  | mgmtPortLinkUp => rw [exec_mgmtPortLinkUp] at h; obtain ⟨-, -, rfl⟩ := guarded_next h; simp

end Sys2Proof.Machine
end

