-- ==== Sys2Proof/Laws/Fabric.lean ====
section
/-! SUPPORT. What a packet of the fabric that passes its checks does, and what counting it leaves alone. -/

namespace Sys2Proof.Machine

theorem State.rxCount_shape (s : State) (f : FHdr) :
    ∃ l p, s.rxCount f = { s with links := l, pod := p } ∧ p.cfg = s.pod.cfg ∧ p.pending = s.pod.pending := by
  unfold State.rxCount
  dsimp only
  split
  · exact ⟨_, _, rfl, rfl, rfl⟩
  · exact ⟨_, s.pod, rfl, rfl, rfl⟩
@[simp] theorem State.rxCount_ctxs (s : State) (f : FHdr) : (s.rxCount f).ctxs = s.ctxs := by obtain ⟨_, _, h, _⟩ := s.rxCount_shape f; rw [h]
@[simp] theorem State.rxCount_scs (s : State) (f : FHdr) : (s.rxCount f).scs = s.scs := by obtain ⟨_, _, h, _⟩ := s.rxCount_shape f; rw [h]
@[simp] theorem State.rxCount_clk (s : State) (f : FHdr) : (s.rxCount f).clk = s.clk := by obtain ⟨_, _, h, _⟩ := s.rxCount_shape f; rw [h]
@[simp] theorem State.rxCount_tr (s : State) (f : FHdr) : (s.rxCount f).tr = s.tr := by obtain ⟨_, _, h, _⟩ := s.rxCount_shape f; rw [h]
@[simp] theorem State.rxCount_cfg (s : State) (f : FHdr) : (s.rxCount f).pod.cfg = s.pod.cfg := by obtain ⟨_, _, h, e, _⟩ := s.rxCount_shape f; rw [h]; exact e
@[simp] theorem State.rxCount_myPod (s : State) (f : FHdr) : (s.rxCount f).myPod = s.myPod := by unfold State.myPod; rw [State.rxCount_cfg]
@[simp] theorem State.rxCount_myPos (s : State) (f : FHdr) : (s.rxCount f).myPos = s.myPos := by unfold State.myPos; rw [State.rxCount_cfg]
@[simp] theorem State.rxCount_ctx (s : State) (f : FHdr) (c : Nat) : (s.rxCount f).ctx c = s.ctx c := by unfold State.ctx; rw [State.rxCount_ctxs]
@[simp] theorem State.rxCount_sc (s : State) (f : FHdr) (n : Nat) : (s.rxCount f).sc n = s.sc n := by unfold State.sc; rw [State.rxCount_scs]
@[simp] theorem State.rxCount_ctxOnLink (s : State) (f : FHdr) (c n : Nat) : (s.rxCount f).ctxOnLink c n = s.ctxOnLink c n := by
  unfold State.ctxOnLink; rw [State.rxCount_ctx]
/-- A packet that passes every check is counted and goes on. -/
theorem State.fabricIn_ok {s : State} {f : FHdr} {vc : Nat} {lens : List Nat} (h : fabricOk f vc lens s = true) (k : State → State) :
    s.fabricIn f vc lens k = k (s.rxCount f) := by
  simp only [fabricOk, Bool.and_eq_true, decide_eq_true_eq, Bool.not_eq_true', Option.isNone_iff_eq_none] at h
  obtain ⟨⟨⟨⟨⟨⟨⟨⟨h1, h2⟩, h3⟩, h4⟩, h5⟩, h6⟩, h7⟩, h8⟩, h9⟩ := h
  simp only [State.fabricIn, State.rxCount_myPod, State.rxCount_myPos, State.rxCount_ctxOnLink]
  simp [h1, h2, h3, h4, h5, h6, h7, h9]
  intro hn
  exact absurd (List.contains_iff_mem.mp h8) hn

end Sys2Proof.Machine
end

