-- ==== Sys2Proof/Laws/Tab.lean ====
section
/-! SUPPORT. Sparse tables and memories: a read after a write, what a write leaves alone, and that every operation keeps the canonical form. -/

namespace Sys2Proof.Machine

variable {α : Type} [DecidableEq α] (d : α)

/-! The canonical form. -/

theorem Tab.wfFrom_mono {d : α} {a b : Nat} (h : a ≤ b) : ∀ {t : Tab α}, Tab.wfFrom d b t = true → Tab.wfFrom d a t = true
  | [], _ => rfl
  | (j, v) :: t, w => by
    simp only [Tab.wfFrom, Bool.and_eq_true, decide_eq_true_eq] at w ⊢
    exact ⟨⟨by omega, w.1.2⟩, w.2⟩

theorem Tab.wfFrom_del {d : α} : ∀ {t : Tab α} {a : Nat} (k : Nat), Tab.wfFrom d a t = true → Tab.wfFrom d a (Tab.del t k) = true
  | [], _, _, _ => rfl
  | (j, v) :: t, a, k, w => by
    simp only [Tab.wfFrom, Bool.and_eq_true, decide_eq_true_eq] at w
    unfold Tab.del
    split
    · exact Tab.wfFrom_mono (by omega) w.2
    · split
      · simp only [Tab.wfFrom, Bool.and_eq_true, decide_eq_true_eq]; exact w
      · simp only [Tab.wfFrom, Bool.and_eq_true, decide_eq_true_eq]
        exact ⟨w.1, Tab.wfFrom_del k w.2⟩

theorem Tab.wfFrom_put {d : α} : ∀ {t : Tab α} {a : Nat} {k : Nat} {v : α}, a ≤ k → v ≠ d → Tab.wfFrom d a t = true →
    Tab.wfFrom d a (Tab.put t k v) = true
  | [], a, k, v, h, hv, _ => by simp [Tab.put, Tab.wfFrom, h, hv]
  | (j, w) :: t, a, k, v, h, hv, hw => by
    simp only [Tab.wfFrom, Bool.and_eq_true, decide_eq_true_eq] at hw
    unfold Tab.put
    split
    · next e => subst e; simp only [Tab.wfFrom, Bool.and_eq_true, decide_eq_true_eq]; exact ⟨⟨h, hv⟩, hw.2⟩
    · split
      · simp only [Tab.wfFrom, Bool.and_eq_true, decide_eq_true_eq]; exact ⟨⟨h, hv⟩, ⟨by omega, hw.1.2⟩, hw.2⟩
      · simp only [Tab.wfFrom, Bool.and_eq_true, decide_eq_true_eq]
        exact ⟨hw.1, Tab.wfFrom_put (by omega) hv hw.2⟩

/-- A write keeps the canonical form. -/
theorem Tab.wf_set {d : α} {t : Tab α} (k : Nat) (v : α) (h : Tab.wf d t = true) : Tab.wf d (Tab.set d t k v) = true := by
  unfold Tab.set
  split
  · exact Tab.wfFrom_del k h
  · next hv => exact Tab.wfFrom_put (Nat.zero_le k) hv h
/-- So does a change in place. -/
theorem Tab.wf_upd {d : α} {t : Tab α} (k : Nat) (f : α → α) (h : Tab.wf d t = true) : Tab.wf d (Tab.upd d t k f) = true := Tab.wf_set k _ h

theorem Tab.wfFrom_filter {d : α} (q : Nat × α → Bool) : ∀ {t : Tab α} {a : Nat}, Tab.wfFrom d a t = true → Tab.wfFrom d a (t.filter q) = true
  | [], _, _ => rfl
  | (j, v) :: t, a, w => by
    simp only [Tab.wfFrom, Bool.and_eq_true, decide_eq_true_eq] at w
    rw [List.filter_cons]
    split
    · simp only [Tab.wfFrom, Bool.and_eq_true, decide_eq_true_eq]; exact ⟨w.1, Tab.wfFrom_filter q w.2⟩
    · exact Tab.wfFrom_mono (by omega) (Tab.wfFrom_filter q w.2)
/-- A table without some of its pairs. -/
theorem Tab.wf_filter {d : α} {t : Tab α} (q : Nat × α → Bool) (h : Tab.wf d t = true) : Tab.wf d (t.filter q) = true := Tab.wfFrom_filter q h

/-! Reads after writes. -/

theorem Tab.get_below {d : α} : ∀ {t : Tab α} {a k : Nat}, k < a → Tab.wfFrom d a t = true → Tab.get d t k = d
  | [], _, _, _, _ => rfl
  | (j, v) :: t, a, k, h, w => by
    simp only [Tab.wfFrom, Bool.and_eq_true, decide_eq_true_eq] at w
    unfold Tab.get
    rw [if_neg (by omega), if_pos (by omega)]

omit [DecidableEq α] in
theorem Tab.get_put_self (t : Tab α) (k : Nat) (v : α) : Tab.get d (Tab.put t k v) k = v := by
  induction t with
  | nil => simp [Tab.put, Tab.get]
  | cons p t ih =>
    obtain ⟨j, w⟩ := p
    unfold Tab.put
    split
    · simp [Tab.get]
    · split
      · simp [Tab.get]
      · next h1 h2 => unfold Tab.get; rw [if_neg h1, if_neg h2, ih]

omit [DecidableEq α] in
theorem Tab.get_put_ne (t : Tab α) {k i : Nat} (v : α) (h : i ≠ k) : Tab.get d (Tab.put t k v) i = Tab.get d t i := by
  induction t with
  | nil => simp [Tab.put, Tab.get, h]
  | cons p t ih =>
    obtain ⟨j, w⟩ := p
    unfold Tab.put
    split
    · next e => subst e; simp [Tab.get, h]
    · split
      · next h1 h2 =>
        simp only [Tab.get, if_neg h]
        by_cases hi : i < k
        · rw [if_pos hi, if_neg (by omega), if_pos (by omega)]
        · rw [if_neg hi]
      · simp only [Tab.get, ih]

theorem Tab.get_del_self {d : α} : ∀ {t : Tab α} {a : Nat} (k : Nat), Tab.wfFrom d a t = true → Tab.get d (Tab.del t k) k = d
  | [], _, _, _ => rfl
  | (j, v) :: t, a, k, w => by
    simp only [Tab.wfFrom, Bool.and_eq_true, decide_eq_true_eq] at w
    unfold Tab.del
    split
    · next e => subst e; exact Tab.get_below (Nat.lt_succ_self _) w.2
    · split
      · next h1 h2 => simp [Tab.get, h1, h2]
      · next h1 h2 => simp only [Tab.get, if_neg h1, if_neg h2]; exact Tab.get_del_self k w.2

theorem Tab.get_del_ne {d : α} : ∀ {t : Tab α} {a k i : Nat}, i ≠ k → Tab.wfFrom d a t = true → Tab.get d (Tab.del t k) i = Tab.get d t i
  | [], _, _, _, _, _ => rfl
  | (j, v) :: t, a, k, i, h, w => by
    simp only [Tab.wfFrom, Bool.and_eq_true, decide_eq_true_eq] at w
    unfold Tab.del
    split
    · next e =>
      subst e
      simp only [Tab.get, if_neg h]
      split
      · exact Tab.get_below (by omega) w.2
      · rfl
    · split
      · rfl
      · simp only [Tab.get, Tab.get_del_ne h w.2]

/-- A read of what was written. -/
theorem Tab.get_set_self {d : α} {t : Tab α} (k : Nat) (v : α) (h : Tab.wf d t = true) : Tab.get d (Tab.set d t k v) k = v := by
  unfold Tab.set
  split
  · next e => rw [Tab.get_del_self k h, e]
  · exact Tab.get_put_self d t k v
/-- A write leaves every other number alone. -/
theorem Tab.get_set_ne {d : α} {t : Tab α} {k i : Nat} (v : α) (hi : i ≠ k) (h : Tab.wf d t = true) : Tab.get d (Tab.set d t k v) i = Tab.get d t i := by
  unfold Tab.set
  split
  · exact Tab.get_del_ne hi h
  · exact Tab.get_put_ne d t v hi
theorem Tab.get_upd_self {d : α} {t : Tab α} (k : Nat) (f : α → α) (h : Tab.wf d t = true) : Tab.get d (Tab.upd d t k f) k = f (Tab.get d t k) :=
  Tab.get_set_self k _ h
theorem Tab.get_upd_ne {d : α} {t : Tab α} {k i : Nat} (f : α → α) (hi : i ≠ k) (h : Tab.wf d t = true) :
    Tab.get d (Tab.upd d t k f) i = Tab.get d t i := Tab.get_set_ne _ hi h

/-! Memories. -/

theorem Mem.rd_wr_self {m : Mem} (a : Nat) (b : Byte) (h : Memory.wf m = true) : (m.wr a b).rd a = b := Tab.get_set_self a b h
theorem Mem.rd_wr_ne {m : Mem} {a i : Nat} (b : Byte) (hi : i ≠ a) (h : Memory.wf m = true) : (m.wr a b).rd i = m.rd i := Tab.get_set_ne b hi h
/-- Every operation on memory keeps its canonical form: a byte written, several, zeros. -/
theorem Memory.wf_wr {m : Mem} (a : Nat) (b : Byte) (h : Memory.wf m = true) : Memory.wf (m.wr a b) = true := Tab.wf_set a b h
theorem Memory.wf_wrBytes : ∀ (bs : List Byte) {m : Mem} (a : Nat), Memory.wf m = true → Memory.wf (m.wrBytes a bs) = true
  | [], _, _, h => h
  | b :: bs, _, a, h => Memory.wf_wrBytes bs (a + 1) (Memory.wf_wr a b h)
theorem Memory.wf_wrLE {m : Mem} (a n v : Nat) (h : Memory.wf m = true) : Memory.wf (m.wrLE a n v) = true := Memory.wf_wrBytes _ a h
theorem Memory.wf_zero {m : Mem} (a n : Nat) (h : Memory.wf m = true) : Memory.wf (m.zero a n) = true := Tab.wf_filter _ h
/-- Bytes outside those written read as before. -/
theorem Mem.rd_wrBytes_ne : ∀ (bs : List Byte) {m : Mem} {a i : Nat}, (i < a ∨ a + bs.length ≤ i) → Memory.wf m = true →
    (m.wrBytes a bs).rd i = m.rd i
  | [], _, _, _, _, _ => rfl
  | b :: bs, m, a, i, h, w => by
    simp only [List.length_cons] at h
    rw [Mem.wrBytes, Mem.rd_wrBytes_ne bs (by omega) (Memory.wf_wr a b w), Mem.rd_wr_ne b (by omega) w]

end Sys2Proof.Machine
end

