-- ==== Sys2Proof/Laws/Tile.lean ====
section
/-! SUPPORT. A tile instruction offered to its stream: what `issue` answers where nothing else is in flight, for an instruction that completes at
issue and for one that goes into flight, and what the step of the tile then is. -/

namespace Sys2Proof.Machine

@[simp] theorem lowered_sa (h : IHdr) (t : Tile) : (lowered h t).sa = t.sa := by unfold lowered; cases h.wf <;> rfl
@[simp] theorem lowered_se (h : IHdr) (t : Tile) : (lowered h t).se = t.se := by unfold lowered; cases h.wf <;> rfl
@[simp] theorem lowered_stream (h : IHdr) (t : Tile) (e : Bool) : (lowered h t).stream e = t.stream e := by unfold lowered; cases h.wf <;> rfl
theorem Stream.eta_ops (x : Stream) (h : x.ops = []) : { x with ops := [] } = x := by cases x; cases h; rfl
theorem Tile.eta_sa (t : Tile) (h : t.sa.ops = []) : { t with sa := { t.sa with ops := [] } } = t := by rw [Stream.eta_ops _ h]
theorem Tile.eta_se (t : Tile) (h : t.se.ops = []) : { t with se := { t.se with ops := [] } } = t := by rw [Stream.eta_ops _ h]
/-- Counting a wait keeps what is in flight. -/
@[simp] theorem addWait_sa_ops (h : IHdr) (ti : TI) (t : Tile) : (addWait h ti t).sa.ops = t.sa.ops := by
  cases hx : h.exe <;> simp [addWait, Tile.onStream, hx]
@[simp] theorem addWait_se_ops (h : IHdr) (ti : TI) (t : Tile) : (addWait h ti t).se.ops = t.se.ops := by
  cases hx : h.exe <;> simp [addWait, Tile.onStream, hx]
@[simp] theorem risen_sa (h : IHdr) (t : Tile) : (risen h t).sa = t.sa := by
  unfold risen Tile.raiseFlag; cases h.sfl <;> simp; split <;> rfl
@[simp] theorem risen_se (h : IHdr) (t : Tile) : (risen h t).se = t.se := by
  unfold risen Tile.raiseFlag; cases h.sfl <;> simp; split <;> rfl
/-! What the issue of an instruction leaves alone: all but the streams, the counters of waits and conflicts, and, where it waited on a flag, the
flags. -/

@[simp] theorem countIssue_fenced (h : IHdr) (ti : TI) (t : Tile) : (countIssue h ti t).fenced = t.fenced := by
  cases hx : h.exe <;> simp [countIssue, addWait, Tile.onStream, hx]
@[simp] theorem countIssue_moved (h : IHdr) (ti : TI) (t : Tile) : (countIssue h ti t).moved = t.moved := by
  cases hx : h.exe <;> simp [countIssue, addWait, Tile.onStream, hx]
@[simp] theorem countIssue_sati (h : IHdr) (ti : TI) (t : Tile) : (countIssue h ti t).sati = t.sati := by
  cases hx : h.exe <;> simp [countIssue, addWait, Tile.onStream, hx]
@[simp] theorem countIssue_gang (h : IHdr) (ti : TI) (t : Tile) : (countIssue h ti t).gang = t.gang := by
  cases hx : h.exe <;> simp [countIssue, addWait, Tile.onStream, hx]
@[simp] theorem countIssue_set0 (h : IHdr) (ti : TI) (t : Tile) : (countIssue h ti t).set0 = t.set0 := by
  cases hx : h.exe <;> simp [countIssue, addWait, Tile.onStream, hx]
@[simp] theorem countIssue_set1 (h : IHdr) (ti : TI) (t : Tile) : (countIssue h ti t).set1 = t.set1 := by
  cases hx : h.exe <;> simp [countIssue, addWait, Tile.onStream, hx]
@[simp] theorem countIssue_act (h : IHdr) (ti : TI) (t : Tile) : (countIssue h ti t).act = t.act := by
  cases hx : h.exe <;> simp [countIssue, addWait, Tile.onStream, hx]
@[simp] theorem countIssue_muFl (h : IHdr) (ti : TI) (t : Tile) : (countIssue h ti t).muFl = t.muFl := by
  cases hx : h.exe <;> simp [countIssue, addWait, Tile.onStream, hx]
@[simp] theorem countIssue_acc (h : IHdr) (ti : TI) (t : Tile) : (countIssue h ti t).acc = t.acc := by
  cases hx : h.exe <;> simp [countIssue, addWait, Tile.onStream, hx]
@[simp] theorem countIssue_accInt (h : IHdr) (ti : TI) (t : Tile) : (countIssue h ti t).accInt = t.accInt := by
  cases hx : h.exe <;> simp [countIssue, addWait, Tile.onStream, hx]
@[simp] theorem countIssue_accBad (h : IHdr) (ti : TI) (t : Tile) : (countIssue h ti t).accBad = t.accBad := by
  cases hx : h.exe <;> simp [countIssue, addWait, Tile.onStream, hx]
@[simp] theorem countIssue_muRows (h : IHdr) (ti : TI) (t : Tile) : (countIssue h ti t).muRows = t.muRows := by
  cases hx : h.exe <;> simp [countIssue, addWait, Tile.onStream, hx]
@[simp] theorem countIssue_muSkip (h : IHdr) (ti : TI) (t : Tile) : (countIssue h ti t).muSkip = t.muSkip := by
  cases hx : h.exe <;> simp [countIssue, addWait, Tile.onStream, hx]
@[simp] theorem countIssue_cvSet (h : IHdr) (ti : TI) (t : Tile) : (countIssue h ti t).cvSet = t.cvSet := by
  cases hx : h.exe <;> simp [countIssue, addWait, Tile.onStream, hx]
@[simp] theorem countIssue_cvPar (h : IHdr) (ti : TI) (t : Tile) : (countIssue h ti t).cvPar = t.cvPar := by
  cases hx : h.exe <;> simp [countIssue, addWait, Tile.onStream, hx]
@[simp] theorem countIssue_cvSeed (h : IHdr) (ti : TI) (t : Tile) : (countIssue h ti t).cvSeed = t.cvSeed := by
  cases hx : h.exe <;> simp [countIssue, addWait, Tile.onStream, hx]
@[simp] theorem countIssue_cvCnt (h : IHdr) (ti : TI) (t : Tile) : (countIssue h ti t).cvCnt = t.cvCnt := by
  cases hx : h.exe <;> simp [countIssue, addWait, Tile.onStream, hx]
@[simp] theorem countIssue_cvFl (h : IHdr) (ti : TI) (t : Tile) : (countIssue h ti t).cvFl = t.cvFl := by
  cases hx : h.exe <;> simp [countIssue, addWait, Tile.onStream, hx]
@[simp] theorem countIssue_cvRows (h : IHdr) (ti : TI) (t : Tile) : (countIssue h ti t).cvRows = t.cvRows := by
  cases hx : h.exe <;> simp [countIssue, addWait, Tile.onStream, hx]
@[simp] theorem countIssue_cvSat (h : IHdr) (ti : TI) (t : Tile) : (countIssue h ti t).cvSat = t.cvSat := by
  cases hx : h.exe <;> simp [countIssue, addWait, Tile.onStream, hx]
@[simp] theorem countIssue_chain (h : IHdr) (ti : TI) (t : Tile) : (countIssue h ti t).chain = t.chain := by
  cases hx : h.exe <;> simp [countIssue, addWait, Tile.onStream, hx]
@[simp] theorem countIssue_vrb (h : IHdr) (ti : TI) (t : Tile) : (countIssue h ti t).vrb = t.vrb := by
  cases hx : h.exe <;> simp [countIssue, addWait, Tile.onStream, hx]
@[simp] theorem countIssue_vrbMax (h : IHdr) (ti : TI) (t : Tile) : (countIssue h ti t).vrbMax = t.vrbMax := by
  cases hx : h.exe <;> simp [countIssue, addWait, Tile.onStream, hx]
@[simp] theorem countIssue_vcLen (h : IHdr) (ti : TI) (t : Tile) : (countIssue h ti t).vcLen = t.vcLen := by
  cases hx : h.exe <;> simp [countIssue, addWait, Tile.onStream, hx]
@[simp] theorem countIssue_vcMask (h : IHdr) (ti : TI) (t : Tile) : (countIssue h ti t).vcMask = t.vcMask := by
  cases hx : h.exe <;> simp [countIssue, addWait, Tile.onStream, hx]
@[simp] theorem countIssue_vcCnt (h : IHdr) (ti : TI) (t : Tile) : (countIssue h ti t).vcCnt = t.vcCnt := by
  cases hx : h.exe <;> simp [countIssue, addWait, Tile.onStream, hx]
@[simp] theorem countIssue_vcFl (h : IHdr) (ti : TI) (t : Tile) : (countIssue h ti t).vcFl = t.vcFl := by
  cases hx : h.exe <;> simp [countIssue, addWait, Tile.onStream, hx]
@[simp] theorem countIssue_vcGroups (h : IHdr) (ti : TI) (t : Tile) : (countIssue h ti t).vcGroups = t.vcGroups := by
  cases hx : h.exe <;> simp [countIssue, addWait, Tile.onStream, hx]
@[simp] theorem countIssue_vcSat (h : IHdr) (ti : TI) (t : Tile) : (countIssue h ti t).vcSat = t.vcSat := by
  cases hx : h.exe <;> simp [countIssue, addWait, Tile.onStream, hx]
@[simp] theorem countIssue_flags (h : IHdr) (ti : TI) (t : Tile) : (countIssue h ti t).flags = t.flags := by
  cases hx : h.exe <;> simp [countIssue, addWait, Tile.onStream, hx]
@[simp] theorem countIssue_queues (h : IHdr) (ti : TI) (t : Tile) : (countIssue h ti t).queues = t.queues := by
  cases hx : h.exe <;> simp [countIssue, addWait, Tile.onStream, hx]
@[simp] theorem countIssue_ic (h : IHdr) (ti : TI) (t : Tile) : (countIssue h ti t).ic = t.ic := by
  cases hx : h.exe <;> simp [countIssue, addWait, Tile.onStream, hx]
@[simp] theorem countIssue_oc (h : IHdr) (ti : TI) (t : Tile) : (countIssue h ti t).oc = t.oc := by
  cases hx : h.exe <;> simp [countIssue, addWait, Tile.onStream, hx]
@[simp] theorem countIssue_bank (h : IHdr) (ti : TI) (t : Tile) : (countIssue h ti t).bank = t.bank := by
  cases hx : h.exe <;> simp [countIssue, addWait, Tile.onStream, hx]
@[simp] theorem countIssue_actb (h : IHdr) (ti : TI) (t : Tile) : (countIssue h ti t).actb = t.actb := by
  cases hx : h.exe <;> simp [countIssue, addWait, Tile.onStream, hx]
@[simp] theorem countIssue_pend (h : IHdr) (ti : TI) (t : Tile) : (countIssue h ti t).pend = t.pend := by
  cases hx : h.exe <;> simp [countIssue, addWait, Tile.onStream, hx]
@[simp] theorem countIssue_planId (h : IHdr) (ti : TI) (t : Tile) : (countIssue h ti t).planId = t.planId := by
  cases hx : h.exe <;> simp [countIssue, addWait, Tile.onStream, hx]
@[simp] theorem countIssue_work (h : IHdr) (ti : TI) (t : Tile) : (countIssue h ti t).work = t.work := by
  cases hx : h.exe <;> simp [countIssue, addWait, Tile.onStream, hx]
@[simp] theorem countIssue_page (h : IHdr) (ti : TI) (t : Tile) : (countIssue h ti t).page = t.page := by
  cases hx : h.exe <;> simp [countIssue, addWait, Tile.onStream, hx]
@[simp] theorem countIssue_pages (h : IHdr) (ti : TI) (t : Tile) : (countIssue h ti t).pages = t.pages := by
  cases hx : h.exe <;> simp [countIssue, addWait, Tile.onStream, hx]
@[simp] theorem countIssue_swapLimit (h : IHdr) (ti : TI) (t : Tile) : (countIssue h ti t).swapLimit = t.swapLimit := by
  cases hx : h.exe <;> simp [countIssue, addWait, Tile.onStream, hx]
@[simp] theorem countIssue_stallLimit (h : IHdr) (ti : TI) (t : Tile) : (countIssue h ti t).stallLimit = t.stallLimit := by
  cases hx : h.exe <;> simp [countIssue, addWait, Tile.onStream, hx]
@[simp] theorem countIssue_planOk (h : IHdr) (ti : TI) (t : Tile) : (countIssue h ti t).planOk = t.planOk := by
  cases hx : h.exe <;> simp [countIssue, addWait, Tile.onStream, hx]
@[simp] theorem countIssue_running (h : IHdr) (ti : TI) (t : Tile) : (countIssue h ti t).running = t.running := by
  cases hx : h.exe <;> simp [countIssue, addWait, Tile.onStream, hx]
@[simp] theorem countIssue_swpBeats (h : IHdr) (ti : TI) (t : Tile) : (countIssue h ti t).swpBeats = t.swpBeats := by
  cases hx : h.exe <;> simp [countIssue, addWait, Tile.onStream, hx]
@[simp] theorem countIssue_lib (h : IHdr) (ti : TI) (t : Tile) : (countIssue h ti t).lib = t.lib := by
  cases hx : h.exe <;> simp [countIssue, addWait, Tile.onStream, hx]
@[simp] theorem countIssue_routines (h : IHdr) (ti : TI) (t : Tile) : (countIssue h ti t).routines = t.routines := by
  cases hx : h.exe <;> simp [countIssue, addWait, Tile.onStream, hx]
@[simp] theorem countIssue_mem (h : IHdr) (ti : TI) (t : Tile) : (countIssue h ti t).mem = t.mem := by
  cases hx : h.exe <;> simp [countIssue, addWait, Tile.onStream, hx]
@[simp] theorem countIssue_errs (h : IHdr) (ti : TI) (t : Tile) : (countIssue h ti t).errs = t.errs := by
  cases hx : h.exe <;> simp [countIssue, addWait, Tile.onStream, hx]
@[simp] theorem countIssue_wback (h : IHdr) (ti : TI) (t : Tile) : (countIssue h ti t).wback = t.wback := by
  cases hx : h.exe <;> simp [countIssue, addWait, Tile.onStream, hx]
@[simp] theorem countIssue_map (h : IHdr) (ti : TI) (t : Tile) : (countIssue h ti t).map = t.map := by
  cases hx : h.exe <;> simp [countIssue, addWait, Tile.onStream, hx]
@[simp] theorem countIssue_scrubEnd (h : IHdr) (ti : TI) (t : Tile) : (countIssue h ti t).scrubEnd = t.scrubEnd := by
  cases hx : h.exe <;> simp [countIssue, addWait, Tile.onStream, hx]
@[simp] theorem countIssue_spCorr (h : IHdr) (ti : TI) (t : Tile) : (countIssue h ti t).spCorr = t.spCorr := by
  cases hx : h.exe <;> simp [countIssue, addWait, Tile.onStream, hx]
@[simp] theorem countIssue_wlost (h : IHdr) (ti : TI) (t : Tile) : (countIssue h ti t).wlost = t.wlost := by
  cases hx : h.exe <;> simp [countIssue, addWait, Tile.onStream, hx]
@[simp] theorem countIssue_corrN (h : IHdr) (ti : TI) (t : Tile) : (countIssue h ti t).corrN = t.corrN := by
  cases hx : h.exe <;> simp [countIssue, addWait, Tile.onStream, hx]
@[simp] theorem countIssue_wlostN (h : IHdr) (ti : TI) (t : Tile) : (countIssue h ti t).wlostN = t.wlostN := by
  cases hx : h.exe <;> simp [countIssue, addWait, Tile.onStream, hx]
@[simp] theorem countIssue_patrol (h : IHdr) (ti : TI) (t : Tile) : (countIssue h ti t).patrol = t.patrol := by
  cases hx : h.exe <;> simp [countIssue, addWait, Tile.onStream, hx]
@[simp] theorem countIssue_mbox (h : IHdr) (ti : TI) (t : Tile) : (countIssue h ti t).mbox = t.mbox := by
  cases hx : h.exe <;> simp [countIssue, addWait, Tile.onStream, hx]
@[simp] theorem countIssue_icIn (h : IHdr) (ti : TI) (t : Tile) : (countIssue h ti t).icIn = t.icIn := by
  cases hx : h.exe <;> simp [countIssue, addWait, Tile.onStream, hx]
@[simp] theorem countIssue_resetAt (h : IHdr) (ti : TI) (t : Tile) : (countIssue h ti t).resetAt = t.resetAt := by
  cases hx : h.exe <;> simp [countIssue, addWait, Tile.onStream, hx]
@[simp] theorem countIssue_startAt (h : IHdr) (ti : TI) (t : Tile) : (countIssue h ti t).startAt = t.startAt := by
  cases hx : h.exe <;> simp [countIssue, addWait, Tile.onStream, hx]
@[simp] theorem countIssue_at_ (h : IHdr) (ti : TI) (t : Tile) : (countIssue h ti t).at_ = t.at_ := by
  cases hx : h.exe <;> simp [countIssue, addWait, Tile.onStream, hx]
@[simp] theorem countIssue_muNew (h : IHdr) (ti : TI) (t : Tile) : (countIssue h ti t).muNew = t.muNew := by
  cases hx : h.exe <;> simp [countIssue, addWait, Tile.onStream, hx]
@[simp] theorem countIssue_cvNew (h : IHdr) (ti : TI) (t : Tile) : (countIssue h ti t).cvNew = t.cvNew := by
  cases hx : h.exe <;> simp [countIssue, addWait, Tile.onStream, hx]
@[simp] theorem countIssue_vcNew (h : IHdr) (ti : TI) (t : Tile) : (countIssue h ti t).vcNew = t.vcNew := by
  cases hx : h.exe <;> simp [countIssue, addWait, Tile.onStream, hx]
@[simp] theorem countIssue_wrAt (h : IHdr) (ti : TI) (t : Tile) : (countIssue h ti t).wrAt = t.wrAt := by
  cases hx : h.exe <;> simp [countIssue, addWait, Tile.onStream, hx]
@[simp] theorem lowered_fenced (h : IHdr) (t : Tile) : (lowered h t).fenced = t.fenced := by unfold lowered; cases h.wf <;> rfl
@[simp] theorem lowered_moved (h : IHdr) (t : Tile) : (lowered h t).moved = t.moved := by unfold lowered; cases h.wf <;> rfl
@[simp] theorem lowered_sati (h : IHdr) (t : Tile) : (lowered h t).sati = t.sati := by unfold lowered; cases h.wf <;> rfl
@[simp] theorem lowered_gang (h : IHdr) (t : Tile) : (lowered h t).gang = t.gang := by unfold lowered; cases h.wf <;> rfl
@[simp] theorem lowered_set0 (h : IHdr) (t : Tile) : (lowered h t).set0 = t.set0 := by unfold lowered; cases h.wf <;> rfl
@[simp] theorem lowered_set1 (h : IHdr) (t : Tile) : (lowered h t).set1 = t.set1 := by unfold lowered; cases h.wf <;> rfl
@[simp] theorem lowered_act (h : IHdr) (t : Tile) : (lowered h t).act = t.act := by unfold lowered; cases h.wf <;> rfl
@[simp] theorem lowered_muFl (h : IHdr) (t : Tile) : (lowered h t).muFl = t.muFl := by unfold lowered; cases h.wf <;> rfl
@[simp] theorem lowered_acc (h : IHdr) (t : Tile) : (lowered h t).acc = t.acc := by unfold lowered; cases h.wf <;> rfl
@[simp] theorem lowered_accInt (h : IHdr) (t : Tile) : (lowered h t).accInt = t.accInt := by unfold lowered; cases h.wf <;> rfl
@[simp] theorem lowered_accBad (h : IHdr) (t : Tile) : (lowered h t).accBad = t.accBad := by unfold lowered; cases h.wf <;> rfl
@[simp] theorem lowered_muRows (h : IHdr) (t : Tile) : (lowered h t).muRows = t.muRows := by unfold lowered; cases h.wf <;> rfl
@[simp] theorem lowered_muSkip (h : IHdr) (t : Tile) : (lowered h t).muSkip = t.muSkip := by unfold lowered; cases h.wf <;> rfl
@[simp] theorem lowered_cvSet (h : IHdr) (t : Tile) : (lowered h t).cvSet = t.cvSet := by unfold lowered; cases h.wf <;> rfl
@[simp] theorem lowered_cvPar (h : IHdr) (t : Tile) : (lowered h t).cvPar = t.cvPar := by unfold lowered; cases h.wf <;> rfl
@[simp] theorem lowered_cvSeed (h : IHdr) (t : Tile) : (lowered h t).cvSeed = t.cvSeed := by unfold lowered; cases h.wf <;> rfl
@[simp] theorem lowered_cvCnt (h : IHdr) (t : Tile) : (lowered h t).cvCnt = t.cvCnt := by unfold lowered; cases h.wf <;> rfl
@[simp] theorem lowered_cvFl (h : IHdr) (t : Tile) : (lowered h t).cvFl = t.cvFl := by unfold lowered; cases h.wf <;> rfl
@[simp] theorem lowered_cvRows (h : IHdr) (t : Tile) : (lowered h t).cvRows = t.cvRows := by unfold lowered; cases h.wf <;> rfl
@[simp] theorem lowered_cvSat (h : IHdr) (t : Tile) : (lowered h t).cvSat = t.cvSat := by unfold lowered; cases h.wf <;> rfl
@[simp] theorem lowered_chain (h : IHdr) (t : Tile) : (lowered h t).chain = t.chain := by unfold lowered; cases h.wf <;> rfl
@[simp] theorem lowered_vrb (h : IHdr) (t : Tile) : (lowered h t).vrb = t.vrb := by unfold lowered; cases h.wf <;> rfl
@[simp] theorem lowered_vrbMax (h : IHdr) (t : Tile) : (lowered h t).vrbMax = t.vrbMax := by unfold lowered; cases h.wf <;> rfl
@[simp] theorem lowered_vcLen (h : IHdr) (t : Tile) : (lowered h t).vcLen = t.vcLen := by unfold lowered; cases h.wf <;> rfl
@[simp] theorem lowered_vcMask (h : IHdr) (t : Tile) : (lowered h t).vcMask = t.vcMask := by unfold lowered; cases h.wf <;> rfl
@[simp] theorem lowered_vcCnt (h : IHdr) (t : Tile) : (lowered h t).vcCnt = t.vcCnt := by unfold lowered; cases h.wf <;> rfl
@[simp] theorem lowered_vcFl (h : IHdr) (t : Tile) : (lowered h t).vcFl = t.vcFl := by unfold lowered; cases h.wf <;> rfl
@[simp] theorem lowered_vcGroups (h : IHdr) (t : Tile) : (lowered h t).vcGroups = t.vcGroups := by unfold lowered; cases h.wf <;> rfl
@[simp] theorem lowered_vcSat (h : IHdr) (t : Tile) : (lowered h t).vcSat = t.vcSat := by unfold lowered; cases h.wf <;> rfl
@[simp] theorem lowered_queues (h : IHdr) (t : Tile) : (lowered h t).queues = t.queues := by unfold lowered; cases h.wf <;> rfl
@[simp] theorem lowered_ic (h : IHdr) (t : Tile) : (lowered h t).ic = t.ic := by unfold lowered; cases h.wf <;> rfl
@[simp] theorem lowered_oc (h : IHdr) (t : Tile) : (lowered h t).oc = t.oc := by unfold lowered; cases h.wf <;> rfl
@[simp] theorem lowered_bank (h : IHdr) (t : Tile) : (lowered h t).bank = t.bank := by unfold lowered; cases h.wf <;> rfl
@[simp] theorem lowered_actb (h : IHdr) (t : Tile) : (lowered h t).actb = t.actb := by unfold lowered; cases h.wf <;> rfl
@[simp] theorem lowered_pend (h : IHdr) (t : Tile) : (lowered h t).pend = t.pend := by unfold lowered; cases h.wf <;> rfl
@[simp] theorem lowered_planId (h : IHdr) (t : Tile) : (lowered h t).planId = t.planId := by unfold lowered; cases h.wf <;> rfl
@[simp] theorem lowered_work (h : IHdr) (t : Tile) : (lowered h t).work = t.work := by unfold lowered; cases h.wf <;> rfl
@[simp] theorem lowered_page (h : IHdr) (t : Tile) : (lowered h t).page = t.page := by unfold lowered; cases h.wf <;> rfl
@[simp] theorem lowered_pages (h : IHdr) (t : Tile) : (lowered h t).pages = t.pages := by unfold lowered; cases h.wf <;> rfl
@[simp] theorem lowered_swapLimit (h : IHdr) (t : Tile) : (lowered h t).swapLimit = t.swapLimit := by unfold lowered; cases h.wf <;> rfl
@[simp] theorem lowered_stallLimit (h : IHdr) (t : Tile) : (lowered h t).stallLimit = t.stallLimit := by unfold lowered; cases h.wf <;> rfl
@[simp] theorem lowered_planOk (h : IHdr) (t : Tile) : (lowered h t).planOk = t.planOk := by unfold lowered; cases h.wf <;> rfl
@[simp] theorem lowered_running (h : IHdr) (t : Tile) : (lowered h t).running = t.running := by unfold lowered; cases h.wf <;> rfl
@[simp] theorem lowered_swpBeats (h : IHdr) (t : Tile) : (lowered h t).swpBeats = t.swpBeats := by unfold lowered; cases h.wf <;> rfl
@[simp] theorem lowered_lib (h : IHdr) (t : Tile) : (lowered h t).lib = t.lib := by unfold lowered; cases h.wf <;> rfl
@[simp] theorem lowered_routines (h : IHdr) (t : Tile) : (lowered h t).routines = t.routines := by unfold lowered; cases h.wf <;> rfl
@[simp] theorem lowered_mem (h : IHdr) (t : Tile) : (lowered h t).mem = t.mem := by unfold lowered; cases h.wf <;> rfl
@[simp] theorem lowered_errs (h : IHdr) (t : Tile) : (lowered h t).errs = t.errs := by unfold lowered; cases h.wf <;> rfl
@[simp] theorem lowered_wback (h : IHdr) (t : Tile) : (lowered h t).wback = t.wback := by unfold lowered; cases h.wf <;> rfl
@[simp] theorem lowered_map (h : IHdr) (t : Tile) : (lowered h t).map = t.map := by unfold lowered; cases h.wf <;> rfl
@[simp] theorem lowered_scrubEnd (h : IHdr) (t : Tile) : (lowered h t).scrubEnd = t.scrubEnd := by unfold lowered; cases h.wf <;> rfl
@[simp] theorem lowered_spCorr (h : IHdr) (t : Tile) : (lowered h t).spCorr = t.spCorr := by unfold lowered; cases h.wf <;> rfl
@[simp] theorem lowered_wlost (h : IHdr) (t : Tile) : (lowered h t).wlost = t.wlost := by unfold lowered; cases h.wf <;> rfl
@[simp] theorem lowered_corrN (h : IHdr) (t : Tile) : (lowered h t).corrN = t.corrN := by unfold lowered; cases h.wf <;> rfl
@[simp] theorem lowered_wlostN (h : IHdr) (t : Tile) : (lowered h t).wlostN = t.wlostN := by unfold lowered; cases h.wf <;> rfl
@[simp] theorem lowered_patrol (h : IHdr) (t : Tile) : (lowered h t).patrol = t.patrol := by unfold lowered; cases h.wf <;> rfl
@[simp] theorem lowered_mbox (h : IHdr) (t : Tile) : (lowered h t).mbox = t.mbox := by unfold lowered; cases h.wf <;> rfl
@[simp] theorem lowered_icIn (h : IHdr) (t : Tile) : (lowered h t).icIn = t.icIn := by unfold lowered; cases h.wf <;> rfl
@[simp] theorem lowered_resetAt (h : IHdr) (t : Tile) : (lowered h t).resetAt = t.resetAt := by unfold lowered; cases h.wf <;> rfl
@[simp] theorem lowered_startAt (h : IHdr) (t : Tile) : (lowered h t).startAt = t.startAt := by unfold lowered; cases h.wf <;> rfl
@[simp] theorem lowered_at_ (h : IHdr) (t : Tile) : (lowered h t).at_ = t.at_ := by unfold lowered; cases h.wf <;> rfl
@[simp] theorem lowered_muNew (h : IHdr) (t : Tile) : (lowered h t).muNew = t.muNew := by unfold lowered; cases h.wf <;> rfl
@[simp] theorem lowered_cvNew (h : IHdr) (t : Tile) : (lowered h t).cvNew = t.cvNew := by unfold lowered; cases h.wf <;> rfl
@[simp] theorem lowered_vcNew (h : IHdr) (t : Tile) : (lowered h t).vcNew = t.vcNew := by unfold lowered; cases h.wf <;> rfl
@[simp] theorem lowered_wrAt (h : IHdr) (t : Tile) : (lowered h t).wrAt = t.wrAt := by unfold lowered; cases h.wf <;> rfl
@[simp] theorem lowered_muWait (h : IHdr) (t : Tile) : (lowered h t).muWait = t.muWait := by unfold lowered; cases h.wf <;> rfl
@[simp] theorem lowered_vcWait (h : IHdr) (t : Tile) : (lowered h t).vcWait = t.vcWait := by unfold lowered; cases h.wf <;> rfl
@[simp] theorem lowered_conf (h : IHdr) (t : Tile) : (lowered h t).conf = t.conf := by unfold lowered; cases h.wf <;> rfl
/-- The step past an instruction changes its stream's place alone. -/
@[simp] theorem onStream_fenced (t : Tile) (e : Bool) (g : Stream → Stream) : (t.onStream e g).fenced = t.fenced := by cases e <;> rfl
@[simp] theorem onStream_moved (t : Tile) (e : Bool) (g : Stream → Stream) : (t.onStream e g).moved = t.moved := by cases e <;> rfl
@[simp] theorem onStream_sati (t : Tile) (e : Bool) (g : Stream → Stream) : (t.onStream e g).sati = t.sati := by cases e <;> rfl
@[simp] theorem onStream_gang (t : Tile) (e : Bool) (g : Stream → Stream) : (t.onStream e g).gang = t.gang := by cases e <;> rfl
@[simp] theorem onStream_set0 (t : Tile) (e : Bool) (g : Stream → Stream) : (t.onStream e g).set0 = t.set0 := by cases e <;> rfl
@[simp] theorem onStream_set1 (t : Tile) (e : Bool) (g : Stream → Stream) : (t.onStream e g).set1 = t.set1 := by cases e <;> rfl
@[simp] theorem onStream_act (t : Tile) (e : Bool) (g : Stream → Stream) : (t.onStream e g).act = t.act := by cases e <;> rfl
@[simp] theorem onStream_muFl (t : Tile) (e : Bool) (g : Stream → Stream) : (t.onStream e g).muFl = t.muFl := by cases e <;> rfl
@[simp] theorem onStream_acc (t : Tile) (e : Bool) (g : Stream → Stream) : (t.onStream e g).acc = t.acc := by cases e <;> rfl
@[simp] theorem onStream_accInt (t : Tile) (e : Bool) (g : Stream → Stream) : (t.onStream e g).accInt = t.accInt := by cases e <;> rfl
@[simp] theorem onStream_accBad (t : Tile) (e : Bool) (g : Stream → Stream) : (t.onStream e g).accBad = t.accBad := by cases e <;> rfl
@[simp] theorem onStream_muRows (t : Tile) (e : Bool) (g : Stream → Stream) : (t.onStream e g).muRows = t.muRows := by cases e <;> rfl
@[simp] theorem onStream_muSkip (t : Tile) (e : Bool) (g : Stream → Stream) : (t.onStream e g).muSkip = t.muSkip := by cases e <;> rfl
@[simp] theorem onStream_cvSet (t : Tile) (e : Bool) (g : Stream → Stream) : (t.onStream e g).cvSet = t.cvSet := by cases e <;> rfl
@[simp] theorem onStream_cvPar (t : Tile) (e : Bool) (g : Stream → Stream) : (t.onStream e g).cvPar = t.cvPar := by cases e <;> rfl
@[simp] theorem onStream_cvSeed (t : Tile) (e : Bool) (g : Stream → Stream) : (t.onStream e g).cvSeed = t.cvSeed := by cases e <;> rfl
@[simp] theorem onStream_cvCnt (t : Tile) (e : Bool) (g : Stream → Stream) : (t.onStream e g).cvCnt = t.cvCnt := by cases e <;> rfl
@[simp] theorem onStream_cvFl (t : Tile) (e : Bool) (g : Stream → Stream) : (t.onStream e g).cvFl = t.cvFl := by cases e <;> rfl
@[simp] theorem onStream_cvRows (t : Tile) (e : Bool) (g : Stream → Stream) : (t.onStream e g).cvRows = t.cvRows := by cases e <;> rfl
@[simp] theorem onStream_cvSat (t : Tile) (e : Bool) (g : Stream → Stream) : (t.onStream e g).cvSat = t.cvSat := by cases e <;> rfl
@[simp] theorem onStream_chain (t : Tile) (e : Bool) (g : Stream → Stream) : (t.onStream e g).chain = t.chain := by cases e <;> rfl
@[simp] theorem onStream_vrb (t : Tile) (e : Bool) (g : Stream → Stream) : (t.onStream e g).vrb = t.vrb := by cases e <;> rfl
@[simp] theorem onStream_vrbMax (t : Tile) (e : Bool) (g : Stream → Stream) : (t.onStream e g).vrbMax = t.vrbMax := by cases e <;> rfl
@[simp] theorem onStream_vcLen (t : Tile) (e : Bool) (g : Stream → Stream) : (t.onStream e g).vcLen = t.vcLen := by cases e <;> rfl
@[simp] theorem onStream_vcMask (t : Tile) (e : Bool) (g : Stream → Stream) : (t.onStream e g).vcMask = t.vcMask := by cases e <;> rfl
@[simp] theorem onStream_vcCnt (t : Tile) (e : Bool) (g : Stream → Stream) : (t.onStream e g).vcCnt = t.vcCnt := by cases e <;> rfl
@[simp] theorem onStream_vcFl (t : Tile) (e : Bool) (g : Stream → Stream) : (t.onStream e g).vcFl = t.vcFl := by cases e <;> rfl
@[simp] theorem onStream_vcGroups (t : Tile) (e : Bool) (g : Stream → Stream) : (t.onStream e g).vcGroups = t.vcGroups := by cases e <;> rfl
@[simp] theorem onStream_vcSat (t : Tile) (e : Bool) (g : Stream → Stream) : (t.onStream e g).vcSat = t.vcSat := by cases e <;> rfl
@[simp] theorem onStream_flags (t : Tile) (e : Bool) (g : Stream → Stream) : (t.onStream e g).flags = t.flags := by cases e <;> rfl
@[simp] theorem onStream_queues (t : Tile) (e : Bool) (g : Stream → Stream) : (t.onStream e g).queues = t.queues := by cases e <;> rfl
@[simp] theorem onStream_ic (t : Tile) (e : Bool) (g : Stream → Stream) : (t.onStream e g).ic = t.ic := by cases e <;> rfl
@[simp] theorem onStream_oc (t : Tile) (e : Bool) (g : Stream → Stream) : (t.onStream e g).oc = t.oc := by cases e <;> rfl
@[simp] theorem onStream_bank (t : Tile) (e : Bool) (g : Stream → Stream) : (t.onStream e g).bank = t.bank := by cases e <;> rfl
@[simp] theorem onStream_actb (t : Tile) (e : Bool) (g : Stream → Stream) : (t.onStream e g).actb = t.actb := by cases e <;> rfl
@[simp] theorem onStream_pend (t : Tile) (e : Bool) (g : Stream → Stream) : (t.onStream e g).pend = t.pend := by cases e <;> rfl
@[simp] theorem onStream_planId (t : Tile) (e : Bool) (g : Stream → Stream) : (t.onStream e g).planId = t.planId := by cases e <;> rfl
@[simp] theorem onStream_work (t : Tile) (e : Bool) (g : Stream → Stream) : (t.onStream e g).work = t.work := by cases e <;> rfl
@[simp] theorem onStream_page (t : Tile) (e : Bool) (g : Stream → Stream) : (t.onStream e g).page = t.page := by cases e <;> rfl
@[simp] theorem onStream_pages (t : Tile) (e : Bool) (g : Stream → Stream) : (t.onStream e g).pages = t.pages := by cases e <;> rfl
@[simp] theorem onStream_swapLimit (t : Tile) (e : Bool) (g : Stream → Stream) : (t.onStream e g).swapLimit = t.swapLimit := by cases e <;> rfl
@[simp] theorem onStream_stallLimit (t : Tile) (e : Bool) (g : Stream → Stream) : (t.onStream e g).stallLimit = t.stallLimit := by cases e <;> rfl
@[simp] theorem onStream_planOk (t : Tile) (e : Bool) (g : Stream → Stream) : (t.onStream e g).planOk = t.planOk := by cases e <;> rfl
@[simp] theorem onStream_running (t : Tile) (e : Bool) (g : Stream → Stream) : (t.onStream e g).running = t.running := by cases e <;> rfl
@[simp] theorem onStream_swpBeats (t : Tile) (e : Bool) (g : Stream → Stream) : (t.onStream e g).swpBeats = t.swpBeats := by cases e <;> rfl
@[simp] theorem onStream_lib (t : Tile) (e : Bool) (g : Stream → Stream) : (t.onStream e g).lib = t.lib := by cases e <;> rfl
@[simp] theorem onStream_routines (t : Tile) (e : Bool) (g : Stream → Stream) : (t.onStream e g).routines = t.routines := by cases e <;> rfl
@[simp] theorem onStream_mem (t : Tile) (e : Bool) (g : Stream → Stream) : (t.onStream e g).mem = t.mem := by cases e <;> rfl
@[simp] theorem onStream_errs (t : Tile) (e : Bool) (g : Stream → Stream) : (t.onStream e g).errs = t.errs := by cases e <;> rfl
@[simp] theorem onStream_wback (t : Tile) (e : Bool) (g : Stream → Stream) : (t.onStream e g).wback = t.wback := by cases e <;> rfl
@[simp] theorem onStream_map (t : Tile) (e : Bool) (g : Stream → Stream) : (t.onStream e g).map = t.map := by cases e <;> rfl
@[simp] theorem onStream_scrubEnd (t : Tile) (e : Bool) (g : Stream → Stream) : (t.onStream e g).scrubEnd = t.scrubEnd := by cases e <;> rfl
@[simp] theorem onStream_spCorr (t : Tile) (e : Bool) (g : Stream → Stream) : (t.onStream e g).spCorr = t.spCorr := by cases e <;> rfl
@[simp] theorem onStream_wlost (t : Tile) (e : Bool) (g : Stream → Stream) : (t.onStream e g).wlost = t.wlost := by cases e <;> rfl
@[simp] theorem onStream_corrN (t : Tile) (e : Bool) (g : Stream → Stream) : (t.onStream e g).corrN = t.corrN := by cases e <;> rfl
@[simp] theorem onStream_wlostN (t : Tile) (e : Bool) (g : Stream → Stream) : (t.onStream e g).wlostN = t.wlostN := by cases e <;> rfl
@[simp] theorem onStream_patrol (t : Tile) (e : Bool) (g : Stream → Stream) : (t.onStream e g).patrol = t.patrol := by cases e <;> rfl
@[simp] theorem onStream_mbox (t : Tile) (e : Bool) (g : Stream → Stream) : (t.onStream e g).mbox = t.mbox := by cases e <;> rfl
@[simp] theorem onStream_icIn (t : Tile) (e : Bool) (g : Stream → Stream) : (t.onStream e g).icIn = t.icIn := by cases e <;> rfl
@[simp] theorem onStream_resetAt (t : Tile) (e : Bool) (g : Stream → Stream) : (t.onStream e g).resetAt = t.resetAt := by cases e <;> rfl
@[simp] theorem onStream_startAt (t : Tile) (e : Bool) (g : Stream → Stream) : (t.onStream e g).startAt = t.startAt := by cases e <;> rfl
@[simp] theorem onStream_at_ (t : Tile) (e : Bool) (g : Stream → Stream) : (t.onStream e g).at_ = t.at_ := by cases e <;> rfl
@[simp] theorem onStream_muNew (t : Tile) (e : Bool) (g : Stream → Stream) : (t.onStream e g).muNew = t.muNew := by cases e <;> rfl
@[simp] theorem onStream_cvNew (t : Tile) (e : Bool) (g : Stream → Stream) : (t.onStream e g).cvNew = t.cvNew := by cases e <;> rfl
@[simp] theorem onStream_vcNew (t : Tile) (e : Bool) (g : Stream → Stream) : (t.onStream e g).vcNew = t.vcNew := by cases e <;> rfl
@[simp] theorem onStream_wrAt (t : Tile) (e : Bool) (g : Stream → Stream) : (t.onStream e g).wrAt = t.wrAt := by cases e <;> rfl
@[simp] theorem onStream_muWait (t : Tile) (e : Bool) (g : Stream → Stream) : (t.onStream e g).muWait = t.muWait := by cases e <;> rfl
@[simp] theorem onStream_vcWait (t : Tile) (e : Bool) (g : Stream → Stream) : (t.onStream e g).vcWait = t.vcWait := by cases e <;> rfl
@[simp] theorem onStream_conf (t : Tile) (e : Bool) (g : Stream → Stream) : (t.onStream e g).conf = t.conf := by cases e <;> rfl

/-- Entering a cycle changes the cycle and what was noted as set in it. -/
@[simp] theorem enter_at (st : Nat) (t : Tile) : (t.enter st).at_ = st := by unfold Tile.enter; split <;> simp_all
@[simp] theorem enter_fenced (st : Nat) (t : Tile) : (t.enter st).fenced = t.fenced := by unfold Tile.enter; split <;> rfl
@[simp] theorem enter_moved (st : Nat) (t : Tile) : (t.enter st).moved = t.moved := by unfold Tile.enter; split <;> rfl
@[simp] theorem enter_sati (st : Nat) (t : Tile) : (t.enter st).sati = t.sati := by unfold Tile.enter; split <;> rfl
@[simp] theorem enter_gang (st : Nat) (t : Tile) : (t.enter st).gang = t.gang := by unfold Tile.enter; split <;> rfl
@[simp] theorem enter_set0 (st : Nat) (t : Tile) : (t.enter st).set0 = t.set0 := by unfold Tile.enter; split <;> rfl
@[simp] theorem enter_set1 (st : Nat) (t : Tile) : (t.enter st).set1 = t.set1 := by unfold Tile.enter; split <;> rfl
@[simp] theorem enter_act (st : Nat) (t : Tile) : (t.enter st).act = t.act := by unfold Tile.enter; split <;> rfl
@[simp] theorem enter_muFl (st : Nat) (t : Tile) : (t.enter st).muFl = t.muFl := by unfold Tile.enter; split <;> rfl
@[simp] theorem enter_acc (st : Nat) (t : Tile) : (t.enter st).acc = t.acc := by unfold Tile.enter; split <;> rfl
@[simp] theorem enter_accInt (st : Nat) (t : Tile) : (t.enter st).accInt = t.accInt := by unfold Tile.enter; split <;> rfl
@[simp] theorem enter_accBad (st : Nat) (t : Tile) : (t.enter st).accBad = t.accBad := by unfold Tile.enter; split <;> rfl
@[simp] theorem enter_muRows (st : Nat) (t : Tile) : (t.enter st).muRows = t.muRows := by unfold Tile.enter; split <;> rfl
@[simp] theorem enter_muSkip (st : Nat) (t : Tile) : (t.enter st).muSkip = t.muSkip := by unfold Tile.enter; split <;> rfl
@[simp] theorem enter_muWait (st : Nat) (t : Tile) : (t.enter st).muWait = t.muWait := by unfold Tile.enter; split <;> rfl
@[simp] theorem enter_cvSet (st : Nat) (t : Tile) : (t.enter st).cvSet = t.cvSet := by unfold Tile.enter; split <;> rfl
@[simp] theorem enter_cvPar (st : Nat) (t : Tile) : (t.enter st).cvPar = t.cvPar := by unfold Tile.enter; split <;> rfl
@[simp] theorem enter_cvSeed (st : Nat) (t : Tile) : (t.enter st).cvSeed = t.cvSeed := by unfold Tile.enter; split <;> rfl
@[simp] theorem enter_cvCnt (st : Nat) (t : Tile) : (t.enter st).cvCnt = t.cvCnt := by unfold Tile.enter; split <;> rfl
@[simp] theorem enter_cvFl (st : Nat) (t : Tile) : (t.enter st).cvFl = t.cvFl := by unfold Tile.enter; split <;> rfl
@[simp] theorem enter_cvRows (st : Nat) (t : Tile) : (t.enter st).cvRows = t.cvRows := by unfold Tile.enter; split <;> rfl
@[simp] theorem enter_cvSat (st : Nat) (t : Tile) : (t.enter st).cvSat = t.cvSat := by unfold Tile.enter; split <;> rfl
@[simp] theorem enter_chain (st : Nat) (t : Tile) : (t.enter st).chain = t.chain := by unfold Tile.enter; split <;> rfl
@[simp] theorem enter_vrb (st : Nat) (t : Tile) : (t.enter st).vrb = t.vrb := by unfold Tile.enter; split <;> rfl
@[simp] theorem enter_vrbMax (st : Nat) (t : Tile) : (t.enter st).vrbMax = t.vrbMax := by unfold Tile.enter; split <;> rfl
@[simp] theorem enter_vcLen (st : Nat) (t : Tile) : (t.enter st).vcLen = t.vcLen := by unfold Tile.enter; split <;> rfl
@[simp] theorem enter_vcMask (st : Nat) (t : Tile) : (t.enter st).vcMask = t.vcMask := by unfold Tile.enter; split <;> rfl
@[simp] theorem enter_vcCnt (st : Nat) (t : Tile) : (t.enter st).vcCnt = t.vcCnt := by unfold Tile.enter; split <;> rfl
@[simp] theorem enter_vcFl (st : Nat) (t : Tile) : (t.enter st).vcFl = t.vcFl := by unfold Tile.enter; split <;> rfl
@[simp] theorem enter_vcGroups (st : Nat) (t : Tile) : (t.enter st).vcGroups = t.vcGroups := by unfold Tile.enter; split <;> rfl
@[simp] theorem enter_vcSat (st : Nat) (t : Tile) : (t.enter st).vcSat = t.vcSat := by unfold Tile.enter; split <;> rfl
@[simp] theorem enter_vcWait (st : Nat) (t : Tile) : (t.enter st).vcWait = t.vcWait := by unfold Tile.enter; split <;> rfl
@[simp] theorem enter_flags (st : Nat) (t : Tile) : (t.enter st).flags = t.flags := by unfold Tile.enter; split <;> rfl
@[simp] theorem enter_queues (st : Nat) (t : Tile) : (t.enter st).queues = t.queues := by unfold Tile.enter; split <;> rfl
@[simp] theorem enter_ic (st : Nat) (t : Tile) : (t.enter st).ic = t.ic := by unfold Tile.enter; split <;> rfl
@[simp] theorem enter_oc (st : Nat) (t : Tile) : (t.enter st).oc = t.oc := by unfold Tile.enter; split <;> rfl
@[simp] theorem enter_sa (st : Nat) (t : Tile) : (t.enter st).sa = t.sa := by unfold Tile.enter; split <;> rfl
@[simp] theorem enter_se (st : Nat) (t : Tile) : (t.enter st).se = t.se := by unfold Tile.enter; split <;> rfl
@[simp] theorem enter_bank (st : Nat) (t : Tile) : (t.enter st).bank = t.bank := by unfold Tile.enter; split <;> rfl
@[simp] theorem enter_actb (st : Nat) (t : Tile) : (t.enter st).actb = t.actb := by unfold Tile.enter; split <;> rfl
@[simp] theorem enter_pend (st : Nat) (t : Tile) : (t.enter st).pend = t.pend := by unfold Tile.enter; split <;> rfl
@[simp] theorem enter_planId (st : Nat) (t : Tile) : (t.enter st).planId = t.planId := by unfold Tile.enter; split <;> rfl
@[simp] theorem enter_work (st : Nat) (t : Tile) : (t.enter st).work = t.work := by unfold Tile.enter; split <;> rfl
@[simp] theorem enter_page (st : Nat) (t : Tile) : (t.enter st).page = t.page := by unfold Tile.enter; split <;> rfl
@[simp] theorem enter_pages (st : Nat) (t : Tile) : (t.enter st).pages = t.pages := by unfold Tile.enter; split <;> rfl
@[simp] theorem enter_swapLimit (st : Nat) (t : Tile) : (t.enter st).swapLimit = t.swapLimit := by unfold Tile.enter; split <;> rfl
@[simp] theorem enter_stallLimit (st : Nat) (t : Tile) : (t.enter st).stallLimit = t.stallLimit := by unfold Tile.enter; split <;> rfl
@[simp] theorem enter_planOk (st : Nat) (t : Tile) : (t.enter st).planOk = t.planOk := by unfold Tile.enter; split <;> rfl
@[simp] theorem enter_running (st : Nat) (t : Tile) : (t.enter st).running = t.running := by unfold Tile.enter; split <;> rfl
@[simp] theorem enter_swpBeats (st : Nat) (t : Tile) : (t.enter st).swpBeats = t.swpBeats := by unfold Tile.enter; split <;> rfl
@[simp] theorem enter_lib (st : Nat) (t : Tile) : (t.enter st).lib = t.lib := by unfold Tile.enter; split <;> rfl
@[simp] theorem enter_routines (st : Nat) (t : Tile) : (t.enter st).routines = t.routines := by unfold Tile.enter; split <;> rfl
@[simp] theorem enter_mem (st : Nat) (t : Tile) : (t.enter st).mem = t.mem := by unfold Tile.enter; split <;> rfl
@[simp] theorem enter_errs (st : Nat) (t : Tile) : (t.enter st).errs = t.errs := by unfold Tile.enter; split <;> rfl
@[simp] theorem enter_wback (st : Nat) (t : Tile) : (t.enter st).wback = t.wback := by unfold Tile.enter; split <;> rfl
@[simp] theorem enter_map (st : Nat) (t : Tile) : (t.enter st).map = t.map := by unfold Tile.enter; split <;> rfl
@[simp] theorem enter_scrubEnd (st : Nat) (t : Tile) : (t.enter st).scrubEnd = t.scrubEnd := by unfold Tile.enter; split <;> rfl
@[simp] theorem enter_spCorr (st : Nat) (t : Tile) : (t.enter st).spCorr = t.spCorr := by unfold Tile.enter; split <;> rfl
@[simp] theorem enter_wlost (st : Nat) (t : Tile) : (t.enter st).wlost = t.wlost := by unfold Tile.enter; split <;> rfl
@[simp] theorem enter_conf (st : Nat) (t : Tile) : (t.enter st).conf = t.conf := by unfold Tile.enter; split <;> rfl
@[simp] theorem enter_corrN (st : Nat) (t : Tile) : (t.enter st).corrN = t.corrN := by unfold Tile.enter; split <;> rfl
@[simp] theorem enter_wlostN (st : Nat) (t : Tile) : (t.enter st).wlostN = t.wlostN := by unfold Tile.enter; split <;> rfl
@[simp] theorem enter_patrol (st : Nat) (t : Tile) : (t.enter st).patrol = t.patrol := by unfold Tile.enter; split <;> rfl
@[simp] theorem enter_mbox (st : Nat) (t : Tile) : (t.enter st).mbox = t.mbox := by unfold Tile.enter; split <;> rfl
@[simp] theorem enter_icIn (st : Nat) (t : Tile) : (t.enter st).icIn = t.icIn := by unfold Tile.enter; split <;> rfl
@[simp] theorem enter_resetAt (st : Nat) (t : Tile) : (t.enter st).resetAt = t.resetAt := by unfold Tile.enter; split <;> rfl
@[simp] theorem enter_startAt (st : Nat) (t : Tile) : (t.enter st).startAt = t.startAt := by unfold Tile.enter; split <;> rfl
@[simp] theorem enter_wrAt (st : Nat) (t : Tile) : (t.enter st).wrAt = t.wrAt := by unfold Tile.enter; split <;> rfl

/-- A write of a tile register leaves the streams and the flags alone. -/
theorem writeReg_shape (t : Tile) (n v : Nat) : (t.writeReg n v).sa = t.sa ∧ (t.writeReg n v).se = t.se ∧ (t.writeReg n v).flags = t.flags := by
  unfold Tile.writeReg; split <;> exact ⟨rfl, rfl, rfl⟩
@[simp] theorem writeBy_sa (t : Tile) (w n v : Nat) : (t.writeBy w n v).sa = t.sa := by
  unfold Tile.writeBy; split
  · exact (writeReg_shape t n v).1
  · rfl
@[simp] theorem writeBy_se (t : Tile) (w n v : Nat) : (t.writeBy w n v).se = t.se := by
  unfold Tile.writeBy; split
  · exact (writeReg_shape t n v).2.1
  · rfl
@[simp] theorem writeBy_flags (t : Tile) (w n v : Nat) : (t.writeBy w n v).flags = t.flags := by
  unfold Tile.writeBy; split
  · exact (writeReg_shape t n v).2.2
  · rfl

/-- With nothing in flight nothing advances. -/
theorem pump_calm (n : Nat) (t : Tile) (h1 : t.sa.ops = []) (h2 : t.se.ops = []) : pump n t = (t, none) := by
  cases n with
  | zero => rfl
  | succ n => simp only [pump, h1, passOps, Tile.eta_sa t h1, h2, Tile.eta_se t h2]; rfl
@[simp] theorem Flags.or_empty (f : Flags) : f.or {} = f := by cases f; simp [Flags.or]
@[simp] theorem Stream.moved_self (x : Stream) : Stream.moved x x = x := by cases x; simp [Stream.moved]
/-- A tile in which nothing has advanced is as it was. -/
@[simp] theorem Tile.noted_quiet (t : Tile) : t.noted t.quiet = t := by simp [Tile.noted, Tile.quiet]
@[simp] theorem Tile.quiet_sa (t : Tile) : t.quiet.sa = t.sa := rfl
@[simp] theorem Tile.quiet_se (t : Tile) : t.quiet.se = t.se := rfl
@[simp] theorem Tile.quiet_stream (t : Tile) (e : Bool) : t.quiet.stream e = t.stream e := rfl
theorem advance_calm (t : Tile) (h1 : t.sa.ops = []) (h2 : t.se.ops = []) : t.advance = (t, none) := by
  have e := pump_calm t.todo t.quiet h1 h2
  simp only [Tile.advance, e, Tile.noted_quiet]
/-- A completion whose flag can rise. -/
theorem complete_rise (h : IHdr) (t : Tile) (tag otag : Nat) (hr : canRise h t = true) : complete t h.sfl tag otag = (risen h t, none) := by
  unfold canRise at hr
  unfold complete risen
  cases hs : h.sfl with
  | none => rfl
  | some f =>
    simp only [hs, Option.all_some, decide_eq_true_eq] at hr
    have : ¬(t.flag f ≥ 3) := by omega
    simp [Tile.raiseFlag, this]
/-- What makes an instruction offered, one by one. -/
theorem offered_iff (h : IHdr) (ti : TI) (s : State) : offered h ti s = true ↔
    (inTile h s).issues h.tile h.exe = true ∧ opUndefined ((tileNow h s).wordAt h.exe) = false ∧ offers (tileNow h s) h ti = true ∧
      ti.stream ≠ some (!h.exe) ∧ ti.ok = true ∧ h.wf.all (flagFree (tileNow h s) h.exe) = true ∧ accepted (tileNow h s) h ti = true := by
  simp only [offered, Bool.and_eq_true, decide_eq_true_eq, Bool.not_eq_true']
  tauto
/-- An instruction that is offered is issued. -/
theorem issue_offered (h : IHdr) (ti : TI) (s : State) (ho : offered h ti s = true) :
    issue (tileNow h s) h ti = issueGo h ti (lowered h (tileNow h s)) := by
  obtain ⟨-, -, -, o4, o5, o6, o7⟩ := (offered_iff h ti s).1 ho
  unfold issue
  extract_lets x bad
  rw [if_neg (by simp [o4, o5])]
  cases hw : h.wf with
  | none => simp [o7, lowered, hw]
  | some f =>
    simp only [hw, Option.all_some] at o6
    simp [o6, o7, lowered, hw]
/-- What an instruction that completes at issue answers: its effect, then its flag. -/
theorem issueGo_now (h : IHdr) (ti : TI) (t : Tile) (hn : ti.units t = none) (hv : ti.noStage t = false) (hs : ti ≠ .swp)
    (h1 : (issueEffect (countIssue h ti t) h ti).sa.ops = []) (h2 : (issueEffect (countIssue h ti t) h ti).se.ops = [])
    (hr : canRise h (issueEffect (countIssue h ti t) h ti) = true) :
    issueGo h ti t = (risen h (issueEffect (countIssue h ti t) h ti), none, true) := by
  have h1' : (risen h (issueEffect (countIssue h ti t) h ti)).sa.ops = [] := by rw [← h1]; exact congrArg Stream.ops (risen_sa _ _)
  have h2' : (risen h (issueEffect (countIssue h ti t) h ti)).se.ops = [] := by rw [← h2]; exact congrArg Stream.ops (risen_se _ _)
  simp only [issueGo, hv, Bool.false_eq_true, if_false, hn, hs, complete_rise h _ _ _ hr, advance_calm _ h1' h2']
/-- An instruction in flight alone whose units are all done is complete in the step that issues it. -/
theorem advance_one (e : Bool) (t u : Tile) (o : Op) (n : Nat) (h1 : (t.stream e).ops = [o]) (h2 : (t.stream (!e)).ops = []) (hn : o.total = n) (hu : o.unit = 0)
    (hr : runOp (n + 1) t.quiet o = .done u) (hc : canRise o.h u = true) (h3 : (u.stream (!e)).ops = []) :
    t.advance = (t.noted ((risen o.h u).onStream e (fun s => { s with ops := [] })), none) := by
  have hc' := complete_rise o.h u o.h.tag o.otag hc
  have e1 : o.total - o.unit + 1 = n + 1 := by omega
  have key : pump t.todo t.quiet = ((risen o.h u).onStream e (fun s => { s with ops := [] }), none) := by
    cases e
    · have a1 : t.sa.ops = [o] := h1
      have a2 : t.se.ops = [] := h2
      have a3 : (risen o.h u).se.ops = [] := by rw [risen_se]; exact h3
      have hk : t.todo = n + 2 := by simp [Tile.todo, a1, a2, hn, hu]; omega
      rw [hk, pump]
      simp only [Tile.quiet_sa, a1, passOps, List.isEmpty_nil, if_true, e1, hr, hc', a3, Bool.true_or, if_true]
      exact (pump_calm _ _ rfl rfl).trans (congrArg (fun x => (x, none)) (Tile.eta_se ((risen o.h u).onStream false (fun s => { s with ops := [] })) a3))
    · have a1 : t.se.ops = [o] := h1
      have a2 : t.sa.ops = [] := h2
      have a2' : t.quiet.sa.ops = [] := h2
      have a1' : t.quiet.se.ops = [o] := h1
      have a3 : (risen o.h u).sa.ops = [] := by rw [risen_sa]; exact h3
      have hk : t.todo = n + 2 := by simp [Tile.todo, a1, a2, hn, hu]; omega
      rw [hk, pump]
      simp only [a2', passOps, a1', List.isEmpty_nil, if_true, Tile.eta_sa t.quiet a2', e1, hr, hc', Bool.or_true, if_true]
      exact pump_calm _ _ a3 rfl
  simp only [Tile.advance, key]
/-- The step of an instruction that is issued without a fault, with nothing traced. -/
theorem tileStep_next (h : IHdr) (ti : TI) (s : State) (u : Tile) (d : Bool) (ho : offered h ti s = true) (ht : (inTile h s).tr.traces = [])
    (hr : issue (tileNow h s) h ti = (u, none, d)) : tileStep h ti s = (inTile h s).setTile h.tile u := by
  obtain ⟨e1, e4, e5, -⟩ := (offered_iff h ti s).1 ho
  have e3 : ((inTile h s).setTile h.tile u).tr.traces = [] := ht
  unfold tileStep
  extract_lets s1 x
  have q1 : s1.issues h.tile h.exe = true := e1
  have q2 : opUndefined (x.wordAt h.exe) = false := e4
  have q3 : offers x h ti = true := e5
  have q4 : issue x h ti = (u, none, d) := hr
  rw [if_neg (by simp [q1]), if_neg (by simp [q2]), if_neg (by simp [q3]), q4]
  show State.traceIssue _ h ti _ d = _
  unfold State.traceIssue
  exact if_pos e3
/-- An instruction that goes into flight alone, whose units are all done, lands in the step that issues it. -/
theorem issueGo_flight (h : IHdr) (ti : TI) (n : Nat) (s : State) (u : Tile) (hc : calm h s = true) (hn : ti.units (lowered h (tileNow h s)) = some n)
    (hv : ti.noStage (lowered h (tileNow h s)) = false)
    (he : issueEffect (atIssue h ti s) h ti = (atIssue h ti s).onStream h.exe Stream.stepPast) (hd : unitsDone h ti n s u) (hr : canRise h u = true)
    (h3 : (u.stream (!h.exe)).ops = []) : issueGo h ti (lowered h (tileNow h s)) = (landed h (flying h ti n s).1 u, none, true) := by
  simp only [calm, Bool.and_eq_true, List.isEmpty_iff] at hc
  obtain ⟨⟨c1, c2⟩, -⟩ := hc
  have e0 : issueEffect (countIssue h ti (lowered h (tileNow h s))) h ti = (atIssue h ti s).onStream h.exe Stream.stepPast := he
  have q : ∀ e, ((lowered h (tileNow h s)).stream e).ops = [] := by
    intro e; rw [lowered_stream]; cases e
    · exact c1
    · exact c2
  have e1 : (((atIssue h ti s).onStream h.exe Stream.stepPast).onStream h.exe (fun x => { x with ops := x.ops ++ [mkOp (lowered h (tileNow h s)) h ti n] })) =
      (flying h ti n s).1 := by
    have q1 := q h.exe
    cases hx : h.exe <;> rw [hx] at q1 <;>
      simp only [flying, atIssue, hx, Tile.onStream, countIssue, addWait, Stream.stepPast, Bool.false_eq_true, if_false, if_true] <;> simp [c1, c2]
  have a := advance_one h.exe (flying h ti n s).1 u (flying h ti n s).2 n (by cases hx : h.exe <;> simp [flying, Tile.onStream, Tile.stream, hx])
    (by have q1 := q (!h.exe); cases hx : h.exe <;> rw [hx] at q1 <;>
          simp only [flying, atIssue, hx, Tile.onStream, countIssue, addWait, Tile.stream, Stream.stepPast, Bool.false_eq_true, if_false, if_true, Bool.not_true, Bool.not_false] <;> exact q1)
    rfl rfl hd hr h3
  simp only [issueGo, hv, Bool.false_eq_true, if_false, hn, e0, e1]
  rw [a]; rfl

/-! A unit of an instruction changes neither stream of its tile. -/

/-- What a part of a unit answers has the streams of `t`. -/
def UR.keeps {α : Type} (t : Tile) : UR α → Prop
  | .ok u _ => u.sa = t.sa ∧ u.se = t.se
  | .wait _ => True
  | .fault _ _ _ _ => True
theorem UR.keeps_bind {α β : Type} {t : Tile} {x : UR α} {f : Tile → α → UR β} (h : x.keeps t) (hf : ∀ u a, (f u a).keeps u) : (x.bind f).keeps t := by
  cases x with
  | ok u a =>
    have q := hf u a
    simp only [UR.bind]
    cases hx : f u a with
    | ok v b => rw [hx] at q; exact ⟨q.1.trans h.1, q.2.trans h.2⟩
    | wait _ => trivial
    | fault _ _ _ _ => trivial
  | wait _ => trivial
  | fault _ _ _ _ => trivial
theorem UR.keeps_ok {α : Type} (t : Tile) (a : α) : (UR.ok t a).keeps t := ⟨rfl, rfl⟩
theorem UR.keeps_of {α : Type} {t v : Tile} {x : UR α} (h : x.keeps v) (h1 : v.sa = t.sa) (h2 : v.se = t.se) : x.keeps t := by
  cases x with
  | ok u a => exact ⟨h.1.trans h1, h.2.trans h2⟩
  | wait _ => trivial
  | fault _ _ _ _ => trivial
theorem UR.keeps_ite {α : Type} {t : Tile} {c : Prop} [Decidable c] {x y : UR α} (h1 : x.keeps t) (h2 : y.keeps t) : (if c then x else y).keeps t := by
  split
  · exact h1
  · exact h2
theorem addrFault_keeps {α : Type} (t v : Tile) (a : Int) : (addrFault (α := α) v a).keeps t := trivial
theorem checkWord_keeps (m : Nat) (t : Tile) (w : Nat) : (checkWord m t w).keeps t := by
  unfold checkWord; split <;> first | exact ⟨rfl, rfl⟩ | trivial
theorem checkWords_keeps (m : Nat) (ws : List Nat) : ∀ t, (checkWords m t ws).keeps t := by
  induction ws with
  | nil => exact fun _ => ⟨rfl, rfl⟩
  | cons w ws ih =>
    intro t
    have q := checkWord_keeps m t w
    unfold checkWords
    split
    · split <;> trivial
    · next e => rw [e] at q; exact UR.keeps_of (ih _) q.1 q.2
    · trivial
theorem rdRange_keeps (m : Nat) (t : Tile) (a : Int) (n : Nat) : (rdRange m t a n).keeps t :=
  UR.keeps_ite (UR.keeps_bind (checkWords_keeps m _ t) (fun _ _ => ⟨rfl, rfl⟩)) trivial
theorem wrRange_keeps (m : Nat) (l : List Nat) (t : Tile) (a : Int) (bs : List Byte) : (wrRange m l t a bs).keeps t := by
  refine UR.keeps_ite ⟨rfl, rfl⟩ (UR.keeps_ite (UR.keeps_bind (checkWords_keeps m _ t) (fun u _ => ?_)) trivial)
  dsimp only; split <;> exact ⟨rfl, rfl⟩
theorem popWords_keeps (t : Tile) (q n : Nat) : (popWords t q n).keeps t := by
  unfold popWords; dsimp only; split
  · trivial
  · split
    · trivial
    · exact ⟨rfl, rfl⟩
theorem pushWords_keeps (t : Tile) (q : Nat) (ws : List Nat) : (pushWords t q ws).keeps t := by
  unfold pushWords; dsimp only; split
  · exact ⟨rfl, rfl⟩
  · trivial
theorem rdRow_keeps (m : Nat) (t : Tile) (p : Snap) (a : Int) (n : Nat) : (rdRow m t p a n).keeps t :=
  UR.keeps_ite (UR.keeps_bind (popWords_keeps _ _ _) (fun _ _ => ⟨rfl, rfl⟩)) (UR.keeps_ite trivial (rdRange_keeps _ _ _ _))
theorem wrRow_keeps (m : Nat) (l : List Nat) (t : Tile) (p : Snap) (a : Int) (bs : List Byte) : (wrRow m l t p a bs).keeps t :=
  UR.keeps_ite (pushWords_keeps _ _ _) (UR.keeps_ite trivial (wrRange_keeps _ _ _ _ _))
theorem rdPacked_keeps (m : Nat) (t : Tile) (p : Snap) (b : List Byte) (u n : Nat) : (rdPacked m t p b u n).keeps t :=
  UR.keeps_ite (UR.keeps_ite ⟨rfl, rfl⟩ (UR.keeps_bind (popWords_keeps _ _ _) (fun _ _ => ⟨rfl, rfl⟩)))
    (UR.keeps_bind (rdRange_keeps _ _ _ _) (fun _ _ => ⟨rfl, rfl⟩))
theorem wrPacked_keeps (m : Nat) (l : List Nat) (t : Tile) (p : Snap) (b : List Byte) (u : Nat) (bs : List Byte) (z : Bool) : (wrPacked m l t p b u bs z).keeps t :=
  UR.keeps_ite (UR.keeps_ite (UR.keeps_bind (pushWords_keeps _ _ _) (fun _ _ => ⟨rfl, rfl⟩))
      (UR.keeps_ite (UR.keeps_bind (pushWords_keeps _ _ _) (fun _ _ => ⟨rfl, rfl⟩)) ⟨rfl, rfl⟩))
    (UR.keeps_bind (wrRange_keeps _ _ _ _ _) (fun _ _ => ⟨rfl, rfl⟩))
@[simp] theorem setShadow_sa (t : Tile) (x : StSet) : (t.setShadow x).sa = t.sa := by unfold Tile.setShadow; split <;> rfl
@[simp] theorem setShadow_se (t : Tile) (x : StSet) : (t.setShadow x).se = t.se := by unfold Tile.setShadow; split <;> rfl
theorem unitMld_keeps (t : Tile) (o : Op) (f : MldF) : (unitMld t o f).keeps t :=
  UR.keeps_bind (rdRow_keeps _ _ _ _ _) (fun _ _ => ⟨setShadow_sa _ _, setShadow_se _ _⟩)
theorem rdRowScales_keeps (n : Nat) : ∀ t o u, (rdRowScales t o u n).keeps t := by
  induction n with
  | zero => intro t o u; exact ⟨rfl, rfl⟩
  | succ n ih => intro t o u; exact UR.keeps_bind (rdPacked_keeps _ _ _ _ _ _) (fun v a => UR.keeps_bind (ih _ _ _) (fun _ _ => ⟨rfl, rfl⟩))
theorem rdStreamScales_keeps (n : Nat) : ∀ t o u, (rdStreamScales t o u n).keeps t := by
  induction n with
  | zero => intro t o u; exact ⟨rfl, rfl⟩
  | succ n ih => intro t o u; exact UR.keeps_bind (rdPacked_keeps _ _ _ _ _ _) (fun v a => UR.keeps_bind (ih _ _ _) (fun _ _ => ⟨rfl, rfl⟩))
theorem wrPackedBytes_keeps (m : Nat) (l : List Nat) (p : Snap) (z : Bool) (bs : List Byte) : ∀ t b u, (wrPackedBytes m l p z t b u bs).keeps t := by
  induction bs with
  | nil => exact fun _ _ _ => ⟨rfl, rfl⟩
  | cons x bs ih => exact fun t b u => UR.keeps_bind (wrPacked_keeps _ _ _ _ _ _ _ _) (fun _ _ => ih _ _ _)
theorem cvRow_keeps (t : Tile) (o : Op) (k : Nat) (vs : List Val) (col : Nat → Nat) (r : Nat) (z : Bool) : (cvRow t o k vs col r z).keeps t :=
  UR.keeps_bind (UR.keeps_ite (rdRowScales_keeps _ _ _ _) ⟨rfl, rfl⟩) (fun _ _ =>
    UR.keeps_bind (wrRow_keeps _ _ _ _ _ _) (fun _ _ => UR.keeps_bind (UR.keeps_ite (wrPackedBytes_keeps _ _ _ _ _ _ _ _) ⟨rfl, rfl⟩) (fun _ _ => ⟨rfl, rfl⟩)))
theorem cvRows_keeps (k g : Nat) (vs : List (List Val)) : ∀ t o r z, (cvRows k g t o vs r z).keeps t := by
  induction vs with
  | nil => intro t o r z; exact ⟨rfl, rfl⟩
  | cons v vs ih => intro t o r z; exact UR.keeps_bind (cvRow_keeps _ _ _ _ _ _ _) (fun _ _ => ih _ _ _ _)
theorem UR.keeps_okIte {α : Type} {t x y : Tile} {c : Prop} [Decidable c] {a : α} (h1 : (UR.ok x a).keeps t) (h2 : (UR.ok y a).keeps t) :
    (UR.ok (if c then x else y) a).keeps t := by
  split
  · exact h1
  · exact h2
theorem unitMdr_keeps (t : Tile) (o : Op) (f : MdrF) : (unitMdr t o f).keeps t :=
  UR.keeps_ite trivial (UR.keeps_bind (cvRow_keeps _ _ _ _ _ _ _) (fun _ _ => UR.keeps_okIte ⟨rfl, rfl⟩ ⟨rfl, rfl⟩))
theorem unitCvl_keeps (t : Tile) (o : Op) (k : Nat) (pb : Bool) (w : Nat) : (unitCvl t o k pb w).keeps t :=
  UR.keeps_ite (UR.keeps_bind (rdRow_keeps _ _ _ _ _) (fun _ _ => UR.keeps_ite (UR.keeps_okIte ⟨rfl, rfl⟩ ⟨rfl, rfl⟩) ⟨rfl, rfl⟩))
    (UR.keeps_okIte ⟨rfl, rfl⟩ ⟨rfl, rfl⟩)
theorem foldl_keeps {β : Type} (f : Tile → β → Tile) (hf : ∀ u b, (f u b).sa = u.sa ∧ (f u b).se = u.se) (l : List β) :
    ∀ t, (l.foldl f t).sa = t.sa ∧ (l.foldl f t).se = t.se := by
  induction l with
  | nil => exact fun _ => ⟨rfl, rfl⟩
  | cons b l ih => intro t; exact ⟨(ih _).1.trans (hf _ _).1, (ih _).2.trans (hf _ _).2⟩
theorem openSeg_keeps (t : Tile) (op k : Nat) (b : Bool) : (openSeg t op k b).sa = t.sa ∧ (openSeg t op k b).se = t.se := by
  unfold openSeg; split <;> exact ⟨rfl, rfl⟩
theorem argmaxIn_keeps (t : Tile) (c : RunCx) (s : Stage) (g k n d : Nat) : (argmaxIn t c s g k n d).sa = t.sa ∧ (argmaxIn t c s g k n d).se = t.se := by
  unfold argmaxIn; dsimp only; split <;> exact ⟨rfl, rfl⟩
theorem reduceIn_keeps (t : Tile) (c : RunCx) (s : Stage) (g k : Nat) (l : List (Nat × Nat)) :
    (reduceIn t c s g k l).sa = t.sa ∧ (reduceIn t c s g k l).se = t.se := by
  unfold reduceIn; dsimp only
  split
  · exact ⟨rfl, rfl⟩
  · exact ⟨rfl, rfl⟩
  · exact foldl_keeps _ (fun _ _ => argmaxIn_keeps _ _ _ _ _ _ _) l t
theorem reduceSeg_keeps (t : Tile) (c : RunCx) (s : Stage) (ls : List (Lane × Nat)) (g : Nat) :
    (reduceSeg t c s ls g).sa = t.sa ∧ (reduceSeg t c s ls g).se = t.se := by
  have q : ∀ (c : Prop) [Decidable c] (x y : Tile), (x.sa = t.sa ∧ x.se = t.se) → (y.sa = t.sa ∧ y.se = t.se) →
      (if c then x else y).sa = t.sa ∧ (if c then x else y).se = t.se := by
    intro c _ x y hx hy
    split
    · exact hx
    · exact hy
  exact q _ _ _ (openSeg_keeps _ _ _ _)
    ⟨(reduceIn_keeps _ _ _ _ _ _).1.trans (openSeg_keeps _ _ _ _).1, (reduceIn_keeps _ _ _ _ _ _).2.trans (openSeg_keeps _ _ _ _).2⟩
theorem reduceStage_keeps (t : Tile) (c : RunCx) (s : Stage) (gr : Grp) : (reduceStage t c s gr).sa = t.sa ∧ (reduceStage t c s gr).se = t.se :=
  foldl_keeps _ (fun _ _ => reduceSeg_keeps _ _ _ _ _) _ t
theorem packStage_keeps (t : Tile) (c : RunCx) (s : Stage) (gr : Grp) : (packStage t c s gr).1.sa = t.sa ∧ (packStage t c s gr).1.se = t.se := by
  unfold packStage; dsimp only; split <;> exact ⟨rfl, rfl⟩
theorem rdElems_keeps (t : Tile) (p : Snap) (pre : List Nat) (fmt g : Nat) (es : List Nat) : (rdElems t p pre fmt g es).keeps t := by
  unfold rdElems; dsimp only
  refine UR.keeps_ite ⟨rfl, rfl⟩ (UR.keeps_ite trivial ?_)
  split
  · trivial
  · exact UR.keeps_bind (checkWords_keeps _ _ _) (fun _ _ => ⟨rfl, rfl⟩)
theorem rdGrpScales_keeps (t : Tile) (p : Snap) (pre : List Nat) (g n : Nat) : (rdGrpScales t p pre g n).keeps t :=
  UR.keeps_ite ⟨rfl, rfl⟩
    (UR.keeps_bind (rdRange_keeps _ _ _ _) (fun _ _ => UR.keeps_ite ⟨rfl, rfl⟩ (UR.keeps_bind (rdRange_keeps _ _ _ _) (fun _ _ => ⟨rfl, rfl⟩))))
theorem runStage_keeps (t : Tile) (o : Op) (c : RunCx) (s : Stage) (gr : Grp) : (runStage t o c s gr).keeps t := by
  unfold runStage; dsimp only
  split <;> first
    | exact ⟨rfl, rfl⟩
    | exact reduceStage_keeps _ _ _ _
    | exact packStage_keeps _ _ _ _
    | exact UR.keeps_bind (rdElems_keeps _ _ _ _ _ _) (fun _ _ => UR.keeps_bind (UR.keeps_ite (rdGrpScales_keeps _ _ _ _ _) ⟨rfl, rfl⟩) (fun _ _ => ⟨rfl, rfl⟩))
theorem runStages_keeps (o : Op) (c : RunCx) (ss : List Stage) : ∀ t k gr, (runStages o c t k ss gr).keeps t := by
  induction ss with
  | nil => exact fun _ _ _ => ⟨rfl, rfl⟩
  | cons s ss ih =>
    intro t k gr
    have q := runStage_keeps t o c s gr
    unfold runStages
    split
    · next e => rw [e] at q; exact UR.keeps_of (ih _ _ _) q.1 q.2
    · trivial
    · trivial
theorem wrElems_keeps (l : List Nat) (p : Snap) (fmt : Nat) (t : Tile) (es : List (Nat × Nat)) : (wrElems l p fmt t es).keeps t := by
  unfold wrElems
  split
  · trivial
  · exact UR.keeps_bind (checkWords_keeps _ _ _) (fun _ _ => ⟨rfl, rfl⟩)
theorem wrGroup_keeps (l : List Nat) (o : Op) (g : Nat) (ws : List GWrite) : ∀ t, (wrGroup l o g t ws).keeps t := by
  induction ws with
  | nil => exact fun _ => ⟨rfl, rfl⟩
  | cons w ws ih =>
    intro t
    unfold wrGroup
    extract_lets p fmt base n codes bs r
    have q : r.keeps t := UR.keeps_ite (pushWords_keeps _ _ _) (UR.keeps_ite trivial (wrElems_keeps _ _ _ _ _))
    clear_value r
    split
    · exact UR.keeps_of (ih _) q.1 q.2
    · trivial
    · trivial
theorem unitVrn_keeps (t : Tile) (o : Op) : (unitVrn t o).keeps t := by
  unfold unitVrn
  extract_lets cfg g c
  split
  · exact UR.keeps_bind (popWords_keeps _ _ _) (fun _ _ => trivial)
  · exact UR.keeps_bind (runStages_keeps _ _ _ _ _ _) (fun _ _ => UR.keeps_bind (wrGroup_keeps _ _ _ _ _) (fun _ _ => ⟨rfl, rfl⟩))
theorem takeWords_keeps (ag n k : Nat) : ∀ r : Tile × Op, (takeWords ag n k r).1.sa = r.1.sa ∧ (takeWords ag n k r).1.se = r.1.se := by
  induction k with
  | zero => exact fun _ => ⟨rfl, rfl⟩
  | succ k ih =>
    intro r
    unfold takeWords
    dsimp only
    split
    · exact ⟨rfl, rfl⟩
    · have q := popWords_keeps r.1 (r.2.snap ag).q 1
      split
      · next e => rw [e] at q; exact ⟨(ih _).1.trans q.1, (ih _).2.trans q.2⟩
      · exact ⟨rfl, rfl⟩
theorem prefetch_keeps (t : Tile) (o : Op) : (o.prefetch t).1.sa = t.sa ∧ (o.prefetch t).1.se = t.se := by
  unfold Op.prefetch
  have q : ∀ (l : List (Nat × Nat)) (r : Tile × Op), (l.foldl (fun r p => takeWords p.1 p.2 p.2 r) r).1.sa = r.1.sa ∧
      (l.foldl (fun r p => takeWords p.1 p.2 p.2 r) r).1.se = r.1.se := by
    intro l
    induction l with
    | nil => exact fun _ => ⟨rfl, rfl⟩
    | cons a l ih => intro r; exact ⟨(ih _).1.trans (takeWords_keeps _ _ _ _).1, (ih _).2.trans (takeWords_keeps _ _ _ _).2⟩
  split
  · exact q _ _
  · exact ⟨rfl, rfl⟩
theorem unitVcl_keeps (t : Tile) (o : Op) (k : Nat) : (unitVcl t o k).keeps t :=
  UR.keeps_bind (rdRow_keeps _ _ _ _ _) (fun _ _ => UR.keeps_ite (UR.keeps_ite ⟨rfl, rfl⟩ trivial) ⟨rfl, rfl⟩)
theorem unitVrs_keeps (t : Tile) (o : Op) (b n : Nat) : (unitVrs t o b n).keeps t :=
  UR.keeps_bind (wrRow_keeps _ _ _ _ _ _) (fun _ _ => ⟨rfl, rfl⟩)
theorem unitVrl_keeps (t : Tile) (o : Op) (b n : Nat) : (unitVrl t o b n).keeps t :=
  UR.keeps_bind (rdRow_keeps _ _ _ _ _) (fun _ _ => ⟨rfl, rfl⟩)
theorem unitGet_keeps (t : Tile) (o : Op) (c : Nat) : (unitGet t o c).keeps t := by
  unfold unitGet; split
  · trivial
  · exact UR.keeps_bind (UR.keeps_of (wrRow_keeps _ _ _ _ _ _) rfl rfl) (fun _ _ => ⟨rfl, rfl⟩)
theorem placeFlit_keeps (t : Tile) (c f : Nat) : (placeFlit t c f).keeps t := UR.keeps_ite ⟨rfl, rfl⟩ trivial
theorem unitPut_keeps (t : Tile) (o : Op) (c : Nat) : (unitPut t o c).keeps t :=
  UR.keeps_ite trivial (UR.keeps_bind (rdRow_keeps _ _ _ _ _) (fun _ _ => UR.keeps_bind (placeFlit_keeps _ _ _) (fun _ _ => ⟨rfl, rfl⟩)))
theorem rdIndex_keeps (t : Tile) (o : Op) (i : Bool) (n : Nat) : (rdIndex t o i n).keeps t :=
  UR.keeps_bind (rdPacked_keeps _ _ _ _ _ _) (fun _ _ => ⟨rfl, rfl⟩)
theorem rowsFine_keeps (t : Tile) (z : Bool) (l : List (Option Int)) : (rowsFine t z l).keeps t := by
  unfold rowsFine; split
  · trivial
  · exact ⟨rfl, rfl⟩
theorem unitGth_keeps (t : Tile) (o : Op) (f : GthF) : (unitGth t o f).keeps t := by
  unfold unitGth; dsimp only
  refine UR.keeps_bind (UR.keeps_ite (rdIndex_keeps _ _ _ _) ⟨rfl, rfl⟩) (fun u a => UR.keeps_ite trivial
    (UR.keeps_bind (rowsFine_keeps _ _ _) (fun _ _ => UR.keeps_bind (UR.keeps_ite ⟨rfl, rfl⟩ (rdRow_keeps _ _ _ _ _)) (fun v b => ?_))))
  split
  · exact UR.keeps_ite ⟨rfl, rfl⟩ (UR.keeps_bind (placeFlit_keeps _ _ _) (fun _ _ => ⟨rfl, rfl⟩))
  · exact UR.keeps_bind (wrRow_keeps _ _ _ _ _ _) (fun _ _ => ⟨rfl, rfl⟩)
theorem unitSct_keeps (t : Tile) (o : Op) (f : SctF) : (unitSct t o f).keeps t := by
  unfold unitSct; dsimp only
  refine UR.keeps_bind (UR.keeps_ite (rdIndex_keeps _ _ _ _) ⟨rfl, rfl⟩) (fun u a => UR.keeps_ite trivial (UR.keeps_bind (rowsFine_keeps _ _ _)
    (fun _ _ => UR.keeps_bind ?_ (fun v b =>
    UR.keeps_ite ⟨rfl, rfl⟩ (UR.keeps_bind (wrRow_keeps _ _ _ _ _ _) (fun _ _ => ⟨rfl, rfl⟩))))))
  split
  · refine UR.keeps_ite ⟨rfl, rfl⟩ ?_
    split
    · trivial
    · exact ⟨rfl, rfl⟩
  · exact UR.keeps_bind (rdRow_keeps _ _ _ _ _) (fun _ _ => ⟨rfl, rfl⟩)
theorem unitPgl_keeps (t : Tile) (o : Op) (c f : Nat) (z : Bool) : (unitPgl t o c f z).keeps t := by
  unfold unitPgl; split
  · trivial
  · exact ⟨rfl, rfl⟩
theorem mstCapture_keeps (t : Tile) (f : MstF) (p : Snap) (i : Nat) (bs : List Byte) :
    (mstCapture t f p i bs).sa = t.sa ∧ (mstCapture t f p i bs).se = t.se := by
  unfold mstCapture; dsimp only; split
  · exact ⟨setShadow_sa _ _, setShadow_se _ _⟩
  · exact ⟨rfl, rfl⟩
theorem mstStore_keeps (t : Tile) (f : MstF) (a : Nat) (l : List (List (Nat × Nat × Nat × Flags))) :
    (mstStore t f a l).sa = t.sa ∧ (mstStore t f a l).se = t.se := by
  unfold mstStore; dsimp only; split <;> exact ⟨rfl, rfl⟩
theorem mstFinish_keeps (t : Tile) (o : Op) (f : MstF) (l : List (List (Val × Bool))) : (mstFinish t o f l).keeps t :=
  UR.keeps_ite trivial (UR.keeps_ite (UR.keeps_of (cvRows_keeps _ _ _ _ _ _ _) (mstStore_keeps _ _ _ _).1 (mstStore_keeps _ _ _ _).2)
    ⟨(mstStore_keeps _ _ _ _).1, (mstStore_keeps _ _ _ _).2⟩)
theorem mstRow_keeps (t : Tile) (o : Op) (f : MstF) (u : Option Upset) (bs : List Byte) (sc : List Nat) : (mstRow t o f u bs sc).keeps t := by
  unfold mstRow; dsimp only; split
  · trivial
  · exact UR.keeps_of (mstFinish_keeps _ _ _ _) rfl rfl
theorem mstEnter_keeps (f : MstF) (i : Nat) (t : Tile) : (mstEnter f i t).sa = t.sa ∧ (mstEnter f i t).se = t.se := by
  unfold mstEnter; split <;> exact ⟨rfl, rfl⟩
theorem unitMst_keeps (t : Tile) (o : Op) (f : MstF) (up : Option Upset) : (unitMst t o f up).keeps t := by
  unfold unitMst
  dsimp only
  exact UR.keeps_ite trivial (UR.keeps_bind (rdRow_keeps _ _ _ _ _) (fun u _ =>
      UR.keeps_bind (UR.keeps_ite (rdStreamScales_keeps _ _ _ _) ⟨rfl, rfl⟩) (fun v _ =>
        UR.keeps_of (mstRow_keeps _ _ _ _ _ _) ((mstCapture_keeps _ _ _ _ _).1.trans (mstEnter_keeps _ _ _).1)
          ((mstCapture_keeps _ _ _ _ _).2.trans (mstEnter_keeps _ _ _).2))))
theorem unitOp_keeps (t : Tile) (o : Op) : (unitOp t o).keeps t := by
  unfold unitOp; split <;> first
    | exact unitMld_keeps _ _ _
    | exact unitMst_keeps _ _ _ _
    | exact unitMdr_keeps _ _ _
    | exact unitCvl_keeps _ _ _ _ _
    | exact unitVcl_keeps _ _ _
    | exact unitVrn_keeps _ _
    | exact unitVrs_keeps _ _ _ _
    | exact unitVrl_keeps _ _ _ _
    | exact unitGet_keeps _ _ _
    | exact unitPut_keeps _ _ _
    | exact unitGth_keeps _ _ _
    | exact unitSct_keeps _ _ _
    | exact unitPgl_keeps _ _ _ _ _
    | exact UR.keeps_bind (wrRow_keeps _ _ _ _ _ _) (fun _ _ => ⟨rfl, rfl⟩)
    | exact ⟨rfl, rfl⟩
theorem runOp_keeps (n : Nat) : ∀ t o u, runOp n t o = .done u → u.sa = t.sa ∧ u.se = t.se := by
  induction n with
  | zero => intro t o u h; simp [runOp] at h
  | succ n ih =>
    intro t o u h
    rw [runOp] at h
    split at h
    · injection h with h; subst h; exact ⟨rfl, rfl⟩
    · have p := prefetch_keeps t o
      have q := unitOp_keeps (o.prefetch t).1 (o.prefetch t).2
      dsimp only at h
      split at h
      · next e => rw [e] at q; have w := ih _ _ _ h; exact ⟨w.1.trans (q.1.trans p.1), w.2.trans (q.2.trans p.2)⟩
      · simp at h
      · simp at h
theorem unitsDone_other (h : IHdr) (ti : TI) (n : Nat) (s : State) (u : Tile) (hc : calm h s = true) (hd : unitsDone h ti n s u) :
    (u.stream (!h.exe)).ops = [] := by
  simp only [calm, Bool.and_eq_true, List.isEmpty_iff] at hc
  obtain ⟨⟨c1, c2⟩, -⟩ := hc
  have k := runOp_keeps _ _ _ _ hd
  cases hx : h.exe
  · show u.se.ops = []
    rw [k.2]; simp [flying, Tile.onStream, hx, atIssue, countIssue, c2]
  · show u.sa.ops = []
    rw [k.1]; simp [flying, Tile.onStream, hx, atIssue, countIssue, c1]

/-! The step of a tile, complete. -/

/-- An instruction that completes at issue: `u` is the tile with its effect. -/
theorem tileStep_now (h : IHdr) (ti : TI) (s : State) (u : Tile) (ho : offered h ti s = true) (hc : calm h s = true)
    (hn : ti.units (lowered h (tileNow h s)) = none) (hv : ti.noStage (lowered h (tileNow h s)) = false) (hs : ti ≠ .swp)
    (he : issueEffect (atIssue h ti s) h ti = u) (h1 : u.sa.ops = []) (h2 : u.se.ops = []) (hr : canRise h u = true) :
    tileStep h ti s = (inTile h s).setTile h.tile (risen h u) := by
  subst he
  have ht : (inTile h s).tr.traces = [] := by simp only [calm, Bool.and_eq_true, List.isEmpty_iff] at hc; exact hc.2
  exact tileStep_next h ti s _ true ho ht ((issue_offered h ti s ho).trans (issueGo_now h ti _ hn hv hs h1 h2 hr))
/-- An instruction that goes into flight and lands. -/
theorem tileStep_flight (h : IHdr) (ti : TI) (n : Nat) (s : State) (u : Tile) (ho : offered h ti s = true) (hc : calm h s = true)
    (hn : ti.units (lowered h (tileNow h s)) = some n) (hv : ti.noStage (lowered h (tileNow h s)) = false)
    (he : issueEffect (atIssue h ti s) h ti = (atIssue h ti s).onStream h.exe Stream.stepPast) (hd : unitsDone h ti n s u) (hr : canRise h u = true) :
    tileStep h ti s = (inTile h s).setTile h.tile (landed h (flying h ti n s).1 u) := by
  have ht : (inTile h s).tr.traces = [] := by simp only [calm, Bool.and_eq_true, List.isEmpty_iff] at hc; exact hc.2
  exact tileStep_next h ti s _ true ho ht ((issue_offered h ti s ho).trans
    (issueGo_flight h ti n s u hc hn hv he hd hr (unitsDone_other h ti n s u hc hd)))
end Sys2Proof.Machine
end

