-- ==== Sys2Proof/Laws/Landing.lean ====
section
/-! SUPPORT. The units of an instruction in flight alone: where its operands are there and no word carries an error, every unit is done. One lemma
for each operand form, one for each kind of unit, and `runOp_lands`, which puts the units together. -/

namespace Sys2Proof.Machine

/-- A part of a unit is done, with what `P` says. -/
def UR.lands {α : Type} (P : Tile → α → Prop) : UR α → Prop
  | .ok u a => P u a
  | .wait _ => False
  | .fault _ _ _ _ => False
theorem UR.lands_bind {α β : Type} {P : Tile → α → Prop} {Q : Tile → β → Prop} {x : UR α} {f : Tile → α → UR β} (h : x.lands P)
    (hf : ∀ u a, P u a → (f u a).lands Q) : (x.bind f).lands Q := by
  cases x with
  | ok u a => exact hf u a h
  | wait _ => exact h.elim
  | fault _ _ _ _ => exact h.elim
theorem UR.lands_mono {α : Type} {P Q : Tile → α → Prop} {x : UR α} (h : x.lands P) (hf : ∀ u a, P u a → Q u a) : x.lands Q := by
  cases x with
  | ok u a => exact hf u a h
  | wait _ => exact h.elim
  | fault _ _ _ _ => exact h.elim
theorem UR.lands_ok {α : Type} {P : Tile → α → Prop} {x : UR α} {t : Tile} {a : α} (h : x = .ok t a) (hp : P t a) : x.lands P := by subst h; exact hp

/-- `u` is `t` with bytes of its scratchpad written. -/
def Written (t u : Tile) : Prop := ∃ m b l n, u = { t with mem := m, wback := b, wlost := l, wlostN := n }
theorem Written.refl (t : Tile) : Written t t := ⟨_, _, _, _, rfl⟩
theorem Written.trans {t u v : Tile} (h : Written t u) (g : Written u v) : Written t v := by
  obtain ⟨m, b, l, n, rfl⟩ := h; obtain ⟨m', b', l', n', rfl⟩ := g; exact ⟨_, _, _, _, rfl⟩

/-! Checked reads and writes where no word carries an error. -/

theorem checkWords_clean (m : Nat) (t : Tile) (he : t.errs = []) (ws : List Nat) : checkWords m t ws = .ok t () := by
  induction ws with
  | nil => rfl
  | cons w ws ih =>
    have : checkWord m t w = .ok t () := by simp [checkWord, he, Tab.get]
    rw [checkWords, this]; exact ih
theorem rdRange_clean (m : Nat) (t : Tile) (a : Int) (n : Nat) (he : t.errs = []) (hr : t.map.rangeOk a n = true) :
    rdRange m t a n = .ok t (t.mem.rdBytes a.toNat n) := by
  rw [rdRange, if_pos hr, checkWords_clean m t he]; rfl
theorem rdRow_clean (m : Nat) (t : Tile) (p : Snap) (a : Int) (n : Nat) (he : t.errs = []) (hq : p.qm = false) (hr : rowThere t a n = true) :
    rdRow m t p a n = .ok t (t.mem.rdBytes a.toNat n) := by
  simp only [rowThere, Bool.and_eq_true, decide_eq_true_eq] at hr
  rw [rdRow, hq, if_neg (by decide), if_neg (by simp [hr.1])]
  exact rdRange_clean m t a n he hr.2
theorem del_nil (l : List Nat) : l.foldl (fun (e : Tab Nat) w => e.del w) [] = [] := by
  induction l with
  | nil => rfl
  | cons a l ih => exact ih
theorem wrRange_clean (m : Nat) (lost : List Nat) (t : Tile) (a : Int) (bs : List Byte) (he : t.errs = []) (hr : t.map.rangeOk a bs.length = true) :
    (wrRange m lost t a bs).lands (fun u _ => Written t u) := by
  unfold wrRange
  by_cases hb : bs = []
  · rw [if_pos hb]; exact Written.refl t
  · rw [if_neg hb, if_pos hr, checkWords_clean m t he]
    simp only [UR.bind]
    dsimp only [UR.lands]
    split <;> simp only [he, del_nil] <;> exact ⟨_, _, _, _, by rw [← he]⟩
theorem wrRow_clean (m : Nat) (lost : List Nat) (t : Tile) (p : Snap) (a : Int) (bs : List Byte) (he : t.errs = []) (hq : p.qm = false)
    (hr : rowThere t a bs.length = true) : (wrRow m lost t p a bs).lands (fun u _ => Written t u) := by
  simp only [rowThere, Bool.and_eq_true, decide_eq_true_eq] at hr
  rw [wrRow, hq, if_neg (by decide), if_neg (by simp [hr.1])]
  exact wrRange_clean m lost t a bs he hr.2
theorem rdPacked_clean (m : Nat) (t : Tile) (p : Snap) (b : List Byte) (u n : Nat) (he : t.errs = []) (hq : p.qm = false)
    (hr : t.map.rangeOk (p.packAddr u n) n = true) : rdPacked m t p b u n = .ok t (t.mem.rdBytes (p.packAddr u n).toNat n, b) := by
  rw [rdPacked, hq, if_neg (by decide), rdRange_clean m t _ n he hr]; rfl
theorem wrPacked_clean (m : Nat) (lost : List Nat) (t : Tile) (p : Snap) (b : List Byte) (u : Nat) (bs : List Byte) (z : Bool) (he : t.errs = [])
    (hq : p.qm = false) (hr : t.map.rangeOk (p.packAddr u bs.length) bs.length = true) :
    (wrPacked m lost t p b u bs z).lands (fun v _ => Written t v) := by
  rw [wrPacked, hq, if_neg (by decide)]
  exact UR.lands_bind (wrRange_clean m lost t _ bs he hr) (fun _ _ h => h)
theorem rowsThere_at {t : Tile} {p : Snap} {c : Nat} {n : Nat → Nat} (h : rowsThere t p c n = true) :
    p.qm = false ∧ ∀ u, u < c → rowThere t (p.rowAddr u) (n u) = true := by
  simpa [rowsThere] using h
theorem wordsThere_at {t : Tile} {p : Snap} {c : Nat} (h : wordsThere t p c = true) :
    p.qm = false ∧ ∀ u, u < c → rowThere t (p.start + 32 * u) 32 = true := by
  simpa [wordsThere] using h
theorem packThere_at {t : Tile} {p : Snap} {c n : Nat} (h : packThere t p c n = true) :
    p.qm = false ∧ ∀ u, u < c → t.map.rangeOk (p.packAddr u n) n = true := by
  simpa [packThere] using h
theorem rowThere_map {t u : Tile} (h : u.map = t.map) (a : Int) (n : Nat) : rowThere u a n = rowThere t a n := by simp [rowThere, h]
theorem wrPackedBytes_clean (m : Nat) (lost : List Nat) (p : Snap) (z : Bool) (hq : p.qm = false) (bs : List Byte) :
    ∀ (t : Tile) (b : List Byte) (u : Nat), t.errs = [] → (∀ k, k < bs.length → t.map.rangeOk (p.packAddr (u + k) 1) 1 = true) →
    (wrPackedBytes m lost p z t b u bs).lands (fun v _ => Written t v) := by
  induction bs with
  | nil => intro t b u _ _; exact Written.refl t
  | cons x bs ih =>
    intro t b u he hr
    rw [wrPackedBytes]
    refine UR.lands_bind (wrPacked_clean m lost t p b u [x] _ he hq (hr 0 (by simp))) (fun v b' hv => ?_)
    have hv' := hv
    obtain ⟨m', b2, l, n, rfl⟩ := hv
    exact UR.lands_mono (ih _ b' (u + 1) he (fun k hk => by have := hr (k + 1) (by simp; omega); rwa [show u + (k + 1) = u + 1 + k by omega] at this))
      (fun _ _ h => hv'.trans h)
theorem rdBytes_length (m : Mem) (n : Nat) : ∀ a, (m.rdBytes a n).length = n := by
  induction n with
  | zero => intro a; rfl
  | succ n ih => intro a; simp [Mem.rdBytes, ih]
theorem leBytes_length (n : Nat) : ∀ v, (leBytes n v).length = n := by
  induction n with
  | zero => intro v; rfl
  | succ n ih => intro v; simp [leBytes, ih]

/-! The units of an instruction, one after another. -/

/-- Where every unit is done, from a tile and an operand store that `P` describes, the instruction is complete. -/
theorem runOp_lands {n : Nat} {o : Op} (h0 : o.total = n) (hb : o.blocked = false) (P : Nat → Tile → List Nat → Tab (List Byte) → Prop)
    (hp : ∀ t k d b, P k t d b → (({ o with unit := k, data := d, buf := b } : Op).prefetch t) = (t, { o with unit := k, data := d, buf := b }))
    (hs : ∀ k t d b, k < n → P k t d b → (unitOp t { o with unit := k, data := d, buf := b }).lands
      (fun u y => ∃ d' b', y = { o with unit := k, data := d', buf := b' } ∧ P (k + 1) u d' b')) :
    ∀ j k t d b, k + j = n → P k t d b → ∃ u d' b', runOp (j + 1) t { o with unit := k, data := d, buf := b } = .done u ∧ P n u d' b' := by
  intro j
  induction j with
  | zero =>
    intro k t d b hk hP
    refine ⟨t, d, b, ?_, by rwa [show n = k by omega]⟩
    rw [runOp, if_pos (by show k ≥ o.total; omega)]
  | succ j ih =>
    intro k t d b hk hP
    rw [runOp, if_neg (by show ¬ k ≥ o.total; omega)]
    have q := hs k t d b (by omega) hP
    rw [hp t k d b hP]
    dsimp only
    cases hx : unitOp t { o with unit := k, data := d, buf := b } with
    | ok u y =>
      rw [hx] at q
      obtain ⟨d', b', rfl, q'⟩ := q
      obtain ⟨v, e, f, r, w⟩ := ih (k + 1) u d' b' (by omega) q'
      refine ⟨v, e, f, ?_, w⟩
      rw [← r]
      rw [hb]
    | wait _ => rw [hx] at q; exact q.elim
    | fault _ _ _ _ => rw [hx] at q; exact q.elim

/-! What an instruction in flight captured, and the tile its units start from. -/

/-- The operand store of a generator list, where the generators of one operand agree. -/
theorem snaps_get (g : Nat → Snap) (k a : Nat) : ∀ (l : List (Nat × Nat)) (m : Tab Snap), Tab.wf {} m = true → (∀ p ∈ l, p.1 = k → p.2 = a) →
    (k, a) ∈ l ∨ m.get {} k = g a → (l.foldl (fun m p => m.set {} p.1 (g p.2)) m).get {} k = g a := by
  intro l
  induction l with
  | nil => intro m _ _ h; simpa using h
  | cons p l ih =>
    intro m hw hu h
    refine ih _ (Tab.wf_set _ _ hw) (fun q hq => hu q (List.mem_cons_of_mem _ hq)) ?_
    by_cases hk : p.1 = k
    · right
      show (m.set {} p.1 (g p.2)).get {} k = g a
      rw [hk, Tab.get_set_self _ _ hw, hu p (List.mem_cons_self ..) hk]
    · rcases h with h | h
      · rcases List.mem_cons.1 h with h | h
        · exact absurd (by rw [← h]) hk
        · exact .inl h
      · right; show (m.set {} p.1 (g p.2)).get {} k = g a; rw [Tab.get_set_ne _ (fun e => hk e.symm) hw]; exact h
/-- The generator an operand of an instruction in flight was captured from. -/
theorem flying_snap (h : IHdr) (ti : TI) (n : Nat) (s : State) (k a : Nat) (hu : ∀ p ∈ ti.gens (lowered h (tileNow h s)), p.1 = k → p.2 = a)
    (hin : (k, a) ∈ ti.gens (lowered h (tileNow h s))) : (flying h ti n s).2.snap k = genNow h a s := by
  have q := snaps_get (fun a => ((lowered h (tileNow h s)).stream h.exe).snap a) k a _ [] rfl hu (.inl hin)
  rw [lowered_stream] at q
  simpa [Op.snap, flying, mkOp, genNow] using q
/-- The map, the errors and the flags of a tile are those of `T`, without an error. -/
def Sound (T t : Tile) : Prop := t.map = T.map ∧ t.errs = [] ∧ t.flags = T.flags
theorem Sound.written {T t u : Tile} (h : Sound T t) (g : Written t u) : Sound T u := by obtain ⟨m, b, l, n, rfl⟩ := g; exact h
/-- The tile the units of an instruction start from. -/
theorem flying_tile (h : IHdr) (ti : TI) (n : Nat) (s : State) : (flying h ti n s).1.quiet.map = (tileNow h s).map ∧ (flying h ti n s).1.quiet.errs = (tileNow h s).errs ∧
    (flying h ti n s).1.quiet.flags = (lowered h (tileNow h s)).flags ∧ (flying h ti n s).1.quiet.mem = (tileNow h s).mem ∧
    (flying h ti n s).1.quiet.ic = (tileNow h s).ic ∧ (flying h ti n s).1.quiet.oc = (tileNow h s).oc ∧
    (flying h ti n s).1.quiet.cvSet = (tileNow h s).cvSet ∧ (flying h ti n s).1.quiet.accBad = (tileNow h s).accBad := by
  simp [flying, atIssue, Tile.quiet]
theorem flying_sound (h : IHdr) (ti : TI) (n : Nat) (s : State) (hc : cleanPad (tileNow h s) = true) : Sound (flying h ti n s).1.quiet (flying h ti n s).1.quiet :=
  ⟨rfl, (flying_tile h ti n s).2.1.trans (by simpa [cleanPad] using hc), rfl⟩
theorem canRise_of {h : IHdr} {t u : Tile} (hr : canRise h t = true) (e : u.flags = t.flags) : canRise h u = true := by
  unfold canRise Tile.flag at *; rw [e]; exact hr
/-- All units of an instruction in flight alone are done, and its flag can rise: `P` describes the tile and the operand store before each unit. -/
theorem units_land (h : IHdr) (ti : TI) (n : Nat) (s : State) (P : Nat → Tile → List Nat → Tab (List Byte) → Prop)
    (hp : ∀ t k d b, P k t d b → (({ (flying h ti n s).2 with unit := k, data := d, buf := b } : Op).prefetch t) = (t, { (flying h ti n s).2 with unit := k, data := d, buf := b }))
    (hP : P 0 (flying h ti n s).1.quiet (flying h ti n s).2.data [])
    (hs : ∀ k t d b, k < n → P k t d b → (unitOp t { (flying h ti n s).2 with unit := k, data := d, buf := b }).lands
      (fun u y => ∃ d' b', y = { (flying h ti n s).2 with unit := k, data := d', buf := b' } ∧ P (k + 1) u d' b'))
    (hf : ∀ u d b, P n u d b → Sound (flying h ti n s).1.quiet u) (hr : canRise h (lowered h (tileNow h s)) = true) :
    ∃ u, unitsDone h ti n s u ∧ canRise h u = true := by
  obtain ⟨u, d, b, r, q⟩ := runOp_lands (n := n) (o := (flying h ti n s).2) rfl rfl P hp hs n 0 _ _ _ (Nat.zero_add n) hP
  exact ⟨u, r, canRise_of hr ((hf u d b q).2.2.trans (flying_tile h ti n s).2.2.1)⟩

/-! Ranges of bytes. -/

theorem touched_sub {a n b m : Nat} (h1 : a ≤ b) (h2 : b + m ≤ a + n) (w : Nat) (hw : w ∈ touched b m) : w ∈ touched a n := by
  simp only [touched, List.mem_map, List.mem_range] at hw ⊢
  obtain ⟨i, hi, rfl⟩ := hw
  exact ⟨b / 32 + i - a / 32, by omega, by omega⟩
theorem rangeOk_sub {M : SpMap} {a b : Int} {n m : Nat} (h : M.rangeOk a n = true) (h1 : a ≤ b) (h2 : b + m ≤ a + n) : M.rangeOk b m = true := by
  simp only [SpMap.rangeOk, Bool.and_eq_true, decide_eq_true_eq, List.all_eq_true] at h ⊢
  exact ⟨by omega, fun w hw => h.2 w (touched_sub (by omega) (by omega) w hw)⟩
theorem rangeOk_two {M : SpMap} {a : Int} (h : M.rangeOk a 1 = true) (g : M.rangeOk (a + 1) 1 = true) : M.rangeOk a 2 = true := by
  simp only [SpMap.rangeOk, Bool.and_eq_true, decide_eq_true_eq, List.all_eq_true] at h g ⊢
  refine ⟨h.1, fun w hw => ?_⟩
  simp only [touched, List.mem_map, List.mem_range] at hw
  obtain ⟨i, hi, rfl⟩ := hw
  have e : (a + 1).toNat = a.toNat + 1 := by omega
  by_cases hz : a.toNat / 32 + i = a.toNat / 32
  · exact h.2 _ (by simp only [touched, List.mem_map, List.mem_range]; exact ⟨i, by omega, rfl⟩)
  · exact g.2 _ (by simp only [touched, List.mem_map, List.mem_range, e]; exact ⟨a.toNat / 32 + i - (a.toNat + 1) / 32, by omega, by omega⟩)
theorem rowThere_sub {t : Tile} {a : Int} {n m : Nat} (h : rowThere t a n = true) (hm : m ≤ n) : rowThere t a m = true := by
  simp only [rowThere, Bool.and_eq_true, decide_eq_true_eq] at h ⊢
  exact ⟨h.1, rangeOk_sub h.2 (le_refl a) (by omega)⟩

/-! One unit of each kind. -/

theorem setShadow_sound {T t : Tile} (h : Sound T t) (x : StSet) : Sound T (t.setShadow x) := by
  unfold Tile.setShadow; split <;> exact h
theorem unitMld_lands {T t : Tile} {o : Op} {f : MldF} (h : Sound T t) (hq : (o.snap 0).qm = false)
    (hr : rowThere T ((o.snap 0).rowAddr o.unit) (if o.unit < f.rows then fmtBytes f.sfmt 64 else 64) = true) :
    (unitMld t o f).lands (fun u y => y = o ∧ Sound T u) := by
  unfold unitMld
  refine UR.lands_bind (P := fun u _ => u = t) (UR.lands_ok (rdRow_clean 0 t _ _ _ h.2.1 hq (by rwa [rowThere_map h.1])) rfl) (fun u bs hu => ?_)
  subst hu
  exact ⟨rfl, setShadow_sound h _⟩
theorem unitVrl_lands {T t : Tile} {o : Op} {b n : Nat} (h : Sound T t) (hq : (o.snap 0).qm = false)
    (hr : rowThere T ((o.snap 0).start + 32 * o.unit) 32 = true) : (unitVrl t o b n).lands (fun u y => y = o ∧ Sound T u) := by
  unfold unitVrl
  refine UR.lands_bind (P := fun u _ => u = t) (UR.lands_ok (rdRow_clean 2 t _ _ _ h.2.1 hq (by
    rw [rowThere_map h.1]; exact rowThere_sub hr (by omega))) rfl) (fun u bs hu => ?_)
  subst hu
  exact ⟨rfl, h⟩
theorem flat_length (l : List Nat) (n : Nat) : (l.flatMap (leBytes n)).length = n * l.length := by
  induction l with
  | nil => simp
  | cons a l ih => simp [List.flatMap_cons, leBytes_length, ih, Nat.mul_add]; omega
theorem unitVrs_lands {T t : Tile} {o : Op} {b n : Nat} (h : Sound T t) (hq : (o.snap 0).qm = false)
    (hr : rowThere T ((o.snap 0).start + 32 * o.unit) 32 = true) : (unitVrs t o b n).lands (fun u y => y = o ∧ Sound T u) := by
  unfold unitVrs
  refine UR.lands_bind (wrRow_clean 2 _ t _ _ _ h.2.1 hq (by
    rw [rowThere_map h.1, flat_length]; exact rowThere_sub hr (by simp; omega))) (fun u _ hu => ⟨rfl, h.written hu⟩)
theorem unitGet_lands {T t : Tile} {o : Op} {ch : Nat} (h : Sound T t) (hq : (o.snap 0).qm = false) (hr : rowThere T ((o.snap 0).rowAddr o.unit) 64 = true)
    (hi : t.ic.get [] ch ≠ []) : (unitGet t o ch).lands (fun u y => y = o ∧ Sound T u ∧ u.ic = t.ic.set [] ch (t.ic.get [] ch).tail) := by
  unfold unitGet
  cases hx : t.ic.get [] ch with
  | nil => exact absurd hx hi
  | cons f fs =>
    refine UR.lands_bind (wrRow_clean 3 _ _ _ _ _ h.2.1 hq (by
      rw [show (flitBytes f).length = 64 from leBytes_length 64 f]; exact (rowThere_map (t := T) h.1 _ _).trans hr)) (fun u _ hu => ⟨rfl, ?_, ?_⟩)
    · exact Sound.written (t := { t with ic := t.ic.set [] ch fs }) h hu
    · obtain ⟨m, b, l, n, rfl⟩ := hu; rfl
theorem unitPut_lands {T t : Tile} {o : Op} {ch : Nat} (h : Sound T t) (hq : (o.snap 0).qm = false) (hr : rowThere T ((o.snap 0).rowAddr o.unit) 64 = true)
    (hi : (t.oc.get [] ch).length < 16) : (unitPut t o ch).lands (fun u y => y = o ∧ Sound T u ∧ ∃ f, u.oc = t.oc.set [] ch (t.oc.get [] ch ++ [f])) := by
  unfold unitPut
  dsimp only
  rw [if_neg (by omega)]
  refine UR.lands_bind (P := fun u _ => u = t) (UR.lands_ok (rdRow_clean 3 t _ _ _ h.2.1 hq (by rwa [rowThere_map h.1])) rfl) (fun u bs hu => ?_)
  subst hu
  simp only [placeFlit, if_pos hi, UR.bind]
  exact ⟨by simp, h, _, rfl⟩
theorem unitPgl_lands {T t : Tile} {o : Op} {ch off : Nat} {fin : Bool} (h : Sound T t) (hi : t.ic.get [] ch ≠ []) :
    (unitPgl t o ch off fin).lands (fun u y => y = o ∧ Sound T u ∧ u.ic = t.ic.set [] ch (t.ic.get [] ch).tail) := by
  unfold unitPgl
  cases hx : t.ic.get [] ch with
  | nil => exact absurd hx hi
  | cons f fs => exact ⟨rfl, h, rfl⟩
/-- Flits taken one by one from a channel that holds enough. -/
theorem icLeft {ic : Tab (List Nat)} {ch m : Nat} (h : m + 1 ≤ (ic.get [] ch).length) :
    0 < m → m ≤ ((ic.set [] ch (ic.get [] ch).tail).get [] ch).length := by
  intro hm
  have e : (ic.get [] ch).tail ≠ [] := by intro e; have := congrArg List.length e; simp at this; omega
  rw [Tab.set, if_neg e, Tab.get_put_self]; simp; omega
theorem ocMore {oc : Tab (List Nat)} {ch : Nat} (f : Nat) : ((oc.set [] ch (oc.get [] ch ++ [f])).get [] ch).length = (oc.get [] ch).length + 1 := by
  rw [Tab.set, if_neg (by simp), Tab.get_put_self]; simp
theorem unitCvl_lands {T t : Tile} {o : Op} {k w : Nat} {pb : Bool} (h : Sound T t)
    (hr : pb = true → (o.snap 0).qm = false ∧ rowThere T ((o.snap 0).start + 32 * o.unit) 32 = true) :
    (unitCvl t o k pb w).lands (fun u y => (∃ d, y = { o with data := d }) ∧ Sound T u) := by
  unfold unitCvl
  cases pb with
  | false => exact ⟨⟨o.data, rfl⟩, h⟩
  | true =>
    obtain ⟨hq, hr⟩ := hr rfl
    simp only [if_true]
    refine UR.lands_bind (P := fun u _ => u = t) (UR.lands_ok (rdRow_clean 1 t _ _ _ h.2.1 hq (by rwa [rowThere_map h.1])) rfl) (fun u bs hu => ?_)
    subst hu
    split <;> exact ⟨⟨_, rfl⟩, h⟩
theorem unitVcl_lands {T t : Tile} {o : Op} {k : Nat} (h : Sound T t) (hm : t.mem = T.mem) (hq : (o.snap 0).qm = false)
    (hr : rowThere T ((o.snap 0).start + 32 * o.unit) 32 = true)
    (hv : o.unit + 1 = o.total → chainValid ((o.data ++ [ofLE (T.mem.rdBytes ((o.snap 0).start + 32 * o.unit).toNat 32)]).zipIdx.foldl
      (fun a q => a + q.1 * 2 ^ (256 * q.2)) 0) = true) :
    (unitVcl t o k).lands (fun u y => y = { o with data := o.data ++ [ofLE (T.mem.rdBytes ((o.snap 0).start + 32 * o.unit).toNat 32)] } ∧ Sound T u ∧ u.mem = T.mem) := by
  unfold unitVcl
  refine UR.lands_bind (P := fun u bs => u = t ∧ bs = T.mem.rdBytes ((o.snap 0).start + 32 * o.unit).toNat 32)
    (UR.lands_ok (rdRow_clean 2 t _ _ _ h.2.1 hq (by rwa [rowThere_map h.1])) ⟨rfl, by rw [hm]⟩) (fun u bs hu => ?_)
  obtain ⟨rfl, rfl⟩ := hu
  dsimp only
  split
  · next e => rw [if_pos (hv e)]; exact ⟨rfl, h, hm⟩
  · exact ⟨rfl, h, hm⟩

/-! The converter and the array. -/

theorem packCodes_length {d : Nat} {cs : List Nat} (hf : cvFmtUsed d = true) (hl : cs.length = 64) : (packCodes d cs).length = fmtBytes d 64 := by
  have h : d ≤ 7 ∨ d = 10 := by simpa [cvFmtUsed] using hf
  rcases h with h | rfl
  · interval_cases d <;> simp only [packCodes, fmtBytes, fmtBits, hl, flat_length, List.length_map]
  · simp [packCodes, fmtBytes, fmtBits, hl]
theorem deriveMx_length (d : Nat) (r : Nat → Rnd) (vs : List Val) : (deriveMx d r vs).2.1.length = vs.length := by
  unfold deriveMx
  split
  · simp
  · dsimp only; split
    · simp
    · split <;> simp
theorem cvCodes_length (d : Nat) (w : Bool) (rnd : Nat → Rnd) {vs : List Val} (h : vs.length = 64) :
    (cvCodes d w rnd vs).1.length = 64 ∧ (fmtMx d = true → (cvCodes d w rnd vs).2.1.length = 2) := by
  unfold cvCodes
  split
  · simp [h, show List.range 2 = [0, 1] from rfl, deriveMx_length]
  · next hx => exact ⟨by simp [h], fun hc => absurd hc hx⟩
theorem rdRowScales_clean (n : Nat) : ∀ (t : Tile) (o : Op) (u : Nat), t.errs = [] → (o.snap 10).qm = false →
    (∀ k, k < n → t.map.rangeOk ((o.snap 10).packAddr (u + k) 4) 4 = true) →
    (rdRowScales t o u n).lands (fun v r => v = t ∧ ∃ b, r.2 = { o with buf := b }) := by
  induction n with
  | zero => intro t o u _ _ _; exact ⟨rfl, o.buf, rfl⟩
  | succ n ih =>
    intro t o u he hq hr
    rw [rdRowScales, rdPacked_clean 1 t _ _ u 4 he hq (hr 0 (by omega))]
    simp only [UR.bind]
    refine UR.lands_bind (ih t _ (u + 1) he hq (fun k hk => by have := hr (k + 1) (by omega); rwa [show u + (k + 1) = u + 1 + k by omega] at this)) (fun v r hv => ?_)
    obtain ⟨rfl, b, hb⟩ := hv
    exact ⟨rfl, b, hb⟩
/-- One output row of 64 elements through the converter. -/
theorem cvRow_lands {T t : Tile} {o : Op} {k r : Nat} {vals : List Val} {col : Nat → Nat} {z : Bool} (h : Sound T t) (hk : t.cvSet = T.cvSet) (hl : vals.length = 64)
    (hf : cvFmtUsed (bits (T.cv k) 63 60) = true) (hq : (o.snap 2).qm = false) (hr : rowThere T ((o.snap 2).rowAddr r) (fmtBytes (bits (T.cv k) 63 60) 64) = true)
    (hs : bits (T.cv k) 59 58 = 3 → (o.snap 10).qm = false ∧ ∀ j, j < 2 → T.map.rangeOk ((o.snap 10).packAddr (r * 2 + j) 4) 4 = true)
    (hm : fmtMx (bits (T.cv k) 63 60) = true → (o.snap 11).qm = false ∧ ∀ j, j < 2 → T.map.rangeOk ((o.snap 11).packAddr (r * 2 + j) 1) 1 = true) :
    (cvRow t o k vals col r z).lands (fun u y => (∃ b, y = { o with buf := b }) ∧ Sound T u ∧ u.cvSet = T.cvSet ∧ u.accBad = t.accBad) := by
  have e : t.cv k = T.cv k := by unfold Tile.cv; rw [hk]
  unfold cvRow
  simp only [e, hl, show 64 / 32 = 2 from rfl]
  refine UR.lands_bind (P := fun v p => v = t ∧ ∃ b, p.2 = { o with buf := b }) ?_ (fun v p hv => ?_)
  · split
    · next hc => exact rdRowScales_clean 2 t o (r * 2) h.2.1 (hs hc).1 (fun j hj => by rw [h.1]; exact (hs hc).2 j hj)
    · exact ⟨rfl, o.buf, rfl⟩
  obtain ⟨rfl, b, hb⟩ := hv
  have len := fun (w : Bool) (rnd : Nat → Rnd) (vs : List Val) (hv : vs.length = 64) => cvCodes_length (bits (T.cv k) 63 60) w rnd hv
  refine UR.lands_bind (wrRow_clean 1 _ v _ _ _ h.2.1 (by rw [hb]; exact hq) (by
    rw [packCodes_length hf (len _ _ _ (by simp [hl])).1, rowThere_map h.1, hb]; exact hr)) (fun w _ hw => ?_)
  have hw1 : Sound T w := h.written hw
  have hw2 : w.cvSet = T.cvSet ∧ w.accBad = v.accBad := by obtain ⟨m, b, l, n, rfl⟩ := hw; exact ⟨hk, rfl⟩
  refine UR.lands_bind (P := fun x _ => Written w x) ?_ (fun x b2 hx => ?_)
  · split
    · next hc =>
      refine wrPackedBytes_clean 1 _ _ z (by rw [hb]; exact (hm hc).1) _ w _ _ hw1.2.1 (fun j hj => ?_)
      rw [hw1.1, hb]
      exact (hm hc).2 j (by rw [List.length_map, (len _ _ _ (by simp [hl])).2 hc] at hj; exact hj)
    · exact Written.refl w
  · refine ⟨⟨_, by rw [hb]⟩, ?_, ?_, ?_⟩
    · exact (show Sound T x from hw1.written hx)
    · obtain ⟨m, b, l, n, rfl⟩ := hx; exact hw2.1
    · obtain ⟨m, b, l, n, rfl⟩ := hx; exact hw2.2
theorem unitMdr_lands {T t : Tile} {o : Op} {f : MdrF} (h : Sound T t) (hk : t.cvSet = T.cvSet) (hb : t.accBad = []) 
    (hf : cvFmtUsed (bits (T.cv f.cvt) 63 60) = true) (hq : (o.snap 2).qm = false) (hr : rowThere T ((o.snap 2).rowAddr o.unit) (fmtBytes (bits (T.cv f.cvt) 63 60) 64) = true)
    (hs : bits (T.cv f.cvt) 59 58 = 3 → (o.snap 10).qm = false ∧ ∀ j, j < 2 → T.map.rangeOk ((o.snap 10).packAddr (o.unit * 2 + j) 4) 4 = true)
    (hm : fmtMx (bits (T.cv f.cvt) 63 60) = true → (o.snap 11).qm = false ∧ ∀ j, j < 2 → T.map.rangeOk ((o.snap 11).packAddr (o.unit * 2 + j) 1) 1 = true) :
    (unitMdr t o f).lands (fun u y => (∃ b, y = { o with buf := b }) ∧ Sound T u ∧ u.cvSet = T.cvSet ∧ u.accBad = []) := by
  unfold unitMdr
  dsimp only
  rw [if_neg (by simp [hb])]
  refine UR.lands_bind (cvRow_lands h hk (by split <;> simp) hf hq hr hs hm) (fun u y hu => ?_)
  obtain ⟨h1, h2, h3, h4⟩ := hu
  have key : ∀ clr : List Nat, Sound T (if clr = [] then u else { u with acc := u.acc.filter (fun p => !clr.contains (p.1 / 64)), accInt := u.accInt.filter (fun r => !clr.contains r) }) ∧
      (if clr = [] then u else { u with acc := u.acc.filter (fun p => !clr.contains (p.1 / 64)), accInt := u.accInt.filter (fun r => !clr.contains r) }).cvSet = T.cvSet ∧
      (if clr = [] then u else { u with acc := u.acc.filter (fun p => !clr.contains (p.1 / 64)), accInt := u.accInt.filter (fun r => !clr.contains r) }).accBad = [] := by
    intro clr; split <;> exact ⟨h2, h3, h4.trans hb⟩
  exact ⟨h1, key _⟩
theorem rdStreamScales_clean (n : Nat) : ∀ (t : Tile) (o : Op) (u : Nat), t.errs = [] → (o.snap 1).qm = false →
    (∀ k, k < n → t.map.rangeOk ((o.snap 1).packAddr (u + k) 1) 1 = true) →
    (rdStreamScales t o u n).lands (fun v r => v = t ∧ r.1 = (List.range n).map (fun k => ofLE (t.mem.rdBytes ((o.snap 1).packAddr (u + k) 1).toNat 1)) ∧
      ∃ b, r.2 = { o with buf := b }) := by
  induction n with
  | zero => intro t o u _ _ _; exact ⟨rfl, rfl, o.buf, rfl⟩
  | succ n ih =>
    intro t o u he hq hr
    rw [rdStreamScales, rdPacked_clean 0 t _ _ u 1 he hq (hr 0 (by omega))]
    simp only [UR.bind]
    refine UR.lands_bind (ih t _ (u + 1) he hq (fun k hk => by have := hr (k + 1) (by omega); rwa [show u + (k + 1) = u + 1 + k by omega] at this)) (fun v r hv => ?_)
    obtain ⟨rfl, hv, b, hb⟩ := hv
    refine ⟨rfl, ?_, b, hb⟩
    rw [List.range_succ_eq_map, List.map_cons, List.map_map, hv]
    refine congrArg (List.cons _) (List.map_congr_left (fun k _ => ?_))
    show _ = ofLE (v.mem.rdBytes ((o.snap 1).packAddr (u + (k + 1)) 1).toNat 1)
    rw [show u + (k + 1) = u + 1 + k by omega]; rfl
theorem setShadow_active (t : Tile) (x : StSet) : (t.setShadow x).active = t.active := by
  unfold Tile.setShadow Tile.active; cases t.act <;> simp
theorem mstCapture_cases (t : Tile) (f : MstF) (p : Snap) (i : Nat) (bs : List Byte) :
    mstCapture t f p i bs = t ∨ ∃ y, mstCapture t f p i bs = t.setShadow y := by
  unfold mstCapture
  dsimp only
  by_cases h : (f.cap && decide (i < min f.rows 64)) = true
  · rw [if_pos h]; exact .inr ⟨_, rfl⟩
  · rw [if_neg h]; exact .inl rfl
/-- What the rows of an MST in flight leave alone. -/
def MstSame (T : Tile) (x : StSet) (t : Tile) : Prop := Sound T t ∧ t.mem = T.mem ∧ t.gang = T.gang ∧ t.accBad = [] ∧ t.active = x
theorem mstCapture_same {T t : Tile} {x : StSet} (f : MstF) (p : Snap) (i : Nat) (bs : List Byte) (h : MstSame T x t) : MstSame T x (mstCapture t f p i bs) := by
  rcases mstCapture_cases t f p i bs with e | ⟨y, e⟩ <;> rw [e]
  · exact h
  · obtain ⟨h1, h2, h3, h4, h5⟩ := h
    exact ⟨setShadow_sound h1 y, by rw [← h2]; unfold Tile.setShadow; split <;> rfl, by rw [← h3]; unfold Tile.setShadow; split <;> rfl,
      by rw [← h4]; unfold Tile.setShadow; split <;> rfl, (setShadow_active t y).trans h5⟩
theorem mstStore_same {T t : Tile} {x : StSet} (f : MstF) (a : Nat) (out : List (List (Nat × Nat × Nat × Flags))) (h : MstSame T x t) : MstSame T x (mstStore t f a out) := by
  obtain ⟨h1, h2, h3, h4, h5⟩ := h
  unfold mstStore
  dsimp only
  split
  · exact ⟨h1, h2, h3, by simp [h4], h5⟩
  · exact ⟨h1, h2, h3, h4, h5⟩
/-- One streamed row of an MST that writes the accumulator alone, where no quadrant's check fails. -/
theorem unitMst_lands {T t : Tile} {x : StSet} {o : Op} {f : MstF} {up : Option Upset} (h : MstSame T x (mstEnter f o.unit t)) (hm : f.mode < 2)
    (hfm : o.unit = 0 → fmtGroup x.fmt = fmtGroup f.afmt ∧ fmtGroup f.afmt ≠ none) (hq : (o.snap 0).qm = false)
    (hr : rowThere T ((o.snap 0).rowAddr o.unit) (fmtBytes f.afmt (mstWidth T.gang)) = true)
    (hs : (f.afmt = 6 ∨ f.afmt = 7) → (o.snap 1).qm = false ∧
      ∀ j, j < mstWidth T.gang / 32 → T.map.rangeOk ((o.snap 1).packAddr (o.unit * (mstWidth T.gang / 32) + j) 1) 1 = true)
    (hc : Refl.fail ∉ mstChecks x f T.gang up o.unit (T.mem.rdBytes ((o.snap 0).rowAddr o.unit).toNat (fmtBytes f.afmt (mstWidth T.gang)))
      (if f.afmt = 6 ∨ f.afmt = 7 then scalesAt T (o.snap 1) (o.unit * (mstWidth T.gang / 32)) (mstWidth T.gang / 32) else [])) :
    (unitMst t o f up).lands (fun u y => (∃ b, y = { o with buf := b }) ∧ MstSame T x u) := by
  have e := h
  obtain ⟨h1, h2, h3, h4, h5⟩ := h
  have sw : ∀ i, (mstEnter f i t).map = t.map ∧ (mstEnter f i t).errs = t.errs ∧ (mstEnter f i t).mem = t.mem ∧ (mstEnter f i t).gang = t.gang := by
    intro i; unfold mstEnter; split <;> exact ⟨rfl, rfl, rfl, rfl⟩
  have tm : t.map = T.map := (sw o.unit).1.symm.trans h1.1
  have te : t.errs = [] := (sw o.unit).2.1.symm.trans h1.2.1
  have tg : t.gang = T.gang := (sw o.unit).2.2.2.symm.trans h3
  have tmem : t.mem = T.mem := (sw o.unit).2.2.1.symm.trans h2
  unfold unitMst
  dsimp only
  rw [if_neg (by
    rw [h5]; intro q; simp only [Bool.and_eq_true, Bool.or_eq_true, decide_eq_true_eq] at q
    have := hfm q.1; rcases q.2 with q | q
    · exact q this.1
    · exact this.2 q), tg]
  refine UR.lands_bind (P := fun u bs => u = t ∧ bs = T.mem.rdBytes ((o.snap 0).rowAddr o.unit).toNat (fmtBytes f.afmt (mstWidth T.gang)))
    (UR.lands_ok (rdRow_clean 0 t _ _ _ te hq (by rwa [rowThere_map tm])) ⟨rfl, by rw [tmem]⟩) (fun u bs hu => ?_)
  obtain ⟨rfl, rfl⟩ := hu
  refine UR.lands_bind (P := fun v p => v = u ∧ p.1 = (if f.afmt = 6 ∨ f.afmt = 7 then scalesAt T (o.snap 1) (o.unit * (mstWidth T.gang / 32)) (mstWidth T.gang / 32) else []) ∧
    ∃ b, p.2 = { o with buf := b }) ?_ (fun v p hv => ?_)
  · by_cases hx : f.afmt = 6 ∨ f.afmt = 7
    · rw [if_pos hx, if_pos (by simpa using hx)]
      refine UR.lands_mono (rdStreamScales_clean _ u o _ te (hs hx).1 (fun j hj => by rw [tm]; exact (hs hx).2 j hj)) (fun w r hw => ⟨hw.1, ?_, hw.2.2⟩)
      rw [hw.2.1, tmem]; rfl
    · rw [if_neg hx, if_neg (by simpa using hx)]; exact ⟨rfl, rfl, o.buf, rfl⟩
  obtain ⟨rfl, hp, b, hb⟩ := hv
  have sm := mstCapture_same f (o.snap 0) o.unit (T.mem.rdBytes ((o.snap 0).rowAddr o.unit).toNat (fmtBytes f.afmt (mstWidth T.gang))) e
  generalize mstCapture (mstEnter f o.unit v) f (o.snap 0) o.unit (T.mem.rdBytes ((o.snap 0).rowAddr o.unit).toNat (fmtBytes f.afmt (mstWidth T.gang))) = w at sm
  unfold mstRow
  dsimp only
  have hi : (mstChecks w.active f w.gang up p.2.unit (T.mem.rdBytes ((o.snap 0).rowAddr o.unit).toNat (fmtBytes f.afmt (mstWidth T.gang))) p.1).idxOf? .fail = none := by
    rw [List.idxOf?_eq_none_iff, sm.2.2.2.2, sm.2.2.1, hp, hb]; exact hc
  rw [hi]
  unfold mstFinish
  dsimp only
  rw [if_neg (by simp [sm.2.2.2.1]), if_neg (by omega)]
  exact ⟨⟨b, hb⟩, mstStore_same _ _ _ sm⟩

/-! Indexed transfers. -/

theorem index_part {t : Tile} {o : Op} {iw32 : Bool} {n w v : Nat} (he : t.errs = [])
    (h0 : w = 0 → (o.snap 0).qm = false ∧ t.map.rangeOk ((o.snap 0).packAddr n (if iw32 then 4 else 2)) (if iw32 then 4 else 2) = true ∧ indexAt t (o.snap 0) iw32 n = v)
    (h1 : w ≠ 0 → o.data.headD 0 = v) :
    (if w = 0 then rdIndex t o iw32 n else .ok t (o.data.headD 0, o)).lands (fun u io => u = t ∧ io.1 = v ∧ ∃ b, io.2 = { o with buf := b }) := by
  by_cases hw : w = 0
  · obtain ⟨q, r, e⟩ := h0 hw
    rw [if_pos hw, rdIndex, rdPacked_clean 3 t _ _ n _ he q r]
    exact ⟨rfl, e, _, rfl⟩
  · rw [if_neg hw]; exact ⟨rfl, h1 hw, o.buf, rfl⟩
theorem badWord_none {t : Tile} {a : Int} {n : Nat} (h : rowThere t a (32 * n) = true) : badWord t a n = none := by
  simp only [rowThere, Bool.and_eq_true, decide_eq_true_eq] at h
  unfold badWord
  rw [if_neg (by simp [h.1]), List.findSome?_eq_none_iff]
  intro w hw
  rw [List.mem_range] at hw
  exact if_pos (rangeOk_sub h.2 (by omega) (by push_cast; omega))
theorem rowsFine_none (t : Tile) (b : Bool) (l : List (Option Int)) (h : ∀ x ∈ l, x = none) : rowsFine t b l = .ok t () := by
  unfold rowsFine
  have : (if b = true then l.findSome? id else none) = none := by
    split
    · rw [List.findSome?_eq_none_iff]; exact h
    · rfl
  rw [this]
theorem rowThere_word {t : Tile} {a : Int} {n w : Nat} (h : rowThere t a (32 * n) = true) (hw : w < n) : rowThere t (a + 32 * w) 32 = true := by
  simp only [rowThere, Bool.and_eq_true, decide_eq_true_eq] at h ⊢
  exact ⟨by omega, rangeOk_sub h.2 (by omega) (by push_cast; omega)⟩
/-- One word of a gather, whose index is `v`: a skip, or below LIMIT with its row there. -/
theorem unitGth_lands {T t : Tile} {o : Op} {f : GthF} {v : Nat} (h : Sound T t) (hw : 1 ≤ f.roww)
    (h0 : o.unit % f.roww = 0 → (o.snap 0).qm = false ∧ T.map.rangeOk ((o.snap 0).packAddr (o.unit / f.roww) (if f.iw32 then 4 else 2)) (if f.iw32 then 4 else 2) = true ∧
      indexAt t (o.snap 0) f.iw32 (o.unit / f.roww) = v)
    (h1 : o.unit % f.roww ≠ 0 → o.data.headD 0 = v)
    (hv : isSkip f.iw32 v = true ∨ (v < f.limit ∧ rowThere T ((o.snap 1).start + (v : Int) * (o.snap 1).step) (32 * f.roww) = true))
    (hd : f.chan = none → (o.snap 2).qm = false ∧ rowThere T ((o.snap 2).rowAddr (o.unit / f.roww)) (32 * f.roww) = true)
    (hc : ∀ ch, f.chan = some ch → o.unit % f.roww % 2 = 1 → (t.oc.get [] ch).length < 16) :
    (unitGth t o f).lands (fun u y => (∃ d b, y = { o with data := v :: d, buf := b }) ∧ Sound T u ∧ ∀ ch, f.chan = some ch → u.mem = t.mem ∧
      (o.unit % f.roww % 2 = 0 → u.oc = t.oc) ∧ (o.unit % f.roww % 2 = 1 → ∃ x, u.oc = t.oc.set [] ch (t.oc.get [] ch ++ [x]))) := by
  have hlt : o.unit % f.roww < f.roww := Nat.mod_lt _ hw
  unfold unitGth
  dsimp only
  refine UR.lands_bind (index_part (v := v) h.2.1 (fun e => by rw [h.1]; exact h0 e) h1) (fun u io hu => ?_)
  obtain ⟨rfl, rfl, b, hb⟩ := hu
  have hb' : ∀ k, io.2.snap k = o.snap k := by intro k; rw [hb]; rfl
  rw [if_neg (by
    intro q; simp only [Bool.and_eq_true, Bool.not_eq_true', decide_eq_true_eq] at q
    rcases hv with hv | hv
    · rw [q.1] at hv; exact absurd hv (by decide)
    · omega)]
  rw [rowsFine_none _ _ _ (by
    intro x hx
    simp only [List.mem_cons, List.not_mem_nil, or_false] at hx
    rcases hx with rfl | rfl
    · split
      · rfl
      · next hs => rw [hb']; exact badWord_none (by rw [rowThere_map h.1]; exact (hv.resolve_left hs).2)
    · split
      · next hs => rw [hb']; exact badWord_none (by rw [rowThere_map h.1]; exact (hd hs.1).2)
      · rfl)]
  simp only [UR.bind]
  refine UR.lands_bind (P := fun w bs => w = u ∧ bs.length = 32) ?_ (fun w bs hw2 => ?_)
  · split
    · exact ⟨rfl, by simp⟩
    · next hs =>
      refine UR.lands_ok (rdRow_clean 3 u _ _ _ h.2.1 rfl ?_) ⟨rfl, ?_⟩
      · rw [rowThere_map h.1, hb']; exact rowThere_word (hv.resolve_left hs).2 hlt
      · exact rdBytes_length _ _ _
  obtain ⟨rfl, hlen⟩ := hw2
  cases hch : f.chan with
  | some ch =>
    simp only
    split
    · next he => exact ⟨⟨_, b, by rw [hb]; rfl⟩, h, fun c _ => ⟨rfl, fun _ => rfl, fun q => by omega⟩⟩
    · next he =>
      simp only [placeFlit, if_pos (hc ch hch (by omega))]
      exact ⟨⟨_, b, by rw [hb]; rfl⟩, h, fun c q => by
        have q : ch = c := by simpa using q
        subst q; exact ⟨rfl, fun q => by omega, fun _ => ⟨_, rfl⟩⟩⟩
  | none =>
    simp only
    refine UR.lands_bind (wrRow_clean 3 _ w _ _ _ h.2.1 ((congrArg Snap.qm (hb' 2)).trans (hd hch).1) (by
      rw [hlen, rowThere_map h.1]
      rw [show ∀ d, ({ io.2 with data := d } : Op).snap 2 = o.snap 2 from fun _ => hb' 2]; exact rowThere_word (hd hch).2 hlt)) (fun x _ hx => ?_)
    exact ⟨⟨_, b, by rw [hb]; rfl⟩, h.written hx, fun c q => by simp at q⟩
/-- One word of a scatter, whose index is `v`: a skip, or below LIMIT with its row there. -/
theorem unitSct_lands {T t : Tile} {o : Op} {f : SctF} {v : Nat} (h : Sound T t) (hw : 1 ≤ f.roww)
    (h0 : o.unit % f.roww = 0 → (o.snap 0).qm = false ∧ T.map.rangeOk ((o.snap 0).packAddr (o.unit / f.roww) (if f.iw32 then 4 else 2)) (if f.iw32 then 4 else 2) = true ∧
      indexAt t (o.snap 0) f.iw32 (o.unit / f.roww) = v)
    (h1 : o.unit % f.roww ≠ 0 → o.data.headD 0 = v)
    (hv : isSkip f.iw32 v = true ∨ (v < f.limit ∧ rowThere T ((o.snap 2).start + (v : Int) * (o.snap 2).step) (32 * f.roww) = true))
    (hd : f.chan = none → (o.snap 1).qm = false ∧ rowThere T ((o.snap 1).rowAddr (o.unit / f.roww)) (32 * f.roww) = true)
    (hc : ∀ ch, f.chan = some ch → o.unit % f.roww % 2 = 0 → t.ic.get [] ch ≠ []) :
    (unitSct t o f).lands (fun u y => (∃ d b, y = { o with data := v :: d, buf := b }) ∧ Sound T u ∧ ∀ ch, f.chan = some ch →
      (o.unit % f.roww % 2 = 1 → u.ic = t.ic) ∧ (o.unit % f.roww % 2 = 0 → u.ic = t.ic.set [] ch (t.ic.get [] ch).tail)) := by
  have hlt : o.unit % f.roww < f.roww := Nat.mod_lt _ hw
  unfold unitSct
  dsimp only
  refine UR.lands_bind (index_part (v := v) h.2.1 (fun e => by rw [h.1]; exact h0 e) h1) (fun u io hu => ?_)
  obtain ⟨rfl, rfl, b, hb⟩ := hu
  have hb' : ∀ k, io.2.snap k = o.snap k := by intro k; rw [hb]; rfl
  rw [if_neg (by
    intro q; simp only [Bool.and_eq_true, Bool.not_eq_true', decide_eq_true_eq] at q
    rcases hv with hv | hv
    · rw [q.1] at hv; exact absurd hv (by decide)
    · omega)]
  rw [rowsFine_none _ _ _ (by
    intro x hx
    simp only [List.mem_cons, List.not_mem_nil, or_false] at hx
    rcases hx with rfl | rfl
    · split
      · next hs => rw [hb']; exact badWord_none (by rw [rowThere_map h.1]; exact (hd hs.1).2)
      · rfl
    · split
      · rfl
      · next hs => rw [hb']; exact badWord_none (by rw [rowThere_map h.1]; exact (hv.resolve_left hs).2))]
  simp only [UR.bind]
  refine UR.lands_bind (P := fun w r => Sound T w ∧ r.1.length = 32 ∧ ∀ ch, f.chan = some ch →
      (o.unit % f.roww % 2 = 1 → w.ic = u.ic) ∧ (o.unit % f.roww % 2 = 0 → w.ic = u.ic.set [] ch (u.ic.get [] ch).tail)) ?_ (fun w r hw2 => ?_)
  · cases hch : f.chan with
    | some ch =>
      simp only
      split
      · next he => exact ⟨h, leBytes_length _ _, fun c q => ⟨fun _ => rfl, fun q => by omega⟩⟩
      · next he =>
        cases hx : u.ic.get [] ch with
        | nil => exact absurd hx (hc ch hch (by omega))
        | cons fl fs =>
          exact ⟨h, leBytes_length _ _, fun c q => by
            have q : ch = c := by simpa using q
            subst q; exact ⟨fun q => absurd q he, fun _ => by rw [hx]; rfl⟩⟩
    | none =>
      simp only
      rw [rdRow_clean 3 u _ _ 32 h.2.1 ((congrArg Snap.qm (hb' 1)).trans (hd hch).1) (by
        rw [rowThere_map h.1, hb']; exact rowThere_word (hd hch).2 hlt)]
      exact ⟨h, rdBytes_length _ _ _, fun c q => by simp at q⟩
  obtain ⟨hS, hlen, hic⟩ := hw2
  by_cases hs : isSkip f.iw32 io.1 = true
  · rw [if_pos hs]; exact ⟨⟨_, b, by rw [hb]⟩, hS, hic⟩
  · rw [if_neg hs]
    refine UR.lands_bind (wrRow_clean 3 _ w _ _ _ hS.2.1 rfl (by
      rw [hlen, rowThere_map hS.1]
      rw [show ∀ d, ({ io.2 with data := d } : Op).snap 2 = o.snap 2 from fun _ => hb' 2]; exact rowThere_word (hv.resolve_left hs).2 hlt)) (fun x _ hx => ?_)
    refine ⟨⟨_, b, by rw [hb]⟩, hS.written hx, fun ch q => ?_⟩
    have e : x.ic = w.ic := by obtain ⟨m, b, l, n, rfl⟩ := hx; rfl
    rw [e]; exact hic ch q

/-! A group of a vector run. -/

theorem elemsThere_at {t : Tile} {p : Snap} {fmt len n : Nat} (h : elemsThere t p fmt len n = true) :
    p.qm = false ∧ elAligned p fmt = true ∧ ∀ e, e < len → t.map.rangeOk (elAddr p fmt e) n = true := by
  simpa [elemsThere, and_assoc] using h
theorem wrElems_clean {t : Tile} (l : List Nat) (p : Snap) (fmt : Nat) (els : List (Nat × Nat)) (he : t.errs = [])
    (hr : ∀ q ∈ els, t.map.rangeOk (elAddr p fmt q.1) 1 = true) : (wrElems l p fmt t els).lands (fun u _ => Written t u) := by
  unfold wrElems
  have : els.find? (fun q => !t.map.rangeOk (elAddr p fmt q.1) 1) = none := by
    rw [List.find?_eq_none]; intro q hq; simp [hr q hq]
  rw [this]
  dsimp only
  rw [checkWords_clean 2 t he]
  simp only [UR.bind, he, del_nil]
  exact ⟨_, _, _, _, by rw [← he]⟩
/-- A write that a group has still to make finds its place. -/
def Placed (T : Tile) (o : Op) (w : GWrite) : Prop := (o.snap w.ag).qm = false ∧ (w.fmt ≠ 16 → elAligned (o.snap w.ag) (if w.fmt = 10 then 8 else w.fmt) = true) ∧
  ∀ q ∈ w.els, T.map.rangeOk (elAddr (o.snap w.ag) w.fmt q.1) 1 = true
theorem elAddr_bits (p : Snap) {f g : Nat} (h : fmtBits f = fmtBits g) (e : Nat) : elAddr p f e = elAddr p g e := by simp [elAddr, h]
theorem wrGroup_clean {T : Tile} {o : Op} (l : List Nat) (g : Nat) (ws : List GWrite) : ∀ t, Sound T t → (∀ w ∈ ws, Placed T o w) →
    (wrGroup l o g t ws).lands (fun u _ => Sound T u) := by
  induction ws with
  | nil => intro t h _; exact h
  | cons w ws ih =>
    intro t h hw
    obtain ⟨q1, q2, q3⟩ := hw w (List.mem_cons_self ..)
    rw [wrGroup]
    dsimp only
    rw [if_neg (by simp [q1])]
    have a : ¬ ((decide (w.fmt ≠ 16) && !elAligned (o.snap w.ag) (if w.fmt = 16 then 2 else if w.fmt = 10 then 8 else w.fmt)) = true) := by
      intro q; simp only [Bool.and_eq_true, decide_eq_true_eq, Bool.not_eq_true'] at q
      have := q2 q.1; rw [if_neg q.1] at q; rw [this] at q; exact absurd q.2 (by decide)
    rw [if_neg a]
    have k := wrElems_clean (t := t) l (o.snap w.ag) (if w.fmt = 16 then 2 else if w.fmt = 10 then 8 else w.fmt) w.els h.2.1 (fun q hq => by
      rw [h.1, ← q3 q hq]; congr 1; apply elAddr_bits
      split
      · next e => rw [e]; rfl
      · split
        · next e => rw [e]; rfl
        · rfl)
    cases hx : wrElems l (o.snap w.ag) (if w.fmt = 16 then 2 else if w.fmt = 10 then 8 else w.fmt) t w.els with
    | ok u _ => rw [hx] at k; exact ih u (h.written k) (fun x hx => hw x (List.mem_cons_of_mem _ hx))
    | wait _ => rw [hx] at k; exact k.elim
    | fault _ _ _ _ => rw [hx] at k; exact k.elim
theorem rdElems_clean {t : Tile} {p : Snap} {pre : List Nat} {fmt g len : Nat} {es : List Nat} (he : t.errs = [])
    (h : elemsThere t p fmt len (max 1 (fmtBits fmt / 8)) = true) (hes : ∀ e ∈ es, e < len) : (rdElems t p pre fmt g es).lands (fun u _ => u = t) := by
  obtain ⟨h1, h2, h3⟩ := elemsThere_at h
  unfold rdElems
  dsimp only
  rw [if_neg (by simp [h1]), if_neg (by simp [h2])]
  have : (es.map (elAddr p fmt)).find? (fun a => !t.map.rangeOk a (max 1 (fmtBits fmt / 8))) = none := by
    rw [List.find?_eq_none]; intro a ha
    obtain ⟨e, he, rfl⟩ := List.mem_map.1 ha
    simp [h3 e (hes e he)]
  rw [this]
  dsimp only
  rw [checkWords_clean 2 t he]
  exact rfl
theorem rdGrpScales_clean {t : Tile} {p : Snap} {pre : List Nat} {g c k : Nat} (he : t.errs = []) (h : packThere t p (2 * c) 1 = true) (hg : g < c)
    (hk : k = 1 ∨ k = 2) : (rdGrpScales t p pre g k).lands (fun u _ => u = t) := by
  obtain ⟨h1, h2⟩ := packThere_at h
  have r0 := h2 (2 * g) (by omega)
  have r1 := h2 (2 * g + 1) (by omega)
  unfold rdGrpScales
  rw [if_neg (by simp [h1])]
  have rr : t.map.rangeOk (p.packAddr (2 * g) 1) (if p.f (2 * g) + 1 = p.f (2 * g + 1) then k else 1) = true := by
    split
    · next e =>
      rcases hk with rfl | rfl
      · exact r0
      · refine rangeOk_two r0 ?_
        have : p.packAddr (2 * g) 1 + 1 = p.packAddr (2 * g + 1) 1 := by simp only [Snap.packAddr, ← e]; push_cast; omega
        rw [this]; exact r1
    · exact r0
  rw [rdRange_clean 2 t _ _ he rr]
  simp only [UR.bind, rdRange_clean 2 t _ _ he r1]
  split <;> split <;> exact rfl
/-- The map, the errors and the flags of `u` are those of `t`. -/
def Ground (t u : Tile) : Prop := u.map = t.map ∧ u.errs = t.errs ∧ u.flags = t.flags
theorem Ground.trans {t u v : Tile} (h : Ground t u) (g : Ground u v) : Ground t v := ⟨g.1.trans h.1, g.2.1.trans h.2.1, g.2.2.trans h.2.2⟩
theorem Sound.ground {T t u : Tile} (h : Sound T t) (g : Ground t u) : Sound T u := ⟨g.1.trans h.1, g.2.1.trans h.2.1, g.2.2.trans h.2.2⟩
theorem foldl_ground {β : Type} (f : Tile → β → Tile) (hf : ∀ u b, Ground u (f u b)) (l : List β) : ∀ t, Ground t (l.foldl f t) := by
  induction l with
  | nil => intro t; exact ⟨rfl, rfl, rfl⟩
  | cons b l ih => intro t; exact (hf t b).trans (ih _)
theorem openSeg_ground (t : Tile) (op k : Nat) (b : Bool) : Ground t (openSeg t op k b) := by
  unfold openSeg; split <;> exact ⟨rfl, rfl, rfl⟩
theorem argmaxIn_ground (t : Tile) (c : RunCx) (s : Stage) (g k n d : Nat) : Ground t (argmaxIn t c s g k n d) := by
  unfold argmaxIn; dsimp only; split <;> exact ⟨rfl, rfl, rfl⟩
theorem reduceIn_ground (t : Tile) (c : RunCx) (s : Stage) (g k : Nat) (l : List (Nat × Nat)) : Ground t (reduceIn t c s g k l) := by
  unfold reduceIn; dsimp only; split
  · exact ⟨rfl, rfl, rfl⟩
  · exact ⟨rfl, rfl, rfl⟩
  · exact foldl_ground _ (fun u b => argmaxIn_ground u c s g k _ _) l t
theorem reduceSeg_ground (t : Tile) (c : RunCx) (s : Stage) (ls : List (Lane × Nat)) (g : Nat) : Ground t (reduceSeg t c s ls g) := by
  have q : ∀ (p : Prop) [Decidable p] (x y : Tile), Ground t x → Ground t y → Ground t (if p then x else y) := by
    intro p _ x y hx hy
    split
    · exact hx
    · exact hy
  exact q _ _ _ (openSeg_ground _ _ _ _) ((openSeg_ground _ _ _ _).trans (reduceIn_ground _ _ _ _ _ _))
theorem reduceStage_ground (t : Tile) (c : RunCx) (s : Stage) (gr : Grp) : Ground t (reduceStage t c s gr) :=
  foldl_ground _ (fun u b => reduceSeg_ground u c s _ b) _ t
/-- What the stages still to come need of a group on its way. -/
def GrpOk (T : Tile) (o : Op) (g : Nat → Snap) (len : Nat) (ss : List Stage) (t : Tile) (gr : Grp) : Prop :=
  Sound T t ∧ (∀ w ∈ gr.writes, Placed T o w) ∧ stagesThere T g len (gr.packed.map Prod.fst) ss = true
theorem elemsThere_map {t u : Tile} (h : u.map = t.map) (p : Snap) (f l n : Nat) : elemsThere u p f l n = elemsThere t p f l n := by simp [elemsThere, h]
theorem packThere_map {t u : Tile} (h : u.map = t.map) (p : Snap) (c n : Nat) : packThere u p c n = packThere t p c n := by simp [packThere, h]
/-- One stage of a group. -/
theorem runStage_lands {T t : Tile} {o : Op} {g : Nat → Snap} {len : Nat} {c : RunCx} {s : Stage} {ss : List Stage} {gr : Grp}
    (hg : ∀ a ∈ stageAgs s, o.snap a = g a) (hc : c.nact = min 64 (len - 64 * c.g)) (hl : c.g < (len + 63) / 64)
    (h : GrpOk T o g len (s :: ss) t gr) : (runStage t o c s gr).lands (GrpOk T o g len ss) := by
  obtain ⟨h1, h2, h3⟩ := h
  have lanes : ∀ (v : Tile) (f : Nat → Lane → Nat × Flags), Sound T v → stagesThere T g len (gr.packed.map Prod.fst) ss = true →
      GrpOk T o g len ss (mapLanes v c s gr f).1 (mapLanes v c s gr f).2 := fun v f hv hs => ⟨hv, h2, hs⟩
  rw [stagesThere.eq_def] at h3
  dsimp only at h3
  unfold runStage
  dsimp only
  split at h3
  · next hk =>
    simp only [Bool.and_eq_true] at h3
    obtain ⟨⟨q1, q2⟩, q3⟩ := h3
    have ha : o.snap s.ag = g s.ag := hg _ (by simp [stageAgs, hk])
    rw [hk]
    refine UR.lands_bind (P := fun u _ => u = t) (rdElems_clean (len := len) h1.2.1 (by rw [elemsThere_map h1.1, ha]; exact q1) ?_) (fun u cs hu => ?_)
    · intro e he
      simp only [List.mem_map, List.mem_filter, List.mem_range] at he
      obtain ⟨n, ⟨hn, -⟩, rfl⟩ := he
      omega
    subst hu
    refine UR.lands_bind (P := fun v _ => v = u) ?_ (fun v sc hv => ?_)
    · split
      · next hm =>
        have hs : o.snap s.sag = g s.sag := hg _ (by simp [stageAgs, hk, hm])
        simp only [hm, Bool.not_true, Bool.false_or] at q2
        exact rdGrpScales_clean h1.2.1 (by rw [packThere_map h1.1, hs]; exact q2) hl (by omega)
      · exact rfl
    subst hv
    exact lanes _ _ h1 q3
  · next hk =>
    simp only [Bool.and_eq_true] at h3
    obtain ⟨q2, q3⟩ := h3
    rw [hk]
    unfold packStage
    dsimp only
    by_cases hm : fmtMx s.fmt = true
    · have hs : o.snap s.sag = g s.sag := hg _ (by simp [stageAgs, hk, hm])
      simp only [hm, Bool.not_true, Bool.false_or] at q2
      obtain ⟨p1, p2⟩ := packThere_at q2
      rw [if_pos hm]
      refine ⟨h1, ?_, q3⟩
      intro w hw
      rcases List.mem_append.1 hw with hw | hw
      · exact h2 w hw
      · simp only [List.mem_cons, List.not_mem_nil, or_false] at hw
        subst hw
        refine ⟨by rw [hs]; exact p1, fun q => absurd rfl q, ?_⟩
        intro q hq
        obtain ⟨r, hr, rfl⟩ := List.mem_map.1 hq
        have hr2 := (List.mem_filter.1 hr).1
        obtain ⟨b, hb, rfl⟩ := List.mem_map.1 hr2
        have hb := List.mem_range.1 hb
        show T.map.rangeOk (elAddr (o.snap s.sag) 16 (2 * c.g + b)) 1 = true
        rw [hs]
        have e : elAddr (g s.sag) 16 (2 * c.g + b) = (g s.sag).packAddr (2 * c.g + b) 1 := by
          simp only [elAddr, Snap.packAddr, show fmtBits 16 = 8 from rfl]
          congr 2; omega
        rw [e]; exact p2 _ (by omega)
    · rw [if_neg hm]; exact ⟨h1, h2, q3⟩
  · next hk =>
    simp only [Bool.and_eq_true] at h3
    obtain ⟨q1, q3⟩ := h3
    have ha : o.snap s.ag = g s.ag := hg _ (by simp [stageAgs, hk])
    obtain ⟨p1, p2, p3⟩ := elemsThere_at q1
    rw [hk]
    unfold storeStage
    dsimp only
    have keys : ∀ (els : List (Nat × Nat)), (∀ q ∈ els, ∃ n, n < c.nact ∧ q.1 = 64 * c.g + n) → ∀ fmt, fmtBits fmt = fmtBits (if gr.packed.map Prod.fst = some 10 then 8 else (gr.packed.map Prod.fst).getD 5) →
        ∀ q ∈ els, T.map.rangeOk (elAddr (o.snap s.ag) fmt q.1) 1 = true := by
      intro els he fmt hf q hq
      obtain ⟨n, hn, e⟩ := he q hq
      rw [ha, e, elAddr_bits _ hf]; exact p3 _ (by omega)
    refine ⟨h1, ?_, q3⟩
    intro w hw
    rcases List.mem_append.1 hw with hw | hw
    · exact h2 w hw
    · simp only [List.mem_cons, List.not_mem_nil, or_false] at hw
      subst hw
      refine ⟨by rw [ha]; exact p1, fun q => ?_, keys _ ?_ _ ?_⟩
      · dsimp only at q ⊢
        rw [ha]
        cases hp : gr.packed with
        | none => rw [hp] at p2; simpa using p2
        | some r => rw [hp] at p2; simpa using p2
      · intro q hq
        obtain ⟨n, hn, e⟩ := List.mem_filterMap.1 hq
        refine ⟨n, List.mem_range.1 hn, ?_⟩
        split at e
        · cases hp : gr.packed with
          | none => rw [hp] at e; dsimp only at e; injection e with e; rw [← e]
          | some r =>
            rw [hp] at e; dsimp only at e
            obtain ⟨k, -, e⟩ := Option.map_eq_some_iff.1 e
            rw [← e]
        · split at e
          · injection e with e; rw [← e]
          · simp at e
      · cases hp : gr.packed with
        | none => rfl
        | some r =>
          dsimp only
          simp only [Option.map_some, Option.getD_some, Option.some.injEq]
          split
          · next e => rw [e]; rfl
          · rfl
  · next k n1 n8 n9 =>
    simp only [Bool.and_eq_true, decide_eq_true_eq] at h3
    obtain ⟨⟨k1, k2⟩, q3⟩ := h3
    have : s.kind = 2 ∨ s.kind = 3 ∨ s.kind = 4 ∨ s.kind = 5 ∨ s.kind = 6 ∨ s.kind = 7 := by omega
    rcases this with hk | hk | hk | hk | hk | hk <;> rw [hk]
    · exact lanes _ _ h1 q3
    · exact lanes _ _ h1 q3
    · exact lanes _ _ h1 q3
    · exact lanes _ _ h1 q3
    · exact lanes _ _ h1 q3
    · exact ⟨h1.ground (reduceStage_ground _ _ _ _), h2, q3⟩
theorem runStages_lands {T : Tile} {o : Op} {g : Nat → Snap} {len : Nat} {c : RunCx} (hc : c.nact = min 64 (len - 64 * c.g)) (hl : c.g < (len + 63) / 64) (ss : List Stage) :
    ∀ (t : Tile) (k : Nat) (gr : Grp), (∀ s ∈ ss, ∀ a ∈ stageAgs s, o.snap a = g a) → GrpOk T o g len ss t gr →
    (runStages o c t k ss gr).lands (fun u gr => Sound T u ∧ ∀ w ∈ gr.writes, Placed T o w) := by
  induction ss with
  | nil => intro t k gr _ h; exact ⟨h.1, h.2.1⟩
  | cons s ss ih =>
    intro t k gr hg h
    rw [runStages]
    have q := runStage_lands (hg s (List.mem_cons_self ..)) hc hl h
    cases hx : runStage t o c s gr with
    | ok u gr2 =>
      rw [hx] at q
      obtain ⟨q1, q2, q3⟩ := q
      refine ih u (k + 1) _ (fun s hs => hg s (List.mem_cons_of_mem _ hs)) ⟨q1, ?_, q3⟩
      intro w hw
      obtain ⟨⟨w0, i⟩, hm, rfl⟩ := List.mem_map.1 hw
      have m : w0 ∈ gr2.writes := by
        have := List.mem_zipIdx' hm
        rw [this.2]; exact List.getElem_mem _
      dsimp only
      split
      · exact q2 w0 m
      · exact q2 w0 m
    | wait _ => rw [hx] at q; exact q.elim
    | fault _ _ _ _ => rw [hx] at q; exact q.elim
/-- A run whose loads are not in queue mode takes no words from queues. -/
theorem loadWords_nil {T : Tile} {o : Op} {g : Nat → Snap} {len : Nat} (ss : List Stage) : ∀ (packed : Option Nat), (∀ s ∈ ss, ∀ a ∈ stageAgs s, o.snap a = g a) →
    stagesThere T g len packed ss = true → loadWords o ss = [] := by
  induction ss with
  | nil => intro _ _ _; rfl
  | cons s ss ih =>
    intro packed hg h
    rw [stagesThere.eq_def] at h
    dsimp only at h
    rw [loadWords]
    have hg' := fun s hs => hg s (List.mem_cons_of_mem _ hs)
    have hs := hg s (List.mem_cons_self ..)
    split at h
    · next hk =>
      simp only [Bool.and_eq_true] at h
      obtain ⟨⟨q1, q2⟩, q3⟩ := h
      rw [ih packed hg' q3, if_pos hk, hs s.ag (by simp [stageAgs, hk]), (elemsThere_at q1).1]
      by_cases hm : fmtMx s.fmt = true
      · simp only [hm, Bool.not_true, Bool.false_or] at q2
        rw [hs s.sag (by simp [stageAgs, hk, hm]), (packThere_at q2).1]; simp
      · simp [hm]
    · next hk =>
      simp only [Bool.and_eq_true] at h
      rw [ih _ hg' h.2, if_neg (by omega)]; rfl
    · next hk =>
      simp only [Bool.and_eq_true] at h
      rw [ih _ hg' h.2, if_neg (by omega)]; rfl
    · next hk _ _ =>
      simp only [Bool.and_eq_true] at h
      rw [ih _ hg' h.2, if_neg (by omega)]; rfl
/-- One group of a vector run whose stages find their operands. -/
theorem unitVrn_lands {T t : Tile} {o : Op} {g : Nat → Snap} {cfg : Nat} (h : Sound T t) (hd : o.data = [cfg])
    (hg : ∀ s ∈ chStages cfg, ∀ a ∈ stageAgs s, o.snap a = g a) (hs : stagesThere T g o.len none (chStages cfg) = true) (hl : o.unit < (o.len + 63) / 64) :
    (unitVrn t o).lands (fun u y => (∃ b, y = { o with buf := b }) ∧ Sound T u) := by
  unfold unitVrn
  dsimp only
  rw [hd, List.headD_cons, loadWords_nil (chStages cfg) none hg hs]
  simp only [List.find?_nil]
  refine UR.lands_bind (runStages_lands (T := T) (o := o) (g := g) (len := o.len) (c := ⟨cfg, o.unit, min 64 (o.len - 64 * o.unit), o.mask⟩) rfl hl (chStages cfg) t 0
    { lanes := List.replicate 64 {} } hg ⟨h, fun w hw => by simp at hw, hs⟩) (fun u gr hu => ?_)
  refine UR.lands_bind (wrGroup_clean o.h.lostB o.unit gr.writes u hu.1 hu.2) (fun v _ hv => ?_)
  exact ⟨⟨[], rfl⟩, hv⟩
end Sys2Proof.Machine
end

