-- ==== Sys2Proof/Laws/Packets.lean ====
section
/-! SUPPORT. The packet operation: what it answers for a packet that passes checks 1 to 4, and what taking a packet leaves alone. -/

namespace Sys2Proof.Machine

@[simp] theorem State.consume_noVariant (s : State) (h : Hdr) : (s.consume h).ha.noVariant = s.ha.noVariant := by
  unfold State.consume; dsimp only; split <;> rfl
/-- What is done at once is answered by the one reply. -/
@[simp] theorem apply_done (h : Hdr) (op st d : Nat) (s : State) : Verdict.apply h op (.done st d s) = replied op h st d s := rfl
/-- A refusal is a reply with DETAIL 0. -/
@[simp] theorem apply_refuse (h : Hdr) (op st : Nat) (s : State) : Verdict.apply h op (refuse st s) = replied op h st 0 s := rfl
/-- A command accepted as long-running. -/
@[simp] theorem apply_accepted (h : Hdr) (op : Nat) (job : Job) (a b : Nat) (start : Nat → State → State) (s : State) :
    Verdict.apply h op (.accept stAccepted job a b start s) = longAccepted op h job a b start s := rfl
/-- A command accepted and carried out in the same step. -/
@[simp] theorem apply_acceptNow (h : Hdr) (op : Nat) (job : Job) (work : State → State × Nat × Nat) (s : State) :
    Verdict.apply h op (acceptNow s job work) = ranNow op h job work s := rfl
/-- Check 6 passed. -/
theorem check6_ok {h : Hdr} {s : State} {ok : Bool} (k : Verdict) (hr : h.rsv = true) (ho : ok = true) : check6 h s ok k = k := by
  simp [check6, hr, ho]
/-- A data reference that R344 admits, with check 6 passed and the host link up. -/
theorem withRef_ok {h : Hdr} {x : DRef} {s : State} {ok : Bool} (k : Verdict) (hx : s.refBad h.src x = none) (hr : h.rsv = true) (ho : ok = true)
    (hc : s.ha.cxl = true) : withRef h x s ok k = k := by
  simp [withRef, hx, check6, hr, ho, hc]
/-- A packet that is served is answered by its command's own part. -/
theorem packet_served {op : Nat} {lens : List Nat} {sysOnly : Bool} {h : Hdr} {s : State} (hs : served op lens sysOnly h s = true) (body : State → Verdict) :
    packet op lens sysOnly h s body = Verdict.apply h op (body (taken s h)) := by
  simp only [served, Bool.and_eq_true, decide_eq_true_eq, Bool.or_eq_true, Bool.not_eq_true', taken] at hs
  obtain ⟨⟨⟨⟨⟨⟨⟨⟨h0, h1⟩, h2⟩, h3⟩, h4⟩, h5⟩, h6⟩, h7⟩, h8⟩ := hs
  have e1 : ¬(h.len = 0 ∨ 128 < h.len) := by omega
  have e2 : ¬(4 ≤ h.flags ∨ 1024 ≤ h.ctx ∨ h.seq ≠ (s.at h.cyc).nseq h) := by
    rintro (h | h | h)
    · omega
    · omega
    · exact h h6
  have e3 : ¬(s.ha.noVariant = true ∧ ¬(opGroup op = 10 ∨ opGroup op = 11)) := by
    rintro ⟨a, b⟩
    rcases h8 with h8 | h8
    · rw [h8] at a; exact absurd a (by decide)
    · exact b h8
  simp only [packet, e1, if_false, h3, h2, e2, h7, State.consume_noVariant, State.at_ha, e3, taken, Bool.true_eq_false]

end Sys2Proof.Machine
end

