-- ==== Sys2Proof/Laws/PerInstr.lean ====
section
/-! SUPPORT. Family F, per command: the header of a well-formed packet command fits the header's fields (R306). -/

namespace Sys2Proof.Laws.F

set_option Elab.async false

open Sys2Proof.Machine

/-- A well-formed command that is a packet carries a header whose fields fit. -/
def Statement (i : Instr) : Prop :=
  i.wf = true → ∀ op lens sysOnly h, packetRow i = some (op, lens, sysOnly, h) → packetFits h = true

theorem of_none {i : Instr} (e : packetRow i = none) : Statement i := by
  intro _ _ _ _ _ h; rw [e] at h; cases h
theorem of_row {i : Instr} {op : Nat} {lens : List Nat} {sysOnly : Bool} {h : Hdr} (e : packetRow i = some (op, lens, sysOnly, h))
    (w : i.wf = true → packetFits h = true) : Statement i := by
  intro hw _ _ _ _ h; rw [e] at h; cases h; exact w hw

theorem beatBoundary : Statement (.beatBoundary) := of_none rfl
theorem siteRemap (region cluster : Nat) : Statement (.siteRemap region cluster) := of_none rfl
theorem boundarySlip (rx tx cyc : Nat) : Statement (.boundarySlip rx tx cyc) := of_none rfl
theorem stretchOrder (m beat cyc : Nat) : Statement (.stretchOrder m beat cyc) := of_none rfl
theorem holdRequest (ctx src cyc : Nat) : Statement (.holdRequest ctx src cyc) := of_none rfl
theorem holdDecision (ctx : Nat) : Statement (.holdDecision ctx) := of_none rfl
theorem holdTimeout (ctx : Nat) : Statement (.holdTimeout ctx) := of_none rfl
theorem ptpAnchor (time : Nat) (locked : Bool) : Statement (.ptpAnchor time locked) := of_none rfl
theorem beatInLost : Statement (.beatInLost) := of_none rfl
theorem beatEpoch (f : FHdr) (beat : Nat) : Statement (.beatEpoch f beat) := of_none rfl
theorem mcf (h : IHdr) (gang : Nat) (sati : Bool) : Statement (.mcf h gang sati) := of_none rfl
theorem mld (h : IHdr) (f : MldF) : Statement (.mld h f) := of_none rfl
theorem msw (h : IHdr) : Statement (.msw h) := of_none rfl
theorem mst (h : IHdr) (f : MstF) (u : Option Upset) : Statement (.mst h f u) := of_none rfl
theorem mdr (h : IHdr) (f : MdrF) : Statement (.mdr h f) := of_none rfl
theorem cvl (h : IHdr) (setting : Nat) (pb : Bool) (ag : Nat) (word : BitVec 64) : Statement (.cvl h setting pb ag word) := of_none rfl
theorem vcl (h : IHdr) (slot ag : Nat) : Statement (.vcl h slot ag) := of_none rfl
theorem vrn (h : IHdr) (slot : Nat) (ovl : Bool) : Statement (.vrn h slot ovl) := of_none rfl
theorem vsl (h : IHdr) (f : VslF) : Statement (.vsl h f) := of_none rfl
theorem vsm (h : IHdr) (mask : BitVec 64) : Statement (.vsm h mask) := of_none rfl
theorem vrs (h : IHdr) (bank n ag : Nat) : Statement (.vrs h bank n ag) := of_none rfl
theorem vrl (h : IHdr) (bank n ag : Nat) : Statement (.vrl h bank n ag) := of_none rfl
theorem nop (h : IHdr) (cyc : Nat) : Statement (.nop h cyc) := of_none rfl
theorem wcy (h : IHdr) (offset : Nat) : Statement (.wcy h offset) := of_none rfl
theorem loop (h : IHdr) (f : LoopF) : Statement (.loop h f) := of_none rfl
theorem call (h : IHdr) (routine : Nat) : Statement (.call h routine) := of_none rfl
theorem ret (h : IHdr) : Statement (.ret h) := of_none rfl
theorem swp (h : IHdr) : Statement (.swp h) := of_none rfl
theorem endI (h : IHdr) : Statement (.endI h) := of_none rfl
theorem ags (h : IHdr) (f : AgsF) : Statement (.ags h f) := of_none rfl
theorem agi (h : IHdr) (f : AgiF) : Statement (.agi h f) := of_none rfl
theorem srd (h : IHdr) (reg ag : Nat) : Statement (.srd h reg ag) := of_none rfl
theorem swr (h : IHdr) (reg : Nat) (v : BitVec 64) : Statement (.swr h reg v) := of_none rfl
theorem get (h : IHdr) (ch ag flits : Nat) : Statement (.get h ch ag flits) := of_none rfl
theorem put (h : IHdr) (ch ag flits : Nat) : Statement (.put h ch ag flits) := of_none rfl
theorem gth (h : IHdr) (f : GthF) : Statement (.gth h f) := of_none rfl
theorem sct (h : IHdr) (f : SctF) : Statement (.sct h f) := of_none rfl
theorem pgl (h : IHdr) (ch offset flits : Nat) (fin : Bool) : Statement (.pgl h ch offset flits fin) := of_none rfl
theorem pageSwap (tile : Nat) : Statement (.pageSwap tile) := of_none rfl
theorem swapTimeout (tile cyc : Nat) : Statement (.swapTimeout tile cyc) := of_none rfl
theorem crossWait (tile : Nat) : Statement (.crossWait tile) := of_none rfl
theorem streamStall (tile : Nat) (exe : Bool) (cyc : Nat) : Statement (.streamStall tile exe cyc) := of_none rfl
theorem planStart (tile : Nat) : Statement (.planStart tile) := of_none rfl
theorem planEnd (tile cyc : Nat) : Statement (.planEnd tile cyc) := of_none rfl
theorem spPatrol (tile : Nat) : Statement (.spPatrol tile) := of_none rfl
theorem spCorrectionWriteback (tile bank : Nat) : Statement (.spCorrectionWriteback tile bank) := of_none rfl
theorem routerSlot (pos entry cyc : Nat) : Statement (.routerSlot pos entry cyc) := of_none rfl
theorem beatOrder (dst ctx cyc : Nat) : Statement (.beatOrder dst ctx cyc) := of_none rfl
theorem beatOrderLost (dst ctx : Nat) : Statement (.beatOrderLost dst ctx) := of_none rfl
theorem routeSwitch (ctx : Nat) : Statement (.routeSwitch ctx) := of_none rfl
theorem waggleResend (hub next : Nat) : Statement (.waggleResend hub next) := of_none rfl
theorem fenceOrder (dst action ctx : Nat) : Statement (.fenceOrder dst action ctx) := of_none rfl
theorem faultReport (unit cls stamp : Nat) : Statement (.faultReport unit cls stamp) := of_none rfl
theorem telemetry (unit : Nat) : Statement (.telemetry unit) := of_none rfl
theorem spRead (tile src addr : Nat) : Statement (.spRead tile src addr) := of_none rfl
theorem spWrite (tile src addr : Nat) (word : Line) : Statement (.spWrite tile src addr word) := of_none rfl
theorem spReply (tile dst : Nat) : Statement (.spReply tile dst) := of_none rfl
theorem regRead (tile src reg : Nat) : Statement (.regRead tile src reg) := of_none rfl
theorem regWrite (tile src reg : Nat) (v : BitVec 64) : Statement (.regWrite tile src reg v) := of_none rfl
theorem regReply (tile dst : Nat) : Statement (.regReply tile dst) := of_none rfl
theorem shortMsg (tile seq : Nat) (words : List Nat) : Statement (.shortMsg tile seq words) := of_none rfl
theorem leaseGrant (l : Lease) (reply : Bool) : Statement (.leaseGrant l reply) := of_none rfl
theorem leaseRenew (l : Lease) (reply : Bool) : Statement (.leaseRenew l reply) := of_none rfl
theorem leaseRelease (l : Lease) : Statement (.leaseRelease l) := of_none rfl
theorem leaseReclaim (l : Lease) : Statement (.leaseReclaim l) := of_none rfl
theorem leaseExpired (l : Lease) : Statement (.leaseExpired l) := of_none rfl
theorem regulatorGrant (sc : Nat) : Statement (.regulatorGrant sc) := of_none rfl
theorem streamForecast (sc ctx : Nat) : Statement (.streamForecast sc ctx) := of_none rfl
theorem edgePortSlot (sc port cyc : Nat) (outbound : Bool) : Statement (.edgePortSlot sc port cyc outbound) := of_none rfl
theorem streamDeadline (sc slot : Nat) : Statement (.streamDeadline sc slot) := of_none rfl
theorem stackPatrol (sc : Nat) : Statement (.stackPatrol sc) := of_none rfl
theorem reduceDeadline (sc n : Nat) : Statement (.reduceDeadline sc n) := of_none rfl
theorem reductionForecast (sc ctx : Nat) : Statement (.reductionForecast sc ctx) := of_none rfl
theorem gradEgressSend (sc ctx parcel : Nat) : Statement (.gradEgressSend sc ctx parcel) := of_none rfl
theorem ownerBufferOpen (sc ctx : Nat) : Statement (.ownerBufferOpen sc ctx) := of_none rfl
theorem gradBlock (f : FHdr) (step attempt : Nat) (row : Bool) (b : WireBlk) : Statement (.gradBlock f step attempt row b) := of_none rfl
theorem gradClose (f : FHdr) (parcel step attempt : Nat) (dense nf : Bool) (rows : Nat) : Statement (.gradClose f parcel step attempt dense nf rows) := of_none rfl
theorem parcelCredit (f : FHdr) (step attempt sc ordinal : Nat) : Statement (.parcelCredit f step attempt sc ordinal) := of_none rfl
theorem ripenerUpdate (sc ctx parcel : Nat) : Statement (.ripenerUpdate sc ctx parcel) := of_none rfl
theorem mirror (f : FHdr) (p : Prefix) (data : List Byte) : Statement (.mirror f p data) := of_none rfl
theorem mirrorAck (f : FHdr) (parcel step attempt status : Nat) : Statement (.mirrorAck f parcel step attempt status) := of_none rfl
theorem mirrorTimeout (ctx parcel : Nat) : Statement (.mirrorTimeout ctx parcel) := of_none rfl
theorem allgather (f : FHdr) (p : Prefix) (data : List Byte) : Statement (.allgather f p data) := of_none rfl
theorem hostUpdateTimeout (ctx parcel : Nat) : Statement (.hostUpdateTimeout ctx parcel) := of_none rfl
theorem capsule (f : FHdr) (transfer off total : Nat) (data : List Byte) : Statement (.capsule f transfer off total data) := of_none rfl
theorem capsuleAck (f : FHdr) (transfer units status : Nat) : Statement (.capsuleAck f transfer units status) := of_none rfl
theorem link (n ack : Nat) (nak : Bool) (credits : List Nat) (bad : Bool) : Statement (.link n ack nak credits bad) := of_none rfl
theorem linkRetrainInService (n fecWindow : Nat) : Statement (.linkRetrainInService n fecWindow) := of_none rfl
theorem linkRetrainComplete (n : Nat) (t : Trained) : Statement (.linkRetrainComplete n t) := of_none rfl
theorem fabricCreditStall (n vc : Nat) : Statement (.fabricCreditStall n vc) := of_none rfl
theorem hello (n pod pos plink pidh : Nat) : Statement (.hello n pod pos plink pidh) := of_none rfl
theorem stepStartMessage (f : FHdr) (step attempt scale freeze : Nat) : Statement (.stepStartMessage f step attempt scale freeze) := of_none rfl
theorem stepSyncTimeout (ctx : Nat) : Statement (.stepSyncTimeout ctx) := of_none rfl
theorem norm (f : FHdr) (step : Nat) (v : BitVec 64) : Statement (.norm f step v) := of_none rfl
theorem headroom (f : FHdr) (share power : Nat) (offer : Int) : Statement (.headroom f share power offer) := of_none rfl
theorem headroomSend (cyc : Nat) : Statement (.headroomSend cyc) := of_none rfl
theorem podAllowanceHoldEnd : Statement (.podAllowanceHoldEnd) := of_none rfl
theorem headroomTimeout (pos : Nat) : Statement (.headroomTimeout pos) := of_none rfl
theorem restoreRequest (f : FHdr) (pos mask : Nat) : Statement (.restoreRequest f pos mask) := of_none rfl
theorem restoreDone (f : FHdr) (pos last cur seed attempt gnorm units : Nat) (counts : List Nat) : Statement (.restoreDone f pos last cur seed attempt gnorm units counts) := of_none rfl
theorem moduleLost (pos : Nat) : Statement (.moduleLost pos) := of_none rfl
theorem systemRingStart (cprod qcons : Nat) (readable : Bool) : Statement (.systemRingStart cprod qcons readable) := of_none rfl
theorem systemRingStop : Statement (.systemRingStop) := of_none rfl
theorem systemRingStopDone : Statement (.systemRingStopDone) := of_none rfl
theorem registerWrite (off len value : Nat) : Statement (.registerWrite off len value) := of_none rfl
theorem headLineSnoop (ctx cyc cprod qcons : Nat) (readable : Bool) (undef : List (Nat × Hdr)) : Statement (.headLineSnoop ctx cyc cprod qcons readable undef) := of_none rfl
theorem headLineReread (ctx cyc cprod qcons : Nat) (readable : Bool) (undef : List (Nat × Hdr)) : Statement (.headLineReread ctx cyc cprod qcons readable undef) := of_none rfl
theorem farPageRequestRepost (ctx ext page : Nat) : Statement (.farPageRequestRepost ctx ext page) := of_none rfl
theorem msixUnmask (vec : Nat) : Statement (.msixUnmask vec) := of_none rfl
theorem hdmDecoderCommit (ways : Nat) : Statement (.hdmDecoderCommit ways) := of_none rfl
theorem windowRead (addr : Nat) : Statement (.windowRead addr) := of_none rfl
theorem windowWrite (addr enable : Nat) (data : List Byte) : Statement (.windowWrite addr enable data) := of_none rfl
theorem hostLinkReset : Statement (.hostLinkReset) := of_none rfl
theorem ctxOpen (h : Hdr) (d : Words8) : Statement (.ctxOpen h d) := of_row rfl (by simp +contextual [Instr.wf])
theorem ctxClose (h : Hdr) : Statement (.ctxClose h) := of_row rfl (by simp +contextual [Instr.wf])
theorem ctxFence (h : Hdr) (gen : Nat) (b : SigBlk) : Statement (.ctxFence h gen b) := of_row rfl (by simp +contextual [Instr.wf])
theorem ctxRead (h : Hdr) (first count : Nat) (x : DRef) : Statement (.ctxRead h first count x) := of_row rfl (by simp +contextual [Instr.wf])
theorem regionBind (h : Hdr) (region flags : Nat) : Statement (.regionBind h region flags) := of_row rfl (by simp +contextual [Instr.wf])
theorem extentCreate (h : Hdr) (sc kind flags pages pair : Nat) : Statement (.extentCreate h sc kind flags pages pair) := of_row rfl (by simp +contextual [Instr.wf])
theorem extentBind (h : Hdr) (ext flags : Nat) : Statement (.extentBind h ext flags) := of_row rfl (by simp +contextual [Instr.wf])
theorem slotBind (h : Hdr) (stream flags : Nat) : Statement (.slotBind h stream flags) := of_row rfl (by simp +contextual [Instr.wf])
theorem groupBind (h : Hdr) (blk flags : Nat) : Statement (.groupBind h blk flags) := of_row rfl (by simp +contextual [Instr.wf])
theorem bindingEffect (kind idx : Nat) : Statement (.bindingEffect kind idx) := of_none rfl
theorem protChange (h : Hdr) (ctx gen : Nat) (n0 n1 n2 n3 : BitVec 64) (blks : List SigBlk) : Statement (.protChange h ctx gen n0 n1 n2 n3 blks) := of_row rfl (by simp +contextual [Instr.wf])
theorem pageMapFar (h : Hdr) (ext page flags addr : Nat) : Statement (.pageMapFar h ext page flags addr) := of_row rfl (by simp +contextual [Instr.wf])
theorem pageRetire (h : Hdr) (ext page : Nat) : Statement (.pageRetire h ext page) := of_row rfl (by simp +contextual [Instr.wf])
theorem extentCopy (h : Hdr) (src dst soff doff len : Nat) : Statement (.extentCopy h src dst soff doff len) := of_row rfl (by simp +contextual [Instr.wf])
theorem streamArm (h : Hdr) (stream : Nat) (d : Words8) : Statement (.streamArm h stream d) := of_row rfl (by simp +contextual [Instr.wf])
theorem streamResume (h : Hdr) (stream : Nat) : Statement (.streamResume h stream) := of_row rfl (by simp +contextual [Instr.wf])
theorem streamAbort (h : Hdr) (stream : Nat) : Statement (.streamAbort h stream) := of_row rfl (by simp +contextual [Instr.wf])
theorem streamStatus (h : Hdr) (first count : Nat) (x : DRef) : Statement (.streamStatus h first count x) := of_row rfl (by simp +contextual [Instr.wf])
theorem spMapLoad (h : Hdr) (m : SpMap) : Statement (.spMapLoad h m) := of_row rfl (by simp +contextual [Instr.wf])
theorem libLoad (h : Hdr) (x : DRef) : Statement (.libLoad h x) := of_row rfl (by simp +contextual [Instr.wf])
theorem planLoad (h : Hdr) (x : DRef) : Statement (.planLoad h x) := of_row rfl (by simp +contextual [Instr.wf])
theorem planFree (h : Hdr) (handle : Nat) : Statement (.planFree h handle) := of_row rfl (by simp +contextual [Instr.wf])
theorem planRun (h : Hdr) (handle : Nat) : Statement (.planRun h handle) := of_row rfl (by simp +contextual [Instr.wf])
theorem planAbort (h : Hdr) : Statement (.planAbort h) := of_row rfl (by simp +contextual [Instr.wf])
theorem stepStart (h : Hdr) (step seed tokens lr handle : Nat) : Statement (.stepStart h step seed tokens lr handle) := of_row rfl (by simp +contextual [Instr.wf])
theorem stepBegin (ctx : Nat) : Statement (.stepBegin ctx) := of_none rfl
theorem stepComplete (ctx : Nat) : Statement (.stepComplete ctx) := of_none rfl
theorem evalStart (h : Hdr) (handle tokens seed : Nat) : Statement (.evalStart h handle tokens seed) := of_row rfl (by simp +contextual [Instr.wf])
theorem stepStatus (h : Hdr) : Statement (.stepStatus h) := of_row rfl (by simp +contextual [Instr.wf])
theorem fabricTopology (h : Hdr) (x : DRef) : Statement (.fabricTopology h x) := of_row rfl (by simp +contextual [Instr.wf])
theorem podConfig (h : Hdr) (x : DRef) : Statement (.podConfig h x) := of_row rfl (by simp +contextual [Instr.wf])
theorem linkWidth (h : Hdr) (n v : Nat) : Statement (.linkWidth h n v) := of_row rfl (by simp +contextual [Instr.wf])
theorem linkRetrain (h : Hdr) (n : Nat) : Statement (.linkRetrain h n) := of_row rfl (by simp +contextual [Instr.wf])
theorem optConfig (h : Hdr) (flags hr sat down : Nat) : Statement (.optConfig h flags hr sat down) := of_row rfl (by simp +contextual [Instr.wf])
theorem optParcelMap (h : Hdr) (count : Nat) (x : DRef) : Statement (.optParcelMap h count x) := of_row rfl (by simp +contextual [Instr.wf])
theorem optScaleLoad (h : Hdr) (first tables count : Nat) (x : DRef) : Statement (.optScaleLoad h first tables count x) := of_row rfl (by simp +contextual [Instr.wf])
theorem optGroup (h : Hdr) (group : Nat) (r : Words8) : Statement (.optGroup h group r) := of_row rfl (by simp +contextual [Instr.wf])
theorem optFreeze (h : Hdr) (count : Nat) (x : DRef) : Statement (.optFreeze h count x) := of_row rfl (by simp +contextual [Instr.wf])
theorem optStateInit (h : Hdr) (first flags count : Nat) (x : DRef) : Statement (.optStateInit h first flags count x) := of_row rfl (by simp +contextual [Instr.wf])
theorem optNorms (h : Hdr) (step : Nat) (x : DRef) : Statement (.optNorms h step x) := of_row rfl (by simp +contextual [Instr.wf])
theorem optAudit (h : Hdr) (first flags count : Nat) (digests : List (Nat × Nat × Nat)) : Statement (.optAudit h first flags count digests) := of_row rfl (by simp +contextual [Instr.wf])
theorem optHostDone (h : Hdr) (parcel attempt step : Nat) : Statement (.optHostDone h parcel attempt step) := of_row rfl (by simp +contextual [Instr.wf])
theorem capsuleSeal (h : Hdr) (first count : Nat) (recips : List (List Byte)) (x : DRef) : Statement (.capsuleSeal h first count recips x) := of_row rfl (by simp +contextual [Instr.wf])
theorem capsuleOpen (h : Hdr) (x : DRef) : Statement (.capsuleOpen h x) := of_row rfl (by simp +contextual [Instr.wf])
theorem telemRead (h : Hdr) (unit : Nat) (x : DRef) : Statement (.telemRead h unit x) := of_row rfl (by simp +contextual [Instr.wf])
theorem ledgerRead (h : Hdr) (first count flags : Nat) (x : DRef) : Statement (.ledgerRead h first count flags x) := of_row rfl (by simp +contextual [Instr.wf])
theorem meterRead (h : Hdr) : Statement (.meterRead h) := of_row rfl (by simp +contextual [Instr.wf])
theorem powerPolicy (h : Hdr) (cap share : Nat) : Statement (.powerPolicy h cap share) := of_row rfl (by simp +contextual [Instr.wf])
theorem clockSet (h : Hdr) (mmin flags : Nat) : Statement (.clockSet h mmin flags) := of_row rfl (by simp +contextual [Instr.wf])
theorem patternLoad (h : Hdr) (slot : Nat) (x : DRef) : Statement (.patternLoad h slot x) := of_row rfl (by simp +contextual [Instr.wf])
theorem testRun (h : Hdr) (unit slot corner : Nat) (x : DRef) : Statement (.testRun h unit slot corner x) := of_row rfl (by simp +contextual [Instr.wf])
theorem testAbort (h : Hdr) (unit : Nat) : Statement (.testAbort h unit) := of_row rfl (by simp +contextual [Instr.wf])
theorem testUnitDone (unit : Nat) (t : TestFinds) : Statement (.testUnitDone unit t) := of_none rfl
theorem testTimeLimit (unit : Nat) : Statement (.testTimeLimit unit) := of_none rfl
theorem logRead (h : Hdr) (first count : Nat) (x : DRef) : Statement (.logRead h first count x) := of_row rfl (by simp +contextual [Instr.wf])
theorem logStatus (h : Hdr) : Statement (.logStatus h) := of_row rfl (by simp +contextual [Instr.wf])
theorem traceConfig (h : Hdr) (unit flags start stop : Nat) (x : DRef) : Statement (.traceConfig h unit flags start stop x) := of_row rfl (by simp +contextual [Instr.wf])
theorem traceWindowEnd (unit : Nat) : Statement (.traceWindowEnd unit) := of_none rfl
theorem attest (h : Hdr) (nonce : List Byte) (x : DRef) : Statement (.attest h nonce x) := of_row rfl (by simp +contextual [Instr.wf])
theorem officerEnrol (h : Hdr) (slot : Nat) (key : List Byte) (blks : List SigBlk) : Statement (.officerEnrol h slot key blks) := of_row rfl (by simp +contextual [Instr.wf])
theorem officerRetire (h : Hdr) (slot : Nat) (blks : List SigBlk) : Statement (.officerRetire h slot blks) := of_row rfl (by simp +contextual [Instr.wf])
theorem certRead (h : Hdr) (x : DRef) : Statement (.certRead h x) := of_row rfl (by simp +contextual [Instr.wf])
theorem reset (h : Hdr) (level unit : Nat) : Statement (.reset h level unit) := of_row rfl (by simp +contextual [Instr.wf])
theorem regionMapRead (h : Hdr) (x : DRef) : Statement (.regionMapRead h x) := of_row rfl (by simp +contextual [Instr.wf])
theorem rimConfig (h : Hdr) (mask which rg rd : Nat) : Statement (.rimConfig h mask which rg rd) := of_row rfl (by simp +contextual [Instr.wf])
theorem beatMode (h : Hdr) (mode flags delay : Nat) : Statement (.beatMode h mode flags delay) := of_row rfl (by simp +contextual [Instr.wf])
theorem fwStage (h : Hdr) (x : DRef) : Statement (.fwStage h x) := of_row rfl (by simp +contextual [Instr.wf])
theorem defectMapRead (h : Hdr) (x : DRef) : Statement (.defectMapRead h x) := of_row rfl (by simp +contextual [Instr.wf])
theorem tileReset (tile : Nat) : Statement (.tileReset tile) := of_none rfl
theorem clusterReset (region cluster : Nat) : Statement (.clusterReset region cluster) := of_none rfl
theorem partitionReset (ctx : Nat) : Statement (.partitionReset ctx) := of_none rfl
theorem moduleWarmReset (b : BootFinds) : Statement (.moduleWarmReset b) := of_none rfl
theorem coldBoot (b : BootFinds) : Statement (.coldBoot b) := of_none rfl
theorem keeperWatchdog (checkpoint pc lastFeed : Nat) : Statement (.keeperWatchdog checkpoint pc lastFeed) := of_none rfl
theorem computeDomainOn (region : Nat) : Statement (.computeDomainOn region) := of_none rfl
theorem governorBeat (ins : List (Nat × Nat)) (cyc : Nat) : Statement (.governorBeat ins cyc) := of_none rfl
theorem inputOverpower : Statement (.inputOverpower) := of_none rfl
theorem aggregationWindowEnd : Statement (.aggregationWindowEnd) := of_none rfl
theorem regionSensorSample (region : Nat) (smp : Sample) (droops : List Nat) : Statement (.regionSensorSample region smp droops) := of_none rfl
theorem heatHigh (region : Nat) : Statement (.heatHigh region) := of_none rfl
theorem heatOffRecovery (region : Nat) : Statement (.heatOffRecovery region) := of_none rfl
theorem stackSensorSample (sc : Nat) (temp : Int) : Statement (.stackSensorSample sc temp) := of_none rfl
theorem coolantSample (inlet outlet : Int) (flow : Nat) : Statement (.coolantSample inlet outlet flow) := of_none rfl
theorem coolantWaitTimeout (inlet : Int) (flow : Nat) : Statement (.coolantWaitTimeout inlet flow) := of_none rfl
theorem repetition (idx : Nat) (r : Repeat) : Statement (.repetition idx r) := of_none rfl
theorem rcFault (region : Nat) (resetOk : Bool) : Statement (.rcFault region resetOk) := of_none rfl
theorem rcSilent (region : Nat) (resetOk : Bool) : Statement (.rcSilent region resetOk) := of_none rfl
theorem logRateWindowEnd : Statement (.logRateWindowEnd) := of_none rfl
theorem powerFailCapture : Statement (.powerFailCapture) := of_none rfl
theorem mgmtSessionOpen (id : Nat) (key : List Byte) : Statement (.mgmtSessionOpen id key) := of_none rfl
theorem modRstNRelease (ns : Nat) : Statement (.modRstNRelease ns) := of_none rfl
theorem pxSenseBreak (conn : Nat) : Statement (.pxSenseBreak conn) := of_none rfl
theorem inputValid (i v : Nat) : Statement (.inputValid i v) := of_none rfl
theorem inputOvervoltage (i v : Nat) : Statement (.inputOvervoltage i v) := of_none rfl
theorem inputReclose (i v : Nat) : Statement (.inputReclose i v) := of_none rfl
theorem inputOvercurrent (i amps held : Nat) : Statement (.inputOvercurrent i amps held) := of_none rfl
theorem smbusReadIdentity : Statement (.smbusReadIdentity) := of_none rfl
theorem smbusReadStatus : Statement (.smbusReadStatus) := of_none rfl
theorem smbusResetArm (v : Nat) : Statement (.smbusResetArm v) := of_none rfl
theorem smbusResetArmExpiry : Statement (.smbusResetArmExpiry) := of_none rfl
theorem smbusResetConfirm (v : Nat) : Statement (.smbusResetConfirm v) := of_none rfl
theorem smbusSetIpv4 (v : List Byte) : Statement (.smbusSetIpv4 v) := of_none rfl
theorem smbusWriteSbCfg (v : Nat) : Statement (.smbusWriteSbCfg v) := of_none rfl
theorem smbusAlertResponse (sa1 sa0 : Bool) : Statement (.smbusAlertResponse sa1 sa0) := of_none rfl
theorem smbusLogIndices : Statement (.smbusLogIndices) := of_none rfl
theorem smbusLogSelect (v : Nat) : Statement (.smbusLogSelect v) := of_none rfl
theorem smbusLogReadLow : Statement (.smbusLogReadLow) := of_none rfl
theorem smbusLogReadHigh : Statement (.smbusLogReadHigh) := of_none rfl
theorem inputLost (i v : Nat) : Statement (.inputLost i v) := of_none rfl
theorem transitSupplyLoss (region : Nat) : Statement (.transitSupplyLoss region) := of_none rfl
theorem aux12vChange (present : Bool) : Statement (.aux12vChange present) := of_none rfl
theorem linkAckSend (n : Nat) : Statement (.linkAckSend n) := of_none rfl
theorem linkNarrowingComplete (n : Nat) : Statement (.linkNarrowingComplete n) := of_none rfl
theorem mgmtPortLinkUp : Statement (.mgmtPortLinkUp) := of_none rfl

end Sys2Proof.Laws.F
end

