-- ==== Sys2Proof/Laws/Ripener.lean ====
section
/-! SUPPORT. What the update of a parcel answers when nothing stops it, its slot reads, a spare slot is taken and every new element is finite. -/

namespace Sys2Proof.Machine

/-- Nothing stops it. -/
theorem unlessStopped_none (sc c parcel step attempt : Nat) (go : State → State) (s : State) : unlessStopped sc c parcel step attempt none go s = go s := rfl
/-- Something stops it: a state error. -/
theorem unlessStopped_some (sc c parcel step attempt : Nat) (r : PartErr) (go : State → State) (s : State) :
    unlessStopped sc c parcel step attempt (some r) go s = s.stateError sc c parcel step attempt r := rfl
/-- The update is stored (R258, R263). -/
theorem ripen_stored (sc c parcel step attempt : Nat) (e : PEnt) (o : Owner) (s s1 s2 : State) (bs : List (List Byte)) (n : Nat)
    (h1 : s.updateStops c e step ((s.ctx c).commits.get {} parcel).slot = none)
    (h2 : s.readParts c (wantParts e (grBf ((s.ctx c).groupOf e)) ((s.ctx c).hyper e step).rule ((s.ctx c).commits.get {} parcel).slot) = (s1, .ok bs))
    (h3 : s1.takeSlot c parcel e = some (s2, n)) (h4 : (newElems (s.ctx c) e step o bs).2 = none) :
    ripen sc c parcel step attempt e o s =
      storeUpdate c parcel step attempt e o n (newElems (s.ctx c) e step o bs).1 (s.ctx c)
        (s2.onSc sc (fun k => { k with rpFl := k.rpFl.or (ripenFlags (s.ctx c) e step o bs) })) := by
  unfold ripen
  dsimp only
  rw [h1, unlessStopped_none, h2]
  dsimp only [afterRead]
  rw [h3]
  dsimp only
  rw [h4]
end Sys2Proof.Machine
end

