-- ==== Sys2Proof/Tests/Slice0.lean ====
section
/-! SUPPORT. The row's own tests: an ill-formed term for each check of the operands, which the check refuses; a witness for the hypotheses of
each statement; and small tests of one step whose expected result is the spec's. -/

set_option Elab.async false

namespace Sys2Proof.Tests

open Sys2Proof.Machine

/-- A module in service: wafer powered, ready, host link up; region 3 and its compute serve context 5, which is open. -/
def up : State :=
  { State.reset with
    regions := [(3, { ctx := 5, cd := .on })]
    ctxs := [(0, Ctx.system), (5, { st := .opened })]
    ha := { ready := true, cxl := true, trained := true }
    tr := { wafer := true, boot := .ready } }


/-- A tile of region 3 with both streams issuing. -/
def goTile : Tile := { running := true, sa := { st := .issuing }, se := { st := .issuing } }
/-- A module in service with this tile as number 192. -/
def withTile (t : Tile) : State := { up with tiles := [(192, t)] }
/-- A header for tile 192 that waits on no flag and raises none. -/
def plain (exe : Bool) : IHdr := ⟨192, exe, 7, 1, none, none, 0, [], []⟩
/-- A header that waits on flag 4 and raises flag 5. -/
def flagged (exe : Bool) : IHdr := ⟨192, exe, 7, 1, some 4, some 5, 0, [], []⟩
/-- A tile whose flag 4 is up. -/
def upTile : Tile := { goTile with flags := [(4, 1)] }
/-- An instruction came to its end. -/
def OpRes.isDone : OpRes → Bool
  | .done _ => true
  | _ => false
theorem OpRes.of_isDone {r : OpRes} (h : OpRes.isDone r = true) : ∃ u, r = .done u := by
  cases r with
  | done u => exact ⟨u, rfl⟩
  | left _ _ => cases h
  | fault _ _ => cases h
/-- What the hypotheses of a clause about an instruction ask. -/
def Met (c : Instr) (h : IHdr) (ti : TI) (s : State) : Prop := c.wf = true ∧ c.units = true ∧ offered h ti s = true ∧ calm h s = true
theorem ready_of {c : Instr} {h : IHdr} {ti : TI} {s : State} (e : (c.wf && c.units && offered h ti s && calm h s) = true) (q : cleanPad (tileNow h s) = true)
    (r : canRise h (lowered h (tileNow h s)) = true) : Ready c h ti s := by
  simp only [Bool.and_eq_true] at e; exact ⟨⟨e.1.1.1, e.1.1.2⟩, e.1.2, e.2, q, r⟩
/-- The hypotheses of a clause about an instruction in flight. -/
def Flies (c : Instr) (h : IHdr) (ti : TI) (n : Nat) (s : State) : Prop := ∃ u, Met c h ti s ∧ unitsDone h ti n s u ∧ canRise h u = true
theorem flies_plain {c : Instr} {exe : Bool} {ti : TI} {n : Nat} {s : State} (h1 : Met c (plain exe) ti s)
    (h2 : OpRes.isDone (runOp (n + 1) (flying (plain exe) ti n s).1.quiet (flying (plain exe) ti n s).2) = true) : Flies c (plain exe) ti n s := by
  obtain ⟨u, hu⟩ := OpRes.of_isDone h2
  exact ⟨u, h1, hu, rfl⟩
theorem met_of {c : Instr} {h : IHdr} {ti : TI} {s : State} (e : (c.wf && c.units && offered h ti s && calm h s) = true) : Met c h ti s := by
  simp only [Bool.and_eq_true] at e; exact ⟨e.1.1.1, e.1.1.2, e.1.2, e.2⟩

/-- A module with a message on its way. -/
def withMsg (m : WMsg) : State := { up with waggle := [⟨uidKeeper, uidRc 3, m, 0⟩] }

/-- The running ring of a context, with packets of so many units in it and a completion ring of 128 entries. -/
def ringUp (len : Nat) : Ring := { desc := { w2 := 7#64 }, st := .running, cprod := len }
/-- A module in service whose context `c` is as given, with its ring running and a packet of `len` units in it. -/
def ringing (c len : Nat) (x : Ctx) : State := { up with ctxs := (up.ctxs.set {} c { x with ring := ringUp len }) }
/-- The header of the first packet of a ring: sent by context `c`, for context `ctx`, `len` units long. -/
def hdr (c ctx len : Nat) : Hdr := ⟨.ring c, 0, 0, len, ctx, 0, 9, true⟩
/-- An open context. -/
def opened : Ctx := { st := .opened }
/-- A packet of `len` units on the system ring and on the ring of context 5, which is as given; extent 0 is context 0's, one page, and extent 1
context 5's, one page, both without pages in error. -/
def dataAt (len : Nat) (x : Ctx) : State :=
  (((({ up with
    ctxs := [(0, { Ctx.system with ring := ringUp len }), (5, { x with ring := ringUp len })]
    scs := [(0, { serving := true })] } : State).setExt 0 ⟨0, 0, false, 1, 0⟩).setPage 0 ⟨0, 0, false, 1, 0⟩ 0 (storePage 0 false)).setExt 1 ⟨5, 0, false, 1, 1⟩).setPage
      1 ⟨5, 0, false, 1, 1⟩ 0 (storePage 1 false)
/-- Such a machine whose system ring has no packet waiting. -/
def userAt (len : Nat) (x : Ctx) : State :=
  { dataAt len x with ctxs := [(0, { Ctx.system with ring := ringUp 0 }), (5, { x with ring := ringUp len })] }
/-! Witnesses: the machine as a whole. -/

theorem witness_StepRunsTheFrontCommand : ∃ (c : Instr) (cs : List Instr) (s : State), s.pending = c :: cs :=
  ⟨.inputOverpower, [], { up with pending := [.inputOverpower] }, rfl⟩
theorem witness_EmptyQueueIdles : ∃ s : State, s.pending = [] := ⟨up, rfl⟩
theorem witness_OnlyIllFormedCommandsStop :
    (∃ c : Instr, c.wf = false) ∧ (∃ c : Instr, c.wf = true ∧ c.units = false) ∧ (∃ c : Instr, c.wf = true ∧ c.units = true) :=
  ⟨⟨.boundarySlip 0 1 4096, rfl⟩, ⟨.boundarySlip 0 80 0, rfl, rfl⟩, ⟨.boundarySlip 0 79 4095, rfl, rfl⟩⟩
theorem witness_GoodQueueNeverStops : ∃ s : State, QueueOk s ∧ s.pending ≠ [] :=
  ⟨{ up with pending := [.boundarySlip 0 79 4095] }, by intro c hc; simp only [List.mem_singleton] at hc; subst hc; exact ⟨rfl, rfl⟩, by simp⟩
theorem witness_StepKeepsClockSetting : ∃ s t : State, ClockOk s ∧ step s = .next t :=
  ⟨up, up, ⟨by decide, by decide, by intro o ho; cases ho⟩, rfl⟩
theorem witness_OnlyBoundariesAndBootsMoveTheBeat : ∃ (c : Instr) (s t : State), exec c s = .next t := ⟨.beatInLost, up, up, rfl⟩
theorem witness_IdentityAndOfficersAreKept : ∃ (c : Instr) (s t : State), exec c s = .next t := ⟨.beatInLost, up, up, rfl⟩

/-! Witnesses and tests: chapter 1. -/

theorem witness_BeatCommandsComplete :
    (∃ region cluster, ∃ s : State, region < 80 ∧ cluster < 4 ∧ s.clk.cycle = 0 ∧ s.stillCluster region cluster = true) ∧
    (∃ rx tx cyc d, ∃ s : State, rx < 80 ∧ tx < 80 ∧ cyc < 4096 ∧ facing rx tx = some d ∧
      (∀ f ∈ s.fly, ¬(f.port = d ∧ f.dst / 64 = rx ∧ ∃ n, tileNext f.dst d = some n ∧ n / 64 = tx))) ∧
    (∃ m beat cyc p, ∃ s u : State, 64 ≤ m ∧ m ≤ 192 ∧ cyc < 4096 ∧ (s.at cyc).take (fun p => p.msg = .stretch m beat) = some (p, u)) ∧
    (∃ ctx src cyc p w, ∃ s u : State, ctx < 1024 ∧ cyc < 4096 ∧ (s.lead ctx).isSome = true ∧ w ≠ HoldWhy.plan ∧
      (s.at cyc).take (WPkt.isHold ctx src) = some (p, u) ∧ p.holdWhy = w ∧ (u.ctx ctx).part.holds.any (fun h => h.src = src && h.why = w) = false) ∧
    (∃ ctx r, ∃ s : State, ctx < 1024 ∧ s.lead ctx = some r ∧ (s.ctx ctx).part.next = none ∧ (s.region r).rcFenced = false) ∧
    (∃ ctx r, ∃ s : State, ctx < 1024 ∧ s.lead ctx = some r ∧ (s.ctx ctx).part.held = true ∧ (s.ctx ctx).part.limit < (s.ctx ctx).part.heldBeats ∧
      (s.ctx ctx).part.timedOut = false ∧ (s.ctx ctx).run.any (fun r => r.started && r.ending.isNone) = true) ∧
    (∃ s : State, s.clk.beat % 1024 = 0 ∧ s.clk.mode.cable = false ∧ ∀ a ∈ s.clk.anchors, a.beat ≠ s.clk.beat) ∧
    (∃ s : State, s.clk.mode.cable = true ∧ s.clk.mode.master = false ∧ s.clk.inLost = false) :=
  ⟨⟨79, 3, up, by decide⟩, ⟨79, 78, 4095, 3, up, by decide, by decide, by decide, by decide, by intro f hf; cases hf⟩,
   ⟨192, 7, 4095, _, withMsg (.stretch 192 7), _, by decide, by decide, by decide, rfl⟩,
   ⟨5, 9, 0x9FF, _, _, withMsg (.hold 5 9 .fence), _, by decide, by decide, by decide, by decide, rfl, rfl, by decide⟩,
   ⟨5, 3, up, by decide, by decide, by decide, by decide⟩,
   ⟨5, 3, { up with ctxs := [(5, { st := .opened, part := { held := true, heldBeats := 65537 }, run := some { kind := .plain, handle := 1, long := 0, cmdTag := 0, started := true } })] },
     by decide, by decide, by decide, by decide, by decide, by decide⟩,
   ⟨up, by decide, by decide, by intro a ha; cases ha⟩,
   ⟨{ up with clk := { mode := { cable := true } } }, by decide, by decide, by decide⟩⟩
theorem witness_BoundaryBeginsTheNextBeat :
    (∃ s : State, s.tr.wafer = true ∧ (s.dueStretch (s.clk.beat + 1)).isSome = true) ∧
    (∃ s : State, s.tr.wafer = true ∧ (s.dueStretch (s.clk.beat + 1)).isSome = false) ∧ (∃ s : State, s.tr.wafer = false) :=
  ⟨⟨{ up with clk := { stretch := [(96, 1)] } }, by decide⟩, ⟨up, by decide⟩, ⟨State.reset, by decide⟩⟩
theorem witness_TilesTakeGoodSitesFromTheNorth :
    (∃ (bad : List Nat) (k col : Nat), k < 4 ∧ col < 4 ∧ ∀ r, r < 5 → 20 * k + 4 * r + col ∉ bad) ∧
    (∃ (bad : List Nat) (k col d : Nat), k < 4 ∧ col < 4 ∧ d < 5 ∧ 20 * k + 4 * d + col ∈ bad ∧ ∀ r, r < 5 → r ≠ d → 20 * k + 4 * r + col ∉ bad) :=
  ⟨⟨[], 3, 3, by decide⟩, ⟨[79], 3, 3, 4, by decide⟩⟩
/-- R11's worked example: cluster 2 with sites 9 and 13 bad leaves tile 1 without a site. -/
theorem test_siteOf_twoDefects : (List.range 16).map (siteOf [49, 53] 2) =
    [some 4, none, some 6, some 7, some 8, some 1, some 10, some 11, some 12, some 5, some 14, some 15, some 16, some 17, some 18, some 19] := by decide


/-! Witnesses and tests: chapters 2 to 5. -/

theorem witness_RegisterInstructionsComplete :
    (∃ h cyc s, Met (.nop h cyc) h (.nop cyc) s ∧ canRise h (lowered h (tileNow h s)) = true) ∧
    (∃ h off s, Met (.wcy h off) h (.wcy off) s ∧ canRise h (lowered h (tileNow h s)) = true) ∧
    (∃ h f s, Met (.loop h f) h (.loop f) s ∧ canRise h (lowered h (tileNow h s)) = true) ∧
    (∃ h r s, Met (.call h r) h (.call r) s ∧ canRise h (lowered h (tileNow h s)) = true) ∧
    (∃ h s, Met (.ret h) h .ret s ∧ canRise h (lowered h (tileNow h s)) = true) ∧
    (∃ h s, Met (.swp h) h .swp s) ∧
    (∃ h s, Met (.endI h) h .endI s ∧ canRise h (lowered h (tileNow h s)) = true) ∧
    (∃ h f s, Met (.ags h f) h (.ags f) s ∧ canRise h (lowered h (tileNow h s)) = true) ∧
    (∃ h f s, Met (.agi h f) h (.agi f) s ∧ canRise h (lowered h (tileNow h s)) = true) ∧
    (∃ h r v s, Met (.swr h r v) h (.swr r v) s ∧ canRise h (lowered h (tileNow h s)) = true) ∧
    (∃ h g b s, Met (.mcf h g b) h (.mcf g b) s ∧ canRise h (lowered h (tileNow h s)) = true) ∧
    (∃ h f s, Met (.vsl h f) h (.vsl f) s ∧ canRise h (lowered h (tileNow h s)) = true) ∧
    (∃ h m s, Met (.vsm h m) h (.vsm m) s ∧ canRise h (lowered h (tileNow h s)) = true) :=
  ⟨⟨flagged false, 9, withTile upTile, met_of (by decide), by decide⟩, ⟨flagged true, 3, withTile upTile, met_of (by decide), by decide⟩,
   ⟨flagged true, ⟨5, 3, 0, 0, false, 4⟩, withTile upTile, met_of (by decide), by decide⟩, ⟨flagged false, 31, withTile upTile, met_of (by decide), by decide⟩,
   ⟨flagged false, withTile { upTile with sa := { upTile.sa with calls := [⟨9, 1⟩] } }, met_of (by decide), by decide⟩,
   ⟨flagged true, withTile upTile, met_of (by decide)⟩, ⟨flagged true, withTile upTile, met_of (by decide), by decide⟩,
   ⟨flagged true, ⟨3, 64, -32, 4, 0, false, 0⟩, withTile upTile, met_of (by decide), by decide⟩,
   ⟨flagged true, ⟨3, 3, 3, 1, -2, 3⟩, withTile upTile, met_of (by decide), by decide⟩,
   ⟨flagged true, 0x11, 7, withTile upTile, met_of (by decide), by decide⟩, ⟨flagged true, 2, true, withTile upTile, met_of (by decide), by decide⟩,
   ⟨flagged true, ⟨64, 0, 0, false⟩, withTile upTile, met_of (by decide), by decide⟩, ⟨flagged true, 5, withTile upTile, met_of (by decide), by decide⟩⟩

theorem witness_FlyingInstructionsComplete_matrix :
    (∃ h f s, Flies (.mld h f) h (.mld f) (f.rows + (if f.scl then 2 else 0)) s) ∧
    (∃ h s, Met (.msw h) h .msw s ∧ canRise h (lowered h (tileNow h s)) = true) ∧
    (∃ h f x s, Flies (.mst h f x) h (.mst f x) f.rows s) ∧
    (∃ h f s, Flies (.mdr h f) h (.mdr f) f.rows s) ∧
    (∃ h k pb ag w s, Flies (.cvl h k pb ag w) h (.cvl k pb ag w) (if pb then 17 else 1) s) :=
  ⟨⟨plain true, ⟨0, 1, 0, 0, false, true, false⟩, withTile goTile, flies_plain (met_of (by decide)) (by decide +kernel)⟩,
   ⟨flagged true, withTile upTile, met_of (by decide), by decide⟩,
   ⟨plain true, ⟨0, 0, 1, 0, 0, 0, false, false, 0, 0⟩, none, withTile { goTile with set0 := { fmt := 0 } }, flies_plain (met_of (by decide)) (by decide +kernel)⟩,
   ⟨plain true, ⟨0, 1, false, false, 0, 0⟩, withTile goTile, flies_plain (met_of (by decide)) (by decide +kernel)⟩,
   ⟨plain true, 0, true, 0, 0, withTile goTile, flies_plain (met_of (by decide)) (by decide +kernel)⟩⟩
theorem witness_FlyingInstructionsComplete_vector :
    (∃ h k ag s, Flies (.vcl h k ag) h (.vcl k ag) 4 s) ∧
    (∃ h k o s, chNstg ((tileNow h s).chain.get 0 k) ≠ 0 ∧ Flies (.vrn h k o) h (.vrn k o) (((tileNow h s).vcLen + 63) / 64) s) ∧
    (∃ h b n ag s, Flies (.vrs h b n ag) h (.vrs b n ag) ((n + 7) / 8) s) ∧
    (∃ h b n ag s, Flies (.vrl h b n ag) h (.vrl b n ag) ((n + 7) / 8) s) ∧
    (∃ h r ag s, Flies (.srd h r ag) h (.srd r ag) 1 s) :=
  ⟨⟨plain true, 0, 0, withTile { goTile with mem := [(7, 0x10), (15, 0x20)] }, flies_plain (met_of (by decide)) (by decide +kernel)⟩,
   ⟨plain true, 3, false, withTile { goTile with vcLen := 65, chain := [(3, 2 ^ 60 + 2 ^ 125)] }, by decide, flies_plain (met_of (by decide)) (by decide +kernel)⟩,
   ⟨plain true, 3, 64, 0, withTile goTile, flies_plain (met_of (by decide)) (by decide +kernel)⟩,
   ⟨plain true, 3, 64, 0, withTile goTile, flies_plain (met_of (by decide)) (by decide +kernel)⟩,
   ⟨plain false, 0, 0, withTile goTile, flies_plain (met_of (by decide)) (by decide +kernel)⟩⟩
theorem witness_FlyingInstructionsComplete_transfer :
    (∃ h ch ag n s, Flies (.get h ch ag n) h (.get ch ag n) n s) ∧
    (∃ h ch ag n s, Flies (.put h ch ag n) h (.put ch ag n) n s) ∧
    (∃ h f s, Flies (.gth h f) h (.gth f) (f.count * f.roww) s) ∧
    (∃ h f s, Flies (.sct h f) h (.sct f) (f.count * f.roww) s) ∧
    (∃ h ch off n fin s, Flies (.pgl h ch off n fin) h (.pgl ch off n fin) n s) :=
  ⟨⟨plain false, 7, 0, 1, withTile { goTile with ic := [(7, [5])] }, flies_plain (met_of (by decide)) (by decide +kernel)⟩,
   ⟨plain false, 7, 0, 1, withTile goTile, flies_plain (met_of (by decide)) (by decide +kernel)⟩,
   ⟨plain false, ⟨0, 1, none, 2, 1, 1, false, 1⟩, withTile goTile, flies_plain (met_of (by decide)) (by decide +kernel)⟩,
   ⟨plain false, ⟨0, none, 1, 2, 1, 1, false, 1⟩, withTile goTile, flies_plain (met_of (by decide)) (by decide +kernel)⟩,
   ⟨plain false, 7, 0, 1, true, withTile { goTile with ic := [(7, [5])] }, flies_plain (met_of (by decide)) (by decide +kernel)⟩⟩

theorem witness_MatrixInstructionsLand :
    (∃ h f s, Ready (.mld h f) h (.mld f) s ∧
      rowsThere (tileNow h s) (genNow h f.src s) (f.rows + (if f.scl then 2 else 0)) (fun u => if u < f.rows then fmtBytes f.sfmt 64 else 64) = true) ∧
    (∃ h s, Ready (.msw h) h .msw s) ∧
    (∃ h f x s, Ready (.mst h f x) h (.mst f x) s ∧ f.mode < 2 ∧ fmtGroup (mstEnter f 0 (tileNow h s)).active.fmt = fmtGroup f.afmt ∧
      fmtGroup f.afmt ≠ none ∧ (tileNow h s).accBad = [] ∧
      rowsThere (tileNow h s) (genNow h f.src s) f.rows (fun _ => fmtBytes f.afmt (mstWidth (tileNow h s).gang)) = true ∧
      (f.afmt = 6 ∨ f.afmt = 7 → packThere (tileNow h s) (genNow h f.ssrc s) (f.rows * (mstWidth (tileNow h s).gang / 32)) 1 = true) ∧
      (∀ i < f.rows, Refl.fail ∉ mstChecks (mstEnter f 0 (tileNow h s)).active f (tileNow h s).gang x i
        ((tileNow h s).mem.rdBytes ((genNow h f.src s).rowAddr i).toNat (fmtBytes f.afmt (mstWidth (tileNow h s).gang)))
        (if f.afmt = 6 ∨ f.afmt = 7 then scalesAt (tileNow h s) (genNow h f.ssrc s) (i * (mstWidth (tileNow h s).gang / 32)) (mstWidth (tileNow h s).gang / 32) else []))) ∧
    (∃ h f s, Ready (.mdr h f) h (.mdr f) s ∧ (tileNow h s).accBad = [] ∧
      convThere (tileNow h s) (genNow h f.dst s) (genNow h (bits ((tileNow h s).cv f.cvt) 53 52) s) (genNow h (bits ((tileNow h s).cv f.cvt) 51 50) s) f.cvt f.rows = true) ∧
    (∃ h k pb ag w s, Ready (.cvl h k pb ag w) h (.cvl k pb ag w) s ∧ (pb = true → wordsThere (tileNow h s) (genNow h ag s) 17 = true)) :=
  ⟨⟨flagged true, ⟨0, 1, 0, 0, false, true, false⟩, withTile upTile, ready_of (by decide) (by decide) (by decide), by decide⟩,
   ⟨flagged true, withTile upTile, ready_of (by decide) (by decide) (by decide)⟩,
   ⟨flagged true, ⟨0, 0, 1, 0, 0, 0, false, false, 0, 0⟩, none, withTile { upTile with set0 := { fmt := 0 } }, ready_of (by decide) (by decide) (by decide), by decide, by decide,
     by decide, by decide, by decide, by decide, by
      intro i hi
      obtain rfl : i = 0 := Nat.lt_one_iff.mp hi
      decide +kernel⟩,
   ⟨flagged true, ⟨0, 1, false, false, 0, 0⟩, withTile upTile, ready_of (by decide) (by decide) (by decide), by decide, by decide⟩,
   ⟨flagged true, 0, true, 0, 0, withTile upTile, ready_of (by decide) (by decide) (by decide), by decide⟩⟩
theorem witness_VectorInstructionsLand :
    (∃ h k ag s, Ready (.vcl h k ag) h (.vcl k ag) s ∧ wordsThere (tileNow h s) (genNow h ag s) 4 = true ∧ chainValid (chainRead (tileNow h s) (genNow h ag s)) = true) ∧
    (∃ h k ovl s, Ready (.vrn h k ovl) h (.vrn k ovl) s ∧ chNstg ((tileNow h s).chain.get 0 k) ≠ 0 ∧
      stagesThere (tileNow h s) (fun a => genNow h a s) (tileNow h s).vcLen none (chStages ((tileNow h s).chain.get 0 k)) = true) ∧
    (∃ h b n ag s, Ready (.vrs h b n ag) h (.vrs b n ag) s ∧ wordsThere (tileNow h s) (genNow h ag s) ((n + 7) / 8) = true) ∧
    (∃ h b n ag s, Ready (.vrl h b n ag) h (.vrl b n ag) s ∧ wordsThere (tileNow h s) (genNow h ag s) ((n + 7) / 8) = true) :=
  ⟨⟨flagged true, 0, 0, withTile { upTile with mem := [(7, 0x10), (15, 0x20)] }, ready_of (by decide) (by decide) (by decide), by decide, by decide +kernel⟩,
   ⟨flagged true, 3, false, withTile { upTile with vcLen := 65, chain := [(3, 2 ^ 60 + 2 ^ 125)] }, ready_of (by decide) (by decide) (by decide), by decide, by decide +kernel⟩,
   ⟨flagged true, 3, 64, 0, withTile upTile, ready_of (by decide) (by decide) (by decide), by decide⟩,
   ⟨flagged true, 3, 64, 0, withTile upTile, ready_of (by decide) (by decide) (by decide), by decide⟩⟩
theorem witness_TransfersLand :
    (∃ h r ag s, Ready (.srd h r ag) h (.srd r ag) s ∧ rowThere (tileNow h s) (genNow h ag s).start 32 = true) ∧
    (∃ h ch ag n s, Ready (.get h ch ag n) h (.get ch ag n) s ∧ rowsThere (tileNow h s) (genNow h ag s) n (fun _ => 64) = true ∧
      n ≤ ((tileNow h s).ic.get [] ch).length) ∧
    (∃ h ch ag n s, Ready (.put h ch ag n) h (.put ch ag n) s ∧ rowsThere (tileNow h s) (genNow h ag s) n (fun _ => 64) = true ∧
      ((tileNow h s).oc.get [] ch).length + n ≤ 16) ∧
    (∃ h f s, Ready (.gth h f) h (.gth f) s ∧ packThere (tileNow h s) (genNow h f.iag s) f.count (if f.iw32 then 4 else 2) = true ∧
      (∀ n < f.count, indexedThere (tileNow h s) (genNow h f.iag s) (genNow h f.sag s) f.iw32 f.limit f.roww n = true) ∧
      (∀ ch, f.chan = some ch → ((tileNow h s).oc.get [] ch).length + f.count * f.roww / 2 ≤ 16) ∧
      (f.chan = none → f.count = 1 ∧ (genNow h f.dag s).qm = false ∧ rowThere (tileNow h s) ((genNow h f.dag s).rowAddr 0) (32 * f.roww) = true)) ∧
    (∃ h f s, Ready (.sct h f) h (.sct f) s ∧ f.count = 1 ∧ packThere (tileNow h s) (genNow h f.iag s) 1 (if f.iw32 then 4 else 2) = true ∧
      indexedThere (tileNow h s) (genNow h f.iag s) (genNow h f.dag s) f.iw32 f.limit f.roww 0 = true ∧
      (∀ ch, f.chan = some ch → f.roww ≤ 2 * ((tileNow h s).ic.get [] ch).length) ∧
      (f.chan = none → (genNow h f.sag s).qm = false ∧ rowThere (tileNow h s) ((genNow h f.sag s).rowAddr 0) (32 * f.roww) = true)) ∧
    (∃ h ch off n fin s, Ready (.pgl h ch off n fin) h (.pgl ch off n fin) s ∧ n ≤ ((tileNow h s).ic.get [] ch).length) :=
  ⟨⟨flagged false, 0, 0, withTile upTile, ready_of (by decide) (by decide) (by decide), by decide⟩,
   ⟨flagged false, 7, 0, 1, withTile { upTile with ic := [(7, [5])] }, ready_of (by decide) (by decide) (by decide), by decide, by decide⟩,
   ⟨flagged false, 7, 0, 16, withTile upTile, ready_of (by decide) (by decide) (by decide), by decide, by decide⟩,
   ⟨flagged false, ⟨0, 1, some 7, 2, 16, 2, false, 1⟩, withTile upTile, ready_of (by decide) (by decide) (by decide), by decide, by decide, by
      intro ch e; injection e with e; subst e; decide, by decide⟩,
   ⟨flagged false, ⟨0, some 7, 1, 2, 1, 2, false, 1⟩, withTile { upTile with ic := [(7, [5])] }, ready_of (by decide) (by decide) (by decide), by decide, by decide, by decide, by
      intro ch e; injection e with e; subst e; decide, by decide⟩,
   ⟨flagged false, 7, 1023, 1, true, withTile { upTile with ic := [(7, [5])] }, ready_of (by decide) (by decide) (by decide), by decide⟩⟩


/-! Witnesses: chapters 5 to 7 and 13. -/

/-- A tile at SWP in both streams whose pending bank holds page 1 of 2: END at slots 2 and 3. -/
def swapTile (page : Nat) : Tile :=
  { goTile with
    sa := { st := .atSwp, swpSet := some 2 }, se := { st := .atSwp, swpSet := some 2 }, pend := true, pages := 2
    bank := [(4096, page * 2 ^ 64 + 2 * 2 ^ 48 + 2 * 2 ^ 36 + 2 ^ 24 + 3 * 2 ^ 12 + 1), (4098, 6 * 2 ^ 120), (4099, 6 * 2 ^ 120)] }
/-- A tile whose streams have issued nothing for 2000 beats. -/
def idleTile : Tile := { goTile with swapLimit := 9, stallLimit := 9, swpBeats := some 10, sa := { st := .waiting, wait := .flag, idleBeats := 9, stuckLast := true }, se := { st := .atSwp, idleBeats := 9, stuckLast := true } }
/-- A tile at END in both streams, the last of its plan or not. -/
def endTile : Tile := { sa := { st := .atEnd }, se := { st := .atEnd }, running := true }
/-- A run of context 5. -/
def runOf5 (k : RunKind) : Run := { kind := k, handle := 1, long := 0, cmdTag := 0, started := true, seed := 3 }
/-- A module whose tile 192 waits for a start order. -/
def starting (r : Option Run) : State :=
  { withTile { planOk := true } with waggle := [⟨uidRc 3, uidTile 192 0, .planStart 192 0 0 0, 0⟩], ctxs := [(0, Ctx.system), (5, { st := .opened, run := r })] }
theorem witness_TileEventsComplete_swap :
    (∃ tile, ∃ s : State, ∃ t, Fits (.pageSwap tile) ∧ s.clk.cycle = 0 ∧ s.beatRuns tile = true ∧ (s.tile tile).enter s.now = t ∧ t.atSwap = true ∧
      (t.hdr t.pendb).planId = t.planId ∧ (t.hdr t.pendb).page = t.page + 1 ∧ hdrOk (t.slot t.pendb) = true ∧
      flagRoom t.sa.swpSet (t.activate t.pendb s.now) = true ∧ flagRoom t.se.swpSet (raisedFlag t.sa.swpSet (t.activate t.pendb s.now)) = true) ∧
    (∃ tile, ∃ s : State, ∃ t, Fits (.pageSwap tile) ∧ s.clk.cycle = 0 ∧ s.beatRuns tile = true ∧ (s.tile tile).enter s.now = t ∧ t.atSwap = true ∧
      (t.hdr t.pendb).page ≠ t.page + 1) ∧
    (∃ tile, ∃ s : State, Fits (.pageSwap tile) ∧ s.clk.cycle ≠ 0) :=
  ⟨⟨192, withTile (swapTile 1), _, by decide, rfl, by decide, rfl, by decide, by decide, by decide, by decide, by decide, by decide⟩,
   ⟨192, withTile (swapTile 2), _, by decide, rfl, by decide, rfl, by decide, by decide⟩, ⟨192, (withTile (swapTile 1)).at 1, by decide, by decide⟩⟩
theorem witness_TileEventsComplete_watch :
    (∃ tile cyc n, ∃ s : State, Fits (.swapTimeout tile cyc) ∧ s.beatRuns tile = true ∧ (s.tile tile).swpBeats = some n ∧ (s.tile tile).swapLimit < n) ∧
    (∃ tile, ∃ s : State, Fits (.crossWait tile) ∧ s.clk.cycle = 0 ∧ s.beatRuns tile = true ∧ (s.tile tile).sa.idleBeats ≠ 0 ∧ (s.tile tile).se.idleBeats ≠ 0 ∧
      (s.tile tile).sa.stuckLast = true ∧ (s.tile tile).se.stuckLast = true ∧ ((s.tile tile).sa.onFlagOrQueue = true ∨ (s.tile tile).se.onFlagOrQueue = true) ∧
      (∀ o ∈ (s.tile tile).sa.ops ++ (s.tile tile).se.ops, o.blocked = true)) ∧
    (∃ tile, ∃ (exe : Bool) (cyc : Nat), ∃ s : State, Fits (.streamStall tile exe cyc) ∧ s.beatRuns tile = true ∧
      (((s.tile tile).stream exe).st = .issuing ∨ ((s.tile tile).stream exe).st = .waiting) ∧ (s.tile tile).stallLimit ≤ ((s.tile tile).stream exe).idleBeats) :=
  ⟨⟨192, 4095, 10, withTile idleTile, by decide, by decide, rfl, by decide⟩,
   ⟨192, withTile idleTile, by decide, rfl, by decide, by decide, by decide, by decide, by decide, by decide, by intro o ho; cases ho⟩,
   ⟨192, false, 4095, withTile idleTile, by decide, by decide, by decide, by decide⟩⟩
theorem witness_TileEventsComplete_plan :
    (∃ tile p, ∃ s u : State, Fits (.planStart tile) ∧ s.clk.cycle = 0 ∧ s.take (WPkt.startsTile tile s.clk.beat) = some (p, u) ∧ (u.tile tile).running = false ∧
      (u.tile tile).fenced = false ∧ (u.region (tile / 64)).cd = .on ∧ (u.tile tile).planOk = true ∧ (u.ctx (u.ptag tile)).part.held = false ∧ (u.tile tile).scrubEnd ≤ s.now ∧
      (∀ r, (u.ctx (u.ptag tile)).run = some r → r.kind = .plain)) ∧
    (∃ tile p r, ∃ s u : State, Fits (.planStart tile) ∧ s.clk.cycle = 0 ∧ s.take (WPkt.startsTile tile s.clk.beat) = some (p, u) ∧ (u.tile tile).running = false ∧
      (u.tile tile).fenced = false ∧ (u.region (tile / 64)).cd = .on ∧ (u.tile tile).planOk = true ∧ (u.ctx (u.ptag tile)).part.held = false ∧ (u.tile tile).scrubEnd ≤ s.now ∧
      (u.ctx (u.ptag tile)).run = some r ∧ r.kind ≠ .plain) ∧
    (∃ tile cyc, ∃ s : State, Fits (.planEnd tile cyc) ∧ (s.tile tile).sa.st = .atEnd ∧ (s.tile tile).se.st = .atEnd ∧ (s.tile tile).fenced = false ∧
      tilesLeft (s.ptag tile) (planEnded tile cyc s) = true) ∧
    (∃ tile cyc x, ∃ s : State, Fits (.planEnd tile cyc) ∧ (s.tile tile).sa.st = .atEnd ∧ (s.tile tile).se.st = .atEnd ∧ (s.tile tile).fenced = false ∧
      tilesLeft (s.ptag tile) (planEnded tile cyc s) = false ∧ ((planEnded tile cyc s).ctx (s.ptag tile)).run = some x ∧ x.started = true ∧ x.ending = none) :=
  ⟨⟨192, _, starting (some (runOf5 .plain)), _, by decide, rfl, rfl, by decide, by decide, by decide, by decide, by decide, by decide,
     by intro r hr; have : some (runOf5 .plain) = some r := hr; injection this with h; rw [← h]; rfl⟩,
   ⟨192, _, runOf5 .step, starting (some (runOf5 .step)), _, by decide, rfl, rfl, by decide, by decide, by decide, by decide, by decide, by decide, rfl, by decide⟩,
   ⟨192, 4095, { withTile endTile with tiles := [(192, endTile), (193, goTile)] }, by decide, rfl, rfl, rfl, by decide +kernel⟩,
   ⟨192, 4095, runOf5 .plain, { withTile endTile with ctxs := [(0, Ctx.system), (5, { st := .opened, run := some (runOf5 .plain) })] }, by decide, rfl, rfl, rfl,
     by decide +kernel, rfl, rfl, rfl⟩⟩
theorem witness_TileEventsComplete_errors :
    (∃ tile, ∃ s : State, Fits (.spPatrol tile) ∧ (s.region (tile / 64)).cd = .on ∧ (s.tile tile).fenced = false ∧ (s.ctx (s.ptag tile)).part.held = false ∧
      (∀ w ∈ (s.tile tile).errs.keys, ((s.tile tile).map.place (32 * w)).2 ≠ (s.tile tile).patrol % 8192)) ∧
    (∃ tile bank w, ∃ s : State, Fits (.spCorrectionWriteback tile bank) ∧ (s.ctx (s.ptag tile)).part.held = false ∧
      (s.tile tile).wback.find? (fun w => ((s.tile tile).map.place (32 * w)).1 = bank) = some w) :=
  ⟨⟨192, withTile { goTile with patrol := 8191, errs := [(0, 1)] }, by decide, by decide, by decide, by decide, by decide⟩,
   ⟨192, 0, 0, withTile { goTile with wback := [0], errs := [(0, 1)] }, by decide, by decide, by decide⟩⟩

/-- A module whose router 192 has one entry: from the west to the east, the flit due now. -/
def routing : State :=
  { up with routers := [(192, { routes := [(0, 2 ^ 63 + 3 * 2 ^ 31 + 2 * 2 ^ 23 + 5 * 2 ^ 8)] })]
            regions := [(3, { ctx := 5, cd := .on, orders := [⟨5, 0, true, 0⟩] })]
            fly := [⟨192, 3, 0, 0, { v := true, ptag := 5 }⟩] }
/-- A module whose context 5 changes to a plan without region 3, or to one with region 9 in its place. -/
def switching (target : Nat) : State :=
  { up with ctxs := [(0, Ctx.system), (5, { st := .opened, switch := some ⟨3, target, 0⟩ })], regions := [(3, { ctx := 5, cd := .on }), (9, { st := .standby, cd := .on })] }
theorem witness_MeshCommandsComplete :
    (∃ pos entry cyc o n f, ∃ s u : State, Fits (.routerSlot pos entry cyc) ∧ (s.at cyc).landTile pos = u ∧ bit ((u.router pos).routes.get 0 entry) 63 = true ∧
      reSlot ((u.router pos).routes.get 0 entry) cyc = true ∧ (u.region (pos / 64)).st ≠ .transitLost ∧ reIn ((u.router pos).routes.get 0 entry) < 4 ∧
      reOpm ((u.router pos).routes.get 0 entry) = 0 ∧
      u.schedOn (pos / 64) (rePtag ((u.router pos).routes.get 0 entry)) (reSched ((u.router pos).routes.get 0 entry)) = true ∧
      u.fly.find? (fun f => f.dst = pos && f.port = reIn ((u.router pos).routes.get 0 entry) && f.beat = u.clk.beat && f.cyc = cyc) = some f ∧
      f.flit.v = true ∧ f.flit.spBad = false ∧ f.flit.e0 = 0 ∧ f.flit.e1 = 0 ∧ f.flit.ptag = rePtag ((u.router pos).routes.get 0 entry) ∧
      o < 4 ∧ reOut ((u.router pos).routes.get 0 entry) = 2 ^ o ∧ tileNext pos o = some n) ∧
    (∃ pos entry cyc, ∃ s u : State, Fits (.routerSlot pos entry cyc) ∧ (s.at cyc).landTile pos = u ∧ bit ((u.router pos).routes.get 0 entry) 63 = false) ∧
    (∃ pos entry cyc, ∃ s u : State, Fits (.routerSlot pos entry cyc) ∧ (s.at cyc).landTile pos = u ∧ reSlot ((u.router pos).routes.get 0 entry) cyc = false ∧
      bit ((u.router pos).routes.get 0 entry) 63 = true) ∧
    (∃ dst ctx cyc p o, ∃ s u : State, Fits (.beatOrder dst ctx cyc) ∧ (s.at cyc).take (WPkt.isOrder dst ctx) = some (p, u) ∧ p.order? = some o) ∧
    (∃ dst, ∃ o : BeatOrd, ∃ u : State, o.beat = u.clk.beat + 1 ∧ uClass dst = 6) ∧ (∃ dst, ∃ o : BeatOrd, ∃ u : State, o.beat = u.clk.beat + 1 ∧ uClass dst = 0x10) ∧
    (∃ o : BeatOrd, ∃ u : State, o.beat ≠ u.clk.beat + 1) ∧
    (∃ r ctx, ∃ s : State, Fits (.beatOrderLost (uidRc r) ctx) ∧ r < 80 ∧ orderAt (s.region r).orders ctx (s.clk.beat + 1) = none ∧ (s.ptagsIn r).contains ctx = true) ∧
    (∃ n ctx, ∃ s : State, Fits (.beatOrderLost (uidSc n) ctx) ∧ n < 24 ∧ orderAt (s.sc n).orders ctx (s.clk.beat + 1) = none) ∧
    (∃ ctx w, ∃ s : State, Fits (.routeSwitch ctx) ∧ (s.ctx ctx).switch = some w ∧ w.beat ≤ s.clk.beat ∧ w.target = noRegion) ∧
    (∃ ctx w, ∃ s : State, Fits (.routeSwitch ctx) ∧ (s.ctx ctx).switch = some w ∧ w.beat ≤ s.clk.beat ∧ w.target ≠ noRegion ∧ (s.region w.target).cd = .on) ∧
    (∃ ctx w, ∃ s : State, Fits (.routeSwitch ctx) ∧ (s.ctx ctx).switch = some w ∧ (s.clk.beat < w.beat ∨ (w.target ≠ noRegion ∧ (s.region w.target).cd ≠ .on))) :=
  ⟨⟨192, 0, 0, 1, 193, _, routing, _, by decide, rfl, by decide, by decide, by decide, by decide, by decide, by decide, rfl, rfl, rfl, rfl, rfl, by decide, by decide, by decide, by decide⟩,
   ⟨192, 1, 0, routing, _, by decide, rfl, by decide⟩, ⟨192, 0, 1, routing, _, by decide, rfl, by decide, by decide⟩,
   ⟨uidRc 3, 5, 4095, _, _, { up with waggle := [⟨uidRc 3, uidRc 3, .order ⟨5, 1, true, 2⟩, 0⟩] }, _, by decide, rfl, rfl⟩,
   ⟨uidRc 3, ⟨5, 1, true, 0⟩, up, by decide, by decide⟩, ⟨uidSc 23, ⟨5, 1, true, 0⟩, up, by decide, by decide⟩, ⟨⟨5, 2, true, 0⟩, up, by decide⟩,
   ⟨3, 5, routing, by decide, by decide, by decide, by decide⟩, ⟨23, 5, routing, by decide, by decide, by decide⟩,
   ⟨5, _, switching noRegion, by decide, rfl, by decide, rfl⟩, ⟨5, _, switching 9, by decide, rfl, by decide, by decide, by decide⟩,
   ⟨5, _, switching 10, by decide, rfl, by decide⟩⟩

/-- A fault report of tile 192 on its way. -/
def reported (cls : Nat) : State := withMsg (.fault ⟨cls, uidTile 192 0, 7, 0, 0, 5, []⟩)
/-- A module whose hub 3 has resent the packet towards hub 4 so often. -/
def resent (n : Nat) : State := { up with hubs := [(3, { resends := [(4, n)] })] }
/-- A map whose bank 23 the Waggle agent owns, and one without such a bank. -/
def agentMap (yes : Bool) : SpMap := { map2 := if yes then 0x0403030301010101#64 else 0x0303030301010101#64 }
theorem witness_WaggleCommandsComplete_net :
    (∃ hub next, ∃ s : State, Fits (.waggleResend hub next) ∧ next < 80 ∧ (facing hub next).isSome = true ∧ (s.hubs.get {} hub).down.contains next = false ∧
      (s.hubs.get {} hub).resends.get 0 next < 3) ∧
    (∃ hub next, ∃ s : State, Fits (.waggleResend hub next) ∧ next < 80 ∧ (facing hub next).isSome = true ∧ (s.hubs.get {} hub).down.contains next = false ∧
      3 ≤ (s.hubs.get {} hub).resends.get 0 next) ∧
    (∃ hub next, ∃ s : State, Fits (.waggleResend hub next) ∧ 80 ≤ next ∧ waggleLink hub next = true ∧ (s.hubs.get {} hub).down.contains next = false ∧
      3 ≤ (s.hubs.get {} hub).resends.get 0 next) ∧
    (∃ dst p, ∃ s u : State, Fits (.fenceOrder dst 1 0) ∧ s.take (WPkt.isFence dst 1 0) = some (p, u) ∧ uClass dst = 1 ∧ uRegion dst < 80) ∧
    (∃ dst ctx p, ∃ s u : State, Fits (.fenceOrder dst 2 ctx) ∧ s.take (WPkt.isFence dst 2 ctx) = some (p, u) ∧ uClass dst = 6 ∧ uRegion dst < 80) ∧
    (∃ dst p, ∃ s u : State, Fits (.fenceOrder dst 3 0) ∧ s.take (WPkt.isFence dst 3 0) = some (p, u) ∧ uClass dst = 6 ∧ uRegion dst < 80) ∧
    (∃ unit cls stamp p r, ∃ s u : State, Fits (.faultReport unit cls stamp) ∧ s.take (WPkt.isFault unit cls stamp) = some (p, u) ∧ p.fault? = some r ∧
      uClass r.unit = 1 ∧ u.unitUnderTest r.unit = false ∧ 5 ≤ reaction r.cls) ∧
    (∃ unit cls stamp p r, ∃ s u : State, Fits (.faultReport unit cls stamp) ∧ s.take (WPkt.isFault unit cls stamp) = some (p, u) ∧ p.fault? = some r ∧
      uClass r.unit = 1 ∧ u.unitUnderTest r.unit = false ∧ u.secondary r = none ∧ reaction r.cls = 1) ∧
    (∃ r unit p w, ∃ s u : State, Fits (.telemetry unit) ∧ r < 80 ∧ unit = uidRc r ∧ s.take (WPkt.isTele unit) = some (p, u) ∧ p.tele? = some (unit, w)) :=
  ⟨⟨3, 4, resent 2, by decide, by decide, by decide, by decide, by decide⟩, ⟨3, 4, resent 3, by decide, by decide, by decide, by decide, by decide⟩,
   ⟨3, 84 + 192, { up with hubs := [(3, { resends := [(84 + 192, 3)] })] }, by decide, by decide, by decide, by decide, by decide⟩,
   ⟨uidTile 192 0, _, { up with waggle := [⟨uidRc 3, uidTile 192 0, .fence 1 (uidTile 192 0) 0, 0⟩] }, _, by decide, rfl, by decide, by decide⟩,
   ⟨uidRc 3, 5, _, withMsg (.fence 2 (uidRc 3) 5), _, by decide, rfl, by decide, by decide⟩,
   ⟨uidRc 3, _, withMsg (.fence 3 (uidRc 3) 0), _, by decide, rfl, by decide, by decide⟩,
   ⟨uidTile 192 0, fcDroopLimit, 7, _, _, reported fcDroopLimit, _, by decide, rfl, rfl, by decide, by decide, by decide⟩,
   ⟨uidTile 192 0, fcReflectMismatch, 7, _, _, reported fcReflectMismatch, _, by decide, rfl, rfl, by decide, by decide, by decide, by decide⟩,
   ⟨79, uidRc 79, _, _, withMsg (.telemetry (uidRc 79) [1]), _, by decide, by decide, rfl, rfl, rfl⟩⟩
theorem witness_WaggleCommandsComplete_agent :
    (∃ tile src addr, ∃ s u : State, Fits (.spRead tile src addr) ∧ s.request src tile = (u, true) ∧ u.tilePowered tile = true ∧ addr % 32 = 0 ∧
      (u.tile tile).map.there addr = true ∧ (u.tile tile).errs.get 0 (addr / 32) = 0) ∧
    (∃ tile src addr word, ∃ s u : State, Fits (.spWrite tile src addr word) ∧ s.request src tile = (u, true) ∧ u.tilePowered tile = true ∧ addr % 32 = 0 ∧
      (u.tile tile).map.there addr = true) ∧
    (∃ tile src addr word, ∃ s u : State, Fits (.spRead tile src addr) ∧ Fits (.spWrite tile src addr word) ∧ s.request src tile = (u, true) ∧ u.tilePowered tile = true ∧
      (u.tile tile).map.there addr = false) ∧
    (∃ tile src reg, ∃ s u : State, Fits (.regRead tile src reg) ∧ s.request src tile = (u, true) ∧ u.tilePowered tile = true) ∧
    (∃ tile src reg v, ∃ s u : State, Fits (.regWrite tile src reg v) ∧ s.request src tile = (u, true) ∧ u.tilePowered tile = true ∧ regWritable reg = true) ∧
    (∃ tile src reg v, ∃ s u : State, Fits (.regWrite tile src reg v) ∧ s.request src tile = (u, true) ∧ u.tilePowered tile = true ∧ regWritable reg = false) ∧
    (∃ tile src addr, ∃ s u : State, s.request src tile = (u, false) ∧ Fits (.spRead tile src addr)) ∧
    (∃ tile dst p, ∃ s u : State, Fits (.spReply tile dst) ∧ s.take (WPkt.isReply tile dst true) = some (p, u)) ∧
    (∃ tile dst p, ∃ s u : State, Fits (.regReply tile dst) ∧ s.take (WPkt.isReply tile dst false) = some (p, u)) ∧
    (∃ tile seq words b, ∃ s u : State, Fits (.shortMsg tile seq words) ∧ words ≠ [] ∧ s.request (uidRc (tile / 64)) tile = (u, true) ∧ u.tilePowered tile = true ∧
      (u.tile tile).map.agentBank = some b) ∧
    (∃ tile seq words, ∃ s u : State, Fits (.shortMsg tile seq words) ∧ words ≠ [] ∧ s.request (uidRc (tile / 64)) tile = (u, true) ∧ (u.tile tile).map.agentBank = none) ∧
    (∃ tile seq, Fits (.shortMsg tile seq [])) :=
  ⟨⟨255, uidKeeper, 0x5FFFE0, up, _, by decide, Prod.ext rfl (by decide), by decide, by decide, by decide, by decide⟩,
   ⟨255, uidKeeper, 0x5FFFE0, 5, up, _, by decide, Prod.ext rfl (by decide), by decide, by decide, by decide⟩,
   ⟨255, uidKeeper, 0x600000, 5, up, _, by decide, by decide, Prod.ext rfl (by decide), by decide, by decide⟩,
   ⟨255, uidKeeper, 0, up, _, by decide, Prod.ext rfl (by decide), by decide⟩, ⟨255, uidKeeper, 0x11, 0, up, _, by decide, Prod.ext rfl (by decide), by decide, by decide⟩,
   ⟨255, uidKeeper, 0xFF, 0, up, _, by decide, Prod.ext rfl (by decide), by decide, by decide⟩,
   ⟨255, uidKeeper, 0, { up with hubs := [(3, { down := [84 + 255] })] }, _, Prod.ext rfl (by decide), by decide⟩,
   ⟨255, uidKeeper, _, { up with waggle := [⟨uidAgent 255, uidKeeper, .spReply 1 7, 0⟩] }, _, by decide, rfl⟩,
   ⟨255, uidKeeper, _, { up with waggle := [⟨uidAgent 255, uidKeeper, .regReply 1 7, 0⟩] }, _, by decide, rfl⟩,
   ⟨192, 127, [1], 23, withTile { goTile with map := agentMap true }, _, by decide, by decide, Prod.ext rfl (by decide), by decide, by decide⟩,
   ⟨192, 127, [1], withTile { goTile with map := agentMap false }, _, by decide, by decide, Prod.ext rfl (by decide), by decide⟩, ⟨255, 127, by decide⟩⟩

/-- A lease of the slot 7 of stack controller 2, held by its Ripener for context 5, and a module that grants it. -/
def leaseA : Lease := ⟨uidSc 2, 1, 7, uidRip 2, 5, 8⟩
/-- A module whose table for it holds that lease. -/
def leased : State := { up with regions := (({ up with regions := up.regions } : State).onRegion (leaseHome leaseA) (fun g => { g with leases := [leaseA] })).regions }
theorem witness_LeaseCommandsComplete :
    (∃ l, ∃ s : State, Fits (.leaseGrant l false) ∧ s.leaseAllowed l = true ∧ ∀ x, s.leaseOf l = some x → s.now < x.expiry) ∧
    (∃ l x, ∃ s u : State, Fits (.leaseGrant l false) ∧ s.leaseAllowed l = true ∧ s.leaseOf l = some x ∧ x.expiry ≤ s.now ∧
      (s.leaseEnds x).report ⟨fcLeaseExpired, x.holder, s.now, 0, 0, x.ctx, []⟩ = u) ∧ (∃ l, ∃ s : State, Fits (.leaseGrant l false) ∧ s.leaseAllowed l = false) ∧
    (∃ l p, ∃ s u : State, Fits (.leaseGrant l true) ∧ s.take (WPkt.answers l) = some (p, u)) ∧
    (∃ l x, ∃ s : State, Fits (.leaseRenew l false) ∧ s.leaseOf l = some x ∧ x.holder = l.holder ∧ s.now < x.expiry) ∧
    (∃ l, ∃ s : State, Fits (.leaseRenew l false) ∧ ∀ x, s.leaseOf l = some x → x.holder ≠ l.holder ∨ x.expiry ≤ s.now) ∧
    (∃ l, Fits (.leaseRelease l)) ∧ (∃ l x, ∃ s : State, Fits (.leaseReclaim l) ∧ s.leaseOf l = some x) ∧
    (∃ l x, ∃ s : State, Fits (.leaseExpired l) ∧ s.leaseOf l = some x ∧ x.expiry ≤ s.now) ∧
    (∃ l x, ∃ s : State, Fits (.leaseExpired l) ∧ s.leaseOf l = some x ∧ s.now < x.expiry) :=
  ⟨⟨leaseA, leased, by decide, by decide, by
      intro x hx; have : some leaseA = some x := hx; injection this with h; rw [← h]; decide⟩,
   ⟨leaseA, leaseA, leased.at 8, _, by decide, by decide, by decide, by decide, rfl⟩, ⟨{ leaseA with ctx := 6 }, leased, by decide, by decide⟩,
   ⟨leaseA, _, { up with waggle := [⟨uidRc 3, uidRip 2, .lease leaseA 0 true, 0⟩] }, _, by decide, rfl⟩,
   ⟨leaseA, leaseA, leased, by decide, by decide, rfl, by decide⟩,
   ⟨{ leaseA with holder := uidRip 3 }, leased, by decide, by
      intro x hx; have : some leaseA = some x := hx; injection this with h; left; rw [← h]; decide⟩,
   ⟨leaseA, by decide⟩, ⟨leaseA, leaseA, leased, by decide, by decide⟩,
   ⟨leaseA, leaseA, leased.at 8, by decide, by decide, by decide⟩, ⟨leaseA, leaseA, leased.at 7, by decide, by decide, by decide⟩⟩


/-- A stream descriptor of two flits for port 3 with room for 64: one row of two flits, claims from plan beat 0 to 9, cycle 5 on, one slot. -/
def twoFlits (write : Bool) : Words8 :=
  { w0 := BitVec.ofNat 64 ((if write then 2 ^ 62 else 0) + 2 ^ 32 + 9), w2 := BitVec.ofNat 64 (2 ^ 58 + 2 ^ 42), w3 := BitVec.ofNat 64 (2 ^ 40)
    w4 := BitVec.ofNat 64 (2 ^ 40), w7 := BitVec.ofNat 64 (8 * 2 ^ 52 + 5 * 2 ^ 34) }
/-- Context 5 with a plan under way whose schedule 0 is active. -/
def runCtx : Ctx := { st := .opened, part := { begun := true, planBeat := 3, seq := [100] } }
/-- A module whose stack controller 2 has one stream and executes this beat. -/
def streaming (x : Slot) : State :=
  { up with scs := [(2, { serving := true, slots := [(4, x)], orders := [⟨5, 0, true, 0⟩] })], ctxs := [(0, Ctx.system), (5, runCtx)] }
/-- A flit at the buffer of edge port 27. -/
def atEdge (s : State) : State := { s with fly := [⟨27, 5, 0, 5, { v := true, ptag := 5, w0 := 7 }⟩] }
theorem witness_RimCommandsComplete_grants :
    (∃ sc k n, ∃ s : State, Fits (.regulatorGrant sc) ∧ (s.sc sc).serving = true ∧ s.throttled sc = false ∧ s.grantee sc true = some (k, n) ∧
      s.ztPage sc = none) ∧
    (∃ sc k n, ∃ s : State, Fits (.regulatorGrant sc) ∧ (s.sc sc).serving = true ∧ s.throttled sc = false ∧ s.grantee sc true = some (k, n) ∧
      (s.ztPage sc).isSome = true ∧ s.lowDue sc (k.headD 3) = false) ∧
    (∃ sc p, ∃ s : State, Fits (.regulatorGrant sc) ∧ (s.sc sc).serving = true ∧ s.throttled sc = false ∧ s.ztPage sc = some p ∧ s.grantee sc true = none) ∧
    (∃ sc p k, ∃ s : State, Fits (.regulatorGrant sc) ∧ (s.sc sc).serving = true ∧ s.throttled sc = false ∧ s.ztPage sc = some p ∧
      s.grantee sc true = some k ∧ s.lowDue sc (k.1.headD 3) = true) ∧
    (∃ sc k n, ∃ s : State, Fits (.regulatorGrant sc) ∧ (s.sc sc).serving = true ∧ s.throttled sc = true ∧ s.grantee sc false = some (k, n)) ∧
    (∃ sc, ∃ s : State, Fits (.regulatorGrant sc) ∧ (s.sc sc).serving = true ∧ s.throttled sc = true ∧ s.grantee sc false = none) ∧
    (∃ sc ctx, ∃ s : State, Fits (.streamForecast sc ctx) ∧ ((s.at 0x700).forecast sc ctx).2.2 = false) ∧
    (∃ sc ctx, ∃ s : State, Fits (.streamForecast sc ctx) ∧ ((s.at 0x700).forecast sc ctx).2.2 = true ∧ isUser ctx = true) :=
  let x : Slot := { ctx := 5, desc := { twoFlits false with w0 := BitVec.ofNat 64 (2 ^ 32 + 1) }, st := .running }
  let k : Sc := { serving := true, slots := [(4, x)], orders := [⟨5, 0, true, 0⟩] }
  let zt : Sc := { serving := true, ext := [(0, ExtEnt.word ⟨5, 0, false, 16, 0⟩)], map := [(0, 2 ^ 63 + 2 ^ 60)] }
  let at_ (k : Sc) : State := { up with scs := [(2, k)], ctxs := [(0, Ctx.system), (5, runCtx)] }
  ⟨⟨2, [3, 1, 2 ^ 40, 7, 4], 4, streaming x, by decide +kernel⟩,
   ⟨2, [3, 1, 2 ^ 40, 7, 4], 4, at_ { k with ext := zt.ext, map := zt.map, lowGr := 64 }, by decide +kernel⟩,
   ⟨2, (4096, ⟨5, 0, false, 16, 0⟩, 0), { up with scs := [(2, zt)] }, by decide +kernel⟩,
   ⟨2, (4096, ⟨5, 0, false, 16, 0⟩, 0), ([3, 1, 2 ^ 40, 7, 4], 4), at_ { k with ext := zt.ext, map := zt.map }, by decide +kernel⟩,
   ⟨2, [3, 1, 2 ^ 40, 7, 4], 4, { up with
     scs := [(0, { ext := [(0, ExtEnt.word ⟨5, 0, false, 16, 0⟩)], map := [(0, 2 ^ 63 + 2 ^ 62 + 2 ^ 61)] }), (2, { k with limit := 2 })]
     ctxs := [(0, Ctx.system), (5, runCtx)] }, by decide +kernel⟩,
   ⟨2, at_ { k with limit := 2 }, by decide +kernel⟩,
   ⟨2, 5, streaming { ctx := 5, desc := twoFlits false, st := .running, buf := [1, 2], pos := 2 }, by decide +kernel⟩,
   ⟨2, 5, streaming { ctx := 5, desc := twoFlits false, st := .haltErr }, by decide +kernel⟩⟩
theorem witness_RimCommandsComplete_slots :
    (∃ sc port cyc n x d ds, ∃ s : State, Fits (.edgePortSlot sc port cyc false) ∧ (s.sc sc).serving = true ∧ (s.at cyc).slotClaim sc port cyc false = some (n, x) ∧
      (portsOf (sdPorts x.desc)).head? = some port ∧ x.done < sdTotal x.desc ∧ x.buf = d :: ds) ∧
    (∃ sc port cyc n x, ∃ s : State, Fits (.edgePortSlot sc port cyc false) ∧ (s.sc sc).serving = true ∧ (s.at cyc).slotClaim sc port cyc false = some (n, x) ∧
      (portsOf (sdPorts x.desc)).head? = some port ∧ x.done < sdTotal x.desc ∧ x.buf = []) ∧
    (∃ sc port cyc n x f, ∃ s : State, Fits (.edgePortSlot sc port cyc true) ∧ (s.sc sc).serving = true ∧
      (s.at cyc).portsBefore sc port cyc = [] ∧
      s.fly.find? (fun f => f.port = 5 && f.dst = 12 * sc + port && f.beat = s.clk.beat && f.cyc = cyc) = some f ∧ f.flit.unreadable = false ∧
      ({ s.at cyc with fly := s.fly.erase f } : State).slotClaim sc port cyc true = some (n, x) ∧ x.buf.length < sdRoom x.desc ∧ x.pos + x.buf.length < sdTotal x.desc) ∧
    (∃ sc port cyc f, ∃ s : State, Fits (.edgePortSlot sc port cyc true) ∧ (s.sc sc).serving = true ∧
      (s.at cyc).portsBefore sc port cyc = [] ∧
      s.fly.find? (fun f => f.port = 5 && f.dst = 12 * sc + port && f.beat = s.clk.beat && f.cyc = cyc) = some f ∧ f.flit.unreadable = false ∧
      ({ s.at cyc with fly := s.fly.erase f } : State).slotClaim sc port cyc true = none ∧
      ({ s.at cyc with fly := s.fly.erase f } : State).redClaim sc port cyc = none) ∧
    (∃ sc port cyc f, ∃ s : State, Fits (.edgePortSlot sc port cyc true) ∧ (s.sc sc).serving = true ∧ (s.at cyc).portsBefore sc port cyc = [] ∧
      s.fly.find? (fun f => f.port = 5 && f.dst = 12 * sc + port && f.beat = s.clk.beat && f.cyc = cyc) = some f ∧ f.flit.unreadable = true) :=
  ⟨⟨2, 3, 5, 4, { ctx := 5, desc := twoFlits false, st := .running, buf := [7, 8], pos := 2 }, 7, [8],
     streaming { ctx := 5, desc := twoFlits false, st := .running, buf := [7, 8], pos := 2 }, by decide +kernel⟩,
   ⟨2, 3, 5, 4, { ctx := 5, desc := twoFlits false, st := .running }, streaming { ctx := 5, desc := twoFlits false, st := .running }, by decide +kernel⟩,
   ⟨2, 3, 5, 4, { ctx := 5, desc := twoFlits true, st := .running }, ⟨27, 5, 0, 5, { v := true, ptag := 5, w0 := 7 }⟩,
     atEdge (streaming { ctx := 5, desc := twoFlits true, st := .running }), by decide +kernel⟩,
   ⟨2, 3, 5, ⟨27, 5, 0, 5, { v := true, ptag := 5, w0 := 7 }⟩, atEdge (streaming {}), by decide +kernel⟩,
   ⟨2, 3, 5, ⟨27, 5, 0, 5, { v := true, ptag := 5, w0 := 7, e0 := 2 }⟩,
     { streaming {} with fly := [⟨27, 5, 0, 5, { v := true, ptag := 5, w0 := 7, e0 := 2 }⟩] }, by decide +kernel⟩⟩
theorem witness_RimCommandsComplete_checks :
    (∃ sc slot x, ∃ s : State, Fits (.streamDeadline sc slot) ∧ (s.sc sc).slots.get {} slot = x ∧ x.live = true ∧ (s.ctx x.ctx).part.begun = true ∧
      sdDeadline x.desc ≤ (s.ctx x.ctx).part.planBeat ∧ x.done < sdTotal x.desc) ∧
    (∃ sc slot, ∃ s : State, Fits (.streamDeadline sc slot) ∧
      (s.ctx ((s.sc sc).slots.get {} slot).ctx).part.planBeat < sdDeadline ((s.sc sc).slots.get {} slot).desc) ∧
    (∃ sc, ∃ s : State, Fits (.stackPatrol sc) ∧ (s.sc sc).serving = true ∧ s.throttled sc = false ∧ (s.sc sc).pageUsed (s.sc sc).patrol = false) ∧
    (∃ sc, ∃ s : State, Fits (.stackPatrol sc) ∧ (s.sc sc).serving = true ∧ s.throttled sc = false ∧ (s.sc sc).pageErrs (s.sc sc).patrol false = [] ∧ (s.sc sc).pageUsed (s.sc sc).patrol = true) ∧
    (∃ sc p w, ∃ s : State, Fits (.stackPatrol sc) ∧ (s.sc sc).serving = true ∧ s.throttled sc = false ∧ (s.sc sc).pageUsed (s.sc sc).patrol = true ∧
      (s.sc sc).pageErrs (s.sc sc).patrol false = [p] ∧ ((s.onSc sc Sc.patrolled).onSc sc (Sc.spendLow 0 1024)).pageUser sc (s.sc sc).patrol = some w) :=
  let k : Sc := { serving := true, ext := [(0, ExtEnt.word ⟨5, 0, false, 1, 0⟩)], map := [(0, 2 ^ 63)] }
  ⟨⟨2, 4, { ctx := 5, desc := { twoFlits false with w0 := BitVec.ofNat 64 (2 ^ 32 + 3) }, st := .running },
     streaming { ctx := 5, desc := { twoFlits false with w0 := BitVec.ofNat 64 (2 ^ 32 + 3) }, st := .running }, by decide +kernel⟩,
   ⟨2, 4, streaming { ctx := 5, desc := twoFlits false, st := .running }, by decide +kernel⟩,
   ⟨2, { up with scs := [(2, { serving := true })] }, by decide +kernel⟩,
   ⟨2, { up with scs := [(2, { k with errs := [(9, 1)] })] }, by decide +kernel⟩,
   ⟨2, (9, 2), (4096, ⟨5, 0, false, 1, 0⟩, 0), { up with scs := [(2, { k with errs := [(9, 2)] })] }, by decide +kernel⟩⟩

/-- A reduction descriptor of context 5 that takes two flits of parcel 0, done by plan beat 3. -/
def someRed : RedRun := { ctx := 5, d0 := BitVec.ofNat 64 (2 ^ 58 + 2 * 2 ^ 9), d1 := 0, d2 := 0, d3 := 0, d4 := BitVec.ofNat 64 3 }
/-- A parcel of this module's position 0 with its extent on stack controller 0. -/
def someParcel (sp : Bool) : PEnt := ⟨BitVec.ofNat 64 (2 ^ 2 * 2 ^ 26 + if sp then 2 ^ 51 else 0), BitVec.ofNat 64 (8 * 2 ^ 48 + 9 * 2 ^ 32)⟩
/-- Context 5 in step 7, open on link 1, with one parcel whose members are position 0 alone. -/
def stepCtx (sp : Bool) : Ctx :=
  { runCtx with w0 := BitVec.ofNat 64 (2 ^ 63), w3 := 2#64, pmap := [someParcel sp], rsets := [1], order := [(0, [0])], credits := [(0, 1)]
                run := some { kind := .step, handle := 1, step := 7, attempt := 1, long := 1, cmdTag := 2, started := true } }
/-- A module with link 1 in service and this stack controller 0. -/
def reducing (c : Ctx) (k : Sc) : State := { up with scs := [(0, k)], ctxs := [(0, Ctx.system), (5, c)], links := [(1, { st := 3 })] }
/-- A packet of context 5 on link 1. -/
def onWire (vc len : Nat) : FHdr := ⟨1, vc, 0, len, 5, 0, 0, 1, 0, 0, 1, false⟩
theorem witness_ReductionCommandsComplete_egress :
    (∃ sc n r, ∃ s : State, Fits (.reduceDeadline sc n) ∧ (s.sc sc).reds[n]? = some r ∧ (s.ctx r.ctx).part.begun = true ∧
      r.claim.deadline ≤ (s.ctx r.ctx).part.planBeat ∧ r.isDone = false ∧ r.stopped = false) ∧
    (∃ sc ctx, ∃ s : State, Fits (.reductionForecast sc ctx) ∧ (s.sc sc).egFree < (s.at 0x700).egressNeed sc ctx ∧ isUser ctx = true) ∧
    (∃ sc ctx, ∃ s : State, Fits (.reductionForecast sc ctx) ∧ (s.at 0x700).egressNeed sc ctx ≤ (s.sc sc).egFree) ∧
    (∃ sc ctx parcel e b step attempt, ∃ s : State, Fits (.gradEgressSend sc ctx parcel) ∧ (s.ctx ctx).pent parcel = some e ∧
      (s.sc sc).egress.find? (fun b => b.ctx = ctx && b.parcel = parcel) = some b ∧ (s.ctx ctx).stepOn = some (step, attempt) ∧ b.complete = true ∧
      (s.ctx ctx).admitted e parcel = true ∧ (s.sc sc).underTest = false ∧ (s.ctx ctx).st ≠ .fenced ∧ b.errs.any (fun e => decide (2 ≤ e.2)) = false ∧ e.sp = false) ∧
    (∃ sc ctx parcel e b step attempt, ∃ s : State, Fits (.gradEgressSend sc ctx parcel) ∧ (s.ctx ctx).pent parcel = some e ∧
      (s.sc sc).egress.find? (fun b => b.ctx = ctx && b.parcel = parcel) = some b ∧ (s.ctx ctx).stepOn = some (step, attempt) ∧ b.complete = true ∧
      (s.ctx ctx).admitted e parcel = true ∧ (s.sc sc).underTest = false ∧ (s.ctx ctx).st ≠ .fenced ∧ b.errs.any (fun e => decide (2 ≤ e.2)) = false ∧ e.sp = true) ∧
    (∃ sc ctx parcel e b step attempt, ∃ s : State, Fits (.gradEgressSend sc ctx parcel) ∧ (s.ctx ctx).pent parcel = some e ∧
      (s.sc sc).egress.find? (fun b => b.ctx = ctx && b.parcel = parcel) = some b ∧ (s.ctx ctx).stepOn = some (step, attempt) ∧ b.complete = true ∧
      (s.ctx ctx).admitted e parcel = true ∧ (s.sc sc).underTest = false ∧ (s.ctx ctx).st ≠ .fenced ∧ b.errs.any (fun e => decide (2 ≤ e.2)) = true) :=
  ⟨⟨0, 0, someRed, reducing (stepCtx false) { serving := true, reds := [someRed] }, by decide +kernel⟩,
   ⟨0, 5, reducing (stepCtx false) { serving := true, rd := 0, reds := [{ someRed with d3 := BitVec.ofNat 64 (0x800 * 2 ^ 42 + 4095 * 2 ^ 30), d4 := BitVec.ofNat 64 (3 * 2 ^ 32 + 9) }] }, by decide +kernel⟩,
   ⟨0, 5, reducing (stepCtx false) { serving := true }, by decide +kernel⟩,
   ⟨0, 5, 0, someParcel false, { ctx := 5, parcel := 0, complete := true }, 7, 1,
     reducing (stepCtx false) { serving := true, egress := [{ ctx := 5, parcel := 0, complete := true }] }, by decide +kernel⟩,
   ⟨0, 5, 0, someParcel true, { ctx := 5, parcel := 0, complete := true }, 7, 1,
     reducing (stepCtx true) { serving := true, egress := [{ ctx := 5, parcel := 0, complete := true }] }, by decide +kernel⟩,
   ⟨0, 5, 0, someParcel false, { ctx := 5, parcel := 0, complete := true, errs := [(3, 2)] }, 7, 1,
     reducing (stepCtx false) { serving := true, egress := [{ ctx := 5, parcel := 0, complete := true, errs := [(3, 2)] }] }, by decide +kernel⟩⟩
theorem witness_ReductionCommandsComplete_owner :
    (∃ sc ctx step attempt p, ∃ s : State, Fits (.ownerBufferOpen sc ctx) ∧ (s.ctx ctx).stepOn = some (step, attempt) ∧
      (s.ownOrder sc ctx)[(s.ctx ctx).opened.get 0 sc]? = some p ∧ (s.sc sc).lowmark < (s.sc sc).ownerFree) ∧
    (∃ sc ctx, ∃ s : State, Fits (.ownerBufferOpen sc ctx) ∧ (s.sc sc).ownerFree ≤ (s.sc sc).lowmark) ∧
    (∃ f step attempt row b e, ∃ s : State, Fits (.gradBlock f step attempt row b) ∧ fabricOk f 1 [272] s = true ∧ (s.ctx f.ctx).pent b.parcel = some e ∧
      e.owner = s.myPos ∧ (s.ctx f.ctx).stepOn = some (step, attempt) ∧ ((s.sc (extSc e.wext)).owner? f.ctx b.parcel).isSome = true) ∧
    (∃ f step attempt row b e, ∃ s : State, Fits (.gradBlock f step attempt row b) ∧ fabricOk f 1 [272] s = true ∧ (s.ctx f.ctx).pent b.parcel = some e ∧
      e.owner = s.myPos ∧ (s.ctx f.ctx).stepOn ≠ some (step, attempt)) ∧
    (∃ f parcel step attempt dense nf rows e, ∃ s : State, Fits (.gradClose f parcel step attempt dense nf rows) ∧ fabricOk f 1 [16] s = true ∧
      (s.ctx f.ctx).pent parcel = some e ∧ e.owner = s.myPos ∧ (s.ctx f.ctx).stepOn = some (step, attempt) ∧
      ((s.sc (extSc e.wext)).owner? f.ctx parcel).isSome = true ∧ ((s.ctx f.ctx).commits.get {} parcel).step.toNat ≠ step) ∧
    (∃ f parcel step attempt dense nf rows e, ∃ s : State, Fits (.gradClose f parcel step attempt dense nf rows) ∧ fabricOk f 1 [16] s = true ∧
      (s.ctx f.ctx).pent parcel = some e ∧ e.owner = s.myPos ∧ (s.ctx f.ctx).stepOn = some (step, attempt) ∧ ((s.sc (extSc e.wext)).owner? f.ctx parcel).isNone = true) ∧
    (∃ f step attempt row b e, ∃ s : State, Fits (.gradBlock f step attempt row b) ∧ fabricOk f 1 [272] s = true ∧ (s.ctx f.ctx).pent b.parcel = some e ∧
      e.owner = s.myPos ∧ (s.ctx f.ctx).stepOn = some (step, attempt) ∧ ((s.sc (extSc e.wext)).owner? f.ctx b.parcel).isNone = true) ∧
    (∃ f parcel step attempt dense nf rows e, ∃ s : State, Fits (.gradClose f parcel step attempt dense nf rows) ∧ fabricOk f 1 [16] s = true ∧
      (s.ctx f.ctx).pent parcel = some e ∧ e.owner = s.myPos ∧ (s.ctx f.ctx).stepOn ≠ some (step, attempt)) ∧
    (∃ f step attempt sc ordinal, ∃ s : State, Fits (.parcelCredit f step attempt sc ordinal) ∧ fabricOk f 0 [16] s = true ∧
      (s.ctx f.ctx).stepOn = some (step, attempt)) ∧
    (∃ f step attempt sc ordinal, ∃ s : State, Fits (.parcelCredit f step attempt sc ordinal) ∧ fabricOk f 0 [16] s = true ∧
      (s.ctx f.ctx).stepOn ≠ some (step, attempt)) :=
  let s := reducing (stepCtx false) { serving := true, owners := [{ ctx := 5, parcel := 0, attempt := 1 }] }
  let b : WireBlk := ⟨0, 255, 0, List.replicate 256 0#8⟩
  ⟨⟨0, 5, 7, 1, 0, reducing (stepCtx false) { serving := true }, by decide +kernel⟩,
   ⟨0, 5, reducing (stepCtx false) { serving := true, rd := 0xC0000#32 }, by decide +kernel⟩,
   ⟨onWire 1 272, 7, 1, false, b, someParcel false, s, by decide +kernel⟩,
   ⟨onWire 1 272, 7, 0, false, b, someParcel false, s, by decide +kernel⟩,
   ⟨onWire 1 16, 0, 7, 1, true, false, 0, someParcel false, s, by decide +kernel⟩,
   ⟨onWire 1 16, 0, 7, 1, true, false, 0, someParcel false, reducing (stepCtx false) { serving := true }, by decide +kernel⟩,
   ⟨onWire 1 272, 7, 1, false, b, someParcel false, reducing (stepCtx false) { serving := true }, by decide +kernel⟩,
   ⟨onWire 1 16, 0, 7, 2, true, false, 0, someParcel false, s, by decide +kernel⟩,
   ⟨onWire 0 16, 7, 1, 0, 0, s, by decide +kernel⟩,
   ⟨onWire 0 16, 7, 2, 0, 0, s, by decide +kernel⟩⟩

/-- A parcel of position 0 with its extents, and a complete owner buffer of it. -/
def someOwner : Owner := { ctx := 5, parcel := 0, attempt := 1, complete := true, touched := [300] }
/-- A module whose context 5 has this group 0 and whose stack controller 0 holds the parcel's extents and owner buffer. -/
def ripening (g : Words8) (x : Ctx) (o : Owner) : State :=
  reducing { x with groups := [(0, g)] }
    { serving := true, owners := [o], ext := [(4, ExtEnt.word ⟨5, 1, false, 1, 0⟩), (5, ExtEnt.word ⟨5, 2, false, 1, 3⟩), (8, ExtEnt.word ⟨5, 3, false, 1, 1⟩), (9, ExtEnt.word ⟨5, 4, false, 1, 2⟩)]
      pair := [(4, 6)] }
/-- A sparse group of rule 0. -/
def sparse0 : Words8 := { w0 := 0x0010000000000000#64 }
theorem witness_RipenerCommandsComplete_updates :
    (∃ sc ctx parcel e step attempt, ∃ s : State, Fits (.ripenerUpdate sc ctx parcel) ∧ (s.ctx ctx).pent parcel = some e ∧
      (s.ctx ctx).stepOn = some (step, attempt) ∧ ripeFor sc ctx parcel e s = true ∧ (s.ctx ctx).newFz.contains parcel = true ∧
      ((s.ctx ctx).commits.get {} parcel).step.toNat ≠ step) ∧
    (∃ sc ctx parcel e step attempt o, ∃ s : State, Fits (.ripenerUpdate sc ctx parcel) ∧ (s.ctx ctx).pent parcel = some e ∧
      (s.ctx ctx).stepOn = some (step, attempt) ∧ ripeFor sc ctx parcel e s = true ∧ (s.ctx ctx).newFz.contains parcel = false ∧
      (s.sc sc).owner? ctx parcel = some o ∧ o.complete = true ∧ s.ripeNow sc o = true ∧ o.unreadable = false ∧
      ((s.ctx ctx).commits.get {} parcel).step.toNat ≠ step ∧ o.skipped = true) ∧
    (∃ sc ctx parcel e step attempt o, ∃ s : State, Fits (.ripenerUpdate sc ctx parcel) ∧ (s.ctx ctx).pent parcel = some e ∧
      (s.ctx ctx).stepOn = some (step, attempt) ∧ ripeFor sc ctx parcel e s = true ∧ (s.ctx ctx).newFz.contains parcel = false ∧
      (s.sc sc).owner? ctx parcel = some o ∧ o.complete = true ∧ s.ripeNow sc o = true ∧ o.unreadable = false ∧
      ((s.ctx ctx).commits.get {} parcel).step.toNat ≠ step ∧ o.skipped = false ∧
      ¬(grSparse ((s.ctx ctx).groupOf e) = true ∧ o.touched = []) ∧ grRule ((s.ctx ctx).groupOf e) = 15) ∧
    (∃ sc ctx parcel e step attempt o, ∃ s : State, Fits (.ripenerUpdate sc ctx parcel) ∧ (s.ctx ctx).pent parcel = some e ∧
      (s.ctx ctx).stepOn = some (step, attempt) ∧ ripeFor sc ctx parcel e s = true ∧ (s.ctx ctx).newFz.contains parcel = false ∧
      (s.sc sc).owner? ctx parcel = some o ∧ o.complete = true ∧ s.ripeNow sc o = true ∧ o.unreadable = false ∧
      ((s.ctx ctx).commits.get {} parcel).step.toNat = step) ∧
    (∃ sc ctx parcel e step attempt o, ∃ s : State, Fits (.ripenerUpdate sc ctx parcel) ∧ (s.ctx ctx).pent parcel = some e ∧
      (s.ctx ctx).stepOn = some (step, attempt) ∧ ripeFor sc ctx parcel e s = true ∧ (s.ctx ctx).newFz.contains parcel = false ∧
      (s.sc sc).owner? ctx parcel = some o ∧ o.complete = true ∧ s.ripeNow sc o = true ∧ o.unreadable = true) :=
  ⟨⟨0, 5, 0, someParcel false, 7, 1, ripening sparse0 { stepCtx false with newFz := [0] } someOwner, by decide +kernel⟩,
   ⟨0, 5, 0, someParcel false, 7, 1, { someOwner with skipped := true }, ripening sparse0 (stepCtx false) { someOwner with skipped := true }, by decide +kernel⟩,
   ⟨0, 5, 0, someParcel false, 7, 1, someOwner, ripening { w0 := 0xF000000000000000#64 } (stepCtx false) someOwner, by decide +kernel⟩,
   ⟨0, 5, 0, someParcel false, 7, 1, someOwner, ripening sparse0 { stepCtx false with commits := [(0, { step := 7, v := true })] } someOwner, by decide +kernel⟩,
   ⟨0, 5, 0, someParcel false, 7, 1, { someOwner with errs := [(3, 2)] }, ripening sparse0 (stepCtx false) { someOwner with errs := [(3, 2)] }, by decide +kernel⟩⟩
/-- Where no element is touched none is changed, so none is not finite. -/
theorem updateAll_untouched (h : Hyper) (bf : Bool) (on : Nat → Bool) (G θ m v : List Nat) (hon : ∀ i, i < 65536 → on i = false) :
    (updateAll h bf on G θ m v).2 = none := by
  unfold updateAll
  simp only [Option.map_eq_none_iff, List.find?_eq_none]
  rintro ⟨q, i⟩ hq
  have hi := List.snd_lt_of_mem_zipIdx hq
  simp only [List.length_map, List.length_range] at hi
  simp [hon i hi]
/-- A range reads where the page map and the error marks list nothing. -/
theorem checkRange_clean {s : State} {e : Nat} (x : ExtEnt) (h1 : (s.sc (extSc e)).map = []) (h2 : (s.sc (extSc e)).errs = []) (n off last : Nat) :
    s.checkRange e x off last n = (s, none) := by
  induction n generalizing off with
  | zero => rfl
  | succ n ih =>
    have hp : ∀ l, s.pageEnt e x l = 0 := fun l => by unfold State.pageEnt; rw [h1]; rfl
    have hc : s.checkStore e x off = (s, none) := by
      have ht : s.touch e x (off / pageBytes) = s := by unfold State.touch; rw [hp]; rfl
      unfold State.checkStore
      rw [hp, ht]
      dsimp only
      rw [h2]
      rfl
    unfold State.checkRange
    rw [hc]
    split
    · rfl
    · exact ih _
theorem readParts_clean {s : State} {c : Nat} {q : Nat × Nat × Nat} (h0 : s.mayMove c 1 5 q = true) (h1 : ((s.spendPart c q).sc (extSc q.1)).map = [])
    (h2 : ((s.spendPart c q).sc (extSc q.1)).errs = []) : ∃ bs, s.readParts c [q] = (s.spendPart c q, .ok bs) := by
  have h : ∃ b, (s.spendPart c q).readExt q.1 (s.extD q.1) q.2.1 q.2.2 = (s.spendPart c q, .ok b) := by
    unfold State.readExt
    rw [checkRange_clean _ h1 h2]
    split
    · exact ⟨_, rfl⟩
    · exact ⟨_, rfl⟩
  obtain ⟨b, h⟩ := h
  refine ⟨[b], ?_⟩
  simp only [State.readParts, State.readPart]
  rw [if_neg (by rw [h0]; decide), h]
theorem witness_RipenerCommandsComplete_stores :
    ∃ sc ctx parcel e step attempt o s1 bs s2 n, ∃ s : State, Fits (.ripenerUpdate sc ctx parcel) ∧ (s.ctx ctx).pent parcel = some e ∧
      (s.ctx ctx).stepOn = some (step, attempt) ∧ ripeFor sc ctx parcel e s = true ∧ (s.ctx ctx).newFz.contains parcel = false ∧
      (s.sc sc).owner? ctx parcel = some o ∧ o.complete = true ∧ s.ripeNow sc o = true ∧ o.unreadable = false ∧
      ((s.ctx ctx).commits.get {} parcel).step.toNat ≠ step ∧ o.skipped = false ∧
      ¬(grSparse ((s.ctx ctx).groupOf e) = true ∧ o.touched = []) ∧ grRule ((s.ctx ctx).groupOf e) ≠ 15 ∧
      s.updateStops ctx e step ((s.ctx ctx).commits.get {} parcel).slot = none ∧
      s.readParts ctx (wantParts e (grBf ((s.ctx ctx).groupOf e)) ((s.ctx ctx).hyper e step).rule ((s.ctx ctx).commits.get {} parcel).slot) = (s1, .ok bs) ∧
      s1.takeSlot ctx parcel e = some (s2, n) ∧ (newElems (s.ctx ctx) e step o bs).2 = none := by
  have ht : (((ripening sparse0 (stepCtx false) someOwner).spendPart 5 (8, 0, 262144)).takeSlot 5 0 (someParcel false)).isSome = true := by decide +kernel
  obtain ⟨bs, hr⟩ := readParts_clean (s := ripening sparse0 (stepCtx false) someOwner) (c := 5) (q := (8, 0, 262144)) (by decide +kernel) rfl rfl
  obtain ⟨⟨s2, n⟩, hs⟩ := Option.isSome_iff_exists.mp ht
  refine ⟨0, 5, 0, someParcel false, 7, 1, someOwner, _, bs, s2, n, ripening sparse0 (stepCtx false) someOwner, by decide +kernel, by decide +kernel, by decide +kernel,
    by decide +kernel, by decide +kernel, by decide +kernel, by decide +kernel, by decide +kernel, by decide +kernel, by decide +kernel, by decide +kernel,
    by decide +kernel, by decide +kernel, by decide +kernel, hr, hs, ?_⟩
  · unfold newElems
    apply updateAll_untouched
    intro i hi
    have : (ripening sparse0 (stepCtx false) someOwner).ctx 5 = { stepCtx false with groups := [(0, sparse0)] } := rfl
    rw [this]
    have hs : grSparse (Ctx.groupOf { stepCtx false with groups := [(0, sparse0)] } (someParcel false)) = true := by decide
    have : i / 256 ≠ 300 := by omega
    simp [Owner.on, hs, someOwner, this]

/-- The parcel of another position, 3, with the buddy's mirror extent 10 here. -/
def buddyParcel : PEnt := ⟨BitVec.ofNat 64 (3 * 2 ^ 57 + 2 ^ 2 * 2 ^ 26), BitVec.ofNat 64 (8 * 2 ^ 48 + 9 * 2 ^ 32)⟩
/-- A module whose context 5 has this parcel map, in step 7, with or without a mirror extent. -/
def mirroring (x : Ctx) (mirror : Bool) : State :=
  reducing x { serving := true, ext := (4, ExtEnt.word ⟨5, 1, false, 1, 0⟩) :: if mirror then [(10, ExtEnt.word ⟨5, 5, false, 1, 1⟩)] else [] }
/-- A mirror record of one fragment. -/
def onePart : Prefix := ⟨0, 7, 1, 3, 1, false, false⟩
theorem witness_RipenerCommandsComplete_mirrors :
    (∃ f p data e n ext off, ∃ s : State, Fits (.mirror f p data) ∧ fabricOk f 3 [2064, 16] s = true ∧ p.scales = false ∧ data.length = 2048 * p.frags ∧
      (s.ctx f.ctx).pent p.parcel = some e ∧ e.owner ≠ s.myPos ∧ p.unch = false ∧ (s.rxCount f).spareMirror f.ctx = some (n, ext, off) ∧
      (s.rxCount f).rangeHere ext ((s.rxCount f).extD ext) off data.length = true) ∧
    (∃ f p data e, ∃ s : State, Fits (.mirror f p data) ∧ fabricOk f 3 [2064, 16] s = true ∧ p.scales = false ∧ data.length = 2048 * p.frags ∧
      (s.ctx f.ctx).pent p.parcel = some e ∧ e.owner ≠ s.myPos ∧ p.unch = false ∧ (s.rxCount f).spareMirror f.ctx = none) ∧
    (∃ f parcel step attempt fl e, ∃ s : State, Fits (.mirrorAck f parcel step attempt 0) ∧ fabricOk f 0 [16] s = true ∧
      (s.ctx f.ctx).flight.find? (fun q => decide (q.parcel = parcel ∧ q.step = step ∧ q.attempt = attempt)) = some fl ∧
      (s.ctx f.ctx).pent parcel = some e ∧ fl.initial = false ∧ fl.unch = false ∧ ((s.ctx f.ctx).statOf fl.step fl.parcel).any PStat.skipped = false) ∧
    (∃ f parcel step attempt status, ∃ s : State, Fits (.mirrorAck f parcel step attempt status) ∧ fabricOk f 0 [16] s = true ∧
      (s.ctx f.ctx).flight.find? (fun q => decide (q.parcel = parcel ∧ q.step = step ∧ q.attempt = attempt)) = none) ∧
    (∃ ctx parcel fl e, ∃ s : State, Fits (.mirrorTimeout ctx parcel) ∧ (s.ctx ctx).flight.find? (fun q => q.parcel = parcel) = some fl ∧
      (s.ctx ctx).pent parcel = some e ∧ fl.beat + 65536 ≤ s.clk.beat ∧ fl.initial = false ∧ fl.unch = true) ∧
    (∃ ctx parcel fl, ∃ s : State, Fits (.mirrorTimeout ctx parcel) ∧ (s.ctx ctx).flight.find? (fun q => q.parcel = parcel) = some fl ∧
      s.clk.beat < fl.beat + 65536) :=
  let x := { stepCtx false with pmap := [buddyParcel] }
  let fl : InFlight := ⟨0, 7, 1, 0, false, 3, false⟩
  ⟨⟨onWire 3 2064, onePart, List.replicate 2048 1#8, buddyParcel, 0, 10, 0, mirroring x true, by decide +kernel⟩,
   ⟨onWire 3 2064, onePart, List.replicate 2048 1#8, buddyParcel, mirroring x false, by decide +kernel⟩,
   ⟨onWire 0 16, 0, 7, 1, fl, someParcel false, mirroring { stepCtx false with flight := [fl] } true, by decide +kernel⟩,
   ⟨onWire 0 16, 0, 7, 1, 0, mirroring (stepCtx false) true, by decide +kernel⟩,
   ⟨5, 0, { fl with unch := true }, someParcel false,
     { mirroring { stepCtx false with flight := [{ fl with unch := true }] } true with clk := { beat := 65536 } }, by decide +kernel⟩,
   ⟨5, 0, fl, { mirroring { stepCtx false with flight := [fl] } true with clk := { beat := 65535 } }, by decide +kernel⟩⟩
theorem witness_RipenerCommandsComplete_gathers :
    (∃ f p data e, ∃ s : State, Fits (.allgather f p data) ∧ fabricOk f 2 [2064] s = true ∧ (s.ctx f.ctx).pent p.parcel = some e ∧
      ((s.ctx f.ctx).members e).contains s.myPos = true ∧ e.owner ≠ s.myPos ∧ p.step ≠ 0xFFFFFFFF ∧ (s.ctx f.ctx).takeover = none ∧
      (s.ctx f.ctx).now.any (fun n => decide (n.step = p.step)) = true ∧ data.length = workBytes (grWfmt ((s.ctx f.ctx).groupOf e)) ∧
      (s.rxCount f).workFits f.ctx e ((p.step + 1) % 2) = true) ∧
    (∃ ctx parcel h e, ∃ s : State, Fits (.hostUpdateTimeout ctx parcel) ∧ (s.ctx ctx).hostOut.find? (fun h => h.1 = parcel) = some h ∧
      (s.ctx ctx).pent parcel = some e ∧ grHlimit ((s.ctx ctx).groupOf e) ≠ 0 ∧ h.2.2 + grHlimit ((s.ctx ctx).groupOf e) ≤ s.clk.beat) ∧
    (∃ ctx parcel e, ∃ s : State, Fits (.hostUpdateTimeout ctx parcel) ∧ (s.ctx ctx).pent parcel = some e ∧ grHlimit ((s.ctx ctx).groupOf e) = 0) :=
  let x := { stepCtx false with pmap := [buddyParcel], now := some { step := 7, seed := 0, tokens := 0 } }
  have hl : (List.replicate 67584 0#8).length = 67584 := List.length_replicate
  ⟨⟨onWire 2 2064, { onePart with frags := 33 }, List.replicate 67584 0#8, buddyParcel, mirroring x true, by decide +kernel, by decide +kernel, by decide +kernel,
     by decide +kernel, by decide +kernel, by decide +kernel, by decide +kernel, by decide +kernel, hl.trans (by decide +kernel), by decide +kernel⟩,
   ⟨5, 0, (0, 1, 0), someParcel false, { mirroring { stepCtx false with hostOut := [(0, 1, 0)], groups := [(0, { w6 := 100#64 })] } true with clk := { beat := 100 } },
     by decide +kernel⟩,
   ⟨5, 0, someParcel false, mirroring (stepCtx false) true, by decide +kernel⟩⟩

/-- A module with link 1 in this state. -/
def linked (l : Link) : State := { reducing (stepCtx false) {} with links := [(1, l)] }
/-- A module in its boot that follows a beat master on the cable. -/
def booting (ready : Bool) : State :=
  { linked { st := 3 } with clk := { mode := { cable := true } }, tr := { wafer := true, boot := if ready then .ready else .coolantWait } }
theorem witness_FabricCommandsComplete_packets :
    (∃ f beat, ∃ s : State, Fits (.beatEpoch f beat) ∧ fabricOk f 0 [f.len] s = true ∧ s.clk.mode.cable = true ∧ s.clk.mode.master = false ∧
      s.pod.cfg.all (fun p => decide (p.master = f.spos)) = true ∧ s.clk.adopted = false ∧ s.tr.boot ≠ .ready) ∧
    (∃ f beat, ∃ s : State, Fits (.beatEpoch f beat) ∧ fabricOk f 0 [f.len] s = true ∧ s.tr.boot = .ready) ∧
    (∃ f transfer off total data old new, ∃ s : State, Fits (.capsule f transfer off total data) ∧ fabricOk f 3 [2064] s = true ∧ off < total ∧
      (s.rxCount f).pod.capIn.get [] transfer = old ∧
      fitBytes (max old.length (2048 * (off + 1))) (fitBytes (2048 * off) old ++ fitBytes 2048 data ++ old.drop (2048 * (off + 1))) = new) ∧
    (∃ f transfer units, ∃ s : State, Fits (.capsuleAck f transfer units 0) ∧ fabricOk f 0 [16] s = true) ∧
    (∃ n ack nak credits, ∃ s : State, Fits (.link n ack nak credits false) ∧ (s.link n).st = 3 ∧ (s.link n).narrowing = none) ∧
    (∃ n ack nak credits, Fits (.link n ack nak credits true)) ∧
    (∃ n, ∃ s : State, Fits (.linkAckSend n) ∧ (s.link n).st = 3 ∧ (s.link n).narrowing = none ∧ s.ha.warm = false) ∧
    (∃ n, ∃ s : State, Fits (.linkAckSend n) ∧ (s.link n).st = 3 ∧ (s.link n).narrowing = none ∧ s.ha.warm = true) :=
  ⟨⟨onWire 0 16, 77, booting false, by decide +kernel⟩,
   ⟨onWire 0 16, 77, booting true, by decide +kernel⟩,
   ⟨onWire 3 2064, 9, 1, 2, [7#8], [], _, linked { st := 3 }, by decide +kernel, by decide +kernel, by decide, rfl, rfl⟩,
   ⟨onWire 0 16, 9, 1, linked { st := 3 }, by decide +kernel⟩,
   ⟨1, 0, true, [1, 0, 0, 0], linked { st := 3 }, by decide +kernel⟩,
   ⟨1, 0, true, [1, 0, 0, 0], by decide⟩,
   ⟨1, linked { st := 3 }, by decide +kernel⟩,
   ⟨1, { linked { st := 3 } with ha := { warm := true } }, by decide +kernel⟩⟩
theorem witness_FabricCommandsComplete_links :
    (∃ n w, ∃ s : State, Fits (.linkRetrainInService n w) ∧ (s.link n).st = 3 ∧ (s.link n).narrowing = none ∧
      (s.link n).replay.any (fun p => decide (8 ≤ p.resends)) = true) ∧
    (∃ n w, ∃ s : State, Fits (.linkRetrainInService n w) ∧ (s.link n).st = 3 ∧ (s.link n).narrowing = none ∧ 1024 < w) ∧
    (∃ n w, ∃ s : State, Fits (.linkRetrainInService n w) ∧ (s.link n).st = 3 ∧ (s.link n).replay.any (fun p => decide (8 ≤ p.resends)) = false ∧ w ≤ 1024) ∧
    (∃ n t, ∃ s : State, Fits (.linkRetrainComplete n t) ∧ (s.link n).st = 4 ∧ (s.link n).hello = none ∧ s.tr.tests = []) ∧
    (∃ n ids, ∃ s : State, Fits (.linkNarrowingComplete n) ∧ (s.link n).narrowing = some ids ∧ (s.link n).widen = none) ∧
    (∃ l : Link, l.mode.1 ≠ 0) ∧
    (∃ n vc, ∃ s : State, Fits (.fabricCreditStall n vc) ∧ (s.link n).st = 3 ∧ 65536 ≤ (s.link n).starve.get 0 vc ∧
      (s.link n).queue.any (fun p => p.vc = vc) = true) ∧
    (∃ n vc, ∃ s : State, Fits (.fabricCreditStall n vc) ∧ (s.link n).starve.get 0 vc < 65536) ∧
    (∃ n pod pos plink pidh, ∃ s : State, Fits (.hello n pod pos plink pidh) ∧ (s.link n).hello = none ∧ ((s.link n).st = 3 ∨ (s.link n).st = 4)) ∧
    (∃ n pod pos plink pidh q, ∃ s : State, Fits (.hello n pod pos plink pidh) ∧ (s.link n).hello = some q ∧ s.clk.wall ≤ q.2) ∧
    (∃ n pod pos plink pidh q, ∃ s : State, Fits (.hello n pod pos plink pidh) ∧ (s.link n).hello = some q ∧ q.2 < s.clk.wall) :=
  let w : Trained := ⟨true, 8, 255, 3, false, 0, 0, 0, 0⟩
  ⟨⟨1, 0, linked { st := 3, replay := [⟨0, ⟨1, 1, 5, 2, []⟩, 8⟩] }, by decide +kernel⟩,
   ⟨1, 1025, linked { st := 3 }, by decide +kernel⟩,
   ⟨1, 1024, linked { st := 3, replay := [⟨0, ⟨1, 1, 5, 2, []⟩, 7⟩] }, by decide +kernel⟩,
   ⟨1, ⟨false, 0, 0, 0, false, 0, 0, 0, 0⟩, linked { st := 4 }, by decide +kernel⟩,
   ⟨1, [3], linked { st := 3, narrowing := some [3] }, by decide +kernel⟩,
   ⟨{ tw := 3, tmask := 255 }, by decide⟩,
   ⟨1, 2, linked { st := 3, starve := [(2, 65536)], queue := [⟨2, 4, 5, 1, []⟩] }, by decide +kernel⟩,
   ⟨1, 2, linked { st := 3, starve := [(2, 65535)], queue := [⟨2, 4, 5, 1, []⟩] }, by decide +kernel⟩,
   ⟨1, 3, 4, 5, 6, linked { st := 4 }, by decide +kernel⟩,
   ⟨1, 3, 4, 5, 6, (w, 9), linked { st := 4, hello := some (w, 9) }, by decide +kernel⟩,
   ⟨1, 3, 4, 5, 6, (w, 9), { linked { st := 4, hello := some (w, 9) } with clk := { wall := 10 } }, by decide +kernel⟩⟩
theorem witness_FabricCommandsComplete_steps :
    (∃ f step attempt scale freeze, ∃ s : State, Fits (.stepStartMessage f step attempt scale freeze) ∧ fabricOk f 0 [f.len] s = true ∧
      (s.ctx f.ctx).starts = [] ∧ (s.ctx f.ctx).run = none ∧ ((s.ctx f.ctx).last = 0xFFFFFFFF ∨ (s.ctx f.ctx).last < step)) ∧
    (∃ f step attempt scale freeze r, ∃ s : State, Fits (.stepStartMessage f step attempt scale freeze) ∧ fabricOk f 0 [f.len] s = true ∧
      (s.ctx f.ctx).starts = [] ∧ (s.ctx f.ctx).run = some r ∧ r.kind = .step ∧ r.step = step ∧ r.attempt = attempt ∧ r.started = false ∧
      (s.ctx f.ctx).last = 0xFFFFFFFF) ∧
    (∃ f step attempt scale freeze, ∃ s : State, Fits (.stepStartMessage f step attempt scale freeze) ∧ fabricOk f 0 [f.len] s = true ∧
      (s.ctx f.ctx).last ≠ 0xFFFFFFFF ∧ step ≤ (s.ctx f.ctx).last) ∧
    (∃ ctx r o, ∃ s : State, Fits (.stepSyncTimeout ctx) ∧ (s.ctx ctx).waiting = some r ∧ (s.ctx ctx).ownStart = some o ∧ o.1 + 65536 ≤ s.clk.beat ∧
      (s.ctx ctx).missing s.myPos r ≠ []) ∧
    (∃ ctx o, ∃ s : State, Fits (.stepSyncTimeout ctx) ∧ (s.ctx ctx).ownStart = some o ∧ s.clk.beat < o.1 + 65536) ∧
    (∃ f step v, ∃ s : State, Fits (.norm f step v) ∧ fabricOk f 0 [f.len] s = true) :=
  let r : Run := { kind := .step, handle := 1, step := 7, attempt := 1, long := 1, cmdTag := 2 }
  let w := { stepCtx false with rsets := [3], run := some r, ownStart := some (0, 7, 1) }
  ⟨⟨onWire 0 32, 7, 1, 2, 3, mirroring { stepCtx false with run := none, last := 6 } false, by decide +kernel⟩,
   ⟨onWire 0 32, 7, 1, 2, 3, r, mirroring { stepCtx false with run := some r } false, by decide +kernel⟩,
   ⟨onWire 0 32, 7, 1, 2, 3, mirroring { stepCtx false with last := 7 } false, by decide +kernel⟩,
   ⟨5, r, (0, 7, 1), { mirroring w false with clk := { beat := 65536 } }, by decide +kernel⟩,
   ⟨5, (0, 7, 1), { mirroring w false with clk := { beat := 65535 } }, by decide +kernel⟩,
   ⟨onWire 0 32, 7, 1#64, mirroring w false, by decide +kernel⟩⟩


/-- A module in service with input 0 live, at this clock setting. -/
def powered (m : Nat) : State := { up with clk := { m := m }, pwr := { ins := [(0, { live := true })] } }
/-- Such a module at m = 192, in a warm reset, with the first link of each side in service at this width. -/
def cabled (w : Nat) : State :=
  { powered 192 with links := [0, 16, 32, 48].map (fun n => (n, { st := 3, width := w, tw := w, tmask := 0xFF })), tr := { wafer := true, boot := .warm } }
/-- Six readings of which the first is this current at 54 V. -/
def drawing (i : Nat) : List (Nat × Nat) := [(5400, i), (0, 0), (0, 0), (0, 0), (0, 0), (0, 0)]
theorem witness_GovernorCommandsComplete_power :
    (∃ ins cyc, ∃ s : State, Fits (.governorBeat ins cyc) ∧ s.tr.wafer = false) ∧
    (∃ ins cyc u, ∃ s : State, Fits (.governorBeat ins cyc) ∧ (s.at cyc).inputsRead ins = u ∧ s.tr.wafer = true ∧ u.overA = false) ∧
    (∃ ins cyc u, ∃ s : State, Fits (.governorBeat ins cyc) ∧ (s.at cyc).inputsRead ins = u ∧ s.tr.wafer = true ∧ u.overA = true ∧ s.clk.m < 192 ∧
      s.gov.noLengthen ≤ s.clk.beat) ∧
    (∃ ins cyc u, ∃ s : State, Fits (.governorBeat ins cyc) ∧ (s.at cyc).inputsRead ins = u ∧ s.tr.wafer = true ∧ u.overA = true ∧ s.clk.m = 192 ∧
      u.beatGoverned.narrowed (u.beatGoverned.governLinks u.powerMw u.allowNow) = true) ∧
    (∃ ins cyc u, ∃ s : State, Fits (.governorBeat ins cyc) ∧ (s.at cyc).inputsRead ins = u ∧ s.tr.wafer = true ∧ u.overA = true ∧ s.clk.m = 192 ∧
      u.beatGoverned.narrowed (u.beatGoverned.governLinks u.powerMw u.allowNow) = false) ∧
    (∃ s : State, Fits .inputOverpower ∧ 8 ≤ s.gov.overBeats ∧ s.gov.excess = false) ∧
    (∃ s : State, Fits .inputOverpower ∧ s.gov.overBeats < 8) :=
  ⟨⟨drawing 10, 4095, State.reset, by decide +kernel⟩, ⟨drawing 10, 4095, _, powered 64, by decide, rfl, rfl, by decide +kernel⟩,
   ⟨drawing 5000, 4095, _, powered 64, by decide, rfl, rfl, by decide +kernel, by decide, by decide⟩,
   ⟨drawing 5000, 4095, _, cabled 3, by decide, rfl, rfl, by decide +kernel, rfl,
     by decide +kernel⟩,
   ⟨drawing 5000, 4095, _, cabled 1, by decide, rfl, rfl, by decide +kernel, rfl, by decide +kernel⟩,
   ⟨{ up with gov := { overBeats := 8 } }, by decide⟩, ⟨{ up with gov := { overBeats := 7 } }, by decide⟩⟩
theorem witness_GovernorCommandsComplete_windows :
    (∃ s : State, Fits .aggregationWindowEnd ∧ s.clk.beat % 1024 ≠ 0) ∧
    (∃ s : State, Fits .aggregationWindowEnd ∧ s.clk.beat % 1024 = 0 ∧ 0 < s.clk.beat / 1024 ∧ s.gov.closedWin < s.clk.beat / 1024 ∧ s.tr.wafer = true ∧
      s.liveRegions.any (fun r => (s.region r).high) = true ∧ s.clk.m < 192) ∧
    (∃ k, ∃ s : State, Fits .aggregationWindowEnd ∧ s.clk.beat % 1024 = 0 ∧ 0 < s.clk.beat / 1024 ∧ s.gov.closedWin < s.clk.beat / 1024 ∧ s.tr.wafer = true ∧
      s.liveRegions.any (fun r => (s.region r).high) = false ∧
      shortenTo s.clk.m s.gov.mmin s.gov.winMean ((s.telemeter (s.clk.beat - 1024)).windowShut s.liveRegions (s.clk.beat / 1024)).allowNow s.gov.pstat = k) :=
  ⟨⟨{ up with clk := { beat := 1025 } }, by decide⟩,
   ⟨{ up with clk := { beat := 1024 }, regions := [(3, { ctx := 5, cd := .on, high := true })] }, by decide +kernel⟩,
   ⟨_, { up with clk := { beat := 1024, m := 70 } }, by decide, rfl, by decide, by decide, rfl, by decide +kernel, rfl⟩⟩
/-- A module in a pod of two, position 0, with link 1 in service. -/
def inPod (g : Gov) : State :=
  { reducing (stepCtx false) {} with pod := { cfg := some { routes := [(0xFF, 0xFF), (1, 0xFF)] } }, gov := g, clk := { wall := thirds 30 } }
theorem witness_GovernorCommandsComplete_pod :
    (∃ f share power offer u, ∃ s : State, Fits (.headroom f share power offer) ∧ fabricOk f 0 [f.len] s = true ∧
      ({ s.rxCount f with pod := { (s.rxCount f).pod with peers := (s.rxCount f).pod.peers.upd {} f.spos (fun p =>
        { p with share := share, power := power, offer := offer, heard := true, stale := false, headAt := s.clk.wall }) } } : State) = u) ∧
    (∃ cyc, ∃ s : State, Fits (.headroomSend cyc) ∧ s.pod.cfg = none) ∧
    (∃ cyc, ∃ s : State, Fits (.headroomSend cyc) ∧ s.ha.warm = true ∧ s.pod.cfg ≠ none) ∧
    (∃ cyc g, ∃ s : State, Fits (.headroomSend cyc) ∧ s.pod.cfg = some g ∧ s.ha.warm = false ∧ s.gov.share = 0) ∧
    (∃ cyc g a, ∃ s : State, Fits (.headroomSend cyc) ∧ s.pod.cfg = some g ∧ s.ha.warm = false ∧ s.gov.share ≠ 0 ∧
      (s.at cyc).tellPeers.podShare s.ownOffer = a ∧ a ≤ s.gov.podNext.getD s.gov.podAllow) ∧
    (∃ cyc g a, ∃ s : State, Fits (.headroomSend cyc) ∧ s.pod.cfg = some g ∧ s.ha.warm = false ∧ s.gov.share ≠ 0 ∧
      (s.at cyc).tellPeers.podShare s.ownOffer = a ∧ s.gov.podNext.getD s.gov.podAllow < a ∧ s.ownOffer < s.gov.offer) ∧
    (∃ k, ∃ s : State, Fits .podAllowanceHoldEnd ∧ s.gov.keep = some k ∧ k.2 + thirds 10 ≤ s.clk.wall) ∧
    (∃ k, ∃ s : State, Fits .podAllowanceHoldEnd ∧ s.gov.keep = some k ∧ s.clk.wall < k.2 + thirds 10) ∧
    (∃ pos, ∃ s : State, Fits (.headroomTimeout pos) ∧ pos ≠ s.myPos ∧ (s.pod.peers.get {} pos).headAt + thirds 30 ≤ s.clk.wall) ∧
    (∃ pos, ∃ s : State, Fits (.headroomTimeout pos) ∧ s.clk.wall < (s.pod.peers.get {} pos).headAt + thirds 30) :=
  ⟨⟨onWire 0 32, 1000, 900, 80, _, inPod {}, by decide, by decide +kernel, rfl⟩,
   ⟨10, up, by decide⟩,
   ⟨10, { inPod {} with ha := { warm := true } }, by decide⟩,
   ⟨10, _, inPod {}, by decide, rfl, rfl, rfl⟩,
   ⟨10, _, _, inPod { share := 1000, podAllow := 30000 }, by decide, rfl, rfl, by decide, rfl, by decide +kernel⟩,
   ⟨10, _, _, inPod { share := 1000, offer := 990, lastMean := 970000 }, by decide, rfl, rfl, by decide, rfl, by decide +kernel, by decide +kernel⟩,
   ⟨(5, 0), { up with clk := { wall := thirds 10 }, gov := { keep := some (5, 0) } }, by decide⟩,
   ⟨(5, 0), { up with clk := { wall := thirds 10 - 1 }, gov := { keep := some (5, 0) } }, by decide⟩,
   ⟨1, inPod {}, by decide⟩,
   ⟨1, { inPod {} with clk := { wall := thirds 30 - 1 } }, by decide⟩⟩

/-- A module that takes over as position 0 of a pod of two whose buddy is position 1. -/
def takingOver (t : Takeover) : State :=
  { inPod {} with ctxs := [(0, Ctx.system), (5, { stepCtx false with takeover := some t, rsets := [3] })]
                  pod := { cfg := some { buddy := 1, routes := [(0xFF, 0xFF), (1, 0xFF)] } } }
theorem witness_TakeoverCommandsComplete :
    (∃ f pos mask a, ∃ s : State, Fits (.restoreRequest f pos mask) ∧ fabricOk f 0 [12] s = true ∧ restoreAnswer f pos mask (s.rxCount f) = a) ∧
    (∃ f pos last cur seed attempt gnorm counts t, ∃ s : State, Fits (.restoreDone f pos last cur seed attempt gnorm 0 counts) ∧ fabricOk f 0 [296] s = true ∧
      (s.ctx f.ctx).takeover = some t ∧ t.asked = false) ∧
    (∃ f pos last cur seed attempt gnorm units counts t, ∃ s : State, Fits (.restoreDone f pos last cur seed attempt gnorm units counts) ∧
      fabricOk f 0 [296] s = true ∧ (s.ctx f.ctx).takeover = some t ∧ t.asked = false ∧ 0 < units) ∧
    (∃ f pos last cur seed attempt gnorm units counts t, ∃ s : State, Fits (.restoreDone f pos last cur seed attempt gnorm units counts) ∧
      fabricOk f 0 [296] s = true ∧ (s.ctx f.ctx).takeover = some t ∧ t.asked = true ∧ f.spod = s.myPod) ∧
    (∃ pos u, ∃ s : State, Fits (.moduleLost pos) ∧ (s.pod.peers.get {} pos).lost = false ∧ s.silent pos = true ∧ pos ≠ s.myPos ∧
      ({ s with pod := { s.pod with peers := s.pod.peers.upd {} pos (fun p => { p with lost := true }) } } : State) = u ∧ u.affected pos = []) ∧
    (∃ pos c cs u, ∃ s : State, Fits (.moduleLost pos) ∧ (s.pod.peers.get {} pos).lost = false ∧ s.silent pos = true ∧ pos ≠ s.myPos ∧
      ({ s with pod := { s.pod with peers := s.pod.peers.upd {} pos (fun p => { p with lost := true }) } } : State) = u ∧ u.affected pos = c :: cs) ∧
    (∃ pos, ∃ s : State, Fits (.moduleLost pos) ∧ s.silent pos = false) :=
  ⟨⟨onWire 0 12, 1, 15, _, takingOver ⟨1, [1], [], [], false⟩, by decide, by decide +kernel, rfl⟩,
   ⟨onWire 0 296, 1, 7, 0xFFFFFFFF, 0, 0, 0, List.replicate 64 0, ⟨1, [1], [], [], false⟩, takingOver ⟨1, [1], [], [], false⟩, by decide +kernel⟩,
   ⟨onWire 0 296, 1, 7, 0xFFFFFFFF, 0, 0, 0, 12, List.replicate 64 0, ⟨1, [1], [], [], false⟩, takingOver ⟨1, [1], [], [], false⟩, by decide +kernel⟩,
   ⟨onWire 0 296, 1, 7, 0xFFFFFFFF, 0, 0, 0, 12, List.replicate 64 0, ⟨1, [1], [], [], true⟩, takingOver ⟨1, [1], [], [], true⟩, by decide +kernel⟩,
   ⟨1, _, inPod {}, by decide, rfl, by decide +kernel, by decide, rfl, by decide +kernel⟩,
   ⟨1, 5, [], _, takingOver ⟨1, [1], [], [], false⟩, by decide, rfl, by decide +kernel, by decide, rfl, by decide +kernel⟩,
   ⟨1, up, by decide⟩⟩


/-- The number with these lowest 48 bytes. -/
def bytes48 (n : Nat) : List Byte := (leBytes 48 n).reverse
/-- The public key of the test's officer: the curve's generator. -/
def testKey : List Byte := 4#8 :: (bytes48 ecGx ++ bytes48 ecGy)
/-- The first half of the test's signatures. -/
def testR : Nat := 0x2282bc382a2f4dfcb95c3495d7b4fd590ad520b3eb6be4d6ec2f80c4e0f70df87c4ba74a09b553ebb427b58df9d59fca
/-- A block of officer 0 with this second half. -/
def testBlk (k : Nat) : SigBlk := ⟨0, true, bytes48 testR ++ bytes48 k⟩
/-- The officer's signature over CTX_FENCE of context 5 at GEN 7. -/
def fenceBlk : SigBlk := testBlk 0x6a9315a1e4b2db0e7cca8aaa7aee2f00ea8ff049b4edf772e1caff8d243e007f18f59a28954993c0c582965c98b9d4d7
/-- The officer's signature over PROT_CHANGE of context 5 at GEN 7 to the words 2^63, 2, 0, 0. -/
def protBlk : SigBlk := testBlk 0x1822f41439249b1dc0045fd119d37bf3548c3f3be93ba87921b640e7a3ba283bbb2accc7272d70380be36e9fb20571e3
/-- The system ring running beside context 5 as given, with officer 0 enrolled. -/
def sysRing (len : Nat) (x : Ctx) : State :=
  { up with regions := [], ctxs := [(0, { Ctx.system with ring := ringUp len }), (5, x)], tr := { up.tr with officers := [(0, testKey)] } }
/-- A ring descriptor that passes R302. -/
def goodDesc : Words8 := { w0 := 0x1007#64, w1 := 0x40000#64, w2 := 0x10007#64, w3 := 0x40040#64, w4 := 3#64 }
/-- A module whose system ring is in this state with this descriptor. -/
def sysAt (st : RingSt) (d : Words8) : State := { up with ctxs := [(0, { Ctx.system with ring := { desc := d, st := st } }), (5, opened)] }
theorem witness_HostCommandsComplete_ring :
    (∃ cprod qcons readable, ∃ s : State, Fits (.systemRingStart cprod qcons readable) ∧ s.regsOpen = true ∧ s.ha.sren = false ∧
      (s.ctx 0).ring.st ≠ .stopping ∧ s.ha.cxl = true ∧ ringDescOk s.ha.msixSize (s.ctx 0).ring.desc = true) ∧
    (∃ cprod qcons readable, ∃ s : State, Fits (.systemRingStart cprod qcons readable) ∧ s.regsOpen = true ∧ s.ha.sren = false ∧
      (s.ctx 0).ring.st ≠ .stopping ∧ s.ha.cxl = true ∧ ringDescOk s.ha.msixSize (s.ctx 0).ring.desc = false) ∧
    (∃ cprod qcons readable, ∃ s : State, Fits (.systemRingStart cprod qcons readable) ∧ s.regsOpen = true ∧ s.ha.sren = false ∧
      (s.ctx 0).ring.st = .stopping) ∧
    (∃ s : State, Fits .systemRingStop ∧ s.regsOpen = true ∧ s.ha.sren = true ∧ (s.ctx 0).ring.st = .running) ∧
    (∃ s : State, Fits .systemRingStopDone ∧ (s.ctx 0).ring.st = .stopping ∧ s.long.any (fun l => decide (l.src = .ring 0)) = false ∧
      (s.ctx 0).ring.backlog = [] ∧ (s.ctx 0).ring.err = 0 ∧ ringDescOk s.ha.msixSize (s.ctx 0).ring.desc = true ∧ s.ha.srenAgain = false) ∧
    (∃ s : State, Fits .systemRingStopDone ∧ s.long.any (fun l => decide (l.src = .ring 0)) = true) ∧
    (∃ off len value, ∃ s : State, Fits (.registerWrite off len value) ∧ (len = 4 ∨ len = 8) ∧ off % len = 0 ∧ 0x40 ≤ off ∧ off < 0x80 ∧
      (s.ctx 0).ring.st = .disabled ∧ s.regsOpen = true) ∧
    (∃ off len value, ∃ s : State, Fits (.registerWrite off len value) ∧ (off < 0x40 ∨ 0x80 ≤ off ∨ (s.ctx 0).ring.st ≠ .disabled)) :=
  ⟨⟨0, 0, true, sysAt .disabled goodDesc, by decide +kernel⟩, ⟨0, 0, true, sysAt .disabled {}, by decide +kernel⟩,
   ⟨0, 0, true, sysAt .stopping goodDesc, by decide +kernel⟩,
   ⟨{ sysAt .running goodDesc with ha := { up.ha with sren := true } }, by decide +kernel⟩, ⟨sysAt .stopping goodDesc, by decide +kernel⟩,
   ⟨{ sysAt .stopping goodDesc with long := [⟨0, .ring 0, 0x0102, 9, 0, 5, false, .ctxClose, 5, 0⟩] }, by decide +kernel⟩,
   ⟨0x7C, 4, 9, sysAt .disabled {}, by decide +kernel⟩, ⟨0x80, 8, 9, sysAt .disabled {}, by decide +kernel⟩⟩
theorem witness_HostCommandsComplete_lines :
    (∃ ctx cyc cprod qcons readable undef, ∃ s : State, Fits (.headLineSnoop ctx cyc cprod qcons readable undef) ∧ (s.ctx ctx).ring.st = .running ∧
      s.ha.cxl = true) ∧
    (∃ ctx cyc cprod qcons readable undef, ∃ s : State, Fits (.headLineReread ctx cyc cprod qcons readable undef) ∧ s.watched = true ∧
      (s.ctx ctx).ring.st = .running) ∧
    (∃ ctx cprod qcons, ∃ s : State, idxDiff cprod (s.ctx ctx).ring.ccons ≤ 2 ^ (s.ctx ctx).ring.csize ∧
      idxDiff (s.ctx ctx).ring.qprod qcons ≤ 2 ^ (s.ctx ctx).ring.qsize ∧ (s.ctx ctx).ring.st = .running) ∧
    (∃ ctx ext page, ∃ s : State, Fits (.farPageRequestRepost ctx ext page) ∧ s.ha.far ≠ []) ∧
    (∃ vec, ∃ s : State, Fits (.msixUnmask vec) ∧ s.ha.msixMask.testBit vec = true ∧ s.ha.msixPend.testBit vec = true) ∧
    (∃ ways, ∃ s : State, Fits (.hdmDecoderCommit ways) ∧ s.ha.cxl = true) ∧
    (∃ s : State, Fits .hostLinkReset ∧ s.ha.sren = true) :=
  ⟨⟨5, 10, 128, 0, true, [], { sysAt .disabled {} with ctxs := [(5, { opened with ring := { desc := goodDesc, st := .running } })] }, by decide +kernel⟩,
   ⟨0, 10, 128, 0, true, [(0x0D01, hdr 0 5 1)], sysAt .running goodDesc, by decide +kernel⟩, ⟨0, 128, 0, sysAt .running goodDesc, by decide +kernel⟩,
   ⟨5, 3, 1, { up with ha := { up.ha with far := [⟨5, 3, 1, 0, 1024⟩] } }, by decide +kernel⟩,
   ⟨255, { up with ha := { up.ha with msixPend := 2 ^ 255 } }, by decide +kernel⟩, ⟨1, up, by decide +kernel⟩,
   ⟨{ up with ha := { up.ha with sren := true } }, by decide +kernel⟩⟩
/-- A module whose extent 3 of 2 pages of context 5 shows at window page 4; word 1 of its page 0 is in error as given. -/
def windowed (err : Nat) : State :=
  (({ up with scs := [(0, { serving := true, win := [(3, 5)], errs := if err = 0 then [] else [(1, err)] })]
              ha := { up.ha with hdm := true } } : State).setExt 3 ⟨5, 0, true, 2, 0⟩).setPage 3 ⟨5, 0, true, 2, 0⟩ 0 (storePage 0 false)
theorem witness_HostCommandsComplete_window :
    (∃ addr ext e l u v a b, ∃ s : State, Fits (.windowRead addr) ∧ s.ha.cxl = true ∧ s.ha.hdm = true ∧
      s.windowAt (addr / 64 * 64 / pageBytes) = some (ext, e, l) ∧
      s.windowWord ext e (l * pageBytes + addr / 64 * 64 % pageBytes) (addr / 64 * 64) = (u, a, true) ∧
      u.windowWord ext e (l * pageBytes + addr / 64 * 64 % pageBytes + 32) (addr / 64 * 64 + 32) = (v, b, true)) ∧
    (∃ addr, ∃ s : State, Fits (.windowRead addr) ∧ s.ha.cxl = true ∧ s.ha.hdm = true ∧ s.windowAt (addr / 64 * 64 / pageBytes) = none) ∧
    (∃ addr data ext e l, ∃ s : State, Fits (.windowWrite addr (2 ^ 64 - 1) data) ∧ s.ha.cxl = true ∧ s.ha.hdm = true ∧
      s.windowAt (addr / 64 * 64 / pageBytes) = some (ext, e, l)) ∧
    (∃ addr enable data ext e l u, ∃ s : State, Fits (.windowWrite addr enable data) ∧ s.ha.cxl = true ∧ s.ha.hdm = true ∧
      s.windowAt (addr / 64 * 64 / pageBytes) = some (ext, e, l) ∧ 0 < enable ∧ enable < 2 ^ 32 - 1 ∧
      s.checkStore ext e (l * pageBytes + addr / 64 * 64 % pageBytes) = (u, none)) ∧
    (∃ addr enable data, ∃ s : State, Fits (.windowWrite addr enable data) ∧ s.ha.cxl = true ∧ s.ha.hdm = true ∧
      s.windowAt (addr / 64 * 64 / pageBytes) = none) :=
  ⟨⟨4 * pageBytes, 3, ⟨5, 0, true, 2, 0⟩, 0, windowed 0, windowed 0, List.replicate 32 0, List.replicate 32 0, windowed 0, by decide +kernel⟩,
   ⟨6 * pageBytes, windowed 0, by decide +kernel⟩,
   ⟨4 * pageBytes, List.replicate 64 7, 3, ⟨5, 0, true, 2, 0⟩, 0, windowed 0, by decide +kernel⟩,
   ⟨4 * pageBytes, 1, List.replicate 64 7, 3, ⟨5, 0, true, 2, 0⟩, 0, windowed 0, windowed 0, by decide +kernel⟩,
   ⟨3 * pageBytes, 1, List.replicate 64 7, windowed 0, by decide +kernel⟩⟩

/-- Open, at generation 7. -/
def openAt7 : Ctx := { st := .opened, gen := 7, w0 := 0x8000000000000000#64, w1 := 2#64 }
theorem witness_ContextCommandsComplete_open :
    (∃ h d t, ∃ s : State, Fits (.ctxOpen h d) ∧ served 0x0101 [3] true h s = true ∧ taken s h = t ∧ h.rsv = true ∧ h.ctx ≠ 0 ∧
      ringDescOk t.ha.msixSize d = true ∧ (t.ctx h.ctx).st = .closed ∧ (t.ctx h.ctx).queuedOpen = none ∧ (t.ctx h.ctx).opening = none) ∧
    (∃ h d t, ∃ s : State, Fits (.ctxOpen h d) ∧ served 0x0101 [3] true h s = true ∧ taken s h = t ∧ h.rsv = true ∧ h.ctx ≠ 0 ∧
      ringDescOk t.ha.msixSize d = true ∧ (t.ctx h.ctx).st = .closing ∧ (t.ctx h.ctx).queuedOpen = none ∧ (t.ctx h.ctx).opening = none) ∧
    (∃ h d t, ∃ s : State, Fits (.ctxOpen h d) ∧ served 0x0101 [3] true h s = true ∧ taken s h = t ∧ (h.ctx = 0 ∨ (t.ctx h.ctx).st = .ungranted)) ∧
    (∃ h t, ∃ s : State, Fits (.ctxClose h) ∧ served 0x0102 [1] true h s = true ∧ taken s h = t ∧ h.rsv = true ∧ h.ctx ≠ 0 ∧
      ((t.ctx h.ctx).st = .opened ∨ (t.ctx h.ctx).st = .fenced)) ∧
    (∃ h t, ∃ s : State, Fits (.ctxClose h) ∧ served 0x0102 [1] true h s = true ∧ taken s h = t ∧ h.rsv = true ∧ h.ctx ≠ 0 ∧
      ((t.ctx h.ctx).st = .closed ∨ (t.ctx h.ctx).st = .ungranted)) ∧
    (∃ h first count x t, ∃ s : State, Fits (.ctxRead h first count x) ∧ served 0x0104 [1] true h s = true ∧ taken s h = t ∧ h.rsv = true ∧
      t.refBad h.src x = none ∧ t.ha.cxl = true ∧ 1 ≤ count ∧ first + count ≤ 1024) :=
  ⟨⟨hdr 0 5 3, goodDesc, _, sysRing 3 { st := .closed }, by decide +kernel, by decide +kernel, rfl, by decide +kernel⟩,
   ⟨hdr 0 5 3, goodDesc, _, sysRing 3 { st := .closing }, by decide +kernel, by decide +kernel, rfl, by decide +kernel⟩,
   ⟨hdr 0 5 3, goodDesc, _, sysRing 3 {}, by decide +kernel, by decide +kernel, rfl, by decide +kernel⟩,
   ⟨hdr 0 5 1, _, sysRing 1 opened, by decide +kernel, by decide +kernel, rfl, by decide +kernel⟩,
   ⟨hdr 0 5 1, _, sysRing 1 { st := .closed }, by decide +kernel, by decide +kernel, rfl, by decide +kernel⟩,
   ⟨hdr 0 0 1, 1023, 1, ⟨0, 0, 64⟩, _, dataAt 1 opened, by decide +kernel, by decide +kernel, rfl, by decide +kernel⟩⟩
theorem witness_ContextCommandsComplete_signed :
    (∃ h gen b t, ∃ s : State, Fits (.ctxFence h gen b) ∧ served 0x0103 [5] true h s = true ∧ taken s h = t ∧ h.rsv = true ∧ h.ctx ≠ 0 ∧
      t.tr.blocksOk none (t.tr.statement 2 h.ctx gen []) [b] = true ∧ gen = (t.ctx h.ctx).gen.toNat ∧ (t.ctx h.ctx).st = .opened ∧
      (t.ctx h.ctx).fencing = none) ∧
    (∃ h gen b t, ∃ s : State, Fits (.ctxFence h gen b) ∧ served 0x0103 [5] true h s = true ∧ taken s h = t ∧ h.ctx ≠ 0 ∧
      t.tr.blocksOk none (t.tr.statement 2 h.ctx gen []) [b] = false) ∧
    (∃ h ctx gen n0 n1 n2 n3 blks t u, ∃ s : State, Fits (.protChange h ctx gen n0 n1 n2 n3 blks) ∧
      served 0x0B01 ([6, 10].filter (fun l => decide (l = 2 + 4 * blks.length))) true h s = true ∧ taken s h = t ∧ h.rsv = true ∧ ctx ≠ 0 ∧ ctx < 1024 ∧
      h.mgmt = false ∧ t.tr.blocksOk none (t.tr.statement 1 ctx gen (sha384 (newWords n0 n1 n2 n3))) blks = true ∧
      (if widening (t.ctx ctx).grant ⟨n0.toNat, n1.toNat, n2.toNat, n3.toNat⟩ = true then 2 else 1) ≤ officersIn blks ∧ newWordsOk n0 n2 = true ∧
      gen = (t.ctx ctx).gen.toNat ∧
      (t.applyGrant ctx n0 n1 n2 n3).protRec h 1 ctx ((t.ctx ctx).gen + 1).toNat blks
        (widening (t.ctx ctx).grant ⟨n0.toNat, n1.toNat, n2.toNat, n3.toNat⟩) (newWords n0 n1 n2 n3) = u ∧
      (bit n0.toNat 63 = true ∨ (t.ctx ctx).st = .closed) ∧ u.narrowOrders ctx 0 = []) ∧
    (∃ h ctx gen n0 n1 n2 n3 blks t, ∃ s : State, Fits (.protChange h ctx gen n0 n1 n2 n3 blks) ∧
      served 0x0B01 ([6, 10].filter (fun l => decide (l = 2 + 4 * blks.length))) true h s = true ∧ taken s h = t ∧ ctx ≠ 0 ∧ h.mgmt = false ∧
      (t.tr.blocksOk none (t.tr.statement 1 ctx gen (sha384 (newWords n0 n1 n2 n3))) blks = false ∨
        officersIn blks < if widening (t.ctx ctx).grant ⟨n0.toNat, n1.toNat, n2.toNat, n3.toNat⟩ = true then 2 else 1)) :=
  ⟨⟨hdr 0 5 5, 7, fenceBlk, _, sysRing 5 openAt7, by decide +kernel, by decide +kernel, rfl, by decide +kernel⟩,
   ⟨hdr 0 5 5, 7, protBlk, _, sysRing 5 openAt7, by decide +kernel, by decide +kernel, rfl, by decide +kernel⟩,
   ⟨hdr 0 5 6, 5, 7, 0x8000000000000000#64, 2#64, 0, 0, [protBlk], _, _, sysRing 6 openAt7, by decide +kernel, by decide +kernel, rfl, rfl, by decide, by decide,
     rfl, by decide +kernel, by decide +kernel, by decide +kernel, by decide +kernel, rfl, .inl (by decide +kernel), by decide +kernel⟩,
   ⟨hdr 0 5 6, 5, 7, 0x8000000000000000#64, 3#64, 0, 0, [protBlk], _, sysRing 6 openAt7, by decide +kernel, by decide +kernel, rfl, by decide +kernel⟩⟩

/-- A context that may hold regions 0 to 63, a group block, and four slots and pages. -/
def quotas : Ctx := { st := .opened, w0 := 0xF000000000000000#64, w1 := 0xFFFFFFFFFFFFFFFF#64, w2 := 0xFFFF000400050000#64 }
/-- An order for a resource with its command. -/
def ordered (kind idx : Nat) (free : Bool) (beat : Nat) : BindOrd := ⟨some 4, kind, idx, 5, free, beat, none⟩
theorem witness_BindingCommandsComplete_orders :
    (∃ h region t, ∃ s : State, Fits (.regionBind h region 0) ∧ served 0x0201 [1] true h s = true ∧ taken s h = t ∧ h.rsv = true ∧
      (t.ctx h.ctx).mayHold region = true ∧ region < 80 ∧ (t.region region).st = .active ∧ t.willHold 0 region = some 0 ∧ h.ctx ≠ 0) ∧
    (∃ h region t, ∃ s : State, Fits (.regionBind h region 0) ∧ served 0x0201 [1] true h s = true ∧ taken s h = t ∧ region < 80 ∧
      (t.ctx h.ctx).mayHold region = false) ∧
    (∃ h ext e t, ∃ s : State, Fits (.extentBind h ext 0) ∧ served 0x0203 [1] false h s = true ∧ taken s h = t ∧ h.rsv = true ∧ h.sys = true ∧
      t.ext ext = some e ∧ e.kind ≠ 6 ∧ t.willHold 1 ext = some 0 ∧ h.ctx ≠ 0 ∧ t.pagesToBe h.ctx + t.storePages ext e ≤ (t.ctx h.ctx).pageQ) ∧
    (∃ h stream t, ∃ s : State, Fits (.slotBind h stream 0) ∧ served 0x0204 [1] false h s = true ∧ taken s h = t ∧ h.rsv = true ∧ h.sys = true ∧
      stream < 1536 ∧ (t.sc (stream / 64)).serving = true ∧ t.willHold 2 stream = some 0 ∧ h.ctx ≠ 0 ∧ t.slotsToBe h.ctx + 1 ≤ (t.ctx h.ctx).slotQ) ∧
    (∃ h blk t, ∃ s : State, Fits (.groupBind h blk 0) ∧ served 0x0205 [1] true h s = true ∧ taken s h = t ∧ h.rsv = true ∧
      (t.ctx h.ctx).gq = true ∧ blk < 32 ∧ t.willHold 3 blk = some 0 ∧ h.ctx ≠ 0 ∧ t.groupToBe h.ctx = none) ∧
    (∃ h sc kind pages p t, ∃ s : State, Fits (.extentCreate h sc kind 0 pages 0) ∧ served 0x0202 [1] false h s = true ∧ taken s h = t ∧ h.rsv = true ∧
      sc < 24 ∧ (t.sc sc).serving = true ∧ kind ≤ 5 ∧ kind ≠ 2 ∧ 1 ≤ pages ∧ (t.freeIndex sc).isSome = true ∧
      (t.freeMap sc pages).isSome = true ∧ t.planExtent h.ctx sc kind pages 0 false false = some p) ∧
    (∃ h sc kind pages t, ∃ s : State, Fits (.extentCreate h sc kind 0 pages 0) ∧ served 0x0202 [1] false h s = true ∧ taken s h = t ∧
      t.freeMap sc pages = none) ∧
    (∃ h sc kind pages t, ∃ s : State, Fits (.extentCreate h sc kind 0 pages 0) ∧ served 0x0202 [1] false h s = true ∧ taken s h = t ∧ h.rsv = true ∧
      sc < 24 ∧ (t.sc sc).serving = true ∧ kind ≤ 5 ∧ kind ≠ 2 ∧ 1 ≤ pages ∧ (t.freeIndex sc).isSome = true ∧ (t.freeMap sc pages).isSome = true ∧
      t.planExtent h.ctx sc kind pages 0 false false = none) ∧
    (∃ h stream t, ∃ s : State, Fits (.slotBind h stream 2) ∧ served 0x0204 [1] false h s = true ∧ taken s h = t ∧ h.rsv = true ∧
      stream < 1536 ∧ (t.sc (stream / 64)).serving = true ∧ t.willHold 2 stream = some h.ctx) :=
  ⟨⟨hdr 0 5 1, 7, _, dataAt 1 quotas, by decide +kernel, by decide +kernel, rfl, by decide +kernel⟩,
   ⟨hdr 0 5 1, 7, _, dataAt 1 opened, by decide +kernel, by decide +kernel, rfl, by decide +kernel⟩,
   ⟨hdr 0 5 1, 0, ⟨0, 0, false, 1, 0⟩, _, dataAt 1 quotas, by decide +kernel, by decide +kernel, rfl, by decide +kernel⟩,
   ⟨hdr 0 5 1, 9, _, dataAt 1 quotas, by decide +kernel, by decide +kernel, rfl, by decide +kernel⟩,
   ⟨hdr 0 5 1, 9, _, dataAt 1 quotas, by decide +kernel, by decide +kernel, rfl, by decide +kernel⟩,
   ⟨hdr 5 5 1, 0, 1, 2, (2, ⟨1, false, 2, 2, [2, 3], 0, 0⟩), _, userAt 1 quotas, by decide +kernel, by decide +kernel, rfl, by decide +kernel⟩,
   ⟨hdr 5 5 1, 0, 1, 65535, _, userAt 1 quotas, by decide +kernel, by decide +kernel, rfl, by decide +kernel⟩,
   ⟨hdr 5 5 1, 0, 1, 2, _, userAt 1 opened, by decide +kernel, by decide +kernel, rfl, by decide +kernel⟩,
   ⟨hdr 5 5 1, 9, _, { userAt 1 quotas with scs := [(0, { serving := true, slots := [(9, { ctx := 5 })] })] }, by decide +kernel, by decide +kernel, rfl,
     by decide +kernel⟩⟩
theorem witness_BindingCommandsComplete_effects :
    (∃ kind idx b bs id u, ∃ s : State, Fits (.bindingEffect kind idx) ∧ s.ordersFor kind idx = b :: bs ∧ s.clk.cycle = 0 ∧ b.beat ≤ s.clk.beat ∧
      b.kind ≠ 0 ∧ b.long = some id ∧
      ({ s.applyBind b with binds := ((s.applyBind b).binds.erase b).map (fun o =>
        if o.kind = kind ∧ o.idx = idx then { o with beat := max o.beat ((s.applyBind b).clk.beat + 1) } else o) } : State) = u ∧
      u.binds.any (fun o => decide (o.long = some id)) = false) ∧
    (∃ idx b bs, ∃ s : State, Fits (.bindingEffect 0 idx) ∧ s.ordersFor 0 idx = b :: bs ∧ s.clk.cycle = 0 ∧ b.beat ≤ s.clk.beat ∧ b.kind = 0 ∧
      s.resetComes idx = false ∧ s.tr.tests.any (fun t => t.running && decide (uClass t.unit = 3) && decide (uRegion t.unit = idx)) = true) ∧
    (∃ idx b bs id u, ∃ s : State, Fits (.bindingEffect 0 idx) ∧ s.ordersFor 0 idx = b :: bs ∧ s.clk.cycle = 0 ∧ b.beat ≤ s.clk.beat ∧
      b.kind = 0 ∧ b.long = some id ∧ s.resetComes idx = false ∧
      s.tr.tests.any (fun t => t.running && decide (uClass t.unit = 3) && decide (uRegion t.unit = idx)) = false ∧
      ({ (s.dropRegionTests idx).applyBind b with binds := (((s.dropRegionTests idx).applyBind b).binds.erase b).map (fun o =>
        if o.kind = 0 ∧ o.idx = idx then { o with beat := max o.beat (((s.dropRegionTests idx).applyBind b).clk.beat + 1) } else o) } : State) = u ∧
      u.binds.any (fun o => decide (o.long = some id)) = false) ∧
    (∃ kind idx b bs, ∃ s : State, Fits (.bindingEffect kind idx) ∧ s.ordersFor kind idx = b :: bs ∧ s.clk.beat < b.beat) :=
  let o : BindOrd := ordered 0 7 false 6
  ⟨⟨2, 9, ordered 2 9 false 6, [], 4, _, { dataAt 1 quotas with clk := { beat := 6 }, binds := [ordered 2 9 false 6] }, by decide, by decide +kernel, rfl, by decide, by decide, rfl, rfl,
     by decide +kernel⟩,
   ⟨7, o, [], { up with clk := { beat := 6 }, binds := [o], tr := { up.tr with tests := [{ long := 4, unit := uidCluster 7 2, slot := 0, corner := 0, ref := ⟨0, 0, 64⟩, running := true }] } }, by decide +kernel⟩,
   ⟨7, o, [], 4, _, { up with clk := { beat := 6 }, binds := [o] }, by decide, by decide +kernel, rfl, by decide, rfl, rfl, rfl, rfl, rfl, by decide +kernel⟩,
   ⟨0, 7, ordered 0 7 false 6, [], { up with clk := { beat := 5 }, binds := [ordered 0 7 false 6] }, by decide +kernel⟩⟩


/-- `dataAt`, with page 0 of context 5's extent a far page as given. -/
def farAt (p : Bool) : State := (userAt 1 { opened with w0 := 0xA020000000000000#64 }).setPage 1 ⟨5, 0, false, 1, 1⟩ 0 (farPage 0 p)
/-- `dataAt`, with this slot as stream 9. -/
def slotAt (x : Slot) (len : Nat) : State := (userAt len opened).onSc 0 (fun k => { k with slots := [(9, x)] })
/-- A read stream of two flits of extent 1. -/
def arming : Words8 := { twoFlits false with w0 := (twoFlits false).w0 ||| BitVec.ofNat 64 (2 ^ 63 + 2 ^ 44) }
/-- A pair from its second part. -/
theorem pair_of {α β : Type} {p : α × β} {b : β} (h : p.2 = b) : p = (p.1, b) := Prod.ext rfl h
theorem witness_StoreCommandsComplete_pages :
    (∃ h ext page addr e t, ∃ s : State, Fits (.pageMapFar h ext page 2 addr) ∧ Comes 0x0301 [1] false h s t ∧ (t.ctx h.ctx).farPg = true ∧
      t.ext ext = some e ∧ e.ctx = h.ctx ∧ page < e.pages ∧ pgFar (t.pageEnt ext e page) = true ∧ pgP (t.pageEnt ext e page) = false ∧
      addr % pageBytes = 0 ∧ addr < 2 ^ 52) ∧
    (∃ h ext page e t, ∃ s : State, Fits (.pageMapFar h ext page 1 0) ∧ Comes 0x0301 [1] false h s t ∧ (t.ctx h.ctx).farPg = true ∧
      t.ext ext = some e ∧ e.ctx = h.ctx ∧ page < e.pages ∧ pgFar (t.pageEnt ext e page) = true) ∧
    (∃ h ext page e n t, ∃ s : State, Fits (.pageRetire h ext page) ∧ Comes 0x0302 [1] false h s t ∧ t.ext ext = some e ∧ e.ctx = h.ctx ∧ page < e.pages ∧
      pgFar (t.pageEnt ext e page) = false ∧ (t.sc (extSc ext)).slots.any (fun p => p.2.atPage ext page) = false ∧ t.sparePage (extSc ext) = some n) ∧
    (∃ h ext page e t, ∃ s : State, Fits (.pageRetire h ext page) ∧ Comes 0x0302 [1] false h s t ∧ t.ext ext = some e ∧ e.ctx = h.ctx ∧ page < e.pages ∧
      pgFar (t.pageEnt ext e page) = false ∧ (t.sc (extSc ext)).slots.any (fun p => p.2.atPage ext page) = true) ∧
    (∃ h src dst soff doff len x y t, ∃ s : State, Fits (.extentCopy h src dst soff doff len) ∧ Comes 0x0303 [1] false h s t ∧ t.ext src = some x ∧
      t.ext dst = some y ∧ x.ctx = h.ctx ∧ y.ctx = h.ctx ∧ x.kind < 3 ∧ y.kind = 0 ∧ soff % 64 = 0 ∧ doff % 64 = 0 ∧ x.holds soff (64 * len) = true ∧
      y.holds doff (64 * len) = true ∧ t.rangeHere src x soff (64 * len) = true ∧ t.rangeHere dst y doff (64 * len) = true) ∧
    (∃ src soff len b u, ∃ s : State, (s.spendIo src soff (64 * len)).readExt src (s.extD src) soff (64 * len) = (u, .ok b)) ∧
    (∃ h ext page t, ∃ s : State, Fits (.pageRetire h ext page) ∧ Comes 0x0302 [1] false h s t ∧ t.ownExt h ext = false) :=
  ⟨⟨hdr 5 5 1, 1, 0, 3 * pageBytes, ⟨5, 0, false, 1, 1⟩, _, farAt false, by decide +kernel, ⟨by decide +kernel, rfl, rfl⟩, by decide +kernel⟩,
   ⟨hdr 5 5 1, 1, 0, ⟨5, 0, false, 1, 1⟩, _, farAt false, by decide +kernel, ⟨by decide +kernel, rfl, rfl⟩, by decide +kernel⟩,
   ⟨hdr 5 5 1, 1, 0, ⟨5, 0, false, 1, 1⟩, 24512, _, userAt 1 opened, by decide +kernel, ⟨by decide +kernel, rfl, rfl⟩, by decide +kernel⟩,
   ⟨hdr 5 5 1, 1, 0, ⟨5, 0, false, 1, 1⟩, _, slotAt { ctx := 5, desc := arming, st := .running } 1, by decide +kernel, ⟨by decide +kernel, rfl, rfl⟩, by decide +kernel⟩,
   ⟨hdr 5 5 1, 1, 1, 0, 128, 1, ⟨5, 0, false, 1, 1⟩, ⟨5, 0, false, 1, 1⟩, _, userAt 1 opened, by decide +kernel, ⟨by decide +kernel, rfl, rfl⟩, by decide +kernel⟩,
   ⟨1, 0, 1, List.replicate 64 0, _, dataAt 1 opened, pair_of (by decide +kernel)⟩,
   ⟨hdr 5 5 1, 0, 0, _, userAt 1 opened, by decide +kernel, ⟨by decide +kernel, rfl, rfl⟩, by decide +kernel⟩⟩
theorem witness_StoreCommandsComplete_streams :
    (∃ h stream d t, ∃ s : State, Fits (.streamArm h stream d) ∧ Comes 0x0304 [3] false h s t ∧ t.streamThere stream = true ∧
      t.armRefusal h.ctx (stream / 64) (stream % 64) d = none) ∧
    (∃ h stream d st t, ∃ s : State, Fits (.streamArm h stream d) ∧ Comes 0x0304 [3] false h s t ∧ t.streamThere stream = true ∧
      t.armRefusal h.ctx (stream / 64) (stream % 64) d = some st ∧ st = stBusy) ∧
    (∃ h stream t, ∃ s : State, Fits (.streamResume h stream) ∧ Comes 0x0305 [1] false h s t ∧ t.streamThere stream = true ∧ t.ownSlot h stream = true ∧
      (t.streamSlot stream).st = .haltErr) ∧
    (∃ h stream t, ∃ s : State, Fits (.streamResume h stream) ∧ Comes 0x0305 [1] false h s t ∧ t.streamThere stream = true ∧ t.ownSlot h stream = true ∧
      (t.streamSlot stream).st ≠ .haltErr) ∧
    (∃ h stream t, ∃ s : State, Fits (.streamAbort h stream) ∧ Comes 0x0306 [1] false h s t ∧ t.streamThere stream = true ∧ t.ownSlot h stream = true ∧
      (t.streamSlot stream).live = true) ∧
    (∃ h first count x t, ∃ s : State, Fits (.streamStatus h first count x) ∧ Comes 0x0307 [1] false h s t ∧ 1 ≤ count ∧ count ≤ 64 ∧
      (∀ n, n < count → t.streamThere (first + n) = true ∧ t.ownSlot h (first + n) = true) ∧ t.refBad h.src x = none ∧ t.ha.cxl = true) ∧
    (∃ h stream t, ∃ s : State, Fits (.streamAbort h stream) ∧ Comes 0x0306 [1] false h s t ∧ t.streamThere stream = true ∧ t.ownSlot h stream = false) :=
  ⟨⟨hdr 5 5 3, 9, arming, _, slotAt { ctx := 5 } 3, by decide +kernel, ⟨by decide +kernel, rfl, rfl⟩, by decide +kernel⟩,
   ⟨hdr 5 5 3, 9, arming, stBusy, _, slotAt { ctx := 5, desc := arming, st := .running } 3, by decide +kernel, ⟨by decide +kernel, rfl, rfl⟩, by decide +kernel⟩,
   ⟨hdr 5 5 1, 9, _, slotAt { ctx := 5, desc := arming, st := .haltErr } 1, by decide +kernel, ⟨by decide +kernel, rfl, rfl⟩, by decide +kernel⟩,
   ⟨hdr 5 5 1, 9, _, slotAt { ctx := 5, desc := arming, st := .done } 1, by decide +kernel, ⟨by decide +kernel, rfl, rfl⟩, by decide +kernel⟩,
   ⟨hdr 5 5 1, 9, _, slotAt { ctx := 5, desc := arming, st := .running } 1, by decide +kernel, ⟨by decide +kernel, rfl, rfl⟩, by decide +kernel⟩,
   ⟨hdr 5 5 1, 9, 1, ⟨1, 0, 64⟩, _, slotAt { ctx := 5 } 1, by decide +kernel, ⟨by decide +kernel, rfl, rfl⟩, by decide, by decide,
     fun n hn => by (obtain rfl : n = 0 := by omega); exact ⟨by decide +kernel, by decide +kernel⟩, by decide +kernel, by decide +kernel⟩,
   ⟨hdr 5 5 1, 8, _, slotAt { ctx := 5 } 1, by decide +kernel, ⟨by decide +kernel, rfl, rfl⟩, by decide +kernel⟩⟩

/-- END as a slot. -/
def endSlot : Nat := 6 * 2 ^ 120
/-- A plan set of this kind: one page for tile 192, END in both sections. -/
def oneSet (kind : Nat) : PlanSet :=
  { kind := kind, freeze := sha64 [], holdLimit := 65536
    pages := [(192, 0, [2 ^ 48 + 2 * 2 ^ 36 + 2 ^ 24 + 3 * 2 ^ 12 + 1, 2 ^ 100 * 0, endSlot, endSlot])], routes := [], steps := [2 ^ 25 + 0]
    streams := [], reds := [], order := [], subs := [] }
/-- A plan set image without records: one empty section of streams. -/
def bareImage : List Byte :=
  leBytes 4 0x4C575053 ++ leBytes 2 1 ++ [0, 1] ++ leBytes 8 0 ++ leBytes 4 0 ++ leBytes 12 0 ++ [4, 0, 0, 0] ++ leBytes 4 0 ++ leBytes 8 0
/-- A plan set with nothing in it. -/
def bareSet : PlanSet := { kind := 0, freeze := 0, holdLimit := 65536, pages := [], routes := [], steps := [], streams := [], reds := [], order := [], subs := [] }
/-- Context 5 with this set under handle 1 and this run. -/
def planCtx (p : PlanSet) (r : Option Run) : Ctx := { st := .opened, sets := [(1, some p)], nextSet := 2, run := r }
/-- Zero bytes read as 0. -/
theorem ofLE_zeros (n : Nat) : ofLE (List.replicate n 0#8) = 0 := by
  induction n with
  | zero => rfl
  | succ n ih => simp [List.replicate_succ, ofLE, ih]
theorem foldl_nil {α : Type} (f : Tab α → Nat → Tab α) (h : ∀ k, f [] k = []) (l : List Nat) : l.foldl f [] = [] := by
  induction l with
  | nil => rfl
  | cons a l ih => simp [h, ih]
theorem imgF_zeros (n off k : Nat) : imgF (List.replicate n 0#8) off k = 0 := by
  rw [imgF, List.drop_replicate, List.take_replicate, ofLE_zeros]
/-- An image of zeros is a library without routines. -/
theorem zeros_formOk (n : Nat) (h : n = 4096) : libFormOk (List.replicate n 0#8) = true := by
  rw [libFormOk, Bool.and_eq_true]; simp only [imgF_zeros, List.length_replicate, h]
  exact ⟨rfl, List.all_eq_true.2 (fun _ _ => rfl)⟩
theorem zeros_ok (n : Nat) : libraryOk (loadLib (List.replicate n 0#8) {}).routines ((loadLib (List.replicate n 0#8) {}).lib.get 0) = true := by
  have e : (loadLib (List.replicate n 0#8) {}).routines = [] := by
    unfold loadLib; dsimp only; generalize List.range 256 = l
    refine foldl_nil _ (fun k => ?_) l
    simp only [List.drop_replicate, List.take_replicate, ofLE_zeros]; rfl
  rw [e]; rfl
/-- `dataAt` with the first word of extent 1 uncorrectable. -/
def badAt : State := (dataAt 1 opened).onSc 0 (fun k => { k with errs := [(65536, 2)] })
theorem witness_PlanCommandsComplete_loads :
    (∃ h m t, ∃ s : State, Fits (.spMapLoad h m) ∧ Comes 0x0401 [3] false h s t ∧ m.loadable = true ∧ t.planRuns h.ctx = false) ∧
    (∃ h m t, ∃ s : State, Fits (.spMapLoad h m) ∧ Comes 0x0401 [3] false h s t ∧ m.loadable = true ∧ t.planRuns h.ctx = true) ∧
    (∃ h x t, ∃ s : State, Fits (.libLoad h x) ∧ Comes 0x0402 [1] false h s t ∧ t.refBad h.src x = none ∧ t.ha.cxl = true ∧ t.planRuns h.ctx = false) ∧
    (∃ x c tag b u, ∃ s : State, s.readRef x c tag = (u, .ok b)) ∧
    (∃ x c tag d u, ∃ s : State, s.readRef x c tag = (u, .error d)) ∧
    (∃ b, libFormOk b = true ∧ libraryOk (loadLib b {}).routines ((loadLib b {}).lib.get 0) = true) ∧
    (∃ h x t, ∃ s : State, Fits (.planLoad h x) ∧ Comes 0x0403 [1] false h s t ∧ t.refBad h.src x = none ∧ t.ha.cxl = true ∧ t.planRuns h.ctx = false) ∧
    (∃ c b p, ∃ s : State, readSet ((s.lead c).getD 0) b = some p) ∧
    (∃ c p, ∃ s : State, p.pages ≠ [] ∧ s.setFine c p = true ∧ (s.ctx c).sets.length < 64 ∧ s.routesShort c p.allRoutes = false) ∧
    (∃ c b, ∃ s : State, readSet ((s.lead c).getD 0) b = none) :=
  ⟨⟨hdr 5 5 3, {}, _, userAt 3 opened, by decide +kernel, ⟨by decide +kernel, rfl, rfl⟩, by decide +kernel⟩,
   ⟨hdr 5 5 3, {}, _, userAt 3 (planCtx (oneSet 0) (some (runOf5 .plain))), by decide +kernel, ⟨by decide +kernel, rfl, rfl⟩, by decide +kernel⟩,
   ⟨hdr 5 5 1, ⟨1, 0, 4096⟩, _, userAt 1 opened, by decide +kernel, ⟨by decide +kernel, rfl, rfl⟩, by decide +kernel⟩,
   ⟨⟨1, 0, 64⟩, 5, 9, List.replicate 64 0, _, dataAt 1 opened, pair_of (by decide +kernel)⟩,
   ⟨⟨1, 0, 64⟩, 5, 9, 0, _, badAt, pair_of (by decide +kernel)⟩,
   ⟨List.replicate 4096 0#8, zeros_formOk _ rfl, zeros_ok _⟩,
   ⟨hdr 5 5 1, ⟨1, 0, 64⟩, _, userAt 1 opened, by decide +kernel, ⟨by decide +kernel, rfl, rfl⟩, by decide +kernel⟩,
   ⟨5, bareImage, bareSet, up, by decide +kernel⟩,
   ⟨5, oneSet 0, up, by decide +kernel⟩,
   ⟨5, [], up, by decide +kernel⟩⟩
theorem witness_PlanCommandsComplete_runs :
    (∃ h handle t, ∃ s : State, Fits (.planFree h handle) ∧ Comes 0x0404 [1] false h s t ∧ ((t.ctx h.ctx).setOf handle).isSome = true ∧
      (t.ctx h.ctx).usesSet handle = false) ∧
    (∃ h handle t, ∃ s : State, Fits (.planFree h handle) ∧ Comes 0x0404 [1] false h s t ∧ (t.ctx h.ctx).setOf handle = none) ∧
    (∃ h handle p t, ∃ s : State, Fits (.planRun h handle) ∧ Comes 0x0405 [1] false h s t ∧ t.setFor h.ctx handle 0 = some p ∧
      (t.ctx h.ctx).run = none ∧ t.planRuns h.ctx = false) ∧
    (∃ h handle t, ∃ s : State, Fits (.planRun h handle) ∧ Comes 0x0405 [1] false h s t ∧ t.setFor h.ctx handle 0 = none) ∧
    (∃ h r t, ∃ s : State, Fits (.planAbort h) ∧ Comes 0x0406 [1] false h s t ∧ (t.ctx h.ctx).run = some r ∧ r.started = true) ∧
    (∃ h r t, ∃ s : State, Fits (.planAbort h) ∧ Comes 0x0406 [1] false h s t ∧ (t.ctx h.ctx).run = some r ∧ r.started = false) ∧
    (∃ h t, ∃ s : State, Fits (.planAbort h) ∧ Comes 0x0406 [1] false h s t ∧ (t.ctx h.ctx).run = none) :=
  ⟨⟨hdr 5 5 1, 1, _, userAt 1 (planCtx (oneSet 0) none), by decide +kernel, ⟨by decide +kernel, rfl, rfl⟩, by decide +kernel⟩,
   ⟨hdr 5 5 1, 2, _, userAt 1 (planCtx (oneSet 0) none), by decide +kernel, ⟨by decide +kernel, rfl, rfl⟩, by decide +kernel⟩,
   ⟨hdr 5 5 1, 1, oneSet 0, _, userAt 1 (planCtx (oneSet 0) none), by decide +kernel, ⟨by decide +kernel, rfl, rfl⟩, by decide +kernel⟩,
   ⟨hdr 5 5 1, 1, _, userAt 1 (planCtx (oneSet 1) none), by decide +kernel, ⟨by decide +kernel, rfl, rfl⟩, by decide +kernel⟩,
   ⟨hdr 5 5 1, runOf5 .plain, _, userAt 1 (planCtx (oneSet 0) (some (runOf5 .plain))), by decide +kernel, ⟨by decide +kernel, rfl, rfl⟩, by decide +kernel⟩,
   ⟨hdr 5 5 1, { runOf5 .step with started := false }, _, userAt 1 (planCtx (oneSet 1) (some { runOf5 .step with started := false })), by decide +kernel,
     ⟨by decide +kernel, rfl, rfl⟩, by decide +kernel⟩,
   ⟨hdr 5 5 1, _, userAt 1 opened, by decide +kernel, ⟨by decide +kernel, rfl, rfl⟩, by decide +kernel⟩⟩
/-- A step of context 5 under handle 1 that waits for its plan beat 0, its own message sent. -/
def waitingStep : Ctx := { planCtx (oneSet 1) (some (stepRun 1 0 0 0 0x3F800000 0 4 9)) with ownStart := some (0, 0, 0) }
theorem witness_StepCommandsComplete_starts :
    (∃ h step seed tokens lr handle p t, ∃ s : State, Fits (.stepStart h step seed tokens lr handle) ∧ Comes 0x0501 [2] false h s t ∧
      t.setFor h.ctx handle 1 = some p ∧ p.freeze = (t.ctx h.ctx).nextFreeze ∧ (t.ctx h.ctx).stepAllowed step seed tokens = true ∧ lrOk lr = true ∧
      (t.ctx h.ctx).queued = none ∧ (t.ctx h.ctx).run = none ∧ (t.ctx h.ctx).redoOf = none) ∧
    (∃ h step seed tokens lr handle p n t, ∃ s : State, Fits (.stepStart h step seed tokens lr handle) ∧ Comes 0x0501 [2] false h s t ∧
      t.setFor h.ctx handle 1 = some p ∧ p.freeze = (t.ctx h.ctx).nextFreeze ∧ (t.ctx h.ctx).stepAllowed step seed tokens = true ∧ lrOk lr = true ∧
      (t.ctx h.ctx).queued = none ∧ (t.ctx h.ctx).run = none ∧ (t.ctx h.ctx).redoOf = some n) ∧
    (∃ h step seed tokens lr handle p r t, ∃ s : State, Fits (.stepStart h step seed tokens lr handle) ∧ Comes 0x0501 [2] false h s t ∧
      t.setFor h.ctx handle 1 = some p ∧ p.freeze = (t.ctx h.ctx).nextFreeze ∧ (t.ctx h.ctx).stepAllowed step seed tokens = true ∧ lrOk lr = true ∧
      (t.ctx h.ctx).queued = none ∧ (t.ctx h.ctx).run = some r ∧ r.kind = .step) ∧
    (∃ h step seed tokens lr handle t, ∃ s : State, Fits (.stepStart h step seed tokens lr handle) ∧ Comes 0x0501 [2] false h s t ∧
      (t.ctx h.ctx).stepAllowed step seed tokens = false) ∧
    (∃ ctx r p t, ∃ s : State, Fits (.stepBegin ctx) ∧ s.clk.cycle = 0 ∧ s.sendStart ctx = t ∧ (t.ctx ctx).waiting = some r ∧ (t.ctx ctx).ownStart ≠ none ∧
      (t.ctx ctx).missing t.myPos r = [] ∧ ((t.ctx ctx).isRedo r = false ∨ (t.ctx ctx).commits.any (fun m => m.2.inf) = false) ∧ (t.ctx ctx).takeover = none ∧
      (t.ctx ctx).part.held = false ∧ t.lead ctx ≠ none ∧ t.setFor ctx r.handle 1 = some p ∧ p.freeze = (t.ctx ctx).nextFreeze) ∧
    (∃ ctx, ∃ s : State, Fits (.stepBegin ctx) ∧ s.clk.cycle ≠ 0) ∧
    (∃ ctx r t, ∃ s : State, Fits (.stepBegin ctx) ∧ s.clk.cycle = 0 ∧ s.sendStart ctx = t ∧ (t.ctx ctx).waiting = some r ∧ (t.ctx ctx).missing t.myPos r ≠ []) :=
  ⟨⟨hdr 5 5 2, 0, 3, 4, 0x3F800000, 1, oneSet 1, _, userAt 2 (planCtx (oneSet 1) none), by decide +kernel, ⟨by decide +kernel, rfl, rfl⟩, by decide +kernel⟩,
   ⟨hdr 5 5 2, 8, 3, 4, 0x3F800000, 1, oneSet 1, { step := 8, seed := 3, tokens := 4, attempt := 2, ended := true }, _,
     userAt 2 { planCtx (oneSet 1) none with now := some { step := 8, seed := 3, tokens := 4, attempt := 2, ended := true } }, by decide +kernel,
     ⟨by decide +kernel, rfl, rfl⟩, by decide +kernel⟩,
   ⟨hdr 5 5 2, 1, 3, 4, 0x3F800000, 1, oneSet 1, runOf5 .step, _, userAt 2 (planCtx (oneSet 1) (some (runOf5 .step))), by decide +kernel,
     ⟨by decide +kernel, rfl, rfl⟩, by decide +kernel⟩,
   ⟨hdr 5 5 2, 7, 3, 4, 0x3F800000, 1, _, userAt 2 (planCtx (oneSet 1) none), by decide +kernel, ⟨by decide +kernel, rfl, rfl⟩, by decide +kernel⟩,
   ⟨5, stepRun 1 0 0 0 0x3F800000 0 4 9, oneSet 1, _, { up with ctxs := [(0, Ctx.system), (5, waitingStep)] }, by decide, by decide, rfl, by decide +kernel,
     by decide +kernel, by decide +kernel, by decide +kernel, by decide +kernel, by decide +kernel, by decide +kernel, by decide +kernel, by decide +kernel⟩,
   ⟨5, { up with clk := { cycle := 7 } }, by decide⟩,
   ⟨5, stepRun 1 0 0 0 0x3F800000 0 4 9, _, { inPod {} with ctxs := [(0, Ctx.system), (5, { waitingStep with rsets := [3] })] }, by decide, by decide, rfl,
     by decide +kernel, by decide +kernel⟩⟩
theorem witness_StepCommandsComplete_ends :
    (∃ ctx r, ∃ s : State, Fits (.stepComplete ctx) ∧ (s.ctx ctx).run = some r ∧ (s.ctx ctx).allThere s.myPos r.step = false) ∧
    (∃ ctx r, ∃ s : State, Fits (.stepComplete ctx) ∧ (s.ctx ctx).run = some r ∧ r.kind = .step ∧ r.started = true ∧ r.ending = none ∧
      (s.ctx ctx).st ≠ .fenced ∧ (s.ctx ctx).allThere s.myPos r.step = true) ∧
    (∃ ctx, ∃ r : Run, ∃ n t u, ∃ s : State, (s.ctx ctx).ownNorm s.myPos r.step = n ∧
      ((s.ctx ctx).peersOf s.myPos).foldl (fun s q => s.fctl ctx q 3 (leBytes 2 ctx ++ leBytes 4 r.step ++ leBytes 8 n.toNat)) (s.onCtx ctx (fun x => { x with
        last := r.step, newFz := [], bumped := [], counts := x.bumped.foldl (fun (t : Tab Nat) g => t.upd 0 g (· + 1)) x.counts })) = t ∧
      normIn ctx s.myPos r.step n t = u ∧ u.clk.cycle = 0) ∧
    (∃ h handle tokens seed p t, ∃ s : State, Fits (.evalStart h handle tokens seed) ∧ Comes 0x0502 [1] false h s t ∧ t.setFor h.ctx handle 2 = some p ∧
      (t.ctx h.ctx).run = none ∧ (t.ctx h.ctx).now.any StepNow.ended = false ∧ t.planRuns h.ctx = false) ∧
    (∃ h handle tokens seed t, ∃ s : State, Fits (.evalStart h handle tokens seed) ∧ Comes 0x0502 [1] false h s t ∧ t.setFor h.ctx handle 2 = none) ∧
    (∃ h t, ∃ s : State, Fits (.stepStatus h) ∧ Comes 0x0503 [1] false h s t) :=
  ⟨⟨5, runOf5 .step, starting (some (runOf5 .step)) |>.onCtx 5 (fun x => { x with pmap := [someParcel false] }), by decide, by decide +kernel, by decide +kernel⟩,
   ⟨5, runOf5 .step, starting (some (runOf5 .step)), by decide, by decide +kernel, by decide, rfl, rfl, by decide +kernel, by decide +kernel⟩,
   ⟨5, runOf5 .step, _, _, _, starting (some (runOf5 .step)), rfl, rfl, rfl, by decide +kernel⟩,
   ⟨hdr 5 5 1, 1, 4, 3, oneSet 2, _, userAt 1 (planCtx (oneSet 2) none), by decide +kernel, ⟨by decide +kernel, rfl, rfl⟩, by decide +kernel⟩,
   ⟨hdr 5 5 1, 1, 4, 3, _, userAt 1 (planCtx (oneSet 1) none), by decide +kernel, ⟨by decide +kernel, rfl, rfl⟩, by decide +kernel⟩,
   ⟨hdr 5 5 1, _, userAt 1 opened, by decide +kernel, ⟨by decide +kernel, rfl, rfl⟩⟩⟩


/-- `dataAt` with this link 1. -/
def linkAt (l : Link) : State := { dataAt 1 opened with links := [(1, l)] }
/-- A pod configuration with the buddy, position 0, over link 1. -/
def podImage : List Byte := leBytes 16 0 ++ (List.range 66).flatMap (fun i => [if i = 65 then 1 else 0xFF, 0xFF, 0, 0])
theorem witness_LinkCommandsComplete_pod :
    (∃ h x t, ∃ s : State, Fits (.fabricTopology h x) ∧ Comes 0x0601 [1] false h s t ∧ t.refBad h.src x = none ∧ t.ha.cxl = true) ∧
    (∃ h x t, ∃ s : State, Fits (.podConfig h x) ∧ Comes 0x0602 [1] true h s t ∧ t.refBad h.src x = none ∧ t.ha.cxl = true) ∧
    (∃ b, ∃ s : State, podForm b (readPod b) = true ∧ s.podFine (readPod b) = true) ∧
    (∃ b, ∃ s : State, podForm b (readPod b) = true ∧ s.podFine (readPod b) = false) :=
  ⟨⟨hdr 0 0 1, ⟨0, 0, 1088⟩, _, dataAt 1 opened, by decide +kernel, ⟨by decide +kernel, rfl, rfl⟩, by decide +kernel⟩,
   ⟨hdr 0 0 1, ⟨0, 0, 320⟩, _, dataAt 1 opened, by decide +kernel, ⟨by decide +kernel, rfl, rfl⟩, by decide +kernel⟩,
   ⟨podImage, linkAt { st := 3, ppos := 0 }, by decide +kernel⟩, ⟨podImage, linkAt { st := 3, ppos := 1 }, by decide +kernel⟩⟩
theorem witness_LinkCommandsComplete_links :
    (∃ h n v t, ∃ s : State, Fits (.linkWidth h n v) ∧ Comes 0x0603 [1] true h s t ∧ n < 64 ∧ v < 16 ∧ v % 2 = 0 ∧ (t.link n).st ≠ 0 ∧
      (t.link n).widens v = false) ∧
    (∃ h n v t, ∃ s : State, Fits (.linkWidth h n v) ∧ Comes 0x0603 [1] true h s t ∧ n < 64 ∧ v < 16 ∧ v % 2 = 0 ∧ (t.link n).st ≠ 0 ∧
      (t.link n).widens v = true) ∧
    (∃ h n t, ∃ s : State, Fits (.linkRetrain h n) ∧ Comes 0x0604 [1] true h s t ∧ n < 64 ∧ (t.link n).st ≠ 0 ∧ (t.link n).st ≠ 4 ∧
      (t.link n).narrowing = none ∧ (t.link n).widen = none) ∧
    (∃ h n t, ∃ s : State, Fits (.linkRetrain h n) ∧ Comes 0x0604 [1] true h s t ∧ n < 64 ∧ (t.link n).st = 4) ∧
    (∃ h n t, ∃ s : State, Fits (.linkRetrain h n) ∧ Comes 0x0604 [1] true h s t ∧ (t.link n).st = 0) :=
  ⟨⟨hdr 0 0 1, 1, 8, _, linkAt { st := 3, tw := 3 }, by decide +kernel, ⟨by decide +kernel, rfl, rfl⟩, by decide +kernel⟩,
   ⟨hdr 0 0 1, 1, 0, _, linkAt { st := 3, tw := 3, tmask := 0xFF, narrowing := some [7], cfg := 4#32 }, by decide +kernel, ⟨by decide +kernel, rfl, rfl⟩, by decide +kernel⟩,
   ⟨hdr 0 0 1, 1, _, linkAt { st := 3 }, by decide +kernel, ⟨by decide +kernel, rfl, rfl⟩, by decide +kernel⟩,
   ⟨hdr 0 0 1, 1, _, linkAt { st := 4 }, by decide +kernel, ⟨by decide +kernel, rfl, rfl⟩, by decide +kernel⟩,
   ⟨hdr 0 0 1, 2, _, linkAt { st := 4 }, by decide +kernel, ⟨by decide +kernel, rfl, rfl⟩, by decide +kernel⟩⟩

/-- A context with one parcel, a group block, EXPORT, IMPORT and HOSTASSIST. -/
def optCtx : Ctx := { st := .opened, w0 := 0x81C0000000000000#64, pmap := [someParcel false], rsets := [1], gblk := some 2 }
/-- The same in step 7. -/
def optStep : Ctx := { optCtx with run := (stepCtx false).run }
/-- A group record with a rule and the warm-up of no schedule. -/
def groupRec (rule : Nat) : Words8 := { w0 := BitVec.ofNat 64 (rule * 2 ^ 60) }
/-- A piece reads where the page map and the error marks list nothing. -/
theorem readPart_clean {s : State} {c : Nat} {q : Nat × Nat × Nat} (h0 : s.mayMove c 1 5 q = true) (h1 : ((s.spendPart c q).sc (extSc q.1)).map = [])
    (h2 : ((s.spendPart c q).sc (extSc q.1)).errs = []) : ∃ b, s.readPart c q = (s.spendPart c q, .ok b) := by
  obtain ⟨bs, h⟩ := readParts_clean h0 h1 h2
  simp only [State.readParts] at h
  cases e : s.readPart c q with
  | mk u r =>
    rw [e] at h
    cases r with
    | ok b => simp only [Prod.mk.injEq] at h; exact ⟨b, by rw [h.1]⟩
    | error d => simp at h
theorem witness_OptimiserCommandsComplete_config :
    (∃ h flags hr sat down t, ∃ s : State, Fits (.optConfig h flags hr sat down) ∧ Comes 0x0701 [1] false h s t ∧ flags < 4 ∧ hr ≤ 3 ∧ 1 ≤ sat ∧ sat ≤ 4 ∧
      1 ≤ down ∧ down ≤ 4 ∧ (t.ctx h.ctx).inStep = false) ∧
    (∃ h flags hr sat down t, ∃ s : State, Fits (.optConfig h flags hr sat down) ∧ Comes 0x0701 [1] false h s t ∧ flags < 4 ∧ hr ≤ 3 ∧ 1 ≤ sat ∧ sat ≤ 4 ∧
      1 ≤ down ∧ down ≤ 4 ∧ (t.ctx h.ctx).inStep = true) ∧
    (∃ h count x t, ∃ s : State, Fits (.optParcelMap h count x) ∧ Comes 0x0702 [1] false h s t ∧ t.refBad h.src x = none ∧ t.ha.cxl = true ∧ count ≤ 2 ^ 24 ∧
      256 + 16 * count ≤ x.dlen ∧ (t.ctx h.ctx).busyRun = false) ∧
    (∃ c m, ∃ s : State, Tab.wf {} s.ctxs = true ∧ s.mapFine c m = true ∧ s.linksTo c 65 = []) ∧
    (∃ h first tables count x t, ∃ s : State, Fits (.optScaleLoad h first tables count x) ∧ Comes 0x0703 [1] false h s t ∧ t.refBad h.src x = none ∧
      t.ha.cxl = true ∧ tables < 4 ∧ first + count ≤ (t.ctx h.ctx).pmap.length ∧ count ≤ x.dlen ∧ (t.ctx h.ctx).busyRun = false) ∧
    (∃ c, ∃ v : List Nat, ∃ s : State, v.all (fun n => decide (n ≤ wMax (s.ctx c).e4m3)) = true) ∧
    (∃ h group r t, ∃ s : State, Fits (.optGroup h group r) ∧ Comes 0x0704 [3] false h s t ∧ grRule r ≠ 15 ∧ group < 64 ∧ groupForm r = true ∧
      (t.ctx h.ctx).groupKeeps group r = true ∧ (t.ctx h.ctx).gblk ≠ none ∧ (t.ctx h.ctx).inStep = false) ∧
    (∃ h group r t, ∃ s : State, Fits (.optGroup h group r) ∧ Comes 0x0704 [3] false h s t ∧ grRule r ≠ 15 ∧ group < 64 ∧ groupForm r = true ∧
      (t.ctx h.ctx).groupKeeps group r = true ∧ (t.ctx h.ctx).gblk = none) ∧
    (∃ h count x b t u, ∃ s : State, Fits (.optFreeze h count x) ∧ Comes 0x0705 [1] false h s t ∧ t.refBad h.src x = none ∧ t.ha.cxl = true ∧
      count = (t.ctx h.ctx).pmap.length ∧ (count + 7) / 8 ≤ x.dlen ∧ t.readRef x h.ctx h.tag = (u, .ok b) ∧ (u.ctx h.ctx).inStep = false) :=
  ⟨⟨hdr 5 5 1, 3, 1, 2, 1, _, userAt 1 optCtx, by decide +kernel, ⟨by decide +kernel, rfl, rfl⟩, by decide +kernel⟩,
   ⟨hdr 5 5 1, 3, 1, 2, 1, _, userAt 1 optStep, by decide +kernel, ⟨by decide +kernel, rfl, rfl⟩, by decide +kernel⟩,
   ⟨hdr 5 5 1, 1, ⟨1, 0, 272⟩, _, userAt 1 optCtx, by decide +kernel, ⟨by decide +kernel, rfl, rfl⟩, by decide +kernel⟩,
   ⟨5, (List.replicate 16 1, []), dataAt 1 optCtx, by decide +kernel⟩,
   ⟨hdr 5 5 1, 0, 3, 1, ⟨1, 0, 64⟩, _, userAt 1 optCtx, by decide +kernel, ⟨by decide +kernel, rfl, rfl⟩, by decide +kernel⟩,
   ⟨5, [119, 0], dataAt 1 optCtx, by decide +kernel⟩,
   ⟨hdr 5 5 3, 1, groupRec 3, _, userAt 3 optCtx, by decide +kernel, ⟨by decide +kernel, rfl, rfl⟩, by decide +kernel⟩,
   ⟨hdr 5 5 3, 1, groupRec 3, _, userAt 3 { optCtx with gblk := none }, by decide +kernel, ⟨by decide +kernel, rfl, rfl⟩, by decide +kernel⟩,
   ⟨hdr 5 5 1, 1, ⟨1, 0, 64⟩, List.replicate 64 0, _, _, userAt 1 optCtx, by decide +kernel, ⟨by decide +kernel, rfl, rfl⟩,
     by decide +kernel, by decide +kernel, by decide +kernel, by decide +kernel, pair_of (by decide +kernel), by decide +kernel⟩⟩
theorem witness_OptimiserCommandsComplete_state :
    (∃ h first flags count x ps t, ∃ s : State, Fits (.optStateInit h first flags count x) ∧ Comes 0x0706 [1] false h s t ∧ (t.ctx h.ctx).range first count = ps ∧
      first + count ≤ (t.ctx h.ctx).pmap.length ∧ ps.all (fun q => decide (q.2.owner = t.myPos)) = true ∧ t.refBad h.src x = none ∧ t.ha.cxl = true ∧ flags < 2 ∧
      ps.foldl (fun a q => a + (t.ctx h.ctx).stateBytes q.2 (bit flags 0)) 0 ≤ x.dlen ∧ (t.ctx h.ctx).busyRun = false) ∧
    (∃ h first flags count x t, ∃ s : State, Fits (.optStateInit h first flags count x) ∧ Comes 0x0706 [1] false h s t ∧
      first + count ≤ (t.ctx h.ctx).pmap.length ∧ ((t.ctx h.ctx).range first count).any (fun q => decide (q.2.owner ≠ t.myPos)) = true) ∧
    (∃ h step x r t, ∃ s : State, Fits (.optNorms h step x) ∧ Comes 0x0707 [1] false h s t ∧ t.refBad h.src x = none ∧ t.ha.cxl = true ∧
      (t.ctx h.ctx).recs.find? (fun r => r.step = step) = some r) ∧
    (∃ h first flags count ds t, ∃ s : State, Fits (.optAudit h first flags count ds) ∧ Comes 0x0708 [1] false h s t ∧ flags < 2 ∧
      first + count ≤ (t.ctx h.ctx).pmap.length ∧ (t.ctx h.ctx).busyRun = false) ∧
    (∃ h parcel attempt step e b t u, ∃ s : State, Fits (.optHostDone h parcel attempt step) ∧ Comes 0x0709 [1] false h s t ∧ (t.ctx h.ctx).hostAssist = true ∧
      (t.ctx h.ctx).hostOut.any (fun o => decide (o.1 = parcel ∧ o.2.1 = attempt)) = true ∧ (t.ctx h.ctx).stepOn = some (step, attempt) ∧
      (t.ctx h.ctx).pent parcel = some e ∧ t.readPart h.ctx (e.mext, 262144 * ((t.ctx h.ctx).commits.get {} parcel).newslot, 262144) = (u, .ok b)) ∧
    (∃ h parcel attempt step t, ∃ s : State, Fits (.optHostDone h parcel attempt step) ∧ Comes 0x0709 [1] false h s t ∧ (t.ctx h.ctx).hostAssist = false) := by
  obtain ⟨b, hb⟩ := readPart_clean (s := taken ((userAt 1 { optStep with hostOut := [(0, 1, 0)] }).onSc 0 (fun _ => { serving := true, ext := [(8, ExtEnt.word ⟨5, 3, false, 1, 1⟩)] })) (hdr 5 5 1))
    (c := 5) (q := (8, 262144 * 0, 262144)) (by decide +kernel) rfl rfl
  exact ⟨⟨hdr 5 5 1, 0, 0, 1, ⟨1, 0, 262144⟩, _, _, userAt 1 optCtx, by decide +kernel, ⟨by decide +kernel, rfl, rfl⟩, rfl, by decide +kernel⟩,
   ⟨hdr 5 5 1, 0, 0, 1, ⟨1, 0, 262144⟩, _, userAt 1 { optCtx with pmap := [buddyParcel] }, by decide +kernel, ⟨by decide +kernel, rfl, rfl⟩, by decide +kernel⟩,
   ⟨hdr 5 5 1, 7, ⟨1, 0, 64⟩, { step := 7 }, _, userAt 1 { optCtx with recs := [{ step := 7 }] }, by decide +kernel, ⟨by decide +kernel, rfl, rfl⟩, by decide +kernel⟩,
   ⟨hdr 5 5 1, 0, 1, 1, [], _, userAt 1 optCtx, by decide +kernel, ⟨by decide +kernel, rfl, rfl⟩, by decide, by decide +kernel, by decide +kernel⟩,
   ⟨hdr 5 5 1, 0, 1, 7, someParcel false, b, _, _, (userAt 1 { optStep with hostOut := [(0, 1, 0)] }).onSc 0 (fun _ => { serving := true, ext := [(8, ExtEnt.word ⟨5, 3, false, 1, 1⟩)] }), by decide +kernel,
     ⟨by decide +kernel, rfl, rfl⟩, by decide +kernel, by decide +kernel, by decide +kernel, by decide +kernel, hb⟩,
   ⟨hdr 5 5 1, 0, 1, 7, _, userAt 1 opened, by decide +kernel, ⟨by decide +kernel, rfl, rfl⟩, by decide +kernel⟩⟩
/-- A capsule header that fits a map without parcels and names nobody. -/
def capsuleBytes (typ : Nat) : List Byte := leBytes 4 0x4C574350 ++ leBytes 2 typ ++ List.replicate 5642 0
theorem witness_OptimiserCommandsComplete_capsules :
    (∃ h first count recips x ps t, ∃ s : State, Fits (.capsuleSeal h first count recips x) ∧ Comes 0x070A [1 + (3 * recips.length + 1) / 2] false h s t ∧
      (t.ctx h.ctx).export_ = true ∧ (t.ctx h.ctx).range first count = ps ∧ ps.all (fun q => decide (q.2.owner = t.myPos)) = true ∧ t.refBad h.src x = none ∧
      t.ha.cxl = true ∧ 1 ≤ recips.length ∧ recips.length ≤ 8 ∧ first + count ≤ (t.ctx h.ctx).pmap.length ∧ (t.ctx h.ctx).inStep = false ∧
      928 + (t.ctx h.ctx).payloadLen ps + 16 + 96 + t.tr.certs.length ≤ x.dlen) ∧
    (∃ h first count recips x t, ∃ s : State, Fits (.capsuleSeal h first count recips x) ∧ Comes 0x070A [1 + (3 * recips.length + 1) / 2] false h s t ∧
      (t.ctx h.ctx).export_ = false) ∧
    (∃ c first count recips l k u, ∃ s : State, s.readStates c ((s.ctx c).range first count) = (u, .ok l) ∧
      u.capsule c first count recips (((s.ctx c).range first count).any (fun q => grBf ((s.ctx c).groupOf q.2))) ((s.ctx c).payload l) = k) ∧
    (∃ h x t, ∃ s : State, Fits (.capsuleOpen h x) ∧ Comes 0x070B [1] false h s t ∧ (t.ctx h.ctx).import_ = true ∧ t.refBad h.src x = none ∧ t.ha.cxl = true) ∧
    (∃ h x t, ∃ s : State, Fits (.capsuleOpen h x) ∧ Comes 0x070B [1] false h s t ∧ (t.ctx h.ctx).import_ = false) ∧
    (∃ c b, ∃ s : State, (s.ctx c).capsuleFits s.myPos b = false) ∧
    (∃ c b, ∃ s : State, (s.ctx c).capsuleFits s.myPos b = true ∧ s.tr.openCapsule (b.take ((s.ctx c).capsuleLen b)) (b.drop ((s.ctx c).capsuleLen b)) = none) :=
  ⟨⟨hdr 5 5 3, 0, 1, [List.replicate 48 1], ⟨1, 0, 1048576⟩, _, _, userAt 3 optCtx, by decide +kernel, ⟨by decide +kernel, rfl, rfl⟩, by decide +kernel, rfl,
     by decide +kernel⟩,
   ⟨hdr 5 5 3, 0, 1, [List.replicate 48 1], ⟨1, 0, 1048576⟩, _, userAt 3 opened, by decide +kernel, ⟨by decide +kernel, rfl, rfl⟩, by decide +kernel⟩,
   ⟨5, 0, 0, [List.replicate 48 1], [], _, _, dataAt 1 optCtx, rfl, rfl⟩,
   ⟨hdr 5 5 1, ⟨1, 0, 8192⟩, _, userAt 1 optCtx, by decide +kernel, ⟨by decide +kernel, rfl, rfl⟩, by decide +kernel⟩,
   ⟨hdr 5 5 1, ⟨1, 0, 8192⟩, _, userAt 1 opened, by decide +kernel, ⟨by decide +kernel, rfl, rfl⟩, by decide +kernel⟩,
   ⟨5, capsuleBytes 2, dataAt 1 opened, by decide +kernel⟩,
   ⟨5, capsuleBytes 1, dataAt 1 opened, by decide +kernel⟩⟩


/-! Witnesses: chapters 14, 16 and 18. -/

theorem witness_PowerCommandsComplete :
    (∃ h unit x t, ∃ s : State, Fits (.telemRead h unit x) ∧ Comes 0x0801 [1] false h s t ∧ uidOk unit = true ∧ (h.sys = true ∨ t.telemOk h.ctx unit = true) ∧
      t.refBad h.src x = none ∧ t.ha.cxl = true) ∧
    (∃ h unit x t, ∃ s : State, Fits (.telemRead h unit x) ∧ Comes 0x0801 [1] false h s t ∧ uidOk unit = true ∧ h.sys = false ∧ t.telemOk h.ctx unit = false) ∧
    (∃ h first count flags x t, ∃ s : State, Fits (.ledgerRead h first count flags x) ∧ Comes 0x0802 [1] false h s t ∧ 1 ≤ count ∧ count ≤ 4096 ∧ flags < 2 ∧
      t.refBad h.src x = none ∧ t.ha.cxl = true) ∧
    (∃ h t, ∃ s : State, Fits (.meterRead h) ∧ Comes 0x0803 [1] false h s t) ∧
    (∃ h cap share t, ∃ s : State, Fits (.powerPolicy h cap share) ∧ Comes 0x0804 [1] true h s t ∧ 1 ≤ cap ∧ cap ≤ 21000) ∧
    (∃ h cap share t, ∃ s : State, Fits (.powerPolicy h cap share) ∧ Comes 0x0804 [1] true h s t ∧ (cap = 0 ∨ 21000 < cap)) ∧
    (∃ h mmin flags t, ∃ s : State, Fits (.clockSet h mmin flags) ∧ Comes 0x0805 [1] true h s t ∧ 64 ≤ mmin ∧ mmin ≤ 192 ∧ flags < 2) ∧
    (∃ h mmin flags t, ∃ s : State, Fits (.clockSet h mmin flags) ∧ Comes 0x0805 [1] true h s t ∧ 64 ≤ mmin ∧ mmin ≤ 192 ∧ flags < 2) :=
  ⟨⟨hdr 0 0 1, uidKeeper, ⟨0, 0, 64⟩, _, dataAt 1 opened, by decide +kernel, ⟨by decide +kernel, rfl, rfl⟩, by decide +kernel⟩,
   ⟨hdr 5 5 1, uidSc 3, ⟨1, 0, 64⟩, _, userAt 1 opened, by decide +kernel, ⟨by decide +kernel, rfl, rfl⟩, by decide +kernel⟩,
   ⟨hdr 5 5 1, 1, 4096, 1, ⟨1, 0, 64⟩, _, userAt 1 opened, by decide +kernel, ⟨by decide +kernel, rfl, rfl⟩, by decide +kernel⟩,
   ⟨hdr 5 5 1, _, userAt 1 opened, by decide +kernel, ⟨by decide +kernel, rfl, rfl⟩⟩,
   ⟨hdr 0 0 1, 21000, 5, _, dataAt 1 opened, by decide +kernel, ⟨by decide +kernel, rfl, rfl⟩, by decide +kernel⟩,
   ⟨hdr 0 0 1, 21001, 5, _, dataAt 1 opened, by decide +kernel, ⟨by decide +kernel, rfl, rfl⟩, by decide +kernel⟩,
   ⟨hdr 0 0 1, 64, 1, _, dataAt 1 opened, by decide +kernel, ⟨by decide +kernel, rfl, rfl⟩, by decide +kernel⟩,
   ⟨hdr 0 0 1, 192, 1, _, dataAt 1 opened, by decide +kernel, ⟨by decide +kernel, rfl, rfl⟩, by decide +kernel⟩⟩

/-- A pattern pack of so many sections, each empty: number 7, version 3, all classes, inlets of 10 to 40 °C, 5 ms. -/
def packBytes (n : Nat) : List Byte :=
  leBytes 4 0x4C575450 ++ leBytes 2 7 ++ leBytes 2 3 ++ [7, 0xFF, 0, 0] ++ leBytes 4 0 ++ leBytes 2 10 ++ leBytes 2 40 ++ leBytes 4 5 ++ leBytes 4 n ++ leBytes 36 0 ++
    (List.range n).flatMap (fun _ => leBytes 8 0 ++ leBytes 8 128 ++ leBytes 8 0 ++
      (leBytes 40 0x38B060A751AC96384CD9327EB1B1E36A21FDB71114BE07434C0CC7BF63F6E1DA274EDEBFE76F65FB).reverse)
/-- The second half of the pack's signature. -/
def packS : Nat := 0x32871c2ce987b387fd5a9716b44dafbd4fb3e3c828da348fca098e4c8c1cae981ec31dfb21d9dfb46967866193f10634
/-- The pack with its signature. -/
def signedPack : List Byte := packBytes 1 ++ bytes48 testR ++ bytes48 packS
/-- A module with a pattern pack in slot 2 and these tests. -/
def testing (k : Option Pack) (ts : List TestUnit) : State :=
  { userAt 1 opened with tr := { up.tr with patternKey := testKey, packs := [(2, k)], tests := ts }, long := [⟨4, .ring 5, 0x0902, 9, 0, 5, false, .testRun, 0, 0⟩], nextId := 5 }
/-- The same with a packet on the system ring. -/
def testingSys (ts : List TestUnit) : State :=
  { testing none ts with ctxs := (dataAt 1 opened).ctxs }
/-- A pack for every class. -/
def somePack : Pack := ⟨7, 3, 7, 0, -10, 40, 5⟩
/-- A running test of a unit, begun at this Keeper time. -/
def someTest (u since : Nat) : TestUnit := { long := 4, unit := u, slot := 2, corner := 0, ref := ⟨1, 0, 64⟩, running := true, since := since }
theorem witness_TestCommandsComplete_pack :
    (∃ h slot x t, ∃ s : State, Fits (.patternLoad h slot x) ∧ Comes 0x0901 [1] true h s t ∧ slot < 16 ∧ t.refBad h.src x = none ∧ t.ha.cxl = true ∧
      t.slotInTest slot = false) ∧
    (∃ h slot x t, ∃ s : State, Fits (.patternLoad h slot x) ∧ Comes 0x0901 [1] true h s t ∧ slot < 16 ∧ t.refBad h.src x = none ∧ t.ha.cxl = true ∧
      t.slotInTest slot = true) ∧
    (∃ b, ∃ s : State, b.length < packEnd b + 96 ∨ verify s.tr.patternKey (b.take (packEnd b)) ((b.drop (packEnd b)).take 96) = false) ∧
    (∃ slot b, ∃ s : State, packEnd b + 96 ≤ b.length ∧ verify s.tr.patternKey (b.take (packEnd b)) ((b.drop (packEnd b)).take 96) = true ∧
      s.packOk slot b = true) :=
  ⟨⟨hdr 0 0 1, 15, ⟨0, 0, 224⟩, _, testingSys [], by decide +kernel, ⟨by decide +kernel, rfl, rfl⟩, by decide +kernel⟩,
   ⟨hdr 0 0 1, 2, ⟨0, 0, 224⟩, _, testingSys [someTest (uidSc 0) 0], by decide +kernel, ⟨by decide +kernel, rfl, rfl⟩, by decide +kernel⟩,
   ⟨[], testing none [], by decide +kernel⟩, ⟨3, signedPack, { testing none [] with ha := { up.ha with variant := 1 } }, by decide +kernel⟩⟩
theorem witness_TestCommandsComplete_run :
    (∃ h unit slot corner x t, ∃ s : State, Fits (.testRun h unit slot corner x) ∧ Comes 0x0902 [1] false h s t ∧ uidOk unit = true ∧
      (uClass unit = 3 ∨ uClass unit = 4) ∧ t.mayTest h unit = true ∧ slot < 16 ∧ corner < 8 ∧ corner % 4 ≠ 3 ∧ (t.region (uRegion unit)).st ≠ .closed ∧
      t.refBad h.src x = none ∧ t.ha.cxl = true ∧ t.tr.packs.get none slot ≠ none ∧ 32 * (testUnits unit).length ≤ x.dlen ∧ t.testBusy unit corner = false) ∧
    (∃ h unit slot corner x t, ∃ s : State, Fits (.testRun h unit slot corner x) ∧ Comes 0x0902 [1] false h s t ∧ uidOk unit = true ∧ uClass unit = 0x10 ∧
      t.mayTest h unit = true ∧ slot < 16 ∧ corner < 8 ∧ corner % 4 ≠ 3 ∧ (t.sc (uSub unit)).serving = true ∧
      t.refBad h.src x = none ∧ t.ha.cxl = true ∧ t.tr.packs.get none slot ≠ none ∧ 32 ≤ x.dlen ∧ t.testBusy unit corner = false) ∧
    (∃ h unit slot corner x t, ∃ s : State, Fits (.testRun h unit slot corner x) ∧ Comes 0x0902 [1] false h s t ∧ uidOk unit = true ∧ testClass unit = true ∧
      t.mayTest h unit = false) ∧
    (∃ h unit t, ∃ s : State, Fits (.testAbort h unit) ∧ Comes 0x0903 [1] false h s t ∧ uidOk unit = true ∧
      t.tr.tests.any (t.abortsTest h.ctx unit) = true) ∧
    (∃ h unit t, ∃ s : State, Fits (.testAbort h unit) ∧ Comes 0x0903 [1] false h s t ∧ t.tr.tests.any (t.abortsTest h.ctx unit) = false) :=
  ⟨⟨hdr 5 5 1, uidComp 3, 2, 6, ⟨1, 0, 128⟩, _, testing (some somePack) [], by decide +kernel, ⟨by decide +kernel, rfl, rfl⟩, by decide +kernel⟩,
   ⟨hdr 5 5 1, uidSc 0, 2, 4, ⟨1, 0, 64⟩, _, testing (some somePack) [], by decide +kernel, ⟨by decide +kernel, rfl, rfl⟩, by decide +kernel⟩,
   ⟨hdr 5 5 1, uidLink 0, 2, 4, ⟨1, 0, 64⟩, _, testing (some somePack) [], by decide +kernel, ⟨by decide +kernel, rfl, rfl⟩, by decide +kernel⟩,
   ⟨hdr 5 5 1, uidComp 3, _, testing none [someTest (uidCluster 3 2) 0], by decide +kernel, ⟨by decide +kernel, rfl, rfl⟩, by decide +kernel⟩,
   ⟨hdr 5 5 1, uidComp 2, _, testing none [someTest (uidCluster 3 2) 0], by decide +kernel, ⟨by decide +kernel, rfl, rfl⟩, by decide +kernel⟩⟩
theorem witness_TestCommandsComplete_ends :
    (∃ unit f tu, ∃ s : State, Fits (.testUnitDone unit f) ∧ s.testOn unit = some tu ∧ uClass unit = 3 ∧ (s.region (uRegion unit)).cd = .on) ∧
    (∃ unit f tu, ∃ s : State, Fits (.testUnitDone unit f) ∧ s.testOn unit = some tu ∧ uClass unit = 0x12 ∧ f.failed = []) ∧
    (∃ unit f, ∃ s : State, Fits (.testUnitDone unit f) ∧ s.testOn unit = none) ∧
    (∃ unit tu p, ∃ s : State, Fits (.testTimeLimit unit) ∧ s.testOn unit = some tu ∧ s.tr.packs.get none tu.slot = some p ∧
      tu.since + thirds p.tmax < s.clk.wall) ∧
    (∃ unit tu p, ∃ s : State, Fits (.testTimeLimit unit) ∧ s.testOn unit = some tu ∧ s.tr.packs.get none tu.slot = some p ∧
      s.clk.wall ≤ tu.since + thirds p.tmax) :=
  ⟨⟨uidCluster 3 2, ⟨[19], 0x12, false, 870⟩, _, testing (some somePack) [someTest (uidCluster 3 2) 0], by decide +kernel, rfl, by decide +kernel⟩,
   ⟨uidLink 1, ⟨[], 0, false, 0⟩, _, testing (some somePack) [someTest (uidLink 1) 0], by decide +kernel, rfl, by decide +kernel⟩,
   ⟨uidLink 1, ⟨[], 0, false, 0⟩, testing (some somePack) [], by decide +kernel⟩,
   ⟨uidCluster 3 2, _, _, { testing (some somePack) [someTest (uidCluster 3 2) 0] with clk := { up.clk with wall := thirds 5 + 1 } }, by decide +kernel, rfl, rfl, by decide +kernel⟩,
   ⟨uidCluster 3 2, _, _, { testing (some somePack) [someTest (uidCluster 3 2) 0] with clk := { up.clk with wall := thirds 5 } }, by decide +kernel, rfl, rfl, by decide +kernel⟩⟩

/-- A module whose log holds record 0, of context 5, and whose context 5 has TRACE. -/
def logged : State :=
  { userAt 2 { opened with w0 := 0xFFFFFFFFFFFFFFFF#64 } with log := { recs := [(0, { ctx := 5 })], next := 1 } }
theorem witness_LogCommandsComplete_read :
    (∃ h first count x t, ∃ s : State, Fits (.logRead h first count x) ∧ Comes 0x0A01 [1] false h s t ∧ t.log.oldest ≤ first ∧ first + count ≤ t.log.next ∧
      t.refBad h.src x = none ∧ t.ha.cxl = true) ∧
    (∃ h first count x t, ∃ s : State, Fits (.logRead h first count x) ∧ Comes 0x0A01 [1] false h s t ∧ (first < t.log.oldest ∨ t.log.next < first + count) ∧
      t.refBad h.src x = none) ∧
    (∃ c i r, ∃ s : State, s.log.recs.find? (fun p => p.1 = i) = some (i, r) ∧ r.ctx ≠ c ∧ c ≠ 0) ∧
    (∃ i r, ∃ s : State, s.log.recs.find? (fun p => p.1 = i) = some (i, r)) ∧
    (∃ h t, ∃ s : State, Fits (.logStatus h) ∧ Comes 0x0A02 [1] false h s t) :=
  ⟨⟨{ hdr 5 5 2 with len := 1 }, 0, 1, ⟨1, 0, 256⟩, _, logged, by decide +kernel, ⟨by decide +kernel, rfl, rfl⟩, by decide +kernel⟩,
   ⟨{ hdr 5 5 2 with len := 1 }, 0, 2, ⟨1, 0, 256⟩, _, logged, by decide +kernel, ⟨by decide +kernel, rfl, rfl⟩, by decide +kernel⟩,
   ⟨6, 0, _, logged, rfl, by decide +kernel⟩, ⟨0, _, logged, rfl⟩,
   ⟨{ hdr 5 5 2 with len := 1 }, _, logged, by decide +kernel, ⟨by decide +kernel, rfl, rfl⟩⟩⟩
theorem witness_LogCommandsComplete_trace :
    (∃ h unit start stop x t, ∃ s : State, Fits (.traceConfig h unit 1 start stop x) ∧ Comes 0x0A03 [2] false h s t ∧ (t.ctx h.ctx).trace_ = true ∧
      uidOk unit = true ∧ (h.sys = true ∨ t.telemOk h.ctx unit = true) ∧ t.refBad h.src x = none ∧ t.ha.cxl = true) ∧
    (∃ h unit start stop x t, ∃ s : State, Fits (.traceConfig h unit 0 start stop x) ∧ Comes 0x0A03 [2] false h s t ∧ (t.ctx h.ctx).trace_ = true ∧
      uidOk unit = true ∧ (h.sys = true ∨ t.telemOk h.ctx unit = true)) ∧
    (∃ h unit flags start stop x t, ∃ s : State, Fits (.traceConfig h unit flags start stop x) ∧ Comes 0x0A03 [2] false h s t ∧
      (t.ctx h.ctx).trace_ = false) ∧
    (∃ unit, ∃ s : State, Fits (.traceWindowEnd unit) ∧ s.tr.traces ≠ []) :=
  ⟨⟨hdr 5 5 2, uidTile 192 0, 0, 4096, ⟨1, 0, 256⟩, _, logged, by decide +kernel, ⟨by decide +kernel, rfl, rfl⟩, by decide +kernel⟩,
   ⟨hdr 5 5 2, uidTile 192 0, 0, 4096, ⟨1, 0, 256⟩, _, logged, by decide +kernel, ⟨by decide +kernel, rfl, rfl⟩, by decide +kernel⟩,
   ⟨hdr 5 5 2, uidTile 192 0, 1, 0, 4096, ⟨1, 0, 256⟩, _, userAt 2 opened, by decide +kernel, ⟨by decide +kernel, rfl, rfl⟩, by decide +kernel⟩,
   ⟨uidTile 192 0, { up with tr := { up.tr with traces := [⟨1, uidTile 192 0, 0, 4096, ⟨1, 0, 256⟩, 5, 0, []⟩] } }, by decide +kernel⟩⟩
theorem witness_LogCommandsComplete_windows :
    (∃ s : State, Fits .logRateWindowEnd ∧ s.log.winStart + thirds 1 ≤ s.clk.wall ∧ s.log.dropped = 0) ∧
    (∃ u, ∃ s : State, Fits .logRateWindowEnd ∧ s.log.winStart + thirds 1 ≤ s.clk.wall ∧ s.log.dropped ≠ 0 ∧
      (s.logRec 3 2 0xFFFF 28 (leBytes 4 s.log.dropped ++ leBytes 2 s.log.dropCls ++ leBytes 2 0 ++ leBytes 4 s.log.dropUnit ++ leBytes 8 s.log.dropStamp ++
        leBytes 8 s.log.winStamp)).postFault s.log.dropUnit s.log.dropCls s.log.next 0 = u) ∧
    (∃ s : State, Fits .logRateWindowEnd ∧ s.clk.wall < s.log.winStart + thirds 1) ∧
    (∃ u v, ∃ s : State, Fits .powerFailCapture ∧ s.inputsLow = true ∧ s.tr.boot ≠ .standby ∧
      ({ s with regions := allRegions.foldl (fun (t : Tab Region) r => t.upd {} r (fun g => { g with cd := .off, cdQueued := false })) s.regions } : State) = u ∧
      u.capture = v) ∧
    (∃ s : State, Fits .powerFailCapture ∧ s.inputsLow = false) :=
  ⟨⟨{ up with clk := { up.clk with wall := thirds 1 } }, by decide +kernel⟩,
   ⟨_, { up with clk := { up.clk with wall := thirds 1 }, log := { dropped := 1 } }, by decide +kernel, by decide +kernel, by decide +kernel, rfl⟩,
   ⟨{ up with clk := { up.clk with wall := thirds 1 - 1 } }, by decide +kernel⟩, ⟨_, _, up, by decide +kernel, rfl, by decide +kernel, rfl, rfl⟩,
   ⟨{ up with pwr := { ins := (List.range 6).map (fun i => (i, { v := 4400 })) } }, by decide +kernel⟩⟩


/-! Witnesses: chapters 14 and 19, trust and system commands. -/

/-- The key to enrol as its packet carries it. -/
def keyBytes : List Byte := testKey ++ List.replicate 31 0#8
/-- The new officer's own signature over its enrolment into slot 1 at OGEN 0. -/
def enrolBlk : SigBlk := { testBlk 0x506cdcd6b3961c0ee97689e681aa3ead8a4249f835cd1316f27ef462f5956ecd56110da1d24cc4d7fa3e964f8b9ca802 with slot := 0xFF }
/-- Officer 0's signature over its retirement at OGEN 0. -/
def retireBlk : SigBlk := testBlk 0x581a1f3a21531e7e21937013f8a2deca667aa58052b6eb9361c17407948ba71a54aaab3c6468e8dbf87a9df059635a5e
/-- The system ring with no officer enrolled. -/
def noOfficer (len : Nat) : State := { sysRing len opened with tr := up.tr }
theorem witness_TrustCommandsComplete :
    (∃ h nonce x t, ∃ s : State, Fits (.attest h nonce x) ∧ Comes 0x0B02 [2] false h s t ∧ t.refBad h.src x = none ∧ t.ha.cxl = true) ∧
    (∃ h x t, ∃ s : State, Fits (.certRead h x) ∧ Comes 0x0B05 [1] false h s t ∧ t.refBad h.src x = none ∧ t.ha.cxl = true) ∧
    (∃ h slot key blks t, ∃ s : State, Fits (.officerEnrol h slot key blks) ∧ Comes 0x0B03 [h.len] true h s t ∧ h.len = 5 + 4 * blks.length ∧ blks.length ≤ 3 ∧
      t.tr.newKeyOk key = true ∧ blks.head?.map SigBlk.slot = some 0xFF ∧
      t.tr.blocksOk (some (key.take 97)) (t.tr.statement 3 slot t.tr.ogen.toNat (sha384 (key.take 97))) blks = true ∧
      min 2 t.tr.officers.length ≤ officersIn blks ∧ slot < 8 ∧ t.tr.officers.get [] slot = []) ∧
    (∃ h slot key blks t, ∃ s : State, Fits (.officerEnrol h slot key blks) ∧ Comes 0x0B03 [h.len] true h s t ∧ h.len = 5 + 4 * blks.length ∧
      1 ≤ blks.length ∧ blks.length ≤ 3 ∧ t.tr.newKeyOk key = true ∧
      t.tr.blocksOk (some (key.take 97)) (t.tr.statement 3 slot t.tr.ogen.toNat (sha384 (key.take 97))) blks = false) ∧
    (∃ h slot blks t, ∃ s : State, Fits (.officerRetire h slot blks) ∧ Comes 0x0B04 [h.len] true h s t ∧ h.len = 1 + 4 * blks.length ∧ 1 ≤ blks.length ∧
      blks.length ≤ 2 ∧ t.tr.blocksOk none (t.tr.statement 4 slot t.tr.ogen.toNat []) blks = true ∧
      max 1 (min 2 t.tr.officers.length) ≤ officersIn blks ∧ slot < 8 ∧ t.tr.officers.get [] slot ≠ []) ∧
    (∃ h slot blks t, ∃ s : State, Fits (.officerRetire h slot blks) ∧ Comes 0x0B04 [h.len] true h s t ∧ h.len = 1 + 4 * blks.length ∧ 1 ≤ blks.length ∧
      blks.length ≤ 2 ∧ t.tr.blocksOk none (t.tr.statement 4 slot t.tr.ogen.toNat []) blks = false) :=
  ⟨⟨hdr 5 5 2, List.replicate 32 1#8, ⟨1, 0, 640⟩, _, userAt 2 opened, by decide +kernel, ⟨by decide +kernel, rfl, rfl⟩, by decide +kernel⟩,
   ⟨hdr 5 5 1, ⟨1, 0, 4096⟩, _, userAt 1 opened, by decide +kernel, ⟨by decide +kernel, rfl, rfl⟩, by decide +kernel⟩,
   ⟨hdr 0 0 9, 1, keyBytes, [enrolBlk], _, noOfficer 9, by decide +kernel, ⟨by decide +kernel, rfl, rfl⟩, by decide +kernel⟩,
   ⟨hdr 0 0 9, 2, keyBytes, [enrolBlk], _, noOfficer 9, by decide +kernel, ⟨by decide +kernel, rfl, rfl⟩, by decide +kernel⟩,
   ⟨hdr 0 0 5, 0, [retireBlk], _, sysRing 5 opened, by decide +kernel, ⟨by decide +kernel, rfl, rfl⟩, by decide +kernel⟩,
   ⟨hdr 0 0 5, 0, [fenceBlk], _, sysRing 5 opened, by decide +kernel, ⟨by decide +kernel, rfl, rfl⟩, by decide +kernel⟩⟩

/-- A firmware image of version 9: one empty section of type 1 and a certificate of one byte. -/
def fwBytes : List Byte :=
  leBytes 4 0x4C574657 ++ leBytes 4 9 ++ leBytes 4 0 ++ leBytes 4 1 ++ leBytes 48 0 ++ leBytes 8 1 ++ leBytes 8 128 ++ leBytes 8 0 ++
    (leBytes 40 0x38B060A751AC96384CD9327EB1B1E36A21FDB71114BE07434C0CC7BF63F6E1DA274EDEBFE76F65FB).reverse ++ leBytes 4 1 ++ [0x2A]
/-- The image with its signature. -/
def signedFw : List Byte :=
  fwBytes ++ bytes48 testR ++ bytes48 0x38e07a39f318b91b84660f29cff26344a4282e09c3ebdde42cdb50d278acfc3f632142360e4888e52d420a104d9728a7
/-- A module whose certificate of one byte chains to the root. -/
def chained : State := { dataAt 1 opened with tr := { up.tr with chained := [([0x2A#8], testKey)] } }
/-- A module with stack controllers 0 and 1 fitted, where 0 has these egress buffers. -/
def rimmed (e : List Egress) : State :=
  let s := dataAt 1 opened
  { s with scs := (s.scs.upd {} 0 (fun k => { k with egress := e })), tr := { up.tr with variant := some ⟨1, 0, 3, 0, 0, 0, 0⟩ } }
theorem witness_SystemCommandsComplete_reset :
    (∃ h level unit t, ∃ s : State, Fits (.reset h level unit) ∧ Comes 0x0C01 [1] false h s t ∧ h.sys = true ∧ h.mgmt = false ∧ level ≤ 1 ∧
      uidOk unit = true ∧ uClass unit = (if level = 0 then 1 else 3)) ∧
    (∃ h unit t, ∃ s : State, Fits (.reset h 2 unit) ∧ Comes 0x0C01 [1] false h s t ∧ h.mgmt = false) ∧
    (∃ h unit t, ∃ s : State, Fits (.reset h 3 unit) ∧ Comes 0x0C01 [1] false h s t ∧ h.sys = true) ∧
    (∃ h level unit t, ∃ s : State, Fits (.reset h level unit) ∧ Comes 0x0C01 [1] false h s t ∧
      ((h.sys = false ∧ level ≠ 2) ∨ (h.mgmt = true ∧ level ≠ 3))) ∧
    (∃ level party, ∃ s : State, s.resets.find? (fun o => s.covers o level party) = none) :=
  ⟨⟨hdr 0 0 1, 1, uidCluster 3 2, _, dataAt 1 opened, by decide +kernel, ⟨by decide +kernel, rfl, rfl⟩, by decide +kernel⟩,
   ⟨hdr 5 5 1, 0, _, userAt 1 opened, by decide +kernel, ⟨by decide +kernel, rfl, rfl⟩, by decide +kernel⟩,
   ⟨hdr 0 0 1, 0, _, dataAt 1 opened, by decide +kernel, ⟨by decide +kernel, rfl, rfl⟩, by decide +kernel⟩,
   ⟨hdr 5 5 1, 3, 0, _, userAt 1 opened, by decide +kernel, ⟨by decide +kernel, rfl, rfl⟩, by decide +kernel⟩,
   ⟨0, 193, { up with resets := [⟨0, 192, 8, [], false⟩] }, by decide +kernel⟩⟩
theorem witness_SystemCommandsComplete_rest :
    (∃ h x t, ∃ s : State, Fits (.regionMapRead h x) ∧ Comes 0x0C02 [1] true h s t ∧ t.refBad h.src x = none ∧ t.ha.cxl = true) ∧
    (∃ h x t, ∃ s : State, Fits (.defectMapRead h x) ∧ Comes 0x0C06 [1] true h s t ∧ t.refBad h.src x = none ∧ t.ha.cxl = true) ∧
    (∃ h n rg rd t, ∃ s : State, Fits (.rimConfig h (2 ^ n) 3 rg rd) ∧ Comes 0x0C03 [1] true h s t ∧ n < 24 ∧
      (2 ^ n &&& (t.tr.variant.map Variant.scmask).getD 0) = 2 ^ n ∧ rgOk rg = true ∧ rdOk rd = true ∧ (t.sc n).egress = [] ∧ (t.sc n).owners = []) ∧
    (∃ h n rg rd t, ∃ s : State, Fits (.rimConfig h (2 ^ n) 2 rg rd) ∧ Comes 0x0C03 [1] true h s t ∧ n < 24 ∧
      (2 ^ n &&& (t.tr.variant.map Variant.scmask).getD 0) = 2 ^ n ∧ rdOk rd = true ∧ ((t.sc n).egress ≠ [] ∨ (t.sc n).owners ≠ [])) ∧
    (∃ h mode flags delay t, ∃ s : State, Fits (.beatMode h mode flags delay) ∧ Comes 0x0C04 [1] true h s t ∧ mode ≤ 1 ∧ flags < 2 ∧ delay ≤ 1000 ∧
      ¬(mode = 1 ∧ bit flags 0 = true)) ∧
    (∃ h delay t, ∃ s : State, Fits (.beatMode h 1 1 delay) ∧ Comes 0x0C04 [1] true h s t) ∧
    (∃ h x t, ∃ s : State, Fits (.fwStage h x) ∧ Comes 0x0C05 [1] true h s t ∧ t.refBad h.src x = none ∧ t.ha.cxl = true) ∧
    (∃ b, ∃ s : State, s.tr.fwOk b = false) ∧
    (∃ b, ∃ s : State, s.tr.fwOk b = true ∧ fwSection b 4 = none) :=
  ⟨⟨hdr 0 0 1, ⟨0, 0, 640⟩, _, dataAt 1 opened, by decide +kernel, ⟨by decide +kernel, rfl, rfl⟩, by decide +kernel⟩,
   ⟨hdr 0 0 1, ⟨0, 0, 64⟩, _, dataAt 1 opened, by decide +kernel, ⟨by decide +kernel, rfl, rfl⟩, by decide +kernel⟩,
   ⟨hdr 0 0 1, 1, 0x201, 0x4010, _, rimmed [], by decide +kernel, ⟨by decide +kernel, rfl, rfl⟩, by decide +kernel⟩,
   ⟨hdr 0 0 1, 0, 0, 0x80010, _, rimmed [⟨5, 3, [], [], false, []⟩], by decide +kernel, ⟨by decide +kernel, rfl, rfl⟩, by decide +kernel⟩,
   ⟨hdr 0 0 1, 1, 0, 1000, _, dataAt 1 opened, by decide +kernel, ⟨by decide +kernel, rfl, rfl⟩, by decide +kernel⟩,
   ⟨hdr 0 0 1, 0xFFFF, _, dataAt 1 opened, by decide +kernel, ⟨by decide +kernel, rfl, rfl⟩⟩,
   ⟨hdr 0 0 1, ⟨0, 0, 4096⟩, _, dataAt 1 opened, by decide +kernel, ⟨by decide +kernel, rfl, rfl⟩, by decide +kernel⟩,
   ⟨[], chained, by decide +kernel⟩, ⟨signedFw, chained, by decide +kernel⟩⟩


/-! Witnesses: chapter 15. -/

/-- A module whose context 5 has a run and one reset ordered for beat 8, at its boundary. -/
def resetting (level party beat : Nat) : State :=
  { up with clk := { up.clk with beat := 8, cycle := 0 }, resets := [⟨level, party, beat, [], true⟩], ctxs := [(0, Ctx.system), (5, { opened with run := some (runOf5 .step) })] }
/-- A region whose switch-on is queued. -/
def queuedOn (cd : Domain) : State := { up with regions := [(3, { ctx := 5, cd := cd, cdQueued := true })] }
theorem witness_ResetCommandsComplete :
    (∃ tile o, ∃ s : State, Fits (.tileReset tile) ∧ s.clk.cycle = 0 ∧
      s.resets.find? (fun q => decide (q.level = 0) && decide (q.party = tile) && decide (q.beat ≤ s.clk.beat)) = some o) ∧
    (∃ tile, ∃ s : State, Fits (.tileReset tile) ∧ (s.clk.cycle ≠ 0 ∨ ∀ q ∈ s.resets, ¬(q.level = 0 ∧ q.party = tile ∧ q.beat ≤ s.clk.beat))) ∧
    (∃ r u, ∃ s : State, (s.abortStreams 8 (fun q => decide (q.ctx = s.serves r))).dropReds (s.serves r) = u ∧ isUser (s.serves r) = true ∧
      (u.ctx (s.serves r)).run.any Run.started = true) ∧
    (∃ region cluster o, ∃ s : State, Fits (.clusterReset region cluster) ∧ s.dueReset 1 (4 * region + cluster) = some o) ∧
    (∃ region cluster, ∃ s : State, Fits (.clusterReset region cluster) ∧ s.dueReset 1 (4 * region + cluster) = none) ∧
    (∃ ctx o u v, ∃ s : State, Fits (.partitionReset ctx) ∧ s.dueReset 2 ctx = some o ∧
      (((s.killRuns ctx (if o.byFault then stFaulted else stAborted) noCause).abortStreams 8 (fun q => decide (q.ctx = ctx))).dropReds ctx).freeBuffers ctx = u ∧
      u.reclaim (fun l => (decide (uClass l.holder ≤ 6) && (dedup (u.bound ctx ++ u.working ctx)).contains (uRegion l.holder)) ||
        (decide (l.kind = 4) && decide (l.ctx = ctx))) = v) ∧
    (∃ ctx, ∃ s : State, Fits (.partitionReset ctx) ∧ s.dueReset 2 ctx = none) ∧
    (∃ region, ∃ s : State, Fits (.computeDomainOn region) ∧ s.clk.cycle = 0 ∧ (s.region region).cdQueued = true ∧ (s.region region).cd = .off ∧
      (s.region region).st ≠ .closed ∧ (s.region region).st ≠ .transitLost) ∧
    (∃ region, ∃ s : State, Fits (.computeDomainOn region) ∧ (s.clk.cycle ≠ 0 ∨ (s.region region).cdQueued = false ∨ (s.region region).cd ≠ .off)) :=
  ⟨⟨192, _, resetting 0 192 8, by decide +kernel, rfl, rfl⟩, ⟨192, resetting 0 192 9, by decide +kernel⟩,
   ⟨3, _, resetting 0 192 8, rfl, by decide +kernel, by decide +kernel⟩,
   ⟨3, 2, _, resetting 1 14 8, by decide +kernel, rfl⟩, ⟨3, 2, resetting 1 14 9, by decide +kernel⟩,
   ⟨5, _, _, _, resetting 2 5 8, by decide +kernel, rfl, rfl, rfl⟩, ⟨5, resetting 2 5 9, by decide +kernel⟩,
   ⟨3, queuedOn .off, by decide +kernel⟩, ⟨3, queuedOn .on, by decide +kernel⟩⟩

/-- What a boot finds where everything is there and passes; with these stacks present. -/
def finds (present : Nat) : BootFinds := ⟨present, 2 ^ 24 - 1, List.replicate 64 ⟨false, 0, 0, 0, false, 0, 0, 0, 0⟩, true, true, 1, 2, [], [], none, 400, []⟩
/-- A variant certificate of variant 1 for a module without an identity certificate. -/
def certBytes : List Byte :=
  leBytes 4 0x4C575643 ++ leBytes 2 1 ++ [1, 0] ++
    bytes48 0x38b060a751ac96384cd9327eb1b1e36a21fdb71114be07434c0cc7bf63f6e1da274edebfe76f65fbd51ad2f14898b95b ++ leBytes 3 (2 ^ 24 - 1) ++ [0] ++ leBytes 8 (2 ^ 64 - 1) ++
    leBytes 10 0 ++ leBytes 10 (2 ^ 0 + 2 ^ 9 + 2 ^ 30 + 2 ^ 39 + 2 ^ 40 + 2 ^ 49 + 2 ^ 70 + 2 ^ 79) ++ leBytes 4 1 ++ leBytes 36 0
/-- The certificate with its signature. -/
def signedCert : List Byte := certBytes ++ bytes48 testR ++ bytes48 0x29afbb2ab2ae21841e3bfefdaa8794a636a429972a464ada8bbadb7fa0e9e20df21cc04b1de3ee769b6d69e46f49511b
/-- A module in standby with every input live, cool water, an image in slot 0 and its certificate. -/
def cold : State :=
  { State.reset with
    pwr := { ins := (List.range 6).map (fun i => (i, { v := 5400, live := true, opened := none })) }
    gov := { flow := 400, inlet := 80 }
    tr := { chained := [([0x2A#8], testKey)], fw := [(0, signedFw)], varCert := signedCert, variantKey := testKey } }
theorem witness_BootCommandsComplete_cold :
    (∃ b, ∃ s : State, Fits (.coldBoot b) ∧ s.tr.boot = .standby ∧ s.allLive = true ∧ s.bootOpen.coolantFit = true) ∧
    (∃ b, ∃ s : State, Fits (.coldBoot b) ∧ s.tr.boot = .standby ∧ s.allLive = true ∧ s.bootOpen.coolantFit = false) ∧
    (∃ b, ∃ s : State, Fits (.coldBoot b) ∧ s.tr.boot = .standby ∧ s.tr.coldAsked = false ∧ s.allLive = false) ∧
    (∃ b, ∃ s : State, Fits (.coldBoot b) ∧ s.tr.boot = .ready ∧ s.tr.coldAsked = false) ∧
    (∃ s : State, s.tr.tryFw = none) ∧
    (∃ b : BootFinds, ∃ k, ∃ s : State, s.tr.tryFw = some k ∧ (s.bootLoad k).tr.variantOk (s.bootLoad k).tr.varCert b.present = false) ∧
    (∃ b : BootFinds, ∃ k, ∃ s : State, s.tr.tryFw = some k ∧ (s.bootLoad k).tr.variantOk (s.bootLoad k).tr.varCert b.present = true) :=
  ⟨⟨finds (2 ^ 24 - 1), cold, by decide +kernel⟩, ⟨finds 0, { cold with gov := {} }, by decide +kernel⟩, ⟨finds 0, State.reset, by decide +kernel⟩,
   ⟨finds 0, up, by decide +kernel⟩, ⟨State.reset, by decide +kernel⟩, ⟨finds 1, 0, cold, by decide +kernel⟩, ⟨finds (2 ^ 24 - 1), 0, cold, by decide +kernel⟩⟩
theorem witness_BootCommandsComplete_warm :
    (∃ inlet flow, ∃ s : State, Fits (.coolantWaitTimeout inlet flow) ∧ s.tr.boot = .coolantWait) ∧
    (∃ inlet flow, ∃ s : State, Fits (.coolantWaitTimeout inlet flow) ∧ s.tr.boot ≠ .coolantWait) ∧
    (∃ b, ∃ s : State, Fits (.moduleWarmReset b) ∧ s.tr.boot = .ready ∧ s.tr.warmTrigger ≠ 0 ∧ s.clk.cycle = 0) ∧
    (∃ b, ∃ s : State, Fits (.moduleWarmReset b) ∧ s.tr.boot = .warm) ∧
    (∃ b, ∃ s : State, Fits (.moduleWarmReset b) ∧ s.tr.boot = .ready ∧ (s.tr.warmTrigger = 0 ∨ s.clk.cycle ≠ 0)) ∧
    (∃ s : State, s.tr.boot = .ready ∧ s.tr.wdCold = false) ∧
    (∃ checkpoint pc lastFeed, Fits (.keeperWatchdog checkpoint pc lastFeed)) :=
  ⟨⟨190, 100, { up with tr := { up.tr with boot := .coolantWait } }, by decide +kernel⟩, ⟨190, 100, up, by decide +kernel⟩,
   ⟨finds 0, { up with tr := { up.tr with warmTrigger := 1 } }, by decide +kernel⟩, ⟨finds 0, { up with tr := { up.tr with boot := .warm } }, by decide +kernel⟩,
   ⟨finds 0, up, by decide +kernel⟩, ⟨up, by decide +kernel⟩, ⟨1, 2, 3, by decide +kernel⟩⟩


/-! Witnesses: chapters 16 and 17. -/

/-- A sample with this hottest sensor and this power in mW. -/
def hot (t : Int) (mw : Nat) : Sample := { t0 := t, mw := mw }
/-- A module whose region 3 is as given. -/
def heated (g : Region) : State := { up with regions := [(3, g)] }
/-- Region 3 in service of context 5. -/
def serving3 : Region := { ctx := 5, cd := .on }
theorem witness_HeatCommandsComplete_region :
    (∃ region smp droops, ∃ s : State, Fits (.regionSensorSample region smp droops) ∧ (s.region region).gone = false ∧ smp.hottest < 380 ∧
      s.regionOver region smp = false) ∧
    (∃ region smp droops, ∃ s : State, Fits (.regionSensorSample region smp droops) ∧ (s.region region).gone = false ∧ smp.hottest < 380 ∧
      s.regionOver region smp = true ∧ (s.region region).overBeats = 0) ∧
    (∃ region smp droops, ∃ s : State, Fits (.regionSensorSample region smp droops) ∧ (s.region region).gone = false ∧ smp.hottest < 380 ∧
      s.regionOver region smp = true ∧ (s.region region).overBeats ≠ 0) ∧
    (∃ region smp droops u, ∃ s : State, Fits (.regionSensorSample region smp droops) ∧ (s.region region).gone = false ∧ (s.region region).st = .active ∧ (s.region region).cd = .on ∧
      380 ≤ smp.hottest ∧ smp.hottest < 440 ∧ s.regionOver region smp = false ∧ s.onRegion region (Region.sampled s.clk.m smp (dedup (droops.filter (· < 4))) false) = u ∧
      isUser (u.serves region) = true ∧ (u.ctx (u.serves region)).moving region = false) ∧
    (∃ region smp droops, ∃ s : State, Fits (.regionSensorSample region smp droops) ∧ (s.region region).gone = false ∧ (s.region region).cd = .on ∧
      440 ≤ smp.hottest ∧ s.regionOver region smp = false) ∧
    (∃ r trips, ∃ s : State, (s.region r).trips.filter (fun t => decide (s.clk.wall < t + thirds 86400000)) = trips ∧ trips.length < 2) ∧
    (∃ r, ∃ s : State, 2 ≤ ((s.region r).trips.filter (fun t => decide (s.clk.wall < t + thirds 86400000))).length ∧ 60 ≤ s.gov.inlet ∧ s.gov.inlet ≤ 160) ∧
    (∃ region smp droops, ∃ s : State, Fits (.regionSensorSample region smp droops) ∧ (s.region region).gone = true) :=
  ⟨⟨3, hot 379 0, [1], heated serving3, by decide +kernel⟩, ⟨3, hot 0 100000000, [], heated serving3, by decide +kernel⟩,
   ⟨3, hot 0 100000000, [], heated { serving3 with overBeats := 1 }, by decide +kernel⟩,
   ⟨3, hot 380 0, [], _, heated serving3, by decide +kernel, by decide +kernel, by decide +kernel, by decide +kernel, by decide +kernel, by decide +kernel, by decide +kernel, rfl,
     by decide +kernel, by decide +kernel⟩,
   ⟨3, hot 440 0, [], heated serving3, by decide +kernel⟩, ⟨3, [7], heated { serving3 with trips := [7] }, by decide +kernel⟩,
   ⟨3, { heated { serving3 with trips := [7, 8] } with gov := { inlet := 160 } }, by decide +kernel⟩,
   ⟨3, hot 440 0, [], heated { serving3 with st := .transitLost }, by decide +kernel⟩⟩
/-- A module whose stack controller 1 serves under this limit. -/
def limited (n : Nat) : State := { up with scs := [(1, { serving := true, limit := n })] }
theorem witness_HeatCommandsComplete_rest :
    (∃ region, ∃ s : State, Fits (.heatHigh region) ∧ 64 ≤ (s.region region).hotBeats ∧ (s.region region).cd = .on ∧
      ∀ t ∈ allRegions, s.canHost region t (fun q => decide ((s.region q).tmax + 60 ≤ (s.region region).tmax)) = false) ∧
    (∃ region, ∃ s : State, Fits (.heatHigh region) ∧ ((s.region region).hotBeats < 64 ∨ (s.region region).cd ≠ .on)) ∧
    (∃ region, ∃ s : State, Fits (.heatOffRecovery region) ∧ (s.region region).st = .heatOff ∧ (s.region region).heatTrip = true ∧
      1024 ≤ (s.region region).coolBeats) ∧
    (∃ region, ∃ s : State, Fits (.heatOffRecovery region) ∧ ((s.region region).heatTrip = false ∨ (s.region region).coolBeats < 1024)) ∧
    (∃ sc temp, ∃ s : State, Fits (.stackSensorSample sc temp) ∧ (s.sc sc).serving = true ∧ 105 ≤ temp ∧ (s.sc sc).limit ≠ 2) ∧
    (∃ sc temp, ∃ s : State, Fits (.stackSensorSample sc temp) ∧ (s.sc sc).serving = true ∧ (s.sc sc).limit = 2 ∧ 100 ≤ temp) ∧
    (∃ sc temp, ∃ s : State, Fits (.stackSensorSample sc temp) ∧ (s.sc sc).serving = true ∧ 95 ≤ temp ∧
      (temp < 100 ∨ ((s.sc sc).limit ≠ 2 ∧ temp < 105))) ∧
    (∃ sc temp, ∃ s : State, Fits (.stackSensorSample sc temp) ∧ (s.sc sc).serving = true ∧ temp < 95) ∧
    (∃ inlet outlet flow, Fits (.coolantSample inlet outlet flow) ∧ inlet ≤ 180 ∧ 180 ≤ flow ∧ outlet ≤ 260) ∧
    (∃ inlet outlet flow u, ∃ s : State, Fits (.coolantSample inlet outlet flow) ∧ (180 < inlet ∨ flow < 180 ∨ 260 < outlet) ∧ s.tr.wafer = true ∧
      s.gov.coolOff = false ∧ ({ s with gov := { s.gov with inlet := inlet, outlet := outlet, flow := flow, derate := decide (160 < inlet) } } : State) = u) :=
  ⟨⟨3, heated { serving3 with hotBeats := 64 }, by decide +kernel⟩, ⟨3, heated { serving3 with hotBeats := 63 }, by decide +kernel⟩,
   ⟨3, heated { st := .heatOff, heatTrip := true, coolBeats := 1024 }, by decide +kernel⟩,
   ⟨3, heated { st := .heatOff, heatTrip := true, coolBeats := 1023 }, by decide +kernel⟩,
   ⟨1, 105, limited 1, by decide +kernel⟩, ⟨1, 100, limited 2, by decide +kernel⟩, ⟨1, 99, limited 2, by decide +kernel⟩, ⟨1, 94, limited 2, by decide +kernel⟩,
   ⟨180, 260, 180, by decide +kernel⟩, ⟨181, 260, 180, _, up, by decide +kernel, by decide +kernel, by decide +kernel, by decide +kernel, rfl⟩⟩

/-- A module with a repetition to run on tile 192, fenced and held, for a fault of this class; its site suspect until this time. -/
def repeating (cls : Nat) (held : Bool) (sus : Nat) : State :=
  { withTile { goTile with fenced := true } with
    ctxs := [(0, Ctx.system), (5, { opened with part := { held := held } })]
    regions := [(3, { serving3 with suspect := if sus = 0 then [] else (List.range 20).map (fun i => (i, sus)) })]
    log := { reps := [⟨7, cls, uidTile 192 0, 0, 0, 0, 5, []⟩] } }
theorem witness_FaultCommandsComplete_repetition :
    (∃ idx r p, ∃ s : State, Fits (.repetition idx r) ∧ s.log.reps.find? (fun p => p.idx = idx) = some p ∧ (s.tile (uTile p.rep.unit)).fenced = true ∧
      r.aborted = false ∧ (s.ctx p.rep.ctx).part.held = true ∧ (repeatResult p.rep.cls r = 2 ∨ repeatResult p.rep.cls r = 6)) ∧
    (∃ idx r p, ∃ s : State, Fits (.repetition idx r) ∧ s.log.reps.find? (fun p => p.idx = idx) = some p ∧ (s.tile (uTile p.rep.unit)).fenced = true ∧
      r.aborted = false ∧ (s.ctx p.rep.ctx).part.held = true ∧ (repeatResult p.rep.cls r = 1 ∨ repeatResult p.rep.cls r = 4) ∧
      s.suspectUnit p.rep.unit = false ∧ (s.ctx p.rep.ctx).st ≠ .fenced) ∧
    (∃ idx r p, ∃ s : State, Fits (.repetition idx r) ∧ s.log.reps.find? (fun p => p.idx = idx) = some p ∧ (s.tile (uTile p.rep.unit)).fenced = true ∧
      r.aborted = false ∧ (s.ctx p.rep.ctx).part.held = true ∧ (repeatResult p.rep.cls r = 1 ∨ repeatResult p.rep.cls r = 4) ∧
      s.suspectUnit p.rep.unit = true) ∧
    (∃ idx r p, ∃ s : State, Fits (.repetition idx r) ∧ s.log.reps.find? (fun p => p.idx = idx) = some p ∧ (s.tile (uTile p.rep.unit)).fenced = true ∧
      r.aborted = false ∧ (s.ctx p.rep.ctx).part.held = true ∧ repeatResult p.rep.cls r = 3 ∧ (s.ctx p.rep.ctx).st ≠ .fenced) ∧
    (∃ idx r p, ∃ s : State, Fits (.repetition idx r) ∧ s.log.reps.find? (fun p => p.idx = idx) = some p ∧ (s.tile (uTile p.rep.unit)).fenced = true ∧
      r.aborted = false ∧ isUser p.rep.ctx = true ∧ (s.ctx p.rep.ctx).part.held = false) ∧
    (∃ idx r, ∃ s : State, Fits (.repetition idx r) ∧ s.log.reps.find? (fun p => p.idx = idx) = none) ∧
    (∃ cls, cls ≠ fcReflectMismatch) :=
  ⟨⟨7, ⟨true, false, some (4, true), false⟩, _, repeating fcReflectMismatch true 0, by decide +kernel, rfl, by decide +kernel⟩,
   ⟨7, ⟨true, true, none, false⟩, _, repeating fcReflectMismatch true 0, by decide +kernel, rfl, by decide +kernel⟩,
   ⟨7, ⟨true, true, none, false⟩, _, repeating fcReflectMismatch true 9, by decide +kernel, rfl, by decide +kernel⟩,
   ⟨7, ⟨true, false, some (4, false), false⟩, _, repeating fcReflectMismatch true 0, by decide +kernel, rfl, by decide +kernel⟩,
   ⟨7, ⟨true, true, none, false⟩, _, repeating fcReflectMismatch false 0, by decide +kernel, rfl, by decide +kernel⟩,
   ⟨7, ⟨true, true, none, false⟩, up, by decide +kernel⟩, ⟨0, by decide⟩⟩
theorem witness_FaultCommandsComplete_controllers :
    (∃ region u, ∃ s : State, Fits (.rcFault region true) ∧ (s.region region).gone = false ∧
      (s.region region).rcFails.filter (fun t => decide (s.clk.wall < t + thirds 86400000)) = [] ∧ s.keeperFault fcRcFault (uidRc region) 0 0 [] = u) ∧
    (∃ region ok fails u, ∃ s : State, Fits (.rcFault region ok) ∧ (s.region region).gone = false ∧
      (s.region region).rcFails.filter (fun t => decide (s.clk.wall < t + thirds 86400000)) = fails ∧ (ok = false ∨ fails ≠ []) ∧
      s.keeperFault fcRcFault (uidRc region) 0 0 [] = u) ∧
    (∃ region ok, ∃ s : State, Fits (.rcSilent region ok) ∧ (s.region region).teleWin + 2 ≤ s.clk.beat / 1024) ∧
    (∃ region ok, ∃ s : State, Fits (.rcSilent region ok) ∧ s.clk.beat / 1024 < (s.region region).teleWin + 2) ∧
    (∃ region, ∃ s : State, Fits (.transitSupplyLoss region) ∧ (s.region region).gone = false) ∧
    (∃ region, ∃ s : State, Fits (.transitSupplyLoss region) ∧ (s.region region).gone = true) ∧
    (∃ r q, ∃ s : State, r < 80 ∧ q < 10 ∧ 0 < q ∧ (∀ i, 0 < i → i < q → s.rcOut (r / 10 * 10 + (r % 10 + i) % 10) = true) ∧
      s.rcOut (r / 10 * 10 + (r % 10 + q) % 10) = false) :=
  ⟨⟨3, _, up, by decide +kernel, by decide +kernel, by decide +kernel, rfl⟩,
   ⟨3, true, _, _, heated { serving3 with rcFails := [1] }, by decide +kernel, by decide +kernel, rfl, by decide +kernel, rfl⟩,
   ⟨3, true, { up with clk := { up.clk with beat := 2048 } }, by decide +kernel⟩, ⟨3, true, { up with clk := { up.clk with beat := 2047 } }, by decide +kernel⟩,
   ⟨3, up, by decide +kernel⟩, ⟨3, heated { st := .transitLost }, by decide +kernel⟩,
   ⟨9, 1, up, by decide, by decide, by decide, fun i h1 h2 => absurd h1 (by omega), by decide +kernel⟩⟩


/-! Witnesses: chapters 18 to 20, sideband and inputs. -/

/-- A module in service with the auxiliary supply, and this trust state. -/
def sided (t : Trust) : State := { up with pwr := { aux := true }, tr := { t with boot := .ready, wafer := true } }
theorem witness_SidebandCommandsComplete_reads :
    (∃ s : State, Fits .smbusReadIdentity ∧ s.pwr.standbyUp = true) ∧
    (∃ u, ∃ s : State, Fits .smbusReadStatus ∧ s.pwr.standbyUp = true ∧ s.smbus (leBytes 2 s.smbStatus) = u) ∧
    (∃ s : State, Fits .smbusLogIndices ∧ s.pwr.standbyUp = true) ∧
    (∃ v, ∃ s : State, Fits (.smbusLogSelect v) ∧ s.pwr.standbyUp = true) ∧
    (∃ s : State, Fits .smbusLogReadLow ∧ s.pwr.standbyUp = true) ∧
    (∃ u, ∃ s : State, Fits .smbusLogReadHigh ∧ s.pwr.standbyUp = true ∧ s.smbus (s.smbHalf true) = u) ∧
    (∃ s : State, s.log.smbSel < s.log.oldest ∨ s.log.next ≤ s.log.smbSel) ∧
    (∃ c, ∃ s : State, Fits c ∧ s.pwr.standbyUp = false ∧ c ∈ [Instr.smbusReadIdentity, .smbusReadStatus, .smbusLogIndices, .smbusLogReadLow,
      .smbusLogReadHigh, .mgmtPortLinkUp, .smbusResetArm 0xA5, .smbusResetConfirm 0x5A]) :=
  ⟨⟨sided {}, by decide +kernel⟩, ⟨_, sided {}, by decide +kernel, by decide +kernel, rfl⟩, ⟨sided {}, by decide +kernel⟩, ⟨4294967295, sided {}, by decide +kernel⟩,
   ⟨sided {}, by decide +kernel⟩, ⟨_, sided {}, by decide +kernel, by decide +kernel, rfl⟩, ⟨up, by decide +kernel⟩, ⟨.smbusReadStatus, up, by decide +kernel⟩⟩
theorem witness_SidebandCommandsComplete_resets :
    (∃ s : State, Fits (.smbusResetArm 0xA5) ∧ s.pwr.standbyUp = true) ∧ (∃ v, Fits (.smbusResetArm v) ∧ v ≠ 0xA5) ∧
    (∃ t, ∃ s : State, Fits .smbusResetArmExpiry ∧ s.tr.armed = some t ∧ t ≤ s.clk.wall) ∧
    (∃ s : State, Fits .smbusResetArmExpiry ∧ ∀ t, s.tr.armed = some t → s.clk.wall < t) ∧
    (∃ t, ∃ s : State, Fits (.smbusResetConfirm 0x5A) ∧ s.pwr.standbyUp = true ∧ s.tr.armed = some t ∧ s.clk.wall < t) ∧
    (∃ v, ∃ s : State, Fits (.smbusResetConfirm v) ∧ (v ≠ 0x5A ∨ ∀ t, s.tr.armed = some t → t ≤ s.clk.wall)) ∧
    (∃ ns, Fits (.modRstNRelease ns) ∧ ns < 1000) ∧ (∃ ns, Fits (.modRstNRelease ns) ∧ 1000 ≤ ns ∧ ns ≤ 10 ^ 9) ∧
    (∃ ns, Fits (.modRstNRelease ns) ∧ 10 ^ 9 < ns) :=
  ⟨⟨sided {}, by decide +kernel⟩, ⟨0xA4, by decide +kernel, by decide⟩, ⟨0, sided { armed := some 0 }, by decide +kernel⟩,
   ⟨sided {}, by decide +kernel, fun t h => absurd h (by simp [sided])⟩, ⟨1, sided { armed := some 1 }, by decide +kernel⟩,
   ⟨0x5A, sided { armed := some 0 }, by decide +kernel, .inr (fun t h => by cases h; exact Nat.le_refl 0)⟩,
   ⟨999, by decide +kernel, by decide⟩, ⟨10 ^ 9, by decide +kernel, by decide, by decide⟩, ⟨10 ^ 9 + 1, by decide +kernel, by decide⟩⟩
theorem witness_SidebandCommandsComplete_port :
    (∃ v, ∃ s : State, Fits (.smbusSetIpv4 v) ∧ s.pwr.standbyUp = true) ∧
    (∃ v, ∃ s : State, Fits .mgmtPortLinkUp ∧ s.pwr.standbyUp = true ∧ s.tr.ipNext = some v ∧ v ≠ List.replicate v.length 0#8) ∧
    (∃ s : State, Fits .mgmtPortLinkUp ∧ s.pwr.standbyUp = true ∧ (s.tr.ipNext = none ∨ ∃ n, s.tr.ipNext = some (List.replicate n 0#8))) ∧
    (∃ v, ∃ s : State, Fits (.smbusWriteSbCfg v) ∧ s.pwr.standbyUp = true ∧ v % 4 ≠ 3) ∧ (∃ v, Fits (.smbusWriteSbCfg v) ∧ v % 4 = 3) ∧
    (∃ sa1 sa0, ∃ s : State, Fits (.smbusAlertResponse sa1 sa0) ∧ s.pwr.standbyUp = true ∧ s.tr.alert = true) ∧
    (∃ sa1 sa0, ∃ s : State, Fits (.smbusAlertResponse sa1 sa0) ∧ s.pwr.standbyUp = true ∧ s.tr.alert = false) ∧
    (∃ id key, ∃ s : State, Fits (.mgmtSessionOpen id key) ∧ s.pwr.standbyUp = true ∧ (s.tr.officers = [] ∨ ∃ k, (k, key) ∈ s.tr.officers)) ∧
    (∃ id key, ∃ s : State, Fits (.mgmtSessionOpen id key) ∧ s.tr.officers ≠ [] ∧ ∀ k, (k, key) ∉ s.tr.officers) :=
  ⟨⟨leBytes 12 1, sided {}, by decide +kernel⟩, ⟨leBytes 12 1, sided { ipNext := some (leBytes 12 1) }, by decide +kernel⟩,
   ⟨sided { ipNext := some (List.replicate 12 0#8) }, by decide +kernel, by decide +kernel, .inr ⟨12, rfl⟩⟩,
   ⟨1, sided {}, by decide +kernel⟩, ⟨3, by decide +kernel, by decide⟩, ⟨true, false, sided { alert := true }, by decide +kernel⟩,
   ⟨true, false, sided {}, by decide +kernel⟩, ⟨1, List.replicate 97 4#8, sided {}, by decide +kernel, by decide +kernel, .inl rfl⟩,
   ⟨1, List.replicate 97 4#8, sided { officers := [(0, [4#8])] }, by decide +kernel, by decide +kernel, fun k h => by
     simp only [sided, List.mem_singleton, Prod.mk.injEq] at h; exact absurd h.2 (by decide)⟩⟩
/-- A module whose input 4 is as given. -/
def fed (x : PwrIn) : State := { up with pwr := { ins := [(4, x)] } }
theorem witness_InputCommandsComplete :
    (∃ conn, Fits (.pxSenseBreak conn)) ∧
    (∃ i v, ∃ s : State, Fits (.inputValid i v) ∧ 4600 ≤ v ∧ v ≤ 6000 ∧ (s.pwr.ins.get {} i).opened ≠ some .excess ∧
      ((s.pwr.ins.get {} i).opened = some .current → ∃ t, (s.pwr.ins.get {} i).gone = some t ∧ t + thirds 1000 ≤ s.clk.wall)) ∧
    (∃ i v, ∃ s : State, Fits (.inputValid i v) ∧ 4600 ≤ v ∧ v ≤ 6000 ∧ ((s.pwr.ins.get {} i).opened = some .excess ∨
      (s.pwr.ins.get {} i).opened = some .current ∧ ∀ t, (s.pwr.ins.get {} i).gone = some t → s.clk.wall < t + thirds 1000)) ∧
    (∃ i v, Fits (.inputValid i v) ∧ (v < 4600 ∨ 6000 < v)) ∧
    (∃ i v, Fits (.inputOvervoltage i v) ∧ 6100 < v) ∧ (∃ i v, Fits (.inputOvervoltage i v) ∧ v ≤ 6100) ∧
    (∃ i v, ∃ s : State, Fits (.inputReclose i v) ∧ (s.pwr.ins.get {} i).opened = some .excess ∧ 4800 ≤ v ∧ v ≤ 5800) ∧
    (∃ i v, ∃ s : State, Fits (.inputReclose i v) ∧ ((s.pwr.ins.get {} i).opened ≠ some .excess ∨ v < 4800 ∨ 5800 < v)) ∧
    (∃ i amps held, ∃ s : State, Fits (.inputOvercurrent i amps held) ∧ (s.pwr.ins.get {} i).live = true ∧ (1100 < amps ∨ (800 < amps ∧ 5000 ≤ held))) ∧
    (∃ i amps held, Fits (.inputOvercurrent i amps held) ∧ amps ≤ 1100 ∧ (amps ≤ 800 ∨ held < 5000)) ∧
    (∃ i v, Fits (.inputLost i v) ∧ (v < 4600 ∨ 6000 < v)) ∧ (∃ i v, Fits (.inputLost i v) ∧ 4600 ≤ v ∧ v ≤ 6000) ∧
    (∃ p, Fits (.aux12vChange p)) ∧
    (∃ s : State, s.tr.boot = .coolantWait ∧ s.allLive = false ∧ s.goDark.pwr.standbyUp = true) ∧
    (∃ s : State, s.tr.boot ≠ .coolantWait ∧ s.pwr.standbyUp = true) ∧ (∃ s : State, s.tr.boot ≠ .coolantWait ∧ s.pwr.standbyUp = false) :=
  ⟨⟨1, by decide +kernel⟩, ⟨4, 4600, { fed { opened := some .current, gone := some 0 } with clk := { up.clk with wall := thirds 1000 } }, by decide +kernel, by decide,
     by decide, by decide +kernel, fun _ => ⟨0, rfl, by decide⟩⟩,
   ⟨4, 6000, fed { opened := some .current, gone := none }, by decide +kernel, by decide, by decide, .inr ⟨rfl, fun t h => nomatch h⟩⟩,
   ⟨4, 6001, by decide +kernel, by decide⟩, ⟨4, 6101, by decide +kernel, by decide⟩, ⟨4, 6100, by decide +kernel, by decide⟩,
   ⟨4, 5800, fed { opened := some .excess }, by decide +kernel⟩, ⟨4, 5801, fed { opened := some .excess }, by decide +kernel⟩,
   ⟨4, 801, 5000, fed { live := true }, by decide +kernel⟩, ⟨4, 1100, 4999, by decide +kernel, by decide, by decide⟩, ⟨4, 4599, by decide +kernel, by decide⟩,
   ⟨4, 4600, by decide +kernel, by decide, by decide⟩, ⟨true, by decide +kernel⟩, ⟨{ sided {} with tr := { boot := .coolantWait } }, by decide +kernel⟩,
   ⟨sided {}, by decide +kernel⟩, ⟨up, by decide +kernel⟩⟩


/-! Witnesses: rules over several commands. -/

/-- The router of tile 192 merges what arrives from the west with what arrives from the north, for context 5; nothing arrives. -/
def merging : State := { routing with fly := [], routers := [(192, { routes := [(0, 2 ^ 63 + 3 * 2 ^ 31 + 0 * 2 ^ 28 + 2 ^ 24 + 2 ^ 21 + 5 * 2 ^ 8)] })] }
/-- The same router sends on what arrives from the west alone. -/
def sending : State := { routing with fly := [] }
/-- The same router sends what arrives from the west to its own tile, which is fenced. -/
def deliveringFenced : State :=
  { routing with routers := [(192, { routes := [(0, 2 ^ 63 + 3 * 2 ^ 31 + 2 ^ 27 + 5 * 2 ^ 8)] })], tiles := [(192, { goTile with fenced := true })] }
theorem witness_EmptyFlitsGoOutEmpty :
    (∃ a b : MFlit, a.v = false ∨ b.v = false ∨ a.ptag ≠ b.ptag) ∧ (∃ a b : MFlit, a.v = true ∧ b.v = true ∧ a.ptag = b.ptag) ∧
    (∀ s ∈ [merging, sending], ∃ pos entry cyc, Fits (.routerSlot pos entry cyc) ∧ bit ((s.router pos).routes.get 0 entry) 63 = true ∧
      reSlot ((s.router pos).routes.get 0 entry) cyc = true ∧ (s.region (pos / 64)).st ≠ .transitLost ∧ reIn ((s.router pos).routes.get 0 entry) ≤ 4 ∧
      reOpm ((s.router pos).routes.get 0 entry) ≤ 2 ∧ (reOpm ((s.router pos).routes.get 0 entry) ≠ 0 → reIn2 ((s.router pos).routes.get 0 entry) ≤ 4) ∧
      (s.at cyc).schedOn (pos / 64) (rePtag ((s.router pos).routes.get 0 entry)) (reSched ((s.router pos).routes.get 0 entry)) = true ∧
      (s.at cyc).landTile pos = s.at cyc ∧ (bit (reOut ((s.router pos).routes.get 0 entry)) 4 = true → (s.at cyc).absorbs pos = false) ∧
      (takeInput pos cyc ((s.router pos).routes.get 0 entry) (reIn ((s.router pos).routes.get 0 entry)) (s.at cyc)).2.v = false) ∧
    reOpm ((merging.router 192).routes.get 0 0) = 1 ∧ reOpm ((sending.router 192).routes.get 0 0) = 0 ∧
    (∃ pos entry cyc w, ∃ s x : State, Fits (.routerSlot pos entry cyc) ∧ (s.at cyc).landTile pos = x ∧ (x.router pos).routes.get 0 entry = w ∧ bit w 63 = true ∧
      reSlot w cyc = true ∧ (x.region (pos / 64)).st ≠ .transitLost ∧ reIn w ≤ 4 ∧ reOpm w ≤ 2 ∧ (reOpm w ≠ 0 → reIn2 w ≤ 4) ∧
      x.schedOn (pos / 64) (rePtag w) (reSched w) = true ∧ bit (reOut w) 4 = true ∧ x.absorbs pos = true) :=
  ⟨⟨{}, {}, by decide⟩, ⟨{ v := true }, { v := true }, by decide⟩, by
    intro s hs
    simp only [List.mem_cons, List.not_mem_nil, or_false] at hs
    rcases hs with rfl | rfl <;> exact ⟨192, 0, 0, by decide +kernel⟩, by decide +kernel, by decide +kernel,
   ⟨192, 0, 0, 2 ^ 63 + 3 * 2 ^ 31 + 2 ^ 27 + 5 * 2 ^ 8, deliveringFenced, deliveringFenced.at 0, by decide +kernel⟩⟩

theorem witness_SignatureBlocksAreAcceptedWhole :
    (∃ t : Trust, ∃ new stmt, ∃ b : SigBlk, ∃ bs : List SigBlk, b ∈ bs ∧ t.blockKey new b.slot = [] ∧ t.blocksOk new stmt bs = false) ∧
    (∃ t : Trust, ∃ b : SigBlk, ∃ bs : List SigBlk, Tab.wf [] t.officers = true ∧ b ∈ bs ∧ b.slot < 8) ∧
    (∃ h gen b t, ∃ s : State, Fits (.ctxFence h gen b) ∧ Comes 0x0103 [5] true h s t ∧ h.ctx ≠ 0 ∧
      t.tr.blocksOk none (t.tr.statement 2 h.ctx gen []) [b] = false) ∧
    (∃ h ctx gen n0 n1 n2 n3 blks t, ∃ s : State, Fits (.protChange h ctx gen n0 n1 n2 n3 blks) ∧
      Comes 0x0B01 ([6, 10].filter (fun l => decide (l = 2 + 4 * blks.length))) true h s t ∧ h.mgmt = false ∧ ctx ≠ 0 ∧
      t.tr.blocksOk none (t.tr.statement 1 ctx gen (sha384 (newWords n0 n1 n2 n3))) blks = false) ∧
    (∃ h slot key blks t, ∃ s : State, Fits (.officerEnrol h slot key blks) ∧
      Comes 0x0B03 ([9, 13, 17].filter (fun l => decide (l = 5 + 4 * blks.length))) true h s t ∧ t.tr.newKeyOk key = true ∧
      t.tr.blocksOk (some (key.take 97)) (t.tr.statement 3 slot t.tr.ogen.toNat (sha384 (key.take 97))) blks = false) ∧
    (∃ h slot blks t, ∃ s : State, Fits (.officerRetire h slot blks) ∧
      Comes 0x0B04 ([5, 9].filter (fun l => decide (l = 1 + 4 * blks.length))) true h s t ∧
      t.tr.blocksOk none (t.tr.statement 4 slot t.tr.ogen.toNat []) blks = false) :=
  ⟨⟨{}, none, [], (⟨0, true, []⟩ : SigBlk), [⟨0, true, []⟩], by decide +kernel⟩, ⟨{}, (⟨0, true, []⟩ : SigBlk), [⟨0, true, []⟩], by decide +kernel⟩,
   ⟨hdr 0 5 5, 8, fenceBlk, _, sysRing 5 opened, by decide +kernel, ⟨by decide +kernel, rfl, rfl⟩, by decide +kernel⟩,
   ⟨hdr 0 0 6, 5, 7, 2 ^ 63, 2, 0, 0, [fenceBlk], _, sysRing 6 opened, by decide +kernel, ⟨by decide +kernel, rfl, rfl⟩, by decide +kernel⟩,
   ⟨hdr 0 0 9, 2, keyBytes, [enrolBlk], _, noOfficer 9, by decide +kernel, ⟨by decide +kernel, rfl, rfl⟩, by decide +kernel⟩,
   ⟨hdr 0 0 5, 0, [fenceBlk], _, sysRing 5 opened, by decide +kernel, ⟨by decide +kernel, rfl, rfl⟩, by decide +kernel⟩⟩

theorem witness_TheBootedImageStands :
    (∃ h x t, ∃ s : State, Tab.wf [] s.tr.fw = true ∧ exec (.fwStage h x) s = .next t) ∧
    (∃ h x t, ∃ s : State, Fits (.fwStage h x) ∧ Comes 0x0C05 [1] true h s t ∧ t.refBad h.src x = none ∧ t.ha.cxl = true) ∧
    (∃ b, ∃ s : State, s.tr.fwOk b = false) ∧
    (∃ b, ∃ s : State, s.tr.fwOk b = true ∧ (fwSection b 4).all (fun c => decide (s.tr.certSeq ≤ (readVariant c).certseq)) = true ∧ Tab.wf [] s.tr.fw = true) ∧
    (∃ b, ∃ t : Trust, t.fwOk b = true ∧ 0 < fwNsec b) ∧
    (∃ b t, ∃ s : State, exec (.coldBoot b) s = .next t ∧ s.tr.boot ≠ .ready ∧ t.tr.boot = .ready) :=
  ⟨⟨hdr 0 0 1, ⟨0, 0, 4096⟩, doFwStage (hdr 0 0 1) ⟨0, 0, 4096⟩ (dataAt 1 opened), dataAt 1 opened, by decide +kernel, (exec_fwStage ..).trans (guarded_ok (by decide +kernel) (by decide +kernel))⟩,
   ⟨hdr 0 0 1, ⟨0, 0, 4096⟩, _, dataAt 1 opened, by decide +kernel, ⟨by decide +kernel, rfl, rfl⟩, by decide +kernel⟩,
   ⟨[], chained, by decide +kernel⟩, ⟨signedFw, chained, by decide +kernel⟩,
   ⟨signedFw, chained.tr, by decide +kernel⟩,
   ⟨finds 1, doColdBoot (finds 1) cold, cold, (exec_coldBoot ..).trans (guarded_ok (by decide +kernel) (by decide +kernel)), by decide +kernel, by decide +kernel⟩⟩

theorem witness_PacketsAreCheckedInOrder :
    -- a length that stops the ring, on a ring and on a session; a packet that is not there yet
    (∃ c op lens sys h k, ∃ s : State, packetRow c = some (op, lens, sys, h) ∧ Fits c ∧ h.src = .ring k ∧ 128 < h.len ∧ (s.at h.cyc).watched = true ∧
      ((s.at h.cyc).ctx k).ring.st = .running) ∧
    (∃ c op lens sys h n, packetRow c = some (op, lens, sys, h) ∧ Fits c ∧ h.src = .mgmt n ∧ h.len = 0) ∧
    (∃ c op lens sys h, ∃ s : State, packetRow c = some (op, lens, sys, h) ∧ Fits c ∧ 0 < h.len ∧ h.len ≤ 128 ∧ (s.at h.cyc).takeable h = false) ∧
    -- taken, and refused by check 2, 3, 4 and by the missing variant
    (∃ c op lens sys h, ∃ s : State, packetRow c = some (op, lens, sys, h) ∧ Fits c ∧ 0 < h.len ∧ h.len ≤ 128 ∧ (s.at h.cyc).takeable h = true ∧
      lens.contains h.len = false) ∧
    (∃ c op lens sys h, ∃ s : State, packetRow c = some (op, lens, sys, h) ∧ Fits c ∧ 0 < h.len ∧ h.len ≤ 128 ∧ (s.at h.cyc).takeable h = true ∧
      lens.contains h.len = true ∧ h.seq ≠ (s.at h.cyc).nseq h) ∧
    (∃ c op lens sys h, ∃ s : State, packetRow c = some (op, lens, sys, h) ∧ Fits c ∧ 0 < h.len ∧ h.len ≤ 128 ∧ (s.at h.cyc).takeable h = true ∧
      lens.contains h.len = true ∧ h.flags < 4 ∧ h.ctx < 1024 ∧ h.seq = (s.at h.cyc).nseq h ∧ (taken s h).permitted h op sys = false) ∧
    (∃ c op lens sys h, ∃ s : State, packetRow c = some (op, lens, sys, h) ∧ Fits c ∧ 0 < h.len ∧ h.len ≤ 128 ∧ (s.at h.cyc).takeable h = true ∧
      lens.contains h.len = true ∧ h.flags < 4 ∧ h.ctx < 1024 ∧ h.seq = (s.at h.cyc).nseq h ∧ (taken s h).permitted h op sys = true ∧
      s.ha.noVariant = true ∧ opGroup op ≠ 10 ∧ opGroup op ≠ 11) :=
  ⟨⟨.meterRead (hdr 5 5 129), _, _, _, _, 5, userAt 1 opened, rfl, by decide +kernel⟩,
   ⟨.meterRead { hdr 5 5 0 with src := .mgmt 1 }, _, _, _, _, 1, rfl, by decide +kernel⟩,
   ⟨.meterRead (hdr 5 5 1), _, _, _, _, up, rfl, by decide +kernel⟩,
   ⟨.meterRead (hdr 5 5 2), _, _, _, _, userAt 2 opened, rfl, by decide +kernel⟩,
   ⟨.meterRead { hdr 5 5 1 with seq := 7 }, _, _, _, _, userAt 1 opened, rfl, by decide +kernel⟩,
   ⟨.meterRead (hdr 5 6 1), _, _, _, _, userAt 1 opened, rfl, by decide +kernel⟩,
   ⟨.meterRead (hdr 5 5 1), _, _, _, _, { userAt 1 opened with ha := { up.ha with noVariant := true } }, rfl, by decide +kernel⟩⟩

theorem witness_WhatARingMayNotDo :
    (∃ c op lens sys h, ∃ s : State, packetRow c = some (op, lens, sys, h) ∧ Fits c ∧ Tab.wf {} s.ctxs = true ∧ 0 < h.len ∧ h.len ≤ 128 ∧
      lens.contains h.len = true ∧ (s.at h.cyc).takeable h = true ∧ h.flags < 4 ∧ h.ctx < 1024 ∧ h.seq = (s.at h.cyc).nseq h ∧ h.src = .ring 5 ∧ h.ctx = 6) ∧
    (∃ c op lens sys h, ∃ s : State, packetRow c = some (op, lens, sys, h) ∧ Fits c ∧ Tab.wf {} s.ctxs = true ∧ 0 < h.len ∧ h.len ≤ 128 ∧
      lens.contains h.len = true ∧ (s.at h.cyc).takeable h = true ∧ h.flags < 4 ∧ h.ctx < 1024 ∧ h.seq = (s.at h.cyc).nseq h ∧ h.src = .ring 5 ∧ sys = true) ∧
    (∃ c op lens sys h, ∃ s : State, packetRow c = some (op, lens, sys, h) ∧ Fits c ∧ Tab.wf {} s.ctxs = true ∧ 0 < h.len ∧ h.len ≤ 128 ∧
      lens.contains h.len = true ∧ (s.at h.cyc).takeable h = true ∧ h.flags < 4 ∧ h.ctx < 1024 ∧ h.seq = (s.at h.cyc).nseq h ∧
      opGroup op = 4 ∧ (s.ctx h.ctx).st ≠ .opened) ∧
    (∃ c op lens sys h, ∃ s : State, packetRow c = some (op, lens, sys, h) ∧ Fits c ∧ Tab.wf {} s.ctxs = true ∧ 0 < h.len ∧ h.len ≤ 128 ∧
      lens.contains h.len = true ∧ (s.at h.cyc).takeable h = true ∧ h.flags < 4 ∧ h.ctx < 1024 ∧ h.seq = (s.at h.cyc).nseq h ∧ h.src = .ring 5 ∧
      (s.ctx 5).st = .fenced ∧ opGroup op = 11) ∧
    (∃ c op lens sys h, ∃ s : State, packetRow c = some (op, lens, sys, h) ∧ Fits c ∧ Tab.wf {} s.ctxs = true ∧ 0 < h.len ∧ h.len ≤ 128 ∧
      lens.contains h.len = true ∧ (s.at h.cyc).takeable h = true ∧ h.flags < 4 ∧ h.ctx < 1024 ∧ h.seq = (s.at h.cyc).nseq h ∧ h.src = .mgmt 1 ∧ opGroup op = 8) :=
  ⟨⟨.meterRead (hdr 5 6 1), _, _, _, _, userAt 1 opened, rfl, by decide +kernel⟩, ⟨.ctxClose (hdr 5 5 1), _, _, _, _, userAt 1 opened, rfl, by decide +kernel⟩,
   ⟨.planAbort (hdr 0 5 1), _, _, _, _, dataAt 1 { st := .closed }, rfl, by decide +kernel⟩, ⟨.certRead (hdr 5 5 1) ⟨1, 0, 4096⟩, _, _, _, _, userAt 1 { st := .fenced }, rfl, by decide +kernel⟩,
   ⟨.meterRead { hdr 5 5 1 with src := .mgmt 1 }, _, _, _, _, { userAt 1 opened with tr := { up.tr with sessions := [⟨1, 0, []⟩] } }, rfl, by decide +kernel⟩⟩

theorem witness_ElementCodesRoundTrip :
    (∀ f ∈ elementFormats, ∃ c, c < 2 ^ (f.sb + 1) ∧ c % 2 ^ f.sb ≤ f.maxc ∧ 2 ^ f.sb ≤ c) ∧
    (∃ f ∈ elementFormats, ∃ c, c < 2 ^ (f.sb + 1) ∧ f.infc = some (c % 2 ^ f.sb)) ∧
    (∃ f ∈ elementFormats, ∃ c, c < 2 ^ (f.sb + 1) ∧ f.maxc < c % 2 ^ f.sb ∧ f.infc ≠ some (c % 2 ^ f.sb)) :=
  ⟨by
    intro f hf
    simp only [elementFormats, List.mem_cons, List.not_mem_nil, or_false] at hf
    rcases hf with rfl | rfl | rfl | rfl | rfl | rfl
    · exact ⟨2 ^ 31, by decide⟩
    · exact ⟨2 ^ 15, by decide⟩
    · exact ⟨2 ^ 15, by decide⟩
    · exact ⟨2 ^ 7, by decide⟩
    · exact ⟨2 ^ 7, by decide⟩
    · exact ⟨2 ^ 3, by decide⟩,
   ⟨fp16, by simp [elementFormats], 0x7C00, by decide⟩, ⟨e4m3, by simp [elementFormats], 0xFF, by decide⟩⟩

theorem witness_ConvertRoundsToTheGrid :
    (e4m3 ∈ elementFormats) ∧ (e4m3.roundMag .nearest 17 0).1 ≤ e4m3.maxc ∧ e4m3.maxc < (e4m3.roundMag .nearest 500 0).1 ∧
    (fp16.infc = some 0x7C00 ∧ fp16.maxc < (fp16.roundMag .nearest 65520 0).1) :=
  ⟨by simp [elementFormats], by decide, by decide, by decide⟩

theorem witness_TileInstructionsStayInTheirTile :
    ∃ c h t, ∃ s : State, tileHdr c = some h ∧ s.tr.traces = [] ∧ Tab.wf {} s.tiles = true ∧ exec c s = .next t ∧ (t.tile h.tile).muRows ≠ (s.tile h.tile).muRows + 1 :=
  ⟨.vsm (plain true) 3, _, doVsm (plain true) 3 (withTile goTile), withTile goTile, rfl, rfl, by decide +kernel, (exec_vsm ..).trans (guarded_ok (by decide +kernel) (by decide +kernel)), by decide +kernel⟩

theorem witness_MemoriesReadWhatWasWritten :
    (∃ m : Mem, Memory.wf m = true ∧ m ≠ []) ∧ (∃ n v, v < 256 ^ n ∧ 0 < v) ∧ (∃ m : Mem, Memory.wf m = true ∧ ∀ k, m.rd k = Mem.rd [] k) :=
  ⟨⟨[(3, 1#8)], by decide⟩, ⟨2, 258, by decide⟩, ⟨[], rfl, fun _ => rfl⟩⟩

theorem witness_RegistersAtReset : ∃ c n, c ≠ 0 ∧ n ∉ [0, 1, 0x12, 0x20, 0x28, 0x29, 0x2A, 0x2B, 0x2C, 0x2D] := ⟨1, 2, by decide⟩


/-! The checks of the operands: for each check a command whose operand is at its limit, which passes, and one beyond it, which is refused. -/

def zeros (n : Nat) : List Byte := List.replicate n 0#8
def hd : Hdr := hdr 0 0 1
def rf : DRef := ⟨0, 0, 0⟩
def fh : FHdr := ⟨0, 0, 0, 1, 0, 0, 0, 0, 0, 0, 1, false⟩
def ih : IHdr := plain true
def sb : SigBlk := ⟨0, true, zeros 96⟩
def wb : WireBlk := ⟨0, 0, 0, zeros 256⟩
def px : Prefix := ⟨0, 0, 0, 0, 1, false, false⟩
def ls : Lease := ⟨0, 0, 0, 0, 0, 0⟩
def tr : Trained := ⟨false, 0, 0, 0, false, 0, 0, 0, 0⟩
def lp : LoopF := ⟨0, 0, 0, 0, false, 1⟩
def as : AgsF := ⟨0, 0, 0, 0, 0, false, 0⟩
def ai : AgiF := ⟨0, 0, 1, 0, 0, 0⟩
def gf : GthF := ⟨0, 0, none, 0, 1, 1, false, 0⟩
def sf : SctF := ⟨0, none, 0, 0, 1, 1, false, 0⟩
def ml : MldF := ⟨0, 1, 0, 0, false, false, false⟩
def ms : MstF := ⟨0, 0, 1, 0, 0, 0, false, false, 0, 0⟩
def md : MdrF := ⟨0, 1, false, false, 0, 0⟩
def sm : Sample := {}
def vf : VslF := ⟨0, 0, 0, false⟩
/-- Of each pair the first command passes the check and the second does not. -/
def sharp (q : Instr → Bool) (l : List (Instr × Instr)) : Bool := l.all (fun p => q p.1 && !q p.2)
theorem test_wf_tile1 : sharp Instr.wf [
    (.nop ih 4095, .nop ih 4096), (.wcy ih 4095, .wcy ih 4096), (.call ih 255, .call ih 256),
     (.loop ih { lp with lv := 7 }, .loop ih { lp with lv := 8 }), (.loop ih { lp with c0 := 16777215 }, .loop ih { lp with c0 := 16777216 }),
     (.loop ih { lp with cm := 16777215 }, .loop ih { lp with cm := 16777216 }), (.loop ih { lp with clv := 7 }, .loop ih { lp with clv := 8 }),
     (.loop ih { lp with body := 4095 }, .loop ih { lp with body := 4096 }), (.ags ih { as with ag := 3 }, .ags ih { as with ag := 4 }),
     (.ags ih { as with base := 8388607 }, .ags ih { as with base := 8388608 }),
     (.ags ih { as with step := 8388607 }, .ags ih { as with step := 8388608 }),
     (.ags ih { as with step := -8388608 }, .ags ih { as with step := -8388609 }),
     (.ags ih { as with period := 1048575 }, .ags ih { as with period := 1048576 }),
     (.ags ih { as with ring := 262143 }, .ags ih { as with ring := 262144 }), (.ags ih { as with q := 3 }, .ags ih { as with q := 4 }),
     (.agi ih { ai with ag := 3 }, .agi ih { ai with ag := 4 }), (.agi ih { ai with n := 3 }, .agi ih { ai with n := 4 }),
     (.agi ih { ai with lv := 7 }, .agi ih { ai with lv := 8 }), (.agi ih { ai with inca := 8388607 }, .agi ih { ai with inca := 8388608 }),
     (.agi ih { ai with incb := -8388608 }, .agi ih { ai with incb := -8388609 }),
     (.agi ih { ai with incc := 8388607 }, .agi ih { ai with incc := 8388608 }), (.srd ih 255 0, .srd ih 256 0), (.srd ih 0 3, .srd ih 0 4),
     (.swr ih 255 0, .swr ih 256 0), (.get ih 7 0 1, .get ih 8 0 1), (.get ih 0 3 1, .get ih 0 4 1), (.get ih 0 0 1048575, .get ih 0 0 1048576),
     (.put ih 7 0 1, .put ih 8 0 1), (.put ih 0 3 1, .put ih 0 4 1), (.put ih 0 0 1048575, .put ih 0 0 1048576),
     (.gth ih { gf with iag := 3 }, .gth ih { gf with iag := 4 }), (.gth ih { gf with sag := 3 }, .gth ih { gf with sag := 4 }),
     (.gth ih { gf with dag := 3 }, .gth ih { gf with dag := 4 }), (.gth ih { gf with count := 1048575 }, .gth ih { gf with count := 1048576 }),
     (.gth ih { gf with roww := 1 }, .gth ih { gf with roww := 0 }), (.gth ih { gf with roww := 64 }, .gth ih { gf with roww := 65 }),
     (.gth ih { gf with limit := 16777215 }, .gth ih { gf with limit := 16777216 }),
     (.gth ih { gf with chan := some 7 }, .gth ih { gf with chan := some 8 }), (.sct ih { sf with iag := 3 }, .sct ih { sf with iag := 4 }),
     (.sct ih { sf with sag := 3 }, .sct ih { sf with sag := 4 })] = true := by decide +kernel
theorem test_wf_tile2 : sharp Instr.wf [
    (.sct ih { sf with dag := 3 }, .sct ih { sf with dag := 4 }), (.sct ih { sf with count := 1048575 }, .sct ih { sf with count := 1048576 }),
     (.sct ih { sf with roww := 1 }, .sct ih { sf with roww := 0 }), (.sct ih { sf with roww := 64 }, .sct ih { sf with roww := 65 }),
     (.sct ih { sf with limit := 16777215 }, .sct ih { sf with limit := 16777216 }),
     (.sct ih { sf with chan := some 7 }, .sct ih { sf with chan := some 8 }), (.pgl ih 7 0 1 false, .pgl ih 8 0 1 false),
     (.pgl ih 0 1023 1 false, .pgl ih 0 1024 1 false), (.pgl ih 0 0 2047 false, .pgl ih 0 0 2048 false), (.mcf ih 3 false, .mcf ih 4 false),
     (.mld ih { ml with src := 3 }, .mld ih { ml with src := 4 }), (.mld ih { ml with rows := 1 }, .mld ih { ml with rows := 0 }),
     (.mld ih { ml with rows := 64 }, .mld ih { ml with rows := 65 }), (.mld ih { ml with first := 63 }, .mld ih { ml with first := 64 }),
     (.mld ih { ml with sfmt := 15 }, .mld ih { ml with sfmt := 16 }), (.mst ih { ms with src := 3 } none, .mst ih { ms with src := 4 } none),
     (.mst ih { ms with ssrc := 3 } none, .mst ih { ms with ssrc := 4 } none),
     (.mst ih { ms with rows := 16777215 } none, .mst ih { ms with rows := 16777216 } none),
     (.mst ih { ms with afmt := 15 } none, .mst ih { ms with afmt := 16 } none),
     (.mst ih { ms with mode := 3 } none, .mst ih { ms with mode := 4 } none),
     (.mst ih { ms with accBase := 1023 } none, .mst ih { ms with accBase := 1024 } none),
     (.mst ih { ms with dst := 3 } none, .mst ih { ms with dst := 4 } none),
     (.mst ih { ms with cvt := 15 } none, .mst ih { ms with cvt := 16 } none),
     (.mdr ih { md with accBase := 1023 }, .mdr ih { md with accBase := 1024 }),
     (.mdr ih { md with rows := 2047 }, .mdr ih { md with rows := 2048 }), (.mdr ih { md with dst := 3 }, .mdr ih { md with dst := 4 }),
     (.mdr ih { md with cvt := 15 }, .mdr ih { md with cvt := 16 }), (.cvl ih 15 false 0 0, .cvl ih 16 false 0 0),
     (.cvl ih 0 false 3 0, .cvl ih 0 false 4 0), (.vcl ih 15 0, .vcl ih 16 0), (.vcl ih 0 3, .vcl ih 0 4), (.vrn ih 15 false, .vrn ih 16 false),
     (.vsl ih { vf with len0 := 16777215 }, .vsl ih { vf with len0 := 16777216 }),
     (.vsl ih { vf with mult := 16777215 }, .vsl ih { vf with mult := 16777216 }), (.vsl ih { vf with lv := 7 }, .vsl ih { vf with lv := 8 }),
     (.vrs ih 3 1 0, .vrs ih 4 1 0), (.vrs ih 0 127 0, .vrs ih 0 128 0), (.vrs ih 0 1 3, .vrs ih 0 1 4), (.vrl ih 3 1 0, .vrl ih 4 1 0),
     (.vrl ih 0 127 0, .vrl ih 0 128 0)] = true := by decide +kernel
theorem test_wf_tile3 : sharp Instr.wf [
    (.vrl ih 0 1 3, .vrl ih 0 1 4)] = true := by decide +kernel
/-- Of each pair the first instruction has every field within the range given for it and the second does not (it is BAD_INSTR, R149). -/
def sharpTi (l : List (TI × TI)) : Bool := l.all (fun p => p.1.ok && !p.2.ok)
theorem test_ranges_tile1 : sharpTi [
    (.nop 4095, .nop 4096), (.wcy 4095, .wcy 4096), (.call 255, .call 256), (.loop { lp with lv := 5 }, .loop { lp with lv := 6 }),
     (.loop { lp with c0 := 16777215 }, .loop { lp with c0 := 16777216 }), (.loop { lp with cm := 16777215 }, .loop { lp with cm := 16777216 }),
     (.loop { lp with clv := 5 }, .loop { lp with clv := 6 }), (.loop { lp with body := 1 }, .loop { lp with body := 0 }),
     (.loop { lp with body := 4095 }, .loop { lp with body := 4096 }), (.ags { as with ag := 3 }, .ags { as with ag := 4 }),
     (.ags { as with base := 6291455 }, .ags { as with base := 6291456 }), (.ags { as with step := 8388607 }, .ags { as with step := 8388608 }),
     (.ags { as with step := -8388608 }, .ags { as with step := -8388609 }),
     (.ags { as with period := 1048575 }, .ags { as with period := 1048576 }), (.ags { as with ring := 262143 }, .ags { as with ring := 262144 }),
     (.ags { as with q := 3 }, .ags { as with q := 4 }), (.agi { ai with ag := 3 }, .agi { ai with ag := 4 }),
     (.agi { ai with n := 1 }, .agi { ai with n := 0 }), (.agi { ai with n := 3 }, .agi { ai with n := 4 }),
     (.agi { ai with lv := 5 }, .agi { ai with lv := 6 }), (.agi { ai with inca := 8388607 }, .agi { ai with inca := 8388608 }),
     (.agi { ai with incb := -8388608 }, .agi { ai with incb := -8388609 }), (.agi { ai with incc := 8388607 }, .agi { ai with incc := 8388608 }),
     (.srd 4 0, .srd 5 0), (.srd 0 3, .srd 0 4), (.swr 1 0, .swr 2 0), (.get 7 0 1, .get 8 0 1), (.get 0 3 1, .get 0 4 1), (.get 0 0 1, .get 0 0 0),
     (.get 0 0 1048575, .get 0 0 1048576), (.put 7 0 1, .put 8 0 1), (.put 0 3 1, .put 0 4 1), (.put 0 0 1, .put 0 0 0),
     (.put 0 0 1048575, .put 0 0 1048576), (.gth { gf with iag := 3 }, .gth { gf with iag := 4 }),
     (.gth { gf with sag := 3 }, .gth { gf with sag := 4 }), (.gth { gf with dag := 3 }, .gth { gf with dag := 4 }),
     (.gth { gf with count := 1 }, .gth { gf with count := 0 }), (.gth { gf with count := 1048575 }, .gth { gf with count := 1048576 }),
     (.gth { gf with roww := 1 }, .gth { gf with roww := 0 })] = true := by decide +kernel
theorem test_ranges_tile2 : sharpTi [
    (.gth { gf with roww := 64 }, .gth { gf with roww := 65 }), (.gth { gf with limit := 16777215 }, .gth { gf with limit := 16777216 }),
     (.gth { gf with chan := some 7, roww := 2 }, .gth { gf with chan := some 8, roww := 2 }),
     (.gth { gf with chan := some 7, roww := 2 }, .gth { gf with chan := some 7, roww := 3 }),
     (.sct { sf with iag := 3 }, .sct { sf with iag := 4 }), (.sct { sf with sag := 3 }, .sct { sf with sag := 4 }),
     (.sct { sf with dag := 3 }, .sct { sf with dag := 4 }), (.sct { sf with count := 1 }, .sct { sf with count := 0 }),
     (.sct { sf with count := 1048575 }, .sct { sf with count := 1048576 }), (.sct { sf with roww := 1 }, .sct { sf with roww := 0 }),
     (.sct { sf with roww := 64 }, .sct { sf with roww := 65 }), (.sct { sf with limit := 16777215 }, .sct { sf with limit := 16777216 }),
     (.sct { sf with chan := some 7, roww := 2 }, .sct { sf with chan := some 8, roww := 2 }),
     (.sct { sf with chan := some 7, roww := 2 }, .sct { sf with chan := some 7, roww := 3 }), (.pgl 7 0 1 false, .pgl 8 0 1 false),
     (.pgl 0 1023 1 false, .pgl 0 1024 1 false), (.pgl 0 0 1 false, .pgl 0 0 0 false), (.pgl 0 0 1024 false, .pgl 0 0 1025 false),
     (.pgl 0 1 1023 false, .pgl 0 1 1024 false), (.mcf 2 false, .mcf 3 false), (.mld { ml with src := 3 }, .mld { ml with src := 4 }),
     (.mld { ml with rows := 1 }, .mld { ml with rows := 0 }), (.mld { ml with rows := 64 }, .mld { ml with rows := 65 }),
     (.mld { ml with first := 63 }, .mld { ml with first := 64 }), (.mld { ml with sfmt := 5 }, .mld { ml with sfmt := 11 }),
     (.mld { ml with scl := false }, .mld { ml with scl := true }),
     (.mld { ml with first := 1, rows := 63 }, .mld { ml with first := 1, rows := 64 }),
     (.mst { ms with src := 3 } none, .mst { ms with src := 4 } none), (.mst { ms with ssrc := 3 } none, .mst { ms with ssrc := 4 } none),
     (.mst { ms with rows := 1 } none, .mst { ms with rows := 0 } none),
     (.mst { ms with rows := 16777215 } none, .mst { ms with rows := 16777216 } none),
     (.mst { ms with afmt := 7 } none, .mst { ms with afmt := 8 } none), (.mst { ms with mode := 3 } none, .mst { ms with mode := 4 } none),
     (.mst { ms with accBase := 1023 } none, .mst { ms with accBase := 1024 } none),
     (.mst { ms with dst := 3 } none, .mst { ms with dst := 4 } none), (.mst { ms with cvt := 15 } none, .mst { ms with cvt := 16 } none),
     (.mst { ms with afmt := 2, cap := true } none, .mst { ms with afmt := 3, cap := true } none),
     (.mdr { md with accBase := 1023 }, .mdr { md with accBase := 1024 }), (.mdr { md with rows := 1 }, .mdr { md with rows := 0 }),
     (.mdr { md with rows := 1024 }, .mdr { md with rows := 1025 })] = true := by decide +kernel
theorem test_ranges_tile3 : sharpTi [
    (.mdr { md with dst := 3 }, .mdr { md with dst := 4 }), (.mdr { md with cvt := 15 }, .mdr { md with cvt := 16 }),
     (.mdr { md with order := false }, .mdr { md with order := true }),
     (.mdr { md with accBase := 1, rows := 1023 }, .mdr { md with accBase := 1, rows := 1024 }), (.cvl 15 false 0 0, .cvl 16 false 0 0),
     (.cvl 0 false 3 0, .cvl 0 false 4 0), (.cvl 0 false 0 0xA000000000000000#64, .cvl 0 false 0 0x8000000000000000#64),
     (.cvl 0 false 0 0, .cvl 0 false 0 1), (.vcl 15 0, .vcl 16 0), (.vcl 0 3, .vcl 0 4), (.vrn 15 false, .vrn 16 false),
     (.vsl { vf with len0 := 16777215 }, .vsl { vf with len0 := 16777216 }), (.vsl { vf with mult := 16777215 }, .vsl { vf with mult := 16777216 }),
     (.vsl { vf with lv := 5 }, .vsl { vf with lv := 6 }), (.vrs 3 1 0, .vrs 4 1 0), (.vrs 0 1 0, .vrs 0 0 0), (.vrs 0 64 0, .vrs 0 65 0),
     (.vrs 0 1 3, .vrs 0 1 4), (.vrl 3 1 0, .vrl 4 1 0), (.vrl 0 1 0, .vrl 0 0 0), (.vrl 0 64 0, .vrl 0 65 0), (.vrl 0 1 3, .vrl 0 1 4)] = true := by decide +kernel
theorem test_wf_operands1 : sharp Instr.wf [
    (.meterRead { hd with cyc := 4095 }, .meterRead { hd with cyc := 4096 }),
     (.meterRead { hd with flags := 255 }, .meterRead { hd with flags := 256 }),
     (.meterRead { hd with len := 255 }, .meterRead { hd with len := 256 }),
     (.meterRead { hd with ctx := 65535 }, .meterRead { hd with ctx := 65536 }),
     (.meterRead { hd with seq := 65535 }, .meterRead { hd with seq := 65536 }),
     (.meterRead { hd with tag := 4294967295 }, .meterRead { hd with tag := 4294967296 }),
     (.meterRead { hd with src := .ring 1023 }, .meterRead { hd with src := .ring 1024 }),
     (.certRead hd { rf with dext := 65535 }, .certRead hd { rf with dext := 65536 }),
     (.certRead hd { rf with doff := 281474976710655 }, .certRead hd { rf with doff := 281474976710656 }),
     (.certRead hd { rf with dlen := 4294967295 }, .certRead hd { rf with dlen := 4294967296 }),
     (.beatEpoch { fh with vc := 3 } 0, .beatEpoch { fh with vc := 4 } 0),
     (.beatEpoch { fh with lseq := 65535 } 0, .beatEpoch { fh with lseq := 65536 } 0),
     (.beatEpoch { fh with len := 65535 } 0, .beatEpoch { fh with len := 65536 } 0),
     (.beatEpoch { fh with ctx := 1023 } 0, .beatEpoch { fh with ctx := 1024 } 0),
     (.beatEpoch { fh with spos := 255 } 0, .beatEpoch { fh with spos := 256 } 0),
     (.beatEpoch { fh with dpos := 255 } 0, .beatEpoch { fh with dpos := 256 } 0), (.msw { ih with tag := 65535 }, .msw { ih with tag := 65536 }),
     (.msw { ih with cyc := 4095 }, .msw { ih with cyc := 4096 }), (.msw { ih with wf := some 31 }, .msw { ih with wf := some 32 }),
     (.msw { ih with sfl := some 31 }, .msw { ih with sfl := some 32 }),
     (.msw { ih with conf := [0, 0, 0, 0, 0] }, .msw { ih with conf := [0, 0, 0, 0, 0, 0] }),
     (.gradBlock fh 0 0 false wb, .gradBlock fh 0 0 false { wb with elems := [] }), (.shortMsg 0 0 [4294967295], .shortMsg 0 0 [4294967296]),
     (.shortMsg 0 0 (List.replicate 16 0), .shortMsg 0 0 (List.replicate 17 0)), (.ctxFence hd 0 sb, .ctxFence hd 0 { sb with sig := [] }),
     (.protChange hd 0 0 0 0 0 0 [{ sb with slot := 255 }], .protChange hd 0 0 0 0 0 0 [{ sb with slot := 256 }]),
     (.protChange hd 0 0 0 0 0 0 [sb], .protChange hd 0 0 0 0 0 0 [{ sb with sig := [] }]),
     (.officerEnrol hd 0 (zeros 128) [sb], .officerEnrol hd 0 (zeros 128) [{ sb with slot := 256 }]),
     (.officerRetire hd 0 [sb], .officerRetire hd 0 [{ sb with sig := zeros 95 }]),
     (.capsuleSeal hd 0 0 [zeros 48] rf, .capsuleSeal hd 0 0 [zeros 47] rf), (.coldBoot (finds 0), .coldBoot { finds 0 with links := [] }),
     (.boundarySlip 0 0 4095, .boundarySlip 0 0 4096), (.stretchOrder 255 0 0, .stretchOrder 256 0 0),
     (.stretchOrder 0 0 4095, .stretchOrder 0 0 4096), (.holdRequest 1023 0 0, .holdRequest 1024 0 0),
     (.holdRequest 0 0 4095, .holdRequest 0 0 4096), (.swapTimeout 0 4095, .swapTimeout 0 4096),
     (.streamStall 0 false 4095, .streamStall 0 false 4096), (.planEnd 0 4095, .planEnd 0 4096), (.routerSlot 0 0 4095, .routerSlot 0 0 4096)] = true := by decide +kernel
theorem test_wf_operands2 : sharp Instr.wf [
    (.beatOrder 0 0 4095, .beatOrder 0 0 4096), (.spRead 0 0 4294967295, .spRead 0 0 4294967296),
     (.spWrite 0 0 4294967295 0, .spWrite 0 0 4294967296 0), (.regRead 0 0 65535, .regRead 0 0 65536),
     (.regWrite 0 0 65535 0, .regWrite 0 0 65536 0), (.shortMsg 0 127 [], .shortMsg 0 128 []),
     (.edgePortSlot 0 0 4095 false, .edgePortSlot 0 0 4096 false), (.gradBlock fh 4294967295 0 false wb, .gradBlock fh 4294967296 0 false wb),
     (.gradBlock fh 0 255 false wb, .gradBlock fh 0 256 false wb),
     (.gradBlock fh 0 0 false ({ wb with parcel := 16777215 }), .gradBlock fh 0 0 false ({ wb with parcel := 16777216 })),
     (.gradBlock fh 0 0 false ({ wb with block := 255 }), .gradBlock fh 0 0 false ({ wb with block := 256 })),
     (.gradBlock fh 0 0 false ({ wb with sat := 256 }), .gradBlock fh 0 0 false ({ wb with sat := 257 })),
     (.gradClose fh 16777215 0 0 false false 0, .gradClose fh 16777216 0 0 false false 0),
     (.gradClose fh 0 4294967295 0 false false 0, .gradClose fh 0 4294967296 0 false false 0),
     (.gradClose fh 0 0 255 false false 0, .gradClose fh 0 0 256 false false 0),
     (.gradClose fh 0 0 0 false false 16777215, .gradClose fh 0 0 0 false false 16777216),
     (.parcelCredit fh 4294967295 0 0 0, .parcelCredit fh 4294967296 0 0 0), (.parcelCredit fh 0 255 0 0, .parcelCredit fh 0 256 0 0),
     (.parcelCredit fh 0 0 255 0, .parcelCredit fh 0 0 256 0), (.parcelCredit fh 0 0 0 4294967295, .parcelCredit fh 0 0 0 4294967296),
     (.mirror fh ({ px with parcel := 16777215 }) [], .mirror fh ({ px with parcel := 16777216 }) []),
     (.mirror fh ({ px with step := 4294967295 }) [], .mirror fh ({ px with step := 4294967296 }) []),
     (.mirror fh ({ px with attempt := 255 }) [], .mirror fh ({ px with attempt := 256 }) []),
     (.mirror fh ({ px with wnext := 255 }) [], .mirror fh ({ px with wnext := 256 }) []),
     (.mirrorAck fh 16777215 0 0 0, .mirrorAck fh 16777216 0 0 0), (.mirrorAck fh 0 4294967295 0 0, .mirrorAck fh 0 4294967296 0 0),
     (.mirrorAck fh 0 0 255 0, .mirrorAck fh 0 0 256 0), (.mirrorAck fh 0 0 0 255, .mirrorAck fh 0 0 0 256),
     (.allgather fh ({ px with parcel := 16777215 }) [], .allgather fh ({ px with parcel := 16777216 }) []),
     (.allgather fh ({ px with step := 4294967295 }) [], .allgather fh ({ px with step := 4294967296 }) []),
     (.allgather fh ({ px with attempt := 255 }) [], .allgather fh ({ px with attempt := 256 }) []),
     (.allgather fh ({ px with wnext := 255 }) [], .allgather fh ({ px with wnext := 256 }) []),
     (.link 0 65535 false [0, 0, 0, 0] false, .link 0 65536 false [0, 0, 0, 0] false),
     (.link 0 0 false [0, 0, 0, 0] false, .link 0 0 false (List.replicate 5 0) false), (.hello 0 65535 0 0 0, .hello 0 65536 0 0 0),
     (.hello 0 0 255 0 0, .hello 0 0 256 0 0), (.hello 0 0 0 255 0, .hello 0 0 0 256 0),
     (.stepStartMessage fh 4294967295 0 0 0, .stepStartMessage fh 4294967296 0 0 0),
     (.stepStartMessage fh 0 255 0 0, .stepStartMessage fh 0 256 0 0), (.headroomSend 4095, .headroomSend 4096)] = true := by decide +kernel
theorem test_wf_operands3 : sharp Instr.wf [
    (.restoreRequest fh 255 0, .restoreRequest fh 256 0), (.restoreRequest fh 0 255, .restoreRequest fh 0 256),
     (.restoreDone fh 0 0 0 0 255 0 0 (List.replicate 64 0), .restoreDone fh 0 0 0 0 256 0 0 (List.replicate 64 0)),
     (.restoreDone fh 0 0 0 0 0 0 0 (List.replicate 64 0), .restoreDone fh 0 0 0 0 0 0 0 (List.replicate 65 0)),
     (.systemRingStart 4294967295 0 false, .systemRingStart 4294967296 0 false),
     (.systemRingStart 0 4294967295 false, .systemRingStart 0 4294967296 false), (.registerWrite 65535 0 0, .registerWrite 65536 0 0),
     (.registerWrite 0 8 0, .registerWrite 0 9 0), (.registerWrite 0 0 18446744073709551615, .registerWrite 0 0 18446744073709551616),
     (.headLineSnoop 0 0 4294967295 0 false [], .headLineSnoop 0 0 4294967296 0 false []),
     (.headLineSnoop 0 0 0 4294967295 false [], .headLineSnoop 0 0 0 4294967296 false []),
     (.headLineSnoop 0 4095 0 0 false [], .headLineSnoop 0 4096 0 0 false []),
     (.headLineReread 0 0 4294967295 0 false [], .headLineReread 0 0 4294967296 0 false []),
     (.headLineReread 0 0 0 4294967295 false [], .headLineReread 0 0 0 4294967296 false []),
     (.headLineReread 0 4095 0 0 false [], .headLineReread 0 4096 0 0 false []), (.windowRead 2199023255551, .windowRead 2199023255552),
     (.windowWrite 2199023255551 0 (zeros 64), .windowWrite 2199023255552 0 (zeros 64)),
     (.windowWrite 0 18446744073709551615 (zeros 64), .windowWrite 0 18446744073709551616 (zeros 64)),
     (.windowWrite 0 0 (zeros 64), .windowWrite 0 0 (zeros 65)), (.ctxFence hd 4294967295 sb, .ctxFence hd 4294967296 sb),
     (.ctxRead hd 65535 0 rf, .ctxRead hd 65536 0 rf), (.ctxRead hd 0 65535 rf, .ctxRead hd 0 65536 rf),
     (.regionBind hd 255 0, .regionBind hd 256 0), (.regionBind hd 0 255, .regionBind hd 0 256),
     (.extentCreate hd 255 0 0 0 0, .extentCreate hd 256 0 0 0 0), (.extentCreate hd 0 255 0 0 0, .extentCreate hd 0 256 0 0 0),
     (.extentCreate hd 0 0 255 0 0, .extentCreate hd 0 0 256 0 0), (.extentCreate hd 0 0 0 65535 0, .extentCreate hd 0 0 0 65536 0),
     (.extentCreate hd 0 0 0 0 65535, .extentCreate hd 0 0 0 0 65536), (.extentBind hd 65535 0, .extentBind hd 65536 0),
     (.extentBind hd 0 255, .extentBind hd 0 256), (.slotBind hd 65535 0, .slotBind hd 65536 0), (.slotBind hd 0 255, .slotBind hd 0 256),
     (.groupBind hd 255 0, .groupBind hd 256 0), (.groupBind hd 0 255, .groupBind hd 0 256),
     (.protChange hd 65535 0 0 0 0 0 [], .protChange hd 65536 0 0 0 0 0 []),
     (.protChange hd 0 4294967295 0 0 0 0 [], .protChange hd 0 4294967296 0 0 0 0 []), (.pageMapFar hd 65535 0 0 0, .pageMapFar hd 65536 0 0 0),
     (.pageMapFar hd 0 65535 0 0, .pageMapFar hd 0 65536 0 0), (.pageMapFar hd 0 0 255 0, .pageMapFar hd 0 0 256 0)] = true := by decide +kernel
theorem test_wf_operands4 : sharp Instr.wf [
    (.pageMapFar hd 0 0 0 18446744073709551615, .pageMapFar hd 0 0 0 18446744073709551616), (.pageRetire hd 65535 0, .pageRetire hd 65536 0),
     (.pageRetire hd 0 65535, .pageRetire hd 0 65536), (.extentCopy hd 65535 0 0 0 0, .extentCopy hd 65536 0 0 0 0),
     (.extentCopy hd 0 65535 0 0 0, .extentCopy hd 0 65536 0 0 0), (.extentCopy hd 0 0 281474976710655 0 0, .extentCopy hd 0 0 281474976710656 0 0),
     (.extentCopy hd 0 0 0 281474976710655 0, .extentCopy hd 0 0 0 281474976710656 0),
     (.extentCopy hd 0 0 0 0 4294967295, .extentCopy hd 0 0 0 0 4294967296), (.streamArm hd 65535 {}, .streamArm hd 65536 {}),
     (.streamResume hd 65535, .streamResume hd 65536), (.streamAbort hd 65535, .streamAbort hd 65536),
     (.streamStatus hd 65535 0 rf, .streamStatus hd 65536 0 rf), (.streamStatus hd 0 255 rf, .streamStatus hd 0 256 rf),
     (.planFree hd 4294967295, .planFree hd 4294967296), (.planRun hd 4294967295, .planRun hd 4294967296),
     (.stepStart hd 4294967295 0 0 0 0, .stepStart hd 4294967296 0 0 0 0),
     (.stepStart hd 0 18446744073709551615 0 0 0, .stepStart hd 0 18446744073709551616 0 0 0),
     (.stepStart hd 0 0 4294967295 0 0, .stepStart hd 0 0 4294967296 0 0), (.stepStart hd 0 0 0 4294967295 0, .stepStart hd 0 0 0 4294967296 0),
     (.stepStart hd 0 0 0 0 4294967295, .stepStart hd 0 0 0 0 4294967296), (.evalStart hd 4294967295 0 0, .evalStart hd 4294967296 0 0),
     (.evalStart hd 0 4294967295 0, .evalStart hd 0 4294967296 0), (.evalStart hd 0 0 18446744073709551615, .evalStart hd 0 0 18446744073709551616),
     (.linkWidth hd 255 0, .linkWidth hd 256 0), (.linkWidth hd 0 255, .linkWidth hd 0 256), (.linkRetrain hd 255, .linkRetrain hd 256),
     (.optConfig hd 255 0 0 0, .optConfig hd 256 0 0 0), (.optConfig hd 0 255 0 0, .optConfig hd 0 256 0 0),
     (.optConfig hd 0 0 255 0, .optConfig hd 0 0 256 0), (.optConfig hd 0 0 0 255, .optConfig hd 0 0 0 256),
     (.optParcelMap hd 4294967295 rf, .optParcelMap hd 4294967296 rf), (.optScaleLoad hd 16777215 0 0 rf, .optScaleLoad hd 16777216 0 0 rf),
     (.optScaleLoad hd 0 255 0 rf, .optScaleLoad hd 0 256 0 rf), (.optScaleLoad hd 0 0 4294967295 rf, .optScaleLoad hd 0 0 4294967296 rf),
     (.optGroup hd 255 {}, .optGroup hd 256 {}), (.optFreeze hd 4294967295 rf, .optFreeze hd 4294967296 rf),
     (.optStateInit hd 16777215 0 0 rf, .optStateInit hd 16777216 0 0 rf), (.optStateInit hd 0 255 0 rf, .optStateInit hd 0 256 0 rf),
     (.optStateInit hd 0 0 4294967295 rf, .optStateInit hd 0 0 4294967296 rf), (.optNorms hd 4294967295 rf, .optNorms hd 4294967296 rf)] = true := by decide +kernel
theorem test_wf_operands5 : sharp Instr.wf [
    (.optAudit hd 16777215 0 0 [], .optAudit hd 16777216 0 0 []), (.optAudit hd 0 255 0 [], .optAudit hd 0 256 0 []),
     (.optAudit hd 0 0 4294967295 [], .optAudit hd 0 0 4294967296 []), (.optHostDone hd 16777215 0 0, .optHostDone hd 16777216 0 0),
     (.optHostDone hd 0 255 0, .optHostDone hd 0 256 0), (.optHostDone hd 0 0 4294967295, .optHostDone hd 0 0 4294967296),
     (.capsuleSeal hd 16777215 0 [] rf, .capsuleSeal hd 16777216 0 [] rf), (.capsuleSeal hd 0 4294967295 [] rf, .capsuleSeal hd 0 4294967296 [] rf),
     (.telemRead hd 4294967295 rf, .telemRead hd 4294967296 rf), (.ledgerRead hd 4294967295 0 0 rf, .ledgerRead hd 4294967296 0 0 rf),
     (.ledgerRead hd 0 65535 0 rf, .ledgerRead hd 0 65536 0 rf), (.ledgerRead hd 0 0 255 rf, .ledgerRead hd 0 0 256 rf),
     (.powerPolicy hd 4294967295 0, .powerPolicy hd 4294967296 0), (.powerPolicy hd 0 4294967295, .powerPolicy hd 0 4294967296),
     (.clockSet hd 255 0, .clockSet hd 256 0), (.clockSet hd 0 255, .clockSet hd 0 256), (.patternLoad hd 255 rf, .patternLoad hd 256 rf),
     (.testRun hd 4294967295 0 0 rf, .testRun hd 4294967296 0 0 rf), (.testRun hd 0 255 0 rf, .testRun hd 0 256 0 rf),
     (.testRun hd 0 0 255 rf, .testRun hd 0 0 256 rf), (.testAbort hd 4294967295, .testAbort hd 4294967296),
     (.logRead hd 4294967295 0 rf, .logRead hd 4294967296 0 rf), (.logRead hd 0 4294967295 rf, .logRead hd 0 4294967296 rf),
     (.traceConfig hd 4294967295 0 0 0 rf, .traceConfig hd 4294967296 0 0 0 rf), (.traceConfig hd 0 255 0 0 rf, .traceConfig hd 0 256 0 0 rf),
     (.traceConfig hd 0 0 18446744073709551615 0 rf, .traceConfig hd 0 0 18446744073709551616 0 rf),
     (.traceConfig hd 0 0 0 18446744073709551615 rf, .traceConfig hd 0 0 0 18446744073709551616 rf),
     (.attest hd (zeros 32) rf, .attest hd (zeros 33) rf), (.officerEnrol hd 255 (zeros 128) [], .officerEnrol hd 256 (zeros 128) []),
     (.officerEnrol hd 0 (zeros 128) [], .officerEnrol hd 0 (zeros 129) []), (.officerRetire hd 255 [], .officerRetire hd 256 []),
     (.reset hd 255 0, .reset hd 256 0), (.reset hd 0 4294967295, .reset hd 0 4294967296),
     (.rimConfig hd 16777215 0 0 0, .rimConfig hd 16777216 0 0 0), (.rimConfig hd 0 255 0 0, .rimConfig hd 0 256 0 0),
     (.rimConfig hd 0 0 4294967295 0, .rimConfig hd 0 0 4294967296 0), (.rimConfig hd 0 0 0 4294967295, .rimConfig hd 0 0 0 4294967296),
     (.beatMode hd 255 0 0, .beatMode hd 256 0 0), (.beatMode hd 0 255 0, .beatMode hd 0 256 0), (.beatMode hd 0 0 65535, .beatMode hd 0 0 65536)] = true := by decide +kernel
theorem test_wf_operands6 : sharp Instr.wf [
    (.governorBeat (List.replicate 6 (0, 0)) 0, .governorBeat (List.replicate 7 (0, 0)) 0),
     (.governorBeat (List.replicate 6 (0, 0)) 4095, .governorBeat (List.replicate 6 (0, 0)) 4096),
     (.mgmtSessionOpen 0 (zeros 97), .mgmtSessionOpen 0 (zeros 98)), (.smbusResetArm 255, .smbusResetArm 256),
     (.smbusResetConfirm 255, .smbusResetConfirm 256), (.smbusSetIpv4 (zeros 12), .smbusSetIpv4 (zeros 13)),
     (.smbusWriteSbCfg 255, .smbusWriteSbCfg 256), (.smbusLogSelect 4294967295, .smbusLogSelect 4294967296)] = true := by decide +kernel
theorem test_units1 : sharp Instr.units [
    (.siteRemap 79 0, .siteRemap 80 0), (.siteRemap 0 3, .siteRemap 0 4), (.boundarySlip 79 0 0, .boundarySlip 80 0 0),
     (.boundarySlip 0 79 0, .boundarySlip 0 80 0), (.holdRequest 1023 0 0, .holdRequest 1024 0 0), (.holdDecision 1023, .holdDecision 1024),
     (.holdTimeout 1023, .holdTimeout 1024), (.beatEpoch ({ fh with link := 63 }) 0, .beatEpoch ({ fh with link := 64 }) 0),
     (.mcf ({ ih with tile := 5119 }) 0 false, .mcf ({ ih with tile := 5120 }) 0 false),
     (.mld ({ ih with tile := 5119 }) ml, .mld ({ ih with tile := 5120 }) ml), (.msw ({ ih with tile := 5119 }), .msw ({ ih with tile := 5120 })),
     (.mst ({ ih with tile := 5119 }) ms none, .mst ({ ih with tile := 5120 }) ms none),
     (.mdr ({ ih with tile := 5119 }) md, .mdr ({ ih with tile := 5120 }) md),
     (.cvl ({ ih with tile := 5119 }) 0 false 0 0, .cvl ({ ih with tile := 5120 }) 0 false 0 0),
     (.vcl ({ ih with tile := 5119 }) 0 0, .vcl ({ ih with tile := 5120 }) 0 0),
     (.vrn ({ ih with tile := 5119 }) 0 false, .vrn ({ ih with tile := 5120 }) 0 false),
     (.vsl ({ ih with tile := 5119 }) vf, .vsl ({ ih with tile := 5120 }) vf),
     (.vsm ({ ih with tile := 5119 }) 0, .vsm ({ ih with tile := 5120 }) 0),
     (.vrs ({ ih with tile := 5119 }) 0 0 0, .vrs ({ ih with tile := 5120 }) 0 0 0),
     (.vrl ({ ih with tile := 5119 }) 0 0 0, .vrl ({ ih with tile := 5120 }) 0 0 0),
     (.nop ({ ih with tile := 5119 }) 0, .nop ({ ih with tile := 5120 }) 0), (.wcy ({ ih with tile := 5119 }) 0, .wcy ({ ih with tile := 5120 }) 0),
     (.loop ({ ih with tile := 5119 }) lp, .loop ({ ih with tile := 5120 }) lp),
     (.call ({ ih with tile := 5119 }) 0, .call ({ ih with tile := 5120 }) 0), (.ret ({ ih with tile := 5119 }), .ret ({ ih with tile := 5120 })),
     (.swp ({ ih with tile := 5119 }), .swp ({ ih with tile := 5120 })), (.endI ({ ih with tile := 5119 }), .endI ({ ih with tile := 5120 })),
     (.ags ({ ih with tile := 5119 }) as, .ags ({ ih with tile := 5120 }) as),
     (.agi ({ ih with tile := 5119 }) ai, .agi ({ ih with tile := 5120 }) ai),
     (.srd ({ ih with tile := 5119 }) 0 0, .srd ({ ih with tile := 5120 }) 0 0),
     (.swr ({ ih with tile := 5119 }) 0 0, .swr ({ ih with tile := 5120 }) 0 0),
     (.get ({ ih with tile := 5119 }) 0 0 0, .get ({ ih with tile := 5120 }) 0 0 0),
     (.put ({ ih with tile := 5119 }) 0 0 0, .put ({ ih with tile := 5120 }) 0 0 0),
     (.gth ({ ih with tile := 5119 }) gf, .gth ({ ih with tile := 5120 }) gf),
     (.sct ({ ih with tile := 5119 }) sf, .sct ({ ih with tile := 5120 }) sf),
     (.pgl ({ ih with tile := 5119 }) 0 0 0 false, .pgl ({ ih with tile := 5120 }) 0 0 0 false), (.pageSwap 5119, .pageSwap 5120),
     (.swapTimeout 5119 0, .swapTimeout 5120 0), (.crossWait 5119, .crossWait 5120), (.streamStall 5119 false 0, .streamStall 5120 false 0),
     (.planStart 5119, .planStart 5120), (.planEnd 5119 0, .planEnd 5120 0), (.spPatrol 5119, .spPatrol 5120),
     (.spCorrectionWriteback 5119 0, .spCorrectionWriteback 5120 0), (.spCorrectionWriteback 0 23, .spCorrectionWriteback 0 24),
     (.routerSlot 5119 0 0, .routerSlot 5120 0 0), (.routerSlot 0 1023 0, .routerSlot 0 1024 0), (.beatOrder 0 1023 0, .beatOrder 0 1024 0),
     (.beatOrderLost 0 1023, .beatOrderLost 0 1024), (.routeSwitch 1023, .routeSwitch 1024)] = true := by decide +kernel
theorem test_units2 : sharp Instr.units [
    (.waggleResend 79 0, .waggleResend 80 0), (.fenceOrder 0 0 1023, .fenceOrder 0 0 1024), (.spRead 5119 0 0, .spRead 5120 0 0),
     (.spWrite 5119 0 0 0, .spWrite 5120 0 0 0), (.spReply 5119 0, .spReply 5120 0), (.regRead 5119 0 0, .regRead 5120 0 0),
     (.regWrite 5119 0 0 0, .regWrite 5120 0 0 0), (.regReply 5119 0, .regReply 5120 0), (.shortMsg 5119 0 [], .shortMsg 5120 0 []),
     (.regulatorGrant 23, .regulatorGrant 24), (.streamForecast 23 0, .streamForecast 24 0), (.streamForecast 0 1023, .streamForecast 0 1024),
     (.edgePortSlot 23 0 0 false, .edgePortSlot 24 0 0 false), (.edgePortSlot 0 11 0 false, .edgePortSlot 0 12 0 false),
     (.streamDeadline 23 0, .streamDeadline 24 0), (.streamDeadline 0 63, .streamDeadline 0 64), (.stackPatrol 23, .stackPatrol 24),
     (.reduceDeadline 23 0, .reduceDeadline 24 0), (.reductionForecast 23 0, .reductionForecast 24 0),
     (.reductionForecast 0 1023, .reductionForecast 0 1024), (.gradEgressSend 23 0 0, .gradEgressSend 24 0 0),
     (.gradEgressSend 0 1023 0, .gradEgressSend 0 1024 0), (.ownerBufferOpen 23 0, .ownerBufferOpen 24 0),
     (.ownerBufferOpen 0 1023, .ownerBufferOpen 0 1024),
     (.gradBlock ({ fh with link := 63 }) 0 0 false wb, .gradBlock ({ fh with link := 64 }) 0 0 false wb),
     (.gradClose ({ fh with link := 63 }) 0 0 0 false false 0, .gradClose ({ fh with link := 64 }) 0 0 0 false false 0),
     (.parcelCredit ({ fh with link := 63 }) 0 0 0 0, .parcelCredit ({ fh with link := 64 }) 0 0 0 0),
     (.ripenerUpdate 23 0 0, .ripenerUpdate 24 0 0), (.ripenerUpdate 0 1023 0, .ripenerUpdate 0 1024 0),
     (.mirror ({ fh with link := 63 }) px [], .mirror ({ fh with link := 64 }) px []),
     (.mirrorAck ({ fh with link := 63 }) 0 0 0 0, .mirrorAck ({ fh with link := 64 }) 0 0 0 0), (.mirrorTimeout 1023 0, .mirrorTimeout 1024 0),
     (.allgather ({ fh with link := 63 }) px [], .allgather ({ fh with link := 64 }) px []), (.hostUpdateTimeout 1023 0, .hostUpdateTimeout 1024 0),
     (.capsule ({ fh with link := 63 }) 0 0 0 [], .capsule ({ fh with link := 64 }) 0 0 0 []),
     (.capsuleAck ({ fh with link := 63 }) 0 0 0, .capsuleAck ({ fh with link := 64 }) 0 0 0),
     (.link 63 0 false [0, 0, 0, 0] false, .link 64 0 false [0, 0, 0, 0] false), (.linkRetrainInService 63 0, .linkRetrainInService 64 0),
     (.linkRetrainComplete 63 tr, .linkRetrainComplete 64 tr), (.fabricCreditStall 63 0, .fabricCreditStall 64 0),
     (.fabricCreditStall 0 3, .fabricCreditStall 0 4), (.hello 63 0 0 0 0, .hello 64 0 0 0 0),
     (.stepStartMessage ({ fh with link := 63 }) 0 0 0 0, .stepStartMessage ({ fh with link := 64 }) 0 0 0 0),
     (.stepSyncTimeout 1023, .stepSyncTimeout 1024), (.norm ({ fh with link := 63 }) 0 0, .norm ({ fh with link := 64 }) 0 0),
     (.headroom ({ fh with link := 63 }) 0 0 0, .headroom ({ fh with link := 64 }) 0 0 0), (.headroomTimeout 64, .headroomTimeout 65),
     (.restoreRequest ({ fh with link := 63 }) 0 0, .restoreRequest ({ fh with link := 64 }) 0 0),
     (.restoreDone ({ fh with link := 63 }) 0 0 0 0 0 0 0 (List.replicate 64 0), .restoreDone ({ fh with link := 64 }) 0 0 0 0 0 0 0 (List.replicate 64 0)),
     (.moduleLost 64, .moduleLost 65)] = true := by decide +kernel
theorem test_units3 : sharp Instr.units [
    (.headLineSnoop 1023 0 0 0 false [], .headLineSnoop 1024 0 0 0 false []),
     (.headLineReread 1023 0 0 0 false [], .headLineReread 1024 0 0 0 false []), (.farPageRequestRepost 1023 0 0, .farPageRequestRepost 1024 0 0),
     (.msixUnmask 255, .msixUnmask 256), (.stepBegin 1023, .stepBegin 1024), (.stepComplete 1023, .stepComplete 1024),
     (.tileReset 5119, .tileReset 5120), (.clusterReset 79 0, .clusterReset 80 0), (.clusterReset 0 3, .clusterReset 0 4),
     (.partitionReset 1023, .partitionReset 1024), (.computeDomainOn 79, .computeDomainOn 80),
     (.regionSensorSample 79 sm [], .regionSensorSample 80 sm []), (.heatHigh 79, .heatHigh 80), (.heatOffRecovery 79, .heatOffRecovery 80),
     (.stackSensorSample 23 0, .stackSensorSample 24 0), (.rcFault 79 false, .rcFault 80 false), (.rcSilent 79 false, .rcSilent 80 false),
     (.pxSenseBreak 1, .pxSenseBreak 2), (.inputValid 5 0, .inputValid 6 0), (.inputOvervoltage 5 0, .inputOvervoltage 6 0),
     (.inputReclose 5 0, .inputReclose 6 0), (.inputOvercurrent 5 0 0, .inputOvercurrent 6 0 0), (.inputLost 5 0, .inputLost 6 0),
     (.transitSupplyLoss 79, .transitSupplyLoss 80), (.linkAckSend 63, .linkAckSend 64), (.linkNarrowingComplete 63, .linkNarrowingComplete 64),
     (.leaseGrant { ls with res := uidComp 79 } false, .leaseGrant { ls with res := uidKeeper } false),
     (.leaseRenew { ls with res := uidComp 79 } false, .leaseRenew { ls with res := uidKeeper } false),
     (.leaseRelease { ls with res := uidComp 79 }, .leaseRelease { ls with res := uidKeeper }),
     (.leaseReclaim { ls with res := uidComp 79 }, .leaseReclaim { ls with res := uidKeeper }),
     (.leaseExpired { ls with res := uidComp 79 }, .leaseExpired { ls with res := uidKeeper })] = true := by decide +kernel
/-- What does not pass is refused by name, and a part that does not exist is a fault by name. -/
theorem test_stops : exec (.nop ih 4096) up = .refused (.illFormed "NOP") ∧ exec (.tileReset 5120) up = .fault (.noSuchUnit "TILE_RESET") := by
  constructor <;> rfl


/-! Tests of small parts against the worked examples of the spec; each names its chapter. -/

/-- 00, naming a tile: X = 37, Y = 21 is the logical tile 0x0131_A800. -/
theorem test_tile_name : uidTile (tileAt 37 21) 0 = 0x0131A800 ∧ tileX (tileAt 37 21) = 37 ∧ tileY (tileAt 37 21) = 21 := by decide
/-- 00, R8: beat 1234 (hex), cycle ABC. -/
theorem test_stamp : ({ State.reset with clk := { State.reset.clk with beat := 0x1234 } } : State).stamp 0xABC = 0x01234ABC := by decide
/-- 01, a second defect in one column: cluster 2, site 9, then site 13 too. -/
theorem test_second_defect :
    [13, 9, 5, 1].map (siteOf [49] 2) = [some 17, some 13, some 5, some 1] ∧ [13, 9, 5, 1].map (siteOf [49, 53] 2) = [some 17, some 5, some 1, none] ∧
    bits (remapField [49]) 29 27 = 2 ∧ bits (remapField [49, 53]) 29 27 = 6 := by decide
/-- 17, a tile dies: cluster 3, site 9 (row d = 2): tile 5 moves to site 5 and tile 1 to site 1; tiles 9 and 13 stay. -/
theorem test_remap_row2 :
    [5, 1, 9, 13].map (siteOf [] 3) = [some 9, some 5, some 13, some 17] ∧ [5, 1, 9, 13].map (siteOf [69] 3) = [some 5, some 1, some 13, some 17] := by decide
/-- 17: the units of that example. -/
theorem test_fault_units : uidTile (tileAt 37 21) 0x013 = 0x0131A813 ∧ uidSite 24 3 1 = 0x02318001 ∧ uidSite 24 3 9 = 0x02318009 := by decide
/-- 03, one E5M2 block: the three elements times 2^21 (to five figures and more), and their dequantised values. -/
theorem test_e5m2_elements :
    e5m2.conv .nearest false (.fin false 25795 0) = ⟨0x76, { ix := true }, false⟩ ∧ e5m2.conv .nearest false (.fin false 27268 (-22)) = ⟨0x1F, { ix := true }, false⟩ ∧
    e5m2.conv .nearest false (.fin false 63124 0) = ⟨0x7B, { of := true, ix := true }, true⟩ ∧ Val.eq (e5m2.dec 0x76) (.fin false 24576 0) = true ∧
    Val.eq (e5m2.dec 0x7B) (.fin false 57344 0) = true := by decide
/-- 03: the trailer of block 0x5A of parcel 0x2_B1C0 with one saturated element. -/
theorem test_block_trailer :
    (gradBlockBody 0 0 false ⟨0x2B1C0, 0x5A, 1, []⟩).drop 8 = [0x5A#8, 0xC0#8, 0xB1#8, 0x02#8, 0x01#8, 0#8, 0#8, 0#8] := by decide
/-- 03: the parcel's next scale entries: 108 after a saturated step with A = 57344 × 2^-21, then 107 after A = 0.004 (8389 × 2^-21). -/
theorem test_next_scale :
    nextScale { headroom := 1, satStep := 2, downStep := 1 } 106 (.fin false 57344 (-21)) 3 = 108 ∧
    nextScale { headroom := 1, satStep := 2, downStep := 1 } 108 (.fin false 8389 (-21)) 0 = 107 := by decide
/-- 06, placing a streamed product under the default map. -/
theorem test_placing :
    ({} : SpMap).place 0x4A80 = (2, 42) ∧ ({} : SpMap).place 0x4AA0 = (3, 42) ∧ ({} : SpMap).place 0 = (0, 0) ∧ ({} : SpMap).place 0x3FE0 = (1, 255) ∧
    ({} : SpMap).place 0xBFC0 = (4, 255) ∧ ({} : SpMap).place 0xBFE0 = (5, 255) := by decide
/-- 07, a merge chain: the entry in router (42, 1), and the edge port of X = 42 on the south side. -/
theorem test_route_entry :
    reStart 0xA010078042285A0C = 0x402 ∧ reCount 0xA010078042285A0C = 15 ∧ reStride 0xA010078042285A0C = 1 ∧ reIn 0xA010078042285A0C = 0 ∧
    reIn2 0xA010078042285A0C = 4 ∧ reOut 0xA010078042285A0C = 4 ∧ reOpm 0xA010078042285A0C = 1 ∧ reCh 0xA010078042285A0C = 2 ∧
    rePtag 0xA010078042285A0C = 0x05A ∧ reSched 0xA010078042285A0C = 3 ∧ edgeAt (tileAt 42 0) 2 = 181 := by decide
/-- 07: flit 0 taken at 400 reaches (42, 1) at 402; the sum, merged at 402, reaches (42, 0) at 405; merged there, it is at the edge at 40C. -/
theorem test_merge_chain :
    (sendSide (tileAt 42 2) 0x400 2 0 { v := true } up).fly.map (fun f => (f.dst, f.cyc)) = [(tileAt 42 1, 0x402)] ∧
    (sendSide (tileAt 42 1) 0x402 2 1 { v := true } up).fly.map (fun f => (f.dst, f.cyc)) = [(tileAt 42 0, 0x405)] ∧
    (sendSide (tileAt 42 0) 0x405 2 1 { v := true } up).fly.map (fun f => (f.dst, f.cyc)) = [(181, 0x40C)] := by decide +kernel
/-- 07, R177: an FP32 merge adds lane by lane; 1.0 and 2.0 give 3.0 in every lane of a word. -/
theorem test_merge_lanes :
    (mergeFlits 1 { v := true, w0 := 0x3F800000 + 0x40000000 * 2 ^ 224 } { v := true, w0 := 0x40000000 + 0x3F800000 * 2 ^ 224 }).1.w0 = 0x40400000 + 0x40400000 * 2 ^ 224 := by
  decide +kernel
/-- 08, ordering three streams: SC7 evaluates at cycle 0x700 of plan beat 100. -/
def drying (slots stride : Nat) (cyc : Nat) : Nat := (⟨3, 0, 1000, 0, slots, stride⟩ : Claim).after cyc
theorem test_claims_left : drying 1024 4 0x700 = 576 ∧ drying 256 16 0x700 = 144 ∧ drying 2048 2 0x700 = 1152 := by decide
/-- 08: the dry beats, walking a sequence whose schedule is active in every beat. -/
theorem test_dry_beats :
    (⟨3, 0, 1000, 0, 1024, 4⟩ : Claim).dryIn 101 [3 * 2 ^ 26] 0 (2600 - 576) = some 102 ∧
    (⟨3, 0, 1000, 0, 256, 16⟩ : Claim).dryIn 101 [3 * 2 ^ 26] 0 (420 - 144) = some 102 ∧
    (⟨3, 0, 1000, 0, 2048, 2⟩ : Claim).dryIn 101 [3 * 2 ^ 26] 0 (3000 - 1152) = some 101 := by decide
/-- 10, R266: attempt 0 follows attempt 255 and is later than it. -/
theorem test_attempts : later 0 255 = true ∧ later 255 0 = false ∧ later 1 0 = true ∧ later 0 0 = false ∧ later 127 0 = true ∧ later 128 0 = false := by decide
/-- 12, one command through a small ring: entry 0x200 of a ring of 128 has phase 1, 4 units wait, and 128 unconsumed entries leave no room. -/
theorem test_small_ring :
    (decide (0x200 / 2 ^ 7 % 2 = 0)) = true ∧ idxDiff 0xF82 0xF7E = 4 ∧ ({ desc := { w2 := 7#64 }, qprod := 0x200, qcons := 0x180 } : Ring).room = false ∧
    ({ desc := { w2 := 7#64 }, qprod := 0x200, qcons := 0x200 } : Ring).room = true := by decide
/-- 16, four modules on one pod share, phase 3: 18,900 W against 18,000 W at m = 64 gives 70; the way back to 69 is not taken. -/
theorem test_lengthen : lengthenTo 64 64 18900000 18000 2600 = 70 ∧ shortenTo 70 64 17503000 18000 2600 = none := by decide
/-- 16: position 0 of a pod of four with the offers of the others as heard. -/
def inFour (own : Nat) (others : List Int) : State :=
  { up with
    gov := { up.gov with share := 18000, lastMean := 1000 * own }
    pod := { cfg := some { routes := [(0xFF, 0xFF), (1, 0xFF), (2, 0xFF), (3, 0xFF)] }, peers := others.zipIdx.map (fun p => (p.2 + 1, { heard := true, offer := p.1 })) } }
/-- What a module that drew `own` watts is allowed. -/
def allowed (own : Nat) (others : List Int) : Int × Int := ((inFour own others).ownOffer, (inFour own others).podShare (inFour own others).ownOffer)
/-- 16, four modules on one pod share: offers and allowances of phases 1 and 2. -/
theorem test_pod_share :
    allowed 18900 [-1260, 3640, 15040] = (-1260, 19260) ∧ allowed 14000 [-1260, -1260, 15040] = (3640, 17509) ∧ allowed 2600 [-1260, -1260, 3640] = (15040, 15971) ∧
    allowed 18900 [-1260, 3640, -1260] = (-1260, 19213) ∧ allowed 14000 [-1260, -1260, -1260] = (3640, 14360) ∧ allowed 18900 [-1260, -1260, -1260] = (-1260, 18000) := by
  decide +kernel
/-- 20, losing an input: five inputs at 54 V carry 18,522 W, and 18,900 W at m = 64 gives 68. -/
theorem test_input_limit : inputLimit (List.replicate 5 { v := 5400, i := 700, live := true }) = 18522 ∧ lengthenTo 64 64 18900000 18522 2600 = 68 := by decide
/-- 16, R399: the coolant term of CAP falls by 700 W for each started degree above 40 °C. -/
theorem test_coolant_term : coolantTerm 160 = 21000 ∧ coolantTerm 161 = 20300 ∧ coolantTerm 164 = 20300 ∧ coolantTerm 165 = 19600 := by decide
/-- 02, R54 and *Matrix unit coincidences*: MLD is accepted while an MST streams, but not before its swap. -/
def wordComing (unit : Nat) : Tile :=
  { goTile with se := { st := .issuing, ops := [{ h := plain true, ti := .mst ⟨1, 0, 4, 0, 1, 0, true, false, 0, 0⟩ none, otag := 0, total := 4, unit := unit }] } }
theorem test_load_beside_stream :
    accepted (wordComing 1) (plain true) (.mld ⟨0, 64, 0, 0, false, true, false⟩) = true ∧
    accepted (wordComing 0) (plain true) (.mld ⟨0, 64, 0, 0, false, true, false⟩) = false := by decide
/-- 02, R45: a drain of the row that the MST writes next waits for it, one of a row it has written does not. -/
theorem test_drain_behind_stream :
    let drain (row : Nat) : Op := { h := plain true, ti := .mdr ⟨row, 1, false, false, 2, 0⟩, otag := 0, total := 1, snaps := [(2, { start := 4096 })] }
    (wordComing 1).se.ops.map (fun o => (mustFollow (wordComing 1) o (drain 1), mustFollow (wordComing 1) o (drain 0))) = [(true, false)] := by decide
/-- 06, R164: SCRUB reads 1 for 8192 cycles. -/
theorem test_scrub :
    ((Tile.zeroFill 100 {}).regAt 8291 0x2E, (Tile.zeroFill 100 {}).regAt 8292 0x2E) = (128, 0) := by decide

end Sys2Proof.Tests
end

section
/-! SUPPORT. The beat number, the clock setting and its orders, as one value: what each command that may change them does to it. All the other
commands keep it (`exec_kept`). -/

namespace Sys2Proof.Machine

/-- The beat number, the clock setting, and the settings ordered with the beats they are ordered for. -/
def Kept.timing (k : Kept) : Nat × Nat × List (Nat × Nat) := (k.beat, k.m, k.stretch)
/-- Those of a machine. -/
def State.timing (s : State) : Nat × Nat × List (Nat × Nat) := s.kept.timing
@[simp] theorem Kept.timing_mk (a b c d e f g h i j k l m) : Kept.timing ⟨a, b, c, d, e, f, g, h, i, j, k, l, m⟩ = (b, c, d) := rfl
@[simp] theorem kept_timing (s : State) : s.kept.timing = (s.clk.beat, s.clk.m, s.clk.stretch) := rfl

theorem timing_of_kept {s t : State} (h : t.kept = s.kept) : t.timing = s.timing :=
  congrArg Kept.timing h
theorem timing_eq_iff {t : State} {b m : Nat} {o : List (Nat × Nat)} : t.timing = (b, m, o) ↔ t.clk.beat = b ∧ t.clk.m = m ∧ t.clk.stretch = o := by
  simp [State.timing]

/-- A packet is either answered by the checks, which keep the fields few commands change, or by the command's own part on a machine with those fields. -/
theorem packet_cases (op : Nat) (lens : List Nat) (sysOnly : Bool) (h : Hdr) (s : State) (body : State → Verdict) :
    (packet op lens sysOnly h s body).kept = s.kept ∨ ∃ t, t.kept = s.kept ∧ packet op lens sysOnly h s body = (body t).apply h op := by
  unfold packet
  dsimp only
  split
  · left; split
    · split <;> simp
    · simp
  split
  · left; simp
  split
  · left; simp [Verdict.apply]
  split
  · left; simp [Verdict.apply]
  split
  · left; simp [Verdict.apply]
  split
  · left; simp [Verdict.apply]
  · right; exact ⟨_, by simp, rfl⟩

theorem doBeatBoundary_kept_unpowered {s : State} (h : s.tr.wafer = false) : (doBeatBoundary s).kept = s.kept := by
  simp [doBeatBoundary, h]
theorem doBeatBoundary_kept_powered {s : State} (h : s.tr.wafer = true) : (doBeatBoundary s).kept = s.landAll.endBeat.tickClock.kept := by
  simp [doBeatBoundary, h]

/-- A stretch order is dropped, or it asks for a setting of R22 and joins the others (R25). -/
theorem doStretchOrder_timing (m beat cyc : Nat) (s : State) :
    (doStretchOrder m beat cyc s).timing = s.timing ∨
      (64 ≤ m ∧ m ≤ 192 ∧ ∃ d, (doStretchOrder m beat cyc s).timing = (s.clk.beat, s.clk.m, s.clk.stretch ++ [(m, d)])) := by
  unfold doStretchOrder
  dsimp only
  split
  · exact .inl rfl
  · next hm =>
    have h64 : 64 ≤ m ∧ m ≤ 192 := by omega
    split
    · next heq => obtain rfl := State.take_shape heq; exact .inr ⟨h64.1, h64.2, _, rfl⟩
    · split
      · exact .inr ⟨h64.1, h64.2, _, rfl⟩
      · exact .inl rfl

/-- A fabric packet is dropped or counted as bad, or its own part takes it after the count. -/
theorem State.fabricIn_cases (s : State) (f : FHdr) (vc : Nat) (lens : List Nat) (g : State → State) :
    (s.fabricIn f vc lens g).kept = s.kept ∨ s.fabricIn f vc lens g = g (s.rxCount f) := by
  have e : (s.rxCount f).kept = s.kept := State.rxCount_kept s f
  unfold State.fabricIn
  dsimp only
  split
  · exact .inl rfl
  split
  · exact .inl rfl
  split
  · split <;> exact .inl rfl
  split
  · exact .inl e
  split
  · exact .inl e
  split
  · left; simp only [State.keeperFault_kept, State.onLink_kept]; exact e
  · exact .inr rfl

/-- An epoch message sets the beat number only of a follower in its boot that has adopted none (R39); otherwise it is logged. -/
theorem doBeatEpoch_timing (f : FHdr) (n : Nat) (s : State) :
    (doBeatEpoch f n s).timing = s.timing ∨
      (s.clk.mode.cable = true ∧ s.clk.mode.master = false ∧ s.clk.adopted = false ∧ s.tr.boot ≠ .ready ∧
        (doBeatEpoch f n s).timing = (n, s.clk.m, s.clk.stretch)) := by
  rcases s.fabricIn_cases f 0 [f.len] _ with h | h
  · exact .inl (timing_of_kept h)
  · unfold doBeatEpoch
    rw [h]
    have ht : (s.rxCount f).timing = s.timing := timing_of_kept (State.rxCount_kept s f)
    dsimp only
    split
    · next hc =>
      simp only [State.rxCount_clk, State.rxCount_tr] at hc
      obtain ⟨h1, h2, -, h3, h4⟩ := hc
      refine .inr ⟨h1, h2, h3, h4, (timing_of_kept (State.beatEvent_kept ..)).trans ?_⟩
      simp [State.timing]
    · exact .inl ((timing_of_kept (State.beatEvent_kept ..)).trans ht)

@[simp] theorem officerChange_timing (s : State) (h : Hdr) (p n : Nat) (bs : List SigBlk) (f : Tab (List Byte) → Tab (List Byte)) :
    (s.officerChange h p n bs f).timing = s.timing := by
  simp [State.officerChange, State.timing]

/-- A packet whose command answers at once, in a machine with the same beat and clock setting. -/
theorem packet_done_timing (op : Nat) (lens : List Nat) (sysOnly : Bool) (h : Hdr) (s : State) (body : State → Verdict)
    (hb : ∀ t, ∃ st d u, body t = .done st d u ∧ u.timing = t.timing) : (packet op lens sysOnly h s body).timing = s.timing := by
  rcases packet_cases op lens sysOnly h s body with e | ⟨t, ht, e⟩
  · exact timing_of_kept e
  · obtain ⟨st, d, u, hu, htu⟩ := hb t
    rw [e, hu, apply_done]
    calc (replied op h st d u).timing = u.timing := timing_of_kept (State.replyTo_kept ..)
      _ = t.timing := htu
      _ = s.timing := timing_of_kept ht

theorem doOfficerEnrol_timing (h : Hdr) (slot : Nat) (key : List Byte) (blks : List SigBlk) (s : State) :
    (doOfficerEnrol h slot key blks s).timing = s.timing := by
  refine packet_done_timing _ _ _ _ _ _ (fun t => ?_)
  dsimp only [check6, refuse]
  (repeat' split) <;> exact ⟨_, _, _, rfl, by simp⟩
theorem doOfficerRetire_timing (h : Hdr) (slot : Nat) (blks : List SigBlk) (s : State) :
    (doOfficerRetire h slot blks s).timing = s.timing := by
  refine packet_done_timing _ _ _ _ _ _ (fun t => ?_)
  dsimp only [check6, refuse]
  (repeat' split) <;> exact ⟨_, _, _, rfl, by simp⟩

/-! The boots (R31, R290). -/

theorem bootReady_timing (s : State) (c : ColdRep) : (s.bootReady c).timing = s.timing := by
  simp [State.timing, State.bootReady]
theorem bootBare_timing (s : State) (b : BootFinds) (k : Nat) (failed : Bool) : (s.bootBare b k failed).timing = s.timing := by
  unfold State.bootBare
  rw [bootReady_timing]
  simp [State.timing]
/-- Adopting a beat number: the number heard plus one (R290), and the module's own where none was heard. -/
theorem adopt_timing (s : State) (master : Option Nat) (own : Nat) :
    (s.adopt master own).timing = ((master.map (· + 1)).getD own, s.clk.m, s.clk.stretch) := by
  cases master <;> simp [State.adopt, State.timing]
/-- The beat number a boot sets: 0, or the number heard from the master plus one. -/
def BootFinds.beatSet (b : BootFinds) (n : Nat) : Prop := n = 0 ∨ ∃ k, b.master = some k ∧ n = k + 1
theorem beatSet_adopted (b : BootFinds) : b.beatSet ((b.master.map (· + 1)).getD 0) := by
  unfold BootFinds.beatSet
  cases b.master <;> simp
theorem bootBeat_timing {u s : State} (b : BootFinds) (h : u.timing = s.timing) :
    ∃ n, b.beatSet n ∧ (u.bootBeat b).timing = (n, s.clk.m, s.clk.stretch) := by
  obtain ⟨-, hm, hs⟩ := timing_eq_iff.mp h
  unfold State.bootBeat
  split
  · exact ⟨_, beatSet_adopted b, (adopt_timing ..).trans (by rw [hm, hs]; rfl)⟩
  · exact ⟨0, .inl rfl, timing_eq_iff.mpr ⟨rfl, hm, hs⟩⟩
theorem bootFull_timing (s : State) (b : BootFinds) (k : Nat) (failed : Bool) :
    ∃ n, b.beatSet n ∧ (s.bootFull b k failed).timing = (n, s.clk.m, s.clk.stretch) := by
  obtain ⟨n, hn, e⟩ := bootBeat_timing (s := s) b (timing_of_kept (by simp :
    ((((s.powerWafer (readVariant s.tr.varCert)).bootStacks (readVariant s.tr.varCert) b).bootHost b).bootLinks (readVariant s.tr.varCert) b).kept = s.kept))
  refine ⟨n, hn, ?_⟩
  unfold State.bootFull
  exact (bootReady_timing ..).trans ((timing_of_kept (by simp)).trans e)
theorem bootOn_timing (s : State) (b : BootFinds) :
    ∃ n, (n = s.clk.beat ∨ b.beatSet n) ∧ (s.bootOn b).timing = (n, s.clk.m, s.clk.stretch) := by
  unfold State.bootOn
  dsimp only
  split
  · exact ⟨_, .inl rfl, timing_of_kept (State.bootRom_kept ..)⟩
  · next k _ =>
    split
    · obtain ⟨n, hn, e⟩ := bootFull_timing (s.bootLoad k) b k (decide (s.tr.tryFw ≠ s.tr.slotOrder.head?))
      exact ⟨n, .inr hn, e⟩
    · exact ⟨_, .inl rfl, bootBare_timing ..⟩
theorem bootOpen_timing (s : State) : s.bootOpen.timing = (s.clk.beat, 64, []) := by
  simp [State.bootOpen, State.timing, State.coldState]
/-- A cold boot keeps the beat number or sets it, and keeps the clock setting with its orders or clears them. -/
theorem doColdBoot_timing (b : BootFinds) (s : State) :
    ∃ n, (n = s.clk.beat ∨ b.beatSet n) ∧
      ((doColdBoot b s).timing = (n, s.clk.m, s.clk.stretch) ∨ (doColdBoot b s).timing = (n, 64, [])) := by
  unfold doColdBoot
  dsimp only
  have same : ∃ n, (n = s.clk.beat ∨ b.beatSet n) ∧ (s.timing = (n, s.clk.m, s.clk.stretch) ∨ s.timing = (n, 64, [])) := ⟨_, .inl rfl, .inl rfl⟩
  obtain ⟨hb, hm, ho⟩ := timing_eq_iff.mp (bootOpen_timing s)
  split
  · split
    · obtain ⟨n, hn, e⟩ := bootOn_timing s b
      exact ⟨n, hn, .inl e⟩
    · exact same
  split
  · exact same
  split
  · split
    · exact ⟨_, .inl rfl, .inl (timing_of_kept (State.goDark_kept s))⟩
    · exact same
  split
  · obtain ⟨n, hn, e⟩ := bootOn_timing s.bootOpen b
    rw [hm, ho] at e
    rw [hb] at hn
    exact ⟨n, hn, .inr e⟩
  · exact ⟨_, .inl rfl, .inr (bootOpen_timing s)⟩
/-- Taking the beat mode in force keeps the beat number or adopts the master's plus one. -/
theorem takeMode_timing (s : State) (master : Option Nat) :
    (s.takeMode master).timing = s.timing ∨ ∃ k, master = some k ∧ (s.takeMode master).timing = (k + 1, s.clk.m, s.clk.stretch) := by
  unfold State.takeMode
  dsimp only
  split
  · split
    · exact .inl rfl
    · cases master with
      | none => exact .inl (adopt_timing ..)
      | some k => exact .inr ⟨k, rfl, adopt_timing ..⟩
  · exact .inl rfl
theorem warmStart_timing (s : State) (b : BootFinds) :
    (s.warmStart b).timing = s.timing ∨ ∃ k, b.master = some k ∧ (s.warmStart b).timing = (k + 1, s.clk.m, s.clk.stretch) := by
  unfold State.warmStart
  split
  · next k v hk hv =>
    rcases takeMode_timing (({ s with tr := s.tr.loadFw k, ha := { s.ha with fwver := (s.tr.loadFw k).fwver } } : State).freshWindow) b.master with e | ⟨n, hn, e⟩
    · exact .inl (Eq.trans (timing_of_kept (by simp)) e)
    · exact .inr ⟨n, hn, Eq.trans (timing_of_kept (by simp)) e⟩
  · left; simp [State.timing, Trust.loadFw]
  · exact .inl rfl
theorem doModuleWarmReset_timing (b : BootFinds) (s : State) :
    (doModuleWarmReset b s).timing = s.timing ∨ ∃ k, b.master = some k ∧ (doModuleWarmReset b s).timing = (k + 1, s.clk.m, s.clk.stretch) := by
  unfold doModuleWarmReset
  split
  · exact warmStart_timing s b
  split
  · exact .inl rfl
  · exact .inl (timing_of_kept (State.warmStop_kept s))
end Sys2Proof.Machine
end

section
/-! SUPPORT. What the landing of flits leaves alone in the regions: it may mark a region unreached (R188), and no more. So the voltages that a
regulator has ready, which the due setting asks for, are those from before it. -/

namespace Sys2Proof.Machine
@[simp] theorem flush_regions (s : State) (c n : Nat) : (s.flush c n).regions = s.regions := by
  induction n generalizing s with
  | zero => rfl
  | succ n ih =>
    have hw : ∀ e, (s.writeEntry c e).regions = s.regions := fun e => by
      unfold State.writeEntry State.putStatus State.raiseVec; dsimp only; (repeat' split) <;> rfl
    unfold State.flush
    dsimp only
    split
    · rfl
    · split
      · rfl
      · split <;> rw [ih, State.onRing_regions, hw]
@[simp] theorem putEntry_regions (s : State) (c : Nat) (e : CEntry) : (s.putEntry c e).regions = s.regions := by
  unfold State.putEntry
  dsimp only
  split
  · rfl
  · split
    · rfl
    · rw [flush_regions, State.onRing_regions]
@[simp] theorem post_regions (s : State) (c code data k : Nat) : (s.post c code data k).regions = s.regions := putEntry_regions ..
@[simp] theorem logRec_regions (s : State) (a b c d : Nat) (e : List Byte) : (s.logRec a b c d e).regions = s.regions := by
  unfold State.logRec; dsimp only; split <;> rfl
@[simp] theorem flagNear_regions (s : State) (u v : Nat) : (s.flagNear u v).regions = s.regions := by
  unfold State.flagNear; split <;> rfl
@[simp] theorem replyTo_regions (s : State) (src : Src) (e : CEntry) : (s.replyTo src e).regions = s.regions := by
  unfold State.replyTo; split <;> simp
@[simp] theorem finish_regions (s : State) (i st d : Nat) : (s.finish i st d).regions = s.regions := by
  unfold State.finish; split <;> simp
@[simp] theorem record_regions (s : State) (r : FReport) : (s.record r).regions = s.regions := by
  have post : ∀ (t : State) i, (t.postFault r.unit r.cls i r.ctx).regions = t.regions := fun t i => by
    unfold State.postFault State.postSys; dsimp only; split <;> simp
  have first : ∀ (t : State) c i k, (t.firstFault c i k).regions = t.regions := fun _ _ _ _ => rfl
  have ends : ∀ (t : State) c i k, (t.endRun c i k).regions = t.regions := fun _ _ _ _ => rfl
  simp [State.record, apply_ite State.regions, post, first, ends]
@[simp] theorem writeExt_regions (s : State) (e : Nat) (x : ExtEnt) (off : Nat) (bs : List Byte) : (s.writeExt e x off bs).regions = s.regions := by
  induction bs generalizing s off with
  | nil => rfl
  | cons b bs ih =>
    unfold State.writeExt State.touch
    dsimp only
    rw [ih]
    (repeat' split) <;> rfl

/-- Region r but for the mark that a packet could not reach it (R188). -/
def State.reached (s : State) (r : Nat) : Region := { s.region r with unreached := false }
theorem reached_of_regions {s t : State} (h : t.regions = s.regions) : t.reached = s.reached := by
  unfold State.reached State.region; rw [h]
/-- A region after a change that does not bring a region to its reset content: no table's form is asked for. -/
theorem region_onRegion (s : State) {r : Nat} {f : Region → Region} (h : f (s.region r) ≠ {}) (k : Nat) :
    (s.onRegion r f).region k = if k = r then f (s.region r) else s.region k := by
  unfold State.region at h ⊢
  unfold State.onRegion Tab.upd Tab.set
  rw [if_neg h]
  split
  · next hk => rw [hk, Tab.get_put_self]
  · next hk => exact Tab.get_put_ne _ _ _ hk
/-- Marking a region unreached changes no region but for that mark. -/
theorem reached_marked (s : State) (r : Nat) : (s.onRegion r (fun g => { g with unreached := true })).reached = s.reached := by
  funext k
  have hne : ({ s.region r with unreached := true } : Region) ≠ {} := fun h => Bool.noConfusion (congrArg Region.unreached h)
  unfold State.reached
  rw [region_onRegion s hne]
  split
  · next hk => rw [hk]
  · rfl
@[simp] theorem send_reached (s : State) (src dst : Nat) (m : WMsg) : (s.send src dst m).reached = s.reached := by
  have hubs : ∀ (p : List Nat) (t : State), (p.foldl (fun s h => s.onHub h (fun x => { x with pkts := x.pkts + 1 })) t).regions = t.regions :=
    fun p t => State.foldl_keeps State.regions (fun s h => s.onHub h (fun x => { x with pkts := x.pkts + 1 })) (fun _ _ => rfl) p t
  have carry : (s.carry src dst).1.reached = s.reached := by
    unfold State.carry
    split
    · dsimp only
      split
      · exact reached_marked _ _
      · rfl
    · exact reached_of_regions (hubs _ s)
  unfold State.send State.sendPkt
  dsimp only
  split
  · refine Eq.trans (reached_of_regions ?_) carry
    unfold State.noteEvent
    split <;> rfl
  · exact carry
@[simp] theorem askHold_reached (s : State) (c src : Nat) (w : HoldWhy) : (s.askHold c src w).reached = s.reached := by
  unfold State.askHold
  split
  · split
    · exact send_reached ..
    · rfl
  · rfl
@[simp] theorem keeperFault_reached (s : State) (cls u c tag : Nat) (det : List Nat) : (s.keeperFault cls u c tag det).reached = s.reached := by
  unfold State.keeperFault
  dsimp only
  split
  · rw [askHold_reached]; exact reached_of_regions (record_regions ..)
  · exact reached_of_regions (record_regions ..)
@[simp] theorem report_reached (s : State) (r : FReport) : (s.report r).reached = s.reached := send_reached ..
@[simp] theorem setTile_reached (s : State) (t : Nat) (x : Tile) : (s.setTile t x).reached = s.reached := rfl
@[simp] theorem traceOne_reached (s : State) (t : Trace) (r : TRec) : (s.traceOne t r).reached = s.reached := by
  have lost : ∀ off, (State.traceOne.lost t s off).reached = s.reached := fun off => by
    unfold State.traceOne.lost State.endTrace
    exact (reached_of_regions (finish_regions ..)).trans (keeperFault_reached ..)
  unfold State.traceOne
  dsimp only
  split
  · rfl
  split
  · split
    · exact lost _
    · exact reached_of_regions (State.foldl_keeps State.regions _ (fun _ _ => writeExt_regions ..) _ s)
  · exact lost _
@[simp] theorem traceEvent_reached (s : State) (u stamp tag ev : Nat) : (s.traceEvent u stamp tag ev).reached = s.reached :=
  State.foldl_keeps State.reached _ (fun _ _ => traceOne_reached ..) _ s
@[simp] theorem tileFault_reached (s : State) (t cyc : Nat) (f : TFault) : (s.tileFault t cyc f).reached = s.reached :=
  (report_reached ..).trans (traceEvent_reached ..)
@[simp] theorem landFlit_reached (t : Nat) (s : State) (f : InFlit) : (s.landFlit t f).reached = s.reached := by
  have goes : ∀ (u : State) cyc, (u.tileGoes t cyc).reached = u.reached := fun u cyc => by
    unfold State.tileGoes
    split
    · rfl
    · split <;> simp
  unfold State.landFlit
  dsimp only
  split
  · rw [goes, setTile_reached]
  · split
    · rfl
    · exact tileFault_reached ..
@[simp] theorem landTile_reached (s : State) (t : Nat) : (s.landTile t).reached = s.reached := by
  unfold State.landTile
  dsimp only
  split
  · rfl
  · exact State.foldl_keeps State.reached _ (fun _ _ => landFlit_reached ..) _ _
@[simp] theorem landAll_reached (s : State) : s.landAll.reached = s.reached :=
  State.foldl_keeps State.reached _ (fun _ _ => landTile_reached ..) _ (s.at 0xFFF)
/-- Whether the voltages are ready for a setting does not depend on the unreached marks. -/
theorem voltReady_of_reached {s t : State} (h : t.reached = s.reached) (m : Nat) : t.voltReady m = s.voltReady m := by
  have e : ∀ u : State, u.voltReady m = allRegions.all (fun r =>
      !((u.reached r).st = .active || (u.reached r).st = .hosting) || (u.reached r).cd ≠ .on || decide ((u.reached r).vready ≤ m)) := fun _ => rfl
  rw [e, e, h]
end Sys2Proof.Machine
end

section
/-! SUPPORT. What a command can do to the beat number, the clock setting and its orders (`exec_timing`), and the four statements that follow. -/

namespace Sys2Proof.Machine

/-- What a command that goes on does to the beat number, the clock setting and the orders for it: a boundary begins the next beat; an order of a setting
of R22 joins the others; an epoch message, a boot or a module warm reset sets the beat number, and a cold boot the setting's reset value. -/
inductive TimingStep (s t : State) : Instr → Prop
  | same {c : Instr} : t.timing = s.timing → TimingStep s t c
  | boundary : t.timing = s.tickClock.timing → TimingStep s t .beatBoundary
  | ordered {m beat cyc d : Nat} : 64 ≤ m → m ≤ 192 → t.timing = (s.clk.beat, s.clk.m, s.clk.stretch ++ [(m, d)]) →
      TimingStep s t (.stretchOrder m beat cyc)
  | epoch {f : FHdr} {n : Nat} : s.clk.mode.cable = true → s.clk.mode.master = false → s.clk.adopted = false → s.tr.boot ≠ .ready →
      t.timing = (n, s.clk.m, s.clk.stretch) → TimingStep s t (.beatEpoch f n)
  | booted {b : BootFinds} {n : Nat} : n = s.clk.beat ∨ b.beatSet n → t.timing = (n, s.clk.m, s.clk.stretch) ∨ t.timing = (n, 64, []) →
      TimingStep s t (.coldBoot b)
  | warmed {b : BootFinds} {n : Nat} : b.master = some n → t.timing = (n + 1, s.clk.m, s.clk.stretch) → TimingStep s t (.moduleWarmReset b)

/-- The clock at a boundary (R22, R25): the next beat, the setting due for it, and without the orders that came due. -/
theorem State.tickClock_timing (s : State) : s.tickClock.timing = (s.clk.beat + 1, (s.dueStretch (s.clk.beat + 1)).getD s.clk.m,
    if (s.dueStretch (s.clk.beat + 1)).isSome then s.clk.stretch.filter (fun o => decide (s.clk.beat + 1 < o.2)) else s.clk.stretch) := rfl
/-- What a boundary does before the clock moves on leaves the orders and the regulators' readiness alone, so the setting due is the one due before it. -/
theorem dueStretch_beatEnded (s : State) (b : Nat) : s.landAll.endBeat.dueStretch b = s.dueStretch b := by
  have e : s.landAll.endBeat.timing = s.timing := timing_of_kept (by simp)
  obtain ⟨-, hm, hs⟩ := timing_eq_iff.mp e
  have hv : ∀ m, s.landAll.endBeat.voltReady m = s.voltReady m := voltReady_of_reached (landAll_reached s)
  unfold State.dueStretch
  simp only [hm, hs, hv]
  rfl
/-- Of all that BEAT_BOUNDARY does on a powered wafer, the clock's own move alone shows here. -/
theorem doBeatBoundary_timing {s : State} (h : s.tr.wafer = true) : (doBeatBoundary s).timing = s.tickClock.timing := by
  have e : s.landAll.endBeat.timing = s.timing := timing_of_kept (by simp)
  obtain ⟨hb, hm, hs⟩ := timing_eq_iff.mp e
  rw [timing_of_kept (doBeatBoundary_kept_powered h), State.tickClock_timing, State.tickClock_timing, hb, hm, hs, dueStretch_beatEnded]
  rfl

/-- Every command that goes on makes one of the `TimingStep`s: a command for which `movesKept` is false keeps all three, the seven others are taken in turn. -/
theorem exec_timing {c : Instr} {s t : State} (h : exec c s = .next t) : TimingStep s t c := by
  by_cases hc : movesKept c = false
  · exact .same (timing_of_kept (exec_kept hc h))
  unfold movesKept at hc
  split at hc
  · obtain ⟨-, -, rfl⟩ := guarded_next ((exec_beatBoundary s).symm.trans h)
    cases hw : s.tr.wafer with
    | false => exact .same (timing_of_kept (doBeatBoundary_kept_unpowered hw))
    | true => exact .boundary (doBeatBoundary_timing hw)
  · obtain ⟨-, -, rfl⟩ := guarded_next ((exec_stretchOrder ..).symm.trans h)
    rcases doStretchOrder_timing _ _ _ s with e | ⟨h1, h2, d, e⟩
    · exact .same e
    · exact .ordered h1 h2 e
  · obtain ⟨-, -, rfl⟩ := guarded_next ((exec_beatEpoch ..).symm.trans h)
    rcases doBeatEpoch_timing _ _ s with e | ⟨h1, h2, h3, h4, e⟩
    · exact .same e
    · exact .epoch h1 h2 h3 h4 e
  · obtain ⟨-, -, rfl⟩ := guarded_next ((exec_officerEnrol ..).symm.trans h)
    exact .same (doOfficerEnrol_timing ..)
  · obtain ⟨-, -, rfl⟩ := guarded_next ((exec_officerRetire ..).symm.trans h)
    exact .same (doOfficerRetire_timing ..)
  · obtain ⟨-, -, rfl⟩ := guarded_next ((exec_moduleWarmReset ..).symm.trans h)
    rcases doModuleWarmReset_timing _ s with e | ⟨n, hn, e⟩
    · exact .same e
    · exact .warmed hn e
  · obtain ⟨-, -, rfl⟩ := guarded_next ((exec_coldBoot ..).symm.trans h)
    obtain ⟨n, hn, e⟩ := doColdBoot_timing _ s
    exact .booted hn e
  · exact absurd rfl hc

theorem foldl_max_bounds {lo hi : Nat} : ∀ (os : List (Nat × Nat)) (a : Nat), lo ≤ a ∧ a ≤ hi → (∀ o ∈ os, lo ≤ o.1 ∧ o.1 ≤ hi) →
    lo ≤ os.foldl (fun a q => max a q.1) a ∧ os.foldl (fun a q => max a q.1) a ≤ hi
  | [], _, ha, _ => ha
  | o :: os, a, ha, h => by
    have ho := h o (List.mem_cons_self ..)
    exact foldl_max_bounds os _ ⟨le_max_of_le_left ha.1, max_le ha.2 ho.2⟩ (fun q hq => h q (List.mem_cons_of_mem _ hq))

/-- The setting due is the longest of the orders that came due, so it is within the bounds that all orders meet. -/
theorem dueStretch_bounds {s : State} {b m : Nat} (h : ∀ o ∈ s.clk.stretch, 64 ≤ o.1 ∧ o.1 ≤ 192) (e : s.dueStretch b = some m) : 64 ≤ m ∧ m ≤ 192 := by
  unfold State.dueStretch at e
  split at e
  · cases e
  · next o os he =>
    have hall : ∀ q ∈ o :: os, 64 ≤ q.1 ∧ q.1 ≤ 192 := fun q hq => h q (List.mem_of_mem_filter (he ▸ hq))
    dsimp only at e
    split at e
    · cases e
    · cases e
      exact foldl_max_bounds os o.1 (hall o (List.mem_cons_self ..)) (fun q hq => hall q (List.mem_cons_of_mem _ hq))
theorem clockOk_of_timing {t : State} {n m : Nat} {os : List (Nat × Nat)} (e : t.timing = (n, m, os)) (hl : 64 ≤ m) (hu : m ≤ 192)
    (ho : ∀ o ∈ os, 64 ≤ o.1 ∧ o.1 ≤ 192) : ClockOk t := by
  obtain ⟨-, rfl, rfl⟩ := timing_eq_iff.mp e
  exact ⟨hl, hu, ho⟩
theorem tickClock_clockOk {s : State} (h : ClockOk s) : ClockOk s.tickClock := by
  obtain ⟨hl, hu, ho⟩ := h
  have e := s.tickClock_timing
  cases hd : s.dueStretch (s.clk.beat + 1) with
  | none => rw [hd] at e; exact clockOk_of_timing e hl hu ho
  | some m =>
    rw [hd] at e
    obtain ⟨hml, hmu⟩ := dueStretch_bounds ho hd
    exact clockOk_of_timing e hml hmu (fun o h => ho o (List.mem_of_mem_filter h))
theorem exec_clockOk {c : Instr} {s t : State} (h : exec c s = .next t) (hs : ClockOk s) : ClockOk t := by
  obtain ⟨hl, hu, ho⟩ := id hs
  cases exec_timing h with
  | same e => exact clockOk_of_timing e hl hu ho
  | boundary e =>
    obtain ⟨hl, hu, ho⟩ := tickClock_clockOk hs
    exact clockOk_of_timing e hl hu ho
  | ordered h1 h2 e =>
    refine clockOk_of_timing e hl hu (fun o hmem => ?_)
    rcases List.mem_append.mp hmem with hmem | hmem
    · exact ho o hmem
    · rw [List.mem_singleton.mp hmem]; exact ⟨h1, h2⟩
  | epoch _ _ _ _ e => exact clockOk_of_timing e hl hu ho
  | booted _ e =>
    rcases e with e | e
    · exact clockOk_of_timing e hl hu ho
    · exact clockOk_of_timing e (by omega) (by omega) (by simp)
  | warmed _ e => exact clockOk_of_timing e hl hu ho

/-- Settles O5, by the cases of `exec_timing`: a boundary takes a setting ordered before, an order asks for one of R22, a cold boot sets 64. -/
theorem stepKeepsClockSetting : Obligations.StepKeepsClockSetting := by
  intro s t hs h
  unfold step at h
  split at h
  · cases h; exact hs
  · exact exec_clockOk h hs
/-- Settles O10: BEAT_BOUNDARY moves the clock as `State.tickClock_timing` says, with the setting that was due before the boundary's other work. -/
theorem boundaryBeginsTheNextBeat : Obligations.BoundaryBeginsTheNextBeat := by
  intro s
  constructor
  · intro hw
    obtain ⟨hb, hm, hs⟩ := timing_eq_iff.mp ((doBeatBoundary_timing hw).trans s.tickClock_timing)
    refine ⟨_, (exec_beatBoundary s).trans (guarded_ok rfl rfl), hb, hm, fun hd => ?_, fun hd => ?_⟩
    · rw [hs, if_pos hd]
    · rw [hs, if_neg (by simp [hd])]
  · intro hw
    rw [exec_beatBoundary, guarded_ok rfl rfl]
    unfold doBeatBoundary
    rw [if_pos hw]
/-- Settles O6: the setting is 64 after reset, and no order is on its way. -/
theorem resetClockSetting : Obligations.ResetClockSetting := by
  refine ⟨?_, ?_, ?_⟩ <;> decide
/-- Settles O7, by the cases of `exec_timing`. -/
theorem onlyBoundariesAndBootsMoveTheBeat : Obligations.OnlyBoundariesAndBootsMoveTheBeat := by
  intro c s t h
  have beat_eq {n m : Nat} {os : List (Nat × Nat)} (e : t.timing = (n, m, os)) : t.clk.beat = n := (timing_eq_iff.mp e).1
  cases exec_timing h with
  | same e => exact .inl (beat_eq e)
  | boundary e => exact .inr (.inl ⟨rfl, beat_eq e⟩)
  | ordered _ _ e => exact .inl (beat_eq e)
  | @epoch f n h1 h2 h3 h4 e => exact .inr (.inr (.inl ⟨f, n, rfl, beat_eq e, h1, h2, h3, h4⟩))
  | @booted b n hn e =>
    have ht : t.clk.beat = n := e.elim beat_eq beat_eq
    rcases hn with rfl | rfl | ⟨k, hk, rfl⟩
    · exact .inl ht
    · exact .inr (.inr (.inr (.inl ⟨b, rfl, .inl ht⟩)))
    · exact .inr (.inr (.inr (.inl ⟨b, rfl, .inr ⟨k, hk, ht⟩⟩)))
  | @warmed b n hn e => exact .inr (.inr (.inr (.inr ⟨b, rfl, n, hn, beat_eq e⟩)))
end Sys2Proof.Machine
end

section
/-! SUPPORT. The sites that serve a cluster's tiles (R11), and the edge ports (R20), with the two statements about them. -/

namespace Sys2Proof.Machine

/-- Row j of a column takes the good row that stands 3 - j places after the northernmost one. -/
theorem siteOf_row {bad : List Nat} {k j col : Nat} (hj : j < 4) (hc : col < 4) :
    siteOf bad k (4 * j + col) = ((goodRows bad k col)[3 - j]?).map (fun r => 4 * r + col) := by
  have h1 : (4 * j + col) % 4 = col := by omega
  have h2 : (4 * j + col) % 16 / 4 = j := by omega
  unfold siteOf
  rw [h1, h2]
/-- The good rows of a column from a test `q` of a row that says where its defects are. -/
theorem goodRows_eq {bad : List Nat} {k col : Nat} {q : Nat → Bool} (h : ∀ r, r < 5 → (20 * k + 4 * r + col ∈ bad ↔ q r = false)) :
    goodRows bad k col = [4, 3, 2, 1, 0].filter q := by
  refine List.filter_congr (fun r hr => ?_)
  have hr5 : r < 5 := by simp at hr; omega
  rw [Bool.eq_iff_iff]
  simp [h r hr5]
/-- The defects of a column and its good rows are its five rows. -/
theorem goodRows_length (bad : List Nat) (k col : Nat) :
    (goodRows bad k col).length + ([0, 1, 2, 3, 4].filter (fun r => bad.contains (20 * k + 4 * r + col))).length = 5 := by
  have hp : ([0, 1, 2, 3, 4].filter (fun r => bad.contains (20 * k + 4 * r + col))).length =
      ([4, 3, 2, 1, 0].filter (fun r => bad.contains (20 * k + 4 * r + col))).length :=
    ((List.reverse_perm [4, 3, 2, 1, 0]).filter _).length_eq
  rw [hp]
  unfold goodRows
  rw [Nat.add_comm]
  exact (List.length_eq_length_filter_add _).symm

/-- Settles O11: row j takes place 3 - j of the good rows, which are computed for no defect and for one, and counted for any number. -/
theorem tilesTakeGoodSitesFromTheNorth : Obligations.TilesTakeGoodSitesFromTheNorth := by
  intro bad k col _ hc
  refine ⟨fun hno j hj => ?_, fun d hd hin hno j hj => ?_, fun j hj => ?_⟩
  · rw [siteOf_row hj hc, goodRows_eq (q := fun _ => true) (fun r hr => by simpa using hno r hr)]
    interval_cases j <;> rfl
  · have hq : ∀ r, r < 5 → (20 * k + 4 * r + col ∈ bad ↔ decide (r ≠ d) = false) := fun r hr => by
      by_cases e : r = d
      · simp [e, hin]
      · simp [e, hno r hr e]
    rw [siteOf_row hj hc, goodRows_eq hq]
    interval_cases d <;> interval_cases j <;> rfl
  · have hlen := goodRows_length bad k col
    rw [siteOf_row hj hc, Option.isNone_map, Option.isNone_iff_eq_none, List.getElem?_eq_none_iff]
    omega

/-- The column of a tile from the mixed-radix digits of its number: region, cluster and tile each have a column part and a row part. -/
theorem tileX_of_digits {a b c d e f : Nat} (ha : a < 10) (hb : b < 2) (hc : c < 4) (he : e < 2) (hf : f < 4) :
    tileX (64 * (a + 10 * d) + 16 * (b + 2 * e) + c + 4 * f) = 8 * a + 4 * b + c := by
  have h1 : (64 * (a + 10 * d) + 16 * (b + 2 * e) + c + 4 * f) / 64 = a + 10 * d := by omega
  have h2 : (64 * (a + 10 * d) + 16 * (b + 2 * e) + c + 4 * f) / 16 = 4 * (a + 10 * d) + b + 2 * e := by omega
  have h3 : (64 * (a + 10 * d) + 16 * (b + 2 * e) + c + 4 * f) % 4 = c := by omega
  unfold tileX
  rw [h1, h2, h3]
  omega
/-- The row of a tile from the same digits. -/
theorem tileY_of_digits {a b c d e f : Nat} (ha : a < 10) (hb : b < 2) (hc : c < 4) (he : e < 2) (hf : f < 4) :
    tileY (64 * (a + 10 * d) + 16 * (b + 2 * e) + c + 4 * f) = 8 * d + 4 * e + f := by
  have h1 : (64 * (a + 10 * d) + 16 * (b + 2 * e) + c + 4 * f) / 640 = d := by omega
  have h2 : (64 * (a + 10 * d) + 16 * (b + 2 * e) + c + 4 * f) / 32 = 2 * (a + 10 * d) + e := by omega
  have h3 : (64 * (a + 10 * d) + 16 * (b + 2 * e) + c + 4 * f) % 16 = c + 4 * f := by omega
  unfold tileY
  rw [h1, h2, h3]
  omega
theorem tileX_tileAt {x y : Nat} (hx : x < 80) : tileX (tileAt x y) = x := by
  unfold tileAt
  rw [tileX_of_digits (by omega) (by omega) (by omega) (by omega) (by omega)]
  omega
theorem tileY_tileAt {x y : Nat} (hx : x < 80) : tileY (tileAt x y) = y := by
  unfold tileAt
  rw [tileY_of_digits (by omega) (by omega) (by omega) (by omega) (by omega)]
  omega

/-! One rule for each edge: the port at a side of a tile, and no tile beyond that side. -/

theorem edgeAt_north {x y : Nat} (hx : x < 80) : edgeAt (tileAt x y) 0 = x := tileX_tileAt hx
theorem edgeAt_east {x y : Nat} (hx : x < 80) : edgeAt (tileAt x y) 1 = 80 + (63 - y) := congrArg (fun n => 80 + (63 - n)) (tileY_tileAt hx)
theorem edgeAt_south {x y : Nat} (hx : x < 80) : edgeAt (tileAt x y) 2 = 144 + (79 - x) := congrArg (fun n => 144 + (79 - n)) (tileX_tileAt hx)
theorem edgeAt_west {x y : Nat} (hx : x < 80) : edgeAt (tileAt x y) 3 = 224 + y := congrArg (224 + ·) (tileY_tileAt hx)
theorem tileNext_north {x : Nat} (hx : x < 80) : tileNext (tileAt x 63) 0 = none := if_pos (tileY_tileAt hx)
theorem tileNext_east {y : Nat} : tileNext (tileAt 79 y) 1 = none := if_pos (tileX_tileAt (by omega))
theorem tileNext_south {x : Nat} (hx : x < 80) : tileNext (tileAt x 0) 2 = none := if_pos (tileY_tileAt hx)
theorem tileNext_west {y : Nat} : tileNext (tileAt 0 y) 3 = none := if_pos (tileX_tileAt (by omega))

/-- Settles O12, edge by edge in the order of `edgeTile`. -/
theorem edgePortsRunClockwise : Obligations.EdgePortsRunClockwise := by
  refine ⟨fun x hx => edgeAt_north hx, fun y _ => edgeAt_east (by omega), fun x hx => edgeAt_south hx, fun y _ => edgeAt_west (by omega), fun p hp => ?_⟩
  unfold edgeTile
  split
  · next hn => exact ⟨edgeAt_north hn, tileNext_north hn⟩
  split
  · next hn he => exact ⟨(edgeAt_east (by omega)).trans (by omega), tileNext_east⟩
  split
  · next hn he hs => exact ⟨(edgeAt_south (by omega)).trans (by omega), tileNext_south (by omega)⟩
  · next hn he hs => exact ⟨(edgeAt_west (by omega)).trans (by omega), tileNext_west⟩
end Sys2Proof.Machine
end

section
/-! SUPPORT. The commands of the beats and sites on the states that the statement about them names: one equation each (R11, R12, R24 to R28, R37, R38). -/

namespace Sys2Proof.Machine

/-- SITE_REMAP of a cluster in reset, at a boundary. -/
theorem doSiteRemap_still {region cluster : Nat} {s : State} (hc : s.clk.cycle = 0) (hs : s.stillCluster region cluster = true) :
    doSiteRemap region cluster s =
      (if s.remapMoves region cluster then s.runLoses (s.serves region) region else s).remapCluster region cluster :=
  if_neg (by simp [hc, hs])
/-- No flit is in the buffer that slips: nothing is emptied. -/
theorem doBoundarySlip_empty {rx tx cyc d : Nat} {s : State} (hf : facing rx tx = some d)
    (hempty : ∀ f ∈ s.fly, ¬(f.port = d ∧ f.dst / 64 = rx ∧ ∃ n, tileNext f.dst d = some n ∧ n / 64 = tx)) :
    doBoundarySlip rx tx cyc s = (if (s.at cyc).crossing rx d = [] then [0] else (s.at cyc).crossing rx d).foldl
        (fun s c => s.report ⟨fcBoundarySlip, uidRc rx, s.stamp cyc, 0, 0, c, [rx, tx]⟩) (s.at cyc) := by
  have hit : (s.at cyc).fly.filter (fun f => f.port = d && decide (f.dst / 64 = rx) && (tileNext f.dst d).any (fun n => decide (n / 64 = tx))) = [] :=
    List.filter_eq_nil_iff.mpr (fun f hm h => hempty f hm (by simpa [Option.any_eq_true, and_assoc] using h))
  have all : (s.at cyc).fly.filter (fun f => !([] : List Fly).contains f) = (s.at cyc).fly := List.filter_eq_self.mpr (fun _ _ => rfl)
  unfold doBoundarySlip
  rw [hf]
  dsimp only
  rw [hit, all]
  rfl
/-- A stretch order that has come is kept for the beat it names, but not before one 1,024 cycles ahead (R25). -/
theorem doStretchOrder_taken {m beat cyc : Nat} {p : WPkt} {s u : State} (hl : 64 ≤ m) (hu : m ≤ 192)
    (ht : (s.at cyc).take (fun p => p.msg = .stretch m beat) = some (p, u)) :
    doStretchOrder m beat cyc s = { u with clk := { u.clk with stretch := u.clk.stretch ++ [(m, max beat (s.clk.beat + reach cyc))] } } := by
  obtain rfl := State.take_shape ht
  unfold doStretchOrder
  dsimp only
  rw [if_neg (by omega), ht]
  rfl
/-- Two changes of a partition that agree on it as it stands. -/
theorem onPart_congr {s : State} {c : Nat} {f g : Part → Part} (h : f (s.ctx c).part = g (s.ctx c).part) : s.onPart c f = s.onPart c g := by
  have e : (fun x : Ctx => { x with part := f x.part }) (s.ctx c) = (fun x : Ctx => { x with part := g x.part }) (s.ctx c) := by
    dsimp only; rw [h]
  show { s with ctxs := s.ctxs.set {} c _ } = { s with ctxs := s.ctxs.set {} c _ }
  exact congrArg (fun x => ({ s with ctxs := s.ctxs.set {} c x } : State)) e
/-- A hold request that is none of a plan's and not outstanding yet: for the next beat by cycle 9FF, else for the one after (R26). -/
theorem doHoldRequest_new {ctx src cyc : Nat} {p : WPkt} {w : HoldWhy} {s u : State} (hl : (s.lead ctx).isSome = true) (hw : w ≠ .plan)
    (ht : (s.at cyc).take (WPkt.isHold ctx src) = some (p, u)) (hp : p.holdWhy = w)
    (hn : (u.ctx ctx).part.holds.any (fun h => h.src = src && h.why = w) = false) :
    doHoldRequest ctx src cyc s =
      u.onPart ctx (fun x => { x with holds := x.holds ++ [⟨src, w, s.clk.beat + (if cyc ≤ 0x9FF then 1 else 2)⟩] }) := by
  obtain ⟨r, hr⟩ := Option.isSome_iff_exists.mp hl
  have hb : u.clk.beat = s.clk.beat := by rw [State.take_shape ht]; rfl
  have hr' : (s.at cyc).lead ctx = some r := hr
  unfold doHoldRequest
  dsimp only
  rw [hr', ht]
  dsimp only
  rw [hp, if_neg (fun h => hw h.1), hb]
  exact onPart_congr (if_neg (by simp [hn]))
/-- The decision shows in the partitions; the messages that carry it do not. -/
theorem doHoldDecision_ctxs {ctx r : Nat} {s : State} (hl : s.lead ctx = some r) (hn : (s.ctx ctx).part.next = none) (hf : (s.region r).rcFenced = false) :
    (doHoldDecision ctx s).ctxs = ((s.at 0x9FF).onPart ctx (fun p => { p with
      next := some (isUser ctx && (s.ctx ctx).part.holds.any (fun h => decide (h.beat ≤ s.clk.beat + 1)))
      holds := p.holds.filter (fun h => h.why ≠ .forecast ∨ s.clk.beat + 1 < h.beat) })).ctxs := by
  have hl' : (s.at 0x9FF).lead ctx = some r := hl
  unfold doHoldDecision
  dsimp only
  rw [hl']
  dsimp only
  rw [if_neg (by simp [hn, hf])]
  exact State.foldl_keeps State.ctxs _ (fun _ _ => State.send_ctxs ..) _ _
theorem doHoldTimeout_raised {ctx r : Nat} {s : State} (hl : s.lead ctx = some r) (hh : (s.ctx ctx).part.held = true)
    (hb : (s.ctx ctx).part.limit < (s.ctx ctx).part.heldBeats) (ht : (s.ctx ctx).part.timedOut = false)
    (hr : (s.ctx ctx).run.any (fun r => r.started && r.ending.isNone) = true) :
    doHoldTimeout ctx s = (s.onPart ctx (fun p => { p with timedOut := true })).report ⟨fcHoldTimeout, uidRc r, s.now, 0, 0, ctx, []⟩ := by
  unfold doHoldTimeout
  dsimp only
  rw [hl]
  exact if_pos ⟨hh, hb, ht, hr⟩
theorem doPtpAnchor_ptp {time : Nat} {locked : Bool} {s : State} (hb : s.clk.beat % 1024 = 0) (hm : s.clk.mode.cable = false)
    (ha : ∀ a ∈ s.clk.anchors, a.beat ≠ s.clk.beat) :
    doPtpAnchor time locked s = { s with clk := { s.clk with anchors := s.clk.anchors ++ [⟨s.clk.beat, time, !locked⟩] } } :=
  if_pos ⟨hb, .inl hm, by simpa using ha⟩
theorem doBeatInLost_follower {s : State} (hc : s.clk.mode.cable = true) (hm : s.clk.mode.master = false) (hl : s.clk.inLost = false) :
    doBeatInLost s = ({ s with clk := { s.clk with inLost := true } } : State).beatEvent 1 s.clk.beat s.clk.beat :=
  if_pos ⟨hc, hm, hl⟩

/-- Settles O9: each clause is the equation of its command above, within the frame all commands share. -/
theorem beatCommandsComplete : Obligations.BeatCommandsComplete := by
  refine ⟨?remap, ?slip, ?stretch, ?request, ?decision, ?timeout, ?anchor, ?lost⟩
  case remap =>
    intro region cluster s u hr hk hc hs hu
    rw [exec_siteRemap, guarded_ok rfl (by simp [Instr.units, hr, hk]), doSiteRemap_still hc hs, ← hu]
    rfl
  case slip =>
    intro rx tx cyc d s hr ht hc hf hempty
    rw [exec_boundarySlip, guarded_ok (by simpa [Instr.wf] using hc) (by simp [Instr.units, hr, ht]), doBoundarySlip_empty hf hempty]
  case stretch =>
    intro m beat cyc p s u hl hu hc ht
    rw [exec_stretchOrder, guarded_ok (by simp [Instr.wf, hc]; omega) rfl, doStretchOrder_taken hl hu ht]
    rfl
  case request =>
    intro ctx src cyc p w s u hx hc hl hw ht hp hn
    rw [exec_holdRequest, guarded_ok (by simp [Instr.wf, hx, hc]) (by simpa [Instr.units] using hx), doHoldRequest_new hl hw ht hp hn]
  case decision =>
    intro ctx r s hx hl hn hf
    obtain ⟨hb, hm, -⟩ := timing_eq_iff.mp (timing_of_kept (doHoldDecision_kept ctx s))
    refine ⟨_, (exec_holdDecision ctx s).trans (guarded_ok rfl (by simpa [Instr.units] using hx)), ?_, hb, hm⟩
    rw [doHoldDecision_ctxs hl hn hf]
    rfl
  case timeout =>
    intro ctx r s hx hl hh hb ht hr
    rw [exec_holdTimeout, guarded_ok rfl (by simpa [Instr.units] using hx), doHoldTimeout_raised hl hh hb ht hr]
  case anchor =>
    intro time locked s hb hm ha
    rw [exec_ptpAnchor, guarded_ok rfl rfl, doPtpAnchor_ptp hb hm ha]
  case lost =>
    intro s hc hm hl
    rw [exec_beatInLost, guarded_ok rfl rfl, doBeatInLost_follower hc hm hl]
end Sys2Proof.Machine
end

section
/-! SUPPORT. The packets and link events of the fabric on the states that the statement about them names: one equation each (R39, R257, R279 to R292). -/

namespace Sys2Proof.Machine

/-- A command that fits, whose meaning is `f` in the frame all share. -/
theorem exec_of_fits {n : String} {c : Instr} {s : State} {f : State → State} (hf : Fits c) (e : exec c s = guarded n c s f) :
    exec c s = .next (f s) := e.trans (guarded_ok hf.1 hf.2)

/-- A follower in its boot adopts the beat number of the first epoch message from its master (R39). -/
theorem doBeatEpoch_adopts {f : FHdr} {n : Nat} {s : State} (ok : fabricOk f 0 [f.len] s = true) (hc : s.clk.mode.cable = true)
    (hm : s.clk.mode.master = false) (hp : s.pod.cfg.all (fun p => decide (p.master = f.spos)) = true) (ha : s.clk.adopted = false)
    (hb : s.tr.boot ≠ .ready) :
    doBeatEpoch f n s = ({ s.rxCount f with clk := { s.clk with beat := n, adopted := true } } : State).beatEvent 2 s.clk.beat n := by
  unfold doBeatEpoch
  rw [State.fabricIn_ok ok]
  dsimp only
  rw [State.rxCount_clk, State.rxCount_cfg, State.rxCount_tr]
  exact if_pos ⟨hc, hm, hp, ha, hb⟩
theorem doBeatEpoch_logged {f : FHdr} {n : Nat} {s : State} (ok : fabricOk f 0 [f.len] s = true) (hb : s.tr.boot = .ready) :
    doBeatEpoch f n s = (s.rxCount f).beatEvent 3 s.clk.beat n := by
  unfold doBeatEpoch
  rw [State.fabricIn_ok ok]
  dsimp only
  rw [State.rxCount_clk, State.rxCount_tr]
  exact if_neg (fun h => h.2.2.2.2 hb)
/-- A unit of a capsule is placed at its offset, and the units held so far are acknowledged. -/
theorem doCapsule_placed {f : FHdr} {transfer off total : Nat} {data old new : List Byte} {s : State} (ok : fabricOk f 3 [2064] s = true)
    (h : off < total) (ho : (s.rxCount f).pod.capIn.get [] transfer = old)
    (hn : fitBytes (max old.length (2048 * (off + 1))) (fitBytes (2048 * off) old ++ fitBytes 2048 data ++ old.drop (2048 * (off + 1))) = new) :
    doCapsule f transfer off total data s =
      ({ s.rxCount f with pod := { (s.rxCount f).pod with capIn := (s.rxCount f).pod.capIn.set [] transfer new } } : State).lsend f.link
        ⟨0, 8, f.ctx, f.spos, leBytes 4 transfer ++ leBytes 4 (new.length / 2048) ++ leBytes 1 0 ++ leBytes 7 0⟩ := by
  subst ho hn
  unfold doCapsule
  rw [State.fabricIn_ok ok]
  exact if_neg (by omega)
theorem doCapsuleAck_taken {f : FHdr} {transfer units : Nat} {s : State} (ok : fabricOk f 0 [16] s = true) :
    doCapsuleAck f transfer units 0 s = { s.rxCount f with pod := { (s.rxCount f).pod with
      capOut := (s.rxCount f).pod.capOut.upd 0 transfer (max units) } } := by
  unfold doCapsuleAck
  rw [State.fabricIn_ok ok]
  rfl
/-- A good LINK packet over a link that is up (R283 to R285). -/
theorem doLink_taken {n ack : Nat} {nak : Bool} {credits : List Nat} {s : State} (hs : (s.link n).st = 3) (hn : (s.link n).narrowing = none) :
    doLink n ack nak credits false s = ((s.onLink n (Link.linkIn ack nak credits s.clk.wall)).hearPeer (s.link n).ppod (s.link n).ppos).pumpLink n :=
  if_neg (by simp [hs, hn])
theorem doLink_bad (n ack : Nat) (nak : Bool) (credits : List Nat) (s : State) : doLink n ack nak credits true s = s := if_pos (.inr (.inr rfl))
theorem doLinkAckSend_sent {n : Nat} {s : State} (hs : (s.link n).st = 3) (hn : (s.link n).narrowing = none) :
    doLinkAckSend n s = s.onLink n (fun l => { l with
      rxCredit := if s.ha.warm then l.rxCredit.filter (fun c => decide (c.1 ≠ 0)) else [], rxNak := false, tx := l.tx + 40#48
      beatBytes := l.beatBytes.upd 0 0 (· + 40) }) :=
  if_neg (by simp [hs, hn])
/-- Eight resends of one packet, or more than 1,024 uncorrected words, begin a retraining (R286). -/
theorem doLinkRetrainInService_retrains {n w : Nat} {s : State} (hs : (s.link n).st = 3) (hn : (s.link n).narrowing = none)
    (h : (s.link n).replay.any (fun p => decide (8 ≤ p.resends)) = true ∨ 1024 < w) :
    doLinkRetrainInService n w s = ((s.onLink n (fun l => { l with fecUnc := l.fecUnc + BitVec.ofNat 32 w })).onLink n (fun l =>
      { l with retrains := l.retrains + 1, replay := l.replay.map (fun p => { p with resends := 0 }) })).beginRetrain n := by
  unfold doLinkRetrainInService
  dsimp only
  rw [if_neg (by simp [hs]), if_pos ⟨h, by simp [hn]⟩]
theorem doLinkRetrainInService_counts {n w : Nat} {s : State} (hs : (s.link n).st = 3)
    (hr : (s.link n).replay.any (fun p => decide (8 ≤ p.resends)) = false) (hw : w ≤ 1024) :
    doLinkRetrainInService n w s = s.onLink n (fun l => { l with fecUnc := l.fecUnc + BitVec.ofNat 32 w }) := by
  unfold doLinkRetrainInService
  dsimp only
  rw [if_neg (by simp [hs]), if_neg (fun h => h.1.elim (by simp [hr]) (by omega))]
theorem doLinkRetrainComplete_ends {n : Nat} {t : Trained} {s : State} (hs : (s.link n).st = 4) (hh : (s.link n).hello = none) (ht : s.tr.tests = []) :
    doLinkRetrainComplete n t s = s.endTraining n t := if_pos ⟨hs, by simp [hh], by simp [ht]⟩
theorem doLinkNarrowingComplete_done {n : Nat} {ids : List Nat} {s : State} (hn : (s.link n).narrowing = some ids) (hw : (s.link n).widen = none) :
    doLinkNarrowingComplete n s = ((s.setLink n Link.narrow).finishAll ids stOk 0).pumpLink n := by
  unfold doLinkNarrowingComplete
  dsimp only
  rw [hn, hw]
theorem doFabricCreditStall_raised {n vc : Nat} {s : State} (hs : (s.link n).st = 3) (hb : 65536 ≤ (s.link n).starve.get 0 vc)
    (hq : (s.link n).queue.any (fun p => p.vc = vc) = true) :
    doFabricCreditStall n vc s = (s.onLink n (fun l => { l with starve := l.starve.set 0 vc 0 })).keeperFault fcFabricCreditStall (uidLink n) 0 0 [vc] :=
  if_pos ⟨hs, hb, hq⟩
theorem doFabricCreditStall_early {n vc : Nat} {s : State} (hb : (s.link n).starve.get 0 vc < 65536) : doFabricCreditStall n vc s = s :=
  if_neg (fun h => absurd h.2.1 (by omega))
theorem doHello_in_service {n pod pos plink pidh : Nat} {s : State} (hh : (s.link n).hello = none) (hs : (s.link n).st = 3 ∨ (s.link n).st = 4) :
    doHello n pod pos plink pidh s = s.setLink n (fun l => { l with ppod := pod, ppos := pos, plink := plink, pidh := pidh }) := by
  unfold doHello
  dsimp only
  rw [hh]
  exact if_pos hs
/-- A HELLO that a training waits for ends it, unless its time is over (R279). -/
theorem doHello_awaited {n pod pos plink pidh : Nat} {q : Trained × Nat} {s : State} (hh : (s.link n).hello = some q) :
    doHello n pod pos plink pidh s = if q.2 < s.clk.wall then s
      else s.endTraining n { q.1 with hello := true, pod := pod, pos := pos, plink := plink, pidh := pidh } := by
  unfold doHello
  dsimp only
  rw [hh]
theorem later_self (a : Nat) : later a a = false := by simp [later]
/-- A step start of another module, with none kept and no run here, is kept. -/
theorem startIn_idle {c pos step attempt scale freeze : Nat} {s : State} (hk : (s.ctx c).starts = []) (hr : (s.ctx c).run = none)
    (hl : (s.ctx c).last = 0xFFFFFFFF ∨ (s.ctx c).last < step) :
    startIn c pos step attempt scale freeze s =
      s.onCtx c (fun x => { x with starts := x.starts.filter (fun m => m.pos ≠ pos) ++ [⟨pos, step, attempt, scale, freeze⟩] }) := by
  unfold startIn
  dsimp only
  rw [if_neg (by simpa [hk, hr] using hl.resolve_left), hr]
/-- A step start for the run that waits here is kept, and all are compared. -/
theorem startIn_waiting {c pos scale freeze : Nat} {r : Run} {s : State} (hk : (s.ctx c).starts = []) (hr : (s.ctx c).run = some r)
    (hs : r.started = false) (hl : (s.ctx c).last = 0xFFFFFFFF ∨ (s.ctx c).last < r.step) :
    startIn c pos r.step r.attempt scale freeze s = (s.onCtx c (fun x => { x with
      starts := x.starts.filter (fun m => m.pos ≠ pos) ++ [⟨pos, r.step, r.attempt, scale, freeze⟩] })).compareStarts c := by
  unfold startIn
  dsimp only
  rw [if_neg (by simpa [hk, hr, later_self] using hl.resolve_left), hr]
  exact if_neg (by simp [hs])
/-- A step start of a step already complete is ignored. -/
theorem startIn_old {c pos step attempt scale freeze : Nat} {s : State} (hl : (s.ctx c).last ≠ 0xFFFFFFFF) (h : step ≤ (s.ctx c).last) :
    startIn c pos step attempt scale freeze s = s :=
  if_pos (.inr (.inr (by simp [hl, h])))
theorem doStepSyncTimeout_raised {c : Nat} {r : Run} {o : Nat × Nat × Nat} {s : State} (hw : (s.ctx c).waiting = some r)
    (ho : (s.ctx c).ownStart = some o) (hb : o.1 + 65536 ≤ s.clk.beat) (hm : (s.ctx c).missing s.myPos r ≠ []) :
    doStepSyncTimeout c s = s.refuseStart c fcStepSyncTimeout ((s.ctx c).missing s.myPos r) := by
  unfold doStepSyncTimeout
  dsimp only
  rw [hw, ho]
  exact if_pos ⟨hb, hm⟩
theorem doStepSyncTimeout_early {c : Nat} {o : Nat × Nat × Nat} {s : State} (ho : (s.ctx c).ownStart = some o) (hb : s.clk.beat < o.1 + 65536) :
    doStepSyncTimeout c s = s := by
  unfold doStepSyncTimeout
  dsimp only
  rw [ho]
  split
  · next r o' _ he => cases he; exact if_neg (fun h => absurd h.1 (by omega))
  · rfl
theorem Link.narrow_of_mode {l : Link} (h : l.mode.1 ≠ 0) :
    l.narrow = { l with width := l.mode.1, half := l.mode.2.1, lmask := l.mode.2.2, narrowing := none } := if_neg h

/-- Settles O25: each clause is the equation of its packet or link event, after the checks that `fabricOk` says are passed. -/
theorem fabricCommandsComplete : Obligations.FabricCommandsComplete := by
  refine ⟨?epoch, ?epochLogged, ?capsule, ?capsuleAck, ?link, ?linkBad, ?ack, ?ackWarm, ?retrain, ?counted, ?retrained, ?narrowed, ?narrow, ?stall, ?noStall,
    ?hello, ?helloUp, ?helloLate, ?start, ?startOwn, ?startOld, ?sync, ?noSync, ?norm⟩
  case epoch =>
    intro f n s hf ok hc hm hp ha hb
    rw [exec_of_fits hf (exec_beatEpoch ..), doBeatEpoch_adopts ok hc hm hp ha hb]
  case epochLogged =>
    intro f n s hf ok hb
    rw [exec_of_fits hf (exec_beatEpoch ..), doBeatEpoch_logged ok hb]
  case capsule =>
    intro f transfer off total data old new s hf ok hoff ho hn
    rw [exec_of_fits hf (exec_capsule ..), doCapsule_placed ok hoff ho hn]
  case capsuleAck =>
    intro f transfer units s hf ok
    rw [exec_of_fits hf (exec_capsuleAck ..), doCapsuleAck_taken ok]
  case link =>
    intro n ack nak credits s hf hs hn
    rw [exec_of_fits hf (exec_link ..), doLink_taken hs hn]
  case linkBad =>
    intro n ack nak credits s hf
    rw [exec_of_fits hf (exec_link ..), doLink_bad]
  case ack =>
    intro n s hf hs hn hw
    rw [exec_of_fits hf (exec_linkAckSend ..), doLinkAckSend_sent hs hn, hw]
    rfl
  case ackWarm =>
    intro n s hf hs hn hw
    rw [exec_of_fits hf (exec_linkAckSend ..), doLinkAckSend_sent hs hn, hw]
    rfl
  case retrain =>
    intro n w s hf hs hn h
    rw [exec_of_fits hf (exec_linkRetrainInService ..), doLinkRetrainInService_retrains hs hn h]
  case counted =>
    intro n w s hf hs hr hw
    rw [exec_of_fits hf (exec_linkRetrainInService ..), doLinkRetrainInService_counts hs hr hw]
  case retrained =>
    intro n t s hf hs hh ht
    rw [exec_of_fits hf (exec_linkRetrainComplete ..), doLinkRetrainComplete_ends hs hh ht]
  case narrowed =>
    intro n ids s hf hn hw
    rw [exec_of_fits hf (exec_linkNarrowingComplete ..), doLinkNarrowingComplete_done hn hw]
  case narrow => exact fun l h => Link.narrow_of_mode h
  case stall =>
    intro n vc s hf hs hb hq
    rw [exec_of_fits hf (exec_fabricCreditStall ..), doFabricCreditStall_raised hs hb hq]
  case noStall =>
    intro n vc s hf hb
    rw [exec_of_fits hf (exec_fabricCreditStall ..), doFabricCreditStall_early hb]
  case hello =>
    intro n pod pos plink pidh s hf hh hs
    rw [exec_of_fits hf (exec_hello ..), doHello_in_service hh hs]
  case helloUp =>
    intro n pod pos plink pidh q s hf hh hw
    rw [exec_of_fits hf (exec_hello ..), doHello_awaited hh, if_neg (by omega)]
  case helloLate =>
    intro n pod pos plink pidh q s hf hh hw
    rw [exec_of_fits hf (exec_hello ..), doHello_awaited hh, if_pos hw]
  case start =>
    intro f step attempt scale freeze s hf ok hk hr hl
    rw [exec_of_fits hf (exec_stepStartMessage ..), doStepStartMessage, State.fabricIn_ok ok,
      startIn_idle (by rw [State.rxCount_ctx, hk]) (by rw [State.rxCount_ctx, hr]) (by rw [State.rxCount_ctx]; exact hl)]
  case startOwn =>
    rintro f _ _ scale freeze r s hf ok hk hr - rfl rfl hs hl
    rw [exec_of_fits hf (exec_stepStartMessage ..), doStepStartMessage, State.fabricIn_ok ok,
      startIn_waiting (by rw [State.rxCount_ctx, hk]) (by rw [State.rxCount_ctx, hr]) hs (by rw [State.rxCount_ctx]; exact .inl hl)]
  case startOld =>
    intro f step attempt scale freeze s hf ok hl h
    rw [exec_of_fits hf (exec_stepStartMessage ..), doStepStartMessage, State.fabricIn_ok ok,
      startIn_old (by rw [State.rxCount_ctx]; exact hl) (by rw [State.rxCount_ctx]; exact h)]
  case sync =>
    intro c r o s hf hw ho hb hm
    rw [exec_of_fits hf (exec_stepSyncTimeout ..), doStepSyncTimeout_raised hw ho hb hm]
  case noSync =>
    intro c o s hf ho hb
    rw [exec_of_fits hf (exec_stepSyncTimeout ..), doStepSyncTimeout_early ho hb]
  case norm =>
    intro f step v s hf ok
    rw [exec_of_fits hf (exec_norm ..), doNorm, State.fabricIn_ok ok]
    rfl
end Sys2Proof.Machine
end

section
/-! SUPPORT. The commands of chapters 14 to 16 about power, maps, firmware and resets on the states that the statements about them name. -/

namespace Sys2Proof.Machine

/-- A packet that comes is answered by its command's own part. -/
theorem packet_comes {op : Nat} {lens : List Nat} {sysOnly : Bool} {h : Hdr} {s t : State} (hc : Comes op lens sysOnly h s t) (body : State → Verdict) :
    packet op lens sysOnly h s body = (body t).apply h op := by
  obtain ⟨hs, rfl, -⟩ := hc
  exact packet_served hs body
/-- A packet that comes has its reserved bits 0 (check 6). -/
theorem rsv_of_comes {op : Nat} {lens : List Nat} {sysOnly : Bool} {h : Hdr} {s t : State} (hc : Comes op lens sysOnly h s t) : h.rsv = true := by
  obtain ⟨-, -, hr⟩ := hc
  exact hr
/-- A command that writes through its data reference, which R344 admits. -/
theorem writeOut_ok {h : Hdr} {x : DRef} {s : State} {ok : Bool} (out : List Byte) (op : Nat) (hx : s.refBad h.src x = none) (hr : h.rsv = true) (ho : ok = true)
    (hc : s.ha.cxl = true) : (writeOut h x s ok out).apply h op = answered op h x out s := by
  unfold writeOut
  rw [withRef_ok _ hx hr ho hc]
  rfl
/-- A parameter out of its range is BAD_PARAM. -/
theorem check6_bad {h : Hdr} {s : State} {ok : Bool} (k : Verdict) (ho : ok = false) : check6 h s ok k = refuse stBadParam s := by
  simp [check6, ho]

/-- Settles O36: a packet that comes is answered by its command's own part, whose check of the parameters is passed or failed as the clause says. -/
theorem powerCommandsComplete : Obligations.PowerCommandsComplete := by
  refine ⟨?telem, ?telemDenied, ?keeper, ?ledger, ?meter, ?policy, ?policyBad, ?clock⟩
  case telem =>
    intro h unit x s t hf hc hu hp hx hl
    rw [exec_of_fits hf (exec_telemRead ..), doTelemRead, packet_comes hc, if_neg, writeOut_ok _ _ hx (rsv_of_comes hc) hu hl]
    rintro ⟨hs, -, ht⟩
    rcases hp with hp | hp <;> simp_all
  case telemDenied =>
    intro h unit x s t hf hc hu hs ht
    rw [exec_of_fits hf (exec_telemRead ..), doTelemRead, packet_comes hc, if_pos ⟨hs, hu, ht⟩, apply_refuse]
  case keeper => exact fun s => if_pos (by decide)
  case ledger =>
    intro h first count flags x s t hf hc h1 h2 h3 hx hl
    rw [exec_of_fits hf (exec_ledgerRead ..), doLedgerRead, packet_comes hc, writeOut_ok _ _ hx (rsv_of_comes hc) (by simp [h1, h2, h3]) hl]
  case meter =>
    intro h s t hf hc
    rw [exec_of_fits hf (exec_meterRead ..), doMeterRead, packet_comes hc, check6_ok _ (rsv_of_comes hc) rfl, apply_done]
  case policy =>
    intro h cap share s t hf hc h1 h2
    rw [exec_of_fits hf (exec_powerPolicy ..), doPowerPolicy, packet_comes hc, check6_ok _ (rsv_of_comes hc) (by simp [h1, h2]), apply_done]
  case policyBad =>
    intro h cap share s t hf hc hb
    rw [exec_of_fits hf (exec_powerPolicy ..), doPowerPolicy, packet_comes hc, check6_bad _ (by simp; omega), apply_refuse]
  case clock =>
    intro h mmin flags s t hf hc h1 h2 h3
    rw [exec_of_fits hf (exec_clockSet ..), doClockSet, packet_comes hc, check6_ok _ (rsv_of_comes hc) (by simp [h1, h2, h3]), apply_accepted]


/-! Configuration, resets asked for, and firmware staging. -/

/-- The mask of one stack controller names it alone. -/
theorem scsIn_two_pow {n : Nat} (h : n < 24) : scsIn (2 ^ n) = [n] := by
  unfold scsIn bit
  simp only [Nat.testBit_two_pow]
  interval_cases n <;> rfl
/-- A reset that no order covers is ordered for the first boundary it can reach (R376). -/
theorem orderReset_new {s : State} {level party : Nat} (ids : List Nat) (byFault : Bool) (h : s.resets.find? (fun o => s.covers o level party) = none) :
    s.orderReset level party ids byFault = { s with resets := s.resets ++ [⟨level, party, s.clk.beat + reach s.clk.cycle, ids, byFault⟩] } := by
  unfold State.orderReset
  rw [h]
theorem stage_refused {s : State} {b : List Byte} (h : s.tr.fwOk b = false) : s.stage b = (s, stSignature, 0) := if_pos h
theorem stage_uncertified {s : State} {b : List Byte} (h : s.tr.fwOk b = true) (hn : fwSection b 4 = none) :
    s.stage b = (({ s with tr := { s.tr with fw := s.tr.fw.set [] (1 - s.tr.bootSlot) (fwImage b), staged := true } } : State).logRec 0x13 0 0xFFFF 52
      (leBytes 4 (fwVer b) ++ sha384 (fwImage b)), stOk, fwVer b) := by
  unfold State.stage
  dsimp only
  rw [if_neg (by simp [h]), hn]
  rfl
/-- Settles O40: as `powerCommandsComplete`, by the answer of each command's own part. -/
theorem systemCommandsComplete : Obligations.SystemCommandsComplete := by
  refine ⟨?part, ?partition, ?module, ?denied, ?ordered, ?regions, ?defects, ?rim, ?rimBusy, ?mode, ?master, ?stage, ?refused, ?staged⟩
  case part =>
    intro h level unit s t hf hc hs hm hl hu hcl
    rw [exec_of_fits hf (exec_reset ..), doReset, packet_comes hc, if_neg (by simp [hs, hm]),
      check6_ok _ (rsv_of_comes hc) (by simp [hu, hcl]; omega), apply_accepted]
    refine congrArg (fun start => Host.Outcome.next (longAccepted 0x0C01 h .reset level 0 start t)) (funext fun id => funext fun u => ?_)
    rw [if_neg (by omega)]
    rcases Nat.le_one_iff_eq_zero_or_eq_one.mp hl with rfl | rfl <;> rfl
  case partition =>
    intro h unit s t hf hc hm
    rw [exec_of_fits hf (exec_reset ..), doReset, packet_comes hc, if_neg (by simp [hm]), check6_ok _ (rsv_of_comes hc) (by simp), apply_accepted]
    rfl
  case module =>
    intro h unit s t hf hc hs
    rw [exec_of_fits hf (exec_reset ..), doReset, packet_comes hc, if_neg (by simp [hs]), check6_ok _ (rsv_of_comes hc) (by simp), apply_accepted]
    rfl
  case denied =>
    intro h level unit s t hf hc hd
    rw [exec_of_fits hf (exec_reset ..), doReset, packet_comes hc, if_pos hd, apply_refuse]
  case ordered => exact fun level party ids byFault s h => orderReset_new ids byFault h
  case regions =>
    intro h x s t hf hc hx hl
    rw [exec_of_fits hf (exec_regionMapRead ..), doRegionMapRead, packet_comes hc, writeOut_ok _ _ hx (rsv_of_comes hc) rfl hl]
  case defects =>
    intro h x s t hf hc hx hl
    rw [exec_of_fits hf (exec_defectMapRead ..), doDefectMapRead, packet_comes hc, writeOut_ok _ _ hx (rsv_of_comes hc) rfl hl]
  case rim =>
    intro h n rg rd s t hf hc hn hfit hrg hrd he ho
    rw [exec_of_fits hf (exec_rimConfig ..), doRimConfig, packet_comes hc, check6_ok _ (rsv_of_comes hc) (by simp [hfit, hrg, hrd]), scsIn_two_pow hn,
      if_neg (by simp [he, ho]), apply_done]
    rfl
  case rimBusy =>
    intro h n rg rd s t hf hc hn hfit hrd hb
    rw [exec_of_fits hf (exec_rimConfig ..), doRimConfig, packet_comes hc, check6_ok _ (rsv_of_comes hc) (by simp [hfit, hrd, bit]), scsIn_two_pow hn,
      if_pos ⟨by decide, by simpa using hb⟩, apply_refuse]
  case mode =>
    intro h mode flags delay s t hf hc h1 h2 h3 hm
    have hmaster : (decide (mode = 1) && bit flags 0) = false := by simpa using hm
    rw [exec_of_fits hf (exec_beatMode ..), doBeatMode, packet_comes hc, check6_ok _ (rsv_of_comes hc) (by simp [h1, h2, h3]), apply_done,
      if_neg (by rw [hmaster]; simp; omega)]
  case master =>
    intro h delay s t hf hc
    rw [exec_of_fits hf (exec_beatMode ..), doBeatMode, packet_comes hc]
    dsimp only
    rw [check6_ok _ (rsv_of_comes hc) (by simp [bit]), apply_done, if_pos (.inr rfl)]
    rfl
  case stage =>
    intro h x s t hf hc hx hl
    rw [exec_of_fits hf (exec_fwStage ..), doFwStage, packet_comes hc, withRef_ok _ hx (rsv_of_comes hc) rfl hl, apply_acceptNow]
  case refused => exact fun b s h => stage_refused h
  case staged => exact fun b s h hn => stage_uncertified h hn

/-! Resets at their boundary (R376 to R379). -/

/-- At a boundary the reset due is the first one ordered for it or before. -/
theorem dueReset_boundary {s : State} {level party : Nat} (hc : s.clk.cycle = 0) :
    s.dueReset level party = s.resets.find? (fun o => decide (o.level = level) && decide (o.party = party) && decide (o.beat ≤ s.clk.beat)) :=
  if_neg (not_not.mpr hc)
theorem dueReset_none {s : State} {level party : Nat} (h : s.clk.cycle ≠ 0 ∨ ∀ q ∈ s.resets, ¬(q.level = level ∧ q.party = party ∧ q.beat ≤ s.clk.beat)) :
    s.dueReset level party = none := by
  unfold State.dueReset
  split
  · rfl
  · next hc =>
    refine List.find?_eq_none.mpr (fun q hq => ?_)
    simpa [and_assoc] using h.resolve_left hc q hq
theorem doTileReset_due {tile : Nat} {o : RstOrd} {s : State} (h : s.dueReset 0 tile = some o) :
    doTileReset tile s = if s.fillsFenced tile then s else
      (((s.resetServes (tile / 64) o.byFault).onTile tile (Tile.resetNow (s.resetServes (tile / 64) o.byFault).clk.beat)).reclaim
        (fun l => decide (uClass l.holder = 1) && decide (uTile l.holder = tile))).endReset o := by
  unfold doTileReset
  rw [h]
theorem doTileReset_early {tile : Nat} {s : State} (h : s.dueReset 0 tile = none) : doTileReset tile s = s := by
  unfold doTileReset
  rw [h]
theorem doClusterReset_due {region cluster : Nat} {o : RstOrd} {s : State} (h : s.dueReset 1 (4 * region + cluster) = some o) :
    doClusterReset region cluster s = if (List.range 16).any (fun i => s.fillsFenced (64 * region + 16 * cluster + i)) then s else
      ((((List.range 16).foldl (fun u i => u.onTile (64 * region + 16 * cluster + i) (Tile.resetNow u.clk.beat)) (s.resetServes region o.byFault)).remapCluster region cluster).reclaim
        (fun l => decide (uClass l.holder = 1) && decide (uTile l.holder / 16 = 4 * region + cluster))).endReset o := by
  unfold doClusterReset
  rw [h]
theorem doClusterReset_early {region cluster : Nat} {s : State} (h : s.dueReset 1 (4 * region + cluster) = none) : doClusterReset region cluster s = s := by
  unfold doClusterReset
  rw [h]
theorem doPartitionReset_early {c : Nat} {s : State} (h : s.dueReset 2 c = none) : doPartitionReset c s = s := by
  unfold doPartitionReset
  rw [h]
/-- A running plan of the partition ends, FAULTED from a fault and ABORTED from RESET, and is held until the host starts one again. -/
theorem resetServes_running {r : Nat} {byFault : Bool} {s u : State} (hu : (s.abortStreams 8 (fun q => decide (q.ctx = s.serves r))).dropReds (s.serves r) = u)
    (hc : isUser (s.serves r) = true) (hr : (u.ctx (s.serves r)).run.any Run.started = true) :
    s.resetServes r byFault = ((u.endRun (s.serves r) (if byFault then stFaulted else stAborted) noCause).askHold (s.serves r) (uidRc r) .plan).askHold (s.serves r)
      (uidRc r) .restart := by
  subst hu
  refine if_neg ?_
  rintro (h | h)
  · simp [hc] at h
  · obtain ⟨x, hx, hs⟩ := (Option.any_eq_true _ _).mp hr
    rw [hx] at h
    simp [hs] at h

/-- Settles O41: each reset does its work where one is due and nothing otherwise; `dueReset_boundary` and `dueReset_none` say when. -/
theorem resetCommandsComplete : Obligations.ResetCommandsComplete := by
  refine ⟨?kept, ?tile, ?tileEarly, ?serves, ?cluster, ?clusterEarly, ?partition, ?partitionEarly, ?ends, ?domain, ?domainStays⟩
  case kept => exact fun b t => rfl
  case tile =>
    intro tile o s hf hc ho
    rw [exec_of_fits hf (exec_tileReset ..), doTileReset_due ((dueReset_boundary hc).trans ho)]
  case tileEarly =>
    intro tile s hf h
    rw [exec_of_fits hf (exec_tileReset ..), doTileReset_early (dueReset_none h)]
  case serves => exact fun r byFault u s hu hc hr => resetServes_running hu hc hr
  case cluster =>
    intro region cluster o s hf h
    rw [exec_of_fits hf (exec_clusterReset ..), doClusterReset_due h]
  case clusterEarly =>
    intro region cluster s hf h
    rw [exec_of_fits hf (exec_clusterReset ..), doClusterReset_early h]
  case partition =>
    rintro c o _ _ s hf h rfl rfl
    rw [exec_of_fits hf (exec_partitionReset ..), doPartitionReset, h]
  case partitionEarly =>
    intro c s hf h
    rw [exec_of_fits hf (exec_partitionReset ..), doPartitionReset_early h]
  case ends => exact fun o s => rfl
  case domain =>
    intro region s hf hc hq hd h1 h2
    rw [exec_of_fits hf (exec_computeDomainOn ..), doComputeDomainOn, if_neg (by simp [hc, hq, hd, h1, h2])]
  case domainStays =>
    intro region s hf h
    rw [exec_of_fits hf (exec_computeDomainOn ..), doComputeDomainOn, if_pos (h.imp_right (Or.imp_right .inl))]
end Sys2Proof.Machine
end

section
/-! SUPPORT. An instruction that completes at issue (NOP to SWR, MCF, VSL, VSM): its effect leaves what is in flight and the flags alone, so its own
flag rises in the same step, and nothing but its tile changes. -/

namespace Sys2Proof.Machine

/-- What is in flight in the two streams of `u`, and the flags of `u`, are those of `t`. -/
def SameFlight (t u : Tile) : Prop := u.sa.ops = t.sa.ops ∧ u.se.ops = t.se.ops ∧ u.flags = t.flags
theorem SameFlight.onStream {t u : Tile} {e : Bool} {g : Stream → Stream} (h : SameFlight t u) (hg : ∀ x, (g x).ops = x.ops) :
    SameFlight t (u.onStream e g) := by
  obtain ⟨ha, he, hf⟩ := h
  cases e
  · exact ⟨(hg _).trans ha, he, hf⟩
  · exact ⟨ha, (hg _).trans he, hf⟩
theorem SameFlight.past {t u : Tile} (h : SameFlight t u) (e : Bool) : SameFlight t (u.onStream e Stream.stepPast) := h.onStream fun _ => rfl
theorem SameFlight.writeBy {t u : Tile} (h : SameFlight t u) (w n v : Nat) : SameFlight t (u.writeBy w n v) := by
  simpa [SameFlight] using h
theorem atIssue_sameFlight (h : IHdr) (ti : TI) (s : State) : SameFlight (lowered h (tileNow h s)) (atIssue h ti s) := by
  refine ⟨?_, ?_, countIssue_flags ..⟩ <;> cases hx : h.exe <;> simp [atIssue, countIssue, Tile.onStream, hx]
@[simp] theorem enterLoop_ops (x : Stream) (f : LoopF) : (x.enterLoop f).ops = x.ops := by
  unfold Stream.enterLoop
  dsimp only
  split <;> rfl
@[simp] theorem doRet_ops (x : Stream) : x.doRet.ops = x.ops := by
  unfold Stream.doRet
  split <;> rfl

theorem calm_iff (h : IHdr) (s : State) :
    calm h s = true ↔ (tileNow h s).sa.ops = [] ∧ (tileNow h s).se.ops = [] ∧ (inTile h s).tr.traces = [] := by
  simp [calm, and_assoc]
theorem SameFlight.calm {h : IHdr} {s : State} {u : Tile} (hu : SameFlight (lowered h (tileNow h s)) u) (hc : calm h s = true) :
    u.sa.ops = [] ∧ u.se.ops = [] := by
  obtain ⟨ha, he, -⟩ := hu
  obtain ⟨ca, ce, -⟩ := (calm_iff h s).mp hc
  rw [lowered_sa] at ha
  rw [lowered_se] at he
  exact ⟨ha.trans ca, he.trans ce⟩

/-! The tile at the issue, in the fields that the effects read. -/

theorem offered_running {h : IHdr} {ti : TI} {s : State} (ho : offered h ti s = true) : (tileNow h s).running = true := by
  obtain ⟨hi, -⟩ := (offered_iff h ti s).mp ho
  simp only [State.issues, Bool.and_eq_true] at hi
  obtain ⟨⟨⟨⟨-, hr⟩, -⟩, -⟩, -⟩ := hi
  exact (enter_running ..).trans hr
/-- The flits that come to the tile first leave the beat alone, so its stamp is the one the command names. -/
theorem tileNow_at (h : IHdr) (s : State) : (tileNow h s).at_ = s.stamp h.cyc := by
  have hb : (inTile h s).clk.beat = s.clk.beat := congrArg Kept.beat (State.landTile_kept (s.at h.cyc) h.tile)
  rw [tileNow, enter_at, State.stamp, hb, State.stamp]
theorem atIssue_running (h : IHdr) (ti : TI) (s : State) : (atIssue h ti s).running = (tileNow h s).running :=
  (countIssue_running ..).trans (lowered_running ..)
theorem atIssue_at (h : IHdr) (ti : TI) (s : State) : (atIssue h ti s).at_ = (tileNow h s).at_ :=
  (countIssue_at_ ..).trans (lowered_at_ ..)
theorem atIssue_routines (h : IHdr) (ti : TI) (s : State) : (atIssue h ti s).routines = (tileNow h s).routines :=
  (countIssue_routines ..).trans (lowered_routines ..)
theorem atIssue_swpBeats (h : IHdr) (ti : TI) (s : State) : (atIssue h ti s).swpBeats = (tileNow h s).swpBeats :=
  (countIssue_swpBeats ..).trans (lowered_swpBeats ..)
theorem atIssue_idx (h : IHdr) (ti : TI) (s : State) (l : Nat) : (atIssue h ti s).se.idx l = (tileNow h s).se.idx l := by
  cases hx : h.exe <;> simp [atIssue, countIssue, addWait, Tile.onStream, Stream.idx, hx]
/-- The issue of an instruction in one stream does not change how the other stands. -/
theorem atIssue_other_st (h : IHdr) (ti : TI) (s : State) : ((atIssue h ti s).stream (!h.exe)).st = ((tileNow h s).stream (!h.exe)).st := by
  cases hx : h.exe <;> simp [atIssue, countIssue, addWait, Tile.onStream, Tile.stream, hx]

/-! The step of an instruction that completes at issue. -/

/-- A command of a tile instruction that completes at issue, whose effect on the tile is `u`. -/
theorem exec_completes {n : String} {c : Instr} {h : IHdr} {ti : TI} {s : State} {u : Tile} (hf : Fits c) (ex : exec c s = guarded n c s (tileStep h ti))
    (ho : offered h ti s = true) (hc : calm h s = true) (hn : ti.units (lowered h (tileNow h s)) = none)
    (hv : ti.noStage (lowered h (tileNow h s)) = false) (hs : ti ≠ .swp) (he : issueEffect (atIssue h ti s) h ti = u)
    (hu : SameFlight (lowered h (tileNow h s)) u) (hr : canRise h (lowered h (tileNow h s)) = true) :
    exec c s = .next ((inTile h s).setTile h.tile (risen h u)) := by
  obtain ⟨ha, hb⟩ := hu.calm hc
  obtain ⟨-, -, hflags⟩ := hu
  rw [exec_of_fits hf ex, tileStep_now h ti s u ho hc hn hv hs he ha hb (canRise_of hr hflags)]
/-- SWP raises no flag at its issue (R146): `u` is the tile with its effect. -/
theorem tileStep_swp {h : IHdr} {s : State} {u : Tile} (ho : offered h .swp s = true) (hc : calm h s = true)
    (he : issueEffect (atIssue h .swp s) h .swp = u) (hu : SameFlight (lowered h (tileNow h s)) u) :
    tileStep h .swp s = (inTile h s).setTile h.tile u := by
  subst he
  obtain ⟨ha, hb⟩ := hu.calm hc
  obtain ⟨-, -, ht⟩ := (calm_iff h s).mp hc
  have hg : issueGo h .swp (lowered h (tileNow h s)) = (issueEffect (atIssue h .swp s) h .swp, none, true) := by
    have still := advance_calm _ ha hb
    unfold atIssue at still ⊢
    simp only [issueGo, TI.noStage, TI.units, Bool.false_eq_true, if_false, if_true, still]
  exact tileStep_next h .swp s _ true ho ht ((issue_offered h .swp s ho).trans hg)

/-- The increments that AGI writes: a fold over their number, which is 1 to 3, is the three writes with their conditions. -/
theorem agi_increments (f : AgiF) (m : Tab Int) :
    (List.range (max 1 (min f.n 3))).foldl (fun m k => m.set 0 (f.lv + k) ([f.inca, f.incb, f.incc].getD k 0)) m =
      (let i := m.set 0 f.lv f.inca
       let i := if f.n ≥ 2 then i.set 0 (f.lv + 1) f.incb else i
       if f.n ≥ 3 then i.set 0 (f.lv + 2) f.incc else i) := by
  obtain hn | hn | hn : f.n ≤ 1 ∨ f.n = 2 ∨ 3 ≤ f.n := by omega
  · rw [show max 1 (min f.n 3) = 1 by omega, if_neg (by omega), if_neg (by omega)]
    rfl
  · rw [hn]
    rfl
  · rw [show max 1 (min f.n 3) = 3 by omega, if_pos (by omega), if_pos (by omega)]
    rfl

/-- Settles O13: each of these instructions has its effect in the frame of `exec_completes`, SWP in that of `tileStep_swp`. -/
theorem registerInstructionsComplete : Obligations.RegisterInstructionsComplete := by
  refine ⟨?nop, ?wcy, ?loop, ?call, ?ret, ?swp, ?endI, ?ags, ?agi, ?swr, ?mcf, ?vsl, ?vsm⟩
  case nop =>
    intro h cyc s hw hu ho hc hr
    exact exec_completes ⟨hw, hu⟩ (exec_nop ..) ho hc rfl rfl nofun rfl ((atIssue_sameFlight ..).past _) hr
  case wcy =>
    intro h off s hw hu ho hc hr
    exact exec_completes ⟨hw, hu⟩ (exec_wcy ..) ho hc rfl rfl nofun rfl ((atIssue_sameFlight ..).past _) hr
  case loop =>
    intro h f s hw hu ho hc hr
    exact exec_completes ⟨hw, hu⟩ (exec_loop ..) ho hc rfl rfl nofun rfl ((atIssue_sameFlight ..).onStream fun x => enterLoop_ops x f) hr
  case call =>
    intro h r s hw hu ho hc hr
    refine exec_completes ⟨hw, hu⟩ (exec_call ..) ho hc rfl rfl nofun ?_ ((atIssue_sameFlight ..).onStream fun _ => rfl) hr
    simp only [issueEffect, atIssue_routines, Stream.enterCall]
  case ret =>
    intro h s hw hu ho hc hr
    exact exec_completes ⟨hw, hu⟩ (exec_ret ..) ho hc rfl rfl nofun rfl ((atIssue_sameFlight ..).onStream doRet_ops) hr
  case swp =>
    intro h s hw hu ho hc
    rw [exec_of_fits ⟨hw, hu⟩ (exec_swp ..)]
    refine congrArg _ (tileStep_swp ho hc (by simp only [issueEffect, atIssue_swpBeats]) ?_)
    exact (atIssue_sameFlight h .swp s).onStream (g := fun x => { x with st := .atSwp, swpSet := h.sfl }) fun _ => rfl
  case endI =>
    intro h s hw hu ho hc hr
    refine exec_completes ⟨hw, hu⟩ (exec_endI ..) ho hc rfl rfl nofun ?_
      ((atIssue_sameFlight h .endI s).onStream (g := fun x => { x with st := .atEnd, endAt := s.stamp h.cyc }) fun _ => rfl) hr
    have hrun : (atIssue h .endI s).running = true := (atIssue_running ..).trans (offered_running ho)
    simp only [issueEffect, atIssue_at, tileNow_at, onStream_running, hrun, ← atIssue_other_st h .endI s]
    cases h.exe <;> simp [Tile.onStream, Tile.stream]
  case ags =>
    intro h f s hw hu ho hc hr
    refine exec_completes ⟨hw, hu⟩ (exec_ags ..) ho hc rfl rfl nofun rfl (.past ?_ _) hr
    exact (atIssue_sameFlight ..).onStream fun _ => rfl
  case agi =>
    intro h f s hw hu ho hc hr
    refine exec_completes ⟨hw, hu⟩ (exec_agi ..) ho hc rfl rfl nofun ?_ (.past ?_ _) hr
    · simp only [issueEffect, agi_increments]
    · exact (atIssue_sameFlight ..).onStream fun _ => rfl
  case swr =>
    intro h reg v s hw hu ho hc hr
    exact exec_completes ⟨hw, hu⟩ (exec_swr ..) ho hc rfl rfl nofun rfl (((atIssue_sameFlight ..).writeBy ..).past _) hr
  case mcf =>
    intro h gang sati s hw hu ho hc hr
    have hm : SameFlight (lowered h (tileNow h s)) { atIssue h (.mcf gang sati) s with gang := gang, sati := sati } := atIssue_sameFlight ..
    exact exec_completes ⟨hw, hu⟩ (exec_mcf ..) ho hc rfl rfl nofun rfl (hm.past _) hr
  case vsl =>
    intro h f s hw hu ho hc hr
    refine exec_completes ⟨hw, hu⟩ (exec_vsl ..) ho hc rfl rfl nofun ?_ (((atIssue_sameFlight ..).writeBy ..).past _) hr
    simp only [issueEffect, atIssue_idx]
  case vsm =>
    intro h mask s hw hu ho hc hr
    exact exec_completes ⟨hw, hu⟩ (exec_vsm ..) ho hc rfl rfl nofun rfl (((atIssue_sameFlight ..).writeBy ..).past _) hr
end Sys2Proof.Machine
end

section
/-! SUPPORT. An instruction that goes into flight alone (MLD to PGL): where its units are done it is complete in the step that issues it. For those of
the matrix unit and the converter it is enough that their operands are there. -/

namespace Sys2Proof.Machine

/-- A command of a tile instruction of `n` units whose issue only steps past it, and whose units are done. -/
theorem exec_flies {name : String} {c : Instr} {h : IHdr} {ti : TI} {n : Nat} {s : State} {u : Tile} (hf : Fits c)
    (ex : exec c s = guarded name c s (tileStep h ti)) (ho : offered h ti s = true) (hc : calm h s = true)
    (hn : ti.units (lowered h (tileNow h s)) = some n) (hv : ti.noStage (lowered h (tileNow h s)) = false)
    (he : issueEffect (atIssue h ti s) h ti = (atIssue h ti s).onStream h.exe Stream.stepPast) (hd : unitsDone h ti n s u) (hr : canRise h u = true) :
    exec c s = .next ((inTile h s).setTile h.tile (landed h (flying h ti n s).1 u)) := by
  rw [exec_of_fits hf ex, tileStep_flight h ti n s u ho hc hn hv he hd hr]
/-- The one unit of MSW swaps the sets, whatever the state (R56). -/
theorem msw_unitsDone (h : IHdr) (s : State) : unitsDone h .msw 1 s (flying h .msw 1 s).1.quiet.swapSets := rfl
theorem msw_canRise {h : IHdr} {s : State} (hr : canRise h (lowered h (tileNow h s)) = true) : canRise h (flying h .msw 1 s).1.quiet.swapSets = true := by
  obtain ⟨-, -, hflags, -⟩ := flying_tile h .msw 1 s
  exact canRise_of hr hflags

/-- Settles O14: `exec_flies`, with the number of units that each instruction's fields give. -/
theorem flyingInstructionsComplete : Obligations.FlyingInstructionsComplete := by
  refine ⟨?mld, ?msw, ?mst, ?mdr, ?cvl, ?vcl, ?vrn, ?vrs, ?vrl, ?srd, ?get, ?put, ?gth, ?sct, ?pgl⟩
  case mld =>
    intro h f s u hw hu ho hc hd hr
    exact exec_flies ⟨hw, hu⟩ (exec_mld ..) ho hc rfl rfl rfl hd hr
  case msw =>
    intro h s hw hu ho hc hr
    exact exec_flies ⟨hw, hu⟩ (exec_msw ..) ho hc rfl rfl rfl (msw_unitsDone h s) (msw_canRise hr)
  case mst =>
    intro h f x s u hw hu ho hc hd hr
    exact exec_flies ⟨hw, hu⟩ (exec_mst ..) ho hc rfl rfl rfl hd hr
  case mdr =>
    intro h f s u hw hu ho hc hd hr
    exact exec_flies ⟨hw, hu⟩ (exec_mdr ..) ho hc rfl rfl rfl hd hr
  case cvl =>
    intro h k pb ag w s u hw hu ho hc hd hr
    exact exec_flies ⟨hw, hu⟩ (exec_cvl ..) ho hc rfl rfl rfl hd hr
  case vcl =>
    intro h k ag s u hw hu ho hc hd hr
    exact exec_flies ⟨hw, hu⟩ (exec_vcl ..) ho hc rfl rfl rfl hd hr
  case vrn =>
    intro h k ovl s u hw hu ho hc hs hd hr
    refine exec_flies ⟨hw, hu⟩ (exec_vrn ..) ho hc ?_ ?_ rfl hd hr
    · rw [TI.units, lowered_vcLen]
    · rw [TI.noStage, lowered_chain, decide_eq_false hs]
  case vrs =>
    intro h b n ag s u hw hu ho hc hd hr
    exact exec_flies ⟨hw, hu⟩ (exec_vrs ..) ho hc rfl rfl rfl hd hr
  case vrl =>
    intro h b n ag s u hw hu ho hc hd hr
    exact exec_flies ⟨hw, hu⟩ (exec_vrl ..) ho hc rfl rfl rfl hd hr
  case srd =>
    intro h r ag s u hw hu ho hc hd hr
    exact exec_flies ⟨hw, hu⟩ (exec_srd ..) ho hc rfl rfl rfl hd hr
  case get =>
    intro h ch ag n s u hw hu ho hc hd hr
    exact exec_flies ⟨hw, hu⟩ (exec_get ..) ho hc rfl rfl rfl hd hr
  case put =>
    intro h ch ag n s u hw hu ho hc hd hr
    exact exec_flies ⟨hw, hu⟩ (exec_put ..) ho hc rfl rfl rfl hd hr
  case gth =>
    intro h f s u hw hu ho hc hd hr
    exact exec_flies ⟨hw, hu⟩ (exec_gth ..) ho hc rfl rfl rfl hd hr
  case sct =>
    intro h f s u hw hu ho hc hd hr
    exact exec_flies ⟨hw, hu⟩ (exec_sct ..) ho hc rfl rfl rfl hd hr
  case pgl =>
    intro h ch off n fin s u hw hu ho hc hd hr
    exact exec_flies ⟨hw, hu⟩ (exec_pgl ..) ho hc rfl rfl rfl hd hr

/-! The units of MLD and CVL (R50, R82). -/

theorem mld_unitsDone {h : IHdr} {f : MldF} {n : Nat} {s : State} (hp : cleanPad (tileNow h s) = true) (hr : canRise h (lowered h (tileNow h s)) = true)
    (hrows : rowsThere (tileNow h s) (genNow h f.src s) n (fun u => if u < f.rows then fmtBytes f.sfmt 64 else 64) = true) :
    ∃ u, unitsDone h (.mld f) n s u ∧ canRise h u = true := by
  obtain ⟨hq, hrows⟩ := rowsThere_at hrows
  obtain ⟨hmap, -⟩ := flying_tile h (.mld f) n s
  have hsnap : (flying h (.mld f) n s).2.snap 0 = genNow h f.src s := flying_snap _ _ _ _ _ _ (by simp [TI.gens]) (by simp [TI.gens])
  refine units_land h _ n s (fun _ t _ _ => Sound (flying h (.mld f) n s).1.quiet t) (fun _ _ _ _ _ => rfl) (flying_sound h _ n s hp)
    (fun k t d b hk ht => ?_) (fun _ _ _ ht => ht) hr
  refine UR.lands_mono (unitMld_lands ht ((congrArg Snap.qm hsnap).trans hq) ?_) (fun u y hy => ⟨d, b, hy⟩)
  rw [rowThere_map hmap]
  exact hsnap ▸ hrows k hk
theorem cvl_unitsDone {h : IHdr} {k ag n : Nat} {pb : Bool} {w : BitVec 64} {s : State} (hp : cleanPad (tileNow h s) = true)
    (hr : canRise h (lowered h (tileNow h s)) = true) (hw : pb = true → wordsThere (tileNow h s) (genNow h ag s) n = true) :
    ∃ u, unitsDone h (.cvl k pb ag w) n s u ∧ canRise h u = true := by
  obtain ⟨hmap, -⟩ := flying_tile h (.cvl k pb ag w) n s
  refine units_land h _ n s (fun _ t _ _ => Sound (flying h (.cvl k pb ag w) n s).1.quiet t) (fun _ _ _ _ _ => rfl) (flying_sound h _ n s hp)
    (fun j t d b hj ht => ?_) (fun _ _ _ ht => ht) hr
  refine UR.lands_mono (unitCvl_lands ht (fun hpb => ?_)) (fun u y hy => ?_)
  · subst hpb
    obtain ⟨hq, hw⟩ := wordsThere_at (hw rfl)
    have hsnap : (flying h (.cvl k true ag w) n s).2.snap 0 = genNow h ag s := flying_snap _ _ _ _ _ _ (by simp [TI.gens]) (by simp [TI.gens])
    rw [rowThere_map hmap]
    exact ⟨(congrArg Snap.qm hsnap).trans hq, hsnap ▸ hw j hj⟩
  · obtain ⟨⟨d', rfl⟩, hS⟩ := hy
    exact ⟨d', b, rfl, hS⟩

/-! The units of MDR (R67 to R69, R84). -/

theorem convThere_at {t : Tile} {dst ssag sdag : Snap} {k n : Nat} (h : convThere t dst ssag sdag k n = true) :
    cvFmtUsed (bits (t.cv k) 63 60) = true ∧ rowsThere t dst n (fun _ => fmtBytes (bits (t.cv k) 63 60) 64) = true ∧
      (bits (t.cv k) 59 58 = 3 → packThere t ssag (2 * n) 4 = true) ∧ (fmtMx (bits (t.cv k) 63 60) = true → packThere t sdag (2 * n) 1 = true) := by
  simp only [convThere, Bool.and_eq_true, Bool.or_eq_true, decide_eq_true_eq, Bool.not_eq_true'] at h
  obtain ⟨⟨⟨hf, hd⟩, hs⟩, hm⟩ := h
  exact ⟨hf, hd, fun e => hs.resolve_left (not_not_intro e), fun e => hm.resolve_left (by simp [e])⟩
@[simp] theorem lowered_cv (h : IHdr) (t : Tile) (k : Nat) : (lowered h t).cv k = t.cv k := by
  rw [Tile.cv, lowered_cvSet, Tile.cv]
/-- The generators of a drain: the rows, the row-block scales where the setting reads them, the MX scales where it writes them. -/
theorem mem_gens_mdr {t : Tile} {f : MdrF} {p : Nat × Nat} : p ∈ (TI.mdr f).gens t ↔ p = (2, f.dst) ∨
    (bits (t.cv f.cvt) 59 58 = 3 ∧ p = (10, bits (t.cv f.cvt) 53 52)) ∨ (fmtMx (bits (t.cv f.cvt) 63 60) = true ∧ p = (11, bits (t.cv f.cvt) 51 50)) := by
  simp only [TI.gens, List.mem_append, List.mem_ite_nil_right, List.mem_singleton, or_assoc]
/-- An operand of a drain in flight was captured from the generator its fields or its setting name. -/
theorem mdr_snap {h : IHdr} {f : MdrF} {n k a : Nat} {s : State} (hin : (k, a) ∈ (TI.mdr f).gens (lowered h (tileNow h s))) :
    (flying h (.mdr f) n s).2.snap k = genNow h a s := by
  refine flying_snap _ _ _ _ _ _ (fun p hp hk => ?_) hin
  rcases mem_gens_mdr.mp hp with rfl | ⟨-, rfl⟩ | ⟨-, rfl⟩ <;> rcases mem_gens_mdr.mp hin with e | ⟨-, e⟩ | ⟨-, e⟩ <;> simp_all
theorem mdr_unitsDone {h : IHdr} {f : MdrF} {n : Nat} {s : State} (hp : cleanPad (tileNow h s) = true) (hr : canRise h (lowered h (tileNow h s)) = true)
    (hb : (tileNow h s).accBad = []) (hconv : convThere (tileNow h s) (genNow h f.dst s) (genNow h (bits ((tileNow h s).cv f.cvt) 53 52) s)
      (genNow h (bits ((tileNow h s).cv f.cvt) 51 50) s) f.cvt n = true) :
    ∃ u, unitsDone h (.mdr f) n s u ∧ canRise h u = true := by
  obtain ⟨hfmt, hdst, hssag, hsdag⟩ := convThere_at hconv
  obtain ⟨hq, hrows⟩ := rowsThere_at hdst
  obtain ⟨hmap, -, -, -, -, -, hset, hbad⟩ := flying_tile h (.mdr f) n s
  have hcv : (flying h (.mdr f) n s).1.quiet.cv f.cvt = (tileNow h s).cv f.cvt := by rw [Tile.cv, hset, Tile.cv]
  have snap2 : (flying h (.mdr f) n s).2.snap 2 = genNow h f.dst s := mdr_snap (by simp [mem_gens_mdr])
  refine units_land h _ n s (fun _ t _ _ => Sound (flying h (.mdr f) n s).1.quiet t ∧ t.cvSet = (flying h (.mdr f) n s).1.quiet.cvSet ∧ t.accBad = [])
    (fun _ _ _ _ _ => rfl) ⟨flying_sound h _ n s hp, rfl, hbad.trans hb⟩ (fun k t d b hk ⟨ht, hc, ha⟩ => ?_) (fun _ _ _ ht => ht.1) hr
  refine UR.lands_mono (unitMdr_lands ht hc ha (hcv ▸ hfmt) ((congrArg Snap.qm snap2).trans hq) ?row (fun e => ?scales) (fun e => ?mx)) (fun u y hy => ?_)
  case row =>
    rw [rowThere_map hmap, hcv]
    exact snap2 ▸ hrows k hk
  case scales =>
    rw [hcv] at e
    have snap10 : (flying h (.mdr f) n s).2.snap 10 = genNow h (bits ((tileNow h s).cv f.cvt) 53 52) s := mdr_snap (by simp [mem_gens_mdr, e])
    obtain ⟨hq, hs⟩ := packThere_at (hssag e)
    refine ⟨(congrArg Snap.qm snap10).trans hq, fun j hj => ?_⟩
    rw [hmap]
    exact snap10 ▸ hs (k * 2 + j) (by omega)
  case mx =>
    rw [hcv] at e
    have snap11 : (flying h (.mdr f) n s).2.snap 11 = genNow h (bits ((tileNow h s).cv f.cvt) 51 50) s := mdr_snap (by simp [mem_gens_mdr, e])
    obtain ⟨hq, hs⟩ := packThere_at (hsdag e)
    refine ⟨(congrArg Snap.qm snap11).trans hq, fun j hj => ?_⟩
    rw [hmap]
    exact snap11 ▸ hs (k * 2 + j) (by omega)
  obtain ⟨⟨b', rfl⟩, hS⟩ := hy
  exact ⟨d, b', rfl, hS⟩

/-! The units of MST into the accumulator (R57 to R62, R71). The first row of one with SW swaps the sets; the rows after it find the active set that
it left. -/

/-- The generators of an MST into the accumulator: the rows, and the block scales where the format has them. -/
theorem mem_gens_mst {t : Tile} {f : MstF} {up : Option Upset} (hm : f.mode < 2) {p : Nat × Nat} :
    p ∈ (TI.mst f up).gens t ↔ p = (0, f.src) ∨ ((f.afmt = 6 ∨ f.afmt = 7) ∧ p = (1, f.ssrc)) := by
  simp only [TI.gens, if_neg (show ¬ f.mode ≥ 2 by omega), List.mem_append, List.mem_ite_nil_right, List.mem_singleton, List.not_mem_nil, or_false,
    Bool.or_eq_true, decide_eq_true_eq]
theorem mst_snap {h : IHdr} {f : MstF} {up : Option Upset} {n k a : Nat} {s : State} (hm : f.mode < 2)
    (hin : (k, a) ∈ (TI.mst f up).gens (lowered h (tileNow h s))) : (flying h (.mst f up) n s).2.snap k = genNow h a s := by
  refine flying_snap _ _ _ _ _ _ (fun p hp hk => ?_) hin
  rcases (mem_gens_mst hm).mp hp with rfl | ⟨-, rfl⟩ <;> rcases (mem_gens_mst hm).mp hin with e | ⟨-, e⟩ <;> simp_all
/-- The operands of an instruction do not change while its units are done. -/
theorem snap_atUnit (o : Op) (k : Nat) (d : List Nat) (b : Tab (List Byte)) (i : Nat) : ({ o with unit := k, data := d, buf := b } : Op).snap i = o.snap i := rfl
@[simp] theorem mstEnter_succ (f : MstF) (k : Nat) (t : Tile) : mstEnter f (k + 1) t = t := by simp [mstEnter]
/-- A row that enters may change which set is active, and no more. -/
theorem mstEnter_eq (f : MstF) (k : Nat) (t : Tile) : ∃ a, mstEnter f k t = { t with act := a } := by
  unfold mstEnter
  split
  · exact ⟨_, rfl⟩
  · exact ⟨t.act, rfl⟩
theorem sound_of_mstEnter {T t : Tile} {f : MstF} {k : Nat} (h : Sound T (mstEnter f k t)) : Sound T t := by
  obtain ⟨a, e⟩ := mstEnter_eq f k t
  rw [e] at h
  exact h
theorem mstEnter_active {t u : Tile} (f : MstF) (h0 : t.set0 = u.set0) (h1 : t.set1 = u.set1) (ha : t.act = u.act) :
    (mstEnter f 0 t).active = (mstEnter f 0 u).active := by
  unfold mstEnter
  split <;> simp [Tile.active, Tile.swapSets, h0, h1, ha]
theorem flying_mstEnter_active (h : IHdr) (ti : TI) (n : Nat) (s : State) (f : MstF) :
    (mstEnter f 0 (flying h ti n s).1.quiet).active = (mstEnter f 0 (tileNow h s)).active := by
  apply mstEnter_active <;> simp [flying, atIssue, Tile.quiet]
theorem flying_gang (h : IHdr) (ti : TI) (n : Nat) (s : State) : (flying h ti n s).1.quiet.gang = (tileNow h s).gang := by
  simp [flying, atIssue, Tile.quiet]
/-- The tile as the first row enters. -/
theorem flying_mstSame {h : IHdr} {ti : TI} {n : Nat} {s : State} (f : MstF) (hp : cleanPad (tileNow h s) = true) (hb : (tileNow h s).accBad = []) :
    MstSame (flying h ti n s).1.quiet (mstEnter f 0 (tileNow h s)).active (mstEnter f 0 (flying h ti n s).1.quiet) := by
  obtain ⟨-, -, -, -, -, -, -, hbad⟩ := flying_tile h ti n s
  have hact := flying_mstEnter_active h ti n s f
  obtain ⟨a, e⟩ := mstEnter_eq f 0 (flying h ti n s).1.quiet
  rw [e] at hact ⊢
  exact ⟨flying_sound h ti n s hp, rfl, rfl, hbad.trans hb, hact⟩
/-- Item j of block k, of n blocks of w items. -/
theorem block_item_lt {k n j w : Nat} (hk : k < n) (hj : j < w) : k * w + j < n * w :=
  calc k * w + j < k * w + w := Nat.add_lt_add_left hj _
    _ = (k + 1) * w := (Nat.succ_mul k w).symm
    _ ≤ n * w := Nat.mul_le_mul_right w hk
theorem mst_unitsDone {h : IHdr} {f : MstF} {up : Option Upset} {n : Nat} {s : State} (hp : cleanPad (tileNow h s) = true)
    (hr : canRise h (lowered h (tileNow h s)) = true) (hm : f.mode < 2) (hfmt : fmtGroup (mstEnter f 0 (tileNow h s)).active.fmt = fmtGroup f.afmt)
    (hknown : fmtGroup f.afmt ≠ none) (hb : (tileNow h s).accBad = [])
    (hrows : rowsThere (tileNow h s) (genNow h f.src s) n (fun _ => fmtBytes f.afmt (mstWidth (tileNow h s).gang)) = true)
    (hsc : f.afmt = 6 ∨ f.afmt = 7 → packThere (tileNow h s) (genNow h f.ssrc s) (n * (mstWidth (tileNow h s).gang / 32)) 1 = true)
    (hck : ∀ i < n, Refl.fail ∉ mstChecks (mstEnter f 0 (tileNow h s)).active f (tileNow h s).gang up i
      ((tileNow h s).mem.rdBytes ((genNow h f.src s).rowAddr i).toNat (fmtBytes f.afmt (mstWidth (tileNow h s).gang)))
      (if f.afmt = 6 ∨ f.afmt = 7 then scalesAt (tileNow h s) (genNow h f.ssrc s) (i * (mstWidth (tileNow h s).gang / 32)) (mstWidth (tileNow h s).gang / 32) else [])) :
    ∃ u, unitsDone h (.mst f up) n s u ∧ canRise h u = true := by
  obtain ⟨hq, hrows⟩ := rowsThere_at hrows
  obtain ⟨hmap, -, -, hmem, -⟩ := flying_tile h (.mst f up) n s
  have hgang := flying_gang h (.mst f up) n s
  have snap0 : (flying h (.mst f up) n s).2.snap 0 = genNow h f.src s := mst_snap hm ((mem_gens_mst hm).mpr (.inl rfl))
  have snap1 (e : f.afmt = 6 ∨ f.afmt = 7) : (flying h (.mst f up) n s).2.snap 1 = genNow h f.ssrc s :=
    mst_snap hm ((mem_gens_mst hm).mpr (.inr ⟨e, rfl⟩))
  refine units_land h _ n s (fun k t _ _ => MstSame (flying h (.mst f up) n s).1.quiet (mstEnter f 0 (tileNow h s)).active (mstEnter f k t))
    (fun _ _ _ _ _ => rfl) (flying_mstSame f hp hb) (fun k t d b hk ht => ?_) (fun _ _ _ hu => sound_of_mstEnter hu.1) hr
  refine UR.lands_mono (unitMst_lands ht hm (fun _ => ⟨hfmt, hknown⟩) ((congrArg Snap.qm snap0).trans hq) ?row (fun e => ?scales) ?checks) (fun u y hy => ?_)
  case row =>
    rw [rowThere_map hmap, hgang]
    exact snap0 ▸ hrows k hk
  case scales =>
    obtain ⟨hq, hs⟩ := packThere_at (hsc e)
    refine ⟨(congrArg Snap.qm (snap1 e)).trans hq, fun j hj => ?_⟩
    rw [hgang] at hj
    rw [hmap, hgang]
    exact snap1 e ▸ hs _ (block_item_lt hk hj)
  case checks =>
    have hck := hck k hk
    simp only [snap_atUnit, snap0, hgang, hmem]
    split
    · next e =>
      rw [if_pos e] at hck
      simpa only [scalesAt, hmem, snap1 e] using hck
    · next e => rwa [if_neg e] at hck
  obtain ⟨⟨b', rfl⟩, hS⟩ := hy
  exact ⟨d, b', rfl, (mstEnter_succ f k u).symm ▸ hS⟩

/-- An instruction that is ready lands where its units are done. -/
theorem Ready.lands {name : String} {c : Instr} {h : IHdr} {ti : TI} {n : Nat} {s : State} (hR : Ready c h ti s)
    (ex : exec c s = guarded name c s (tileStep h ti)) (hn : ti.units (lowered h (tileNow h s)) = some n)
    (hv : ti.noStage (lowered h (tileNow h s)) = false)
    (he : issueEffect (atIssue h ti s) h ti = (atIssue h ti s).onStream h.exe Stream.stepPast)
    (hd : cleanPad (tileNow h s) = true → canRise h (lowered h (tileNow h s)) = true → ∃ u, unitsDone h ti n s u ∧ canRise h u = true) :
    Lands c h ti n s := by
  obtain ⟨hf, ho, hc, hp, hr⟩ := hR
  obtain ⟨u, hd, hu⟩ := hd hp hr
  exact ⟨u, hd, exec_flies hf ex ho hc hn hv he hd hu⟩

/-- Settles O15: the units of each instruction are done where its operands are there. -/
theorem matrixInstructionsLand : Obligations.MatrixInstructionsLand := by
  refine ⟨?mld, ?msw, ?mst, ?mdr, ?cvl⟩
  case mld =>
    intro h f s hR hrows
    exact Ready.lands hR (exec_mld ..) rfl rfl rfl fun hp hr => mld_unitsDone hp hr hrows
  case msw =>
    intro h s hR
    exact Ready.lands hR (exec_msw ..) rfl rfl rfl fun _ hr => ⟨_, msw_unitsDone h s, msw_canRise hr⟩
  case mst =>
    intro h f x s hR hm hfmt hknown hb hrows hsc hck
    exact Ready.lands hR (exec_mst ..) rfl rfl rfl fun hp hr => mst_unitsDone hp hr hm hfmt hknown hb hrows hsc hck
  case mdr =>
    intro h f s hR hb hconv
    exact Ready.lands hR (exec_mdr ..) rfl rfl rfl fun hp hr => mdr_unitsDone hp hr hb hconv
  case cvl =>
    intro h k pb ag w s hR hw
    exact Ready.lands hR (exec_cvl ..) rfl rfl rfl fun hp hr => cvl_unitsDone hp hr fun hpb => by simpa [hpb] using hw hpb
end Sys2Proof.Machine
end

section
/-! SUPPORT. The registers at reset: every table of the state but that of the contexts is empty, so a part reads as a fresh one. -/

namespace Sys2Proof.Machine

theorem reset_tile (t : Nat) : State.reset.tile t = {} := rfl
theorem reset_ctx {c : Nat} (hc : c ≠ 0) : State.reset.ctx c = {} := by
  simp [State.ctx, State.reset, Tab.get, hc]
/-- Every region is bound to context 0. -/
theorem reset_bound {c : Nat} (hc : c ≠ 0) : State.reset.bound c = [] := by
  rw [State.bound, List.filter_eq_nil_iff]
  intro r _ h
  exact hc (of_decide_eq_true h).symm
theorem reg_of_beyond (t : Tile) {n : Nat} (h : 0x36 < n) : t.reg n = 0 := by
  unfold Tile.reg
  split <;> simp_all
/-- The registers of a fresh tile whose *Reset* column says 0. -/
theorem freshTile_reg {n : Nat} (h : n ∉ [0, 1, 0x12, 0x20, 0x28, 0x29, 0x2A, 0x2B, 0x2C, 0x2D]) : ({} : Tile).reg n = 0 := by
  have numbered : ∀ n < 0x37, n ∉ [0, 1, 0x12, 0x20, 0x28, 0x29, 0x2A, 0x2B, 0x2C, 0x2D] → ({} : Tile).reg n = 0 := by decide
  obtain hn | hn := Nat.lt_or_ge n 0x37
  · exact numbered n hn h
  · exact reg_of_beyond _ hn

/-- Settles O56: the parts at reset are fresh ones, context 0 apart, and their registers are evaluated. -/
theorem registersAtReset : Obligations.RegistersAtReset := by
  refine ⟨by decide, by decide, by decide, by decide, by decide, by decide, ?ctxs, ?tiles, ?routers, ?hubs, ?controllers, by decide, by decide, by decide, by decide⟩
  case ctxs =>
    intro c hc
    rw [reset_ctx hc]
    exact ⟨by decide, by decide, by decide, by decide, reset_bound hc, by decide⟩
  case tiles =>
    intro t
    rw [reset_tile]
    exact ⟨by decide, by decide, by decide, by decide, by decide, by decide, by decide, by decide, by decide, by decide, fun _ => freshTile_reg,
      fun _ => rfl, fun _ => rfl, fun _ => rfl, fun _ => rfl⟩
  case routers => exact fun _ _ => rfl
  case hubs => exact fun _ => ⟨rfl, rfl, rfl⟩
  case controllers => exact fun _ => ⟨rfl, rfl, rfl, rfl⟩
end Sys2Proof.Machine
end

section
/-! SUPPORT. Rounding onto the grid of an element format (R77, R85, R86): which grid point a code stands for, where the next one lies, and which of the
two `Fmt.roundMag` answers. -/

namespace Sys2Proof.Machine

/-! Magnitudes over one power of two. -/

theorem magnitude_scaled (m k : Nat) (e : Int) : magnitude (m * 2 ^ k) e = magnitude m (e + k) := by
  simp only [magnitude, Nat.cast_mul, Nat.cast_pow, Nat.cast_ofNat, zpow_add₀ (two_ne_zero' ℚ), zpow_natCast]
  ring
theorem magnitude_zero (e : Int) : magnitude 0 e = 0 := by simp [magnitude]
theorem magnitude_lt_iff {a b : Nat} {e : Int} : magnitude a e < magnitude b e ↔ a < b := by
  rw [magnitude, magnitude, mul_lt_mul_iff_left₀ (zpow_pos two_pos e), Nat.cast_lt]
theorem magnitude_inj {a b : Nat} {e : Int} : magnitude a e = magnitude b e ↔ a = b := by
  rw [magnitude, magnitude, mul_left_inj' (zpow_ne_zero e two_ne_zero), Nat.cast_inj]
theorem magnitude_sub {a b : Nat} (h : b ≤ a) (e : Int) : magnitude a e - magnitude b e = magnitude (a - b) e := by
  rw [magnitude, magnitude, magnitude, Nat.cast_sub h, sub_mul]
theorem magnitude_div (a b : Nat) (e : Int) : magnitude a e / magnitude b e = (a : ℚ) / b :=
  mul_div_mul_right _ _ (zpow_ne_zero e two_ne_zero)

/-! Grid points. -/

/-- The exponent of the grid's spacing at a magnitude `m * 2^e` that is not zero. -/
def Fmt.spacing (f : Fmt) (m : Nat) (e : Int) : Int := max ((Nat.log2 m : Int) + e - f.mb) f.q0
/-- 2^(q0 + d) is the grid's spacing at `l` times itself: `l` has at most the bits of a mantissa, and exactly these above the least spacing. -/
def Fmt.Spaced (f : Fmt) (d l : Nat) : Prop := l < 2 ^ (f.mb + 1) ∧ (d = 0 ∨ 2 ^ f.mb ≤ l)
theorem gridAt_subnormal {f : Fmt} {k : Nat} (h : k < 2 ^ f.mb) : gridAt f k = magnitude k f.q0 := if_pos (Nat.div_eq_of_lt h)
/-- The mantissa field `a` under the exponent field `d + 1`. -/
theorem gridAt_normal {f : Fmt} (d : Nat) {a : Nat} (h : a < 2 ^ f.mb) :
    gridAt f ((d + 1) * 2 ^ f.mb + a) = magnitude (2 ^ f.mb + a) (f.q0 + d) := by
  have hdiv : ((d + 1) * 2 ^ f.mb + a) / 2 ^ f.mb = d + 1 := by
    rw [Nat.mul_comm, Nat.mul_add_div (by positivity), Nat.div_eq_of_lt h, Nat.add_zero]
  have hmod : ((d + 1) * 2 ^ f.mb + a) % 2 ^ f.mb = a := by rw [Nat.mul_comm, Nat.mul_add_mod, Nat.mod_eq_of_lt h]
  rw [gridAt, hdiv, hmod, if_neg d.succ_ne_zero]
  congr 1
  push_cast
  ring
/-- The code of a grid point counts the steps up to it; the last step of a spacing opens the next binade. -/
theorem gridAt_steps {f : Fmt} {d l : Nat} (hl : l ≤ 2 ^ (f.mb + 1)) (hd : d = 0 ∨ 2 ^ f.mb ≤ l) :
    gridAt f (d * 2 ^ f.mb + l) = magnitude l (f.q0 + d) := by
  rw [pow_succ] at hl
  obtain hs | hn := Nat.lt_or_ge l (2 ^ f.mb)
  · obtain rfl : d = 0 := hd.resolve_right (by omega)
    simpa using gridAt_subnormal hs
  obtain ⟨a, rfl⟩ := Nat.exists_eq_add_of_le hn
  obtain ha | ha := Nat.lt_or_ge a (2 ^ f.mb)
  · rw [← gridAt_normal d ha]
    congr 1
    ring
  · obtain rfl : a = 2 ^ f.mb := by omega
    have next := gridAt_normal (f := f) (d + 1) (a := 0) (by positivity)
    rw [show d * 2 ^ f.mb + (2 ^ f.mb + 2 ^ f.mb) = (d + 1 + 1) * 2 ^ f.mb + 0 by ring, next,
      show 2 ^ f.mb + 2 ^ f.mb = (2 ^ f.mb + 0) * 2 ^ 1 by ring, magnitude_scaled]
    push_cast
    ring_nf
/-- A grid point and the next one, a step further. -/
theorem gridAt_spaced {f : Fmt} {d l : Nat} (h : f.Spaced d l) :
    gridAt f (d * 2 ^ f.mb + l) = magnitude l (f.q0 + d) ∧ gridAt f (d * 2 ^ f.mb + l + 1) = magnitude (l + 1) (f.q0 + d) :=
  ⟨gridAt_steps h.1.le h.2, gridAt_steps h.1 (h.2.imp_right Nat.le_succ_of_le)⟩

/-! The three outcomes of `Fmt.roundMag`. -/

theorem roundMag_zero (f : Fmt) (r : Rnd) (e : Int) : f.roundMag r 0 e = (0, true) := if_pos rfl
/-- The magnitude is a multiple of the spacing by its exponent alone. -/
theorem roundMag_fine {f : Fmt} {m : Nat} {e : Int} (r : Rnd) (hm : m ≠ 0) {d k : Nat} (hq : f.spacing m e = f.q0 + d) (he : e = f.q0 + d + k) :
    f.roundMag r m e = (d * 2 ^ f.mb + m * 2 ^ k, true) := by
  unfold Fmt.spacing at hq
  unfold Fmt.roundMag
  rw [if_neg hm, hq]
  dsimp only
  rw [if_pos (by omega), Nat.shiftLeft_eq, Nat.shiftLeft_eq, show (f.q0 + (d : Int) - f.q0).toNat = d by omega, show (e - (f.q0 + d)).toNat = k by omega]
/-- Does a magnitude `rem / 2^sh` of the way from grid point `lo` to the next round up? -/
def Rnd.up (r : Rnd) (lo rem sh : Nat) : Bool :=
  match r with
  | .nearest => decide (2 * rem > 2 ^ sh) || (decide (2 * rem = 2 ^ sh) && decide (lo % 2 = 1))
  | .stoch u => decide ((rem * 65536) / 2 ^ sh + u ≥ 65536)
theorem roundMag_coarse {f : Fmt} {m : Nat} {e : Int} (r : Rnd) (hm : m ≠ 0) {d k : Nat} (hq : f.spacing m e = f.q0 + d) (he : e + k = f.q0 + d)
    (hk : 0 < k) :
    f.roundMag r m e = if m % 2 ^ k = 0 then (d * 2 ^ f.mb + m / 2 ^ k, true)
      else (if r.up (m / 2 ^ k) (m % 2 ^ k) k then d * 2 ^ f.mb + m / 2 ^ k + 1 else d * 2 ^ f.mb + m / 2 ^ k, false) := by
  unfold Fmt.spacing at hq
  unfold Fmt.roundMag
  rw [if_neg hm, hq]
  have hrem : m - m / 2 ^ k * 2 ^ k = m % 2 ^ k := by
    have := Nat.div_add_mod' m (2 ^ k)
    omega
  dsimp only
  rw [if_neg (by omega), Nat.shiftLeft_eq, Nat.shiftRight_eq_div_pow, Nat.shiftLeft_eq, show (f.q0 + (d : Int) - f.q0).toNat = d by omega,
    show (f.q0 + (d : Int) - e).toNat = k by omega, hrem]
  rfl

/-! How many steps of its spacing a magnitude makes. -/

theorem exists_spacing (f : Fmt) (m : Nat) (e : Int) : ∃ d : Nat, f.spacing m e = f.q0 + d :=
  ⟨(f.spacing m e - f.q0).toNat, by unfold Fmt.spacing; omega⟩
theorem log2_of_spacing {f : Fmt} {m : Nat} {e : Int} {d : Nat} (hq : f.spacing m e = f.q0 + d) :
    (Nat.log2 m : Int) + e ≤ f.q0 + d + f.mb ∧ (d = 0 ∨ (Nat.log2 m : Int) + e = f.q0 + d + f.mb) := by
  unfold Fmt.spacing at hq
  omega
theorem spaced_fine {f : Fmt} {m : Nat} {e : Int} (hm : m ≠ 0) {d k : Nat} (hq : f.spacing m e = f.q0 + d) (he : e = f.q0 + d + k) :
    f.Spaced d (m * 2 ^ k) := by
  obtain ⟨hle, heq⟩ := log2_of_spacing hq
  constructor
  · calc m * 2 ^ k < 2 ^ (Nat.log2 m + 1) * 2 ^ k := Nat.mul_lt_mul_of_pos_right Nat.lt_log2_self (by positivity)
      _ = 2 ^ (Nat.log2 m + 1 + k) := (pow_add ..).symm
      _ ≤ 2 ^ (f.mb + 1) := Nat.pow_le_pow_right two_pos (by omega)
  · refine heq.imp_right fun heq => ?_
    calc 2 ^ f.mb = 2 ^ Nat.log2 m * 2 ^ k := by rw [← pow_add]; congr 1; omega
      _ ≤ m * 2 ^ k := Nat.mul_le_mul_right _ (Nat.log2_self_le hm)
theorem spaced_coarse {f : Fmt} {m : Nat} {e : Int} (hm : m ≠ 0) {d k : Nat} (hq : f.spacing m e = f.q0 + d) (he : e + k = f.q0 + d) :
    f.Spaced d (m / 2 ^ k) := by
  obtain ⟨hle, heq⟩ := log2_of_spacing hq
  constructor
  · rw [Nat.div_lt_iff_lt_mul (by positivity), ← pow_add]
    exact Nat.lt_log2_self.trans_le (Nat.pow_le_pow_right two_pos (by omega))
  · refine heq.imp_right fun heq => ?_
    rw [Nat.le_div_iff_mul_le (by positivity), ← pow_add, show f.mb + k = Nat.log2 m by omega]
    exact Nat.log2_self_le hm

/-! R85, for one magnitude. -/

/-- The magnitude is grid point `lo`, and every rounding answers it. -/
def Fmt.StaysAt (f : Fmt) (m : Nat) (e : Int) (lo : Nat) : Prop :=
  magnitude m e = gridAt f lo ∧ gridAt f lo < gridAt f (lo + 1) ∧ ∀ r, f.roundMag r m e = (lo, true)
/-- The magnitude is `rem / 2^k` of the way from grid point `lo` to the next, in units of `2^e`. -/
def Fmt.LiesAbove (f : Fmt) (m : Nat) (e : Int) (lo rem k : Nat) : Prop :=
  0 < rem ∧ rem < 2 ^ k ∧ magnitude m e - gridAt f lo = magnitude rem e ∧ gridAt f (lo + 1) - gridAt f lo = magnitude (2 ^ k) e ∧
    ∀ r : Rnd, f.roundMag r m e = (if r.up lo rem k then lo + 1 else lo, false)

theorem staysAt_spaced {f : Fmt} {m d l : Nat} {e : Int} (h : f.Spaced d l) (hm : magnitude m e = magnitude l (f.q0 + d))
    (hr : ∀ r, f.roundMag r m e = (d * 2 ^ f.mb + l, true)) : f.StaysAt m e (d * 2 ^ f.mb + l) := by
  obtain ⟨hlo, hhi⟩ := gridAt_spaced h
  refine ⟨hm.trans hlo.symm, ?_, hr⟩
  rw [hlo, hhi, magnitude_lt_iff]
  exact Nat.lt_succ_self l
/-- The parity of a code is that of its mantissa. -/
theorem up_code {f : Fmt} (hf : 1 ≤ f.mb) (r : Rnd) (d l rem k : Nat) : r.up (d * 2 ^ f.mb + l) rem k = r.up l rem k := by
  obtain ⟨b, hb⟩ := Nat.exists_eq_add_of_le' hf
  have : (d * 2 ^ f.mb + l) % 2 = l % 2 := by rw [hb, pow_succ, ← mul_assoc, Nat.add_mod, Nat.mul_mod_left, Nat.zero_add, Nat.mod_mod]
  cases r <;> simp only [Rnd.up, this]
/-- A magnitude stays on the grid or lies between two of its points. -/
theorem stays_or_liesAbove {f : Fmt} (hf : 1 ≤ f.mb) (m : Nat) (e : Int) : ∃ lo, f.StaysAt m e lo ∨ ∃ rem k, f.LiesAbove m e lo rem k := by
  obtain rfl | hm := eq_or_ne m 0
  · refine ⟨0 * 2 ^ f.mb + 0, .inl (staysAt_spaced ⟨by positivity, .inl rfl⟩ (by simp only [magnitude_zero]) fun r => ?_)⟩
    rw [roundMag_zero, Nat.zero_mul]
  obtain ⟨d, hq⟩ := exists_spacing f m e
  obtain he | he := le_or_gt (f.q0 + d : Int) e
  · obtain ⟨k, hk⟩ := Int.eq_ofNat_of_zero_le (Int.sub_nonneg.mpr he)
    have he : e = f.q0 + d + k := by omega
    exact ⟨_, .inl (staysAt_spaced (spaced_fine hm hq he) (by rw [magnitude_scaled, he]) fun r => roundMag_fine r hm hq he)⟩
  obtain ⟨k, hk⟩ := Int.eq_ofNat_of_zero_le (Int.sub_nonneg.mpr he.le)
  have hk : e + k = f.q0 + d := by omega
  have hround := fun r => roundMag_coarse r hm hq hk (by omega)
  have hs := spaced_coarse hm hq hk
  obtain ⟨hlo, hhi⟩ := gridAt_spaced hs
  have hsplit := Nat.div_add_mod' m (2 ^ k)
  refine ⟨d * 2 ^ f.mb + m / 2 ^ k, ?_⟩
  obtain h0 | h0 := Nat.eq_zero_or_pos (m % 2 ^ k)
  · refine .inl (staysAt_spaced hs ?_ fun r => (hround r).trans (if_pos h0))
    rw [← hk, ← magnitude_scaled]
    congr 1
    omega
  · refine .inr ⟨m % 2 ^ k, k, h0, Nat.mod_lt _ (by positivity), ?_, ?_, fun r => ?_⟩
    · rw [hlo, ← hk, ← magnitude_scaled, magnitude_sub (by omega)]
      congr 1
      omega
    · rw [hhi, hlo, ← hk, magnitude_sub (Nat.le_add_right _ 1), Nat.add_sub_cancel_left, ← magnitude_scaled, one_mul]
    · rw [hround, if_neg h0.ne', up_code hf]
/-- Between two grid points a rounding answers one of the two. -/
theorem liesAbove_roundMag {f : Fmt} {m lo rem k : Nat} {e : Int} (h : f.LiesAbove m e lo rem k) (r : Rnd) :
    f.roundMag r m e = (if r.up lo rem k then lo + 1 else lo, false) := by
  obtain ⟨-, -, -, -, hr⟩ := h
  exact hr r
/-- To nearest, in terms of the distances to the two grid points. -/
theorem nearest_up {f : Fmt} {m lo rem k : Nat} {e : Int} (h : f.LiesAbove m e lo rem k) :
    Rnd.nearest.up lo rem k = false ↔ magnitude m e - gridAt f lo < gridAt f (lo + 1) - magnitude m e ∨
      (magnitude m e - gridAt f lo = gridAt f (lo + 1) - magnitude m e ∧ lo % 2 = 0) := by
  obtain ⟨-, hlt, hlo, hhi, -⟩ := h
  have hhi : gridAt f (lo + 1) - magnitude m e = magnitude (2 ^ k - rem) e := by
    rw [← magnitude_sub hlt.le, ← hlo, ← hhi]
    ring
  rw [hlo, hhi, magnitude_lt_iff, magnitude_inj]
  simp only [Rnd.up, Bool.or_eq_false_iff, Bool.and_eq_false_iff, decide_eq_false_iff_not]
  omega
/-- Stochastically, in terms of the fraction of the way. -/
theorem stoch_up {f : Fmt} {m lo rem k : Nat} {e : Int} (u : Nat) (h : f.LiesAbove m e lo rem k) :
    (Rnd.stoch u).up lo rem k = true ↔ 65536 ≤ ⌊(magnitude m e - gridAt f lo) / (gridAt f (lo + 1) - gridAt f lo) * 65536⌋ + (u : Int) := by
  obtain ⟨-, -, hlo, hhi, -⟩ := h
  have hfrac : (magnitude m e - gridAt f lo) / (gridAt f (lo + 1) - gridAt f lo) * 65536 = ((rem * 65536 : Nat) : ℚ) / ((2 ^ k : Nat) : ℚ) := by
    rw [hlo, hhi, magnitude_div]
    push_cast
    ring
  rw [hfrac, Rat.floor_natCast_div_natCast]
  simp only [Rnd.up, decide_eq_true_eq]
  omega
/-- Between two grid points. -/
theorem liesAbove_bounds {f : Fmt} {m lo rem k : Nat} {e : Int} (h : f.LiesAbove m e lo rem k) :
    gridAt f lo < magnitude m e ∧ magnitude m e < gridAt f (lo + 1) := by
  obtain ⟨hpos, hlt, hlo, hhi, -⟩ := h
  have := magnitude_lt_iff (e := e).mpr hpos
  have := magnitude_lt_iff (e := e).mpr hlt
  rw [magnitude_zero] at *
  constructor <;> linarith

/-! R86. -/

theorem conv_inRange {f : Fmt} {r : Rnd} {m k : Nat} {e : Int} {x : Bool} (neg ovf : Bool) (h : f.roundMag r m e = (k, x)) (hk : k ≤ f.maxc) :
    f.conv r ovf (.fin neg m e) = ⟨f.sbit neg + k, { ix := !x, uf := !x && f.tiny (.fin neg m e) }, false⟩ := by
  simp [Fmt.conv, h, Nat.not_lt.mpr hk]
theorem conv_saturates {f : Fmt} {r : Rnd} {m k : Nat} {e : Int} {x : Bool} (neg : Bool) (h : f.roundMag r m e = (k, x)) (hk : f.maxc < k) :
    f.conv r false (.fin neg m e) = ⟨f.sbit neg + f.maxc, { of := true, ix := true }, true⟩ := by
  simp [Fmt.conv, h, hk]
theorem conv_toInf {f : Fmt} {r : Rnd} {m k i : Nat} {e : Int} {x : Bool} (neg : Bool) (h : f.roundMag r m e = (k, x)) (hk : f.maxc < k)
    (hi : f.infc = some i) : f.conv r true (.fin neg m e) = ⟨f.sbit neg + i, { of := true, ix := true }, true⟩ := by
  simp [Fmt.conv, h, hk, hi]
theorem conv_toNan {f : Fmt} {r : Rnd} {m k n : Nat} {e : Int} {x : Bool} (neg : Bool) (h : f.roundMag r m e = (k, x)) (hk : f.maxc < k)
    (hi : f.infc = none) (hn : f.nanc = some n) : f.conv r true (.fin neg m e) = ⟨n, { of := true, ix := true }, true⟩ := by
  simp [Fmt.conv, h, hk, hi, hn]

/-- Every element format has a mantissa, and the code of its infinity lies above its largest finite value. -/
theorem elementFormats_shape : ∀ f ∈ elementFormats, 1 ≤ f.mb ∧ ∀ i ∈ f.infc, f.maxc < i := by decide

/-- Settles O53: a magnitude stays on the grid or lies between two of its points, and there the rounding goes by the distances or by the fraction. -/
theorem convertRoundsToTheGrid : Obligations.ConvertRoundsToTheGrid := by
  intro f hf m e
  obtain ⟨hmb, -⟩ := elementFormats_shape f hf
  obtain ⟨lo, h⟩ := stays_or_liesAbove hmb m e
  have between (hne : magnitude m e ≠ gridAt f lo) : ∃ rem k, f.LiesAbove m e lo rem k := h.resolve_left fun hs => hne hs.1
  refine ⟨lo, ?lower, ?upper, ?stays, ?rounds, ?onGrid, ?converts⟩
  case lower =>
    obtain ⟨hy, -⟩ | ⟨rem, k, hl⟩ := h
    · exact hy.ge
    · exact (liesAbove_bounds hl).1.le
  case upper =>
    obtain ⟨hy, hnext, -⟩ | ⟨rem, k, hl⟩ := h
    · exact hy ▸ hnext
    · exact (liesAbove_bounds hl).2
  case stays =>
    intro hy
    obtain ⟨-, -, hr⟩ | ⟨rem, k, hl⟩ := h
    · exact hr
    · exact absurd hy (liesAbove_bounds hl).1.ne'
  case rounds =>
    intro hne
    obtain ⟨rem, k, hl⟩ := between hne
    refine ⟨?_, fun u _ => ?_⟩
    · simp only [liesAbove_roundMag hl, ← nearest_up hl]
      cases Rnd.nearest.up lo rem k <;> rfl
    · simp only [liesAbove_roundMag hl, stoch_up u hl]
  case onGrid =>
    intro neg
    obtain ⟨hy, -, hr⟩ | ⟨rem, k, hl⟩ := h
    · simp [Fmt.onGrid, hr, hy]
    · simp [Fmt.onGrid, liesAbove_roundMag hl, (liesAbove_bounds hl).1.ne']
  case converts =>
    intro neg r ovf k x h
    refine ⟨fun hk => ?_, fun hk => conv_saturates neg h hk, fun hk i hi => conv_toInf neg h hk hi, fun hk he => ?_⟩
    · rw [conv_inRange neg ovf h hk]
      exact ⟨rfl, rfl, rfl, rfl⟩
    · subst he
      exact conv_toNan neg h hk rfl rfl
end Sys2Proof.Machine
end

section
/-! SUPPORT. The codes of an element format and the numbers they decode to (R77): what a finite code decodes to is written with the spacing of its grid
point. -/

namespace Sys2Proof.Machine

/-- A number of the grid, written with its own spacing, is answered as it stands. -/
theorem roundMag_spaced {f : Fmt} {d l : Nat} (r : Rnd) (h : f.Spaced d l) : f.roundMag r l (f.q0 + d) = (d * 2 ^ f.mb + l, true) := by
  obtain ⟨hl, hd⟩ := h
  obtain rfl | h0 := eq_or_ne l 0
  · obtain rfl : d = 0 := hd.resolve_right (Nat.not_le.mpr (by positivity))
    rw [roundMag_zero, Nat.zero_mul]
  have hlog : Nat.log2 l < f.mb + 1 := (Nat.log2_lt h0).mpr hl
  have hnormal : d = 0 ∨ f.mb ≤ Nat.log2 l := hd.imp_right (Nat.le_log2 h0).mpr
  have hq : f.spacing l (f.q0 + d) = f.q0 + d := by
    unfold Fmt.spacing
    omega
  rw [roundMag_fine r h0 hq (k := 0) (by simp), pow_zero, mul_one]
/-- A finite code decodes to its sign and the steps that the code counts. -/
theorem dec_finite {f : Fmt} {c : Nat} (h : c % 2 ^ f.sb ≤ f.maxc) :
    ∃ d l : Nat, d * 2 ^ f.mb + l = c % 2 ^ f.sb ∧ f.Spaced d l ∧ f.dec c = .fin (c.testBit f.sb) l (f.q0 + d) := by
  unfold Fmt.dec
  dsimp only
  rw [if_neg (Nat.not_lt.mpr h), Nat.shiftRight_eq_div_pow]
  have hsplit := Nat.div_add_mod' (c % 2 ^ f.sb) (2 ^ f.mb)
  have hman : c % 2 ^ f.sb % 2 ^ f.mb < 2 ^ f.mb := Nat.mod_lt _ (by positivity)
  have hpow : 2 ^ (f.mb + 1) = 2 * 2 ^ f.mb := pow_succ' ..
  split
  · next hex =>
    rw [hex] at hsplit
    exact ⟨0, _, hsplit, ⟨by omega, .inl rfl⟩, by simp⟩
  · next hex =>
    obtain ⟨d, hex⟩ := Nat.exists_eq_succ_of_ne_zero hex
    rw [hex, Nat.succ_mul] at hsplit
    exact ⟨d, 2 ^ f.mb + c % 2 ^ f.sb % 2 ^ f.mb, by omega, ⟨by omega, .inr (Nat.le_add_right ..)⟩, by rw [hex]; rfl⟩
theorem dec_inf {f : Fmt} {c : Nat} (h : f.maxc < c % 2 ^ f.sb) (hi : f.infc = some (c % 2 ^ f.sb)) : f.dec c = .inf (c.testBit f.sb) := by
  unfold Fmt.dec
  exact (if_pos h).trans (if_pos hi)
theorem dec_nan {f : Fmt} {c : Nat} (h : f.maxc < c % 2 ^ f.sb) (hi : f.infc ≠ some (c % 2 ^ f.sb)) : f.dec c = .nan := by
  unfold Fmt.dec
  exact (if_pos h).trans (if_neg hi)
/-- A code is its sign bit and its magnitude. -/
theorem sbit_add_mod {f : Fmt} {c : Nat} (hc : c < 2 ^ (f.sb + 1)) : f.sbit (c.testBit f.sb) + c % 2 ^ f.sb = c := by
  have hsplit := Nat.div_add_mod' c (2 ^ f.sb)
  have htop : c / 2 ^ f.sb < 2 := Nat.div_lt_of_lt_mul (by rwa [pow_succ] at hc)
  rw [Fmt.sbit, Nat.testBit_eq_decide_div_mod_eq]
  obtain h | h : c / 2 ^ f.sb = 0 ∨ c / 2 ^ f.sb = 1 := Nat.le_one_iff_eq_zero_or_eq_one.mp (Nat.lt_succ_iff.mp htop)
  · simpa [h] using hsplit
  · simpa [h] using hsplit
theorem conv_inf {f : Fmt} {i : Nat} (r : Rnd) (neg : Bool) (hi : f.infc = some i) :
    f.conv r true (.inf neg) = ⟨f.sbit neg + i, Flags.none, false⟩ := by
  simp [Fmt.conv, hi]

/-- Settles O52: what a code decodes to is written with the spacing of its grid point, and is answered as it stands. -/
theorem elementCodesRoundTrip : Obligations.ElementCodesRoundTrip := by
  intro f hf c hc
  refine ⟨fun hfin => ?finite, fun hi => ?infinite, dec_nan⟩
  case finite =>
    obtain ⟨d, l, hcode, hs, hdec⟩ := dec_finite hfin
    have hround := fun r => roundMag_spaced r hs
    rw [hdec]
    refine ⟨rfl, congrArg Prod.snd (hround .nearest), fun r ovf => ?_⟩
    rw [conv_inRange _ ovf (hround r) (hcode ▸ hfin), hcode, sbit_add_mod hc]
    rfl
  case infinite =>
    have hdec := dec_inf ((elementFormats_shape f hf).2 _ hi) hi
    refine ⟨hdec, fun r => ?_⟩
    rw [hdec, conv_inf r _ hi, sbit_add_mod hc]
end Sys2Proof.Machine
end

section
/-! SUPPORT. Byte memories as functions of the address: runs of bytes and numbers read back, zeroed bytes, and the canonical form as the one form of
its function. -/

namespace Sys2Proof.Machine

/-! Tables in canonical form that read alike. -/

section
variable {α : Type} [DecidableEq α] {d : α}

theorem Tab.wfFrom_cons {a j : Nat} {v : α} {t : Tab α} : Tab.wfFrom d a ((j, v) :: t) = true ↔ a ≤ j ∧ v ≠ d ∧ Tab.wfFrom d (j + 1) t = true := by
  simp only [Tab.wfFrom, Bool.and_eq_true, decide_eq_true_eq, and_assoc]
omit [DecidableEq α] in
theorem Tab.get_cons_self (j : Nat) (v : α) (t : Tab α) : Tab.get d ((j, v) :: t) j = v := if_pos rfl
omit [DecidableEq α] in
theorem Tab.get_cons_above {j k : Nat} (v : α) (t : Tab α) (h : j < k) : Tab.get d ((j, v) :: t) k = Tab.get d t k := by
  rw [Tab.get, if_neg h.ne', if_neg h.not_gt]
omit [DecidableEq α] in
theorem Tab.get_cons_below {j k : Nat} (v : α) (t : Tab α) (h : k < j) : Tab.get d ((j, v) :: t) k = d := by
  rw [Tab.get, if_neg h.ne, if_pos h]
/-- A listed number does not read as the default. -/
theorem Tab.get_head_ne {a j : Nat} {v : α} {t : Tab α} (w : Tab.wfFrom d a ((j, v) :: t) = true) : Tab.get d ((j, v) :: t) j ≠ d := by
  rw [Tab.get_cons_self]
  exact (Tab.wfFrom_cons.mp w).2.1
/-- Above what the first pair lists, the rest of a table decides. -/
theorem Tab.tails_alike {j : Nat} {v : α} {t u : Tab α} (ht : Tab.wfFrom d (j + 1) t = true) (hu : Tab.wfFrom d (j + 1) u = true)
    (h : ∀ k, Tab.get d ((j, v) :: t) k = Tab.get d ((j, v) :: u) k) (k : Nat) : Tab.get d t k = Tab.get d u k := by
  obtain hk | hk := Nat.lt_or_ge k (j + 1)
  · rw [Tab.get_below hk ht, Tab.get_below hk hu]
  · simpa only [Tab.get_cons_above _ _ hk] using h k
/-- A table is determined by what it reads as. -/
theorem Tab.eq_of_get : ∀ {t u : Tab α} {a b : Nat}, Tab.wfFrom d a t = true → Tab.wfFrom d b u = true → (∀ k, Tab.get d t k = Tab.get d u k) → t = u
  | [], [], _, _, _, _, _ => rfl
  | [], (j, _) :: _, _, _, _, wu, h => absurd (h j).symm (Tab.get_head_ne wu)
  | (i, _) :: _, [], _, _, wt, _, h => absurd (h i) (Tab.get_head_ne wt)
  | (i, v) :: t, (j, w) :: u, _, _, wt, wu, h => by
    have hji : j ≤ i := Nat.not_lt.mp fun hlt => Tab.get_head_ne wt ((h i).trans (Tab.get_cons_below w u hlt))
    have hij : i ≤ j := Nat.not_lt.mp fun hlt => Tab.get_head_ne wu ((h j).symm.trans (Tab.get_cons_below v t hlt))
    obtain rfl : i = j := le_antisymm hij hji
    obtain rfl : v = w := by simpa only [Tab.get_cons_self] using h i
    obtain ⟨-, -, wt⟩ := Tab.wfFrom_cons.mp wt
    obtain ⟨-, -, wu⟩ := Tab.wfFrom_cons.mp wu
    rw [Tab.eq_of_get wt wu (Tab.tails_alike wt wu h)]
/-- Without the pairs of some numbers, these read as the default. -/
theorem Tab.get_filter (p : Nat → Bool) (k : Nat) : ∀ {t : Tab α} {a : Nat}, Tab.wfFrom d a t = true →
    Tab.get d (t.filter fun c => p c.1) k = if p k then Tab.get d t k else d
  | [], _, _ => by simp [Tab.get]
  | (j, v) :: t, _, w => by
    obtain ⟨-, -, wt⟩ := Tab.wfFrom_cons.mp w
    have ih := Tab.get_filter p k wt
    obtain hk | rfl | hk := lt_trichotomy k j
    · rw [Tab.get_cons_below v t hk, ite_self]
      rw [List.filter_cons]
      split
      · exact Tab.get_cons_below _ _ hk
      · exact Tab.get_below (Nat.lt_succ_of_lt hk) (Tab.wfFrom_filter _ wt)
    · rw [List.filter_cons]
      split
      · rw [Tab.get_cons_self, Tab.get_cons_self]
      · exact Tab.get_below (Nat.lt_succ_self _) (Tab.wfFrom_filter _ wt)
    · rw [List.filter_cons, Tab.get_cons_above v t hk]
      split
      · rw [Tab.get_cons_above _ _ hk, ih]
      · exact ih
end

/-! Runs of bytes and little-endian numbers (R78). -/

theorem Mem.rdBytes_wrBytes : ∀ (bs : List Byte) {m : Mem} (a : Nat), Memory.wf m = true → (m.wrBytes a bs).rdBytes a bs.length = bs
  | [], _, _, _ => rfl
  | b :: bs, m, a, w => by
    have w' := Memory.wf_wr a b w
    have hhead : (m.wrBytes a (b :: bs)).rd a = b := by
      rw [Mem.wrBytes, Mem.rd_wrBytes_ne bs (.inl a.lt_succ_self) w', Mem.rd_wr_self a b w]
    rw [List.length_cons, Mem.rdBytes, hhead, Mem.wrBytes, Mem.rdBytes_wrBytes bs (a + 1) w']
theorem Mem.rdLE_eq_ofLE (m : Mem) (n : Nat) : ∀ a, m.rdLE a n = ofLE (m.rdBytes a n) := by
  induction n with
  | zero => exact fun _ => rfl
  | succ n ih => intro a; rw [Mem.rdLE, ih, Mem.rdBytes, ofLE]
theorem ofLE_leBytes (n : Nat) : ∀ v, v < 256 ^ n → ofLE (leBytes n v) = v := by
  induction n with
  | zero => intro v hv; exact (Nat.lt_one_iff.mp hv).symm
  | succ n ih =>
    intro v hv
    rw [leBytes, ofLE, ih _ (Nat.div_lt_of_lt_mul (by rwa [pow_succ'] at hv)), BitVec.toNat_ofNat]
    exact Nat.mod_add_div v 256
theorem Mem.rdLE_wrLE {m : Mem} (a n v : Nat) (w : Memory.wf m = true) (hv : v < 256 ^ n) : (m.wrLE a n v).rdLE a n = v := by
  have hread := Mem.rdBytes_wrBytes (leBytes n v) a w
  rw [leBytes_length] at hread
  rw [Mem.rdLE_eq_ofLE, Mem.wrLE, hread, ofLE_leBytes n v hv]

theorem Mem.rd_zero {m : Mem} (a n k : Nat) (w : Memory.wf m = true) : (m.zero a n).rd k = if a ≤ k ∧ k < a + n then Mem.fill else m.rd k := by
  rw [Mem.rd, Mem.zero, Tab.get_filter (fun i => decide (i < a ∨ a + n ≤ i)) k w]
  by_cases hk : a ≤ k ∧ k < a + n
  · rw [if_pos hk, if_neg (by simp; omega)]
  · rw [if_neg hk, if_pos (by simp; omega)]
    rfl
/-- Memories that read alike at every address are the same data. -/
theorem Mem.eq_of_rd {m m' : Mem} (w : Memory.wf m = true) (w' : Memory.wf m' = true) (h : ∀ k, m.rd k = m'.rd k) : m = m' := Tab.eq_of_get w w' h

/-- Settles O55: each clause is the law of its operation on memories in canonical form. -/
theorem memoriesReadWhatWasWritten : Obligations.MemoriesReadWhatWasWritten := by
  intro m w
  refine ⟨fun a b => ?byte, fun a bs => ?bytes, fun a n v => Mem.rdLE_wrLE a n v w, fun a n => ?zeroed, fun m' => Mem.eq_of_rd w⟩
  case byte => exact ⟨Memory.wf_wr a b w, Mem.rd_wr_self a b w, fun k hk => Mem.rd_wr_ne b hk w⟩
  case bytes => exact ⟨Memory.wf_wrBytes bs a w, Mem.rdBytes_wrBytes bs a w, fun k hk => Mem.rd_wrBytes_ne bs hk w⟩
  case zeroed => exact ⟨Memory.wf_zero a n w, fun k => Mem.rd_zero a n k w⟩
end Sys2Proof.Machine
end

section
/-! SUPPORT. The optimiser and capsule commands on the states that the statement about them names: one equation each (R96, R97, R239 to R241, R255,
R269 to R274, R342, R355). -/

namespace Sys2Proof.Machine

/-! Changes that apply at once or at the next step start (R342). -/

theorem deferOr_now {c : Nat} {job : Job} {d : Deferred} {s : State} (h : (s.ctx c).inStep = false) :
    deferOr c job d s = .done stOk d.detail (s.onCtx c (fun x => x.applyDef d)) :=
  if_neg (by simp [h])
theorem deferOr_later {c : Nat} {job : Job} {d : Deferred} {s : State} (h : (s.ctx c).inStep = true) :
    deferOr c job d s = .accept stDeferred job c 0 (fun id s => s.onCtx c (fun x => { x with deferred := x.deferred ++ [(d, id)] })) s :=
  if_pos h
/-- A command that reads through its data reference, which R344 admits, and whose input can be read. -/
theorem withInput_ok {h : Hdr} {x : DRef} {s u : State} {ok : Bool} {b : List Byte} (k : State → List Byte → Verdict) (hx : s.refBad h.src x = none)
    (hr : h.rsv = true) (ho : ok = true) (hl : s.ha.cxl = true) (hb : s.readRef x h.ctx h.tag = (u, .ok b)) : withInput h x s ok k = k u b := by
  unfold withInput
  rw [withRef_ok _ hx hr ho hl, hb]

/-! The parcel map and the scale tables (R96, R241). -/

theorem State.ctx_onCtx_self {s : State} {c : Nat} (f : Ctx → Ctx) (w : Tab.wf {} s.ctxs = true) : (s.onCtx c f).ctx c = f (s.ctx c) := Tab.get_upd_self c f w
/-- The routes of a context are those of its pod configuration, new or old. -/
theorem linksTo_onCtx {s : State} {c n : Nat} {f : Ctx → Ctx} (w : Tab.wf {} s.ctxs = true) (h : (f (s.ctx c)).oldPod = (s.ctx c).oldPod) :
    (s.onCtx c f).linksTo c n = s.linksTo c n := by
  unfold State.linksTo State.cfgFor
  rw [State.ctx_onCtx_self f w, h]
  rfl
/-- Without a route to a buddy a map that R241 admits is in force at once, unless the buddy's report stands against it. -/
theorem takeMap_alone {c id : Nat} {m : List Nat × List PEnt} {s : State} (w : Tab.wf {} s.ctxs = true) (hm : s.mapFine c m = true) (hl : s.linksTo c 65 = []) :
    s.takeMap c id m = if m.2.any (fun e => decide (e.owner = s.myPos) && !Config.buddyHolds s.clk.beat c e.bext) = true then s.finish id stBadParam 0
      else (s.onCtx c (fun x => x.withMap s.myPos m)).finish id stOk 0 := by
  have hroute : (s.onCtx c (fun x => x.withMap s.myPos m)).linksTo c 65 = [] := (linksTo_onCtx w rfl).trans hl
  unfold State.takeMap
  dsimp only
  rw [hroute]
  simp [hm]
theorem takeScales_current {c first : Nat} {v : List Nat} {s : State} (h : v.all (fun n => decide (n ≤ wMax (s.ctx c).e4m3)) = true) :
    s.takeScales c first 1 v =
      (s.onCtx c (fun x => { x with scaleCur := v.zipIdx.foldl (fun (t : Tab Nat) q => t.set 0x7F (first + q.2) q.1) x.scaleCur }), stOk, 0) := by
  have hfit : ¬ v.any (fun n => decide (wMax (s.ctx c).e4m3 < n)) = true := by simpa using h
  unfold State.takeScales
  rw [if_neg hfit]
  rfl
/-- What a range lists is not of another owner where all of it is the module's own. -/
theorem not_any_other_owner {ps : List (Nat × PEnt)} {me : Nat} (h : ps.all (fun q => decide (q.2.owner = me)) = true) :
    ¬ ps.any (fun q => decide (q.2.owner ≠ me)) = true := by
  simpa using h

/-! Capsules (R273, R274). -/

theorem sealCapsule_read {c tag first count : Nat} {recips : List (List Byte)} {x : DRef} {l : List (Nat × List Byte)} {k : State × List Byte} {s u : State}
    (hl : s.readStates c ((s.ctx c).range first count) = (u, .ok l))
    (hk : u.capsule c first count recips (((s.ctx c).range first count).any (fun q => grBf ((s.ctx c).groupOf q.2))) ((s.ctx c).payload l) = k) :
    s.sealCapsule c tag first count recips x = ((k.1.writeRef x (k.2 ++ k.1.tr.certs)).1, (k.1.writeRef x (k.2 ++ k.1.tr.certs)).2.1,
      (k.1.writeRef x (k.2 ++ k.1.tr.certs)).2.2) := by
  subst hk
  unfold State.sealCapsule
  dsimp only
  rw [hl]
  rfl
theorem takeCapsule_unfit {c id : Nat} {b : List Byte} {s : State} (h : (s.ctx c).capsuleFits s.myPos b = false) :
    s.takeCapsule c id b = s.finish id stBadParam 0 := if_pos h
theorem takeCapsule_unopened {c id : Nat} {b : List Byte} {s : State} (h : (s.ctx c).capsuleFits s.myPos b = true)
    (hn : s.tr.openCapsule (b.take ((s.ctx c).capsuleLen b)) (b.drop ((s.ctx c).capsuleLen b)) = none) :
    s.takeCapsule c id b = s.finish id stDenied 0 := by
  unfold State.takeCapsule
  dsimp only
  rw [if_neg (by simp [h]), hn]

/-- Settles O35: a packet that comes is answered by its command's own part, whose checks are passed or failed as the clause says. -/
theorem optimiserCommandsComplete : Obligations.OptimiserCommandsComplete := by
  refine ⟨?config, ?configLater, ?map, ?mapTaken, ?scales, ?scalesTaken, ?group, ?groupNone, ?freeze, ?init, ?initDenied, ?norms, ?audit, ?hostDone,
    ?hostDenied, ?sealNow, ?sealDenied, ?sealed, ?opens, ?opensDenied, ?unfit, ?unopened⟩
  case config =>
    intro h flags hr sat down s t hf hc h1 h2 h3 h4 h5 h6 hs
    rw [exec_of_fits hf (exec_optConfig ..), doOptConfig, packet_comes hc, check6_ok _ (rsv_of_comes hc) (by simp [h1, h2, h3, h4, h5, h6]),
      deferOr_now hs, apply_done]
    rfl
  case configLater =>
    intro h flags hr sat down s t hf hc h1 h2 h3 h4 h5 h6 hs
    rw [exec_of_fits hf (exec_optConfig ..), doOptConfig, packet_comes hc, check6_ok _ (rsv_of_comes hc) (by simp [h1, h2, h3, h4, h5, h6]), deferOr_later hs]
  case map =>
    intro h count x s t hf hc hx hl h1 h2 hb
    rw [exec_of_fits hf (exec_optParcelMap ..), doOptParcelMap, packet_comes hc,
      withRef_ok _ hx (rsv_of_comes hc) (by rw [decide_eq_true h1, decide_eq_true h2]; rfl) hl,
      if_neg (by simp [hb]), apply_accepted]
  case mapTaken => exact fun c id m s w hm hl => takeMap_alone w hm hl
  case scales =>
    intro h first tables count x s t hf hc hx hl h1 h2 h3 hb
    rw [exec_of_fits hf (exec_optScaleLoad ..), doOptScaleLoad, packet_comes hc, withRef_ok _ hx (rsv_of_comes hc) (by simp [h1, h2, h3]) hl,
      if_neg (by simp [hb]), apply_acceptNow]
  case scalesTaken => exact fun c first v s h => takeScales_current h
  case group =>
    intro h group r s t hf hc hr h1 h2 h3 hg hs
    rw [exec_of_fits hf (exec_optGroup ..), doOptGroup, packet_comes hc, if_neg (by simp [hr]), check6_ok _ (rsv_of_comes hc) (by simp [h1, h2, h3]),
      if_neg (by simpa using hg), deferOr_now hs, apply_done]
    rfl
  case groupNone =>
    intro h group r s t hf hc hr h1 h2 h3 hg
    rw [exec_of_fits hf (exec_optGroup ..), doOptGroup, packet_comes hc, if_neg (by simp [hr]), check6_ok _ (rsv_of_comes hc) (by simp [h1, h2, h3]),
      if_pos (by simp [hg]), apply_refuse]
  case freeze =>
    intro h count x b s t u hf hc hx hl h1 h2 hb hs
    rw [exec_of_fits hf (exec_optFreeze ..), doOptFreeze, packet_comes hc, withInput_ok _ hx (rsv_of_comes hc) (by simp [h1, h1 ▸ h2]) hl hb,
      deferOr_now hs, apply_done]
    rfl
  case init =>
    rintro h first flags count x _ s t hf hc rfl h1 ho hx hl h2 h3 hb
    rw [exec_of_fits hf (exec_optStateInit ..), doOptStateInit, packet_comes hc, if_neg (fun hd => not_any_other_owner ho hd.2),
      withRef_ok _ hx (rsv_of_comes hc) (by simp [h1, h2, h3]) hl, if_neg (by simp [hb]), apply_accepted]
  case initDenied =>
    intro h first flags count x s t hf hc h1 ho
    rw [exec_of_fits hf (exec_optStateInit ..), doOptStateInit, packet_comes hc, if_pos ⟨h1, ho⟩, apply_refuse]
  case norms =>
    intro h step x r s t hf hc hx hl hr
    rw [exec_of_fits hf (exec_optNorms ..), doOptNorms, packet_comes hc]
    dsimp only
    rw [hr]
    exact congrArg Host.Outcome.next (writeOut_ok _ _ hx (rsv_of_comes hc) rfl hl)
  case audit =>
    intro h first flags count ds s t hf hc h1 h2 hb
    rw [exec_of_fits hf (exec_optAudit ..), doOptAudit, packet_comes hc, check6_ok _ (rsv_of_comes hc) (by simp [h1, h2]), if_neg (by simp [hb]), apply_acceptNow]
  case hostDone =>
    intro h parcel attempt step e b s t u hf hc ha ho hs he hb
    rw [exec_of_fits hf (exec_optHostDone ..), doOptHostDone, packet_comes hc]
    dsimp only
    rw [if_neg (by simp [ha]), check6_ok _ (rsv_of_comes hc) (by rw [ho, hs]; simp), he]
    dsimp only
    rw [hb, afterRead, apply_done]
  case hostDenied =>
    intro h parcel attempt step s t hf hc ha
    rw [exec_of_fits hf (exec_optHostDone ..), doOptHostDone, packet_comes hc, if_pos ha, apply_refuse]
  case sealNow =>
    rintro h first count recips x _ s t hf hc he rfl ho hx hl h1 h2 h3 hs hd
    rw [exec_of_fits hf (exec_capsuleSeal ..), doCapsuleSeal, packet_comes hc, if_neg, withRef_ok _ hx (rsv_of_comes hc) (by simp [h1, h2, h3]) hl,
      if_neg (by simp [hs]), if_neg (Nat.not_lt.mpr hd), apply_acceptNow]
    rintro (hn | hd)
    · simp [he] at hn
    · exact not_any_other_owner ho hd.2
  case sealDenied =>
    intro h first count recips x s t hf hc he
    rw [exec_of_fits hf (exec_capsuleSeal ..), doCapsuleSeal, packet_comes hc, if_pos (.inl he), apply_refuse]
  case sealed => exact fun c tag first count recips x l k s u hl hk => sealCapsule_read hl hk
  case opens =>
    intro h x s t hf hc hi hx hl
    rw [exec_of_fits hf (exec_capsuleOpen ..), doCapsuleOpen, packet_comes hc, if_neg (by simp [hi]), withRef_ok _ hx (rsv_of_comes hc) rfl hl, apply_accepted]
  case opensDenied =>
    intro h x s t hf hc hi
    rw [exec_of_fits hf (exec_capsuleOpen ..), doCapsuleOpen, packet_comes hc, if_pos hi, apply_refuse]
  case unfit => exact fun c id b s h => takeCapsule_unfit h
  case unopened => exact fun c id b s h hn => takeCapsule_unopened h hn
end Sys2Proof.Machine
end

section
/-! SUPPORT. The units of VCL, VRN, VRS and VRL: done where the words, elements and places they name can be accessed, and the statement that the four
instructions complete (R101, R103, R112, R115 to R118). -/

namespace Sys2Proof.Machine

/-! The words of VCL, VRS and VRL (R101, R112). -/

/-- An instruction whose one operand is a stream of words, all there, finds each of them while its units are done. -/
theorem flying_words {h : IHdr} {ti : TI} {n c ag : Nat} {s : State} (hg : ti.gens (lowered h (tileNow h s)) = [(0, ag)])
    (hw : wordsThere (tileNow h s) (genNow h ag s) c = true) : (flying h ti n s).2.snap 0 = genNow h ag s ∧ (genNow h ag s).qm = false ∧
      ∀ k < c, rowThere (flying h ti n s).1.quiet ((genNow h ag s).start + 32 * k) 32 = true := by
  obtain ⟨hq, hw⟩ := wordsThere_at hw
  obtain ⟨hmap, -⟩ := flying_tile h ti n s
  exact ⟨flying_snap _ _ _ _ _ _ (by simp [hg]) (by simp [hg]), hq, fun k hk => (rowThere_map hmap _ _).trans (hw k hk)⟩
/-- The units of an instruction are done where each of them, on a tile with the same map and flags and no error, is done, keeps all three and leaves the
instruction's record as it was. -/
theorem unitsDone_of_steady {h : IHdr} {ti : TI} {n : Nat} {s : State} (hp : cleanPad (tileNow h s) = true) (hr : canRise h (lowered h (tileNow h s)) = true)
    (hpre : ∀ t k d b, ({ (flying h ti n s).2 with unit := k, data := d, buf := b } : Op).prefetch t = (t, { (flying h ti n s).2 with unit := k, data := d, buf := b }))
    (hs : ∀ t k d b, k < n → Sound (flying h ti n s).1.quiet t → (unitOp t { (flying h ti n s).2 with unit := k, data := d, buf := b }).lands
      (fun u y => y = { (flying h ti n s).2 with unit := k, data := d, buf := b } ∧ Sound (flying h ti n s).1.quiet u)) :
    ∃ u, unitsDone h ti n s u ∧ canRise h u = true :=
  units_land h ti n s (fun _ t _ _ => Sound (flying h ti n s).1.quiet t) (fun t k d b _ => hpre t k d b) (flying_sound h ti n s hp)
    (fun k t d b hk ht => UR.lands_mono (hs t k d b hk ht) (fun _ _ hy => ⟨d, b, hy⟩)) (fun _ _ _ ht => ht) hr
theorem vrs_unitsDone {h : IHdr} {b c n ag : Nat} {s : State} (hp : cleanPad (tileNow h s) = true) (hr : canRise h (lowered h (tileNow h s)) = true)
    (hw : wordsThere (tileNow h s) (genNow h ag s) n = true) : ∃ u, unitsDone h (.vrs b c ag) n s u ∧ canRise h u = true := by
  obtain ⟨hsnap, hq, hw⟩ := flying_words (ti := .vrs b c ag) (n := n) rfl hw
  exact unitsDone_of_steady hp hr (fun _ _ _ _ => rfl) fun t k _ _ hk ht => unitVrs_lands ht ((congrArg Snap.qm hsnap).trans hq) (hsnap ▸ hw k hk)
theorem vrl_unitsDone {h : IHdr} {b c n ag : Nat} {s : State} (hp : cleanPad (tileNow h s) = true) (hr : canRise h (lowered h (tileNow h s)) = true)
    (hw : wordsThere (tileNow h s) (genNow h ag s) n = true) : ∃ u, unitsDone h (.vrl b c ag) n s u ∧ canRise h u = true := by
  obtain ⟨hsnap, hq, hw⟩ := flying_words (ti := .vrl b c ag) (n := n) rfl hw
  exact unitsDone_of_steady hp hr (fun _ _ _ _ => rfl) fun t k _ _ hk ht => unitVrl_lands ht ((congrArg Snap.qm hsnap).trans hq) (hsnap ▸ hw k hk)
/-- The first `n` words of 32 bytes that VCL reads through `p`, each as a number. -/
def chainWords (t : Tile) (p : Snap) (n : Nat) : List Nat := (List.range n).map (fun (k : Nat) => ofLE (t.mem.rdBytes (p.start + 32 * (k : Int)).toNat 32))
theorem chainWords_succ (t : Tile) (p : Snap) (n : Nat) :
    chainWords t p (n + 1) = chainWords t p n ++ [ofLE (t.mem.rdBytes (p.start + 32 * (n : Int)).toNat 32)] := by
  simp [chainWords, List.range_succ]
theorem chainRead_eq (t : Tile) (p : Snap) : chainRead t p = (chainWords t p 4).zipIdx.foldl (fun a q => a + q.1 * 2 ^ (256 * q.2)) 0 := rfl
/-- VCL gathers its words one by one; the fourth makes the configuration, which is judged then. -/
theorem vcl_unitsDone {h : IHdr} {k ag : Nat} {s : State} (hp : cleanPad (tileNow h s) = true) (hr : canRise h (lowered h (tileNow h s)) = true)
    (hw : wordsThere (tileNow h s) (genNow h ag s) 4 = true) (hv : chainValid (chainRead (tileNow h s) (genNow h ag s)) = true) :
    ∃ u, unitsDone h (.vcl k ag) 4 s u ∧ canRise h u = true := by
  obtain ⟨hsnap, hq, hw⟩ := flying_words (ti := .vcl k ag) (n := 4) rfl hw
  obtain ⟨-, -, -, hmem, -⟩ := flying_tile h (.vcl k ag) 4 s
  refine units_land h _ 4 s (fun i t d _ => Sound (flying h (.vcl k ag) 4 s).1.quiet t ∧ t.mem = (flying h (.vcl k ag) 4 s).1.quiet.mem ∧
      d = chainWords (tileNow h s) (genNow h ag s) i)
    (fun _ _ _ _ _ => rfl) ⟨flying_sound h _ 4 s hp, rfl, rfl⟩ (fun i t d b hi ⟨ht, hm, hd⟩ => ?_) (fun _ _ _ ht => ht.1) hr
  have hword : d ++ [ofLE ((flying h (.vcl k ag) 4 s).1.quiet.mem.rdBytes ((genNow h ag s).start + 32 * (i : Int)).toNat 32)] =
      chainWords (tileNow h s) (genNow h ag s) (i + 1) := by rw [hd, hmem, chainWords_succ]
  refine UR.lands_mono (unitVcl_lands ht hm ((congrArg Snap.qm hsnap).trans hq) (hsnap ▸ hw i hi) (fun hlast => ?_)) (fun u y ⟨hy, hS, hm⟩ => ?_)
  · obtain rfl : i = 3 := Nat.succ.inj hlast
    simp only [snap_atUnit, hsnap]
    rw [hword, ← chainRead_eq]
    exact hv
  · simp only [snap_atUnit, hsnap, hword] at hy
    exact ⟨_, b, hy, hS, hm, rfl⟩

/-! The groups of VRN (R115 to R118, R120). -/

/-- A run that takes no words from queues has none to gather before a group. -/
theorem prefetch_of_loadWords_nil {t : Tile} {o : Op} (h : loadWords o (chStages (o.data.headD 0)) = []) : o.prefetch t = (t, o) := by
  unfold Op.prefetch
  split
  · rw [h]; rfl
  · rfl
/-- A run in flight holds the configuration of its slot and VC_LEN as they stood at issue. -/
theorem flying_vrn (h : IHdr) (k : Nat) (ovl : Bool) (n : Nat) (s : State) :
    (flying h (.vrn k ovl) n s).2.data = [(tileNow h s).chain.get 0 k] ∧ (flying h (.vrn k ovl) n s).2.len = (tileNow h s).vcLen := by
  simp [flying, mkOp]
/-- Each generator of a run's stages is an operand of its own, captured under the generator's number. -/
theorem vrn_snap {h : IHdr} {k n : Nat} {ovl : Bool} {s : State} {x : Stage} (hx : x ∈ chStages ((tileNow h s).chain.get 0 k)) {a : Nat} (ha : a ∈ stageAgs x) :
    (flying h (.vrn k ovl) n s).2.snap a = genNow h a s := by
  refine flying_snap _ _ _ _ _ _ (fun p hp hk => ?_) ?_
  · obtain ⟨b, -, rfl⟩ := List.mem_map.mp hp
    exact hk
  · rw [TI.gens, lowered_chain]
    exact List.mem_map.mpr ⟨a, List.mem_flatMap.mpr ⟨x, hx, ha⟩, rfl⟩
theorem stagesThere_map {t u : Tile} (h : u.map = t.map) (g : Nat → Snap) (len : Nat) (ss : List Stage) :
    ∀ packed, stagesThere u g len packed ss = stagesThere t g len packed ss := by
  induction ss with
  | nil => intro _; rfl
  | cons x ss ih => intro packed; simp only [stagesThere, ih, elemsThere_map h, packThere_map h]
/-- The units of a run are done where it has no more groups of 64 than VC_LEN asks for: every group then reads and stores elements below VC_LEN. -/
theorem vrn_unitsDone {h : IHdr} {k n : Nat} {ovl : Bool} {s : State} (hp : cleanPad (tileNow h s) = true) (hr : canRise h (lowered h (tileNow h s)) = true)
    (hn : n ≤ ((tileNow h s).vcLen + 63) / 64)
    (hs : stagesThere (tileNow h s) (fun a => genNow h a s) (tileNow h s).vcLen none (chStages ((tileNow h s).chain.get 0 k)) = true) :
    ∃ u, unitsDone h (.vrn k ovl) n s u ∧ canRise h u = true := by
  obtain ⟨hdata, hlen⟩ := flying_vrn h k ovl n s
  obtain ⟨hmap, -⟩ := flying_tile h (.vrn k ovl) n s
  rw [← stagesThere_map hmap, ← hlen] at hs
  rw [← hlen] at hn
  have hsnap : ∀ x ∈ chStages ((tileNow h s).chain.get 0 k), ∀ a ∈ stageAgs x, (flying h (.vrn k ovl) n s).2.snap a = genNow h a s := fun _ hx _ ha => vrn_snap hx ha
  refine units_land h _ n s (fun _ t d _ => Sound (flying h (.vrn k ovl) n s).1.quiet t ∧ d = [(tileNow h s).chain.get 0 k])
    (fun t i d b ⟨_, hd⟩ => ?_) ⟨flying_sound h _ n s hp, hdata⟩ (fun i t d b hi ⟨ht, hd⟩ => ?_) (fun _ _ _ ht => ht.1) hr
  · subst hd
    exact prefetch_of_loadWords_nil (loadWords_nil _ none hsnap hs)
  · exact UR.lands_mono (unitVrn_lands ht hd hsnap hs (hi.trans_le hn)) (fun u y ⟨⟨b', hy⟩, hS⟩ => ⟨d, b', hy, hS, hd⟩)

/-- Settles O16: the units of each instruction are done where its operands are there; a run's slot has a stage, so the run goes into flight. -/
theorem vectorInstructionsLand : Obligations.VectorInstructionsLand := by
  refine ⟨?vcl, ?vrn, ?vrs, ?vrl⟩
  case vcl =>
    intro h k ag s hR hw hv
    exact Ready.lands hR (exec_vcl ..) rfl rfl rfl fun hp hr => vcl_unitsDone hp hr hw hv
  case vrn =>
    intro h k ovl s hR hn hs
    refine Ready.lands hR (exec_vrn ..) ?_ ?_ rfl fun hp hr => vrn_unitsDone hp hr le_rfl hs
    · rw [TI.units, lowered_vcLen]
    · rw [TI.noStage, lowered_chain, decide_eq_false hn]
  case vrs =>
    intro h b n ag s hR hw
    exact Ready.lands hR (exec_vrs ..) rfl rfl rfl fun hp hr => vrs_unitsDone hp hr hw
  case vrl =>
    intro h b n ag s hR hw
    exact Ready.lands hR (exec_vrl ..) rfl rfl rfl fun hp hr => vrl_unitsDone hp hr hw
end Sys2Proof.Machine
end

section
/-! SUPPORT. The units of SRD, GET, PUT, GTH, SCT and PGL: done where the rows and words they name can be accessed, their indices are skips or below LIMIT
and their channel holds the flits, or has room for them; and the statement that the six instructions complete (R134 to R136, R140, R144). -/

namespace Sys2Proof.Machine

/-- An instruction that names a generator once for each operand captured each operand from the generator named for it. -/
theorem flying_snap_of_nodup {h : IHdr} {ti : TI} {n k a : Nat} {s : State} (hd : ((ti.gens (lowered h (tileNow h s))).map Prod.fst).Nodup)
    (hin : (k, a) ∈ ti.gens (lowered h (tileNow h s))) : (flying h ti n s).2.snap k = genNow h a s :=
  flying_snap _ _ _ _ _ _ (fun _ hp hk => congrArg Prod.snd (List.inj_on_of_nodup_map hd hp hin hk)) hin

/-! SRD (R140): one word, written where its generator stands, in queue mode or not. -/

theorem unitSrd_lands {T t : Tile} {o : Op} {r ag : Nat} (ho : o.ti = .srd r ag) (h : Sound T t) (hr : rowThere T (o.snap 0).start 32 = true) :
    (unitOp t o).lands (fun u y => y = o ∧ Sound T u) := by
  have ⟨hmap, hclean, _⟩ := h
  unfold unitOp
  rw [ho]
  refine UR.lands_bind (wrRow_clean 3 _ t _ _ _ hclean rfl ?_) (fun u _ hu => ⟨rfl, h.written hu⟩)
  rwa [leBytes_length, rowThere_map hmap]
theorem srd_unitsDone {h : IHdr} {r ag : Nat} {s : State} (hp : cleanPad (tileNow h s) = true) (hr : canRise h (lowered h (tileNow h s)) = true)
    (hw : rowThere (tileNow h s) (genNow h ag s).start 32 = true) : ∃ u, unitsDone h (.srd r ag) 1 s u ∧ canRise h u = true := by
  obtain ⟨hmap, -⟩ := flying_tile h (.srd r ag) 1 s
  have hsnap : (flying h (.srd r ag) 1 s).2.snap 0 = genNow h ag s := flying_snap_of_nodup (by simp [TI.gens]) (by simp [TI.gens])
  refine unitsDone_of_steady hp hr (fun _ _ _ _ => rfl) fun t k _ _ _ ht => unitSrd_lands rfl ht ?_
  rw [rowThere_map hmap]
  exact hsnap ▸ hw

/-! GET, PUT and PGL (R135, R144): one flit for each unit. -/

/-- An instruction whose one operand is a stream of flits, all there, finds each of them while its units are done. -/
theorem flying_rows {h : IHdr} {ti : TI} {n c ag : Nat} {s : State} (hg : ti.gens (lowered h (tileNow h s)) = [(0, ag)])
    (hrows : rowsThere (tileNow h s) (genNow h ag s) c (fun _ => 64) = true) : ((flying h ti n s).2.snap 0).qm = false ∧
      ∀ k < c, rowThere (flying h ti n s).1.quiet (((flying h ti n s).2.snap 0).rowAddr k) 64 = true := by
  obtain ⟨hq, hrows⟩ := rowsThere_at hrows
  obtain ⟨hmap, -⟩ := flying_tile h ti n s
  rw [flying_snap_of_nodup (by simp [hg]) (show (0, ag) ∈ ti.gens (lowered h (tileNow h s)) by simp [hg])]
  exact ⟨hq, fun k hk => (rowThere_map hmap _ _).trans (hrows k hk)⟩
/-- The inbound channel `ch` of `t` holds a flit for each of the units after the first `k` of `n`. -/
def Supplied (ch n k : Nat) (t : Tile) : Prop := k < n → n ≤ k + (t.ic.get [] ch).length
theorem Supplied.ne_nil {ch n k : Nat} {t : Tile} (h : Supplied ch n k t) (hk : k < n) : t.ic.get [] ch ≠ [] := by
  have hlen := h hk
  exact fun e => by simp [e] at hlen; omega
/-- A unit that takes a flit leaves those of the units after it. -/
theorem Supplied.next {ch n k : Nat} {t u : Tile} (h : Supplied ch n k t) (hu : u.ic = t.ic.set [] ch (t.ic.get [] ch).tail) : Supplied ch n (k + 1) u := by
  intro hk
  have hlen := h (by omega)
  have hleft := icLeft (ic := t.ic) (ch := ch) (m := n - (k + 1)) (by omega) (by omega)
  rw [hu]
  omega
theorem get_unitsDone {h : IHdr} {ch ag n : Nat} {s : State} (hp : cleanPad (tileNow h s) = true) (hr : canRise h (lowered h (tileNow h s)) = true)
    (hrows : rowsThere (tileNow h s) (genNow h ag s) n (fun _ => 64) = true) (hi : n ≤ ((tileNow h s).ic.get [] ch).length) :
    ∃ u, unitsDone h (.get ch ag n) n s u ∧ canRise h u = true := by
  obtain ⟨-, -, -, -, hic, -⟩ := flying_tile h (.get ch ag n) n s
  obtain ⟨hq, hrows⟩ := flying_rows (ti := .get ch ag n) (n := n) rfl hrows
  refine units_land h _ n s (fun k t _ _ => Sound (flying h (.get ch ag n) n s).1.quiet t ∧ Supplied ch n k t) (fun _ _ _ _ _ => rfl)
    ⟨flying_sound h _ n s hp, fun _ => by rwa [hic, Nat.zero_add]⟩ (fun k t d b hk ⟨ht, hs⟩ => ?_) (fun _ _ _ ht => ht.1) hr
  exact UR.lands_mono (unitGet_lands ht hq (hrows k hk) (hs.ne_nil hk)) fun u y ⟨hy, hS, hu⟩ => ⟨d, b, hy, hS, hs.next hu⟩
theorem pgl_unitsDone {h : IHdr} {ch off n : Nat} {fin : Bool} {s : State} (hp : cleanPad (tileNow h s) = true)
    (hr : canRise h (lowered h (tileNow h s)) = true) (hi : n ≤ ((tileNow h s).ic.get [] ch).length) :
    ∃ u, unitsDone h (.pgl ch off n fin) n s u ∧ canRise h u = true := by
  obtain ⟨-, -, -, -, hic, -⟩ := flying_tile h (.pgl ch off n fin) n s
  refine units_land h _ n s (fun k t _ _ => Sound (flying h (.pgl ch off n fin) n s).1.quiet t ∧ Supplied ch n k t) (fun _ _ _ _ _ => rfl)
    ⟨flying_sound h _ n s hp, fun _ => by rwa [hic, Nat.zero_add]⟩ (fun k t d b hk ⟨ht, hs⟩ => ?_) (fun _ _ _ ht => ht.1) hr
  exact UR.lands_mono (unitPgl_lands ht (hs.ne_nil hk)) fun u y ⟨hy, hS, hu⟩ => ⟨d, b, hy, hS, hs.next hu⟩
theorem put_unitsDone {h : IHdr} {ch ag n : Nat} {s : State} (hp : cleanPad (tileNow h s) = true) (hr : canRise h (lowered h (tileNow h s)) = true)
    (hrows : rowsThere (tileNow h s) (genNow h ag s) n (fun _ => 64) = true) (hroom : ((tileNow h s).oc.get [] ch).length + n ≤ 16) :
    ∃ u, unitsDone h (.put ch ag n) n s u ∧ canRise h u = true := by
  obtain ⟨-, -, -, -, -, hoc, -⟩ := flying_tile h (.put ch ag n) n s
  obtain ⟨hq, hrows⟩ := flying_rows (ti := .put ch ag n) (n := n) rfl hrows
  refine units_land h _ n s (fun k t _ _ => Sound (flying h (.put ch ag n) n s).1.quiet t ∧
      (t.oc.get [] ch).length = ((tileNow h s).oc.get [] ch).length + k) (fun _ _ _ _ _ => rfl)
    ⟨flying_sound h _ n s hp, by rw [hoc, Nat.add_zero]⟩ (fun k t d b hk ⟨ht, hlen⟩ => ?_) (fun _ _ _ ht => ht.1) hr
  refine UR.lands_mono (unitPut_lands ht hq (hrows k hk) (by omega)) fun u y ⟨hy, hS, x, hu⟩ => ⟨d, b, hy, hS, ?_⟩
  rw [hu, ocMore, hlen, Nat.add_assoc]

/-! GTH and SCT (R136): `roww` words for each index, two words to a flit. -/

/-- The operands of a gather and of a scatter, each captured from the generator its field names. -/
theorem gth_snap {h : IHdr} {f : GthF} {n k a : Nat} {s : State} (hin : (k, a) ∈ (TI.gth f).gens (lowered h (tileNow h s))) :
    (flying h (.gth f) n s).2.snap k = genNow h a s :=
  flying_snap_of_nodup (by rw [TI.gens]; split <;> simp) hin
theorem sct_snap {h : IHdr} {f : SctF} {n k a : Nat} {s : State} (hin : (k, a) ∈ (TI.sct f).gens (lowered h (tileNow h s))) :
    (flying h (.sct f) n s).2.snap k = genNow h a s :=
  flying_snap_of_nodup (by rw [TI.gens]; split <;> simp) hin
theorem indexedThere_at {t : Tile} {p q : Snap} {iw32 : Bool} {limit roww n : Nat} (h : indexedThere t p q iw32 limit roww n = true) :
    isSkip iw32 (indexAt t p iw32 n) = true ∨
      (indexAt t p iw32 n < limit ∧ rowThere t (q.start + (indexAt t p iw32 n : Int) * q.step) (32 * roww) = true) := by
  simpa [indexedThere] using h
theorem indexAt_mem {t u : Tile} (h : u.mem = t.mem) (p : Snap) (iw32 : Bool) (n : Nat) : indexAt u p iw32 n = indexAt t p iw32 n := by
  simp [indexAt, h]
/-- The word after word `k` is the first of the next row, or the next one of the same row. -/
theorem next_word (k : Nat) {w : Nat} (hw : 1 ≤ w) : (k + 1) % w = 0 ∨ ((k + 1) % w = k % w + 1 ∧ (k + 1) / w = k / w) := by
  have hk : k + 1 = w * (k / w) + (k % w + 1) := by rw [← Nat.add_assoc, Nat.div_add_mod]
  obtain he | hlt : k % w + 1 = w ∨ k % w + 1 < w := Nat.eq_or_lt_of_le (Nat.mod_lt k hw)
  · left
    rw [hk, he, Nat.mul_add_mod, Nat.mod_self]
  · right
    rw [hk, Nat.mul_add_mod, Nat.mod_eq_of_lt hlt, Nat.mul_add_div hw, Nat.div_eq_of_lt hlt]
    exact ⟨rfl, rfl⟩

/-- What the words of a gather leave for those after them: the index of a row begun, and room in the channel for the flits to come. The indices are
read as they stood at issue: a gather that moves its rows to the scratchpad has but one. -/
structure Gathering (T : Tile) (o : Op) (f : GthF) (k : Nat) (t : Tile) (d : List Nat) : Prop where
  sound : Sound T t
  mem : k = 0 ∨ f.chan ≠ none → t.mem = T.mem
  index : k % f.roww ≠ 0 → d.headD 0 = indexAt T (o.snap 0) f.iw32 (k / f.roww)
  room : ∀ ch, f.chan = some ch → 2 * (t.oc.get [] ch).length + k % f.roww % 2 ≤ 2 * (T.oc.get [] ch).length + k
theorem Gathering.start {T : Tile} (o : Op) (f : GthF) (d : List Nat) (h : Sound T T) : Gathering T o f 0 T d :=
  ⟨h, fun _ => rfl, fun e => by simp at e, fun _ _ => by simp⟩
theorem Gathering.next {T t u : Tile} {o : Op} {f : GthF} {k : Nat} {d e : List Nat} (h : Gathering T o f k t d) (hw : 1 ≤ f.roww) (hS : Sound T u)
    (hu : ∀ ch, f.chan = some ch → u.mem = t.mem ∧
      (k % f.roww % 2 = 0 → u.oc = t.oc) ∧ (k % f.roww % 2 = 1 → ∃ x, u.oc = t.oc.set [] ch (t.oc.get [] ch ++ [x]))) :
    Gathering T o f (k + 1) u (indexAt T (o.snap 0) f.iw32 (k / f.roww) :: e) := by
  refine ⟨hS, fun hm => ?mem, fun hne => ?index, fun ch hch => ?room⟩
  case mem =>
    obtain ⟨ch, hch⟩ := Option.ne_none_iff_exists'.mp (hm.resolve_left (Nat.succ_ne_zero k))
    obtain ⟨hmem, -⟩ := hu ch hch
    exact hmem.trans (h.mem (.inr (by simp [hch])))
  case index =>
    obtain ⟨-, hrow⟩ := (next_word k hw).resolve_left hne
    rw [hrow, List.headD_cons]
  case room =>
    obtain ⟨-, heven, hodd⟩ := hu ch hch
    have hroom := h.room ch hch
    have hnext := next_word k hw
    obtain hpar | hpar := Nat.mod_two_eq_zero_or_one (k % f.roww)
    · rw [heven hpar]
      omega
    · obtain ⟨x, hx⟩ := hodd hpar
      rw [hx, ocMore]
      omega
theorem gth_unitsDone {h : IHdr} {f : GthF} {n : Nat} {s : State} (hn : n = f.count * f.roww) (hp : cleanPad (tileNow h s) = true)
    (hr : canRise h (lowered h (tileNow h s)) = true) (hidx : packThere (tileNow h s) (genNow h f.iag s) f.count (if f.iw32 then 4 else 2) = true)
    (hrow : ∀ i < f.count, indexedThere (tileNow h s) (genNow h f.iag s) (genNow h f.sag s) f.iw32 f.limit f.roww i = true)
    (hch : ∀ ch, f.chan = some ch → ((tileNow h s).oc.get [] ch).length + n / 2 ≤ 16)
    (hpad : f.chan = none → f.count = 1 ∧ (genNow h f.dag s).qm = false ∧ rowThere (tileNow h s) ((genNow h f.dag s).rowAddr 0) (32 * f.roww) = true) :
    ∃ u, unitsDone h (.gth f) n s u ∧ canRise h u = true := by
  obtain ⟨hq, hidx⟩ := packThere_at hidx
  obtain ⟨hmap, -, -, hmem, -, hoc, -⟩ := flying_tile h (.gth f) n s
  have snap0 : (flying h (.gth f) n s).2.snap 0 = genNow h f.iag s := gth_snap (by simp [TI.gens])
  have snap1 : (flying h (.gth f) n s).2.snap 1 = genNow h f.sag s := gth_snap (by simp [TI.gens])
  have snap2 (e : f.chan = none) : (flying h (.gth f) n s).2.snap 2 = genNow h f.dag s := gth_snap (by simp [TI.gens, e])
  refine units_land h _ n s (fun k t d _ => Gathering (flying h (.gth f) n s).1.quiet (flying h (.gth f) n s).2 f k t d)
    (fun _ _ _ _ _ => rfl) (Gathering.start _ _ _ (flying_sound h _ n s hp)) (fun k t d b hk ht => ?_) (fun _ _ _ ht => ht.sound) hr
  have hw : 1 ≤ f.roww := Nat.pos_of_mul_pos_left (Nat.zero_lt_of_lt (hn ▸ hk))
  have hlt : k / f.roww < f.count := (Nat.div_lt_iff_lt_mul hw).mpr (hn ▸ hk)
  have one_row (e : f.chan = none) : k / f.roww = 0 := Nat.lt_one_iff.mp ((hpad e).1 ▸ hlt)
  refine UR.lands_mono (unitGth_lands ht.sound hw (fun e => ?first) ht.index ?row (fun e => ?dest) (fun ch e hodd => ?room))
    (fun u y ⟨⟨e, b', hy⟩, hS, hu⟩ => ⟨_, b', hy, ht.next hw hS hu⟩)
  case first =>
    have hk0 : k = 0 ∨ f.chan ≠ none := or_iff_not_imp_right.mpr fun hc => by
      rw [← Nat.div_add_mod k f.roww, one_row (not_not.mp hc), show k % f.roww = 0 from e, Nat.mul_zero]
    rw [snap_atUnit, snap0]
    exact ⟨hq, hmap ▸ hidx _ hlt, indexAt_mem (ht.mem hk0) _ _ _⟩
  case row =>
    rw [snap0, indexAt_mem hmem, snap_atUnit, snap1, rowThere_map hmap]
    exact indexedThere_at (hrow _ hlt)
  case dest =>
    obtain ⟨-, hq2, hd⟩ := hpad e
    rw [snap_atUnit, snap2 e, rowThere_map hmap, one_row e]
    exact ⟨hq2, hd⟩
  case room =>
    have hodd : k % f.roww % 2 = 1 := hodd
    have hroom := ht.room ch e
    have hch := hch ch e
    rw [hoc] at hroom
    omega

/-- What the words of a scatter of one row leave for those after them: the row's index, and the flits still to come in the channel. -/
structure Scattering (T : Tile) (o : Op) (f : SctF) (k : Nat) (t : Tile) (d : List Nat) : Prop where
  sound : Sound T t
  mem : k = 0 → t.mem = T.mem
  index : k ≠ 0 → d.headD 0 = indexAt T (o.snap 0) f.iw32 0
  flits : ∀ ch, f.chan = some ch → f.roww ≤ 2 * (t.ic.get [] ch).length + k + k % 2
theorem Scattering.next {T t u : Tile} {o : Op} {f : SctF} {k : Nat} {d e : List Nat} (h : Scattering T o f k t d) (hk : k < f.roww) (hS : Sound T u)
    (hu : ∀ ch, f.chan = some ch → (k % 2 = 1 → u.ic = t.ic) ∧ (k % 2 = 0 → u.ic = t.ic.set [] ch (t.ic.get [] ch).tail)) :
    Scattering T o f (k + 1) u (indexAt T (o.snap 0) f.iw32 0 :: e) := by
  refine ⟨hS, fun e => absurd e (Nat.succ_ne_zero k), fun _ => rfl, fun ch hch => ?_⟩
  obtain ⟨hodd, heven⟩ := hu ch hch
  have hflits := h.flits ch hch
  obtain hpar | hpar := Nat.mod_two_eq_zero_or_one k
  · have hleft := icLeft (ic := t.ic) (ch := ch) (m := (t.ic.get [] ch).length - 1) (by omega)
    rw [heven hpar]
    omega
  · rw [hodd hpar]
    omega
theorem sct_unitsDone {h : IHdr} {f : SctF} {s : State} (hp : cleanPad (tileNow h s) = true) (hr : canRise h (lowered h (tileNow h s)) = true)
    (hidx : packThere (tileNow h s) (genNow h f.iag s) 1 (if f.iw32 then 4 else 2) = true)
    (hrow : indexedThere (tileNow h s) (genNow h f.iag s) (genNow h f.dag s) f.iw32 f.limit f.roww 0 = true)
    (hch : ∀ ch, f.chan = some ch → f.roww ≤ 2 * ((tileNow h s).ic.get [] ch).length)
    (hpad : f.chan = none → (genNow h f.sag s).qm = false ∧ rowThere (tileNow h s) ((genNow h f.sag s).rowAddr 0) (32 * f.roww) = true) :
    ∃ u, unitsDone h (.sct f) f.roww s u ∧ canRise h u = true := by
  obtain ⟨hq, hidx⟩ := packThere_at hidx
  obtain ⟨hmap, -, -, hmem, hic, -⟩ := flying_tile h (.sct f) f.roww s
  have snap0 : (flying h (.sct f) f.roww s).2.snap 0 = genNow h f.iag s := sct_snap (by simp [TI.gens])
  have snap2 : (flying h (.sct f) f.roww s).2.snap 2 = genNow h f.dag s := sct_snap (by simp [TI.gens])
  have snap1 (e : f.chan = none) : (flying h (.sct f) f.roww s).2.snap 1 = genNow h f.sag s := sct_snap (by simp [TI.gens, e])
  refine units_land h _ f.roww s (fun k t d _ => Scattering (flying h (.sct f) f.roww s).1.quiet (flying h (.sct f) f.roww s).2 f k t d)
    (fun _ _ _ _ _ => rfl) ⟨flying_sound h _ _ s hp, fun _ => rfl, fun e => absurd rfl e, fun ch e => ?_⟩ (fun k t d b hk ht => ?_)
    (fun _ _ _ ht => ht.sound) hr
  · rw [hic]
    exact hch ch e
  have hw : 1 ≤ f.roww := Nat.zero_lt_of_lt hk
  have hmod : k % f.roww = k := Nat.mod_eq_of_lt hk
  have hdiv : k / f.roww = 0 := Nat.div_eq_of_lt hk
  refine UR.lands_mono (unitSct_lands (v := indexAt (flying h (.sct f) f.roww s).1.quiet ((flying h (.sct f) f.roww s).2.snap 0) f.iw32 0) ht.sound hw
      (fun e => ?first) (fun e => ?later) ?row (fun e => ?source) (fun ch e heven => ?flit))
    (fun u y ⟨⟨e, b', hy⟩, hS, hu⟩ => ⟨_, b', hy, ht.next hk hS (by simpa only [hmod] using hu)⟩)
  case first =>
    have hk0 : k = 0 := hmod.symm.trans e
    simp only [snap_atUnit, snap0, hdiv]
    exact ⟨hq, hmap ▸ hidx _ Nat.zero_lt_one, indexAt_mem (ht.mem hk0) _ _ _⟩
  case later => exact ht.index fun hk0 => e (hmod.trans hk0)
  case row =>
    rw [snap0, indexAt_mem hmem, snap_atUnit, snap2, rowThere_map hmap]
    exact indexedThere_at hrow
  case source =>
    simp only [snap_atUnit, snap1 e, rowThere_map hmap, hdiv]
    exact hpad e
  case flit =>
    have heven : k % 2 = 0 := by simpa only [hmod] using heven
    have hflits := ht.flits ch e
    exact fun e => by simp [e] at hflits; omega

/-- Settles O17: the units of each instruction are done where its rows, indices and flits are there. -/
theorem transfersLand : Obligations.TransfersLand := by
  refine ⟨?srd, ?get, ?put, ?gth, ?sct, ?pgl⟩
  case srd =>
    intro h r ag s hR hw
    exact Ready.lands hR (exec_srd ..) rfl rfl rfl fun hp hr => srd_unitsDone hp hr hw
  case get =>
    intro h ch ag n s hR hrows hi
    exact Ready.lands hR (exec_get ..) rfl rfl rfl fun hp hr => get_unitsDone hp hr hrows hi
  case put =>
    intro h ch ag n s hR hrows hroom
    exact Ready.lands hR (exec_put ..) rfl rfl rfl fun hp hr => put_unitsDone hp hr hrows hroom
  case gth =>
    intro h f s hR hidx hrow hch hpad
    exact Ready.lands hR (exec_gth ..) rfl rfl rfl fun hp hr => gth_unitsDone rfl hp hr hidx hrow hch hpad
  case sct =>
    intro h f s hR hone hidx hrow hch hpad
    rw [hone, Nat.one_mul]
    exact Ready.lands hR (exec_sct ..) (by rw [TI.units, hone, Nat.one_mul]) rfl rfl fun hp hr => sct_unitsDone hp hr hidx hrow hch hpad
  case pgl =>
    intro h ch off n fin s hR hi
    exact Ready.lands hR (exec_pgl ..) rfl rfl rfl fun hp hr => pgl_unitsDone hp hr hi
end Sys2Proof.Machine
end

section
/-! SUPPORT. The events of a tile that its own program does not issue, on the states that the statement about them names: one equation for each outcome
(R142, R145 to R148, R161, R163). -/

namespace Sys2Proof.Machine

/-! PAGE_SWAP (R145). -/

/-- The flag of a SWP rises where it has room. -/
theorem swapFlag_room {exe : Bool} {f : Option Nat} {t : Tile} (h : flagRoom f t = true) : Tile.swapFlag exe f (t, none) = (raisedFlag f t, none) := by
  cases f with
  | none => rfl
  | some k =>
    have hk : ¬ t.flag k ≥ 3 := by simpa [flagRoom] using h
    simp [Tile.swapFlag, raisedFlag, Tile.raiseFlag, hk]
theorem doPageSwap_swaps {tile : Nat} {s : State} (hc : s.clk.cycle = 0) (hb : s.beatRuns tile = true) {t : Tile} (ht : (s.tile tile).enter s.now = t)
    (hs : t.atSwap = true) (hid : (t.hdr t.pendb).planId = t.planId) (hpage : (t.hdr t.pendb).page = t.page + 1) (hok : hdrOk (t.slot t.pendb) = true)
    (ha : flagRoom t.sa.swpSet (t.activate t.pendb s.now) = true)
    (he : flagRoom t.se.swpSet (raisedFlag t.sa.swpSet (t.activate t.pendb s.now)) = true) :
    doPageSwap tile s = s.setTile tile (raisedFlag t.se.swpSet (raisedFlag t.sa.swpSet (t.activate t.pendb s.now))) := by
  unfold doPageSwap
  dsimp only
  rw [ht, if_neg (by simp [hc, hb, hs]), if_neg (by simp [hid, hpage, hok]), swapFlag_room ha, swapFlag_room he]
/-- A pending page that is not the next one of the plan. -/
theorem doPageSwap_misplaced {tile : Nat} {s : State} (hc : s.clk.cycle = 0) (hb : s.beatRuns tile = true) {t : Tile} (ht : (s.tile tile).enter s.now = t)
    (hs : t.atSwap = true) (hpage : (t.hdr t.pendb).page ≠ t.page + 1) :
    doPageSwap tile s = s.tileFault tile 0 ⟨fcPlanHeader, 0, [], t.sa.tag, t.sa.otag⟩ := by
  unfold doPageSwap
  dsimp only
  rw [ht, if_neg (by simp [hc, hb, hs]), if_pos (.inr (.inl hpage))]
theorem doPageSwap_within {tile : Nat} {s : State} (hc : s.clk.cycle ≠ 0) : doPageSwap tile s = s := if_pos (.inl hc)

/-! The watches over waits that never end (R145, R147, R148). -/

theorem State.at_beatRuns (s : State) (cyc tile : Nat) : (s.at cyc).beatRuns tile = s.beatRuns tile := rfl
theorem doSwapTimeout_late {tile cyc n : Nat} {s : State} (hb : s.beatRuns tile = true) (hn : (s.tile tile).swpBeats = some n)
    (hl : (s.tile tile).swapLimit < n) : doSwapTimeout tile cyc s =
      (s.at cyc).tileFault tile cyc ⟨fcSwapTimeout, 0, [(s.tile tile).sa.tag, (s.tile tile).se.tag], (s.tile tile).sa.tag, (s.tile tile).sa.otag⟩ :=
  if_pos ⟨hb, by simp [hn, hl]⟩
theorem crossed_of {t : Tile} (ha : t.sa.idleBeats ≠ 0) (he : t.se.idleBeats ≠ 0) (hsa : t.sa.stuckLast = true) (hse : t.se.stuckLast = true)
    (hw : t.sa.onFlagOrQueue = true ∨ t.se.onFlagOrQueue = true) (ho : ∀ o ∈ t.sa.ops ++ t.se.ops, o.blocked = true) : t.crossed = true := by
  simp only [Tile.crossed, Bool.and_eq_true, Bool.or_eq_true, decide_eq_true_eq, List.all_eq_true]
  exact ⟨⟨⟨⟨⟨ha, he⟩, hsa⟩, hse⟩, hw⟩, ho⟩
theorem doCrossWait_crossed {tile : Nat} {s : State} (hc : s.clk.cycle = 0) (hb : s.beatRuns tile = true) (hx : (s.tile tile).crossed = true) :
    doCrossWait tile s =
      s.tileFault tile 0 ⟨fcCrossWait, 0, [(s.tile tile).sa.tag, (s.tile tile).se.tag], (s.tile tile).sa.tag, (s.tile tile).sa.otag⟩ :=
  if_pos ⟨hc, hb, hx⟩
theorem doStreamStall_stalled {tile cyc : Nat} {exe : Bool} {s : State} (hb : s.beatRuns tile = true)
    (hst : ((s.tile tile).stream exe).st = .issuing ∨ ((s.tile tile).stream exe).st = .waiting)
    (hl : (s.tile tile).stallLimit ≤ ((s.tile tile).stream exe).idleBeats) : doStreamStall tile exe cyc s =
      (s.at cyc).tileFault tile cyc ⟨fcStreamStall, if exe then 0x031 else 0x030, [], ((s.tile tile).stream exe).tag, ((s.tile tile).stream exe).otag⟩ := by
  refine if_pos ⟨hb, ?_, ?_, ?_, hl⟩ <;> rcases hst with h | h <;> simp [h]

/-! PLAN_START (R142). -/

/-- A start order that its tile can follow: page 0 becomes active, and the draws of a step or an evaluation are seeded. -/
theorem doPlanStart_begins {tile : Nat} {p : WPkt} {s u : State} (hc : s.clk.cycle = 0) (ht : s.take (WPkt.startsTile tile s.clk.beat) = some (p, u))
    (hr : (u.tile tile).running = false) (hf : (u.tile tile).fenced = false) (hd : (u.region (tile / 64)).cd = .on) (hp : (u.tile tile).planOk = true)
    (hh : (u.ctx (u.ptag tile)).part.held = false) (hz : (u.tile tile).scrubEnd ≤ s.now) : doPlanStart tile s = u.setTile tile
      (((u.ctx (u.ptag tile)).run.filter (fun r => decide (r.kind ≠ .plain))).elim ((u.tile tile).begins p.startBank s.now)
        (fun r => ((u.tile tile).begins p.startBank s.now).seeded r.seed)) := by
  unfold doPlanStart
  rw [if_neg (not_not_intro hc), ht]
  dsimp only
  rw [if_neg (by simp [hr, hf, hd, hp]), if_neg (by simp [hh, hz])]

/-! PLAN_END (R146). -/

theorem doPlanEnd_left {tile cyc : Nat} {s : State} (ha : (s.tile tile).sa.st = .atEnd) (he : (s.tile tile).se.st = .atEnd)
    (hf : (s.tile tile).fenced = false) (hl : tilesLeft (s.ptag tile) (planEnded tile cyc s) = true) : doPlanEnd tile cyc s = planEnded tile cyc s := by
  unfold doPlanEnd
  dsimp only
  rw [if_neg (by simp [ha, he, hf])]
  split
  · exact if_pos (.inl hl)
  · exact if_pos hl
/-- The last tile of a run at its end: a step waits for its completion, any other run is over. -/
theorem doPlanEnd_last {tile cyc : Nat} {x : Run} {s : State} (ha : (s.tile tile).sa.st = .atEnd) (he : (s.tile tile).se.st = .atEnd)
    (hf : (s.tile tile).fenced = false) (hl : tilesLeft (s.ptag tile) (planEnded tile cyc s) = false)
    (hrun : ((planEnded tile cyc s).ctx (s.ptag tile)).run = some x) (hs : x.started = true) (hx : x.ending = none) :
    doPlanEnd tile cyc s = if x.kind = .step
      then ((planEnded tile cyc s).onCtx (s.ptag tile) (fun y => { y with run := some { x with planDone := true } })).onPart (s.ptag tile)
        (fun p => { p with seq := [], startAt := none, begun := false })
      else (planEnded tile cyc s).closeRun (s.ptag tile) stOk (sat 32 (((planEnded tile cyc s).ctx (s.ptag tile)).part.planBeat + 1)) := by
  unfold doPlanEnd
  dsimp only
  rw [if_neg (by simp [ha, he, hf])]
  split
  · next y hy =>
    obtain rfl : x = y := Option.some.inj (hrun.symm.trans hy)
    refine (if_neg ?_).trans (if_neg (by simp [hs]))
    rintro (h | h)
    · exact absurd (hl.symm.trans h) (by decide)
    · exact h hx
  · next hy => exact absurd (hrun.symm.trans hy) (by simp)

/-! SP_PATROL and SP_CORRECTION_WRITEBACK (R161, R163). -/

/-- A row of the patrol in which no word carries an error. -/
theorem doSpPatrol_clean {tile : Nat} {s : State} (hd : (s.region (tile / 64)).cd = .on) (hf : (s.tile tile).fenced = false)
    (hh : (s.ctx (s.ptag tile)).part.held = false)
    (hw : ∀ w ∈ (s.tile tile).errs.keys, ((s.tile tile).map.place (32 * w)).2 ≠ (s.tile tile).patrol % 8192) :
    doSpPatrol tile s = s.setTile tile { s.tile tile with patrol := ((s.tile tile).patrol % 8192 + 1) % 8192 } := by
  unfold doSpPatrol
  dsimp only
  rw [if_neg (by simp [hd, hf, hh]), List.filter_eq_nil_iff.mpr (fun w h => by simpa using hw w h)]
  rfl
theorem doSpCorrectionWriteback_found {tile bank w : Nat} {s : State} (hh : (s.ctx (s.ptag tile)).part.held = false)
    (hw : (s.tile tile).wback.find? (fun w => ((s.tile tile).map.place (32 * w)).1 = bank) = some w) : doSpCorrectionWriteback tile bank s =
      s.onTile tile (fun t => { t with wback := t.wback.filter (· ≠ w), errs := t.errs.del w }) := by
  unfold doSpCorrectionWriteback
  rw [if_neg (by simp [hh]), State.onTile, hw]
  rfl

/-- Settles O18: each event has the outcome that the equation of its command above gives. -/
theorem tileEventsComplete : Obligations.TileEventsComplete := by
  refine ⟨?swap, ?misplaced, ?within, ?swapLate, ?crossed, ?stalled, ?plain, ?seeded, ?left, ?last, ?patrol, ?writeback⟩
  case swap =>
    intro tile s t hf hc hb ht hs hid hpage hok ha he
    rw [exec_of_fits hf (exec_pageSwap ..), doPageSwap_swaps hc hb ht hs hid hpage hok ha he]
  case misplaced =>
    intro tile s t hf hc hb ht hs hpage
    rw [exec_of_fits hf (exec_pageSwap ..), doPageSwap_misplaced hc hb ht hs hpage]
  case within =>
    intro tile s hf hc
    rw [exec_of_fits hf (exec_pageSwap ..), doPageSwap_within hc]
  case swapLate =>
    intro tile cyc n s hf hb hn hl
    rw [exec_of_fits hf (exec_swapTimeout ..), doSwapTimeout_late hb hn hl]
  case crossed =>
    intro tile s hf hc hb ha he hsa hse hw ho
    rw [exec_of_fits hf (exec_crossWait ..), doCrossWait_crossed hc hb (crossed_of ha he hsa hse hw ho)]
  case stalled =>
    intro tile exe cyc s hf hb hst hl
    rw [exec_of_fits hf (exec_streamStall ..), doStreamStall_stalled hb hst hl]
  case plain =>
    intro tile p s u hf hc ht hr hfe hd hp hh hz hk
    have none_seeded : (u.ctx (u.ptag tile)).run.filter (fun r => decide (r.kind ≠ .plain)) = none :=
      Option.filter_eq_none_iff.mpr fun r hrun => by simp [hk r hrun]
    rw [exec_of_fits hf (exec_planStart ..), doPlanStart_begins hc ht hr hfe hd hp hh hz, none_seeded]
    rfl
  case seeded =>
    intro tile p r s u hf hc ht hr hfe hd hp hh hz hrun hk
    have is_seeded : (u.ctx (u.ptag tile)).run.filter (fun r => decide (r.kind ≠ .plain)) = some r := by rw [hrun, Option.filter, if_pos (decide_eq_true hk)]
    rw [exec_of_fits hf (exec_planStart ..), doPlanStart_begins hc ht hr hfe hd hp hh hz, is_seeded]
    rfl
  case left =>
    intro tile cyc s hf ha he hfe hl
    rw [exec_of_fits hf (exec_planEnd ..), doPlanEnd_left ha he hfe hl]
  case last =>
    intro tile cyc x s hf ha he hfe hl hrun hs hx
    rw [exec_of_fits hf (exec_planEnd ..), doPlanEnd_last ha he hfe hl hrun hs hx]
  case patrol =>
    intro tile s hf hd hfe hh hw
    rw [exec_of_fits hf (exec_spPatrol ..), doSpPatrol_clean hd hfe hh hw]
  case writeback =>
    intro tile bank w s hf hh hw
    rw [exec_of_fits hf (exec_spCorrectionWriteback ..), doSpCorrectionWriteback_found hh hw]
end Sys2Proof.Machine
end

section
/-! SUPPORT. What the work of LIB_LOAD and PLAN_LOAD answers on the image that its reference names, and the statement that the map, library and plan
commands complete (R132, R142, R156, R222, R349 to R351). -/

namespace Sys2Proof.Machine

theorem readThen_read {x : DRef} {c tag : Nat} {b : List Byte} {s u : State} (k : List Byte → State → State × Nat × Nat) (h : s.readRef x c tag = (u, .ok b)) :
    s.readThen x c tag k = k b u := by
  rw [State.readThen, h]
theorem readThen_failed {x : DRef} {c tag d : Nat} {s u : State} (k : List Byte → State → State × Nat × Nat) (h : s.readRef x c tag = (u, .error d)) :
    s.readThen x c tag k = (u, stFaulted, d) := by
  rw [State.readThen, h]
/-- A library in form, whose routines keep to R132. -/
theorem loadLibrary_good {c : Nat} {b : List Byte} (s : State) (hf : libFormOk b = true) (hr : libraryOk (loadLib b {}).routines ((loadLib b {}).lib.get 0) = true) :
    loadLibrary c b s = (((s.onPartition c (fun t => { loadLib b t with planOk := false, pend := false })).freeAllSets c).onCtx c (fun x => { x with lib := b }),
      stOk, 0) :=
  if_neg (not_or.mpr ⟨by simp [hf], fun e => absurd (hr.symm.trans e) (by decide)⟩)
theorem loadSet_read {c : Nat} {b : List Byte} {p : PlanSet} {s : State} (h : readSet ((s.lead c).getD 0) b = some p) :
    loadSet c b s = if p.kind = 1 ∧ Config.backwardFirst b = true then (s, stBadParam, 0) else s.takeSet c p := by
  rw [loadSet, h]
theorem loadSet_unread {c : Nat} {b : List Byte} {s : State} (h : readSet ((s.lead c).getD 0) b = none) : loadSet c b s = (s, stBadParam, 0) := by
  rw [loadSet, h]
/-- A set that passes the checks, with a handle and route entries left for it. -/
theorem takeSet_good {c : Nat} {p : PlanSet} {s : State} (hp : p.pages ≠ []) (hf : s.setFine c p = true) (hl : (s.ctx c).sets.length < 64)
    (hr : s.routesShort c p.allRoutes = false) : s.takeSet c p = ((s.addRoutes p.allRoutes).onCtx c (fun x => { x with
      sets := x.sets.set none (s.ctx c).nextSet (some p), nextSet := ((s.ctx c).nextSet + 1) % 4294967296, part := x.part.planned }), stOk, (s.ctx c).nextSet) := by
  unfold State.takeSet
  dsimp only
  rw [if_neg (by simp [hp, hf]), if_neg (by simp [hr, hl])]
  rfl

/-- Settles O32: a packet that comes is answered by its command's own part, whose checks are passed or failed as the clause says. -/
theorem planCommandsComplete : Obligations.PlanCommandsComplete := by
  refine ⟨?map, ?mapBusy, ?lib, ?read, ?unread, ?libTaken, ?plan, ?planRead, ?planTaken, ?planUnread,
    ?free, ?freeNone, ?run, ?runNone, ?abortRun, ?abortEarly, ?abortNone⟩
  case map =>
    intro h m s t hf hc hm hp
    rw [exec_of_fits hf (exec_spMapLoad ..), doSpMapLoad, packet_comes hc, check6_ok _ (rsv_of_comes hc) hm, if_neg (by simp [hp]), apply_accepted]
  case mapBusy =>
    intro h m s t hf hc hm hp
    rw [exec_of_fits hf (exec_spMapLoad ..), doSpMapLoad, packet_comes hc, check6_ok _ (rsv_of_comes hc) hm, if_pos hp, apply_refuse]
  case lib =>
    intro h x s t hf hc hx hl hp
    rw [exec_of_fits hf (exec_libLoad ..), doLibLoad, packet_comes hc, withRef_ok _ hx (rsv_of_comes hc) rfl hl, if_neg (by simp [hp]), apply_acceptNow]
  case read => exact fun x c tag k b s u h => readThen_read k h
  case unread => exact fun x c tag k d s u h => readThen_failed k h
  case libTaken => exact fun c b s hf hr => loadLibrary_good s hf hr
  case plan =>
    intro h x s t hf hc hx hl hp
    rw [exec_of_fits hf (exec_planLoad ..), doPlanLoad, packet_comes hc, withRef_ok _ hx (rsv_of_comes hc) rfl hl, if_neg (by simp [hp]), apply_acceptNow]
  case planRead => exact fun c b p s h => loadSet_read h
  case planTaken => exact fun c p s hp hf hl hr => takeSet_good hp hf hl hr
  case planUnread => exact fun c b s h => loadSet_unread h
  case free =>
    intro h handle s t hf hc hset hu
    rw [exec_of_fits hf (exec_planFree ..), doPlanFree, packet_comes hc, check6_ok _ (rsv_of_comes hc) hset, if_neg (by simp [hu]), apply_done]
  case freeNone =>
    intro h handle s t hf hc hset
    rw [exec_of_fits hf (exec_planFree ..), doPlanFree, packet_comes hc]
    dsimp only
    rw [check6_bad _ (by simp [hset]), apply_refuse]
  case run =>
    intro h handle p s t hf hc hset hr hp
    rw [exec_of_fits hf (exec_planRun ..), doPlanRun, packet_comes hc]
    dsimp only
    rw [hset]
    dsimp only
    rw [check6_ok _ (rsv_of_comes hc) rfl, if_neg (by simp [hr, hp]), apply_accepted]
    rfl
  case runNone =>
    intro h handle s t hf hc hset
    rw [exec_of_fits hf (exec_planRun ..), doPlanRun, packet_comes hc]
    dsimp only
    rw [hset, apply_refuse]
  case abortRun =>
    intro h r s t hf hc hr hs
    rw [exec_of_fits hf (exec_planAbort ..), doPlanAbort, packet_comes hc, check6_ok _ (rsv_of_comes hc) rfl, hr]
    dsimp only
    rw [if_pos hs, apply_accepted]
  case abortEarly =>
    intro h r s t hf hc hr hs
    rw [exec_of_fits hf (exec_planAbort ..), doPlanAbort, packet_comes hc, check6_ok _ (rsv_of_comes hc) rfl, hr]
    dsimp only
    rw [if_neg (by simp [hs]), apply_acceptNow]
  case abortNone =>
    intro h s t hf hc hr
    rw [exec_of_fits hf (exec_planAbort ..), doPlanAbort, packet_comes hc, check6_ok _ (rsv_of_comes hc) rfl, hr, apply_acceptNow]
end Sys2Proof.Machine
end

section
/-! SUPPORT. The mesh: what a router does in a slot, and the beat orders and route switches (R169 to R181, R208), with the statements that its commands
complete and that an empty flit goes out empty. -/

namespace Sys2Proof.Machine

/-! Unit IDs by their fields (R193). -/

theorem uClass_uid (c r k t n : Nat) : uClass (uid c r k t n) = c % 256 := by
  simp only [uClass, uid, bits, fld, Nat.shiftLeft_eq, Nat.shiftRight_eq_div_pow]
  omega
theorem uRegion_uid (c r k t n : Nat) : uRegion (uid c r k t n) = r % 128 := by
  simp only [uRegion, uid, bits, fld, Nat.shiftLeft_eq, Nat.shiftRight_eq_div_pow]
  omega
theorem uSub_uid (c r k t n : Nat) : uSub (uid c r k t n) = n % 2048 := by
  simp only [uSub, uid, bits, fld, Nat.shiftLeft_eq, Nat.shiftRight_eq_div_pow]
  omega
@[simp] theorem uClass_uidRc (r : Nat) : uClass (uidRc r) = 6 := uClass_uid ..
@[simp] theorem uClass_uidSc (n : Nat) : uClass (uidSc n) = 0x10 := uClass_uid ..
theorem uRegion_uidRc {r : Nat} (h : r < 80) : uRegion (uidRc r) = r := (uRegion_uid ..).trans (Nat.mod_eq_of_lt (by omega))
theorem uSub_uidSc {n : Nat} (h : n < 24) : uSub (uidSc n) = n := (uSub_uid ..).trans (Nat.mod_eq_of_lt (by omega))

/-! Merges (R177, R178). -/

theorem mergeFlits_unmatched {opm : Nat} {a b : MFlit} (h : a.v = false ∨ b.v = false ∨ a.ptag ≠ b.ptag) : mergeFlits opm a b = (MFlit.empty, false) :=
  if_pos h
theorem mergeFlits_matched {opm : Nat} {a b : MFlit} (ha : a.v = true) (hb : b.v = true) (ht : a.ptag = b.ptag) :
    (mergeFlits opm a b).1.v = true ∧ (mergeFlits opm a b).1.ptag = a.ptag := by
  unfold mergeFlits
  rw [if_neg (by simp [ha, hb, ht])]
  exact ⟨ha, rfl⟩

/-! The inputs of a slot (R169, R170, R180). -/

theorem checkFlit_good {t port cyc : Nat} {s : State} {f : MFlit} (hs : f.spBad = false) (h0 : f.e0 = 0) (h1 : f.e1 = 0) :
    checkFlit t port cyc s f = (s, f) := by
  obtain ⟨⟩ := f
  simp only at hs h0 h1
  subst hs h0 h1
  rfl
theorem checkTag_match {t cyc w : Nat} {s : State} {f : MFlit} (h : f.ptag = rePtag w) : checkTag t cyc w s f = (s, f) :=
  if_neg fun e => e.2 h
/-- The good flit that arrives at a mesh port, of the entry's context. -/
theorem takeInput_arrived {t cyc w port : Nat} {s : State} {f : Fly} (hp : port ≠ 4)
    (hf : s.fly.find? (fun f => f.dst = t && f.port = port && f.beat = s.clk.beat && f.cyc = cyc) = some f)
    (hs : f.flit.spBad = false) (h0 : f.flit.e0 = 0) (h1 : f.flit.e1 = 0) (ht : f.flit.ptag = rePtag w) :
    takeInput t cyc w port s = ({ s with fly := s.fly.erase f }, f.flit) := by
  unfold takeInput
  rw [if_neg hp, hf]
  dsimp only
  rw [checkFlit_good hs h0 h1, checkTag_match ht]

/-! The outputs of a slot (R169, R178, R181). -/

theorem sendOut_unnamed {t cyc w extra o : Nat} {f : MFlit} {s : State} (h : bit (reOut w) o = false) : sendOut t cyc w extra f s o = s := if_pos h
theorem sendSide_next {t cyc d extra n : Nat} {f : MFlit} {s : State} (hv : f.v = true) (hn : tileNext t d = some n) :
    sendSide t cyc d extra f s = { s with fly := s.fly ++ [⟨n, (d + 2) % 4, s.clk.beat + (cyc + (if n / 64 = t / 64 then 2 else 6) + extra) / 4096,
      (cyc + (if n / 64 = t / 64 then 2 else 6) + extra) % 4096, f⟩] } := by
  rw [sendSide, hn]
  exact if_pos hv
/-- An empty flit reaches no link and no channel: a tile or edge port that it goes to counts a slot. -/
theorem sendOut_empty {t cyc w extra : Nat} {f : MFlit} (hv : f.v = false) (s : State) (o : Nat) :
    sendOut t cyc w extra f s o = if bit (reOut w) o && (decide (o = 4) || (tileNext t o).isNone) then s.absorb t else s := by
  unfold sendOut
  cases bit (reOut w) o with
  | false => rfl
  | true =>
    by_cases ho : o = 4
    · simp [ho, deliverTile, hv]
    · cases hn : tileNext t o <;> simp [ho, sendSide, hn, hv]
/-- All outputs of an empty flit. -/
theorem foldl_sendOut_empty {t cyc w extra : Nat} {f : MFlit} (hv : f.v = false) (s : State) (os : List Nat) :
    os.foldl (sendOut t cyc w extra f) s =
      (os.filter (fun o => bit (reOut w) o && (decide (o = 4) || (tileNext t o).isNone))).foldl (fun s _ => s.absorb t) s := by
  rw [List.foldl_filter]
  exact congrArg (fun g => os.foldl g s) (funext₂ (sendOut_empty hv))
/-- An entry whose only output is a side. -/
theorem foldl_sendOut_side {t cyc w extra o : Nat} {f : MFlit} {s : State} (ho : o < 4) (hout : reOut w = 2 ^ o) :
    [0, 1, 2, 3, 4].foldl (sendOut t cyc w extra f) s = sendSide t cyc o extra f s := by
  have named : bit (reOut w) o = true := by simp [hout, bit]
  have side : ∀ u, sendOut t cyc w extra f u o = sendSide t cyc o extra f u := fun u => by
    rw [sendOut, if_neg (by simp [named]), if_neg (by omega)]
  have other : ∀ u i, i ≠ o → sendOut t cyc w extra f u i = u := fun u i hi =>
    sendOut_unnamed (by rw [hout]; exact Nat.testBit_two_pow_of_ne hi.symm)
  obtain rfl | rfl | rfl | rfl : o = 0 ∨ o = 1 ∨ o = 2 ∨ o = 3 := by omega
  all_goals simp [side, other]

/-! ROUTER_SLOT (R171). -/

/-- A slot of an entry on which its router acts: the entry is valid and in form, the slot falls in this cycle, and the entry's schedule is active. -/
structure SlotActs (pos cyc w : Nat) (s : State) : Prop where
  valid : bit w 63 = true
  falls : reSlot w cyc = true
  powered : (s.region (pos / 64)).st ≠ .transitLost
  input : reIn w ≤ 4
  opm : reOpm w ≤ 2
  second : reOpm w ≠ 0 → reIn2 w ≤ 4
  active : s.schedOn (pos / 64) (rePtag w) (reSched w) = true

/-- What such a slot gives to its outputs, and the machine after its inputs. -/
def slotTakes (pos cyc w : Nat) (s : State) : State × MFlit :=
  if bit (reOut w) 4 ∧ s.absorbs pos then (if reIn w = 4 ∨ (reOpm w ≠ 0 ∧ reIn2 w = 4) then s.absorb pos else s, MFlit.empty)
  else
    let a := takeInput pos cyc w (reIn w) s
    if reOpm w = 0 then a
    else
      let b := takeInput pos cyc w (reIn2 w) a.1
      let r := mergeFlits (reOpm w) a.2 b.2
      (if r.2 then b.1.onRouter pos (fun x => { x with mergeNf := x.mergeNf + 1 }) else b.1, r.1)

theorem doRouterSlot_acts {pos entry cyc w : Nat} {s x : State} (hx : (s.at cyc).landTile pos = x) (hw : (x.router pos).routes.get 0 entry = w)
    (h : SlotActs pos cyc w x) : doRouterSlot pos entry cyc s =
      [0, 1, 2, 3, 4].foldl (sendOut pos cyc w (if reOpm w = 0 then 0 else 1) (slotTakes pos cyc w x).2) (slotTakes pos cyc w x).1 := by
  obtain ⟨hv, hf, hp, hi, ho, h2, ha⟩ := h
  subst hx hw
  exact if_neg (by simpa [hv, hf, hp, hi, ho, ha] using h2)
theorem doRouterSlot_idle {pos entry cyc : Nat} {s u : State} (hu : (s.at cyc).landTile pos = u)
    (h : bit ((u.router pos).routes.get 0 entry) 63 = false ∨ reSlot ((u.router pos).routes.get 0 entry) cyc = false ∨
      u.schedOn (pos / 64) (rePtag ((u.router pos).routes.get 0 entry)) (reSched ((u.router pos).routes.get 0 entry)) = false) :
    doRouterSlot pos entry cyc s = u := by
  subst hu
  exact if_pos (by tauto)
theorem slotTakes_unmerged {pos cyc w : Nat} {s : State} (ha : bit (reOut w) 4 = true → s.absorbs pos = false) (h : reOpm w = 0) :
    slotTakes pos cyc w s = takeInput pos cyc w (reIn w) s := by
  unfold slotTakes
  rw [if_neg (fun e => by simp [ha e.1] at e)]
  exact if_pos h
/-- A merge without two matching flits: its inputs are taken, and it gives an empty flit (R178). -/
theorem slotTakes_unmatched {pos cyc w : Nat} {s u v : State} {a b : MFlit} (ha : bit (reOut w) 4 = true → s.absorbs pos = false) (h : reOpm w ≠ 0)
    (h1 : takeInput pos cyc w (reIn w) s = (u, a)) (h2 : takeInput pos cyc w (reIn2 w) u = (v, b)) (hm : a.v = false ∨ b.v = false ∨ a.ptag ≠ b.ptag) :
    slotTakes pos cyc w s = (v, MFlit.empty) := by
  unfold slotTakes
  rw [if_neg (fun e => by simp [ha e.1] at e)]
  dsimp only
  rw [if_neg h, h1]
  dsimp only
  rw [h2, mergeFlits_unmatched hm]
  rfl
/-- A slot that would deliver into a tile that absorbs (R181). -/
theorem slotTakes_absorbed {pos cyc w : Nat} {s : State} (hb : bit (reOut w) 4 = true) (ha : s.absorbs pos = true) :
    slotTakes pos cyc w s = (if reIn w = 4 ∨ (reOpm w ≠ 0 ∧ reIn2 w = 4) then s.absorb pos else s, MFlit.empty) :=
  if_pos ⟨hb, ha⟩

/-- Settles O47: what a slot gives is empty in each of the three cases, and an empty flit leaves on no output. -/
theorem emptyFlitsGoOutEmpty : Obligations.EmptyFlitsGoOutEmpty := by
  refine ⟨?unmatched, ?matched, ?empty, ?absorbed⟩
  case unmatched => exact fun opm a b h => congrArg Prod.fst (mergeFlits_unmatched h)
  case matched => exact fun opm a b ha hb ht => mergeFlits_matched ha hb ht
  case empty =>
    intro pos entry cyc w s x u v a b hf hx hw hv hs hp hi ho h2 hon hab h1 hm
    have gives : ∃ f, f.v = false ∧ slotTakes pos cyc w x = (v, f) := by
      by_cases h0 : reOpm w = 0
      · obtain ⟨ha, rfl⟩ := (if_pos h0).mp hm
        exact ⟨a, ha, (slotTakes_unmerged hab h0).trans h1⟩
      · obtain ⟨hb, hm⟩ := (if_neg h0).mp hm
        exact ⟨_, rfl, slotTakes_unmatched hab h0 h1 hb hm⟩
    obtain ⟨f, hfv, he⟩ := gives
    rw [exec_of_fits hf (exec_routerSlot ..), doRouterSlot_acts hx hw ⟨hv, hs, hp, hi, ho, h2, hon⟩, he, foldl_sendOut_empty hfv]
  case absorbed =>
    intro pos entry cyc w s x v hf hx hw hv hs hp hi ho h2 hon hb hab rfl
    rw [exec_of_fits hf (exec_routerSlot ..), doRouterSlot_acts hx hw ⟨hv, hs, hp, hi, ho, h2, hon⟩, slotTakes_absorbed hb hab, foldl_sendOut_empty rfl]

/-! BEAT_ORDER and BEAT_ORDER_LOST (R174, R208). -/

theorem doBeatOrder_taken {dst ctx cyc : Nat} {p : WPkt} {o : BeatOrd} {s u : State} (ht : (s.at cyc).take (WPkt.isOrder dst ctx) = some (p, u))
    (ho : p.order? = some o) : doBeatOrder dst ctx cyc s = keepOrder dst o u := by
  unfold doBeatOrder
  dsimp only
  rw [ht]
  dsimp only
  rw [ho]
  rfl
theorem keepOrder_region {dst : Nat} {o : BeatOrd} {u : State} (hb : o.beat = u.clk.beat + 1) (hc : uClass dst = 6) :
    keepOrder dst o u = u.onRegion (uRegion dst) (fun g => if g.rcFenced then g else { g with orders := addOrder u.clk.beat o g.orders }) := by
  rw [keepOrder, if_neg (not_not_intro hb), if_pos hc]
theorem keepOrder_stack {dst : Nat} {o : BeatOrd} {u : State} (hb : o.beat = u.clk.beat + 1) (hc : uClass dst = 0x10) :
    keepOrder dst o u = u.onSc (uSub dst) (fun x => { x with orders := addOrder u.clk.beat o x.orders }) := by
  rw [keepOrder, if_neg (not_not_intro hb), if_neg (by omega), if_pos hc]
theorem keepOrder_late {dst : Nat} {o : BeatOrd} {u : State} (hb : o.beat ≠ u.clk.beat + 1) : keepOrder dst o u = u := if_pos hb
/-- A region controller that serves the context and has no order for the next beat. -/
theorem doBeatOrderLost_region {r ctx : Nat} {s : State} (hr : r < 80) (ho : orderAt (s.region r).orders ctx (s.clk.beat + 1) = none)
    (hc : (s.ptagsIn r).contains ctx = true) : doBeatOrderLost (uidRc r) ctx s =
      ((s.at 0xFFF).onRegion r (fun g => { g with orders := g.orders ++ [⟨ctx, s.clk.beat + 1, false, 64⟩] })).report
        ⟨fcBeatOrderLost, uidRc r, s.stamp 0xFFF, 0, 0, ctx, []⟩ := by
  unfold doBeatOrderLost
  dsimp only
  rw [uRegion_uidRc hr, if_pos ⟨uClass_uidRc r, hr⟩]
  exact if_neg (not_or.mpr ⟨fun e => absurd ((congrArg Option.isSome ho).symm.trans e) (by decide), fun e => absurd (hc.symm.trans e) (by decide)⟩)
theorem doBeatOrderLost_stack {n ctx : Nat} {s : State} (hn : n < 24) : doBeatOrderLost (uidSc n) ctx s =
    (s.at 0xFFF).onSc n (fun x =>
      if (orderAt x.orders ctx (s.clk.beat + 1)).isSome then x else { x with orders := x.orders ++ [⟨ctx, s.clk.beat + 1, false, 64⟩] }) := by
  unfold doBeatOrderLost
  dsimp only
  rw [uSub_uidSc hn, if_neg (by simp), if_pos ⟨uClass_uidSc n, hn⟩]
  rfl

/-! ROUTE_SWITCH (R176). -/

/-- The region of a switch has given its work away: a run that loses its tiles is over, the sets stand as their substitute plans say. -/
def gaveAway (ctx : Nat) (w : Switch) (s : State) : State :=
  leaveWork w (switchSets ctx (workOf (s.region w.region) w.region) w
    (({ s with waggle := s.waggle.filter (fun p => !p.isSwitch ctx w) } : State).runLoses ctx w.region))
/-- A switch whose beat has come, to no region or to one whose compute is on. -/
theorem doRouteSwitch_due {ctx : Nat} {w : Switch} {s : State} (hw : (s.ctx ctx).switch = some w) (hb : w.beat ≤ s.clk.beat)
    (ht : w.target ≠ noRegion → (s.region w.target).cd = .on) : doRouteSwitch ctx s =
      if w.target = noRegion then gaveAway ctx w s else hostWork ctx w (workOf (s.region w.region) w.region) (gaveAway ctx w s) := by
  unfold doRouteSwitch
  rw [hw]
  exact if_neg (not_or.mpr ⟨Nat.not_lt.mpr hb, fun e => e.2 (ht e.1)⟩)
theorem doRouteSwitch_waits {ctx : Nat} {w : Switch} {s : State} (hw : (s.ctx ctx).switch = some w)
    (h : s.clk.beat < w.beat ∨ (w.target ≠ noRegion ∧ (s.region w.target).cd ≠ .on)) : doRouteSwitch ctx s = s := by
  unfold doRouteSwitch
  rw [hw]
  exact if_pos h

/-- Settles O19: each clause is the equation of its command above. -/
theorem meshCommandsComplete : Obligations.MeshCommandsComplete := by
  refine ⟨?slot, ?idle, ?order, ?region, ?stack, ?late, ?regionLost, ?stackLost, ?leave, ?host, ?waits⟩
  case slot =>
    intro pos entry cyc o n f s u hf hu hv hs hp hi hm hon hfly hfv hbad h0 h1 ht ho hout hn
    generalize hw : (u.router pos).routes.get 0 entry = w at *
    have acts : SlotActs pos cyc w u := ⟨hv, hs, hp, hi.le, by omega, absurd hm, hon⟩
    have no_tile : bit (reOut w) 4 = false := by rw [hout]; exact Nat.testBit_two_pow_of_ne (by omega)
    have takes : slotTakes pos cyc w u = ({ u with fly := u.fly.erase f }, f.flit) :=
      (slotTakes_unmerged (by simp [no_tile]) hm).trans (takeInput_arrived (by omega) hfly hbad h0 h1 ht)
    rw [exec_of_fits hf (exec_routerSlot ..), doRouterSlot_acts hu hw acts, takes, foldl_sendOut_side ho hout, if_pos hm, sendSide_next hfv hn]
    rfl
  case idle =>
    intro pos entry cyc s u hf hu h
    rw [exec_of_fits hf (exec_routerSlot ..), doRouterSlot_idle hu h]
  case order =>
    intro dst ctx cyc p o s u hf ht ho
    rw [exec_of_fits hf (exec_beatOrder ..), doBeatOrder_taken ht ho]
  case region => exact fun dst o u hb hc => keepOrder_region hb hc
  case stack => exact fun dst o u hb hc => keepOrder_stack hb hc
  case late => exact fun dst o u hb => keepOrder_late hb
  case regionLost =>
    intro r ctx s hf hr ho hc
    rw [exec_of_fits hf (exec_beatOrderLost ..), doBeatOrderLost_region hr ho hc]
  case stackLost =>
    intro n ctx s hf hn _
    rw [exec_of_fits hf (exec_beatOrderLost ..), doBeatOrderLost_stack hn]
  case leave =>
    intro ctx w s hf hw hb ht
    rw [exec_of_fits hf (exec_routeSwitch ..), doRouteSwitch_due hw hb (absurd ht), if_pos ht]
    rfl
  case host =>
    intro ctx w s hf hw hb ht hon
    rw [exec_of_fits hf (exec_routeSwitch ..), doRouteSwitch_due hw hb (fun _ => hon), if_neg ht]
    rfl
  case waits =>
    intro ctx w s hf hw h
    rw [exec_of_fits hf (exec_routeSwitch ..), doRouteSwitch_waits hw h]
end Sys2Proof.Machine
end

section
/-! SUPPORT. The Waggle: resends, fence orders, fault reports, telemetry, and the requests to a tile's agent (R186, R191, R386, R404, R405, R408), with the
statement that its commands complete. -/

namespace Sys2Proof.Machine

/-! WAGGLE_RESEND (R186). -/

/-- A hub's side of a link that is marked down. -/
def Hub.cut (n : Nat) (h : Hub) : Hub := { h with resends := h.resends.set 0 n 0, down := if h.down.contains n then h.down else h.down ++ [n] }
theorem doWaggleResend_again {hub next : Nat} {s : State} (hl : waggleLink hub next = true) (hd : (s.hubs.get {} hub).down.contains next = false)
    (hn : (s.hubs.get {} hub).resends.get 0 next < 3) :
    doWaggleResend hub next s = s.onHub hub (fun h => { h with resend := h.resend + 1, resends := h.resends.upd 0 next (· + 1) }) := by
  unfold doWaggleResend
  dsimp only
  rw [if_neg (by rw [hl, hd]; decide), if_pos hn]
/-- After three resends the link is down: on both sides of a link between hubs. -/
theorem doWaggleResend_down {hub next : Nat} {s : State} (hl : waggleLink hub next = true) (hd : (s.hubs.get {} hub).down.contains next = false)
    (hn : 3 ≤ (s.hubs.get {} hub).resends.get 0 next) : doWaggleResend hub next s =
      (if next < 80 then (s.onHub hub (Hub.cut next)).onHub next (Hub.cut hub) else s.onHub hub (Hub.cut next)).report
        ⟨fcWaggleLink, uidTransit hub, s.now, 0, 0, 0, [uidNeighbour next]⟩ := by
  unfold doWaggleResend
  dsimp only
  rw [if_neg (by rw [hl, hd]; decide), if_neg (Nat.not_lt.mpr hn)]
  rfl
theorem waggleLink_hubs {hub next : Nat} (hn : next < 80) : waggleLink hub next = (facing hub next).isSome := if_pos hn
theorem uidNeighbour_hub {next : Nat} (hn : next < 80) : uidNeighbour next = uidTransit next := if_pos hn

/-! FENCE_ORDER (R404, R405). -/

theorem doFenceOrder_tile {dst : Nat} {p : WPkt} {s u : State} (ht : s.take (WPkt.isFence dst 1 0) = some (p, u)) (hc : uClass dst = 1)
    (hr : uRegion dst < 80) : doFenceOrder dst 1 0 s = u.onTile (uTile dst) Tile.fence := by
  rw [doFenceOrder, ht]
  exact if_pos ⟨rfl, hc, hr⟩
theorem doFenceOrder_region {dst ctx : Nat} {p : WPkt} {s u : State} (ht : s.take (WPkt.isFence dst 2 ctx) = some (p, u)) (hc : uClass dst = 6)
    (hr : uRegion dst < 80) :
    doFenceOrder dst 2 ctx s = if u.serves (uRegion dst) = ctx then u.onTiles [uRegion dst] Tile.fence else u := by
  rw [doFenceOrder, ht]
  exact (if_neg (by simp)).trans (if_pos ⟨rfl, hc, hr⟩)
theorem doFenceOrder_controller {dst : Nat} {p : WPkt} {s u : State} (ht : s.take (WPkt.isFence dst 3 0) = some (p, u)) (hc : uClass dst = 6)
    (hr : uRegion dst < 80) : doFenceOrder dst 3 0 s = u.onRegion (uRegion dst) (fun g => { g with rcFenced := true }) := by
  rw [doFenceOrder, ht]
  exact (if_neg (by simp)).trans ((if_neg (by simp)).trans (if_pos ⟨rfl, hc, hr⟩))

/-! FAULT_REPORT (R405, R408). -/

theorem doFaultReport_taken {unit cls stamp : Nat} {p : WPkt} {r : FReport} {s u : State} (ht : s.take (WPkt.isFault unit cls stamp) = some (p, u))
    (hr : p.fault? = some r) : doFaultReport unit cls stamp s = faultArrives r u := by
  rw [doFaultReport, ht]
  dsimp only
  rw [hr]
  rfl
/-- A class of the reactions from S on holds no partition. -/
theorem holdOf_none {cls : Nat} (det : List Nat) (h : 5 ≤ reaction cls) : holdOf cls det = none := by
  unfold holdOf
  split
  case h_5 => rfl
  all_goals omega
theorem holdOf_fence {cls : Nat} (det : List Nat) (h : reaction cls = 1) : holdOf cls det = some .fence := by
  simp only [holdOf, h]
/-- A tile's fault whose class asks for no fence, no lease and no hold: the record alone. -/
theorem faultArrives_recordsOnly {r : FReport} {u : State} (hc : uClass r.unit = 1) (ht : u.unitUnderTest r.unit = false) (hr : 5 ≤ reaction r.cls) :
    faultArrives r u = u.record r := by
  have no_fence : ¬ (reaction r.cls = 1 ∨ reaction r.cls = 2) := by omega
  have no_reclaim : ¬ reaction r.cls ≤ 2 := by omega
  simp [faultArrives, hc, ht, no_fence, no_reclaim, holdOf_none r.det hr]
/-- A tile's fault whose class fences it. -/
theorem faultArrives_fences {r : FReport} {u : State} (hc : uClass r.unit = 1) (ht : u.unitUnderTest r.unit = false) (hs : u.secondary r = none)
    (hr : reaction r.cls = 1) : faultArrives r u = ((((u.send (uidRc (unitHome r.unit)) (uidTile (uTile r.unit) 0)
      (.fence 1 (uidTile (uTile r.unit) 0) r.ctx)).reclaim (fun l => decide (l.holder = r.unit))).askHold r.ctx r.unit .fence)).record r := by
  simp [faultArrives, hc, ht, hr, hs, holdOf_fence r.det hr]

/-! TELEMETRY (R386). -/

theorem doTelemetry_region {r : Nat} {p : WPkt} {w : List Nat} {s u : State} (hr : r < 80) (ht : s.take (WPkt.isTele (uidRc r)) = some (p, u))
    (hp : p.tele? = some (uidRc r, w)) :
    doTelemetry (uidRc r) s = ({ u with tele := u.tele.set [] r w } : State).onRegion r (fun g => { g with teleWin := u.clk.beat / 1024 }) := by
  have hi : teleIdx (uidRc r) = r := (if_pos (by simp)).trans (uRegion_uidRc hr)
  rw [doTelemetry, ht]
  dsimp only
  rw [hp, Option.elim_some, keepTele, hi, if_pos (by simp), uRegion_uidRc hr]

/-! Requests to a tile's agent (R191). -/

theorem doSpRead_arrives {tile src addr : Nat} {s u : State} (h : s.request src tile = (u, true)) : doSpRead tile src addr s = agentRead tile src addr u := by
  rw [doSpRead, h]
  rfl
theorem doSpWrite_arrives {tile src addr : Nat} {word : Line} {s u : State} (h : s.request src tile = (u, true)) :
    doSpWrite tile src addr word s = agentWrite tile src addr word u := by
  rw [doSpWrite, h]
  rfl
theorem doRegRead_arrives {tile src reg : Nat} {s u : State} (h : s.request src tile = (u, true)) :
    doRegRead tile src reg s = agentRegRead tile src reg u := by
  rw [doRegRead, h]
  rfl
theorem doRegWrite_arrives {tile src reg : Nat} {v : BitVec 64} {s u : State} (h : s.request src tile = (u, true)) :
    doRegWrite tile src reg v s = agentRegWrite tile src reg v u := by
  rw [doRegWrite, h]
  rfl
/-- A word without an error passes its check. -/
theorem checkWord_ok {w : Nat} {t : Tile} (m : Nat) (h : t.errs.get 0 w = 0) : checkWord m t w = .ok t () := by
  simp only [checkWord, h]
theorem agentRead_good {tile src addr : Nat} {u : State} (hp : u.tilePowered tile = true) (ha : addr % 32 = 0) (hm : (u.tile tile).map.there addr = true)
    (he : (u.tile tile).errs.get 0 (addr / 32) = 0) : agentRead tile src addr u =
      (u.setTile tile (u.tile tile)).send (uidAgent tile) src (.spReply stOk ((u.tile tile).mem.rdLE addr 32)) := by
  unfold agentRead
  dsimp only
  rw [if_neg (by simp [hp]), if_neg (by simp [ha, hm]), checkWord_ok 4 he]
  rfl
theorem agentWrite_good {tile src addr : Nat} {word : Line} {u : State} (hp : u.tilePowered tile = true) (ha : addr % 32 = 0)
    (hm : (u.tile tile).map.there addr = true) : agentWrite tile src addr word u =
      (u.onTile tile (fun t => t.putWord addr word.toNat)).send (uidAgent tile) src (.spReply stOk word.toNat) := by
  rw [agentWrite, if_neg (by simp [hp]), if_neg (by simp [ha, hm])]
  rfl
theorem agentRead_outside {tile src addr : Nat} {u : State} (hp : u.tilePowered tile = true) (h : addr % 32 ≠ 0 ∨ (u.tile tile).map.there addr = false) :
    agentRead tile src addr u = u.send (uidAgent tile) src (.spReply stBadParam 0) := by
  unfold agentRead
  dsimp only
  rw [if_neg (by simp [hp]), if_pos h]
  rfl
theorem agentWrite_outside {tile src addr : Nat} {word : Line} {u : State} (hp : u.tilePowered tile = true)
    (h : addr % 32 ≠ 0 ∨ (u.tile tile).map.there addr = false) :
    agentWrite tile src addr word u = u.send (uidAgent tile) src (.spReply stBadParam 0) := by
  rw [agentWrite, if_neg (by simp [hp]), if_pos h]
  rfl
theorem agentRegRead_powered {tile src reg : Nat} {u : State} (hp : u.tilePowered tile = true) : agentRegRead tile src reg u =
    u.send (uidAgent tile) src (if regKnown reg then .regReply stOk ((u.tile tile).regAt u.now reg) else .regReply stBadParam 0) := by
  rw [agentRegRead, if_neg (by simp [hp])]
  split <;> rfl
theorem agentRegWrite_writable {tile src reg : Nat} {v : BitVec 64} {u : State} (hp : u.tilePowered tile = true) (hw : regWritable reg = true) :
    agentRegWrite tile src reg v u = (u.onTile tile (fun t => t.writeBy 2 reg v.toNat)).send (uidAgent tile) src
      (.regReply stOk (((u.onTile tile (fun t => t.writeBy 2 reg v.toNat)).tile tile).regAt u.now reg)) := by
  rw [agentRegWrite, if_neg (by simp [hp]), if_pos hw]
  rfl
theorem agentRegWrite_fixed {tile src reg : Nat} {v : BitVec 64} {u : State} (hp : u.tilePowered tile = true) (hw : regWritable reg = false) :
    agentRegWrite tile src reg v u = u.send (uidAgent tile) src (.regReply stBadParam 0) := by
  rw [agentRegWrite, if_neg (by simp [hp]), if_neg (by simp [hw])]
  rfl
theorem takeReply_taken {tile dst : Nat} {sp : Bool} {p : WPkt} {s u : State} (h : s.take (WPkt.isReply tile dst sp) = some (p, u)) :
    takeReply tile dst sp s = u := by
  rw [takeReply, h]

/-! SHORT_MSG (R189, R191). -/

theorem doShortMsg_empty (tile seq : Nat) (s : State) : doShortMsg tile seq [] s = s.dropAt (tile / 64) := if_pos rfl
theorem doShortMsg_unowned {tile seq : Nat} {words : List Nat} {s u : State} (hw : words ≠ []) (h : s.request (uidRc (tile / 64)) tile = (u, true))
    (hb : (u.tile tile).map.agentBank = none) : doShortMsg tile seq words s = u.dropAt (tile / 64) := by
  unfold doShortMsg
  dsimp only
  rw [if_neg hw, h]
  dsimp only
  rw [if_neg (by simp), hb]
/-- The next entry of the mailbox ring. -/
theorem doShortMsg_mailed {tile seq b : Nat} {words : List Nat} {s u : State} (hw : words ≠ []) (h : s.request (uidRc (tile / 64)) tile = (u, true))
    (hp : u.tilePowered tile = true) (hb : (u.tile tile).map.agentBank = some b) : doShortMsg tile seq words s =
      u.setTile tile { mailWords (u.tile tile).map b ((if (u.tile tile).map.dual b then 4096 else 8192) - 128 + 2 * (u.tile tile).mbox)
        (bytesWords (fitBytes 64 (leBytes 4 (fld words.length 5 17 + fld seq 7 10) ++ words.flatMap (leBytes 4)))) (u.tile tile) with
          mbox := ((u.tile tile).mbox + 1) % 64 } := by
  unfold doShortMsg
  dsimp only
  rw [if_neg hw, h]
  dsimp only
  rw [if_neg (by simp), hb]
  exact if_neg (by simp [hp])

/-- Settles O20: each packet or event has the outcome that the equation of its command above gives. -/
theorem waggleCommandsComplete : Obligations.WaggleCommandsComplete := by
  refine ⟨?hubs, ?side, ?fenceTile, ?fenceRegion, ?fenceController, ?recorded, ?fenced, ?tele, ?read, ?write, ?outside, ?regRead, ?regWrite, ?regFixed,
    ?lost, ?spReply, ?regReply, ?kept, ?unowned, ?empty⟩
  case hubs =>
    intro hub next s hf hn hl hd
    have hl' : waggleLink hub next = true := (waggleLink_hubs hn).trans hl
    refine ⟨fun hr => ?_, fun hr => ?_⟩
    · rw [exec_of_fits hf (exec_waggleResend ..), doWaggleResend_again hl' hd hr]
    · rw [exec_of_fits hf (exec_waggleResend ..), doWaggleResend_down hl' hd hr, if_pos hn, uidNeighbour_hub hn]
      rfl
  case side =>
    intro hub next s hf hn hl hd hr
    rw [exec_of_fits hf (exec_waggleResend ..), doWaggleResend_down hl hd hr, if_neg (Nat.not_lt.mpr hn)]
    rfl
  case fenceTile =>
    intro dst p s u hf ht hc hr
    rw [exec_of_fits hf (exec_fenceOrder ..), doFenceOrder_tile ht hc hr]
  case fenceRegion =>
    intro dst ctx p s u hf ht hc hr
    rw [exec_of_fits hf (exec_fenceOrder ..), doFenceOrder_region ht hc hr]
  case fenceController =>
    intro dst p s u hf ht hc hr
    rw [exec_of_fits hf (exec_fenceOrder ..), doFenceOrder_controller ht hc hr]
  case recorded =>
    intro unit cls stamp p r s u hf ht hp hc hu hr
    rw [exec_of_fits hf (exec_faultReport ..), doFaultReport_taken ht hp, faultArrives_recordsOnly hc hu hr]
  case fenced =>
    intro unit cls stamp p r s u hf ht hp hc hu hs hr
    rw [exec_of_fits hf (exec_faultReport ..), doFaultReport_taken ht hp, faultArrives_fences hc hu hs hr]
  case tele =>
    intro r unit p w s u hf hr hu ht hp
    rw [hu] at hf ht hp ⊢
    rw [exec_of_fits hf (exec_telemetry ..), doTelemetry_region hr ht hp]
  case read =>
    intro tile src addr s u hf h hp ha hm he
    rw [exec_of_fits hf (exec_spRead ..), doSpRead_arrives h, agentRead_good hp ha hm he]
  case write =>
    intro tile src addr word s u hf h hp ha hm
    rw [exec_of_fits hf (exec_spWrite ..), doSpWrite_arrives h, agentWrite_good hp ha hm]
    rfl
  case outside =>
    intro tile src addr word s u hr hw h hp ho
    refine ⟨?_, ?_⟩
    · rw [exec_of_fits hr (exec_spRead ..), doSpRead_arrives h, agentRead_outside hp ho]
    · rw [exec_of_fits hw (exec_spWrite ..), doSpWrite_arrives h, agentWrite_outside hp ho]
  case regRead =>
    intro tile src reg s u hf h hp
    rw [exec_of_fits hf (exec_regRead ..), doRegRead_arrives h, agentRegRead_powered hp]
  case regWrite =>
    intro tile src reg v s u hf h hp hw
    rw [exec_of_fits hf (exec_regWrite ..), doRegWrite_arrives h, agentRegWrite_writable hp hw]
  case regFixed =>
    intro tile src reg v s u hf h hp hw
    rw [exec_of_fits hf (exec_regWrite ..), doRegWrite_arrives h, agentRegWrite_fixed hp hw]
  case lost =>
    intro tile src addr reg word v s u h
    refine ⟨fun hf => ?_, fun hf => ?_, fun hf => ?_, fun hf => ?_⟩
    · rw [exec_of_fits hf (exec_spRead ..), doSpRead, h]; rfl
    · rw [exec_of_fits hf (exec_spWrite ..), doSpWrite, h]; rfl
    · rw [exec_of_fits hf (exec_regRead ..), doRegRead, h]; rfl
    · rw [exec_of_fits hf (exec_regWrite ..), doRegWrite, h]; rfl
  case spReply =>
    intro tile dst p s u hf h
    rw [exec_of_fits hf (exec_spReply ..), doSpReply, takeReply_taken h]
  case regReply =>
    intro tile dst p s u hf h
    rw [exec_of_fits hf (exec_regReply ..), doRegReply, takeReply_taken h]
  case kept =>
    intro tile seq words b s u hf hw h hp hb
    rw [exec_of_fits hf (exec_shortMsg ..), doShortMsg_mailed hw h hp hb]
  case unowned =>
    intro tile seq words s u hf hw h hb
    rw [exec_of_fits hf (exec_shortMsg ..), doShortMsg_unowned hw h hb]
    rfl
  case empty =>
    intro tile seq s hf
    rw [exec_of_fits hf (exec_shortMsg ..), doShortMsg_empty]
    rfl
end Sys2Proof.Machine
end

section
/-! SUPPORT. The commands about pages, extents and streams on the states that the statement about them names (R204, R205, R208, R211, R221 to R223,
R348). -/

namespace Sys2Proof.Machine

theorem State.extD_of_ext {s : State} {e : Nat} {x : ExtEnt} (he : s.ext e = some x) : s.extD e = x := by
  rw [State.extD, he]; rfl
theorem State.ownExt_of_ext {s : State} {h : Hdr} {e : Nat} {x : ExtEnt} (he : s.ext e = some x) : s.ownExt h e = decide (x.ctx = h.ctx) := by
  rw [State.ownExt, he]; rfl
theorem State.hasPage_of_ext {s : State} {e l : Nat} {x : ExtEnt} (he : s.ext e = some x) : s.hasPage e l = decide (l < x.pages) := by
  rw [State.hasPage, he]; rfl

/-- All of the source has been read, so all of it is written. -/
theorem copyExtent_read {src dst soff doff len : Nat} {b : List Byte} {s u : State}
    (hr : (s.spendIo src soff (64 * len)).readExt src (s.extD src) soff (64 * len) = (u, .ok b)) :
    copyExtent h src dst soff doff len s = ((u.spendIo dst doff (64 * len)).writeExt dst (s.extD dst) doff b, stOk, len) := by
  unfold copyExtent
  dsimp only
  rw [hr]

/-- Settles O31: a packet that comes is answered by its command's own part, whose checks are passed or failed as the clause says. -/
theorem storeCommandsComplete : Obligations.StoreCommandsComplete := by
  refine ⟨?address, ?present, ?retire, ?retireBusy, ?copy, ?copied, ?arm, ?armRefused, ?resume, ?resumeBad, ?abort, ?status, ?abortDenied, ?retireDenied⟩
  case address =>
    intro h ext page addr e s t hf hc hfar he ho hp hw hpr ha hl
    have own : ¬((t.ctx h.ctx).farPg = false ∨ t.ownExt h ext = false) := by simp [hfar, State.ownExt_of_ext he, ho]
    rw [exec_of_fits hf (exec_pageMapFar ..), doPageMapFar, packet_comes hc]
    dsimp only
    rw [State.extD_of_ext he, if_neg own,
      check6_ok _ (rsv_of_comes hc) (by simpa [State.hasPage_of_ext he, show bit 2 1 = true by decide, hp, hw, hpr, ha] using hl), apply_done]
    rfl
  case present =>
    intro h ext page e s t hf hc hfar he ho hp hw
    have own : ¬((t.ctx h.ctx).farPg = false ∨ t.ownExt h ext = false) := by simp [hfar, State.ownExt_of_ext he, ho]
    rw [exec_of_fits hf (exec_pageMapFar ..), doPageMapFar, packet_comes hc]
    dsimp only
    rw [State.extD_of_ext he, if_neg own,
      check6_ok _ (rsv_of_comes hc) (by simp [State.hasPage_of_ext he, show bit 1 1 = false by decide, hp, hw]), apply_done]
    rfl
  case retire =>
    intro h ext page e n s t hf hc he ho hp hw hs hn
    rw [exec_of_fits hf (exec_pageRetire ..), doPageRetire, packet_comes hc]
    dsimp only
    rw [State.extD_of_ext he, if_neg (by simp [State.ownExt_of_ext he, ho]),
      check6_ok _ (rsv_of_comes hc) (by simp [State.hasPage_of_ext he, hp, hw]), if_neg (by simp [hs]), hn, apply_acceptNow]
  case retireBusy =>
    intro h ext page e s t hf hc he ho hp hw hs
    rw [exec_of_fits hf (exec_pageRetire ..), doPageRetire, packet_comes hc]
    dsimp only
    rw [State.extD_of_ext he, if_neg (by simp [State.ownExt_of_ext he, ho]),
      check6_ok _ (rsv_of_comes hc) (by simp [State.hasPage_of_ext he, hp, hw]), if_pos hs, apply_refuse]
  case copy =>
    intro h src dst soff doff len x y s t hf hc hx hy hxc hyc hxk hyk h1 h2 h3 h4 h5 h6
    rw [exec_of_fits hf (exec_extentCopy ..), doExtentCopy, packet_comes hc]
    dsimp only
    rw [State.extD_of_ext hx, State.extD_of_ext hy, if_neg (by simp [State.ownExt_of_ext hx, State.ownExt_of_ext hy, hx, hy, hxc, hyc, hxk, hyk]),
      check6_ok _ (rsv_of_comes hc) (by simp [hx, hy, h1, h2, h3, h4, h5, h6]), if_neg (by simp [hyk]), apply_acceptNow]
  case copied => exact fun h src dst soff doff len b s u hr => copyExtent_read hr
  case arm =>
    intro h stream d s t hf hc ht hr
    rw [exec_of_fits hf (exec_streamArm ..), doStreamArm, packet_comes hc, hr, if_neg (by simp), check6_ok _ (rsv_of_comes hc) ht]
    rfl
  case armRefused =>
    intro h stream d st s t hf hc ht hr
    rw [exec_of_fits hf (exec_streamArm ..), doStreamArm, packet_comes hc, hr, check6_ok _ (rsv_of_comes hc) ht]
    by_cases hd : st = stDenied
    · rw [hd, if_pos ⟨ht, rfl⟩, apply_refuse]
    · rw [if_neg (by simp [hd]), apply_refuse]
  case resume =>
    intro h stream s t hf hc ht ho hs
    rw [exec_of_fits hf (exec_streamResume ..), doStreamResume, packet_comes hc, if_neg (by simp [ho]),
      check6_ok _ (rsv_of_comes hc) (by simp [ht, hs]), apply_done]
  case resumeBad =>
    intro h stream s t hf hc ht ho hs
    rw [exec_of_fits hf (exec_streamResume ..), doStreamResume, packet_comes hc, if_neg (by simp [ho]), check6_bad _ (by simp [hs]), apply_refuse]
  case abort =>
    intro h stream s t hf hc ht ho hl
    rw [exec_of_fits hf (exec_streamAbort ..), doStreamAbort, packet_comes hc, if_neg (by simp [ho]),
      check6_ok _ (rsv_of_comes hc) (by simp [ht, hl]), apply_done]
  case status =>
    intro h first count x s t hf hc h1 h64 hs hx hl
    rw [exec_of_fits hf (exec_streamStatus ..), doStreamStatus, packet_comes hc]
    dsimp only
    rw [if_neg, writeOut_ok _ _ hx (rsv_of_comes hc) _ hl, List.flatMap_map]
    · simpa [h1, h64] using fun n hn => (hs n hn).1
    · simpa using fun _ n hn => (hs n hn).2
  case abortDenied =>
    intro h stream s t hf hc ht ho
    rw [exec_of_fits hf (exec_streamAbort ..), doStreamAbort, packet_comes hc, if_pos ⟨ht, ho⟩, apply_refuse]
  case retireDenied =>
    intro h ext page s t hf hc ho
    rw [exec_of_fits hf (exec_pageRetire ..), doPageRetire, packet_comes hc, if_pos ho, apply_refuse]
end Sys2Proof.Machine
end

section
/-! SUPPORT. The commands of a stack controller on the states that the statement about them names (R200, R203, R210, R213 to R218, R221, R398). -/

namespace Sys2Proof.Machine

/-! Granules (R215, R217, R398). -/

/-- Stack time goes to the stream that is next. -/
theorem doRegulatorGrant_serves {sc n : Nat} {k : List Nat} {s : State} (hs : (s.sc sc).serving = true) (ht : s.throttled sc = false)
    (hg : s.grantee sc true = some (k, n)) (hz : s.ztPage sc = none ∨ s.lowDue sc (k.headD 3) = false) :
    doRegulatorGrant sc s = s.serve sc n true := by
  unfold doRegulatorGrant
  simp only [hs, ht, Bool.not_false, if_true, Bool.true_eq_false, if_false, hg]
  cases hp : s.ztPage sc with
  | none => rfl
  | some p =>
    have hd : s.lowDue sc (k.headD 3) = false := hz.resolve_left (by simp [hp])
    simp only [hd, Bool.false_eq_true, if_false]
/-- Stack time goes to the page that waits, where no stream asks or the share of class 4 is due. -/
theorem doRegulatorGrant_fills {sc : Nat} {p : Nat × ExtEnt × Nat} {s : State} (hs : (s.sc sc).serving = true) (ht : s.throttled sc = false)
    (hz : s.ztPage sc = some p) (hd : (s.grantee sc true).all (fun k => s.lowDue sc (k.1.headD 3)) = true) :
    doRegulatorGrant sc s = s.fillLow sc p := by
  unfold doRegulatorGrant
  simp only [hs, ht, Bool.not_false, if_true, Bool.true_eq_false, if_false, hz]
  cases hg : s.grantee sc true with
  | none => rfl
  | some k =>
    rw [hg] at hd
    exact if_pos hd
/-- A throttled stack has no stack time to give, to a stream or to a page. -/
theorem doRegulatorGrant_throttled {sc : Nat} {s : State} (hs : (s.sc sc).serving = true) (ht : s.throttled sc = true) :
    doRegulatorGrant sc s = (s.grantee sc false).elim s (fun k => s.serve sc k.2 false) := by
  unfold doRegulatorGrant
  simp only [hs, ht, Bool.not_true, Bool.true_eq_false, Bool.false_eq_true, if_false]
  cases s.grantee sc false <;> rfl

/-! Edge-port slots (R210, R214). -/

theorem doEdgePortSlot_in {sc port cyc : Nat} {s : State} (hs : (s.sc sc).serving = true) :
    doEdgePortSlot sc port cyc false s = inboundSlot sc port cyc (s.at cyc) := by
  simp [doEdgePortSlot, hs]
/-- No port before this one has a flit for the same parcel. -/
theorem doEdgePortSlot_out {sc port cyc : Nat} {s : State} (hs : (s.sc sc).serving = true) (hb : (s.at cyc).portsBefore sc port cyc = []) :
    doEdgePortSlot sc port cyc true s = outboundSlot sc port cyc (s.at cyc) := by
  simp [doEdgePortSlot, hs, hb]

section
variable {sc port cyc n : Nat} {x : Slot} {s : State} (hc : s.slotClaim sc port cyc false = some (n, x))
  (hp : (portsOf (sdPorts x.desc)).head? = some port) (hl : x.done < sdTotal x.desc)
include hc hp hl

/-- The lowest port of the group takes the next flit, and every port presents it. -/
theorem inboundSlot_presents {d : Nat} {ds : List Nat} (hb : x.buf = d :: ds) :
    inboundSlot sc port cyc s = { s.onSlot sc n (fun y => { y with
        buf := ds, done := y.done + 1, st := if x.done + 1 = sdTotal x.desc then .done else y.st
        doneAt := if x.done + 1 = sdTotal x.desc then s.clk.beat else y.doneAt }) with
      fly := s.fly ++ (portsOf (sdPorts x.desc)).map (fun q =>
        ⟨(edgeTile (12 * sc + q)).1, (edgeTile (12 * sc + q)).2, s.clk.beat, cyc, { w0 := d % 2 ^ 256, w1 := d / 2 ^ 256, ptag := x.ctx, v := true }⟩) } := by
  unfold inboundSlot
  rw [hc]
  dsimp only
  rw [if_neg (by simp [hp, hl]), hb]
  simp only [decide_eq_true_eq]
  rfl
theorem inboundSlot_underruns (hb : x.buf = []) :
    inboundSlot sc port cyc s = (s.onSlot sc n (Slot.abort 7)).edgeFault fcStreamUnderrun sc (12 * sc + port) x.ctx (64 * sc + n) cyc := by
  unfold inboundSlot
  rw [hc]
  dsimp only
  rw [if_neg (by simp [hp, hl]), hb]
end

section
variable {sc port cyc : Nat} {f : Fly} {s : State}
  (hf : s.fly.find? (fun f => f.port = 5 && f.dst = 12 * sc + port && f.beat = s.clk.beat && f.cyc = cyc) = some f)
include hf

theorem outboundSlot_unreadable (hu : f.flit.unreadable = true) :
    outboundSlot sc port cyc s = ({ s with fly := s.fly.erase f } : State).report
      ⟨fcMeshUncorrectable, uidSc sc, s.stamp cyc, 0, 0, f.flit.ptag, [12 * sc + port, f.flit.ptag]⟩ := by
  unfold outboundSlot
  dsimp only
  rw [hf]
  exact if_pos hu
/-- A write stream claims the slot and has room for a flit of its walk. -/
theorem outboundSlot_buffers {n : Nat} {x : Slot} (hu : f.flit.unreadable = false)
    (hc : ({ s with fly := s.fly.erase f } : State).slotClaim sc port cyc true = some (n, x)) (hr : x.buf.length < sdRoom x.desc)
    (ht : x.pos + x.buf.length < sdTotal x.desc) :
    outboundSlot sc port cyc s =
      ({ s with fly := s.fly.erase f } : State).onSlot sc n (fun x => { x with buf := x.buf ++ [f.flit.w0 + 2 ^ 256 * f.flit.w1] }) := by
  unfold outboundSlot
  dsimp only
  rw [hf]
  dsimp only
  rw [if_neg (by simp [hu]), hc]
  exact if_neg (by omega)
theorem outboundSlot_unclaimed (hu : f.flit.unreadable = false)
    (hc : ({ s with fly := s.fly.erase f } : State).slotClaim sc port cyc true = none)
    (hr : ({ s with fly := s.fly.erase f } : State).redClaim sc port cyc = none) :
    outboundSlot sc port cyc s = ({ s with fly := s.fly.erase f } : State).edgeFault fcEdgeUnclaimed sc (12 * sc + port) f.flit.ptag 0xFFFFFFFF cyc := by
  unfold outboundSlot
  dsimp only
  rw [hf]
  dsimp only
  rw [if_neg (by simp [hu]), hc]
  dsimp only
  rw [hr]
end

/-! Deadlines and patrol (R203, R213). -/

theorem doStreamDeadline_late {sc slot : Nat} {x : Slot} {s : State} (hx : (s.sc sc).slots.get {} slot = x) (hl : x.live = true)
    (hb : (s.ctx x.ctx).part.begun = true) (hd : sdDeadline x.desc ≤ (s.ctx x.ctx).part.planBeat) (ht : x.done < sdTotal x.desc) :
    doStreamDeadline sc slot s = (s.onSlot sc slot (Slot.abort 4)).report
      ⟨fcStreamDeadline, uidSc sc, s.now, 0, 0, x.ctx, [64 * sc + slot, sdTotal x.desc - x.done]⟩ := by
  subst hx
  exact if_pos ⟨hl, hb, hd, by omega⟩
theorem doStreamDeadline_early {sc slot : Nat} {s : State}
    (hd : (s.ctx ((s.sc sc).slots.get {} slot).ctx).part.planBeat < sdDeadline ((s.sc sc).slots.get {} slot).desc) :
    doStreamDeadline sc slot s = s :=
  if_neg fun ⟨_, _, h, _⟩ => absurd h (Nat.not_le.mpr hd)

section
variable {sc : Nat} {s : State} (hs : (s.sc sc).serving = true) (ht : s.throttled sc = false)
include hs ht

theorem doStackPatrol_unused (hu : (s.sc sc).pageUsed (s.sc sc).patrol = false) : doStackPatrol sc s = s.onSc sc Sc.patrolled := by
  unfold doStackPatrol
  dsimp only
  rw [if_neg (by simp [hs, ht]), if_pos hu]
theorem doStackPatrol_clean (hu : (s.sc sc).pageUsed (s.sc sc).patrol = true) (he : (s.sc sc).pageErrs (s.sc sc).patrol false = []) :
    doStackPatrol sc s = (s.onSc sc Sc.patrolled).onSc sc (Sc.spendLow 0 1024) := by
  unfold doStackPatrol
  dsimp only
  rw [if_neg (by simp [hs, ht]), if_neg (by simp [hu]), he]
  rfl
/-- One word of the page cannot be corrected. -/
theorem doStackPatrol_uncorrectable {p : Nat × Nat} {w : Nat × ExtEnt × Nat} (hu : (s.sc sc).pageUsed (s.sc sc).patrol = true)
    (he : (s.sc sc).pageErrs (s.sc sc).patrol false = [p])
    (hw : ((s.onSc sc Sc.patrolled).onSc sc (Sc.spendLow 0 1024)).pageUser sc (s.sc sc).patrol = some w) :
    doStackPatrol sc s = ((s.onSc sc Sc.patrolled).onSc sc (Sc.spendLow 0 1024)).report ⟨fcStoreUncorrectable, uidSc sc, s.now, 0, 0, w.2.1.ctx,
      [0xFFFFFFFF, w.1, (w.2.2 * pageBytes + p.1 % 65536 * 32) % 2 ^ 32, (w.2.2 * pageBytes + p.1 % 65536 * 32) / 2 ^ 32]⟩ := by
  unfold doStackPatrol
  dsimp only
  rw [if_neg (by simp [hs, ht]), if_neg (by simp [hu]), he, hw]
  rfl
end

/-- Settles O22: each command has the outcome that its equation above gives. -/
theorem rimCommandsComplete : Obligations.RimCommandsComplete := by
  refine ⟨?serve, ?fill, ?untimed, ?idle, ?forecast, ?short, ?presents, ?underrun, ?buffers, ?unclaimed, ?unreadable, ?late, ?early,
    ?unused, ?clean, ?uncorrectable⟩
  case serve =>
    intro sc k n s hf hs ht hg hz
    rw [exec_of_fits hf (exec_regulatorGrant ..), doRegulatorGrant_serves hs ht hg hz]
  case fill =>
    intro sc p s hf hs ht hz hd
    rw [exec_of_fits hf (exec_regulatorGrant ..), doRegulatorGrant_fills hs ht hz hd]
  case untimed =>
    intro sc k n s hf hs ht hg
    rw [exec_of_fits hf (exec_regulatorGrant ..), doRegulatorGrant_throttled hs ht, hg]
    rfl
  case idle =>
    intro sc s hf hs ht hg
    rw [exec_of_fits hf (exec_regulatorGrant ..), doRegulatorGrant_throttled hs ht, hg]
    rfl
  case forecast =>
    intro sc ctx s hf hr
    rw [exec_of_fits hf (exec_streamForecast ..), doStreamForecast]
    exact congrArg _ (if_neg (by simp [hr]))
  case short =>
    intro sc ctx s hf hr hu
    rw [exec_of_fits hf (exec_streamForecast ..), doStreamForecast]
    exact congrArg _ (if_pos ⟨hr, hu⟩)
  case presents =>
    intro sc port cyc n x d ds s hf hs hc hp hl hb
    rw [exec_of_fits hf (exec_edgePortSlot ..), doEdgePortSlot_in hs, inboundSlot_presents hc hp hl hb]
    rfl
  case underrun =>
    intro sc port cyc n x s hf hs hc hp hl hb
    rw [exec_of_fits hf (exec_edgePortSlot ..), doEdgePortSlot_in hs, inboundSlot_underruns hc hp hl hb]
  case buffers =>
    intro sc port cyc n x f s hf hs hb hfly hu hc hr ht
    rw [exec_of_fits hf (exec_edgePortSlot ..), doEdgePortSlot_out hs hb, outboundSlot_buffers (s := s.at cyc) hfly hu hc hr ht]
    rfl
  case unclaimed =>
    intro sc port cyc f s hf hs hb hfly hu hc hr
    rw [exec_of_fits hf (exec_edgePortSlot ..), doEdgePortSlot_out hs hb, outboundSlot_unclaimed (s := s.at cyc) hfly hu hc hr]
    rfl
  case unreadable =>
    intro sc port cyc f s hf hs hb hfly hu
    rw [exec_of_fits hf (exec_edgePortSlot ..), doEdgePortSlot_out hs hb, outboundSlot_unreadable (s := s.at cyc) hfly hu]
    rfl
  case late =>
    intro sc slot x s hf hx hl hb hd ht
    rw [exec_of_fits hf (exec_streamDeadline ..), doStreamDeadline_late hx hl hb hd ht]
  case early =>
    intro sc slot s hf hd
    rw [exec_of_fits hf (exec_streamDeadline ..), doStreamDeadline_early hd]
  case unused =>
    intro sc s hf hs ht hu
    rw [exec_of_fits hf (exec_stackPatrol ..), doStackPatrol_unused hs ht hu]
  case clean =>
    intro sc s hf hs ht hu he
    rw [exec_of_fits hf (exec_stackPatrol ..), doStackPatrol_clean hs ht hu he]
  case uncorrectable =>
    intro sc p w s hf hs ht hu he hw
    rw [exec_of_fits hf (exec_stackPatrol ..), doStackPatrol_uncorrectable hs ht hu he hw]
end Sys2Proof.Machine
end

section
/-! SUPPORT. The commands of steps and evaluation runs on the states that the statement about them names, and that statement (R226, R232, R235, R236,
R257, R266, R289, R352). -/

namespace Sys2Proof.Machine

/-! STEP_START (R226, R232). -/

/-- A step may be redone only while nothing runs. -/
theorem redoOf_running {x : Ctx} {r : Run} (hr : x.run = some r) : x.redoOf = none := by
  rw [Ctx.redoOf, Option.filter_eq_none_iff]
  simp [hr]

section
variable {h : Hdr} {step seed tokens lr handle : Nat} {p : PlanSet} {s t : State}

/-- STEP_START of a step that R226 allows, of a set compiled for the freeze set, with none queued and no other run under way: ACCEPTED. A redo counts
its attempt; the step is queued behind one that runs, else its message is sent. -/
theorem doStepStart_allowed (hc : Comes 0x0501 [2] false h s t) (hset : t.setFor h.ctx handle 1 = some p) (hz : p.freeze = (t.ctx h.ctx).nextFreeze)
    (ha : (t.ctx h.ctx).stepAllowed step seed tokens = true) (hl : lrOk lr = true) (hq : (t.ctx h.ctx).queued = none)
    (hk : (t.ctx h.ctx).run.any (fun r => decide (r.kind ≠ .step)) = false) {att : Nat}
    (hatt : ((t.ctx h.ctx).redoOf.map (fun n => (n.attempt + 1) % 256)).getD 0 = att) :
    doStepStart h step seed tokens lr handle s = longAccepted 0x0501 h .step h.ctx 0 (fun id u =>
      if (t.ctx h.ctx).run.isSome then
        (u.onPart h.ctx Part.restarted).onCtx h.ctx (fun x => { x with queued := some (stepRun handle step seed tokens lr att id h.tag) })
      else ((u.onPart h.ctx Part.restarted).onCtx h.ctx (fun x => { x with run := some (stepRun handle step seed tokens lr att id h.tag) })).sendStart h.ctx) t := by
  rw [doStepStart, packet_comes hc]
  dsimp only
  rw [hset]
  dsimp only
  rw [check6_ok _ (rsv_of_comes hc) (by simp [ha, hl, hz]), if_neg (by rw [hq, hk]; decide), apply_accepted, ← hatt]
  cases (t.ctx h.ctx).redoOf <;> rfl

/-- STEP_START with nothing running sends the step's message. -/
theorem doStepStart_sent (hc : Comes 0x0501 [2] false h s t) (hset : t.setFor h.ctx handle 1 = some p) (hz : p.freeze = (t.ctx h.ctx).nextFreeze)
    (ha : (t.ctx h.ctx).stepAllowed step seed tokens = true) (hl : lrOk lr = true) (hq : (t.ctx h.ctx).queued = none) (hr : (t.ctx h.ctx).run = none) {att : Nat}
    (hatt : ((t.ctx h.ctx).redoOf.map (fun n => (n.attempt + 1) % 256)).getD 0 = att) :
    doStepStart h step seed tokens lr handle s = longAccepted 0x0501 h .step h.ctx 0 (fun id u =>
      ((u.onPart h.ctx Part.restarted).onCtx h.ctx (fun x => { x with run := some (stepRun handle step seed tokens lr att id h.tag) })).sendStart h.ctx) t := by
  rw [doStepStart_allowed hc hset hz ha hl hq (by simp [hr]) hatt, hr]
  rfl

/-- STEP_START behind a running step is queued. -/
theorem doStepStart_queued {r : Run} (hc : Comes 0x0501 [2] false h s t) (hset : t.setFor h.ctx handle 1 = some p) (hz : p.freeze = (t.ctx h.ctx).nextFreeze)
    (ha : (t.ctx h.ctx).stepAllowed step seed tokens = true) (hl : lrOk lr = true) (hq : (t.ctx h.ctx).queued = none) (hr : (t.ctx h.ctx).run = some r)
    (hk : r.kind = .step) :
    doStepStart h step seed tokens lr handle s = longAccepted 0x0501 h .step h.ctx 0 (fun id u =>
      (u.onPart h.ctx Part.restarted).onCtx h.ctx (fun x => { x with queued := some (stepRun handle step seed tokens lr 0 id h.tag) })) t := by
  rw [doStepStart_allowed hc hset hz ha hl hq (by simp [hr, hk]) (att := 0) (by simp [redoOf_running hr]), hr]
  rfl

/-- STEP_START out of turn, whatever its handle names. -/
theorem doStepStart_outOfTurn (hc : Comes 0x0501 [2] false h s t) (ha : (t.ctx h.ctx).stepAllowed step seed tokens = false) :
    doStepStart h step seed tokens lr handle s = replied 0x0501 h stBadParam 0 t := by
  rw [doStepStart, packet_comes hc]
  dsimp only
  cases t.setFor h.ctx handle 1 with
  | none => rfl
  | some p =>
    dsimp only
    rw [check6_bad _ (by simp [ha]), apply_refuse]
end

/-! STEP_BEGIN (R266, R289). -/

/-- Within a beat no step begins. -/
theorem doStepBegin_within {ctx : Nat} {s : State} (h : s.clk.cycle ≠ 0) : doStepBegin ctx s = s := if_pos h

/-- A boundary that finds a start message missing. -/
theorem doStepBegin_waits {ctx : Nat} {r : Run} {s t : State} (h0 : s.clk.cycle = 0) (ht : s.sendStart ctx = t) (hw : (t.ctx ctx).waiting = some r)
    (hm : (t.ctx ctx).missing t.myPos r ≠ []) : doStepBegin ctx s = t := by
  rw [doStepBegin, if_neg (not_not.mpr h0), ht]
  dsimp only
  rw [hw]
  exact if_pos (.inr (.inl hm))

/-- A boundary that finds every start message, in a beat that is executed, with no commit of an earlier attempt in flight. -/
theorem doStepBegin_begins {ctx : Nat} {r : Run} {p : PlanSet} {s t : State} (h0 : s.clk.cycle = 0) (ht : s.sendStart ctx = t)
    (hw : (t.ctx ctx).waiting = some r) (ho : (t.ctx ctx).ownStart ≠ none) (hm : (t.ctx ctx).missing t.myPos r = [])
    (hf : (t.ctx ctx).isRedo r = false ∨ (t.ctx ctx).commits.any (fun m => m.2.inf) = false) (hk : (t.ctx ctx).takeover = none)
    (hh : (t.ctx ctx).part.held = false) (hl : t.lead ctx ≠ none) (hset : t.setFor ctx r.handle 1 = some p) (hz : p.freeze = (t.ctx ctx).nextFreeze) :
    doStepBegin ctx s = t.beginStep ctx r p := by
  have settled : ¬((t.ctx ctx).isRedo r = true ∧ (t.ctx ctx).commits.any (fun m => m.2.inf) = true) := by
    rintro ⟨hredo, hinf⟩
    rcases hf with hf | hf
    · exact Bool.noConfusion (hf.symm.trans hredo)
    · exact Bool.noConfusion (hf.symm.trans hinf)
  rw [doStepBegin, if_neg (not_not.mpr h0), ht]
  dsimp only
  rw [hw]
  dsimp only
  rw [if_neg (not_or.mpr ⟨by simp [ho], not_or.mpr ⟨not_not.mpr hm, not_or.mpr ⟨settled, by simp [hk, hh, hl]⟩⟩⟩), hset]
  exact if_neg (not_not.mpr hz)

/-! STEP_COMPLETE (R236, R257). -/

/-- A step with a parcel outstanding goes on. -/
theorem doStepComplete_waits {ctx : Nat} {r : Run} {s : State} (hr : (s.ctx ctx).run = some r) (ha : (s.ctx ctx).allThere s.myPos r.step = false) :
    doStepComplete ctx s = s := by
  rw [doStepComplete, hr]
  exact if_pos (.inr (.inr (.inr (.inr ha))))

/-- A step that runs with every parcel there is complete: its tiles' END is no condition (R236's two alone, entry 73). -/
theorem doStepComplete_completes {ctx : Nat} {r : Run} {s : State} (hr : (s.ctx ctx).run = some r) (hk : r.kind = .step) (hs : r.started = true)
    (he : r.ending = none) (hf : (s.ctx ctx).st ≠ .fenced) (ha : (s.ctx ctx).allThere s.myPos r.step = true) : doStepComplete ctx s = s.completed ctx r := by
  rw [doStepComplete, hr]
  exact if_neg (by simp [hk, hs, he, hf, ha])

/-! EVAL_START (R235). -/

theorem doEvalStart_starts {h : Hdr} {handle tokens seed : Nat} {p : PlanSet} {s t : State} (hc : Comes 0x0502 [1] false h s t)
    (hset : t.setFor h.ctx handle 2 = some p) (hr : (t.ctx h.ctx).run = none) (hn : (t.ctx h.ctx).now.any StepNow.ended = false)
    (hp : t.planRuns h.ctx = false) :
    doEvalStart h handle tokens seed s = longAccepted 0x0502 h .eval handle 0 (fun id u =>
      startedRun h.ctx (otherRun .eval handle seed tokens id h.tag) (((t.ctx h.ctx).last + 1) % 2) h.cyc p u) t := by
  rw [doEvalStart, packet_comes hc]
  dsimp only
  rw [hset]
  dsimp only
  rw [check6_ok _ (rsv_of_comes hc) rfl, if_neg (by simp [hr, hn, hp]), apply_accepted]
  rfl
theorem doEvalStart_noSet {h : Hdr} {handle tokens seed : Nat} {s t : State} (hc : Comes 0x0502 [1] false h s t) (hset : t.setFor h.ctx handle 2 = none) :
    doEvalStart h handle tokens seed s = replied 0x0502 h stBadParam 0 t := by
  rw [doEvalStart, packet_comes hc]
  dsimp only
  rw [hset, apply_refuse]

/-! STEP_STATUS (R352). -/

theorem doStepStatus_comes {h : Hdr} {s t : State} (hc : Comes 0x0503 [1] false h s t) : doStepStatus h s =
    replied 0x0503 h stOk ((t.ctx h.ctx).last + (t.ctx h.ctx).stepState.1 * 2 ^ 32 + (t.ctx h.ctx).stepState.2 * 2 ^ 40) t := by
  rw [doStepStatus, packet_comes hc, check6_ok _ (rsv_of_comes hc) rfl, apply_done]
/-- With nothing running, the state tells whether the step recorded last ended without completion. -/
theorem stepState_stopped {x : Ctx} (hr : x.run = none) : x.stepState.1 = if x.now.any StepNow.ended then 3 else 0 := by
  rw [Ctx.stepState, hr]
theorem stepState_step {x : Ctx} {r : Run} (hr : x.run = some r) (hk : r.kind = .step) : x.stepState = (if r.started then 1 else 2, r.attempt) := by
  simp [Ctx.stepState, hr, hk]
theorem stepState_eval {x : Ctx} {r : Run} (hr : x.run = some r) (hk : r.kind = .eval) : x.stepState.1 = 4 := by
  simp [Ctx.stepState, hr, hk]

/-- Settles O33: each command comes, its checks are passed or failed as the clause says, and its own equation gives what follows. -/
theorem stepCommandsComplete : Obligations.StepCommandsComplete := by
  refine ⟨?start, ?redo, ?queued, ?outOfTurn, ?begins, ?within, ?waits, ?outstanding, ?completes, ?completed, ?eval, ?evalNone, ?status,
    ?idle, ?runs, ?starting, ?stopped, ?evaluates⟩
  case start =>
    intro h step seed tokens lr handle p s t hf hc hset hz ha hl hq hr hn
    rw [exec_of_fits hf (exec_stepStart ..), doStepStart_sent hc hset hz ha hl hq hr (att := 0) (by simp [hn])]
  case redo =>
    intro h step seed tokens lr handle p n s t hf hc hset hz ha hl hq hr hn
    rw [exec_of_fits hf (exec_stepStart ..), doStepStart_sent hc hset hz ha hl hq hr (att := (n.attempt + 1) % 256) (by simp [hn])]
  case queued =>
    intro h step seed tokens lr handle p r s t hf hc hset hz ha hl hq hr hk
    rw [exec_of_fits hf (exec_stepStart ..), doStepStart_queued hc hset hz ha hl hq hr hk]
  case outOfTurn =>
    intro h step seed tokens lr handle s t hf hc ha
    rw [exec_of_fits hf (exec_stepStart ..), doStepStart_outOfTurn hc ha]
  case begins =>
    intro ctx r p s t hf h0 ht hw ho hm hi hk hh hl hset hz
    rw [exec_of_fits hf (exec_stepBegin ..), doStepBegin_begins h0 ht hw ho hm hi hk hh hl hset hz]
  case within =>
    intro ctx s hf h0
    rw [exec_of_fits hf (exec_stepBegin ..), doStepBegin_within h0]
  case waits =>
    intro ctx r s t hf h0 ht hw hm
    rw [exec_of_fits hf (exec_stepBegin ..), doStepBegin_waits h0 ht hw hm]
  case outstanding =>
    intro ctx r s hf hr ha
    rw [exec_of_fits hf (exec_stepComplete ..), doStepComplete_waits hr ha]
  case completes =>
    intro ctx r s hf hr hk hs he hst ha
    rw [exec_of_fits hf (exec_stepComplete ..), doStepComplete_completes hr hk hs he hst ha]
  case completed =>
    rintro ctx r n s t u rfl rfl rfl h0
    rw [State.completed, if_pos h0]
  case eval =>
    intro h handle tokens seed p s t hf hc hset hr hn hp
    rw [exec_of_fits hf (exec_evalStart ..), doEvalStart_starts hc hset hr hn hp]
  case evalNone =>
    intro h handle tokens seed s t hf hc hset
    rw [exec_of_fits hf (exec_evalStart ..), doEvalStart_noSet hc hset]
  case status =>
    intro h s t hf hc
    rw [exec_of_fits hf (exec_stepStatus ..), doStepStatus_comes hc]
  case idle =>
    intro x hr hn
    rw [stepState_stopped hr, hn]
    rfl
  case runs =>
    intro x r hr hk hs
    rw [stepState_step hr hk, if_pos hs]
  case starting =>
    intro x r hr hk hs
    rw [stepState_step hr hk, hs]
    rfl
  case stopped =>
    intro x hr hn
    rw [stepState_stopped hr, if_pos hn]
  case evaluates => exact fun x r hr hk => stepState_eval hr hk
end Sys2Proof.Machine
end

section
/-! SUPPORT. The commands of the reduction path on the states that the statement about them names, and that statement (R242, R244, R245, R247, R249 to
R252). -/

namespace Sys2Proof.Machine

/-! REDUCE_DEADLINE and REDUCTION_FORECAST (R242, R244). -/

theorem doReduceDeadline_late {sc n : Nat} {r : RedRun} {s : State} (hr : (s.sc sc).reds[n]? = some r) (hb : (s.ctx r.ctx).part.begun = true)
    (hd : r.claim.deadline ≤ (s.ctx r.ctx).part.planBeat) (ht : r.isDone = false) (hs : r.stopped = false) :
    doReduceDeadline sc n s = (s.onSc sc (fun k => { k with reds := k.reds.set n { r with stopped := true } })).report
      ⟨fcReduceDeadline, uidSc sc, s.now, 0, 0, r.ctx, [r.parcel]⟩ := by
  unfold doReduceDeadline
  rw [hr]
  exact if_pos ⟨hb, hd, ht, hs⟩
theorem doReductionForecast_short {sc ctx : Nat} {s : State} (hn : (s.sc sc).egFree < (s.at 0x700).egressNeed sc ctx) (hu : isUser ctx = true) :
    doReductionForecast sc ctx s =
      ((s.at 0x700).onSc sc (fun k => { k with holdReq := k.holdReq + 1 })).askHold ctx (uidSc sc) .forecast :=
  if_pos ⟨hn, hu⟩
theorem doReductionForecast_enough {sc ctx : Nat} {s : State} (hn : (s.at 0x700).egressNeed sc ctx ≤ (s.sc sc).egFree) :
    doReductionForecast sc ctx s = s.at 0x700 :=
  if_neg fun h => absurd h.1 (Nat.not_lt.mpr hn)

/-! GRAD_EGRESS_SEND (R245, R247). -/

/-- A complete contribution with credit, of a partition that acts: `u` is the state once its blocks are sent and its buffer is free. A parcel with SP
waits with its close for the row descriptors. -/
theorem doGradEgressSend_ready {sc ctx parcel step attempt : Nat} {e : PEnt} {b : Egress} {s u : State} (he : (s.ctx ctx).pent parcel = some e)
    (hb : (s.sc sc).egress.find? (fun b => b.ctx = ctx && b.parcel = parcel) = some b) (hs : (s.ctx ctx).stepOn = some (step, attempt))
    (hc : b.complete = true) (ha : (s.ctx ctx).admitted e parcel = true) (ht : (s.sc sc).underTest = false) (hf : (s.ctx ctx).st ≠ .fenced)
    (hu : (s.sendDense sc ctx parcel e.owner step attempt b).onSc sc (fun k => { k with
      egress := k.egress.filter (fun b => ¬(b.ctx = ctx ∧ b.parcel = parcel)) }) = u) :
    doGradEgressSend sc ctx parcel s = if b.errs.any (fun e => decide (2 ≤ e.2)) = true then s.rsramFault sc ctx parcel
      else if e.sp = true then u.flushCloses ctx
      else u.sendClose ctx e.owner parcel step attempt true ((u.ctx ctx).withheld.contains parcel) 0 := by
  subst hu
  unfold doGradEgressSend
  dsimp only
  rw [he, hb, hs]
  exact if_neg (by simp [hc, ha, ht, hf])

/-! OWNER_BUFFER_OPEN (R249). -/

theorem doOwnerBufferOpen_opens {sc ctx step attempt p : Nat} {s : State} (hs : (s.ctx ctx).stepOn = some (step, attempt))
    (hp : (s.ownOrder sc ctx)[(s.ctx ctx).opened.get 0 sc]? = some p) (hl : (s.sc sc).lowmark < (s.sc sc).ownerFree) :
    doOwnerBufferOpen sc ctx s = openOwner sc ctx p ((s.ctx ctx).opened.get 0 sc) step attempt s := by
  unfold doOwnerBufferOpen
  dsimp only
  rw [hs]
  dsimp only
  rw [hp]
  exact if_neg (Nat.not_le.mpr hl)
/-- At LOWMARK no buffer opens, whatever runs and whichever parcel is next. -/
theorem doOwnerBufferOpen_low {sc ctx : Nat} {s : State} (hl : (s.sc sc).ownerFree ≤ (s.sc sc).lowmark) : doOwnerBufferOpen sc ctx s = s := by
  unfold doOwnerBufferOpen
  dsimp only
  cases (s.ctx ctx).stepOn with
  | none => rfl
  | some q =>
    dsimp only
    cases (s.ownOrder sc ctx)[(s.ctx ctx).opened.get 0 sc]? with
    | none => rfl
    | some p => exact if_pos hl

/-! GRAD_BLOCK and GRAD_CLOSE at the owner of their parcel (R247, R250 to R252). -/

/-- The Keeper's beat-stamp is read from the clock alone. -/
theorem State.now_of_clk {s t : State} (h : t.clk = s.clk) : t.now = s.now := by
  rw [State.now, State.now, State.stamp, State.stamp, h]
@[simp] theorem State.rxCount_now (s : State) (f : FHdr) : (s.rxCount f).now = s.now := State.now_of_clk (s.rxCount_clk f)

/-- A block of another step or attempt is stale; one without its owner buffer is discarded. -/
theorem doGradBlock_owned {f : FHdr} {step attempt : Nat} {row : Bool} {b : WireBlk} {e : PEnt} {s : State} (ok : fabricOk f 1 [272] s = true)
    (he : (s.ctx f.ctx).pent b.parcel = some e) (ho : e.owner = s.myPos) :
    doGradBlock f step attempt row b s =
      if (s.ctx f.ctx).stepOn ≠ some (step, attempt) then (s.rxCount f).onSc (extSc e.wext) (fun k => { k with stale := k.stale + 1 })
      else if ((s.sc (extSc e.wext)).owner? f.ctx b.parcel).isNone = true then (s.rxCount f).onSc (extSc e.wext)
        (fun k => k.discarded (decide (((s.ctx f.ctx).commits.get {} b.parcel).step.toNat = step)))
      else acceptBlock (extSc e.wext) f.ctx f.spos step row b (s.rxCount f) := by
  rw [doGradBlock, State.fabricIn_ok ok, ownerBlock]
  simp only [State.rxCount_ctx, State.rxCount_myPos, State.rxCount_sc, he]
  exact if_neg (not_not.mpr ho)
/-- A close is judged as a block is; `u` is the state after its count as a duplicate, of a parcel committed in the step already. -/
theorem doGradClose_owned {f : FHdr} {parcel step attempt rows : Nat} {dense nf : Bool} {e : PEnt} {s u : State} (ok : fabricOk f 1 [16] s = true)
    (he : (s.ctx f.ctx).pent parcel = some e) (ho : e.owner = s.myPos)
    (hu : (if ((s.ctx f.ctx).commits.get {} parcel).step.toNat = step then (s.rxCount f).onSc (extSc e.wext) (fun k => { k with dup := k.dup + 1 })
      else s.rxCount f) = u) :
    doGradClose f parcel step attempt dense nf rows s =
      if (s.ctx f.ctx).stepOn ≠ some (step, attempt) then (s.rxCount f).onSc (extSc e.wext) (fun k => { k with stale := k.stale + 1 })
      else if ((s.sc (extSc e.wext)).owner? f.ctx parcel).isNone = true then (s.rxCount f).onSc (extSc e.wext)
        (fun k => k.discarded (decide (((s.ctx f.ctx).commits.get {} parcel).step.toNat = step)))
      else (u.onOwner (extSc e.wext) f.ctx parcel (fun o => o.onMember f.spos (fun m =>
        { m with closed := true, cDense := dense, cRows := rows, nf := nf, stamp := u.now }))).checkComplete (extSc e.wext) f.ctx parcel := by
  subst hu
  rw [doGradClose, State.fabricIn_ok ok, ownerClose]
  simp only [State.rxCount_ctx, State.rxCount_myPos, State.rxCount_sc, he]
  exact if_neg (not_not.mpr ho)

/-! PARCEL_CREDIT (R249). -/

theorem doParcelCredit_checked {f : FHdr} {step attempt sc ordinal : Nat} {s : State} (ok : fabricOk f 0 [16] s = true) :
    doParcelCredit f step attempt sc ordinal s = if (s.ctx f.ctx).stepOn ≠ some (step, attempt) then s.rxCount f
      else (((s.rxCount f).onCtx f.ctx (fun x => { x with credits := x.credits.upd 0 (64 * f.spos + sc) (max (ordinal + 1)) })).flushRows f.ctx).flushCloses f.ctx := by
  rw [doParcelCredit, State.fabricIn_ok ok, takeCredit, State.rxCount_ctx]

/-- Settles O23: each clause is a branch of its command's equation above. -/
theorem reductionCommandsComplete : Obligations.ReductionCommandsComplete := by
  refine ⟨?late, ?short, ?enough, ?sent, ?sentRows, ?unreadable, ?opens, ?low, ?block, ?blockStale, ?blockUnopened, ?close, ?closeUnopened,
    ?closeStale, ?credit, ?creditStale⟩
  case late =>
    intro sc n r s hf hr hb hd ht hs
    rw [exec_of_fits hf (exec_reduceDeadline ..), doReduceDeadline_late hr hb hd ht hs]
  case short =>
    intro sc ctx s hf hn hu
    rw [exec_of_fits hf (exec_reductionForecast ..), doReductionForecast_short hn hu]
  case enough =>
    intro sc ctx s hf hn
    rw [exec_of_fits hf (exec_reductionForecast ..), doReductionForecast_enough hn]
  case sent =>
    intro sc ctx parcel e b step attempt s hf he hb hs hc ha ht hfe hw hsp
    rw [exec_of_fits hf (exec_gradEgressSend ..), doGradEgressSend_ready he hb hs hc ha ht hfe rfl, if_neg (ne_true_of_eq_false hw),
      if_neg (ne_true_of_eq_false hsp)]
  case sentRows =>
    intro sc ctx parcel e b step attempt s hf he hb hs hc ha ht hfe hw hsp
    rw [exec_of_fits hf (exec_gradEgressSend ..), doGradEgressSend_ready he hb hs hc ha ht hfe rfl, if_neg (ne_true_of_eq_false hw), if_pos hsp]
  case unreadable =>
    intro sc ctx parcel e b step attempt s hf he hb hs hc ha ht hfe hw
    rw [exec_of_fits hf (exec_gradEgressSend ..), doGradEgressSend_ready he hb hs hc ha ht hfe rfl, if_pos hw]
  case opens =>
    intro sc ctx step attempt p s hf hs hp hl
    rw [exec_of_fits hf (exec_ownerBufferOpen ..), doOwnerBufferOpen_opens hs hp hl]
  case low =>
    intro sc ctx s hf hl
    rw [exec_of_fits hf (exec_ownerBufferOpen ..), doOwnerBufferOpen_low hl]
  case block =>
    intro f step attempt row b e s hf ok he ho hs hw
    rw [exec_of_fits hf (exec_gradBlock ..), doGradBlock_owned ok he ho, if_neg (not_not.mpr hs), if_neg (by simpa [Option.isSome_iff_ne_none] using hw)]
  case blockStale =>
    intro f step attempt row b e s hf ok he ho hs
    rw [exec_of_fits hf (exec_gradBlock ..), doGradBlock_owned ok he ho, if_pos hs]
  case blockUnopened =>
    intro f step attempt row b e s hf ok he ho hs hw
    rw [exec_of_fits hf (exec_gradBlock ..), doGradBlock_owned ok he ho, if_neg (not_not.mpr hs), if_pos hw]
  case close =>
    intro f parcel step attempt dense nf rows e s hf ok he ho hs hw hn
    rw [exec_of_fits hf (exec_gradClose ..), doGradClose_owned ok he ho (if_neg hn), if_neg (not_not.mpr hs),
      if_neg (by simpa [Option.isSome_iff_ne_none] using hw), State.rxCount_now]
  case closeUnopened =>
    intro f parcel step attempt dense nf rows e s hf ok he ho hs hw
    rw [exec_of_fits hf (exec_gradClose ..), doGradClose_owned ok he ho rfl, if_neg (not_not.mpr hs), if_pos hw]
  case closeStale =>
    intro f parcel step attempt dense nf rows e s hf ok he ho hs
    rw [exec_of_fits hf (exec_gradClose ..), doGradClose_owned ok he ho rfl, if_pos hs]
  case credit =>
    intro f step attempt sc ordinal s hf ok hs
    rw [exec_of_fits hf (exec_parcelCredit ..), doParcelCredit_checked ok, if_neg (not_not.mpr hs)]
  case creditStale =>
    intro f step attempt sc ordinal s hf ok hs
    rw [exec_of_fits hf (exec_parcelCredit ..), doParcelCredit_checked ok, if_pos hs]
end Sys2Proof.Machine
end

section
/-! SUPPORT. The Ripener's commands on the states that the statement about them names, and that statement (R252, R258, R260, R263, R264, R267 to R269). -/

namespace Sys2Proof.Machine

/-! RIPENER_UPDATE (R252, R258, R263, R267, R269). -/

/-- None of the reasons for which the Ripener leaves a parcel alone holds. -/
theorem acts_of_ripeFor {sc ctx parcel : Nat} {e : PEnt} {s : State} (h : ripeFor sc ctx parcel e s = true) :
    ¬(e.owner ≠ s.myPos ∨ extSc e.wext ≠ sc ∨ (s.sc sc).underTest = true ∨ s.throttled sc = true ∨ (s.ctx ctx).st = .fenced ∨
      ((s.ctx ctx).commits.get {} parcel).inf = true ∨ (s.ctx ctx).repair.contains parcel = true) := by
  simp only [ripeFor, Bool.and_eq_true, decide_eq_true_eq, Bool.not_eq_true'] at h
  obtain ⟨⟨⟨⟨⟨⟨owns, here⟩, untested⟩, cool⟩, unfenced⟩, landed⟩, whole⟩ := h
  simp only [owns, here, untested, cool, unfenced, landed, whole, ne_eq, not_true_eq_false, Bool.false_eq_true, or_self, not_false_eq_true]

section
variable {sc ctx parcel step attempt : Nat} {e : PEnt} {s : State} (he : (s.ctx ctx).pent parcel = some e)
  (hs : (s.ctx ctx).stepOn = some (step, attempt)) (hr : ripeFor sc ctx parcel e s = true)
include he hs hr

/-- A parcel frozen since the last step needs no owner buffer. -/
theorem doRipenerUpdate_frozen (hz : (s.ctx ctx).newFz.contains parcel = true) :
    doRipenerUpdate sc ctx parcel s = if ((s.ctx ctx).commits.get {} parcel).step.toNat = step then s
      else s.commitUnchanged ctx parcel e step attempt ⟨parcel, 0, 0, false, 0, 0⟩ := by
  unfold doRipenerUpdate
  dsimp only
  rw [he, hs]
  dsimp only
  rw [if_neg (acts_of_ripeFor hr), if_pos hz]
/-- A complete parcel whose turn it is. -/
theorem doRipenerUpdate_turn {o : Owner} (hz : (s.ctx ctx).newFz.contains parcel = false) (ho : (s.sc sc).owner? ctx parcel = some o)
    (hc : o.complete = true) (hn : s.ripeNow sc o = true) :
    doRipenerUpdate sc ctx parcel s = if o.unreadable = true then s.rsramFault sc ctx parcel
      else if ((s.ctx ctx).commits.get {} parcel).step.toNat = step then ripenAgain sc ctx parcel step attempt e o s
      else if o.skipped = true ∨ (grSparse ((s.ctx ctx).groupOf e) = true ∧ o.touched = []) then s.commitUnchanged ctx parcel e step attempt (o.stat 0)
      else if grRule ((s.ctx ctx).groupOf e) = 15 then ripenHost sc ctx parcel step attempt e o s
      else ripen sc ctx parcel step attempt e o s := by
  unfold doRipenerUpdate
  dsimp only
  rw [he, hs]
  dsimp only
  rw [if_neg (acts_of_ripeFor hr), if_neg (ne_true_of_eq_false hz), ho]
  exact if_neg (by simp [hc, hn])
end

/-! MIRROR at the buddy (R263). -/

theorem doMirror_atBuddy {f : FHdr} {p : Prefix} {data : List Byte} {e : PEnt} {s : State} (ok : fabricOk f 3 [2064, 16] s = true)
    (hs : p.scales = false) (hl : data.length = 2048 * p.frags) (he : (s.ctx f.ctx).pent p.parcel = some e) (ho : e.owner ≠ s.myPos) :
    doMirror f p data s = mirrorIn f p data (s.rxCount f) := by
  rw [doMirror, State.fabricIn_ok ok, if_neg (ne_true_of_eq_false hs), if_neg (not_not.mpr hl), State.rxCount_ctx, he]
  dsimp only
  rw [State.rxCount_myPos, if_neg ho]
theorem mirrorIn_stored {f : FHdr} {p : Prefix} {data : List Byte} {n ext off : Nat} {s : State} (hu : p.unch = false)
    (hn : s.spareMirror f.ctx = some (n, ext, off)) (hr : s.rangeHere ext (s.extD ext) off data.length = true) :
    mirrorIn f p data s = ((((s.writeExt ext (s.extD ext) off data).onCtx f.ctx (fun x => { x with
      mirrors := x.mirrors.set {} p.parcel ⟨BitVec.ofNat 32 p.step, true, false, n, 0⟩ })).ackMirror f.link f.ctx f.spos p 0).tookUnits f p.frags) := by
  rw [mirrorIn]
  dsimp only
  rw [if_neg (ne_true_of_eq_false hu), hn]
  exact if_neg (by simp [hr])
theorem mirrorIn_full {f : FHdr} {p : Prefix} {data : List Byte} {s : State} (hu : p.unch = false) (hn : s.spareMirror f.ctx = none) :
    mirrorIn f p data s = s.ackMirror f.link f.ctx f.spos p 1 := by
  rw [mirrorIn]
  dsimp only
  rw [if_neg (ne_true_of_eq_false hu), hn]

/-! MIRROR_ACK and MIRROR_TIMEOUT (R263, R264). -/

section
variable {f : FHdr} {parcel step attempt : Nat} {s : State} (ok : fabricOk f 0 [16] s = true)
include ok

theorem doMirrorAck_found {fl : InFlight} {e : PEnt}
    (hf : (s.ctx f.ctx).flight.find? (fun q => decide (q.parcel = parcel ∧ q.step = step ∧ q.attempt = attempt)) = some fl)
    (he : (s.ctx f.ctx).pent parcel = some e) : doMirrorAck f parcel step attempt 0 s = ackIn f.ctx fl e (s.rxCount f) := by
  rw [doMirrorAck, State.fabricIn_ok ok]
  dsimp only
  rw [State.rxCount_ctx, hf, he]
  rfl
theorem doMirrorAck_abandoned {status : Nat}
    (hf : (s.ctx f.ctx).flight.find? (fun q => decide (q.parcel = parcel ∧ q.step = step ∧ q.attempt = attempt)) = none) :
    doMirrorAck f parcel step attempt status s = s.rxCount f := by
  rw [doMirrorAck, State.fabricIn_ok ok]
  dsimp only
  rw [State.rxCount_ctx, hf]
end

/-- The acknowledgement of an update that changed its parcel. -/
theorem ackIn_update {c : Nat} {fl : InFlight} {e : PEnt} {s : State} (hi : fl.initial = false) (hu : fl.unch = false)
    (hk : ((s.ctx c).statOf fl.step fl.parcel).any PStat.skipped = false) :
    ackIn c fl e s = (((((s.mirrored (extSc e.wext) c fl.parcel).dropSlotLease c (extSc e.wext)
      ((s.ctx c).commits.get {} fl.parcel).newslot).onCtx c (fun x => x.commitFlight fl e false)).onSc (extSc e.wext)
      (fun k => { k with parcels := k.parcels + 1 })).allGather c fl.parcel e fl.step fl.attempt fl.wnext) := by
  rw [ackIn]
  simp only [hi, hu, hk, Bool.false_eq_true, false_and, if_false]

theorem doMirrorTimeout_late {ctx parcel : Nat} {fl : InFlight} {e : PEnt} {s u : State}
    (hf : (s.ctx ctx).flight.find? (fun q => q.parcel = parcel) = some fl) (he : (s.ctx ctx).pent parcel = some e)
    (hb : fl.beat + 65536 ≤ s.clk.beat) (hi : fl.initial = false)
    (hu : s.report ⟨fcMirrorTimeout, uidRip (extSc e.wext), s.now, 0, 0, ctx, [(s.pod.cfg.map PodCfg.buddy).getD 0, parcel, fl.step, fl.attempt]⟩ = u) :
    doMirrorTimeout ctx parcel s = (if fl.unch = true then u
      else u.dropSlotLease ctx (extSc e.wext) ((s.ctx ctx).commits.get {} parcel).newslot).abandonCommit ctx parcel := by
  subst hu
  unfold doMirrorTimeout
  dsimp only
  rw [hf, he]
  dsimp only
  rw [if_neg (Nat.not_lt.mpr hb), if_neg (ne_true_of_eq_false hi)]
theorem doMirrorTimeout_early {ctx parcel : Nat} {fl : InFlight} {s : State} (hf : (s.ctx ctx).flight.find? (fun q => q.parcel = parcel) = some fl)
    (hb : s.clk.beat < fl.beat + 65536) : doMirrorTimeout ctx parcel s = s := by
  unfold doMirrorTimeout
  dsimp only
  rw [hf]
  cases (s.ctx ctx).pent parcel with
  | none => rfl
  | some e => exact if_pos hb

/-! ALLGATHER (R268). -/

/-- At a member that is not the owner, of the step under way, outside a takeover: one bank is written. -/
theorem doAllgather_placed {f : FHdr} {p : Prefix} {data : List Byte} {e : PEnt} {s : State} (ok : fabricOk f 2 [2064] s = true)
    (he : (s.ctx f.ctx).pent p.parcel = some e) (hm : ((s.ctx f.ctx).members e).contains s.myPos = true) (ho : e.owner ≠ s.myPos)
    (hp : p.step ≠ 0xFFFFFFFF) (ht : (s.ctx f.ctx).takeover = none) (hn : (s.ctx f.ctx).now.any (fun n => decide (n.step = p.step)) = true)
    (hl : data.length = workBytes (grWfmt ((s.ctx f.ctx).groupOf e))) (hw : (s.rxCount f).workFits f.ctx e ((p.step + 1) % 2) = true) :
    doAllgather f p data s = ((((s.rxCount f).writeWork f.ctx e ((p.step + 1) % 2) data).onCtx f.ctx (fun y => { y with
      scaleNext := y.scaleNext.set 0x7F p.parcel p.wnext
      gathered := if y.gathered.contains p.parcel then y.gathered else y.gathered ++ [p.parcel] })).tookUnits f p.frags) := by
  have one_bank : (if decide (p.step = 0xFFFFFFFF) = true then [0, 1] else [(p.step + 1) % 2]) = [(p.step + 1) % 2] := if_neg (by simp [hp])
  rw [doAllgather, State.fabricIn_ok ok]
  simp only [State.rxCount_ctx, State.rxCount_myPos, he, one_bank]
  rw [if_neg (by rw [hm]; simp [hn, ho]), if_neg (by simp [hl, hw])]
  simp only [hp, ht, hn, decide_false, Option.isSome_none, Bool.false_eq_true, Bool.true_eq_false, or_self, false_or, if_false, List.foldl_cons, List.foldl_nil]

/-! HOST_UPDATE_TIMEOUT (R269). -/

@[simp] theorem State.onCtx_now (s : State) (c : Nat) (g : Ctx → Ctx) : (s.onCtx c g).now = s.now := State.now_of_clk (s.onCtx_clk c g)
@[simp] theorem State.dropSlotLease_now (s : State) (c sc slot : Nat) : (s.dropSlotLease c sc slot).now = s.now := State.now_of_clk rfl
@[simp] theorem State.abandonCommit_now (s : State) (c parcel : Nat) : (s.abandonCommit c parcel).now = s.now := State.now_of_clk rfl

theorem doHostUpdateTimeout_late {ctx parcel : Nat} {h : Nat × Nat × Nat} {e : PEnt} {s : State}
    (hh : (s.ctx ctx).hostOut.find? (fun h => h.1 = parcel) = some h) (he : (s.ctx ctx).pent parcel = some e)
    (hz : grHlimit ((s.ctx ctx).groupOf e) ≠ 0) (hb : h.2.2 + grHlimit ((s.ctx ctx).groupOf e) ≤ s.clk.beat) :
    doHostUpdateTimeout ctx parcel s = ((((s.onCtx ctx (fun x => { x with hostOut := x.hostOut.filter (fun h => h.1 ≠ parcel) })).dropSlotLease ctx
      (extSc e.wext) ((s.ctx ctx).commits.get {} parcel).newslot).abandonCommit ctx parcel).report
        ⟨fcHostUpdateTimeout, uidRip (extSc e.wext), s.now, 0, 0, ctx, [parcel, ((s.ctx ctx).now.map StepNow.step).getD 0, h.2.1]⟩) := by
  unfold doHostUpdateTimeout
  dsimp only
  rw [hh, he]
  dsimp only
  rw [if_neg (not_or.mpr ⟨hz, Nat.not_lt.mpr hb⟩), State.abandonCommit_now, State.dropSlotLease_now, State.onCtx_now]
theorem doHostUpdateTimeout_unlimited {ctx parcel : Nat} {e : PEnt} {s : State} (he : (s.ctx ctx).pent parcel = some e)
    (hz : grHlimit ((s.ctx ctx).groupOf e) = 0) : doHostUpdateTimeout ctx parcel s = s := by
  unfold doHostUpdateTimeout
  dsimp only
  rw [he]
  cases (s.ctx ctx).hostOut.find? (fun h => h.1 = parcel) with
  | none => rfl
  | some h => exact if_pos (.inl hz)

/-- Settles O24: each clause is a branch of its command's equation above; the stored update is `ripen_stored`. -/
theorem ripenerCommandsComplete : Obligations.RipenerCommandsComplete := by
  refine ⟨?frozen, ?unchanged, ?stored, ?unreadable, ?host, ?again, ?mirror, ?mirrorFull, ?ack, ?ackAbandoned, ?timeout, ?timeoutEarly, ?gather,
    ?hostLate, ?hostUnlimited⟩
  case frozen =>
    intro sc ctx parcel e step attempt s hf he hs hr hz hc
    rw [exec_of_fits hf (exec_ripenerUpdate ..), doRipenerUpdate_frozen he hs hr hz, if_neg hc]
  case unchanged =>
    intro sc ctx parcel e step attempt o s hf he hs hr hz ho hd hn hu hc hk
    rw [exec_of_fits hf (exec_ripenerUpdate ..), doRipenerUpdate_turn he hs hr hz ho hd hn, if_neg (ne_true_of_eq_false hu), if_neg hc, if_pos hk]
  case stored =>
    intro sc ctx parcel e step attempt o s1 bs s2 n s hf he hs hr hz ho hd hn hu hc hk hsp h15 hstop hread hslot hfin
    rw [exec_of_fits hf (exec_ripenerUpdate ..), doRipenerUpdate_turn he hs hr hz ho hd hn, if_neg (ne_true_of_eq_false hu), if_neg hc,
      if_neg (not_or.mpr ⟨ne_true_of_eq_false hk, hsp⟩), if_neg h15, ripen_stored _ _ _ _ _ _ _ _ _ _ _ _ hstop hread hslot hfin]
  case unreadable =>
    intro sc ctx parcel e step attempt o s hf he hs hr hz ho hd hn hu
    rw [exec_of_fits hf (exec_ripenerUpdate ..), doRipenerUpdate_turn he hs hr hz ho hd hn, if_pos hu]
  case host =>
    intro sc ctx parcel e step attempt o s hf he hs hr hz ho hd hn hu hc hk hsp h15
    rw [exec_of_fits hf (exec_ripenerUpdate ..), doRipenerUpdate_turn he hs hr hz ho hd hn, if_neg (ne_true_of_eq_false hu), if_neg hc,
      if_neg (not_or.mpr ⟨ne_true_of_eq_false hk, hsp⟩), if_pos h15]
  case again =>
    intro sc ctx parcel e step attempt o s hf he hs hr hz ho hd hn hu hc
    rw [exec_of_fits hf (exec_ripenerUpdate ..), doRipenerUpdate_turn he hs hr hz ho hd hn, if_neg (ne_true_of_eq_false hu), if_pos hc]
  case mirror =>
    intro f p data e n ext off s hf ok hs hl he ho hu hn hr
    rw [exec_of_fits hf (exec_mirror ..), doMirror_atBuddy ok hs hl he ho, mirrorIn_stored hu hn hr]
  case mirrorFull =>
    intro f p data e s hf ok hs hl he ho hu hn
    rw [exec_of_fits hf (exec_mirror ..), doMirror_atBuddy ok hs hl he ho, mirrorIn_full hu hn]
  case ack =>
    intro f parcel step attempt fl e s hf ok hfl he hi hu hk
    rw [exec_of_fits hf (exec_mirrorAck ..), doMirrorAck_found ok hfl he, ackIn_update hi hu (by rw [State.rxCount_ctx]; exact hk), State.rxCount_ctx]
  case ackAbandoned =>
    intro f parcel step attempt status s hf ok hfl
    rw [exec_of_fits hf (exec_mirrorAck ..), doMirrorAck_abandoned ok hfl]
  case timeout =>
    intro ctx parcel fl e s hf hfl he hb hi hu
    rw [exec_of_fits hf (exec_mirrorTimeout ..), doMirrorTimeout_late hfl he hb hi rfl, if_pos hu]
  case timeoutEarly =>
    intro ctx parcel fl s hf hfl hb
    rw [exec_of_fits hf (exec_mirrorTimeout ..), doMirrorTimeout_early hfl hb]
  case gather =>
    intro f p data e s hf ok he hm ho hp ht hn hl hw
    rw [exec_of_fits hf (exec_allgather ..), doAllgather_placed ok he hm ho hp ht hn hl hw]
  case hostLate =>
    intro ctx parcel h e s hf hh he hz hb
    rw [exec_of_fits hf (exec_hostUpdateTimeout ..), doHostUpdateTimeout_late hh he hz hb]
  case hostUnlimited =>
    intro ctx parcel e s hf he hz
    rw [exec_of_fits hf (exec_hostUpdateTimeout ..), doHostUpdateTimeout_unlimited he hz]
end Sys2Proof.Machine
end

section
/-! SUPPORT. The governor's commands and those of the pod share on the states that the statement about them names, and that statement (R288, R291,
R386, R388 to R392, R394, R400, R401). -/

namespace Sys2Proof.Machine

/-! GOVERNOR_BEAT (R389, R390, R400, R401). -/

theorem doGovernorBeat_unpowered {ins : List (Nat × Nat)} {cyc : Nat} {s : State} (hw : s.tr.wafer = false) :
    doGovernorBeat ins cyc s = (s.at cyc).inputsRead ins := if_pos hw

/-- A powered beat whose account, with the stretch order that R390 calls for or without one, leaves `o`: the links are governed, and what A lacks is
UNMET only at m = 192 with no link narrowed for it (R400, R401). -/
theorem doGovernorBeat_powered {ins : List (Nat × Nat)} {cyc : Nat} {u o s : State} (hu : (s.at cyc).inputsRead ins = u) (hw : s.tr.wafer = true)
    (ho : (if u.overA = true ∧ s.clk.m < 192 ∧ s.gov.noLengthen ≤ s.clk.beat then u.lengthened u.beatGoverned else u.beatGoverned) = o) :
    doGovernorBeat ins cyc s =
      if u.overA = true ∧ s.clk.m = 192 ∧ o.narrowed (o.governLinks u.powerMw u.allowNow) = false then (o.governLinks u.powerMw u.allowNow).capUnmet
      else { o.governLinks u.powerMw u.allowNow with gov := { (o.governLinks u.powerMw u.allowNow).gov with unmet := false } } := by
  have hwafer : u.tr.wafer = s.tr.wafer := by rw [← hu]; rfl
  have hm : u.clk.m = s.clk.m := by rw [← hu]; rfl
  have hbeat : u.clk.beat = s.clk.beat := by rw [← hu]; rfl
  have hfrom : u.gov.noLengthen = s.gov.noLengthen := by rw [← hu]; rfl
  unfold doGovernorBeat
  dsimp only
  rw [hu, hm, hbeat, hfrom, ho, hwafer]
  exact if_neg (ne_false_of_eq_true hw)

/-! INPUT_OVERPOWER (R401). -/

theorem doInputOverpower_shuts {s : State} (hb : 8 ≤ s.gov.overBeats) (he : s.gov.excess = false) :
    doInputOverpower s = ({ s with gov := { s.gov with excess := true } } : State).shutdown fcInputOverpower [] :=
  if_neg (not_or.mpr ⟨by omega, ne_true_of_eq_false he⟩)
theorem doInputOverpower_early {s : State} (hb : s.gov.overBeats < 8) : doInputOverpower s = s := if_pos (.inl hb)

/-! AGGREGATION_WINDOW_END (R386, R391, R392). -/

theorem doAggregationWindowEnd_within {s : State} (hb : s.clk.beat % 1024 ≠ 0) : doAggregationWindowEnd s = s := if_pos (.inl hb)

/-- At the first beat of a window not closed yet the counts are closed; then a hot region lengthens, or a low mean power shortens. -/
theorem doAggregationWindowEnd_closes {s t : State} (hb : s.clk.beat % 1024 = 0) (h0 : 0 < s.clk.beat / 1024)
    (hc : s.gov.closedWin < s.clk.beat / 1024) (hw : s.tr.wafer = true)
    (ht : (s.telemeter (s.clk.beat - 1024)).windowShut s.liveRegions (s.clk.beat / 1024) = t) :
    doAggregationWindowEnd s =
      if s.liveRegions.any (fun r => (s.region r).high) = true then
        if s.clk.m < 192 then t.orderStretch (min 192 (s.clk.m + 4)) (s.clk.beat + 1) else t
      else (shortenTo s.clk.m s.gov.mmin s.gov.winMean t.allowNow s.gov.pstat).elim t (t.shortened s.liveRegions) := by
  subst ht
  unfold doAggregationWindowEnd
  dsimp only
  rw [if_neg (by simp only [not_or]; exact ⟨not_not.mpr hb, h0.ne', not_le_of_gt hc, ne_false_of_eq_true hw⟩)]
  congr 1
  split
  · next he => rw [he]; rfl
  · next k he => rw [he]; rfl

/-! HEADROOM and HEADROOM_TIMEOUT (R291, R394). -/

theorem doHeadroom_taken {f : FHdr} {share power : Nat} {offer : Int} {s u : State} (ok : fabricOk f 0 [f.len] s = true)
    (hu : ({ s.rxCount f with pod := { (s.rxCount f).pod with peers := (s.rxCount f).pod.peers.upd {} f.spos (fun p =>
      { p with share := share, power := power, offer := offer, heard := true, stale := false, headAt := s.clk.wall }) } } : State) = u) :
    doHeadroom f share power offer s = { u with gov := { u.gov with stale := u.pod.peers.any (fun p => p.2.stale) } } := by
  subst hu
  rw [doHeadroom, State.fabricIn_ok ok, State.rxCount_clk]
theorem doHeadroomTimeout_late {pos : Nat} {s : State} (hp : pos ≠ s.myPos) (hb : (s.pod.peers.get {} pos).headAt + thirds 30 ≤ s.clk.wall) :
    doHeadroomTimeout pos s = { s with
      pod := { s.pod with peers := s.pod.peers.upd {} pos (fun p => { p with stale := true }) }, gov := { s.gov with stale := true } } :=
  if_neg (not_or.mpr ⟨hp, by omega⟩)
theorem doHeadroomTimeout_early {pos : Nat} {s : State} (hb : s.clk.wall < (s.pod.peers.get {} pos).headAt + thirds 30) :
    doHeadroomTimeout pos s = s := if_pos (.inr hb)

/-! HEADROOM_SEND and POD_ALLOWANCE_HOLD_END (R394). -/

theorem doHeadroomSend_silent {cyc : Nat} {s : State} (h : s.pod.cfg = none ∨ s.ha.warm = true) : doHeadroomSend cyc s = s.at cyc :=
  if_pos (h.imp_left Option.isNone_iff_eq_none.mpr)

section
variable {cyc : Nat} {g : PodCfg} {s : State} (hg : s.pod.cfg = some g) (hw : s.ha.warm = false)
include hg hw

/-- A module of a pod speaks outside its warm resets. -/
theorem not_silent_of_cfg (cyc : Nat) : ¬((s.at cyc).pod.cfg.isNone = true ∨ (s.at cyc).ha.warm = true) := by
  simp [State.at, hg, hw]
theorem doHeadroomSend_unshared (hs : s.gov.share = 0) :
    doHeadroomSend cyc s = { (s.at cyc).tellPeers with gov := { s.gov with offer := 0, keep := none } } := by
  unfold doHeadroomSend
  dsimp only
  rw [if_neg (not_silent_of_cfg hg hw cyc)]
  exact if_pos hs

variable {a : Int} (hs : s.gov.share ≠ 0) (ha : (s.at cyc).tellPeers.podShare s.ownOffer = a)
include hs ha

/-- The allowance does not rise: it applies from the next boundary. -/
theorem doHeadroomSend_applies (hc : a ≤ s.gov.podNext.getD s.gov.podAllow) :
    doHeadroomSend cyc s = { (s.at cyc).tellPeers with gov := { s.gov with offer := s.ownOffer, podNext := some a, keep := none } } := by
  subst ha
  unfold doHeadroomSend
  dsimp only
  rw [if_neg (not_silent_of_cfg hg hw cyc)]
  exact (if_neg hs).trans ((if_neg fun h => not_lt_of_ge hc h.1).trans (if_neg (not_lt_of_ge hc)))
/-- The allowance would rise while the own offer fell: it is kept back. -/
theorem doHeadroomSend_keeps (hc : s.gov.podNext.getD s.gov.podAllow < a) (ho : s.ownOffer < s.gov.offer) :
    doHeadroomSend cyc s = { (s.at cyc).tellPeers with
      gov := { s.gov with offer := s.ownOffer, keep := some (a, (s.at cyc).tellPeers.clk.wall) } } := by
  subst ha
  unfold doHeadroomSend
  dsimp only
  rw [if_neg (not_silent_of_cfg hg hw cyc)]
  exact (if_neg hs).trans (if_pos ⟨hc, ho⟩)
end

/-- An allowance kept back is due 10 ms after the offer fell. -/
theorem doPodAllowanceHoldEnd_kept_back {k : Int × Nat} {s : State} (hk : s.gov.keep = some k) :
    doPodAllowanceHoldEnd s = if s.clk.wall < k.2 + thirds 10 then s else { s with gov := { s.gov with podNext := some k.1, keep := none } } := by
  rw [doPodAllowanceHoldEnd, hk]

/-- Settles O26: each clause is a branch of its command's equation above. -/
theorem governorCommandsComplete : Obligations.GovernorCommandsComplete := by
  refine ⟨?unpowered, ?within, ?lengthens, ?narrows, ?unmet, ?overpower, ?overpowerEarly, ?window, ?heat, ?shortens, ?headroom,
    ?silent, ?unshared, ?applies, ?keeps, ?holdEnd, ?holdEarly, ?stale, ?staleEarly⟩
  case unpowered =>
    intro ins cyc s hf hw
    rw [exec_of_fits hf (exec_governorBeat ..), doGovernorBeat_unpowered hw]
  case within =>
    intro ins cyc u s hf hu hw ha
    have hl : u.overA ≠ true := ne_true_of_eq_false ha
    rw [exec_of_fits hf (exec_governorBeat ..), doGovernorBeat_powered hu hw (if_neg fun h => hl h.1), if_neg fun h => hl h.1]
  case lengthens =>
    intro ins cyc u s hf hu hw ha hm hn
    rw [exec_of_fits hf (exec_governorBeat ..), doGovernorBeat_powered hu hw (if_pos ⟨ha, hm, hn⟩), if_neg fun h => hm.ne h.2.1]
  case narrows =>
    intro ins cyc u s hf hu hw ha hm hl
    rw [exec_of_fits hf (exec_governorBeat ..), doGovernorBeat_powered hu hw (if_neg fun h => h.2.1.ne hm),
      if_neg fun h => Bool.false_ne_true (h.2.2.symm.trans hl)]
  case unmet =>
    intro ins cyc u s hf hu hw ha hm hl
    rw [exec_of_fits hf (exec_governorBeat ..), doGovernorBeat_powered hu hw (if_neg fun h => h.2.1.ne hm), if_pos ⟨ha, hm, hl⟩]
  case overpower =>
    intro s hf hb he
    rw [exec_of_fits hf (exec_inputOverpower ..), doInputOverpower_shuts hb he]
  case overpowerEarly =>
    intro s hf hb
    rw [exec_of_fits hf (exec_inputOverpower ..), doInputOverpower_early hb]
  case window =>
    intro s hf hb
    rw [exec_of_fits hf (exec_aggregationWindowEnd ..), doAggregationWindowEnd_within hb]
  case heat =>
    intro s hf hb h0 hc hw hh hm
    rw [exec_of_fits hf (exec_aggregationWindowEnd ..), doAggregationWindowEnd_closes hb h0 hc hw rfl, if_pos hh, if_pos hm]
  case shortens =>
    intro k s hf hb h0 hc hw hh hk
    rw [exec_of_fits hf (exec_aggregationWindowEnd ..), doAggregationWindowEnd_closes hb h0 hc hw rfl, if_neg (ne_true_of_eq_false hh), hk]
  case headroom =>
    intro f share power offer s u hf ok hu
    rw [exec_of_fits hf (exec_headroom ..), doHeadroom_taken ok hu]
  case silent =>
    intro cyc s hf h
    rw [exec_of_fits hf (exec_headroomSend ..), doHeadroomSend_silent h]
  case unshared =>
    intro cyc g s hf hg hw hs
    rw [exec_of_fits hf (exec_headroomSend ..), doHeadroomSend_unshared hg hw hs]
  case applies =>
    intro cyc g a s hf hg hw hs ha hc
    rw [exec_of_fits hf (exec_headroomSend ..), doHeadroomSend_applies hg hw hs ha hc]
  case keeps =>
    intro cyc g a s hf hg hw hs ha hc ho
    rw [exec_of_fits hf (exec_headroomSend ..), doHeadroomSend_keeps hg hw hs ha hc ho]
  case holdEnd =>
    intro k s hf hk hb
    rw [exec_of_fits hf (exec_podAllowanceHoldEnd ..), doPodAllowanceHoldEnd_kept_back hk, if_neg (not_lt_of_ge hb)]
  case holdEarly =>
    intro k s hf hk hb
    rw [exec_of_fits hf (exec_podAllowanceHoldEnd ..), doPodAllowanceHoldEnd_kept_back hk, if_pos hb]
  case stale =>
    intro pos s hf hp hb
    rw [exec_of_fits hf (exec_headroomTimeout ..), doHeadroomTimeout_late hp hb]
  case staleEarly =>
    intro pos s hf hb
    rw [exec_of_fits hf (exec_headroomTimeout ..), doHeadroomTimeout_early hb]
end Sys2Proof.Machine
end

section
/-! SUPPORT. The packet operation check by check (R305, R307, R363): what it answers where a check fails; and every command packet is that operation. -/

namespace Sys2Proof.Machine

/-- A command that is a packet is the packet operation at its row's opcode and lengths, in the frame all commands share: every other row has no
header, and the packet's own part is whatever its effect gives `packet`. -/
theorem exec_packet {c : Instr} {op : Nat} {lens : List Nat} {sys : Bool} {h : Hdr} (s : State) (hp : packetRow c = some (op, lens, sys, h)) (hf : Fits c) :
    ∃ body, exec c s = .next (packet op lens sys h s body) := by
  obtain ⟨hw, hu⟩ := hf
  cases c <;> cases hp <;> exact ⟨_, guarded_ok hw hu⟩

section
variable {op : Nat} {lens : List Nat} {sys : Bool} {h : Hdr} {s : State} (body : State → Verdict)

/-- A length of no packet on a ring (R305): the ring stops where it runs and is watched, and answers. -/
theorem packet_badLength_ring {k : Nat} (hl : h.len = 0 ∨ 128 < h.len) (hk : h.src = .ring k) :
    packet op lens sys h s body = if (s.at h.cyc).watched = true ∧ ((s.at h.cyc).ctx k).ring.st = .running then
      ((s.at h.cyc).stopRing k 2).replyTo h.src (h.entry (s.at h.cyc) op stBadLength 0 true) else s.at h.cyc := by
  unfold packet
  dsimp only
  rw [if_pos hl, hk]
theorem packet_badLength_mgmt {n : Nat} (hl : h.len = 0 ∨ 128 < h.len) (hn : h.src = .mgmt n) :
    packet op lens sys h s body = replied op h stBadLength 0 (s.at h.cyc) := by
  unfold packet replied
  dsimp only
  rw [if_pos hl, hn]
/-- A packet that cannot be taken waits. -/
theorem packet_waits (hl : ¬(h.len = 0 ∨ 128 < h.len)) (ht : (s.at h.cyc).takeable h = false) : packet op lens sys h s body = s.at h.cyc := by
  unfold packet
  dsimp only
  rw [if_neg hl, if_pos ht]
/-- A packet that is taken is answered by the first of checks 2 to 4 that it fails, by the missing variant (R363), or by its command's own part. -/
theorem packet_taken (hl : ¬(h.len = 0 ∨ 128 < h.len)) (ht : (s.at h.cyc).takeable h = true) :
    packet op lens sys h s body =
      if lens.contains h.len = false then replied op h stBadLength 0 (taken s h)
      else if 4 ≤ h.flags ∨ 1024 ≤ h.ctx ∨ h.seq ≠ (s.at h.cyc).nseq h then replied op h stBadParam ((s.at h.cyc).nseq h) (taken s h)
      else if (taken s h).permitted h op sys = false then replied op h stDenied 0 (taken s h)
      else if s.ha.noVariant = true ∧ ¬(opGroup op = 10 ∨ opGroup op = 11) then replied op h stNoResource 0 (taken s h)
      else (body (taken s h)).apply h op := by
  unfold packet
  dsimp only
  rw [if_neg hl, if_neg (ne_false_of_eq_true ht), State.consume_noVariant]
  rfl
end

/-- Settles O50: every command packet is the packet operation (`exec_packet`), which answers the first check that fails (`packet_taken`). -/
theorem packetsAreCheckedInOrder : Obligations.PacketsAreCheckedInOrder := by
  intro c op lens sys h s hp hf
  obtain ⟨body, hx⟩ := exec_packet s hp hf
  rw [hx]
  refine ⟨?ring, ?mgmt, ?waits, ?taken⟩
  case ring => exact fun k hk hl => congrArg _ (packet_badLength_ring body hl hk)
  case mgmt => exact fun n hn hl => congrArg _ (packet_badLength_mgmt body hl hn)
  case waits => exact fun h0 h1 ht => congrArg _ (packet_waits body (by omega) ht)
  case taken =>
    intro h0 h1 ht
    rw [packet_taken body (by omega) ht]
    refine ⟨fun hlen => by rw [if_pos hlen], fun hlen => ?_⟩
    rw [if_neg (ne_false_of_eq_true hlen)]
    refine ⟨fun hbad => by rw [if_pos hbad], fun hflags hctx hseq => ?_⟩
    rw [if_neg (by omega)]
    refine ⟨fun hdenied => by rw [if_pos hdenied], fun hpermitted hbare hlog htrust => ?_⟩
    rw [if_neg (ne_false_of_eq_true hpermitted), if_pos ⟨hbare, not_or.mpr ⟨hlog, htrust⟩⟩]
end Sys2Proof.Machine
end

section
/-! SUPPORT. The commands of the host attachment (spec 12) on the states that the statement about them names: rings, registers, head lines, the
host-visible window. -/

namespace Sys2Proof.Machine

/-! The system ring (R300). -/

@[simp] theorem State.putStatus_ha (s : State) (c : Nat) : (s.putStatus c).ha = s.ha := by
  unfold State.putStatus
  rfl
/-- SREN set on a disabled ring with the link up starts it from its descriptor, or leaves it STOPPED where that fails its check (R302). -/
theorem srStart_up {cprod qcons : Nat} {readable : Bool} {s : State} (hc : s.ha.cxl = true) :
    s.srStart cprod qcons readable = if ringDescOk s.ha.msixSize (s.ctx 0).ring.desc = true then
      ({ s with ha := { s.ha with sren := true, srenAgain := false } } : State).startRing 0 (s.ctx 0).ring.desc cprod qcons readable
      else ({ s with ha := { s.ha with sren := true, srenAgain := false } } : State).onRing 0 (fun r => { r with st := .stopped }) := by
  unfold State.srStart
  dsimp only
  rw [if_neg (ne_false_of_eq_true hc)]
theorem doSystemRingStart_open {cprod qcons : Nat} {readable : Bool} {s : State} (ho : s.regsOpen = true) (hs : s.ha.sren = false) :
    doSystemRingStart cprod qcons readable s =
      if (s.ctx 0).ring.st = .stopping then { s with ha := { s.ha with sren := true, srenAgain := true } } else s.srStart cprod qcons readable :=
  if_neg (by simp [ho, hs])
theorem doSystemRingStop_running {s : State} (ho : s.regsOpen = true) (hs : s.ha.sren = true) (hr : (s.ctx 0).ring.st = .running) :
    doSystemRingStop s =
      (({ s with ha := { s.ha with sren := false, srenAgain := false } } : State).onRing 0 (fun r => { r with st := .stopping })).putStatus 0 := by
  unfold doSystemRingStop
  rw [if_neg (by simp [ho, hs]), if_pos hr]
theorem doSystemRingStopDone_busy {s : State} (hl : s.long.any (fun l => decide (l.src = .ring 0)) = true) : doSystemRingStopDone s = s :=
  if_pos (.inr (.inl hl))
/-- The ring is disabled, with its status line, where no start waited. -/
theorem doSystemRingStopDone_ends {s : State} (hr : (s.ctx 0).ring.st = .stopping) (hl : s.long.any (fun l => decide (l.src = .ring 0)) = false)
    (hb : (s.ctx 0).ring.backlog = []) (he : (s.ctx 0).ring.err = 0) (hd : ringDescOk s.ha.msixSize (s.ctx 0).ring.desc = true)
    (ha : s.ha.srenAgain = false) : doSystemRingStopDone s = (s.onRing 0 (fun r => { r with st := .disabled })).putStatus 0 := by
  have hline : (s.ctx 0).ring.err = 0 ∧ ringDescOk s.ha.msixSize (s.ctx 0).ring.desc = true := ⟨he, hd⟩
  unfold doSystemRingStopDone
  dsimp only
  rw [if_neg (by simp [hr, hl, hb]), State.onRing_ha, if_pos hline, State.putStatus_ha, State.onRing_ha, if_neg (ne_true_of_eq_false ha)]

/-! Registers and head lines (R299, R303, R305). -/

theorem doRegisterWrite_stored {off len value : Nat} {s : State} (hlen : len = 4 ∨ len = 8) (hal : off % len = 0) (h0 : 0x40 ≤ off) (h1 : off < 0x80)
    (hd : (s.ctx 0).ring.st = .disabled) (ho : s.regsOpen = true) :
    doRegisterWrite off len value s = s.onRing 0 (fun r => { r with
      desc := r.desc.setW ((off - 0x40) / 8) (putBytes (r.desc.w ((off - 0x40) / 8)) (off % 8) len value) }) :=
  if_neg (by simp [hd, ho]; omega)
theorem doRegisterWrite_ignored {off len value : Nat} {s : State} (h : off < 0x40 ∨ 0x80 ≤ off ∨ (s.ctx 0).ring.st ≠ .disabled) :
    doRegisterWrite off len value s = s :=
  if_pos (.inr (.inr (h.imp_right (Or.imp_right .inl))))
theorem reread_running {ctx cprod qcons : Nat} {readable : Bool} {undef : List (Nat × Hdr)} {s : State} (hw : s.watched = true)
    (hr : (s.ctx ctx).ring.st = .running) :
    s.reread ctx cprod qcons readable undef =
      (undef.filter (fun p => !opDefined p.1 && decide (p.2.src = .ring ctx))).foldl undefPacket (s.headLine ctx cprod qcons readable) :=
  if_neg (by simp [hw, hr])
theorem headLine_unreadable {ctx cprod qcons : Nat} {s : State} : s.headLine ctx cprod qcons false = s.stopRing ctx 4 := by
  unfold State.headLine
  dsimp only
  rw [if_pos rfl]
theorem headLine_counts {ctx cprod qcons : Nat} {s : State} (hc : idxDiff cprod (s.ctx ctx).ring.ccons ≤ 2 ^ (s.ctx ctx).ring.csize)
    (hq : idxDiff (s.ctx ctx).ring.qprod qcons ≤ 2 ^ (s.ctx ctx).ring.qsize) :
    s.headLine ctx cprod qcons true = (s.onRing ctx (fun r => { r with cprod := cprod, qcons := qcons })).flush ctx 66 := by
  unfold State.headLine
  dsimp only
  rw [if_neg (by decide), if_neg (Nat.not_lt.mpr hc), if_neg (Nat.not_lt.mpr hq)]

/-! Vectors and the host-visible window (R313 to R316). -/

theorem doMsixUnmask_sent {vec : Nat} {s : State} (hm : s.ha.msixMask.testBit vec = true) (hp : s.ha.msixPend.testBit vec = true) :
    doMsixUnmask vec s = { s with ha := { s.ha with
      msixMask := setBit s.ha.msixMask vec false, msixPend := setBit s.ha.msixPend vec false, msixSent := s.ha.msixSent ++ [vec] } } := by
  unfold doMsixUnmask
  dsimp only
  rw [if_pos ⟨hm, hp⟩]
theorem doHdmDecoderCommit_linked {ways : Nat} {s : State} (hc : s.ha.cxl = true) :
    doHdmDecoderCommit ways s = if ways = 1 then { s with ha := { s.ha with hdm := true } } else s := by
  simp [doHdmDecoderCommit, hc]
/-- The window is open: the link is up and its decoder committed. -/
theorem windowOpen {s : State} (hc : s.ha.cxl = true) (hh : s.ha.hdm = true) : ¬(s.ha.cxl = false ∨ s.ha.hdm = false) := by
  simp [hc, hh]
theorem doWindowRead_mapped {addr ext l : Nat} {e : ExtEnt} {s u v : State} {a b : List Byte} {p q : Bool} (hc : s.ha.cxl = true) (hh : s.ha.hdm = true)
    (hw : s.windowAt (addr / 64 * 64 / pageBytes) = some (ext, e, l))
    (hlo : (s.onSc (extSc ext) (Sc.spendLow e.ctx 1)).windowWord ext e (l * pageBytes + addr / 64 * 64 % pageBytes) (addr / 64 * 64) = (u, a, p))
    (hhi : u.windowWord ext e (l * pageBytes + addr / 64 * 64 % pageBytes + 32) (addr / 64 * 64 + 32) = (v, b, q)) :
    doWindowRead addr s = { (if p = true ∧ q = true then v else v.memErr) with
      ha := { (if p = true ∧ q = true then v else v.memErr).ha with memResp := a ++ b } } := by
  unfold doWindowRead
  dsimp only
  rw [if_neg (windowOpen hc hh), hw]
  dsimp only
  rw [hlo, hhi]
theorem doWindowRead_unmapped {addr : Nat} {s : State} (hc : s.ha.cxl = true) (hh : s.ha.hdm = true)
    (hw : s.windowAt (addr / 64 * 64 / pageBytes) = none) :
    doWindowRead addr s = { s with ha := { s.ha with unmapped := s.ha.unmapped + 1, memResp := List.replicate 64 0xFF#8 } } := by
  unfold doWindowRead
  dsimp only
  rw [if_neg (windowOpen hc hh), hw]
  rfl
/-- A write of the window is a write of each of its two words under its byte enables. -/
theorem doWindowWrite_mapped {addr enable ext l : Nat} {data : List Byte} {e : ExtEnt} {s u v : State} {p q : Bool} (hc : s.ha.cxl = true)
    (hh : s.ha.hdm = true) (hw : s.windowAt (addr / 64 * 64 / pageBytes) = some (ext, e, l))
    (hlo : (s.onSc (extSc ext) (Sc.spendLow e.ctx 1)).windowMerge ext e (l * pageBytes + addr / 64 * 64 % pageBytes) (addr / 64 * 64) (enable % 2 ^ 32)
      (data.take 32) = (u, p))
    (hhi : u.windowMerge ext e (l * pageBytes + addr / 64 * 64 % pageBytes + 32) (addr / 64 * 64 + 32) (enable / 2 ^ 32) (data.drop 32) = (v, q)) :
    doWindowWrite addr enable data s = if p = true ∧ q = true then v else v.memErr := by
  unfold doWindowWrite
  dsimp only
  rw [if_neg (windowOpen hc hh), hw]
  dsimp only
  rw [hlo, hhi]
theorem doWindowWrite_unmapped {addr enable : Nat} {data : List Byte} {s : State} (hc : s.ha.cxl = true) (hh : s.ha.hdm = true)
    (hw : s.windowAt (addr / 64 * 64 / pageBytes) = none) :
    doWindowWrite addr enable data s = { s with ha := { s.ha with unmapped := s.ha.unmapped + 1 } } := by
  unfold doWindowWrite
  dsimp only
  rw [if_neg (windowOpen hc hh), hw]
  rfl
theorem windowMerge_none {ext off addr : Nat} {e : ExtEnt} {data : List Byte} {s : State} : s.windowMerge ext e off addr 0 data = (s, true) := rfl
theorem windowMerge_whole {ext off addr enable : Nat} {e : ExtEnt} {data : List Byte} {s : State} (h : enable = 2 ^ 32 - 1) :
    s.windowMerge ext e off addr enable data = (s.writeExt ext e off data, true) := by
  unfold State.windowMerge
  rw [if_neg (by omega), if_pos h]
/-- A word that can be read takes the enabled bytes. -/
theorem windowMerge_partial {ext off addr enable : Nat} {e : ExtEnt} {data : List Byte} {s u : State} (h0 : 0 < enable) (h1 : enable < 2 ^ 32 - 1)
    (hk : s.checkStore ext e off = (u, none)) :
    s.windowMerge ext e off addr enable data =
      (u.writeExt ext e off (((u.peek ext e off 32).zip data).zipIdx.map (fun q => if bit enable q.2 then q.1.2 else q.1.1)), true) := by
  unfold State.windowMerge
  rw [if_neg h0.ne', if_neg h1.ne, hk]

/-- Settles O28: each command's effect on the states of its clause. -/
theorem hostCommandsComplete : Obligations.HostCommandsComplete := by
  refine ⟨?start, ?badDesc, ?again, ?stop, ?stopDone, ?stopBusy, ?stored, ?ignored, ?snoop, ?reread, ?unreadable, ?counts, ?repost, ?unmask, ?commit,
    ?read, ?readUnmapped, ?writeWhole, ?writePart, ?writeUnmapped, ?reset⟩
  case start =>
    intro cprod qcons readable s hf ho hs hr hc hd
    rw [exec_of_fits hf (exec_systemRingStart ..), doSystemRingStart_open ho hs, if_neg hr, srStart_up hc, if_pos hd]
  case badDesc =>
    intro cprod qcons readable s hf ho hs hr hc hd
    rw [exec_of_fits hf (exec_systemRingStart ..), doSystemRingStart_open ho hs, if_neg hr, srStart_up hc, if_neg (ne_true_of_eq_false hd)]
  case again =>
    intro cprod qcons readable s hf ho hs hr
    rw [exec_of_fits hf (exec_systemRingStart ..), doSystemRingStart_open ho hs, if_pos hr]
  case stop =>
    intro s hf ho hs hr
    rw [exec_of_fits hf (exec_systemRingStop ..), doSystemRingStop_running ho hs hr]
  case stopDone =>
    intro s hf hr hl hb he hd ha
    rw [exec_of_fits hf (exec_systemRingStopDone ..), doSystemRingStopDone_ends hr hl hb he hd ha]
  case stopBusy =>
    intro s hf hl
    rw [exec_of_fits hf (exec_systemRingStopDone ..), doSystemRingStopDone_busy hl]
  case stored =>
    intro off len value s hf hlen hal h0 h1 hd ho
    rw [exec_of_fits hf (exec_registerWrite ..), doRegisterWrite_stored hlen hal h0 h1 hd ho]
  case ignored =>
    intro off len value s hf h
    rw [exec_of_fits hf (exec_registerWrite ..), doRegisterWrite_ignored h]
  case snoop =>
    intro ctx cyc cprod qcons readable undef s hf hr hc
    rw [exec_of_fits hf (exec_headLineSnoop ..), doHeadLineSnoop, if_pos ⟨hr, hc⟩]
    rfl
  case reread =>
    intro ctx cyc cprod qcons readable undef s hf hw hr
    rw [exec_of_fits hf (exec_headLineReread ..), doHeadLineReread, reread_running (s := s.at cyc) hw hr]
  case unreadable => exact fun _ _ _ _ => headLine_unreadable
  case counts => exact fun _ _ _ _ hc hq => headLine_counts hc hq
  case repost =>
    intro ctx ext page s hf
    rw [exec_of_fits hf (exec_farPageRequestRepost ..), doFarPageRequestRepost]
  case unmask =>
    intro vec s hf hm hp
    rw [exec_of_fits hf (exec_msixUnmask ..), doMsixUnmask_sent hm hp]
  case commit =>
    intro ways s hf hc
    rw [exec_of_fits hf (exec_hdmDecoderCommit ..), doHdmDecoderCommit_linked hc]
  case read =>
    intro addr ext e l s u v a b p q hf hc hh hw hlo hhi
    rw [exec_of_fits hf (exec_windowRead ..), doWindowRead_mapped hc hh hw hlo hhi]
  case readUnmapped =>
    intro addr s hf hc hh hw
    rw [exec_of_fits hf (exec_windowRead ..), doWindowRead_unmapped hc hh hw]
  case writeWhole =>
    intro addr data ext e l s hf hc hh hw
    rw [exec_of_fits hf (exec_windowWrite ..),
      doWindowWrite_mapped hc hh hw (windowMerge_whole (by decide)) (windowMerge_whole (by decide)), if_pos ⟨rfl, rfl⟩]
  case writePart =>
    intro addr enable data ext e l s u hf hc hh hw h0 h1 hk
    have hlow : enable % 2 ^ 32 = enable := Nat.mod_eq_of_lt (by omega)
    have hhigh : enable / 2 ^ 32 = 0 := Nat.div_eq_of_lt (by omega)
    rw [exec_of_fits hf (exec_windowWrite ..),
      doWindowWrite_mapped hc hh hw (by rw [hlow, windowMerge_partial h0 h1 hk]) (by rw [hhigh, windowMerge_none]), if_pos ⟨rfl, rfl⟩]
  case writeUnmapped =>
    intro addr enable data s hf hc hh hw
    rw [exec_of_fits hf (exec_windowWrite ..), doWindowWrite_unmapped hc hh hw]
  case reset =>
    intro s hf
    rw [exec_of_fits hf (exec_hostLinkReset ..), doHostLinkReset]
end Sys2Proof.Machine
end

section
/-! SUPPORT. Context commands and protection changes (spec 13) on the states that the statement about them names. -/

namespace Sys2Proof.Machine

/-! CTX_OPEN and CTX_CLOSE (R322): the answer of each command's own part, once the packet is served. -/

section
variable {h : Hdr} {d : Words8} {s t : State} (hs : served 0x0101 [3] true h s = true) (ht : taken s h = t)
include hs ht

/-- An open that passes its checks, of a context with no other open under way, is queued behind a close or waits for its boundary. -/
theorem doCtxOpen_admitted (hr : h.rsv = true) (hc : h.ctx ≠ 0) (hd : ringDescOk t.ha.msixSize d = true) (hg : (t.ctx h.ctx).st ≠ .ungranted)
    (hf : ¬((t.ctx h.ctx).st = .opened ∨ (t.ctx h.ctx).st = .fenced)) (hq : (t.ctx h.ctx).queuedOpen = none) (ho : (t.ctx h.ctx).opening = none) :
    doCtxOpen h d s = Verdict.apply h 0x0101 (if (t.ctx h.ctx).st = .closing
      then .accept stDeferred .ctxOpen h.ctx 0 (fun id s => s.onCtx h.ctx (fun x => { x with queuedOpen := some (d, id) })) t
      else .later .ctxOpen h.ctx 0 (fun id s => s.onCtx h.ctx (fun x => { x with opening := some (d, id) })) t) := by
  subst ht
  rw [doCtxOpen, packet_served hs, if_neg (not_or.mpr ⟨hc, hg⟩), check6_ok _ hr hd, if_neg (by simp [hq, ho, not_or.mp hf])]
theorem doCtxOpen_denied (hd : h.ctx = 0 ∨ (t.ctx h.ctx).st = .ungranted) : doCtxOpen h d s = replied 0x0101 h stDenied 0 t := by
  subst ht
  rw [doCtxOpen, packet_served hs, if_pos hd, apply_refuse]
end

section
variable {h : Hdr} {s t : State} (hs : served 0x0102 [1] true h s = true) (ht : taken s h = t) (hr : h.rsv = true) (hc : h.ctx ≠ 0)
include hs ht hr hc

theorem doCtxClose_begins (ho : (t.ctx h.ctx).st = .opened ∨ (t.ctx h.ctx).st = .fenced) :
    doCtxClose h s = longAccepted 0x0102 h .ctxClose h.ctx 0 (fun _ s => s.beginClose h.ctx false) t := by
  subst ht
  have hopen : ¬(((taken s h).ctx h.ctx).st = .closed ∨ ((taken s h).ctx h.ctx).st = .ungranted) := by
    rcases ho with ho | ho <;> simp [ho]
  have hgo : ((taken s h).ctx h.ctx).st ≠ .closing := by
    rcases ho with ho | ho <;> simp [ho]
  rw [doCtxClose, packet_served hs, if_neg hc, check6_ok _ hr rfl, if_neg hopen, apply_accepted]
  simp only [if_neg hgo]
theorem doCtxClose_busy (hb : (t.ctx h.ctx).st = .closed ∨ (t.ctx h.ctx).st = .ungranted) : doCtxClose h s = replied 0x0102 h stBusy 0 t := by
  subst ht
  rw [doCtxClose, packet_served hs, if_neg hc, check6_ok _ hr rfl, if_pos hb, apply_refuse]
end

/-! CTX_FENCE (R332): the signature before everything else, then the reserved bits and GEN. -/

section
variable {h : Hdr} {gen : Nat} {b : SigBlk} {s t : State} (hs : served 0x0103 [5] true h s = true) (ht : taken s h = t) (hc : h.ctx ≠ 0)
include hs ht hc

theorem doCtxFence_fences (hr : h.rsv = true) (hb : t.tr.blocksOk none (t.tr.statement 2 h.ctx gen []) [b] = true) (hg : gen = (t.ctx h.ctx).gen.toNat)
    (ho : (t.ctx h.ctx).st = .opened) (hf : (t.ctx h.ctx).fencing = none) :
    doCtxFence h gen b s = longAccepted 0x0103 h .ctxFence h.ctx 0
      (fun id s => s.onCtx h.ctx (fun x => { x with fencing := some id, gen := x.gen + 1 }))
      (t.protRec h 2 h.ctx ((t.ctx h.ctx).gen + 1).toNat [b] false []) := by
  subst ht
  rw [doCtxFence, packet_served hs, if_neg hc, if_neg (ne_false_of_eq_true hb), if_neg (ne_false_of_eq_true hr), if_neg (not_not.mpr hg),
    if_neg (by simp [ho, hf]), apply_accepted]
theorem doCtxFence_unsigned (hb : t.tr.blocksOk none (t.tr.statement 2 h.ctx gen []) [b] = false) :
    doCtxFence h gen b s = replied 0x0103 h stSignature 0 t := by
  subst ht
  rw [doCtxFence, packet_served hs, if_neg hc, if_pos hb, apply_refuse]
end

/-! PROT_CHANGE (R325 to R327). -/

/-- The officers whose signatures a protection change of context `ctx` needs: two where it widens the grant (R325). -/
def officersNeeded (t : State) (ctx : Nat) (n0 n1 n2 n3 : BitVec 64) : Nat :=
  if widening (t.ctx ctx).grant ⟨n0.toNat, n1.toNat, n2.toNat, n3.toNat⟩ = true then 2 else 1
/-- The change applied and recorded, with GEN advanced (R326). -/
def protChanged (h : Hdr) (ctx : Nat) (n0 n1 n2 n3 : BitVec 64) (blks : List SigBlk) (t : State) : State :=
  (t.applyGrant ctx n0 n1 n2 n3).protRec h 1 ctx ((t.ctx ctx).gen + 1).toNat blks
    (widening (t.ctx ctx).grant ⟨n0.toNat, n1.toNat, n2.toNat, n3.toNat⟩) (newWords n0 n1 n2 n3)

section
variable {h : Hdr} {ctx gen : Nat} {n0 n1 n2 n3 : BitVec 64} {blks : List SigBlk} {s t : State}
  (hs : served 0x0B01 ([6, 10].filter (fun l => decide (l = 2 + 4 * blks.length))) true h s = true) (ht : taken s h = t)
  (hc : ctx ≠ 0) (hm : h.mgmt = false)
include hs ht hc hm

/-- A change that is signed and fits GEN, and from which no order and no close follows, is answered OK. -/
theorem doProtChange_applied (hr : h.rsv = true) (hlt : ctx < 1024)
    (hb : t.tr.blocksOk none (t.tr.statement 1 ctx gen (sha384 (newWords n0 n1 n2 n3))) blks = true) (hn : officersNeeded t ctx n0 n1 n2 n3 ≤ officersIn blks)
    (hw : newWordsOk n0 n2 = true) (hg : gen = (t.ctx ctx).gen.toNat) (hv : bit n0.toNat 63 = true ∨ (t.ctx ctx).st = .closed)
    (ho : (protChanged h ctx n0 n1 n2 n3 blks t).narrowOrders ctx 0 = []) :
    doProtChange h ctx gen n0 n1 n2 n3 blks s = replied 0x0B01 h stOk 0 (protChanged h ctx n0 n1 n2 n3 blks t) := by
  subst ht
  unfold officersNeeded at hn
  unfold protChanged at ho ⊢
  have hstays : ¬(bit n0.toNat 63 = false ∧
      (((taken s h).ctx ctx).st = .opened ∨ ((taken s h).ctx ctx).st = .fenced ∨ ((taken s h).ctx ctx).st = .closing)) := by
    rcases hv with hv | hv <;> simp [hv]
  rw [doProtChange, packet_served hs]
  dsimp only
  rw [if_neg (by simp [hc, hm]), if_neg (not_or.mpr ⟨ne_false_of_eq_true hb, Nat.not_lt.mpr hn⟩), if_neg (by simp [hr, hw, hlt]),
    if_neg (not_not.mpr hg), if_neg hstays, if_pos ho, apply_done]
theorem doProtChange_unsigned
    (hb : t.tr.blocksOk none (t.tr.statement 1 ctx gen (sha384 (newWords n0 n1 n2 n3))) blks = false ∨ officersIn blks < officersNeeded t ctx n0 n1 n2 n3) :
    doProtChange h ctx gen n0 n1 n2 n3 blks s = replied 0x0B01 h stSignature 0 t := by
  subst ht
  unfold officersNeeded at hb
  rw [doProtChange, packet_served hs]
  dsimp only
  rw [if_neg (by simp [hc, hm]), if_pos hb, apply_refuse]
end

/-- Settles O29: a served packet is answered by its command's own part, whose checks are passed or failed as the clause says. -/
theorem contextCommandsComplete : Obligations.ContextCommandsComplete := by
  refine ⟨?opens, ?defers, ?openDenied, ?closes, ?closeBusy, ?fences, ?fenceUnsigned, ?reads, ?changes, ?changeUnsigned⟩
  case opens =>
    intro h d s t hf hs ht hr hc hd hst hq ho
    rw [exec_of_fits hf (exec_ctxOpen ..), doCtxOpen_admitted hs ht hr hc hd (by simp [hst]) (by simp [hst]) hq ho, if_neg (by simp [hst])]
  case defers =>
    intro h d s t hf hs ht hr hc hd hst hq ho
    rw [exec_of_fits hf (exec_ctxOpen ..), doCtxOpen_admitted hs ht hr hc hd (by simp [hst]) (by simp [hst]) hq ho, if_pos hst]
  case openDenied =>
    intro h d s t hf hs ht hd
    rw [exec_of_fits hf (exec_ctxOpen ..), doCtxOpen_denied hs ht hd]
  case closes =>
    intro h s t hf hs ht hr hc ho
    rw [exec_of_fits hf (exec_ctxClose ..), doCtxClose_begins hs ht hr hc ho]
  case closeBusy =>
    intro h s t hf hs ht hr hc hb
    rw [exec_of_fits hf (exec_ctxClose ..), doCtxClose_busy hs ht hr hc hb]
  case fences =>
    intro h gen b s t hf hs ht hr hc hb hg ho hn
    rw [exec_of_fits hf (exec_ctxFence ..), doCtxFence_fences hs ht hc hr hb hg ho hn]
  case fenceUnsigned =>
    intro h gen b s t hf hs ht hc hb
    rw [exec_of_fits hf (exec_ctxFence ..), doCtxFence_unsigned hs ht hc hb]
  case reads =>
    intro h first count x s t hf hs ht hr hx hl h1 h2
    rw [exec_of_fits hf (exec_ctxRead ..), doCtxRead, packet_comes ⟨hs, ht, hr⟩, writeOut_ok _ _ hx hr (by simp [h1, h2]) hl, answered]
  case changes =>
    rintro h ctx gen n0 n1 n2 n3 blks s t _ hf hs ht hr hc hlt hm hb hn hw hg rfl hv ho
    rw [exec_of_fits hf (exec_protChange ..), doProtChange_applied hs ht hc hm hr hlt hb hn hw hg hv ho, protChanged]
  case changeUnsigned =>
    intro h ctx gen n0 n1 n2 n3 blks s t hf hs ht hc hm hb
    rw [exec_of_fits hf (exec_protChange ..), doProtChange_unsigned hs ht hc hm hb]
end Sys2Proof.Machine
end

section
/-! SUPPORT. Cold boot, warm reset, watchdog and the wait for coolant (spec 15) on the states that the statement about them names. -/

namespace Sys2Proof.Machine

/-! Cold boot (R366, R367, R459, R466). -/

section
variable {b : BootFinds} {s : State}

/-- From standby with every input live: step 1, and then the rest or the wait for coolant. -/
theorem doColdBoot_standby (hs : s.tr.boot = .standby) (hl : s.allLive = true) :
    doColdBoot b s = if s.bootOpen.coolantFit = true then s.bootOpen.bootOn b else { s.bootOpen with tr := { s.bootOpen.tr with boot := .coolantWait } } := by
  unfold doColdBoot
  dsimp only
  rw [if_neg (by simp [hs]), if_neg (by simp [hs]), if_neg (ne_false_of_eq_true hl)]
theorem doColdBoot_dead (hs : s.tr.boot = .standby) (ha : s.tr.coldAsked = false) (hl : s.allLive = false) : doColdBoot b s = s := by
  unfold doColdBoot
  dsimp only
  rw [if_neg (by simp [hs]), if_neg (by simp [hs]), if_pos hl, if_neg (ne_true_of_eq_false ha)]
theorem doColdBoot_running (hr : s.tr.boot = .ready) (ha : s.tr.coldAsked = false) : doColdBoot b s = s := by
  unfold doColdBoot
  dsimp only
  rw [if_neg (by simp [hr]), if_pos (by simp [hr, ha])]
theorem bootOn_rom (hk : s.tr.tryFw = none) : s.bootOn b = s.bootRom b := by
  unfold State.bootOn
  rw [hk]
/-- An image that verifies runs, and the certificate decides between the whole boot and no-variant mode (R363). -/
theorem bootOn_image {k : Nat} (hk : s.tr.tryFw = some k) :
    s.bootOn b = if (s.bootLoad k).tr.variantOk (s.bootLoad k).tr.varCert b.present = true
      then (s.bootLoad k).bootFull b k (decide (some k ≠ s.tr.slotOrder.head?))
      else (s.bootLoad k).bootBare b k (decide (some k ≠ s.tr.slotOrder.head?)) := by
  unfold State.bootOn
  rw [hk]
end

/-- Ready, with the minimum SVN raised to the image's (R448), before its record is written. -/
def madeReady (s : State) : State :=
  { s with ha := { s.ha with ready := true }, tr := { s.tr with boot := .ready, minSvn := max s.tr.minSvn s.tr.svn } }
theorem bootReady_eq (c : ColdRep) (s : State) :
    s.bootReady c = (({ madeReady s with tr := { (madeReady s).tr with warmLongs := [] } } : State).coldRec c).finishAll s.tr.warmLongs stOk 0 := rfl

/-! The end of the coolant wait (R466). -/

/-- Stopped on the wait, with these readings, before its record is written. -/
def coolantStopped (inlet : Int) (flow : Nat) (s : State) : State :=
  { s with gov := { s.gov with inlet := inlet, flow := flow }, free := s.free + 1, tr := { s.tr with boot := .coolantStop } }
theorem doCoolantWaitTimeout_stops {inlet : Int} {flow : Nat} {s : State} (hw : s.tr.boot = .coolantWait) :
    doCoolantWaitTimeout inlet flow s = (coolantStopped inlet flow s).coldRec { phase := 4, times := [Config.freeNat s.free], fail := 2048 } :=
  if_neg (not_not.mpr hw)
theorem doCoolantWaitTimeout_ended {inlet : Int} {flow : Nat} {s : State} (hw : s.tr.boot ≠ .coolantWait) : doCoolantWaitTimeout inlet flow s = s :=
  if_pos hw

/-! Module warm reset and watchdog (R380, R381, R384). -/

theorem doModuleWarmReset_stops {b : BootFinds} {s : State} (hr : s.tr.boot = .ready) (ht : s.tr.warmTrigger ≠ 0) (hc : s.clk.cycle = 0) :
    doModuleWarmReset b s = s.warmStop := by
  unfold doModuleWarmReset
  rw [if_neg (by simp [hr]), if_neg (by simp [hr, ht, hc])]
theorem doModuleWarmReset_starts {b : BootFinds} {s : State} (hw : s.tr.boot = .warm) : doModuleWarmReset b s = s.warmStart b := if_pos hw
theorem doModuleWarmReset_waits {b : BootFinds} {s : State} (hr : s.tr.boot = .ready) (h : s.tr.warmTrigger = 0 ∨ s.clk.cycle ≠ 0) :
    doModuleWarmReset b s = s := by
  unfold doModuleWarmReset
  rw [if_neg (by simp [hr]), if_pos (.inr h)]
/-- On a module that runs the first trigger stands, and every command that asked is answered by the reset. -/
theorem askWarm_ready {trigger tag : Nat} {ids : List Nat} {s : State} (hr : s.tr.boot = .ready) (hc : s.tr.wdCold = false) :
    s.askWarm trigger tag ids =
      if s.tr.warmTrigger = 0 then { s with tr := { s.tr with warmTrigger := trigger, warmTag := tag, warmLongs := s.tr.warmLongs ++ ids } }
      else { s with tr := { s.tr with warmLongs := s.tr.warmLongs ++ ids } } := by
  by_cases h : s.tr.warmTrigger = 0 <;> simp [State.askWarm, hr, hc, h]
/-- The watchdog reset of now counted with those of the last 60 s. -/
def watchdogCounted (s : State) : State :=
  { s with tr := { s.tr with wdTimes := s.tr.wdTimes.filter (fun t => decide (s.clk.wall < t + thirds 60000)) ++ [s.clk.wall] } }
/-- It is recorded, its fault raised, and a warm reset asked for. -/
def watchdogRecorded (checkpoint pc lastFeed : Nat) (s : State) : State :=
  (((watchdogCounted s).logRec 0x12 0 0xFFFF 40 (leBytes 4 s.tr.fwver ++ leBytes 4 checkpoint ++ leBytes 4 pc ++
    leBytes 1 (min 255 (watchdogCounted s).tr.wdTimes.length) ++ leBytes 3 0 ++ leBytes 8 lastFeed ++ leBytes 8 s.haStat ++
    leBytes 8 s.gvStat0)).keeperFault fcKeeperWatchdog uidKeeper 0 0 []).askWarm 3 0 []
/-- HA_STAT and GV_STAT0 show nothing of the trust state. -/
theorem haStat_of_tr (t : Trust) (s : State) : ({ s with tr := t } : State).haStat = s.haStat := rfl
theorem gvStat0_of_tr (t : Trust) (s : State) : ({ s with tr := t } : State).gvStat0 = s.gvStat0 := rfl
/-- The third reset within 60 s makes the next one a cold boot. -/
theorem doKeeperWatchdog_eq (checkpoint pc lastFeed : Nat) (s : State) :
    doKeeperWatchdog checkpoint pc lastFeed s = { watchdogRecorded checkpoint pc lastFeed s with
      tr := { (watchdogRecorded checkpoint pc lastFeed s).tr with
        wdCold := (watchdogRecorded checkpoint pc lastFeed s).tr.wdCold || decide (3 ≤ (watchdogCounted s).tr.wdTimes.length) } } := by
  simp only [doKeeperWatchdog, watchdogRecorded, watchdogCounted, haStat_of_tr, gvStat0_of_tr]
  rfl

/-- Settles O42: each command's effect on the states of its clause. -/
theorem bootCommandsComplete : Obligations.BootCommandsComplete := by
  refine ⟨?boots, ?waits, ?dead, ?running, ?rom, ?bare, ?full, ?ready, ?stopped, ?ended, ?warmStop, ?warmStart, ?warmWaits, ?asks, ?watchdog⟩
  case boots =>
    intro b s hf hs hl hc
    rw [exec_of_fits hf (exec_coldBoot ..), doColdBoot_standby hs hl, if_pos hc]
  case waits =>
    intro b s hf hs hl hc
    rw [exec_of_fits hf (exec_coldBoot ..), doColdBoot_standby hs hl, if_neg (ne_true_of_eq_false hc)]
  case dead =>
    intro b s hf hs ha hl
    rw [exec_of_fits hf (exec_coldBoot ..), doColdBoot_dead hs ha hl]
  case running =>
    intro b s hf hr ha
    rw [exec_of_fits hf (exec_coldBoot ..), doColdBoot_running hr ha]
  case rom => exact fun b s hk => bootOn_rom hk
  case bare =>
    intro b k s hk hv
    rw [bootOn_image hk, if_neg (ne_true_of_eq_false hv)]
  case full =>
    intro b k s hk hv
    rw [bootOn_image hk, if_pos hv]
  case ready => exact fun c s => ⟨madeReady s, bootReady_eq c s, rfl, rfl, rfl⟩
  case stopped =>
    intro inlet flow s hf hw
    refine ⟨coolantStopped inlet flow s, _, ?_, rfl, rfl, rfl, rfl⟩
    rw [exec_of_fits hf (exec_coolantWaitTimeout ..), doCoolantWaitTimeout_stops hw]
  case ended =>
    intro inlet flow s hf hw
    rw [exec_of_fits hf (exec_coolantWaitTimeout ..), doCoolantWaitTimeout_ended hw]
  case warmStop =>
    intro b s hf hr ht hc
    rw [exec_of_fits hf (exec_moduleWarmReset ..), doModuleWarmReset_stops hr ht hc]
  case warmStart =>
    intro b s hf hw
    rw [exec_of_fits hf (exec_moduleWarmReset ..), doModuleWarmReset_starts hw]
  case warmWaits =>
    intro b s hf hr h
    rw [exec_of_fits hf (exec_moduleWarmReset ..), doModuleWarmReset_waits hr h]
  case asks => exact fun trigger tag ids s hr hc => askWarm_ready hr hc
  case watchdog =>
    intro checkpoint pc lastFeed s hf
    refine ⟨watchdogCounted s, watchdogRecorded checkpoint pc lastFeed s, ?_, rfl, rfl⟩
    rw [exec_of_fits hf (exec_keeperWatchdog ..), doKeeperWatchdog_eq]
end Sys2Proof.Machine
end

section
/-! SUPPORT. What replies, records and reads of data references leave alone in the trust state: all but the management sessions and the two flags of
new records. -/

namespace Sys2Proof.Machine

/-- The trust state but for its sessions, SMB_ALERT_N and the mark of unread records. -/
def State.settled (s : State) : Trust := { s.tr with sessions := [], alert := false, recsUnread := false }
theorem settled_of_tr {s t : State} (h : t.tr = s.tr) : t.settled = s.settled := by
  unfold State.settled
  rw [h]
@[simp] theorem settled_foldl {α : Type} (f : State → α → State) (h : ∀ s a, (f s a).settled = s.settled) (l : List α) (s : State) :
    (l.foldl f s).settled = s.settled := State.foldl_keeps State.settled f h l s
@[simp] theorem writeEntry_tr (s : State) (c : Nat) (e : CEntry) : (s.writeEntry c e).tr = s.tr := by
  unfold State.writeEntry State.putStatus State.raiseVec
  dsimp only
  (repeat' split) <;> rfl
@[simp] theorem flush_tr (s : State) (c n : Nat) : (s.flush c n).tr = s.tr := by
  induction n generalizing s with
  | zero => rfl
  | succ n ih =>
    unfold State.flush
    dsimp only
    split
    · rfl
    · split
      · rfl
      · split <;> rw [ih, State.onRing_tr, writeEntry_tr]
@[simp] theorem putEntry_tr (s : State) (c : Nat) (e : CEntry) : (s.putEntry c e).tr = s.tr := by
  unfold State.putEntry
  dsimp only
  split
  · rfl
  · split
    · rfl
    · rw [flush_tr, State.onRing_tr]
@[simp] theorem post_tr (s : State) (c code data k : Nat) : (s.post c code data k).tr = s.tr := putEntry_tr ..
@[simp] theorem postFault_tr (s : State) (u k i c : Nat) : (s.postFault u k i c).tr = s.tr := by
  unfold State.postFault State.postSys
  dsimp only
  split <;> simp
@[simp] theorem flagNear_tr (s : State) (u v : Nat) : (s.flagNear u v).tr = s.tr := by
  unfold State.flagNear
  split <;> rfl
@[simp] theorem logRec_settled (s : State) (a b c d : Nat) (e : List Byte) : (s.logRec a b c d e).settled = s.settled := by
  unfold State.logRec
  dsimp only
  split <;> rfl
@[simp] theorem replyTo_settled (s : State) (src : Src) (e : CEntry) : (s.replyTo src e).settled = s.settled := by
  unfold State.replyTo
  split
  · exact settled_of_tr (putEntry_tr ..)
  · rfl
@[simp] theorem finish_settled (s : State) (i st d : Nat) : (s.finish i st d).settled = s.settled := by
  unfold State.finish
  split
  · rfl
  · exact replyTo_settled ..
@[simp] theorem finishAll_settled (s : State) (ids : List Nat) (st d : Nat) : (s.finishAll ids st d).settled = s.settled :=
  settled_foldl _ (fun s i => finish_settled s i st d) ids s
@[simp] theorem record_settled (s : State) (r : FReport) : (s.record r).settled = s.settled := by
  have logged : ∀ (t : State) l, ({ t with log := l } : State).settled = t.settled := fun _ _ => rfl
  have alerted : ∀ (t : State), ({ t with tr := { t.tr with alert := true } } : State).settled = t.settled := fun _ => rfl
  have first : ∀ (t : State) c i k, (t.firstFault c i k).settled = t.settled := fun _ _ _ _ => rfl
  have ends : ∀ (t : State) c i k, (t.endRun c i k).settled = t.settled := fun _ _ _ _ => rfl
  have faults : ∀ (t : State) u k i c, (t.postFault u k i c).settled = t.settled := fun _ _ _ _ _ => settled_of_tr (postFault_tr ..)
  have posts : ∀ (t : State) c k d a, (t.post c k d a).settled = t.settled := fun _ _ _ _ _ => settled_of_tr (post_tr ..)
  have flags : ∀ (t : State) u v, (t.flagNear u v).settled = t.settled := fun _ _ _ => settled_of_tr (flagNear_tr ..)
  simp [State.record, apply_ite State.settled, logged, alerted, first, ends, faults, posts, flags]
  exact fun _ _ => (logRec_settled ..).trans (flags ..)
@[simp] theorem keeperFault_settled (s : State) (cls u c tag : Nat) (det : List Nat) : (s.keeperFault cls u c tag det).settled = s.settled := by
  have asks : ∀ (t : State) c u w, (t.askHold c u w).tr = t.tr := fun t c u w => by
    unfold State.askHold
    (repeat' split) <;> simp
  unfold State.keeperFault
  dsimp only
  split
  · exact (settled_of_tr (asks ..)).trans (record_settled ..)
  · exact record_settled ..
@[simp] theorem checkStore_tr (s : State) (e : Nat) (x : ExtEnt) (off : Nat) : (s.checkStore e x off).1.tr = s.tr := by
  have touches : ∀ l, (s.touch e x l).tr = s.tr := fun l => by
    unfold State.touch
    dsimp only
    split <;> rfl
  unfold State.checkStore
  dsimp only
  (repeat' split) <;> simp [touches]
theorem checkRange_tr (s : State) (e : Nat) (x : ExtEnt) (off last n : Nat) : (s.checkRange e x off last n).1.tr = s.tr := by
  induction n generalizing s off with
  | zero => rfl
  | succ n ih =>
    unfold State.checkRange
    have hk := checkStore_tr s e x off
    split
    · rfl
    · split
      · next heq => rw [heq] at hk; exact (ih ..).trans hk
      · exact hk
theorem readExt_tr (s : State) (e : Nat) (x : ExtEnt) (off n : Nat) : (s.readExt e x off n).1.tr = s.tr := by
  have hk := checkRange_tr s e x off (off + n - 1) (n / 32 + 2)
  unfold State.readExt
  split
  · rfl
  · split <;> next heq => rw [heq] at hk; exact hk
theorem readRef_settled (s : State) (x : DRef) (c tag : Nat) : (s.readRef x c tag).1.settled = s.settled := by
  unfold State.readRef
  split
  · rfl
  · next e _ =>
    have hk : ((s.spendIo x.dext x.doff x.dlen).readExt x.dext e x.doff x.dlen).1.settled = s.settled := settled_of_tr (readExt_tr ..)
    split
    · next heq => rw [heq] at hk; exact hk
    · next u err heq =>
      rw [heq] at hk
      cases err with
      | bad off => exact (keeperFault_settled ..).trans hk
      | absent p => exact (keeperFault_settled ..).trans hk
theorem consume_settled (s : State) (h : Hdr) : (s.consume h).settled = s.settled := by
  unfold State.consume
  dsimp only
  split <;> rfl
theorem stopRing_tr (s : State) (c err : Nat) : (s.stopRing c err).tr = s.tr := by
  unfold State.stopRing State.putStatus State.postSys
  dsimp only
  split
  · rfl
  · rw [post_tr]; rfl
/-- A packet is answered by the checks, which leave the trust state alone but for sessions, or by its command's own part. -/
theorem packet_settled_cases (op : Nat) (lens : List Nat) (sys : Bool) (h : Hdr) (s : State) (body : State → Verdict) :
    (packet op lens sys h s body).settled = s.settled ∨
      ∃ t, t.settled = s.settled ∧ packet op lens sys h s body = (body t).apply h op := by
  have htaken : (taken s h).settled = s.settled := consume_settled (s.at h.cyc) h
  have answered : ∀ st d, (replied op h st d (taken s h)).settled = s.settled := fun st d => (replyTo_settled ..).trans htaken
  by_cases hl : h.len = 0 ∨ 128 < h.len
  · left
    cases hs : h.src with
    | ring k =>
      rw [packet_badLength_ring body hl hs]
      split
      · exact (replyTo_settled ..).trans (settled_of_tr (stopRing_tr ..))
      · rfl
    | mgmt n =>
      rw [packet_badLength_mgmt body hl hs]
      exact replyTo_settled ..
  · cases ht : (s.at h.cyc).takeable h with
    | false => rw [packet_waits body hl ht]; exact .inl rfl
    | true =>
      rw [packet_taken body hl ht]
      split
      · exact .inl (answered ..)
      split
      · exact .inl (answered ..)
      split
      · exact .inl (answered ..)
      split
      · exact .inl (answered ..)
      · exact .inr ⟨taken s h, htaken, rfl⟩
end Sys2Proof.Machine
end

section
/-! SUPPORT. What a command can do to the queue, the identity, the officer table and the minimum SVN (`exec_lasting`), and the statements about the
machine as a whole that follow. -/

namespace Sys2Proof.Machine

/-- What the clock's own moves leave of `Kept`: the beat number, the setting and its orders blanked out. -/
def Kept.lasting (k : Kept) : Kept := { k with beat := 0, m := 0, stretch := [] }
/-- Those parts of a machine. -/
def State.lasting (s : State) : Kept := s.kept.lasting
theorem lasting_of_kept {s t : State} (h : t.kept = s.kept) : t.lasting = s.lasting := congrArg Kept.lasting h

theorem doBeatBoundary_lasting (s : State) : (doBeatBoundary s).lasting = s.lasting := by
  cases hw : s.tr.wafer with
  | false => exact lasting_of_kept (doBeatBoundary_kept_unpowered hw)
  | true =>
    have hends : s.landAll.endBeat.kept = s.kept := by simp
    calc (doBeatBoundary s).lasting = s.landAll.endBeat.tickClock.lasting := lasting_of_kept (doBeatBoundary_kept_powered hw)
      _ = s.landAll.endBeat.lasting := rfl
      _ = s.lasting := lasting_of_kept hends
theorem doStretchOrder_lasting (m beat cyc : Nat) (s : State) : (doStretchOrder m beat cyc s).lasting = s.lasting := by
  unfold doStretchOrder
  dsimp only
  split
  · rfl
  · split
    · next heq => obtain rfl := State.take_shape heq; rfl
    · split <;> rfl
theorem doBeatEpoch_lasting (f : FHdr) (n : Nat) (s : State) : (doBeatEpoch f n s).lasting = s.lasting := by
  rcases s.fabricIn_cases f 0 [f.len] _ with h | h
  · exact lasting_of_kept h
  · have hcount : (s.rxCount f).lasting = s.lasting := lasting_of_kept (State.rxCount_kept s f)
    unfold doBeatEpoch
    rw [h]
    dsimp only
    split
    · exact (lasting_of_kept (State.beatEvent_kept ..)).trans hcount
    · exact (lasting_of_kept (State.beatEvent_kept ..)).trans hcount

/-! The boots (R366, R380, R448). -/

theorem adopt_lasting (s : State) (master : Option Nat) (own : Nat) : (s.adopt master own).lasting = s.lasting := by
  cases master with
  | none => exact (lasting_of_kept (State.beatEvent_kept _ 1 _ _)).trans rfl
  | some n => exact (lasting_of_kept (State.beatEvent_kept _ 2 _ _)).trans rfl
theorem bootBeat_lasting (s : State) (b : BootFinds) : (s.bootBeat b).lasting = s.lasting := by
  unfold State.bootBeat
  split
  · exact adopt_lasting ..
  · rfl
theorem takeMode_lasting (s : State) (master : Option Nat) : (s.takeMode master).lasting = s.lasting := by
  unfold State.takeMode
  dsimp only
  split
  · split
    · rfl
    · exact adopt_lasting ..
  · rfl
/-- A boot that ends ready raises the minimum SVN to the SVN of the image that runs (R448). -/
def raised (s t : State) : Kept := { s.lasting with minSvn := max s.tr.minSvn t.tr.svn }
theorem bootReady_settled (s : State) (c : ColdRep) :
    (s.bootReady c).settled = ({ madeReady s with tr := { (madeReady s).tr with warmLongs := [] } } : State).settled :=
  (finishAll_settled ..).trans (logRec_settled ..)
/-- What comes before `bootReady` keeps the lasting parts, so that it alone moves one. -/
theorem bootReady_lasting {s u : State} (h : u.lasting = s.lasting) (c : ColdRep) : (u.bootReady c).lasting = raised s (u.bootReady c) := by
  have hready : (u.bootReady c).kept = (madeReady u).kept := by rw [bootReady_eq]; simp
  have hsvn : (u.bootReady c).settled.svn = u.tr.svn := (congrArg Trust.svn (bootReady_settled u c) :)
  have hmin : u.tr.minSvn = s.tr.minSvn := congrArg Kept.minSvn h
  calc (u.bootReady c).lasting = { u.lasting with minSvn := max u.tr.minSvn u.tr.svn } := lasting_of_kept hready
    _ = raised s (u.bootReady c) := by rw [h, hmin, raised, ← hsvn]; rfl
theorem bootBare_lasting (s : State) (b : BootFinds) (k : Nat) (failed : Bool) : (s.bootBare b k failed).lasting = raised s (s.bootBare b k failed) := by
  unfold State.bootBare
  exact bootReady_lasting (lasting_of_kept (by simp)) _
theorem bootFull_lasting (s : State) (b : BootFinds) (k : Nat) (failed : Bool) : (s.bootFull b k failed).lasting = raised s (s.bootFull b k failed) := by
  unfold State.bootFull
  refine bootReady_lasting ?_ _
  refine (lasting_of_kept ?_).trans ((bootBeat_lasting ((((s.powerWafer (readVariant s.tr.varCert)).bootStacks (readVariant s.tr.varCert) b).bootHost
    b).bootLinks (readVariant s.tr.varCert) b) b).trans (lasting_of_kept ?_))
  · simp
  · simp
/-- Steps 2 to 9 end in ROM recovery with the lasting parts as they were, or ready with the minimum SVN raised. -/
theorem bootOn_lasting (s : State) (b : BootFinds) :
    ((s.bootOn b).lasting = s.lasting ∧ (s.bootOn b).tr.boot ≠ .ready) ∨ (s.bootOn b).lasting = raised s (s.bootOn b) := by
  cases hk : s.tr.tryFw with
  | none =>
    rw [bootOn_rom hk]
    have hrom : (s.bootRom b).settled.boot = .romRecovery := congrArg Trust.boot (logRec_settled ..)
    exact .inl ⟨lasting_of_kept (State.bootRom_kept ..), fun hr => Boot.noConfusion (hrom.symm.trans hr)⟩
  | some k =>
    have hload : ∀ t, raised (s.bootLoad k) t = raised s t := fun _ => rfl
    rw [bootOn_image hk, ← hload]
    right
    split
    · exact bootFull_lasting ..
    · exact bootBare_lasting ..
theorem bootOpen_lasting (s : State) : s.bootOpen.lasting = s.lasting := by
  have hopen : s.bootOpen.kept = s.coldState.kept := by simp [State.bootOpen]
  exact (lasting_of_kept hopen :)
/-- A cold boot keeps the lasting parts, a module that is ready having been so before and not asked for one, or it raises the minimum SVN. -/
theorem doColdBoot_lasting (b : BootFinds) (s : State) :
    ((doColdBoot b s).lasting = s.lasting ∧ ((doColdBoot b s).tr.boot = .ready → s.tr.boot = .ready ∧ s.tr.coldAsked = false)) ∨
      (doColdBoot b s).lasting = raised s (doColdBoot b s) := by
  have boots : ∀ u : State, u.lasting = s.lasting →
      ((u.bootOn b).lasting = s.lasting ∧ ((u.bootOn b).tr.boot = .ready → s.tr.boot = .ready ∧ s.tr.coldAsked = false)) ∨
        (u.bootOn b).lasting = raised s (u.bootOn b) := fun u h => by
    have hmin : u.tr.minSvn = s.tr.minSvn := congrArg Kept.minSvn h
    rcases bootOn_lasting u b with ⟨e, hb⟩ | e
    · exact .inl ⟨e.trans h, fun hr => absurd hr hb⟩
    · exact .inr (e.trans (by rw [raised, raised, h, hmin]))
  unfold doColdBoot
  dsimp only
  split
  · next hw =>
    split
    · exact boots s rfl
    · exact .inl ⟨rfl, fun hr => by simp [hw.2] at hr⟩
  split
  · next hs => exact .inl ⟨rfl, fun hr => ⟨hr, by simp at hs; simp [hs]⟩⟩
  split
  · split
    · exact .inl ⟨lasting_of_kept (State.goDark_kept s), fun hr => by cases hr⟩
    · next ha => exact .inl ⟨rfl, fun hr => ⟨hr, by simpa using ha⟩⟩
  split
  · exact boots s.bootOpen (bootOpen_lasting s)
  · exact .inl ⟨bootOpen_lasting s, fun hr => by cases hr⟩
theorem warmStart_lasting (s : State) (b : BootFinds) : (s.warmStart b).lasting = s.lasting := by
  unfold State.warmStart
  split
  · next k v hk hv =>
    refine (lasting_of_kept ?_).trans (takeMode_lasting
      (({ s with tr := s.tr.loadFw k, ha := { s.ha with fwver := (s.tr.loadFw k).fwver } } : State).freshWindow) b.master)
    simp
  · simp [State.lasting, Kept.lasting, Trust.loadFw]
  · rfl
theorem doModuleWarmReset_lasting (b : BootFinds) (s : State) : (doModuleWarmReset b s).lasting = s.lasting := by
  unfold doModuleWarmReset
  split
  · exact warmStart_lasting s b
  split
  · rfl
  · exact lasting_of_kept (State.warmStop_kept s)

/-! The officer table (R449, R452). -/

/-- The lasting parts but for the officer table and OGEN. -/
def Kept.identity (k : Kept) : Kept := { k.lasting with officers := [], ogen := 0 }
@[simp] theorem officerChange_identity (s : State) (h : Hdr) (p n : Nat) (bs : List SigBlk) (f : Tab (List Byte) → Tab (List Byte)) :
    (s.officerChange h p n bs f).kept.identity = s.kept.identity := by
  exact (congrArg Kept.identity (State.protRec_kept _ _ _ _ _ _ _ _) :)
/-- A packet whose command answers at once keeps what its own part keeps. -/
theorem packet_done_keeps {β : Type} (g : Kept → β) (op : Nat) (lens : List Nat) (sysOnly : Bool) (h : Hdr) (s : State) (body : State → Verdict)
    (hb : ∀ t, ∃ st d u, body t = .done st d u ∧ g u.kept = g t.kept) : g (packet op lens sysOnly h s body).kept = g s.kept := by
  rcases packet_cases op lens sysOnly h s body with e | ⟨t, ht, e⟩
  · rw [e]
  · obtain ⟨st, d, u, hu, htu⟩ := hb t
    rw [e, hu, apply_done]
    calc g (replied op h st d u).kept = g u.kept := congrArg g (State.replyTo_kept ..)
      _ = g t.kept := htu
      _ = g s.kept := congrArg g ht
theorem doOfficerEnrol_identity (h : Hdr) (slot : Nat) (key : List Byte) (blks : List SigBlk) (s : State) :
    (doOfficerEnrol h slot key blks s).kept.identity = s.kept.identity := by
  refine packet_done_keeps _ _ _ _ _ _ _ (fun t => ?_)
  dsimp only [check6, refuse]
  (repeat' split) <;> exact ⟨_, _, _, rfl, by simp⟩
theorem doOfficerRetire_identity (h : Hdr) (slot : Nat) (blks : List SigBlk) (s : State) :
    (doOfficerRetire h slot blks s).kept.identity = s.kept.identity := by
  refine packet_done_keeps _ _ _ _ _ _ _ (fun t => ?_)
  dsimp only [check6, refuse]
  (repeat' split) <;> exact ⟨_, _, _, rfl, by simp⟩

/-- What a command that goes on does to the lasting parts: all of them stay, or it is a change of the officers, which moves the table and OGEN
alone, or a cold boot that ends ready, which raises the minimum SVN. -/
inductive LastingStep (s t : State) : Instr → Prop
  | same {c : Instr} : t.lasting = s.lasting → LastingStep s t c
  | enrolled {h : Hdr} {slot : Nat} {key : List Byte} {blks : List SigBlk} : t.kept.identity = s.kept.identity →
      LastingStep s t (.officerEnrol h slot key blks)
  | retired {h : Hdr} {slot : Nat} {blks : List SigBlk} : t.kept.identity = s.kept.identity → LastingStep s t (.officerRetire h slot blks)
  | booted {b : BootFinds} : t.lasting = raised s t → LastingStep s t (.coldBoot b)
/-- Every command that goes on makes one of the `LastingStep`s: one for which `movesKept` is false keeps every part, the seven others are taken in turn. -/
theorem exec_lasting {c : Instr} {s t : State} (h : exec c s = .next t) : LastingStep s t c := by
  by_cases hc : movesKept c = false
  · exact .same (lasting_of_kept (exec_kept hc h))
  unfold movesKept at hc
  split at hc
  · obtain ⟨-, -, rfl⟩ := guarded_next ((exec_beatBoundary s).symm.trans h)
    exact .same (doBeatBoundary_lasting s)
  · obtain ⟨-, -, rfl⟩ := guarded_next ((exec_stretchOrder ..).symm.trans h)
    exact .same (doStretchOrder_lasting ..)
  · obtain ⟨-, -, rfl⟩ := guarded_next ((exec_beatEpoch ..).symm.trans h)
    exact .same (doBeatEpoch_lasting ..)
  · obtain ⟨-, -, rfl⟩ := guarded_next ((exec_officerEnrol ..).symm.trans h)
    exact .enrolled (doOfficerEnrol_identity ..)
  · obtain ⟨-, -, rfl⟩ := guarded_next ((exec_officerRetire ..).symm.trans h)
    exact .retired (doOfficerRetire_identity ..)
  · obtain ⟨-, -, rfl⟩ := guarded_next ((exec_moduleWarmReset ..).symm.trans h)
    exact .same (doModuleWarmReset_lasting ..)
  · obtain ⟨-, -, rfl⟩ := guarded_next ((exec_coldBoot ..).symm.trans h)
    rcases doColdBoot_lasting _ s with ⟨e, -⟩ | e
    · exact .same e
    · exact .booted e
  · exact absurd rfl hc
/-- No command touches the queue. -/
theorem exec_pending {c : Instr} {s t : State} (h : exec c s = .next t) : t.pending = s.pending := by
  cases exec_lasting h with
  | same e => exact congrArg Kept.pending e
  | enrolled e => exact congrArg Kept.pending e
  | retired e => exact congrArg Kept.pending e
  | booted e => exact congrArg Kept.pending e

/-! The queue. -/

theorem step_cons {c : Instr} {cs : List Instr} {s : State} (h : s.pending = c :: cs) : step s = exec c { s with pending := cs } := by
  unfold step
  rw [h]
theorem step_nil {s : State} (h : s.pending = []) : step s = .next s := by
  unfold step
  rw [h]
/-- Every command is its effect in the frame that judges its operands first. -/
theorem exec_guarded (c : Instr) (s : State) : ∃ n f, exec c s = guarded n c s f := by
  cases c <;> (unfold exec; exact ⟨_, _, rfl⟩)
theorem guarded_illFormed {n : String} {i : Instr} {s : State} {f : State → State} (hw : i.wf = false) :
    guarded n i s f = .refused (.illFormed n) := by
  simp [guarded, hw]
theorem guarded_noSuchUnit {n : String} {i : Instr} {s : State} {f : State → State} (hw : i.wf = true) (hu : i.units = false) :
    guarded n i s f = .fault (.noSuchUnit n) := by
  simp [guarded, hw, hu]

/-- Settles O1: the front command is taken off the queue and run. -/
theorem stepRunsTheFrontCommand : Obligations.StepRunsTheFrontCommand := fun _ _ _ h => step_cons h
/-- Settles O2, by the definition of a step. -/
theorem emptyQueueIdles : Obligations.EmptyQueueIdles := fun _ h => step_nil h
/-- Settles O3: every command stands in one frame (`exec_guarded`), which stops on its operands alone, and no command touches the queue. -/
theorem onlyIllFormedCommandsStop : Obligations.OnlyIllFormedCommandsStop := by
  intro c s
  obtain ⟨n, f, hx⟩ := exec_guarded c s
  refine ⟨fun hw => ⟨n, hx.trans (guarded_illFormed hw)⟩, fun hw hu => ⟨n, hx.trans (guarded_noSuchUnit hw hu)⟩, fun hw hu => ?_⟩
  have hnext : exec c s = .next (f s) := hx.trans (guarded_ok hw hu)
  exact ⟨f s, hnext, exec_pending hnext⟩
/-- Settles O4: the front command of a good queue goes on (O3), and leaves the rest of the queue as it is. -/
theorem goodQueueNeverStops : Obligations.GoodQueueNeverStops := by
  intro s hq
  cases hp : s.pending with
  | nil => exact ⟨s, step_nil hp, hp, hq⟩
  | cons c cs =>
    have hgood : ∀ x ∈ c :: cs, x.wf = true ∧ x.units = true := hp ▸ hq
    obtain ⟨hw, hu⟩ := hgood c (List.mem_cons_self ..)
    obtain ⟨t, ht, hrest⟩ := (onlyIllFormedCommandsStop c { s with pending := cs }).2.2 hw hu
    refine ⟨t, (step_cons hp).trans ht, hrest, fun x hx => hgood x (List.mem_cons_of_mem _ ?_)⟩
    rwa [hrest] at hx
/-- Settles O8, by the cases of `exec_lasting`. -/
theorem identityAndOfficersAreKept : Obligations.IdentityAndOfficersAreKept := by
  intro c s t h
  cases exec_lasting h with
  | same e =>
    simp only [State.lasting, Kept.lasting, State.kept, Kept.mk.injEq] at e
    simp [e]
  | enrolled e =>
    simp only [Kept.identity, Kept.lasting, State.kept, Kept.mk.injEq] at e
    simp [e]
  | retired e =>
    simp only [Kept.identity, Kept.lasting, State.kept, Kept.mk.injEq] at e
    simp [e]
  | booted e =>
    simp only [raised, State.lasting, Kept.lasting, State.kept, Kept.mk.injEq] at e
    simp [e]
end Sys2Proof.Machine
end

section
/-! SUPPORT. Firmware images (R367, R447, R448): what staging one touches, and the minimum SVN over the commands. -/

namespace Sys2Proof.Machine

/-- The trust state `u` is `t`, or `t` with an image in the slot that did not boot and perhaps another variant certificate waiting. -/
def OnlyStages (t u : Trust) : Prop :=
  u = t ∨ ∃ img cert, u = { t with fw := t.fw.set [] (1 - t.bootSlot) img, staged := true, stagedCert := cert }
/-- The other slot is another one, so the booted image stands. -/
theorem OnlyStages.keepsBooted {t u : Trust} (h : OnlyStages t u) (hw : Tab.wf [] t.fw = true) :
    u.bootSlot = t.bootSlot ∧ u.fw.get [] t.bootSlot = t.fw.get [] t.bootSlot ∧ u.minSvn = t.minSvn := by
  rcases h with rfl | ⟨img, cert, rfl⟩
  · exact ⟨rfl, rfl, rfl⟩
  · exact ⟨rfl, Tab.get_set_ne img (by omega) hw, rfl⟩
theorem stage_accepted {s : State} {b : List Byte} (h : s.tr.fwOk b = true)
    (hc : (fwSection b 4).all (fun c => decide (s.tr.certSeq ≤ (readVariant c).certseq)) = true) :
    s.stage b = (({ s with tr := { s.tr with fw := s.tr.fw.set [] (1 - s.tr.bootSlot) (fwImage b), staged := true,
                                             stagedCert := (fwSection b 4).orElse (fun _ => s.tr.stagedCert) } } : State).logRec 0x13 0 0xFFFF 52
      (leBytes 4 (fwVer b) ++ sha384 (fwImage b)), stOk, fwVer b) := by
  have hnew : ¬(fwSection b 4).any (fun c => decide ((readVariant c).certseq < s.tr.certSeq)) = true := by
    cases hs : fwSection b 4 with
    | none => simp
    | some c => simpa [hs] using hc
  unfold State.stage
  dsimp only
  rw [if_neg (by simp [h]), if_neg hnew]
theorem stage_onlyStages (s : State) (b : List Byte) : OnlyStages s.settled (s.stage b).1.settled := by
  unfold State.stage
  dsimp only
  split
  · exact .inl rfl
  split
  · exact .inl rfl
  · exact .inr ⟨_, _, logRec_settled ..⟩
theorem readThen_onlyStages (s : State) (x : DRef) (c tag : Nat) : OnlyStages s.settled (s.readThen x c tag (fun b v => v.stage b)).1.settled := by
  have hk := readRef_settled s x c tag
  unfold State.readThen
  split
  · next heq => rw [heq] at hk; exact hk ▸ stage_onlyStages ..
  · next heq => rw [heq] at hk; exact .inl hk
/-- A command that runs in the step that accepts it works on a machine whose trust state is the one before. -/
theorem ranNow_settled (op : Nat) (h : Hdr) (job : Job) (work : State → State × Nat × Nat) (t : State) :
    ∃ u id, u.settled = t.settled ∧ ranNow op h job work t = (work u).1.finish id (work u).2.1 (work u).2.2 := by
  refine ⟨_, _, ?_, rfl⟩
  exact replyTo_settled ..
theorem doFwStage_onlyStages (h : Hdr) (x : DRef) (s : State) : OnlyStages s.settled (doFwStage h x s).settled := by
  rcases packet_settled_cases 0x0C05 [1] true h s (fun s =>
    withRef h x s true (acceptNow s .bind (fun s => s.readThen x h.ctx h.tag (fun b s => s.stage b)))) with e | ⟨t, ht, e⟩
  · exact .inl e
  · have refused : ∀ st, OnlyStages s.settled ((refuse st t).apply h 0x0C05).settled := fun st => .inl ((replyTo_settled ..).trans ht)
    unfold doFwStage
    rw [e]
    unfold withRef check6
    split
    · split
      · exact refused _
      · exact refused _
    split
    · exact refused _
    split
    · obtain ⟨u, id, hu, hran⟩ := ranNow_settled 0x0C05 h .bind (fun s => s.readThen x h.ctx h.tag (fun b s => s.stage b)) t
      rw [apply_acceptNow, hran, finish_settled, ← ht, ← hu]
      exact readThen_onlyStages ..
    · exact refused _

/-- Settles O49: staging is `OnlyStages`, an image is judged by `Trust.fwOk`, and the minimum SVN moves as `exec_lasting` says. -/
theorem theBootedImageStands : Obligations.TheBootedImageStands := by
  refine ⟨?kept, ?runs, ?refused, ?staged, ?judged, ?falls, ?boots⟩
  case kept =>
    intro h x s t hw ht
    obtain ⟨-, -, rfl⟩ := guarded_next ((exec_fwStage ..).symm.trans ht)
    exact (doFwStage_onlyStages h x s).keepsBooted hw
  case runs =>
    intro h x s t hf hc hx hl
    rw [exec_of_fits hf (exec_fwStage ..), doFwStage, packet_comes hc, withRef_ok _ hx (rsv_of_comes hc) rfl hl, apply_acceptNow]
  case refused => exact fun b s h => stage_refused h
  case staged =>
    intro b s h hc hw
    rw [stage_accepted h hc]
    have hlog : ∀ (u : State) n body, (u.logRec 0x13 0 0xFFFF n body).tr.fw = u.tr.fw ∧ (u.logRec 0x13 0 0xFFFF n body).tr.staged = u.tr.staged :=
      fun u n body => ⟨(congrArg Trust.fw (logRec_settled u 0x13 0 0xFFFF n body) :), (congrArg Trust.staged (logRec_settled u 0x13 0 0xFFFF n body) :)⟩
    exact ⟨by rw [(hlog ..).1]; exact Tab.get_set_self _ _ hw, (hlog ..).2, rfl⟩
  case judged =>
    intro b t h
    simp only [Trust.fwOk, fwSections, Bool.and_eq_true, decide_eq_true_eq, List.all_eq_true, List.mem_range] at h
    obtain ⟨⟨⟨-, hsigned⟩, hsections⟩, hsvn⟩ := h
    exact ⟨hsigned, hsections, hsvn⟩
  case falls =>
    intro c s t h
    obtain ⟨-, -, -, -, -, hle, -⟩ := identityAndOfficersAreKept c s t h
    exact hle
  case boots =>
    intro b s t ht hasked hready
    obtain ⟨-, -, rfl⟩ := guarded_next ((exec_coldBoot ..).symm.trans ht)
    rcases doColdBoot_lasting b s with ⟨-, hb⟩ | e
    · obtain ⟨hr, ha⟩ := hb hready
      exact absurd (hasked hr) (by simp [ha])
    · exact congrArg Kept.minSvn e
end Sys2Proof.Machine
end

section
/-! SUPPORT. Signature blocks and the officer table (spec 19: R449 to R452), and the commands of the trust state. -/

namespace Sys2Proof.Machine

theorem verify_noKey (msg sig : List Byte) : verify [] msg sig = false := rfl
/-- Pairwise different slots, as the model compares them by their places. -/
theorem slots_nodup_iff (l : List Nat) :
    (List.range l.length).all (fun i => (List.range i).all (fun j => decide (l.getD i 0x100 ≠ l.getD j 0x101))) = true ↔ l.Nodup := by
  rw [List.Nodup, List.pairwise_iff_getElem]
  simp only [List.all_eq_true, List.mem_range, decide_eq_true_eq]
  refine ⟨fun h i j hi hj hij e => ?_, fun h i hi j hij e => ?_⟩
  · refine h j hj i hij ?_
    rw [List.getD_eq_getElem _ _ hj, List.getD_eq_getElem _ _ hi, e]
  · refine h j i (hij.trans hi) hi hij ?_
    rwa [List.getD_eq_getElem _ _ hi, List.getD_eq_getElem _ _ (hij.trans hi), eq_comm] at e
theorem blocksOk_iff (t : Trust) (new : Option (List Byte)) (stmt : List Byte) (bs : List SigBlk) :
    t.blocksOk new stmt bs = true ↔ (∀ b ∈ bs, b.rsv = true ∧ verify (t.blockKey new b.slot) stmt b.sig = true) ∧ (bs.map SigBlk.slot).Nodup := by
  rw [← slots_nodup_iff, List.length_map]
  simp only [Trust.blocksOk, Trust.blockOk, Bool.and_eq_true, List.all_eq_true (l := bs)]
/-- A block that names no key fails its whole set. -/
theorem blocksOk_noKey {t : Trust} {new : Option (List Byte)} {stmt : List Byte} {b : SigBlk} {bs : List SigBlk} (hb : b ∈ bs)
    (hk : t.blockKey new b.slot = []) : t.blocksOk new stmt bs = false := by
  refine Bool.eq_false_iff.mpr (fun h => ?_)
  obtain ⟨-, hv⟩ := ((blocksOk_iff ..).mp h).1 b hb
  rw [hk, verify_noKey] at hv
  cases hv
/-- The slot of an officer who has been retired names no key. -/
theorem blockKey_retired {t : Trust} (new : Option (List Byte)) {k : Nat} (hw : Tab.wf [] t.officers = true) (hk : k < 8) :
    ({ t with officers := t.officers.set [] k [] } : Trust).blockKey new k = [] := by
  unfold Trust.blockKey
  rw [if_pos hk]
  exact Tab.get_set_self k [] hw

/-! OFFICER_ENROL and OFFICER_RETIRE (R452). -/

section
variable {h : Hdr} {slot : Nat} {key : List Byte} {blks : List SigBlk} {s t : State}
  (hc : Comes 0x0B03 ([9, 13, 17].filter (fun l => decide (l = 5 + 4 * blks.length))) true h s t) (hk : t.tr.newKeyOk key = true)
include hc hk

theorem doOfficerEnrol_enrols (hhead : blks.head?.map SigBlk.slot = some 0xFF)
    (hb : t.tr.blocksOk (some (key.take 97)) (t.tr.statement 3 slot t.tr.ogen.toNat (sha384 (key.take 97))) blks = true)
    (hn : t.tr.needed ≤ officersIn blks) (hs : slot < 8) (he : t.tr.officers.get [] slot = []) :
    doOfficerEnrol h slot key blks s =
      replied 0x0B03 h stOk 0 (t.officerChange h 3 slot blks (fun o => o.set [] slot (key.take 97))) := by
  rw [doOfficerEnrol, packet_comes hc]
  dsimp only
  rw [if_neg (by simp [hk]), if_neg (by simp [hhead, hb, hn]), check6_ok _ (rsv_of_comes hc) (by simp [hs]), if_neg (by simp [he]), apply_done]
theorem doOfficerEnrol_unsigned (hb : blks.head?.map SigBlk.slot ≠ some 0xFF ∨
      t.tr.blocksOk (some (key.take 97)) (t.tr.statement 3 slot t.tr.ogen.toNat (sha384 (key.take 97))) blks = false ∨ officersIn blks < t.tr.needed) :
    doOfficerEnrol h slot key blks s = replied 0x0B03 h stSignature 0 t := by
  rw [doOfficerEnrol, packet_comes hc]
  dsimp only
  rw [if_neg (by simp [hk]), if_pos hb, apply_refuse]
end

section
variable {h : Hdr} {slot : Nat} {blks : List SigBlk} {s t : State}
  (hc : Comes 0x0B04 ([5, 9].filter (fun l => decide (l = 1 + 4 * blks.length))) true h s t)
include hc

theorem doOfficerRetire_retires (hb : t.tr.blocksOk none (t.tr.statement 4 slot t.tr.ogen.toNat []) blks = true)
    (hn : max 1 t.tr.needed ≤ officersIn blks) (hs : slot < 8) (he : t.tr.officers.get [] slot ≠ []) :
    doOfficerRetire h slot blks s = replied 0x0B04 h stOk 0 (t.officerChange h 4 slot blks (fun o => o.set [] slot [])) := by
  rw [doOfficerRetire, packet_comes hc]
  dsimp only
  rw [if_neg (by simp [hb]; omega), check6_ok _ (rsv_of_comes hc) (by simp [hs, he]), apply_done]
theorem doOfficerRetire_unsigned
    (hb : t.tr.blocksOk none (t.tr.statement 4 slot t.tr.ogen.toNat []) blks = false ∨ officersIn blks < max 1 t.tr.needed) :
    doOfficerRetire h slot blks s = replied 0x0B04 h stSignature 0 t := by
  rw [doOfficerRetire, packet_comes hc]
  dsimp only
  rw [if_pos hb, apply_refuse]
end

/-- Settles O48: a set is judged by `blocksOk_iff`, and each of the four commands refuses it before its other checks. -/
theorem signatureBlocksAreAcceptedWhole : Obligations.SignatureBlocksAreAcceptedWhole := by
  refine ⟨blocksOk_iff, fun t new stmt b bs hb hk => blocksOk_noKey hb hk, ?retired, ?fence, ?change, ?enrol, ?retire⟩
  case retired =>
    rintro t new stmt k b bs hw hb rfl hk
    exact blocksOk_noKey hb (blockKey_retired new hw hk)
  case fence =>
    rintro h gen b s t hf ⟨hs, ht, -⟩ hc hb
    rw [exec_of_fits hf (exec_ctxFence ..), doCtxFence_unsigned hs ht hc hb]
  case change =>
    rintro h ctx gen n0 n1 n2 n3 blks s t hf ⟨hs, ht, -⟩ hm hc hb
    rw [exec_of_fits hf (exec_protChange ..), doProtChange_unsigned hs ht hc hm hb]
  case enrol =>
    intro h slot key blks s t hf hc hk hb
    rw [exec_of_fits hf (exec_officerEnrol ..), doOfficerEnrol_unsigned hc hk hb]
  case retire =>
    intro h slot blks s t hf hc hb
    rw [exec_of_fits hf (exec_officerRetire ..), doOfficerRetire_unsigned hc hb]

/-! A packet's length among those its row allows for the blocks it carries. -/

/-- A packet that comes as one of its own length comes as one of any row that allows that length. -/
theorem comes_of_contains {op : Nat} {lens : List Nat} {sysOnly : Bool} {h : Hdr} {s t : State} (hc : Comes op [h.len] sysOnly h s t)
    (hl : lens.contains h.len = true) : Comes op lens sysOnly h s t := by
  obtain ⟨hs, ht, hr⟩ := hc
  refine ⟨?_, ht, hr⟩
  have hown : [h.len].contains h.len = true := by simp
  unfold served at hs ⊢
  rw [hl]
  rwa [hown] at hs
theorem enrolLength {n len : Nat} (h : len = 5 + 4 * n) (h1 : 1 ≤ n) (h3 : n ≤ 3) : ([9, 13, 17].filter (fun l => decide (l = 5 + 4 * n))).contains len = true := by
  subst h
  interval_cases n <;> rfl
theorem retireLength {n len : Nat} (h : len = 1 + 4 * n) (h1 : 1 ≤ n) (h2 : n ≤ 2) : ([5, 9].filter (fun l => decide (l = 1 + 4 * n))).contains len = true := by
  subst h
  interval_cases n <;> rfl

/-- Settles O39: each command's own part, on a packet whose length its row allows. -/
theorem trustCommandsComplete : Obligations.TrustCommandsComplete := by
  refine ⟨?attest, ?certs, ?enrols, ?enrolUnsigned, ?retires, ?retireUnsigned⟩
  case attest =>
    intro h nonce x s t hf hc hx hl
    rw [exec_of_fits hf (exec_attest ..), doAttest, packet_comes hc, writeOut_ok _ _ hx (rsv_of_comes hc) rfl hl]
  case certs =>
    intro h x s t hf hc hx hl
    rw [exec_of_fits hf (exec_certRead ..), doCertRead, packet_comes hc, writeOut_ok _ _ hx (rsv_of_comes hc) rfl hl, Trust.certs]
  case enrols =>
    intro h slot key blks s t hf hc hlen h3 hk hhead hb hn hs he
    have h1 : 1 ≤ blks.length := by
      cases blks with
      | nil => cases hhead
      | cons b bs => exact Nat.succ_le_succ (Nat.zero_le _)
    rw [exec_of_fits hf (exec_officerEnrol ..), doOfficerEnrol_enrols (comes_of_contains hc (enrolLength hlen h1 h3)) hk hhead hb hn hs he]
    rfl
  case enrolUnsigned =>
    intro h slot key blks s t hf hc hlen h1 h3 hk hb
    rw [exec_of_fits hf (exec_officerEnrol ..), doOfficerEnrol_unsigned (comes_of_contains hc (enrolLength hlen h1 h3)) hk (.inr (.inl hb))]
  case retires =>
    intro h slot blks s t hf hc hlen h1 h2 hb hn hs he
    rw [exec_of_fits hf (exec_officerRetire ..), doOfficerRetire_retires (comes_of_contains hc (retireLength hlen h1 h2)) hb hn hs he]
    rfl
  case retireUnsigned =>
    intro h slot blks s t hf hc hlen h1 h2 hb
    rw [exec_of_fits hf (exec_officerRetire ..), doOfficerRetire_unsigned (comes_of_contains hc (retireLength hlen h1 h2)) (.inl hb)]
end Sys2Proof.Machine
end

section
/-! SUPPORT. Binding commands and the boundary at which an order takes effect (spec 13: R328 to R330; spec 14: R347) on the states that the
statement about them names. -/

namespace Sys2Proof.Machine

/-! What the common part of R328 answers. -/

/-- A resource of context 0, for which the command's context has room, is ordered bound. -/
theorem bindIt_unheld {h : Hdr} {kind idx flags : Nat} {room : Bool} {s : State} (hf : fFree flags = false) (hc : h.ctx ≠ 0) (hr : room = true) :
    bindIt h kind idx flags 0 room s = takeBind kind idx h.ctx false none s := by
  unfold bindIt
  dsimp only
  rw [if_neg (by simp [hf]), if_neg (Ne.symm hc), if_neg (by simp [isUser]), if_pos hr]
/-- What the context will hold can be freed. -/
theorem bindIt_freed {h : Hdr} {kind idx flags w : Nat} {room : Bool} {s : State} (hf : fFree flags = true) (hw : w = h.ctx) :
    bindIt h kind idx flags w room s = takeBind kind idx h.ctx true none s := by
  unfold bindIt
  dsimp only
  rw [if_pos hf, if_pos hw]
/-- The system ring is not held to what a context may do on its own ring. -/
theorem ownOnly_sys {h : Hdr} (flags : Nat) (w : Option Nat) (hs : h.sys = true) : ownOnly h flags w ≠ false := by
  simp [ownOnly, hs]
/-- A context may FREE what it holds. -/
theorem ownOnly_held (h : Hdr) : ownOnly h 2 (some h.ctx) ≠ false := by
  have hfree : (fFree 2 && !fMove 2) = true := rfl
  simp [ownOnly, hfree]

/-! Each command on a packet that comes. -/

section
variable {h : Hdr} {region : Nat} {s t : State} (hs : served 0x0201 [1] true h s = true) (ht : taken s h = t) (hn : region < 80)
include hs ht hn

theorem doRegionBind_ordered (hr : h.rsv = true) (hm : (t.ctx h.ctx).mayHold region = true) (ha : (t.region region).st = .active)
    (hw : t.willHold 0 region = some 0) (hc : h.ctx ≠ 0) :
    doRegionBind h region 0 s = (takeBind 0 region h.ctx false none t).apply h 0x0201 := by
  rw [doRegionBind, packet_served hs, ht]
  dsimp only
  rw [if_neg (by simp [hm]), check6_ok _ hr (by simp [hn, ha, bindFlagsOk]), hw]
  exact congrArg (Verdict.apply h 0x0201) (bindIt_unheld rfl hc rfl)
theorem doRegionBind_masked (hm : (t.ctx h.ctx).mayHold region = false) : doRegionBind h region 0 s = replied 0x0201 h stDenied 0 t := by
  rw [doRegionBind, packet_served hs, ht]
  dsimp only
  rw [if_pos ⟨hn, rfl, hm⟩, apply_refuse]
end

theorem doExtentBind_ordered {h : Hdr} {ext : Nat} {e : ExtEnt} {s t : State} (hs : served 0x0203 [1] false h s = true) (ht : taken s h = t)
    (hr : h.rsv = true) (hsys : h.sys = true) (he : t.ext ext = some e) (hk : e.kind ≠ 6) (hw : t.willHold 1 ext = some 0) (hc : h.ctx ≠ 0)
    (hq : t.pagesToBe h.ctx + t.storePages ext e ≤ (t.ctx h.ctx).pageQ) :
    doExtentBind h ext 0 s = (takeBind 1 ext h.ctx false none t).apply h 0x0203 := by
  rw [doExtentBind, packet_served hs, ht]
  dsimp only
  rw [if_neg (ownOnly_sys _ _ hsys), check6_ok _ hr (by simp [hw, he, hk, bindFlagsOk]), hw]
  exact congrArg (Verdict.apply h 0x0203) (bindIt_unheld rfl hc (by simp [he, hq]))

section
variable {h : Hdr} {stream : Nat} {s t : State} (hs : served 0x0204 [1] false h s = true) (ht : taken s h = t) (hr : h.rsv = true)
  (hn : stream < 1536) (hv : (t.sc (stream / 64)).serving = true)
include hs ht hr hn hv

theorem doSlotBind_ordered (hsys : h.sys = true) (hw : t.willHold 2 stream = some 0) (hc : h.ctx ≠ 0)
    (hq : t.slotsToBe h.ctx + 1 ≤ (t.ctx h.ctx).slotQ) :
    doSlotBind h stream 0 s = (takeBind 2 stream h.ctx false none t).apply h 0x0204 := by
  rw [doSlotBind, packet_served hs, ht]
  dsimp only
  rw [if_neg (ownOnly_sys _ _ hsys), check6_ok _ hr (by simp [hn, hv, bindFlagsOk]), hw]
  exact congrArg (Verdict.apply h 0x0204) (bindIt_unheld rfl hc (by simp [hq]))
theorem doSlotBind_freed (hw : t.willHold 2 stream = some h.ctx) :
    doSlotBind h stream 2 s = (takeBind 2 stream h.ctx true none t).apply h 0x0204 := by
  rw [doSlotBind, packet_served hs, ht]
  dsimp only
  rw [hw, if_neg (ownOnly_held h), check6_ok _ hr (by simp [hn, hv, bindFlagsOk])]
  exact congrArg (Verdict.apply h 0x0204) (bindIt_freed rfl rfl)
end

theorem doGroupBind_ordered {h : Hdr} {blk : Nat} {s t : State} (hs : served 0x0205 [1] true h s = true) (ht : taken s h = t) (hr : h.rsv = true)
    (hg : (t.ctx h.ctx).gq = true) (hn : blk < 32) (hw : t.willHold 3 blk = some 0) (hc : h.ctx ≠ 0) (hq : t.groupToBe h.ctx = none) :
    doGroupBind h blk 0 s = (takeBind 3 blk h.ctx false none t).apply h 0x0205 := by
  rw [doGroupBind, packet_served hs, ht]
  dsimp only
  rw [if_neg (by simp [hg]), check6_ok _ hr (by simp [hn, bindFlagsOk]), hw]
  exact congrArg (Verdict.apply h 0x0205) (bindIt_unheld rfl hc (by simp [hq]))

section
variable {h : Hdr} {sc kind pages : Nat} {s t : State} (hs : served 0x0202 [1] false h s = true) (ht : taken s h = t)
include hs ht

/-- EXTENT_CREATE of store pages that are not to be host-visible: what the plan for it sets aside. -/
theorem doExtentCreate_plain (hr : h.rsv = true) (hn : sc < 24) (hv : (t.sc sc).serving = true) (hk : kind ≤ 5) (hk2 : kind ≠ 2) (hp : 1 ≤ pages)
    (hi : (t.freeIndex sc).isSome = true) (hm : (t.freeMap sc pages).isSome = true) :
    doExtentCreate h sc kind 0 pages 0 s = ((t.planExtent h.ctx sc kind pages 0 false false).elim (refuse stNoResource t)
      (fun p => takeBind 1 p.1 h.ctx false (some p.2) t)).apply h 0x0202 := by
  rw [doExtentCreate, packet_served hs, ht]
  simp only [bit, Nat.zero_testBit]
  rw [if_neg (by simp), check6_ok _ hr (by simp [hn, hv, hk, hk2, hp, hi, hm])]
  cases t.planExtent h.ctx sc kind pages 0 false false <;> rfl
theorem doExtentCreate_noIndex (hf : t.freeIndex sc = none ∨ t.freeMap sc pages = none) :
    doExtentCreate h sc kind 0 pages 0 s = replied 0x0202 h stBadParam 0 t := by
  rw [doExtentCreate, packet_served hs, ht]
  dsimp only
  rw [if_neg (by simp [bit]), check6_bad _ (by rcases hf with hf | hf <;> simp [hf]), apply_refuse]
end

/-! BINDING_EFFECT (R329). -/

/-- The order `b` for a resource carried out: it leaves the list, and the next one for the resource waits for a later boundary. -/
def State.orderDone (s : State) (kind idx : Nat) (b : BindOrd) : State :=
  { s.applyBind b with binds := ((s.applyBind b).binds.erase b).map (fun o =>
    if o.kind = kind ∧ o.idx = idx then { o with beat := max o.beat ((s.applyBind b).clk.beat + 1) } else o) }

section
variable {kind idx id : Nat} {b : BindOrd} {bs : List BindOrd} {s u : State} (ho : s.ordersFor kind idx = b :: bs)
include ho

theorem doBindingEffect_early (hb : s.clk.beat < b.beat) : doBindingEffect kind idx s = s := by
  unfold doBindingEffect
  rw [ho]
  exact if_pos (.inr (.inl hb))

variable (hc : s.clk.cycle = 0) (hb : b.beat ≤ s.clk.beat)
include hc hb

theorem doBindingEffect_done (hk : b.kind ≠ 0) (hl : b.long = some id) (hu : s.orderDone kind idx b = u)
    (hlast : u.binds.any (fun o => decide (o.long = some id)) = false) : doBindingEffect kind idx s = u.finish id stOk (u.bindDetail b) := by
  subst hu
  unfold doBindingEffect
  rw [ho]
  dsimp only
  rw [if_neg (by simp [hc, hk]; omega), if_neg (by simp [hk]), if_neg hk, hl]
  dsimp only
  exact (if_neg (ne_true_of_eq_false hlast)).trans (if_neg (fun h => hk h.1))

variable (hk : b.kind = 0) (hr : s.resetComes idx = false)
include hk hr

theorem doBindingEffect_testing
    (ht : s.tr.tests.any (fun t => t.running && decide (uClass t.unit = 3) && decide (uRegion t.unit = idx)) = true) :
    doBindingEffect kind idx s = s.dropRegionTests idx := by
  unfold doBindingEffect
  rw [ho]
  dsimp only
  rw [if_neg (by simp [hc, hr]; omega), if_pos ⟨hk, ht⟩]
theorem doBindingEffect_region (hl : b.long = some id)
    (ht : s.tr.tests.any (fun t => t.running && decide (uClass t.unit = 3) && decide (uRegion t.unit = idx)) = false)
    (hu : (s.dropRegionTests idx).orderDone kind idx b = u) (hlast : u.binds.any (fun o => decide (o.long = some id)) = false) :
    doBindingEffect kind idx s = if u.filling idx = true then u.afterFill id idx else u.finish id stOk (u.bindDetail b) := by
  subst hu
  unfold doBindingEffect
  rw [ho]
  dsimp only
  rw [if_neg (by simp [hc, hr]; omega), if_neg (by simp [ht]), if_pos hk, hl]
  dsimp only
  exact (if_neg (ne_true_of_eq_false hlast)).trans (by simp only [hk, true_and]; rfl)
end

/-- Settles O30: each command's answer on a served packet, and BINDING_EFFECT by the first order for its resource. -/
theorem bindingCommandsComplete : Obligations.BindingCommandsComplete := by
  refine ⟨?region, ?masked, ?extent, ?slot, ?group, ?create, ?noIndex, ?noPages, ?free, ?effect, ?testing, ?regionEffect, ?early⟩
  case region =>
    intro h region s t hf hs ht hr hm hn ha hw hc
    rw [exec_of_fits hf (exec_regionBind ..), doRegionBind_ordered hs ht hn hr hm ha hw hc]
    rfl
  case masked =>
    intro h region s t hf hs ht hn hm
    rw [exec_of_fits hf (exec_regionBind ..), doRegionBind_masked hs ht hn hm]
  case extent =>
    intro h ext e s t hf hs ht hr hsys he hk hw hc hq
    rw [exec_of_fits hf (exec_extentBind ..), doExtentBind_ordered hs ht hr hsys he hk hw hc hq]
    rfl
  case slot =>
    intro h stream s t hf hs ht hr hsys hn hv hw hc hq
    rw [exec_of_fits hf (exec_slotBind ..), doSlotBind_ordered hs ht hr hn hv hsys hw hc hq]
    rfl
  case group =>
    intro h blk s t hf hs ht hr hg hn hw hc hq
    rw [exec_of_fits hf (exec_groupBind ..), doGroupBind_ordered hs ht hr hg hn hw hc hq]
    rfl
  case create =>
    intro h sc kind pages p s t hf hs ht hr hn hv hk hk2 hp hi hm hplan
    rw [exec_of_fits hf (exec_extentCreate ..), doExtentCreate_plain hs ht hr hn hv hk hk2 hp hi hm, hplan]
    rfl
  case noIndex =>
    intro h sc kind pages s t hf hs ht hfull
    rw [exec_of_fits hf (exec_extentCreate ..), doExtentCreate_noIndex hs ht hfull]
  case noPages =>
    intro h sc kind pages s t hf hs ht hr hn hv hk hk2 hp hi hm hplan
    rw [exec_of_fits hf (exec_extentCreate ..), doExtentCreate_plain hs ht hr hn hv hk hk2 hp hi hm, hplan]
    rfl
  case free =>
    intro h stream s t hf hs ht hr hn hv hw
    rw [exec_of_fits hf (exec_slotBind ..), doSlotBind_freed hs ht hr hn hv hw]
    rfl
  case effect =>
    intro kind idx b bs id s u hf ho hc hb hk hl hu hlast
    rw [exec_of_fits hf (exec_bindingEffect ..), doBindingEffect_done ho hc hb hk hl hu hlast]
  case testing =>
    intro idx b bs s hf ho hc hb hk hr ht
    rw [exec_of_fits hf (exec_bindingEffect ..), doBindingEffect_testing ho hc hb hk hr ht]
  case regionEffect =>
    intro idx b bs id s u hf ho hc hb hk hl hr ht hu hlast
    rw [exec_of_fits hf (exec_bindingEffect ..), doBindingEffect_region ho hc hb hk hr hl ht hu hlast]
  case early =>
    intro kind idx b bs s hf ho hb
    rw [exec_of_fits hf (exec_bindingEffect ..), doBindingEffect_early ho hb]
end Sys2Proof.Machine
end

section
/-! SUPPORT. Repetitions, failed region controllers and lost transit domains (spec 13: R337; spec 17: R413 to R415, R420, R421) on the states that
the statement about them names. -/

namespace Sys2Proof.Machine

/-! REPETITION (R413, R414). The second record touches the log and the mark of unread records alone. -/

theorem repeated_shape (idx : Nat) (p : Rep) (r : Repeat) (s : State) : ∃ l t, repeated idx p r s = { s with log := l, tr := t } := by
  have flagged : ∃ l, s.flagNear p.rep.unit p.rep.stamp = { s with log := l } := by
    unfold State.flagNear
    split
    · exact ⟨_, rfl⟩
    · exact ⟨s.log, rfl⟩
  obtain ⟨l, hl⟩ := flagged
  unfold repeated State.logRec
  rw [hl]
  exact ⟨_, _, rfl⟩
@[simp] theorem repeated_tile (idx : Nat) (p : Rep) (r : Repeat) (s : State) (t : Nat) : (repeated idx p r s).tile t = s.tile t := by
  obtain ⟨_, _, h⟩ := repeated_shape idx p r s
  rw [h]
  rfl
@[simp] theorem repeated_ctx (idx : Nat) (p : Rep) (r : Repeat) (s : State) (c : Nat) : (repeated idx p r s).ctx c = s.ctx c := by
  obtain ⟨_, _, h⟩ := repeated_shape idx p r s
  rw [h]
  rfl
@[simp] theorem markSuspect_tile (s : State) (t k : Nat) : (s.markSuspect t).tile k = s.tile k := by
  unfold State.markSuspect
  split <;> rfl
@[simp] theorem markSuspect_ctx (s : State) (t c : Nat) : (s.markSuspect t).ctx c = s.ctx c := by
  unfold State.markSuspect
  split <;> rfl

theorem doRepetition_unknown {idx : Nat} {r : Repeat} {s : State} (h : s.log.reps.find? (fun p => p.idx = idx) = none) : doRepetition idx r s = s := by
  unfold doRepetition
  rw [h]

section
variable {idx : Nat} {r : Repeat} {p : Rep} {s : State} (hp : s.log.reps.find? (fun p => p.idx = idx) = some p)
  (hf : (s.tile (uTile p.rep.unit)).fenced = true)
include hp hf

theorem doRepetition_waits (ha : r.aborted = false) (hu : isUser p.rep.ctx = true) (hh : (s.ctx p.rep.ctx).part.held = false) : doRepetition idx r s = s := by
  unfold doRepetition
  rw [hp]
  dsimp only
  rw [if_pos hf, if_pos ⟨ha, hu, hh⟩]

variable (hh : (s.ctx p.rep.ctx).part.held = true)
include hh

/-- The result of a repetition whose fault is fenced and whose partition is held: the site is lost, or the tile reset, suspect or not. -/
theorem doRepetition_ends :
    doRepetition idx r s =
      if repeatResult p.rep.cls r = 2 ∨ repeatResult p.rep.cls r = 6 ∨
          (s.suspectUnit p.rep.unit = true ∧ (repeatResult p.rep.cls r = 1 ∨ repeatResult p.rep.cls r = 4)) then
        (repeated idx p r s).loseSite (uTile p.rep.unit) p.rep.cls idx
      else
        let u := if repeatResult p.rep.cls r = 3 then repeated idx p r s else (repeated idx p r s).markSuspect (uTile p.rep.unit)
        if (u.tile (uTile p.rep.unit)).fenced = true ∧ (u.ctx p.rep.ctx).st ≠ .fenced then u.orderReset 0 (uTile p.rep.unit) [] true else u := by
  unfold doRepetition
  rw [hp]
  dsimp only
  rw [if_pos hf, if_neg (by simp [hh])]
  rfl
theorem doRepetition_loses (hr : repeatResult p.rep.cls r = 2 ∨ repeatResult p.rep.cls r = 6 ∨
      (s.suspectUnit p.rep.unit = true ∧ (repeatResult p.rep.cls r = 1 ∨ repeatResult p.rep.cls r = 4))) :
    doRepetition idx r s = (repeated idx p r s).loseSite (uTile p.rep.unit) p.rep.cls idx :=
  (doRepetition_ends hp hf hh).trans (if_pos hr)
theorem doRepetition_suspects (hr : repeatResult p.rep.cls r = 1 ∨ repeatResult p.rep.cls r = 4) (hs : s.suspectUnit p.rep.unit = false)
    (hc : (s.ctx p.rep.ctx).st ≠ .fenced) :
    doRepetition idx r s = ((repeated idx p r s).markSuspect (uTile p.rep.unit)).orderReset 0 (uTile p.rep.unit) [] true := by
  rw [doRepetition_ends hp hf hh, if_neg (by rcases hr with hr | hr <;> simp [hr, hs])]
  have h3 : repeatResult p.rep.cls r ≠ 3 := by omega
  simp only [if_neg h3]
  exact if_pos (by simp [hf, hc])
theorem doRepetition_resets (hr : repeatResult p.rep.cls r = 3) (hc : (s.ctx p.rep.ctx).st ≠ .fenced) :
    doRepetition idx r s = (repeated idx p r s).orderReset 0 (uTile p.rep.unit) [] true := by
  rw [doRepetition_ends hp hf hh, if_neg (by simp [hr])]
  simp only [if_pos hr]
  exact if_pos (by simp [hf, hc])
end

/-! Region controllers and transit domains (R337, R420, R421). -/

theorem loseTransit_first {r : Nat} {s : State} (hg : (s.region r).gone = false) : s.loseTransit r = (s.transitLost r).takeOver r :=
  if_neg (by simp [hg])
theorem loseTransit_again {r : Nat} {s : State} (hg : (s.region r).gone = true) : s.loseTransit r = s := if_pos hg
theorem rcFails_present {cls r : Nat} {ok : Bool} {s u : State} {fails : List Nat} (hg : (s.region r).gone = false)
    (hf : (s.region r).rcFails.filter (fun t => decide (s.clk.wall < t + thirds 86400000)) = fails) (hu : s.keeperFault cls (uidRc r) 0 0 [] = u) :
    s.rcFails cls r ok =
      if ok = false ∨ 2 ≤ (fails ++ [s.clk.wall]).length then ((rcFenced r s.log.next (fails ++ [s.clk.wall]) u).takeOver r).loseTransit r
      else (rcFenced r s.log.next (fails ++ [s.clk.wall]) u).takeOver r := by
  subst hf hu
  unfold State.rcFails
  dsimp only
  rw [if_neg (by simp [hg])]
  rfl
/-- The controller that takes over is the first to the east that is not out (R337). -/
theorem successor_eq {s : State} {r q : Nat} (hq : q < 10) (h0 : 0 < q)
    (hout : ∀ i, 0 < i → i < q → s.rcOut (r / 10 * 10 + (r % 10 + i) % 10) = true) (hin : s.rcOut (r / 10 * 10 + (r % 10 + q) % 10) = false) :
    s.successor r = r / 10 * 10 + (r % 10 + q) % 10 := by
  have hfirst : ((List.range 9).find? (fun i => !s.rcOut (r / 10 * 10 + (r % 10 + 1 + i) % 10))) = some (q - 1) := by
    rw [List.find?_range_eq_some]
    refine ⟨?_, List.mem_range.mpr (by omega), fun j hj => ?_⟩
    · rw [show r % 10 + 1 + (q - 1) = r % 10 + q by omega, hin]
      rfl
    · rw [Nat.add_assoc, hout (1 + j) (by omega) (by omega)]
      rfl
  unfold State.successor
  rw [List.find?_map]
  simp only [Function.comp_def, hfirst]
  rw [Option.map_some, Option.getD_some, show r % 10 + 1 + (q - 1) = r % 10 + q by omega]

/-- Settles O44: a repetition by its result, a failed controller by `rcFails_present`, a lost domain by whether it is gone already. -/
theorem faultCommandsComplete : Obligations.FaultCommandsComplete := by
  refine ⟨?lost, ?suspect, ?lostSuspect, ?reset, ?waits, ?unknown, ?aborted, ?unable, ?same, ?other, ?noneFree, ?parity, ?first, ?second, ?silent,
    ?notSilent, ?transit, ?transitAgain, ?successor⟩
  case lost =>
    intro idx r p s hfit hp hf _ hh hr
    rw [exec_of_fits hfit (exec_repetition ..), doRepetition_loses hp hf hh (hr.imp_right .inl)]
  case suspect =>
    intro idx r p s hfit hp hf _ hh hr hs hc
    rw [exec_of_fits hfit (exec_repetition ..), doRepetition_suspects hp hf hh hr hs hc]
  case lostSuspect =>
    intro idx r p s hfit hp hf _ hh hr hs
    rw [exec_of_fits hfit (exec_repetition ..), doRepetition_loses hp hf hh (.inr (.inr ⟨hs, hr⟩))]
  case reset =>
    intro idx r p s hfit hp hf _ hh hr hc
    rw [exec_of_fits hfit (exec_repetition ..), doRepetition_resets hp hf hh hr hc]
  case waits =>
    intro idx r p s hfit hp hf ha hu hh
    rw [exec_of_fits hfit (exec_repetition ..), doRepetition_waits hp hf ha hu hh]
  case unknown =>
    intro idx r s hfit h
    rw [exec_of_fits hfit (exec_repetition ..), doRepetition_unknown h]
  case aborted => exact fun cls able same other => rfl
  case unable => exact fun same other => rfl
  case same => exact fun other => rfl
  case other =>
    intro n pass
    cases pass <;> rfl
  case noneFree => rfl
  case parity =>
    intro cls able same other hc
    unfold repeatResult
    rw [if_neg Bool.false_ne_true, if_neg hc]
  case first =>
    intro region u s hfit hg hf hu
    rw [exec_of_fits hfit (exec_rcFault ..), doRcFault, rcFails_present hg hf hu, if_neg (by simp), List.nil_append]
  case second =>
    intro region ok fails u s hfit hg hf hor hu
    have hlen : ok = false ∨ 2 ≤ (fails ++ [s.clk.wall]).length := hor.imp_right fun hne => by
      have := List.length_pos_of_ne_nil hne
      simp
      omega
    rw [exec_of_fits hfit (exec_rcFault ..), doRcFault, rcFails_present hg hf hu, if_pos hlen]
  case silent =>
    intro region ok s hfit hb
    rw [exec_of_fits hfit (exec_rcSilent ..), doRcSilent, if_neg (by omega)]
  case notSilent =>
    intro region ok s hfit hb
    rw [exec_of_fits hfit (exec_rcSilent ..), doRcSilent, if_pos hb]
  case transit =>
    intro region s hfit hg
    rw [exec_of_fits hfit (exec_transitSupplyLoss ..), doTransitSupplyLoss, loseTransit_first hg]
  case transitAgain =>
    intro region s hfit hg
    rw [exec_of_fits hfit (exec_transitSupplyLoss ..), doTransitSupplyLoss, loseTransit_again hg]
  case successor => exact fun s r q _ hq h0 hout hin => successor_eq hq h0 hout hin
end Sys2Proof.Machine
end

section
/-! SUPPORT. Samples of regions, stacks and coolant, and what the limits do (spec 16: R392 to R399) on the states that the statement about them
names. -/

namespace Sys2Proof.Machine

/-! REGION_SENSOR_SAMPLE (R392, R393, R395, R397). -/

/-- The region with the sample taken, its power above its limit or not. -/
def State.sampleTaken (s : State) (region : Nat) (smp : Sample) (droops : List Nat) (big : Bool) : State :=
  s.onRegion region (Region.sampled s.clk.m smp (dedup (droops.filter (· < 4))) big)
/-- What follows from the temperature. -/
def State.heated (s u : State) (region : Nat) (smp : Sample) : State :=
  if 440 ≤ smp.hottest ∧ (s.region region).cd = .on then tripRegion region u
  else if 380 ≤ smp.hottest ∧ ((s.region region).st = .active ∨ (s.region region).st = .hosting) ∧ (s.region region).cd = .on ∧
      isUser (u.serves region) = true ∧ (u.ctx (u.serves region)).moving region = false then u.coolDown region smp.hottest
  else u
theorem heated_cool {s : State} (u : State) {region : Nat} {smp : Sample} (ht : smp.hottest < 380) : s.heated u region smp = u := by
  unfold State.heated
  rw [if_neg (by omega), if_neg (by omega)]

section
variable {region : Nat} {smp : Sample} {droops : List Nat} {s : State}

theorem doRegionSensorSample_gone (hg : (s.region region).gone = true) : doRegionSensorSample region smp droops s = s := by
  unfold doRegionSensorSample
  dsimp only
  rw [if_pos hg]

variable (hg : (s.region region).gone = false)
include hg

/-- Above the power limit in a later beat, or not above it: no report. -/
theorem doRegionSensorSample_quiet {big : Bool} (ho : s.regionOver region smp = big) (hb : big = false ∨ (s.region region).overBeats ≠ 0) :
    doRegionSensorSample region smp droops s = s.heated (s.sampleTaken region smp droops big) region smp := by
  subst ho
  have hquiet : ¬(s.regionOver region smp = true ∧ (s.region region).overBeats = 0) := by
    rcases hb with hb | hb <;> simp [hb]
  unfold doRegionSensorSample
  dsimp only
  rw [if_neg (by simp [hg]), if_neg hquiet]
  rfl
/-- The first beat above the power limit is reported. -/
theorem doRegionSensorSample_reports (ho : s.regionOver region smp = true) (hb : (s.region region).overBeats = 0) :
    doRegionSensorSample region smp droops s = s.heated ((s.sampleTaken region smp droops true).report
      ⟨fcRegionPowerHigh, uidRc region, (s.sampleTaken region smp droops true).now, 0, 0, (s.sampleTaken region smp droops true).serves region, []⟩)
      region smp := by
  have hfirst : s.regionOver region smp = true ∧ (s.region region).overBeats = 0 := ⟨ho, hb⟩
  unfold doRegionSensorSample
  dsimp only
  rw [if_neg (by simp [hg]), if_pos hfirst, ho]
  rfl
end

/-- Up to the second trip within 24 hours the region goes heat-off. -/
theorem tripRegion_off {r : Nat} {trips : List Nat} {s : State}
    (ht : (s.region r).trips.filter (fun t => decide (s.clk.wall < t + thirds 86400000)) = trips) (hn : trips.length < 2) :
    tripRegion r s = (((s.report ⟨fcThermalTrip, uidRc r, s.now, 0, 0, s.serves r, []⟩).onRegion r (fun g =>
      { g.goTo .heatOff g.peer with trips := trips ++ [s.clk.wall], heatTrip := true, coolBeats := 0 }.turnOff)).reclaim
        (fun l => decide (l.kind = 3 ∧ l.idx = r) || (decide (l.kind = 4) && decide (uRegion l.res = r)))).tryNext (s.movesTo r) := by
  have hshadow : (decide (3 ≤ (trips ++ [s.clk.wall]).length) && inletOk s.gov.inlet) = false := by
    simp
    omega
  unfold tripRegion
  simp only [ht, hshadow, Bool.false_eq_true, if_false]
/-- At the third it is shadowed, where the coolant inlet is within limits. -/
theorem tripRegion_shadows {r : Nat} {s : State} (hn : 2 ≤ ((s.region r).trips.filter (fun t => decide (s.clk.wall < t + thirds 86400000))).length)
    (hlo : 60 ≤ s.gov.inlet) (hhi : s.gov.inlet ≤ 160) :
    tripRegion r s = ((((s.report ⟨fcThermalTrip, uidRc r, s.now, 0, 0, s.serves r, []⟩).addDefect (uidComp r) 2 2 fcThermalTrip 0).onRegion r (fun g =>
      { g.goTo .shadowed g.peer with trips := [], heatTrip := true, coolBeats := 0 }.turnOff)).reclaim
        (fun l => decide (l.kind = 3 ∧ l.idx = r) || (decide (l.kind = 4) && decide (uRegion l.res = r)))).tryNext (s.movesTo r) := by
  have hshadow : (decide (3 ≤ ((s.region r).trips.filter (fun t => decide (s.clk.wall < t + thirds 86400000)) ++ [s.clk.wall]).length) &&
      inletOk s.gov.inlet) = true := by
    simp [inletOk, hlo, hhi, hn]
  unfold tripRegion
  simp only [hshadow, if_true]

/-! HEAT_HIGH and HEAT_OFF_RECOVERY (R395, R397). -/

theorem doHeatHigh_rises {region : Nat} {s : State} (hb : 64 ≤ (s.region region).hotBeats) (hc : (s.region region).cd = .on)
    (hm : ∀ t ∈ allRegions, s.canHost region t (fun q => decide ((s.region q).tmax + 60 ≤ (s.region region).tmax)) = false) :
    doHeatHigh region s = (s.onRegion region (fun g => { g with high := true })).reclaim
      (fun l => decide (l.kind = 4) && decide (uRegion l.res = region)) :=
  if_pos ⟨hb, hc, List.all_eq_true.mpr (fun t ht => by rw [hm t ht]; rfl)⟩
theorem doHeatHigh_stays {region : Nat} {s : State} (h : (s.region region).hotBeats < 64 ∨ (s.region region).cd ≠ .on) : doHeatHigh region s = s :=
  if_neg fun hr => h.elim (Nat.not_lt.mpr hr.1) (fun hc => hc hr.2.1)
theorem doHeatOffRecovery_recovers {region : Nat} {s : State} (hs : (s.region region).st = .heatOff) (ht : (s.region region).heatTrip = true)
    (hb : 1024 ≤ (s.region region).coolBeats) :
    doHeatOffRecovery region s = s.onRegion region (fun g => { g.goTo .standby noRegion with heatTrip := false, coolBeats := 0 }) :=
  if_pos ⟨hs, ht, hb⟩
theorem doHeatOffRecovery_stays {region : Nat} {s : State} (h : (s.region region).heatTrip = false ∨ (s.region region).coolBeats < 1024) :
    doHeatOffRecovery region s = s :=
  if_neg fun hr => h.elim (ne_false_of_eq_true hr.2.1) (Nat.not_lt.mpr hr.2.2)

/-! STACK_SENSOR_SAMPLE and COOLANT_SAMPLE (R398, R399). -/

section
variable {sc : Nat} {temp : Int} {s : State} (hv : (s.sc sc).serving = true)
include hv

/-- The limit that a stack's temperature calls for: 2 no granules, 1 half of them. -/
theorem doStackSensorSample_serving {lim : Nat} (hl : (if 105 ≤ temp ∨ ((s.sc sc).limit = 2 ∧ 100 ≤ temp) then 2 else if 95 ≤ temp then 1 else 0) = lim) :
    doStackSensorSample sc temp s = if 105 ≤ temp ∧ (s.sc sc).limit ≠ 2 then (s.onSc sc (fun c => { c with temp := temp, limit := lim })).report
        ⟨fcStackOvertemp, uidSc sc, (s.onSc sc (fun c => { c with temp := temp, limit := lim })).now, 0, 0, 0, []⟩
      else s.onSc sc (fun c => { c with temp := temp, limit := lim }) := by
  subst hl
  unfold doStackSensorSample
  dsimp only
  rw [if_neg (by simp [hv])]
end

/-- The coolant's readings, with the derating above 40 °C. -/
def State.coolantRead (s : State) (inlet outlet : Int) (flow : Nat) : State :=
  { s with gov := { s.gov with inlet := inlet, outlet := outlet, flow := flow, derate := decide (160 < inlet) } }
theorem doCoolantSample_within {inlet outlet : Int} {flow : Nat} {s : State} (hi : inlet ≤ 180) (hf : 180 ≤ flow) (ho : outlet ≤ 260) :
    doCoolantSample inlet outlet flow s = s.coolantRead inlet outlet flow :=
  if_neg (by omega)
theorem doCoolantSample_shuts {inlet outlet : Int} {flow : Nat} {s : State} (hb : 180 < inlet ∨ flow < 180 ∨ 260 < outlet) (hw : s.tr.wafer = true)
    (hc : s.gov.coolOff = false) : doCoolantSample inlet outlet flow s = (s.coolantRead inlet outlet flow).shutdown fcCoolantFault [] :=
  if_pos ⟨hb, hw, hc⟩

/-- Settles O43: a sample by the report it brings and the temperature it shows, the others by their thresholds. -/
theorem heatCommandsComplete : Obligations.HeatCommandsComplete := by
  refine ⟨?cool, ?first, ?later, ?moves, ?trips, ?off, ?shadows, ?gone, ?high, ?notHigh, ?recovers, ?notRecovers, ?stackNone, ?stackStill, ?stackHalf,
    ?stackFull, ?coolant, ?shutdown⟩
  case cool =>
    intro region smp droops s hf hg ht ho
    rw [exec_of_fits hf (exec_regionSensorSample ..), doRegionSensorSample_quiet hg ho (.inl rfl), heated_cool _ ht, State.sampleTaken]
  case first =>
    intro region smp droops s hf hg ht ho hb
    rw [exec_of_fits hf (exec_regionSensorSample ..), doRegionSensorSample_reports hg ho hb, heated_cool _ ht, State.sampleTaken]
  case later =>
    intro region smp droops s hf hg ht ho hb
    rw [exec_of_fits hf (exec_regionSensorSample ..), doRegionSensorSample_quiet hg ho (.inr hb), heated_cool _ ht, State.sampleTaken]
  case moves =>
    intro region smp droops u s hf hg ha hc hlo hhi ho hu huser hmv
    rw [exec_of_fits hf (exec_regionSensorSample ..), doRegionSensorSample_quiet hg ho (.inl rfl), State.sampleTaken, hu, State.heated,
      if_neg (by omega), if_pos ⟨hlo, .inl ha, hc, huser, hmv⟩]
  case trips =>
    intro region smp droops s hf hg hc ht ho
    rw [exec_of_fits hf (exec_regionSensorSample ..), doRegionSensorSample_quiet hg ho (.inl rfl), State.heated, if_pos ⟨ht, hc⟩, State.sampleTaken]
  case off => exact fun r trips s ht hn => tripRegion_off ht hn
  case shadows => exact fun r s hn hlo hhi => tripRegion_shadows hn hlo hhi
  case gone =>
    intro region smp droops s hf hg
    rw [exec_of_fits hf (exec_regionSensorSample ..), doRegionSensorSample_gone hg]
  case high =>
    intro region s hf hb hc hm
    rw [exec_of_fits hf (exec_heatHigh ..), doHeatHigh_rises hb hc hm]
  case notHigh =>
    intro region s hf h
    rw [exec_of_fits hf (exec_heatHigh ..), doHeatHigh_stays h]
  case recovers =>
    intro region s hf hs ht hb
    rw [exec_of_fits hf (exec_heatOffRecovery ..), doHeatOffRecovery_recovers hs ht hb]
  case notRecovers =>
    intro region s hf h
    rw [exec_of_fits hf (exec_heatOffRecovery ..), doHeatOffRecovery_stays h]
  case stackNone =>
    intro sc temp s hf hv ht hl
    rw [exec_of_fits hf (exec_stackSensorSample ..), doStackSensorSample_serving hv (if_pos (.inl ht)), if_pos ⟨ht, hl⟩]
  case stackStill =>
    intro sc temp s hf hv hl ht
    rw [exec_of_fits hf (exec_stackSensorSample ..), doStackSensorSample_serving hv (if_pos (.inr ⟨hl, ht⟩)), if_neg (by simp [hl])]
  case stackHalf =>
    intro sc temp s hf hv h95 hor
    have hhalf : ¬(105 ≤ temp ∨ ((s.sc sc).limit = 2 ∧ 100 ≤ temp)) := by omega
    rw [exec_of_fits hf (exec_stackSensorSample ..), doStackSensorSample_serving hv ((if_neg hhalf).trans (if_pos h95)), if_neg (by omega)]
  case stackFull =>
    intro sc temp s hf hv ht
    rw [exec_of_fits hf (exec_stackSensorSample ..),
      doStackSensorSample_serving hv ((if_neg (by omega)).trans (if_neg (by omega))), if_neg (by omega)]
  case coolant =>
    intro inlet outlet flow s hf hi hfl ho
    rw [exec_of_fits hf (exec_coolantSample ..), doCoolantSample_within hi hfl ho, State.coolantRead]
  case shutdown =>
    intro inlet outlet flow u s hf hb hw hc hu
    rw [exec_of_fits hf (exec_coolantSample ..), doCoolantSample_shuts hb hw hc, State.coolantRead, hu]
end Sys2Proof.Machine
end

section
/-! SUPPORT. The inputs, the sense contacts and the auxiliary supply (spec 20: R458 to R463, R482) on the states that the statement about them
names. -/

namespace Sys2Proof.Machine

/-! INPUT_VALID (R459). -/

/-- Whether a voltage in range may close input `i`: no overvoltage keeps it open, and the voltage has been away for a second since a current trip. -/
def State.mayClose (s : State) (i : Nat) : Bool :=
  match (s.pwr.ins.get {} i).opened with
  | some .excess => false
  | some .current => (s.pwr.ins.get {} i).gone.any (fun t => decide (t + thirds 1000 ≤ s.clk.wall))
  | _ => true
theorem mayClose_of {s : State} {i : Nat} (he : (s.pwr.ins.get {} i).opened ≠ some .excess)
    (hc : (s.pwr.ins.get {} i).opened = some .current → ∃ t, (s.pwr.ins.get {} i).gone = some t ∧ t + thirds 1000 ≤ s.clk.wall) :
    s.mayClose i = true := by
  unfold State.mayClose
  split
  · next h => exact absurd h he
  · next h =>
    obtain ⟨t, ht, hle⟩ := hc h
    exact any_reached ht hle
  · rfl
theorem not_mayClose_of {s : State} {i : Nat} (h : (s.pwr.ins.get {} i).opened = some .excess ∨
    (s.pwr.ins.get {} i).opened = some .current ∧ ∀ t, (s.pwr.ins.get {} i).gone = some t → s.clk.wall < t + thirds 1000) : s.mayClose i = false := by
  unfold State.mayClose
  rcases h with h | ⟨h, hg⟩
  · rw [h]
  · rw [h]
    exact any_not_reached hg
theorem doInputValid_range {i v : Nat} {s : State} (hlo : 4600 ≤ v) (hhi : v ≤ 6000) {ok : Bool} (hok : s.mayClose i = ok) :
    doInputValid i v s = s.onIn i (fun x => if ok then x.close v else { x with v := v, gone := none }) := by
  subst hok
  exact if_neg (by omega)
theorem doInputValid_outside {i v : Nat} {s : State} (h : v < 4600 ∨ 6000 < v) : doInputValid i v s = s := if_pos h

/-! Overvoltage, overcurrent, loss (R459 to R461). -/

theorem doInputOvervoltage_opens {i v : Nat} {s : State} (h : 6100 < v) :
    doInputOvervoltage i v s = (s.onIn i (fun x => { x.open_ .excess with v := v })).supplied := if_neg (by omega)
theorem doInputOvervoltage_within {i v : Nat} {s : State} (h : v ≤ 6100) : doInputOvervoltage i v s = s := if_pos h
theorem doInputReclose_closes {i v : Nat} {s : State} (ho : (s.pwr.ins.get {} i).opened = some .excess) (hlo : 4800 ≤ v) (hhi : v ≤ 5800) :
    doInputReclose i v s = s.onIn i (PwrIn.close v) := if_pos ⟨ho, hlo, hhi⟩
theorem doInputReclose_stays {i v : Nat} {s : State} (h : (s.pwr.ins.get {} i).opened ≠ some .excess ∨ v < 4800 ∨ 5800 < v) :
    doInputReclose i v s = s := by
  refine if_neg ?_
  rintro ⟨ho, hlo, hhi⟩
  exact h.elim (fun hne => hne ho) (by omega)
theorem doInputOvercurrent_trips {i amps held : Nat} {s : State} (hl : (s.pwr.ins.get {} i).live = true) (h : 1100 < amps ∨ (800 < amps ∧ 5000 ≤ held)) :
    doInputOvercurrent i amps held s = (s.onIn i (PwrIn.open_ .current)).supplied := if_pos ⟨hl, h⟩
theorem doInputOvercurrent_stays {i amps held : Nat} {s : State} (ha : amps ≤ 1100) (h : amps ≤ 800 ∨ held < 5000) :
    doInputOvercurrent i amps held s = s := by
  refine if_neg ?_
  rintro ⟨-, hover⟩
  omega
/-- An input whose voltage has left its range: no longer live; after a current trip the time is noted from which the voltage is away. -/
def PwrIn.lost (v wall : Nat) (x : PwrIn) : PwrIn :=
  { x with v := v, i := 0, live := false, opened := x.opened.orElse (fun _ => some .fitted)
           gone := if x.opened = some .current ∧ v < 4600 then some (x.gone.getD wall) else none }
theorem doInputLost_lost {i v : Nat} {s : State} (h : v < 4600 ∨ 6000 < v) : doInputLost i v s = (s.onIn i (PwrIn.lost v s.clk.wall)).supplied :=
  if_neg (by omega)
theorem doInputLost_within {i v : Nat} {s : State} (hlo : 4600 ≤ v) (hhi : v ≤ 6000) : doInputLost i v s = s := if_pos ⟨hlo, hhi⟩

/-! What a change of the inputs leads to (R463, R482). -/

theorem supplied_dark {s : State} (hb : s.tr.boot = .coolantWait) (hl : s.allLive = false) (hu : s.goDark.pwr.standbyUp = true) :
    s.supplied = s.goDark := by
  have hstop : (if s.tr.boot = .coolantWait ∧ s.allLive = false then s.goDark else s) = s.goDark := if_pos ⟨hb, hl⟩
  unfold State.supplied
  rw [hstop]
  exact if_pos hu
theorem supplied_running {s : State} (hb : s.tr.boot ≠ .coolantWait) : s.supplied =
    if s.pwr.standbyUp = true then s else { s with tr := { s.tr with sessions := [], armed := none, ip := none, alert := false } } := by
  have hgo : (if s.tr.boot = .coolantWait ∧ s.allLive = false then s.goDark else s) = s := if_neg fun h => hb h.1
  unfold State.supplied
  rw [hgo]

/-- Settles O46: each input command by its thresholds, and `supplied` by the boot and the sources. -/
theorem inputCommandsComplete : Obligations.InputCommandsComplete := by
  refine ⟨?sense, ?closes, ?kept, ?outside, ?excess, ?notExcess, ?recloses, ?notRecloses, ?trips, ?notTrips, ?lost, ?notLost, ?aux, ?dark, ?up, ?down⟩
  case sense =>
    intro conn s hf
    rw [exec_of_fits hf (exec_pxSenseBreak ..)]
    rfl
  case closes =>
    intro i v s hf hlo hhi he hc
    rw [exec_of_fits hf (exec_inputValid ..), doInputValid_range hlo hhi (mayClose_of he hc)]
    rfl
  case kept =>
    intro i v s hf hlo hhi h
    rw [exec_of_fits hf (exec_inputValid ..), doInputValid_range hlo hhi (not_mayClose_of h)]
    rfl
  case outside =>
    intro i v s hf h
    rw [exec_of_fits hf (exec_inputValid ..), doInputValid_outside h]
  case excess =>
    intro i v s hf h
    rw [exec_of_fits hf (exec_inputOvervoltage ..), doInputOvervoltage_opens h]
  case notExcess =>
    intro i v s hf h
    rw [exec_of_fits hf (exec_inputOvervoltage ..), doInputOvervoltage_within h]
  case recloses =>
    intro i v s hf ho hlo hhi
    rw [exec_of_fits hf (exec_inputReclose ..), doInputReclose_closes ho hlo hhi]
    rfl
  case notRecloses =>
    intro i v s hf h
    rw [exec_of_fits hf (exec_inputReclose ..), doInputReclose_stays h]
  case trips =>
    intro i amps held s hf hl h
    rw [exec_of_fits hf (exec_inputOvercurrent ..), doInputOvercurrent_trips hl h]
  case notTrips =>
    intro i amps held s hf ha h
    rw [exec_of_fits hf (exec_inputOvercurrent ..), doInputOvercurrent_stays ha h]
  case lost =>
    intro i v s hf h
    rw [exec_of_fits hf (exec_inputLost ..), doInputLost_lost h]
    rfl
  case notLost =>
    intro i v s hf hlo hhi
    rw [exec_of_fits hf (exec_inputLost ..), doInputLost_within hlo hhi]
  case aux =>
    intro present s hf
    rw [exec_of_fits hf (exec_aux12vChange ..), doAux12vChange]
  case dark => exact fun s hb hl hu => supplied_dark hb hl hu
  case up => exact fun s hb hu => (supplied_running hb).trans (if_pos hu)
  case down => exact fun s hb hu => (supplied_running hb).trans (if_neg (ne_true_of_eq_false hu))
end Sys2Proof.Machine
end

section
/-! SUPPORT. The sideband (spec 18: R443; spec 19: R455; spec 20: R463, R473, R474, R477, R482) on the states that the statement about it names. -/

namespace Sys2Proof.Machine

/-! Standby power (R463): with it a command of SMBus or of the management port has its effect, without it none. -/

theorem onStandby_up {s : State} (f : State → State) (hu : s.pwr.standbyUp = true) : s.onStandby f = f s := if_pos hu
theorem onStandby_down {s : State} (f : State → State) (hu : s.pwr.standbyUp = false) : s.onStandby f = s := if_neg (ne_true_of_eq_false hu)
/-- A command whose effect is none on this state does nothing, with standby power or without. -/
theorem onStandby_none {s : State} {f : State → State} (hf : f s = s) : s.onStandby f = s := by
  unfold State.onStandby
  rw [hf, ite_self]

/-! The selected record (R443). -/

theorem smbHalf_outside {s : State} (high : Bool) (h : s.log.smbSel < s.log.oldest ∨ s.log.next ≤ s.log.smbSel) :
    s.smbHalf high = List.replicate 128 0xFF#8 := by
  unfold State.smbHalf
  dsimp only
  rw [if_neg (by omega)]

/-! The two-write reset (R473). -/

theorem doSmbusResetArm_other {v : Nat} {s : State} (h : v ≠ 0xA5) : doSmbusResetArm v s = s := onStandby_none (if_neg h)
theorem doSmbusResetArmExpiry_ends {t : Nat} {s : State} (ha : s.tr.armed = some t) (ht : t ≤ s.clk.wall) :
    doSmbusResetArmExpiry s = { s with tr := { s.tr with armed := none } } := if_pos (by simp [ha, ht])
theorem doSmbusResetArmExpiry_early {s : State} (h : ∀ t, s.tr.armed = some t → s.clk.wall < t) : doSmbusResetArmExpiry s = s := by
  refine if_neg fun ha => ?_
  obtain ⟨t, ht, hle⟩ := (Option.any_eq_true _ _).mp ha
  exact Nat.not_le.mpr (h t ht) (of_decide_eq_true hle)
theorem doSmbusResetConfirm_resets {t : Nat} {s : State} (hu : s.pwr.standbyUp = true) (ha : s.tr.armed = some t) (ht : s.clk.wall < t) :
    doSmbusResetConfirm 0x5A s = ({ s with tr := { s.tr with armed := none } } : State).askWarm 5 0 [] :=
  (onStandby_up _ hu).trans (if_pos ⟨rfl, by simp [ha, ht]⟩)
theorem doSmbusResetConfirm_none {v : Nat} {s : State} (h : v ≠ 0x5A ∨ ∀ t, s.tr.armed = some t → t ≤ s.clk.wall) : doSmbusResetConfirm v s = s := by
  refine onStandby_none (if_neg ?_)
  rintro ⟨hv, ha⟩
  obtain ⟨t, ht, hlt⟩ := (Option.any_eq_true _ _).mp ha
  exact h.elim (fun hne => hne hv) (fun hle => Nat.not_lt.mpr (hle t ht) (of_decide_eq_true hlt))

/-! The pin, the port's address and its sessions (R455, R473, R474, R477). -/

theorem doSmbusWriteSbCfg_ignored {v : Nat} {s : State} (h : v % 4 = 3) : doSmbusWriteSbCfg v s = s := onStandby_none (if_pos h)
/-- The address that a setting gives: none, so DHCP, where it is all zero. -/
theorem address_set {v : List Byte} (h : v ≠ List.replicate v.length 0#8) : (if v.all (· = 0#8) then none else some v) = some v := by
  refine if_neg fun hall => h (List.eq_replicate_iff.mpr ⟨rfl, fun b hb => ?_⟩)
  exact of_decide_eq_true (List.all_eq_true.mp hall b hb)
theorem address_zero (n : Nat) :
    (if (List.replicate n 0#8).all (· = 0#8) then none else some (List.replicate n 0#8)) = none :=
  if_pos (List.all_eq_true.mpr fun _ hb => decide_eq_true (List.eq_of_mem_replicate hb))
theorem doModRstNRelease_warm {ns : Nat} {s : State} (h0 : 1000 ≤ ns) (h1 : ns ≤ 10 ^ 9) :
    doModRstNRelease ns s = ({ s with tr := { s.tr with armed := none } } : State).askWarm 4 0 [] :=
  (if_neg (Nat.not_lt.mpr h0)).trans (if_pos h1)
theorem doModRstNRelease_cold {ns : Nat} {s : State} (h : 10 ^ 9 < ns) :
    doModRstNRelease ns s = { s with tr := { s.tr with armed := none, coldAsked := true } } :=
  (if_neg (by omega)).trans (if_neg (Nat.not_le.mpr h))
theorem doMgmtSessionOpen_opens {id : Nat} {key : List Byte} {s : State} (hu : s.pwr.standbyUp = true)
    (h : s.tr.officers = [] ∨ ∃ k, (k, key) ∈ s.tr.officers) :
    doMgmtSessionOpen id key s = { s with tr := { s.tr with sessions := s.tr.sessions.filter (fun x => decide (x.id ≠ id)) ++ [⟨id, 0, []⟩] } } := by
  refine (onStandby_up _ hu).trans (if_pos (h.imp_right ?_))
  rintro ⟨k, hk⟩
  exact List.any_eq_true.mpr ⟨(k, key), hk, by simp⟩
theorem doMgmtSessionOpen_refused {id : Nat} {key : List Byte} {s : State} (he : s.tr.officers ≠ []) (hk : ∀ k, (k, key) ∉ s.tr.officers) :
    doMgmtSessionOpen id key s = s := by
  refine onStandby_none (if_neg ?_)
  rintro (h | h)
  · exact he h
  · obtain ⟨⟨k, x⟩, hmem, hx⟩ := List.any_eq_true.mp h
    exact hk k (of_decide_eq_true hx ▸ hmem)

/-- Settles O45: on standby power each command's own effect, without it none. -/
theorem sidebandCommandsComplete : Obligations.SidebandCommandsComplete := by
  refine ⟨?identity, ?status, ?indices, ?select, ?low, ?high, ?outside, ?arm, ?armOther, ?expires, ?armed, ?confirm, ?confirmNone, ?ipv4, ?static,
    ?dhcp, ?edge, ?edgeIgnored, ?alert, ?noAlert, ?shortPulse, ?warmPulse, ?longPulse, ?session, ?stranger, ?down⟩
  case identity =>
    intro s hf hu
    rw [exec_of_fits hf (exec_smbusReadIdentity ..), doSmbusReadIdentity, onStandby_up _ hu]
  case status =>
    rintro _ s hf hu rfl
    rw [exec_of_fits hf (exec_smbusReadStatus ..), doSmbusReadStatus, onStandby_up _ hu]
  case indices =>
    intro s hf hu
    rw [exec_of_fits hf (exec_smbusLogIndices ..), doSmbusLogIndices, onStandby_up _ hu]
  case select =>
    intro v s hf hu
    rw [exec_of_fits hf (exec_smbusLogSelect ..), doSmbusLogSelect, onStandby_up _ hu]
  case low =>
    intro s hf hu
    rw [exec_of_fits hf (exec_smbusLogReadLow ..), doSmbusLogReadLow, onStandby_up _ hu]
  case high =>
    rintro _ s hf hu rfl
    rw [exec_of_fits hf (exec_smbusLogReadHigh ..), doSmbusLogReadHigh, onStandby_up _ hu]
    rfl
  case outside => exact fun high s h => smbHalf_outside high h
  case arm =>
    intro s hf hu
    rw [exec_of_fits hf (exec_smbusResetArm ..), doSmbusResetArm, onStandby_up _ hu, if_pos rfl]
  case armOther =>
    intro v s hf h
    rw [exec_of_fits hf (exec_smbusResetArm ..), doSmbusResetArm_other h]
  case expires =>
    intro t s hf ha ht
    rw [exec_of_fits hf (exec_smbusResetArmExpiry ..), doSmbusResetArmExpiry_ends ha ht]
  case armed =>
    intro s hf h
    rw [exec_of_fits hf (exec_smbusResetArmExpiry ..), doSmbusResetArmExpiry_early h]
  case confirm =>
    intro t s hf hu ha ht
    rw [exec_of_fits hf (exec_smbusResetConfirm ..), doSmbusResetConfirm_resets hu ha ht]
  case confirmNone =>
    intro v s hf h
    rw [exec_of_fits hf (exec_smbusResetConfirm ..), doSmbusResetConfirm_none h]
  case ipv4 =>
    intro v s hf hu
    rw [exec_of_fits hf (exec_smbusSetIpv4 ..), doSmbusSetIpv4, onStandby_up _ hu]
  case static =>
    intro v s hf hu hv hne
    rw [exec_of_fits hf (exec_mgmtPortLinkUp ..), doMgmtPortLinkUp, onStandby_up _ hu, hv, Option.bind_some, address_set hne]
  case dhcp =>
    intro s hf hu hv
    rw [exec_of_fits hf (exec_mgmtPortLinkUp ..), doMgmtPortLinkUp, onStandby_up _ hu]
    rcases hv with hv | ⟨n, hv⟩
    · rw [hv, Option.bind_none]
    · rw [hv, Option.bind_some, address_zero]
  case edge =>
    intro v s hf hu hv
    rw [exec_of_fits hf (exec_smbusWriteSbCfg ..), doSmbusWriteSbCfg, onStandby_up _ hu, if_neg hv]
  case edgeIgnored =>
    intro v s hf hv
    rw [exec_of_fits hf (exec_smbusWriteSbCfg ..), doSmbusWriteSbCfg_ignored hv]
  case alert =>
    intro sa1 sa0 s hf hu ha
    rw [exec_of_fits hf (exec_smbusAlertResponse ..), doSmbusAlertResponse, onStandby_up _ hu, if_pos ha]
  case noAlert =>
    intro sa1 sa0 s hf hu ha
    rw [exec_of_fits hf (exec_smbusAlertResponse ..), doSmbusAlertResponse, onStandby_up _ hu, if_neg (ne_true_of_eq_false ha)]
  case shortPulse =>
    intro ns s hf h
    rw [exec_of_fits hf (exec_modRstNRelease ..), doModRstNRelease, if_pos h]
  case warmPulse =>
    intro ns s hf h0 h1
    rw [exec_of_fits hf (exec_modRstNRelease ..), doModRstNRelease_warm h0 h1]
  case longPulse =>
    intro ns s hf h
    rw [exec_of_fits hf (exec_modRstNRelease ..), doModRstNRelease_cold h]
  case session =>
    intro id key s hf hu h
    rw [exec_of_fits hf (exec_mgmtSessionOpen ..), doMgmtSessionOpen_opens hu h]
  case stranger =>
    intro id key s hf he hk
    rw [exec_of_fits hf (exec_mgmtSessionOpen ..), doMgmtSessionOpen_refused he hk]
  case down =>
    intro c s hf hu hc
    simp only [List.mem_cons, List.not_mem_nil, or_false] at hc
    rcases hc with rfl | rfl | rfl | rfl | rfl | rfl | rfl | rfl
    · rw [exec_of_fits hf (exec_smbusReadIdentity ..), doSmbusReadIdentity, onStandby_down _ hu]
    · rw [exec_of_fits hf (exec_smbusReadStatus ..), doSmbusReadStatus, onStandby_down _ hu]
    · rw [exec_of_fits hf (exec_smbusLogIndices ..), doSmbusLogIndices, onStandby_down _ hu]
    · rw [exec_of_fits hf (exec_smbusLogReadLow ..), doSmbusLogReadLow, onStandby_down _ hu]
    · rw [exec_of_fits hf (exec_smbusLogReadHigh ..), doSmbusLogReadHigh, onStandby_down _ hu]
    · rw [exec_of_fits hf (exec_mgmtPortLinkUp ..), doMgmtPortLinkUp, onStandby_down _ hu]
    · rw [exec_of_fits hf (exec_smbusResetArm ..), doSmbusResetArm, onStandby_down _ hu]
    · rw [exec_of_fits hf (exec_smbusResetConfirm ..), doSmbusResetConfirm, onStandby_down _ hu]
end Sys2Proof.Machine
end

section
/-! SUPPORT. Check 4 of R307: what the ring, the context's state or a management session does not permit (R331, R333, R340, R341, R455, R471). -/

namespace Sys2Proof.Machine

/-- Taking a packet leaves every context's state as it is. -/
theorem taken_ctxSt {s : State} (h : Hdr) (c : Nat) (hw : Tab.wf {} s.ctxs = true) : ((taken s h).ctx c).st = (s.ctx c).st := by
  have hring : ∀ k f, ((s.onRing k f).ctx c).st = (s.ctx c).st := fun k f => by
    unfold State.onRing State.onCtx State.ctx
    by_cases hk : c = k
    · rw [hk, Tab.get_upd_self k _ hw]
    · rw [Tab.get_upd_ne _ hk hw]
  unfold taken State.consume
  cases h.src with
  | mgmt n => rfl
  | ring k => exact hring k (fun r => { r with ccons := (r.ccons + h.len) % 4294967296, nseq := (h.seq + 1) % 65536 })

section
variable {s : State} {h : Hdr} {op : Nat} {sys : Bool}

/-- On a context's ring: another context's packet, or one of a row for the system ring. -/
theorem not_permitted_foreign {k : Nat} (hs : h.src = .ring k) (hk : k ≠ 0) (hf : h.ctx ≠ k ∨ sys = true) : s.permitted h op sys = false := by
  rcases hf with hf | hf <;> simp [State.permitted, hs, hk, hf]
/-- Groups 2 to 7 and 9 ask for an open context. -/
theorem not_permitted_notOpen (hg : (2 ≤ opGroup op ∧ opGroup op ≤ 7) ∨ opGroup op = 9) (hc : (s.ctx h.ctx).st ≠ .opened) :
    s.permitted h op sys = false := by
  rcases hg with hg | hg <;> simp [State.permitted, hg, hc]
/-- The ring of a fenced context takes groups 8 and 10 alone. -/
theorem not_permitted_fenced {k : Nat} (hs : h.src = .ring k) (hk : k ≠ 0) (hf : (s.ctx k).st = .fenced) (h8 : opGroup op ≠ 8) (h10 : opGroup op ≠ 10) :
    s.permitted h op sys = false := by
  simp [State.permitted, hs, hk, hf, h8, h10]
/-- A management session takes groups 10 and 11 and RESET alone. -/
theorem not_permitted_mgmt {n : Nat} (hs : h.src = .mgmt n) (h10 : opGroup op ≠ 10) (h11 : opGroup op ≠ 11) (hr : op ≠ 0x0C01) :
    s.permitted h op sys = false := by
  simp [State.permitted, Hdr.mgmt, hs, h10, h11, hr]
end

/-- Settles O51: each ground fails check 4, after checks 1 to 3 are passed (`packet_taken`). -/
theorem whatARingMayNotDo : Obligations.WhatARingMayNotDo := by
  intro c op lens sys h s hp hfit hw h0 h1 hlen ht hflags hctx hseq hground
  obtain ⟨body, hx⟩ := exec_packet s hp hfit
  have hdenied : (taken s h).permitted h op sys = false := by
    rcases hground with ⟨k, hs, hk, hf⟩ | ⟨hg, hc⟩ | ⟨k, hs, hk, hf, h8, h10⟩ | ⟨n, hs, h10, h11, hr⟩
    · exact not_permitted_foreign hs hk hf
    · exact not_permitted_notOpen hg (by rwa [taken_ctxSt h _ hw])
    · exact not_permitted_fenced hs hk (by rwa [taken_ctxSt h _ hw]) h8 h10
    · exact not_permitted_mgmt hs h10 h11 hr
  rw [hx, packet_taken body (by omega) ht, if_neg (ne_false_of_eq_true hlen), if_neg (by omega), if_pos hdenied]
end Sys2Proof.Machine
end

section
/-! SUPPORT. Pattern packs, tests and their ends (spec 14: R357; spec 18: R429 to R437) on the states that the statement about them names. -/

namespace Sys2Proof.Machine

/-! PATTERN_LOAD (R437). -/

section
variable {h : Hdr} {slot : Nat} {x : DRef} {s t : State} (hc : Comes 0x0901 [1] true h s t) (hn : slot < 16) (hx : t.refBad h.src x = none)
  (hl : t.ha.cxl = true)
include hc hn hx hl

theorem doPatternLoad_reads (ht : t.slotInTest slot = false) :
    doPatternLoad h slot x s = ranNow 0x0901 h .bind (fun u => u.readThen x h.ctx h.tag (fun b v => v.takePack slot b)) t := by
  rw [doPatternLoad, packet_comes hc, withRef_ok _ hx (rsv_of_comes hc) (by simp [hn]) hl, if_neg (ne_true_of_eq_false ht), apply_acceptNow]
theorem doPatternLoad_busy (ht : t.slotInTest slot = true) : doPatternLoad h slot x s = replied 0x0901 h stBusy 0 t := by
  rw [doPatternLoad, packet_comes hc, withRef_ok _ hx (rsv_of_comes hc) (by simp [hn]) hl, if_pos ht, apply_refuse]
end

theorem takePack_unsigned {slot : Nat} {b : List Byte} {s : State}
    (h : b.length < packEnd b + 96 ∨ verify s.tr.patternKey (b.take (packEnd b)) ((b.drop (packEnd b)).take 96) = false) :
    s.takePack slot b = (s, stSignature, 0) := if_pos h
theorem takePack_kept {slot : Nat} {b : List Byte} {s : State} (hl : packEnd b + 96 ≤ b.length)
    (hv : verify s.tr.patternKey (b.take (packEnd b)) ((b.drop (packEnd b)).take 96) = true) (hp : s.packOk slot b = true) :
    s.takePack slot b = (({ s with tr := { s.tr with packs := s.tr.packs.set none slot (some (packOf b)) } } : State).logRec 0x31 0 0xFFFF 6
      (leBytes 2 slot ++ leBytes 2 (packOf b).id ++ leBytes 2 (packOf b).ver), stOk, (packOf b).ver) := by
  unfold State.takePack
  dsimp only
  rw [if_neg (by simp [hv]; omega), if_neg (by simp [hp])]

/-! TEST_RUN (R429 to R431). -/

/-- A test's reference, its slot's pack and its unit fit, and nothing is at work there. -/
structure TestFits (h : Hdr) (unit slot corner : Nat) (x : DRef) (t : State) : Prop where
  uidFits : uidOk unit = true
  allowed : t.mayTest h unit = true
  slotFits : slot < 16
  cornerFits : corner < 8
  cornerNamed : corner % 4 ≠ 3
  refGood : t.refBad h.src x = none
  linkUp : t.ha.cxl = true
  packThere : t.tr.packs.get none slot ≠ none
  room : 32 * (testUnits unit).length ≤ x.dlen
  idle : t.testBusy unit corner = false

section
variable {h : Hdr} {unit slot corner : Nat} {x : DRef} {s t : State} (hc : Comes 0x0902 [1] false h s t)
include hc

theorem doTestRun_denied (hu : uidOk unit = true) (hcl : testClass unit = true) (hm : t.mayTest h unit = false) :
    doTestRun h unit slot corner x s = replied 0x0902 h stDenied 0 t := by
  rw [doTestRun, packet_comes hc, if_pos ⟨hu, hcl, hm⟩, apply_refuse]

variable (hf : TestFits h unit slot corner x t)
include hf

/-- A test that may run is accepted with the units it stands for; those of a stack controller and of a link start at once. -/
theorem doTestRun_accepted (hcl : testClass unit = true)
    (hthere : (decide (uClass unit = 0x10) || (if uClass unit = 0x12 then decide ((t.link (uSub unit)).st ≠ 0) else decide ((t.region (uRegion unit)).st ≠ .closed))) = true)
    (hserves : uClass unit = 0x10 → (t.sc (uSub unit)).serving = true) :
    doTestRun h unit slot corner x s = longAccepted 0x0902 h .testRun unit 0 (fun id u =>
      if uClass unit = 0x10 ∨ uClass unit = 0x12 then
        ((newTests id slot corner x (testUnits unit)).foldl State.tryTest (withTests (newTests id slot corner x (testUnits unit)) u)).closeTests
      else withTests (newTests id slot corner x (testUnits unit)) u) t := by
  obtain ⟨hu, hm, hs, h8, h3, hx, hl, hp, hroom, hidle⟩ := hf
  rw [doTestRun, packet_comes hc]
  dsimp only
  rw [if_neg (by simp [hm]), withRef_ok _ hx (rsv_of_comes hc) (by rw [hu, hcl, decide_eq_true hs, decide_eq_true h8, decide_eq_true h3, hthere]; rfl) hl,
    if_neg (not_or.mpr ⟨by simp [hp], fun hsc => by simp [hserves hsc.1] at hsc⟩), if_neg (Nat.not_lt.mpr hroom), if_neg (ne_true_of_eq_false hidle),
    apply_accepted]
  rfl
end

/-! TEST_ABORT (R436). -/

section
variable {h : Hdr} {unit : Nat} {s t : State} (hc : Comes 0x0903 [1] false h s t)
include hc

theorem doTestAbort_accepted (hu : uidOk unit = true) (ha : t.tr.tests.any (t.abortsTest h.ctx unit) = true) :
    doTestAbort h unit s = longAccepted 0x0903 h .testAbort unit h.ctx (fun _ u => u) t := by
  rw [doTestAbort, packet_comes hc, check6_ok _ (rsv_of_comes hc) (by rw [hu, ha]; rfl), apply_accepted]
theorem doTestAbort_none (ha : t.tr.tests.any (t.abortsTest h.ctx unit) = false) : doTestAbort h unit s = replied 0x0903 h stBadParam 0 t := by
  rw [doTestAbort, packet_comes hc, check6_bad _ (by rw [ha, Bool.and_false]), apply_refuse]
end

/-! TEST_UNIT_DONE and TEST_TIME_LIMIT (R432, R435, R437). -/

theorem testOn_unit {unit : Nat} {tu : TestUnit} {s : State} (h : s.testOn unit = some tu) : tu.unit = unit := by
  have hfound := List.find?_some h
  simp only [Bool.and_eq_true, decide_eq_true_eq] at hfound
  exact hfound.2
/-- A link is in service again by its retraining alone. -/
theorem testRelease_link {tu : TestUnit} {s : State} (h : uClass tu.unit = 0x12) : s.testRelease tu = s := by
  unfold State.testRelease
  dsimp only
  rw [if_neg (by simp [h]), if_neg (by simp [h])]

section
variable {unit : Nat} {f : TestFinds} {tu : TestUnit} {s : State}

theorem doTestUnitDone_none (h : s.testOn unit = none) : doTestUnitDone unit f s = s := by
  unfold doTestUnitDone
  rw [h]

variable (ht : s.testOn unit = some tu)
include ht

theorem doTestUnitDone_cluster (hk : uClass unit = 3) (hd : (s.region (uRegion unit)).cd = .on) :
    doTestUnitDone unit f s = (((s.testRelease tu).failSites unit f.cls (dedup (f.failed.filter (· < 20)))).testResult tu
      (b2n (decide (dedup (f.failed.filter (· < 20)) ≠ []))) (if dedup (f.failed.filter (· < 20)) = [] then 0 else f.cls) (mask32 (dedup (f.failed.filter (· < 20))))
      (20 - (dedup (f.failed.filter (· < 20))).length) (dedup (f.failed.filter (· < 20))).length).closeTests := by
  unfold doTestUnitDone
  rw [ht]
  dsimp only
  rw [if_pos hk, if_neg (not_not.mpr hd)]
theorem doTestUnitDone_link (hk : uClass unit = 0x12) (hf : f.failed = []) :
    doTestUnitDone unit f s = (s.testResult { tu with volt := f.volt } 0 0 0 1 0).closeTests := by
  have hsc : ¬uClass unit = 0x10 := by simp [hk]
  have hrelease : s.testRelease { tu with volt := f.volt } = s := testRelease_link (testOn_unit ht ▸ hk)
  unfold doTestUnitDone
  rw [ht]
  dsimp only
  rw [if_neg (by simp [hk]), if_neg hsc, if_neg hsc, hrelease, hf]
  simp [hsc, b2n, mask32]
theorem doTestTimeLimit_packed {p : Pack} (hp : s.tr.packs.get none tu.slot = some p) :
    doTestTimeLimit unit s = if s.clk.wall ≤ tu.since + thirds p.tmax then s
      else ((s.testRelease tu).testResult tu 1 0 0 0 (if uClass unit = 3 then 20 else 1)).closeTests := by
  unfold doTestTimeLimit
  rw [ht]
  dsimp only
  rw [hp, Option.map_some, Option.getD_some]
end

/-- Settles O37: packs by their checks, tests by their units' class, ends by the test that runs. -/
theorem testCommandsComplete : Obligations.TestCommandsComplete := by
  refine ⟨?reads, ?busy, ?unsigned, ?kept, ?sites, ?stack, ?denied, ?aborts, ?abortsNone, ?cluster, ?link, ?noTest, ?late, ?early⟩
  case reads =>
    intro h slot x s t hf hc hn hx hl ht
    rw [exec_of_fits hf (exec_patternLoad ..), doPatternLoad_reads hc hn hx hl ht]
  case busy =>
    intro h slot x s t hf hc hn hx hl ht
    rw [exec_of_fits hf (exec_patternLoad ..), doPatternLoad_busy hc hn hx hl ht]
  case unsigned => exact fun slot b s h => takePack_unsigned h
  case kept => exact fun slot b s hl hv hp => takePack_kept hl hv hp
  case sites =>
    intro h unit slot corner x s t hf hc hu hk hm hs h8 h3 hst hx hl hp hroom hidle
    have hclass : testClass unit = true := by
      rcases hk with hk | hk <;> simp [testClass, hk]
    have hsites : ¬(uClass unit = 0x10 ∨ uClass unit = 0x12) := by omega
    rw [exec_of_fits hf (exec_testRun ..), doTestRun_accepted hc ⟨hu, hm, hs, h8, h3, hx, hl, hp, hroom, hidle⟩ hclass
      (by rw [if_neg (by omega)]; simp [hst]) (by omega)]
    simp only [if_neg hsites]
  case stack =>
    intro h unit slot corner x s t hf hc hu hk hm hs h8 h3 hv hx hl hp hroom hidle
    have hone : testUnits unit = [unit] := if_neg (by omega)
    rw [exec_of_fits hf (exec_testRun ..), doTestRun_accepted hc ⟨hu, hm, hs, h8, h3, hx, hl, hp, by rw [hone]; exact hroom, hidle⟩
      (by simp [testClass, hk]) (by simp [hk]) (fun _ => hv), hone]
    simp only [if_pos (Or.inl hk)]
  case denied =>
    intro h unit slot corner x s t hf hc hu hcl hm
    rw [exec_of_fits hf (exec_testRun ..), doTestRun_denied hc hu hcl hm]
  case aborts =>
    intro h unit s t hf hc hu ha
    rw [exec_of_fits hf (exec_testAbort ..), doTestAbort_accepted hc hu ha]
  case abortsNone =>
    intro h unit s t hf hc ha
    rw [exec_of_fits hf (exec_testAbort ..), doTestAbort_none hc ha]
  case cluster =>
    intro unit f tu s hf ht hk hd
    rw [exec_of_fits hf (exec_testUnitDone ..), doTestUnitDone_cluster ht hk hd]
  case link =>
    intro unit f tu s hf ht hk hfail
    rw [exec_of_fits hf (exec_testUnitDone ..), doTestUnitDone_link ht hk hfail]
  case noTest =>
    intro unit f s hf h
    rw [exec_of_fits hf (exec_testUnitDone ..), doTestUnitDone_none h]
  case late =>
    intro unit tu p s hf ht hp hw
    rw [exec_of_fits hf (exec_testTimeLimit ..), doTestTimeLimit_packed ht hp, if_neg (Nat.not_le.mpr hw)]
  case early =>
    intro unit tu p s hf ht hp hw
    rw [exec_of_fits hf (exec_testTimeLimit ..), doTestTimeLimit_packed ht hp, if_pos hw]
end Sys2Proof.Machine
end

section
/-! SUPPORT. Log reads and status, traces, the rate window and the power-fail comparator (spec 14: R358; spec 18: R439 to R441) on the states
that the statement about them names. -/

namespace Sys2Proof.Machine

/-- A parameter out of its range is BAD_PARAM whatever an admitted data reference names. -/
theorem withRef_outside {h : Hdr} {x : DRef} {s : State} (k : Verdict) (hx : s.refBad h.src x = none) : withRef h x s false k = refuse stBadParam s := by
  simp [withRef, hx, check6]

/-! LOG_READ and LOG_STATUS. -/

theorem logBytes_foreign {c i : Nat} {r : Rec} {s : State} (h : s.log.recs.find? (fun p => p.1 = i) = some (i, r)) (hr : r.ctx ≠ c) (hc : c ≠ 0) :
    s.logBytes (.ring c) i = List.replicate 256 0#8 := by
  unfold State.logBytes
  rw [h]
  exact if_neg (by simp [hr, hc])
theorem logBytes_system {i : Nat} {r : Rec} {s : State} (h : s.log.recs.find? (fun p => p.1 = i) = some (i, r)) : s.logBytes (.ring 0) i = r.bytes i := by
  unfold State.logBytes
  rw [h]
  exact if_pos rfl

section
variable {h : Hdr} {first count : Nat} {x : DRef} {s t : State} (hc : Comes 0x0A01 [1] false h s t) (hx : t.refBad h.src x = none)
include hc hx

theorem doLogRead_inRange (hold : t.log.oldest ≤ first) (hnext : first + count ≤ t.log.next) (hl : t.ha.cxl = true) :
    doLogRead h first count x s = answered 0x0A01 h x ((List.range count).flatMap (fun i => t.logBytes h.src (first + i))) t := by
  have hok : (decide (t.log.oldest ≤ first) && decide (first + count ≤ t.log.next)) = true := by simp [hold, hnext]
  rw [doLogRead, packet_comes hc]
  dsimp only
  rw [writeOut_ok _ _ hx (rsv_of_comes hc) hok hl, if_pos hok]
theorem doLogRead_outside (hout : first < t.log.oldest ∨ t.log.next < first + count) : doLogRead h first count x s = replied 0x0A01 h stBadParam 0 t := by
  have hok : (decide (t.log.oldest ≤ first) && decide (first + count ≤ t.log.next)) = false := by simp; omega
  rw [doLogRead, packet_comes hc]
  dsimp only
  rw [hok, writeOut, withRef_outside _ hx, apply_refuse]
end

theorem doLogStatus_ok {h : Hdr} {s t : State} (hc : Comes 0x0A02 [1] false h s t) :
    doLogStatus h s = replied 0x0A02 h stOk (t.log.next + t.log.oldest * 2 ^ 32) t := by
  rw [doLogStatus, packet_comes hc, check6_ok _ (rsv_of_comes hc) rfl, apply_done]

/-! TRACE_CONFIG. -/

section
variable {h : Hdr} {unit start stop : Nat} {x : DRef} {s t : State} (hc : Comes 0x0A03 [2] false h s t)
include hc

theorem doTraceConfig_denied {flags : Nat} (ht : (t.ctx h.ctx).trace_ = false) :
    doTraceConfig h unit flags start stop x s = replied 0x0A03 h stDenied 0 t := by
  rw [doTraceConfig, packet_comes hc]
  dsimp only
  rw [if_pos (Or.inl ht), apply_refuse]

variable (ht : (t.ctx h.ctx).trace_ = true) (hu : uidOk unit = true) (hp : h.sys = true ∨ t.telemOk h.ctx unit = true)
include ht hp

omit hc in
/-- A context with TRACE that may see the unit passes TRACE_CONFIG's own check. -/
theorem traceConfig_allowed : ¬((t.ctx h.ctx).trace_ = false ∨ (uidOk unit ∧ h.sys = false ∧ t.telemOk h.ctx unit = false)) := by
  rcases hp with hp | hp <;> simp [ht, hp]

include hu
theorem doTraceConfig_start (hx : t.refBad h.src x = none) (hl : t.ha.cxl = true) :
    doTraceConfig h unit 1 start stop x s = longAccepted 0x0A03 h .trace unit 0 (fun id u =>
      { u with tr := { u.tr with traces := u.tr.traces ++ [⟨id, unit, start, stop, x, h.src.dataCtx, 0, []⟩] } }) t := by
  rw [doTraceConfig, packet_comes hc]
  dsimp only
  rw [if_neg (traceConfig_allowed ht hp), if_pos (by decide), withRef_ok _ hx (rsv_of_comes hc) (by rw [hu]; rfl) hl, apply_accepted]
theorem doTraceConfig_stop :
    doTraceConfig h unit 0 start stop x s = longAccepted 0x0A03 h .trace unit 0 (fun id u =>
      ((u.tracesOf h unit).foldl (fun s t => s.endTrace t stOk t.n) u).finish id stOk ((u.tracesOf h unit).foldl (fun a t => a + t.n) 0)) t := by
  rw [doTraceConfig, packet_comes hc]
  dsimp only
  rw [if_neg (traceConfig_allowed ht hp), if_neg (by decide), check6_ok _ (rsv_of_comes hc) (by rw [hu]; rfl), apply_accepted]
end

/-! LOG_RATE_WINDOW_END and POWER_FAIL_CAPTURE. -/

section
variable {s : State}

theorem doLogRateWindowEnd_early (h : s.clk.wall < s.log.winStart + thirds 1) : doLogRateWindowEnd s = s := if_pos h

section
variable (h : s.log.winStart + thirds 1 ≤ s.clk.wall)
include h

theorem doLogRateWindowEnd_quiet (hd : s.log.dropped = 0) : doLogRateWindowEnd s = { s with
    log := { s.log with winStart := s.log.winStart + thirds 1, winStamp := s.now, winRecs := 0, dropped := 0, dropCls := 0, dropUnit := 0, dropStamp := 0 } } := by
  unfold doLogRateWindowEnd
  dsimp only
  rw [if_neg (Nat.not_lt.mpr h), if_pos hd]
theorem doLogRateWindowEnd_summary {u : State} (hd : s.log.dropped ≠ 0)
    (hu : (s.logRec 3 2 0xFFFF 28 (leBytes 4 s.log.dropped ++ leBytes 2 s.log.dropCls ++ leBytes 2 0 ++ leBytes 4 s.log.dropUnit ++ leBytes 8 s.log.dropStamp ++
      leBytes 8 s.log.winStamp)).postFault s.log.dropUnit s.log.dropCls s.log.next 0 = u) :
    doLogRateWindowEnd s = { u with log := { u.log with
      winStart := s.log.winStart + thirds 1, winStamp := s.now, winRecs := 0, dropped := 0, dropCls := 0, dropUnit := 0, dropStamp := 0 } } := by
  unfold doLogRateWindowEnd
  dsimp only
  rw [if_neg (Nat.not_lt.mpr h), if_neg hd, hu]
end

theorem doPowerFailCapture_fed (h : s.inputsLow = false) : doPowerFailCapture s = s := if_pos (Or.inl h)
theorem doPowerFailCapture_low {u : State} (h : s.inputsLow = true) (hb : s.tr.boot ≠ .standby)
    (hu : ({ s with regions := allRegions.foldl (fun (t : Tab Region) r => t.upd {} r (fun g => { g with cd := .off, cdQueued := false })) s.regions } : State) = u) :
    doPowerFailCapture s = { u.capture with
      ha := { u.capture.ha with ready := false, warm := false, cxl := false, trained := false }, tr := { u.capture.tr with boot := .standby, wafer := false } } := by
  subst hu
  exact if_neg (by simp [h, hb])
end

/-- Settles O38: log commands by their range, traces by the context's right to the unit, the two windows by the time and the voltage. -/
theorem logCommandsComplete : Obligations.LogCommandsComplete := by
  refine ⟨?read, ?outside, ?foreign, ?system, ?status, ?start, ?stop, ?denied, ?windowEnd, ?quiet, ?summary, ?early, ?capture, ?fed⟩
  case read =>
    intro h first count x s t hf hc hold hnext hx hl
    rw [exec_of_fits hf (exec_logRead ..), doLogRead_inRange hc hx hold hnext hl]
  case outside =>
    intro h first count x s t hf hc hout hx
    rw [exec_of_fits hf (exec_logRead ..), doLogRead_outside hc hx hout]
  case foreign => exact fun c i r s h hr hc => logBytes_foreign h hr hc
  case system => exact fun i r s h => logBytes_system h
  case status =>
    intro h s t hf hc
    rw [exec_of_fits hf (exec_logStatus ..), doLogStatus_ok hc]
  case start =>
    intro h unit start stop x s t hf hc ht hu hp hx hl
    rw [exec_of_fits hf (exec_traceConfig ..), doTraceConfig_start hc ht hu hp hx hl]
  case stop =>
    intro h unit start stop x s t hf hc ht hu hp
    rw [exec_of_fits hf (exec_traceConfig ..), doTraceConfig_stop hc ht hu hp]
  case denied =>
    intro h unit flags start stop x s t hf hc ht
    rw [exec_of_fits hf (exec_traceConfig ..), doTraceConfig_denied hc ht]
  case windowEnd => exact fun unit s hf => exec_of_fits hf (exec_traceWindowEnd ..)
  case quiet =>
    intro s hf h hd
    rw [exec_of_fits hf (exec_logRateWindowEnd ..), doLogRateWindowEnd_quiet h hd]
  case summary =>
    intro u s hf h hd hu
    rw [exec_of_fits hf (exec_logRateWindowEnd ..), doLogRateWindowEnd_summary h hd hu]
  case early =>
    intro s hf h
    rw [exec_of_fits hf (exec_logRateWindowEnd ..), doLogRateWindowEnd_early h]
  case capture =>
    intro u v s hf hlow hb hu hv
    rw [exec_of_fits hf (exec_powerFailCapture ..), doPowerFailCapture_low hlow hb hu, hv]
  case fed =>
    intro s hf h
    rw [exec_of_fits hf (exec_powerFailCapture ..), doPowerFailCapture_fed h]
end Sys2Proof.Machine
end

section
/-! SUPPORT. Restore requests, their ends and lost modules (spec 17: R425, R426) on the states that the statement about them names. -/

namespace Sys2Proof.Machine

/-! RESTORE_REQUEST and RESTORE_DONE (R426). -/

/-- A mask without a bit asks for nothing. -/
theorem restoreAnswer_zero (f : FHdr) (pos : Nat) (s : State) : restoreAnswer f pos 0 s = (s, 0) := by
  simp [restoreAnswer, bit]
theorem doRestoreRequest_ok {f : FHdr} {pos mask : Nat} {a : Sending} {s : State} (hk : fabricOk f 0 [12] s = true)
    (ha : restoreAnswer f pos mask (s.rxCount f) = a) :
    doRestoreRequest f pos mask s = a.1.answerAll f 0 [⟨0, 0x10, f.ctx, f.spos, ctlBody 7 (doneBody f.ctx s.myPos (a.1.ctx f.ctx) a.2)⟩] := by
  rw [doRestoreRequest, State.fabricIn_ok hk]
  dsimp only
  rw [ha, State.rxCount_myPos]

section
variable {f : FHdr} {pos last cur seed attempt gnorm units : Nat} {counts : List Nat} {t : Takeover} {s : State} (hk : fabricOk f 0 [296] s = true)
  (ht : (s.ctx f.ctx).takeover = some t)
include hk ht

/-- A good RESTORE_DONE for a context whose takeover runs acts on that takeover. -/
theorem doRestoreDone_running : doRestoreDone f pos last cur seed attempt gnorm units counts s =
    if t.asked = false then
      if units = 0 then (s.rxCount f).endTakeover f.ctx stOk 0
      else ((s.rxCount f).askOthers f last cur seed attempt gnorm units counts).tryTakeover f.ctx
    else ((s.rxCount f).onCtx f.ctx (fun x => { x with takeover := x.takeover.map (fun t =>
      { t with wait := t.wait.filter (· ≠ if f.spod = s.myPod then pos else 65), due := t.due.upd 0 (if f.spod = s.myPod then pos else 65) (· + units) }) })).tryTakeover f.ctx := by
  rw [doRestoreDone, State.fabricIn_ok hk]
  dsimp only
  rw [State.rxCount_ctx, ht, State.rxCount_myPod]
end

/-! MODULE_LOST (R425). -/

section
variable {pos : Nat} {s : State}

theorem doModuleLost_heard (h : s.silent pos = false) : doModuleLost pos s = s := if_pos (Or.inr (Or.inl h))
/-- The first silence of a peer loses it, for each context it affects. -/
theorem doModuleLost_silent {u : State} (hl : (s.pod.peers.get {} pos).lost = false) (hs : s.silent pos = true) (hp : pos ≠ s.myPos)
    (hu : ({ s with pod := { s.pod with peers := s.pod.peers.upd {} pos (fun p => { p with lost := true }) } } : State) = u) :
    doModuleLost pos s = if u.affected pos = [] then u.keeperFault fcModuleLost uidKeeper 0 0 [pos]
      else (u.affected pos).foldl (fun s c => s.lostFor pos c) u := by
  unfold doModuleLost
  rw [if_neg (by simp [hl, hs, hp])]
  dsimp only
  rw [hu]
  cases u.affected pos <;> rfl
end

/-- Settles O27: a restore packet that passes the checks of the fabric by its takeover's progress, a lost module by the contexts it affects. -/
theorem takeoverCommandsComplete : Obligations.TakeoverCommandsComplete := by
  refine ⟨?request, ?nothing, ?nothingToTake, ?askOthers, ?laterSender, ?noContext, ?contexts, ?heard⟩
  case request =>
    intro f pos mask a s hf hk ha
    rw [exec_of_fits hf (exec_restoreRequest ..), doRestoreRequest_ok hk ha]
  case nothing => exact restoreAnswer_zero
  case nothingToTake =>
    intro f pos last cur seed attempt gnorm counts t s hf hk ht ha
    rw [exec_of_fits hf (exec_restoreDone ..), doRestoreDone_running hk ht, if_pos ha, if_pos rfl]
  case askOthers =>
    intro f pos last cur seed attempt gnorm units counts t s hf hk ht ha hn
    rw [exec_of_fits hf (exec_restoreDone ..), doRestoreDone_running hk ht, if_pos ha, if_neg (Nat.ne_of_gt hn)]
  case laterSender =>
    intro f pos last cur seed attempt gnorm units counts t s hf hk ht ha hp
    rw [exec_of_fits hf (exec_restoreDone ..), doRestoreDone_running hk ht, if_neg (by simp [ha]), if_pos hp]
  case noContext =>
    intro pos s u hf hl hs hp hu hnone
    rw [exec_of_fits hf (exec_moduleLost ..), doModuleLost_silent hl hs hp hu, if_pos hnone]
  case contexts =>
    intro pos c cs s u hf hl hs hp hu hsome
    rw [exec_of_fits hf (exec_moduleLost ..), doModuleLost_silent hl hs hp hu, hsome, if_neg (List.cons_ne_nil c cs)]
  case heard =>
    intro pos s hf h
    rw [exec_of_fits hf (exec_moduleLost ..), doModuleLost_heard h]
end Sys2Proof.Machine
end
